-- ==== Sys2Proof/Word.lean ====
section
/-! DEFINITION. The word types of the machine and the one kind of sparse store the model uses: a list of
(key, value) pairs in canonical form. Memory, register files, cores, contexts and every other collection keyed by a
number is such a `Table`, so that equal contents are equal data and one set of lemmas covers them all. -/

namespace Sys2Proof

/-- One byte of memory (00 R3). -/
abbrev Byte := BitVec 8
/-- A doubleword: an instruction word, a scalar value, an address (15 R242, 16 R271). -/
abbrev Word := BitVec 64
/-- The contents of a v register, an LQ or SQ entry, or a vector unit (03 R51). -/
abbrev Vec := BitVec 1024

/-- The two's complement value of a doubleword: S64 of 16 R271. -/
def s64 (w : Word) : Int := w.toInt

/-- An integer narrowed mod 2^64 (00 R5). -/
def w64 (i : Int) : Word := BitVec.ofInt 64 i

/-- A Boolean as the doubleword 1 or 0. -/
def bit (b : Bool) : Word := if b then 1 else 0

/-- Bits hi:lo of a doubleword as a number (00, pseudocode). -/
def fld (w : Word) (hi lo : Nat) : Nat := (w.toNat / 2 ^ lo) % 2 ^ (hi + 1 - lo)

/-- Bit i of a doubleword. -/
def fbit (w : Word) (i : Nat) : Bool := w.getLsbD i

/-- A sparse store: pairs in strictly rising key order, none of them holding what an unlisted key reads as. -/
abbrev Table (α : Type) := List (Nat × α)

namespace Table

/-- The value at key `k`; an unlisted key reads as `d`. -/
def get {α : Type} (d : α) : Table α → Nat → α
  | [], _ => d
  | (j, v) :: t, k => if j = k then v else get d t k

/-- The value listed at key `k`, if there is one. -/
def find? {α : Type} : Table α → Nat → Option α
  | [], _ => none
  | (j, v) :: t, k => if j = k then some v else find? t k

/-- Insert or replace the entry of `k`, keeping the keys rising. -/
def insert {α : Type} : Table α → Nat → α → Table α
  | [], k, v => [(k, v)]
  | (j, u) :: t, k, v =>
    if k < j then (k, v) :: (j, u) :: t
    else if k = j then (k, v) :: t
    else (j, u) :: insert t k v

/-- Remove every entry of `k`. -/
def erase {α : Type} : Table α → Nat → Table α
  | [], _ => []
  | (j, u) :: t, k => if j = k then erase t k else (j, u) :: erase t k

/-- Write `v` at `k`; writing what an unlisted key reads as removes the entry. -/
def set {α : Type} [DecidableEq α] (d : α) (t : Table α) (k : Nat) (v : α) : Table α :=
  if v = d then erase t k else insert t k v

/-- The canonical form: keys strictly rising, no entry equal to the default. -/
def wf {α : Type} [DecidableEq α] (d : α) : Table α → Bool
  | [] => true
  | (j, v) :: t => decide (v ≠ d) && t.all (fun p => decide (j < p.1)) && wf d t

end Table

end Sys2Proof
end

