-- ==== Sys2Proof/Syntax.lean ====
section
/-! DEFINITION. The instructions and events of the machine: one constructor of `Instr` for every row of the opcode table.
An instruction word's fields are names here, never raw bits: operands are `Opnd`, modifiers are the inductive types of
15 R250-R253, immediates are bit vectors of their field's width. The 109 rows with no encoding are the steps that the host,
the Plinths, the engines, the toll cores, the links and the environment take; their operands say which of them moves. -/

namespace Sys2Proof

/-- An operand specifier (15 R246, 03 R55-R57): CLS in bits 11:9, IDX in bits 8:0. Class 3 names a v register, or a tile
register where the field's role is T (R248). `ring h c` is `hn:c` with the count field as encoded, 0 standing for 32. -/
inductive Opnd where
  | x (i : Fin 128)
  | y (i : Fin 16)
  | l (i : Fin 4)
  | v (i : Fin 32)
  | port (i : Fin 8)
  | ring (h : Fin 16) (c : Fin 32)
  | imm (i : BitVec 9)
  | k (i : Fin 16)
  | lane
  | core
  | gcoord
  | gtb
  | sink
  deriving DecidableEq, Repr

/-- Element types of groups 0x9-0xB and SCAN: the TYPE codes 0-9 of 15 R250. -/
inductive VTy where
  | i8 | i16 | i32 | i64 | e4m3 | e5m2 | f16 | bf16 | f32 | f64
  deriving DecidableEq, Repr

/-- Rounding modes in the order of their codes (15 R250). -/
inductive RM where
  | rne | rtz | rup | rdn
  deriving DecidableEq, Repr

/-- Access width of LD, ST, LSLD and LSST (15 R251). -/
inductive Width where
  | b | h | w | d | q
  deriving DecidableEq, Repr

/-- Lane width LW of the strided and indexed forms, in the order of its codes (15 R251). -/
inductive LaneW where
  | i32 | i64 | i16 | i8
  deriving DecidableEq, Repr

/-- OP of SCAN and SCANW (15 R253); code 3 is reserved. -/
inductive ScanOp where
  | sum | max | min
  deriving DecidableEq, Repr

/-- SCOPE of JINIT: the poison domain of the counter (10 R172, R174). -/
inductive JScope where
  | die | pkg | sys
  deriving DecidableEq, Repr

/-- SCOPE of an ORD prefix (15 R257). -/
inductive OScope where
  | clu | die | pkg
  deriving DecidableEq, Repr

/-- STR of an ORD prefix (15 R257). -/
inductive Strength where
  | acq | rel | ar
  deriving DecidableEq, Repr

/-- The payload of an ORD prefix (15 R257). -/
structure Order where
  scope : OScope
  str : Strength
  deriving DecidableEq, Repr

/-- F-R with an empty MOD (15 R245): safe-point bit, early-bound marks, D, A, B. A field the map leaves unused is `x 0`,
whose specifier is 0x000 (R247). -/
structure FR where
  sp : Bool
  bm : BitVec 3
  d : Opnd
  a : Opnd
  b : Opnd
  deriving DecidableEq, Repr

/-- F-R with the C field of 15 R246. -/
structure FRC where
  sp : Bool
  bm : BitVec 3
  d : Opnd
  a : Opnd
  b : Opnd
  c : Opnd
  deriving DecidableEq, Repr

/-- SEND: F-R with MOD bit 49 the stream flag (15 R253). -/
structure FRS where
  sp : Bool
  bm : BitVec 3
  stream : Bool
  d : Opnd
  a : Opnd
  b : Opnd
  deriving DecidableEq, Repr

/-- TLD: F-R with MOD bit 49 .STRICT (15 R253). -/
structure FRT where
  sp : Bool
  bm : BitVec 3
  strict : Bool
  d : Opnd
  a : Opnd
  b : Opnd
  deriving DecidableEq, Repr

/-- The strided and indexed memory forms: lane width and .NT (15 R251). -/
structure FRL where
  sp : Bool
  bm : BitVec 3
  lw : LaneW
  nt : Bool
  d : Opnd
  a : Opnd
  b : Opnd
  deriving DecidableEq, Repr

/-- Group 0x8: .P, width (.D when `dbl`), and the C field (15 R252). -/
structure FA where
  sp : Bool
  bm : BitVec 3
  post : Bool
  dbl : Bool
  c : Opnd
  d : Opnd
  a : Opnd
  b : Opnd
  deriving DecidableEq, Repr

/-- The MOD layout of groups 0x9, 0xA and 0xB (15 R250). -/
structure VMod where
  ty : VTy
  rm : RM
  sat : Bool
  m : Bool
  s : Bool
  xmod : BitVec 5
  deriving DecidableEq, Repr

/-- A vector instruction (15 R250, 18 R327). -/
structure FV where
  sp : Bool
  bm : BitVec 3
  md : VMod
  d : Opnd
  a : Opnd
  b : Opnd
  deriving DecidableEq, Repr

/-- SCAN and SCANW (15 R253). -/
structure FSC where
  sp : Bool
  bm : BitVec 3
  ty : VTy
  ex : Bool
  ci : Bool
  sg : Bool
  op : ScanOp
  d : Opnd
  a : Opnd
  b : Opnd
  deriving DecidableEq, Repr

/-- F-I (15 R245). -/
structure FI where
  sp : Bool
  bm : BitVec 3
  d : Opnd
  a : Opnd
  imm : BitVec 20
  deriving DecidableEq, Repr

/-- F-M with width, extension and space (15 R251). -/
structure FM where
  sp : Bool
  bm : BitVec 3
  width : Width
  ext : Bool
  nt : Bool
  d : Opnd
  a : Opnd
  off : BitVec 20
  deriving DecidableEq, Repr

/-- F-M of group 0x6 whose width the opcode fixes (15 R251). -/
structure FMV where
  sp : Bool
  bm : BitVec 3
  nt : Bool
  d : Opnd
  a : Opnd
  off : BitVec 20
  deriving DecidableEq, Repr

/-- F-M of group 0x7 whose width the opcode fixes: MOD is zero (15 R251). -/
structure FML where
  sp : Bool
  bm : BitVec 3
  d : Opnd
  a : Opnd
  off : BitVec 20
  deriving DecidableEq, Repr

/-- F-C: the .T hint, A, B and the displacement in words (15 R245, R253). -/
structure FC where
  sp : Bool
  bm : BitVec 3
  hint : Bool
  a : Opnd
  b : Opnd
  disp : BitVec 20
  deriving DecidableEq, Repr

/-- JOIN: the amount less one, the counter number and the target (10 R174). -/
structure FJoin where
  sp : Bool
  bm : BitVec 3
  n : BitVec 8
  j : BitVec 6
  d : Opnd
  a : Opnd
  b : Opnd
  deriving DecidableEq, Repr

/-- JINIT: the poison domain, the counter number and the count source (10 R174). -/
structure FJinit where
  sp : Bool
  bm : BitVec 3
  scope : JScope
  j : BitVec 6
  d : Opnd
  a : Opnd
  b : Opnd
  deriving DecidableEq, Repr

/-- The four rings through which the device tells the host (06 R119-R120). -/
inductive RingKind where
  | deadLetter | hostQueue | errorQueue | service
  deriving DecidableEq, Repr

/-- Where a corrected soft error was found (23 R435): an SRAM of the die, or one of its two stacks. -/
inductive ErrSite where
  | sram | hbmA | hbmB
  deriving DecidableEq, Repr

/-- Where an uncorrectable error was met (01 R21, 11 R201, 22 R424): an access of core `c`; the write-out of tile `n` that
core `c` holds, the restore of a cast on core `c`; the lay-by of context `ctx`; a read of the Matrix or Junction Engine of cluster `u`, or of Copy Engine `e`; a place
of the die no context uses. -/
inductive UncSite where
  | access (c : Nat) (va : Word)
  | tiles (c n : Nat)
  | cast (c : Nat)
  | layby (ctx : Nat)
  | engine (u : Nat)
  | copyEngine (e : Nat)
  | idle
  deriving DecidableEq, Repr

/-- Every step of the machine. Constructors in the order of the opcode map (15 R254), then UNASSIGNED_OPCODE, then the events.
Operand letters of the events: `ctx` context id, `q` queue, `l` launch number, `c` core key (die*1024 + x*32 + y), `u` cluster
key (die*128 + cluster index) or gauge unit, `e` Copy Engine, `n` link, `i` the place in its list of a message in flight. -/
inductive Instr where
  /-- XIMM, opcode 0x001 (R256). -/
  | ximm (payload : BitVec 32)
  /-- ORD, opcode 0x002 (R258). -/
  | ord (o : Order)
  /-- NOP, opcode 0x003 (R275). -/
  | nop (f : FR)
  /-- TRAP, opcode 0x004 (R384). -/
  | trap (f : FI)
  /-- TRAPD, opcode 0x005 (R387). -/
  | trapd (f : FI)
  /-- BRK, opcode 0x006 (R385). -/
  | brk (f : FI)
  /-- ERET, opcode 0x007 (R386). -/
  | eret (f : FR)
  /-- CSRR, opcode 0x008 (R388). -/
  | csrr (f : FI)
  /-- CSRW, opcode 0x009 (R388). -/
  | csrw (f : FI)
  /-- CSRS, opcode 0x00A (R388). -/
  | csrs (f : FI)
  /-- CSRC, opcode 0x00B (R388). -/
  | csrc (f : FI)
  /-- FENCE_CODE, opcode 0x00C (R392). -/
  | fenceCode (f : FR)
  /-- PTSYNC, opcode 0x00D (R393). -/
  | ptsync (f : FR)
  /-- STOPW, opcode 0x00E (R394). -/
  | stopw (f : FR)
  /-- RESUMEW, opcode 0x00F (R394). -/
  | resumew (f : FR)
  /-- WAITT, opcode 0x010 (R395). -/
  | waitt (f : FR)
  /-- HALT, opcode 0x011 (R275). -/
  | halt (f : FR)
  /-- ADD, opcode 0x040 (R277). -/
  | add (f : FR)
  /-- SUB, opcode 0x041 (R277). -/
  | sub (f : FR)
  /-- MUL, opcode 0x042 (R277). -/
  | mul (f : FR)
  /-- MULH, opcode 0x043 (R277). -/
  | mulh (f : FR)
  /-- MULHU, opcode 0x044 (R277). -/
  | mulhu (f : FR)
  /-- DIV, opcode 0x045 (R278). -/
  | div (f : FR)
  /-- DIVU, opcode 0x046 (R278). -/
  | divu (f : FR)
  /-- REM, opcode 0x047 (R278). -/
  | rem (f : FR)
  /-- REMU, opcode 0x048 (R278). -/
  | remu (f : FR)
  /-- AND, opcode 0x049 (R277). -/
  | and (f : FR)
  /-- OR, opcode 0x04A (R277). -/
  | or (f : FR)
  /-- XOR, opcode 0x04B (R277). -/
  | xor (f : FR)
  /-- ANDN, opcode 0x04C (R277). -/
  | andn (f : FR)
  /-- ORN, opcode 0x04D (R277). -/
  | orn (f : FR)
  /-- SHL, opcode 0x04E (R277). -/
  | shl (f : FR)
  /-- SHR, opcode 0x04F (R277). -/
  | shr (f : FR)
  /-- SHRA, opcode 0x050 (R277). -/
  | shra (f : FR)
  /-- ROL, opcode 0x051 (R277). -/
  | rol (f : FR)
  /-- ROR, opcode 0x052 (R277). -/
  | ror (f : FR)
  /-- MIN, opcode 0x053 (R277). -/
  | min (f : FR)
  /-- MAX, opcode 0x054 (R277). -/
  | max (f : FR)
  /-- MINU, opcode 0x055 (R277). -/
  | minu (f : FR)
  /-- MAXU, opcode 0x056 (R277). -/
  | maxu (f : FR)
  /-- CMPEQ, opcode 0x057 (R277). -/
  | cmpeq (f : FR)
  /-- CMPNE, opcode 0x058 (R277). -/
  | cmpne (f : FR)
  /-- CMPLT, opcode 0x059 (R277). -/
  | cmplt (f : FR)
  /-- CMPLTU, opcode 0x05A (R277). -/
  | cmpltu (f : FR)
  /-- SEL, opcode 0x05B (R279). -/
  | sel (f : FRC)
  /-- CLZ, opcode 0x05C (R280). -/
  | clz (f : FR)
  /-- CTZ, opcode 0x05D (R280). -/
  | ctz (f : FR)
  /-- POPC, opcode 0x05E (R280). -/
  | popc (f : FR)
  /-- BREV, opcode 0x05F (R280). -/
  | brev (f : FR)
  /-- BSWAP, opcode 0x060 (R280). -/
  | bswap (f : FR)
  /-- EXT, opcode 0x061 (R281). -/
  | ext (f : FR)
  /-- INS, opcode 0x062 (R281). -/
  | ins (f : FR)
  /-- MOV, opcode 0x063 (R280). -/
  | mov (f : FR)
  /-- ADDI, opcode 0x080 (R283). -/
  | addi (f : FI)
  /-- ANDI, opcode 0x081 (R283). -/
  | andi (f : FI)
  /-- ORI, opcode 0x082 (R283). -/
  | ori (f : FI)
  /-- XORI, opcode 0x083 (R283). -/
  | xori (f : FI)
  /-- SHLI, opcode 0x084 (R283). -/
  | shli (f : FI)
  /-- SHRI, opcode 0x085 (R283). -/
  | shri (f : FI)
  /-- SHRAI, opcode 0x086 (R283). -/
  | shrai (f : FI)
  /-- CMPLTI, opcode 0x087 (R283). -/
  | cmplti (f : FI)
  /-- MOVI, opcode 0x088 (R283). -/
  | movi (f : FI)
  /-- MOVHI, opcode 0x089 (R283). -/
  | movhi (f : FI)
  /-- CGETA, opcode 0x0C0 (R286). -/
  | cgeta (f : FR)
  /-- CSETA, opcode 0x0C1 (R287). -/
  | cseta (f : FR)
  /-- CINC, opcode 0x0C2 (R287). -/
  | cinc (f : FI)
  /-- CSETB, opcode 0x0C3 (R288). -/
  | csetb (f : FR)
  /-- CGETB, opcode 0x0C4 (R286). -/
  | cgetb (f : FR)
  /-- CGETL, opcode 0x0C5 (R286). -/
  | cgetl (f : FR)
  /-- CANDP, opcode 0x0C6 (R289). -/
  | candp (f : FR)
  /-- CGETP, opcode 0x0C7 (R286). -/
  | cgetp (f : FR)
  /-- CTAG, opcode 0x0C8 (R286). -/
  | ctag (f : FR)
  /-- CCLR, opcode 0x0C9 (R287). -/
  | cclr (f : FR)
  /-- CSUB, opcode 0x0CA (R286). -/
  | csub (f : FR)
  /-- CLSCAP, opcode 0x0CB (R290). -/
  | clscap (f : FR)
  /-- CSEAL, opcode 0x0CC (R291). -/
  | cseal (f : FR)
  /-- CUNSEAL, opcode 0x0CD (R291). -/
  | cunseal (f : FR)
  /-- BEQ, opcode 0x100 (R294). -/
  | beq (f : FC)
  /-- BNE, opcode 0x101 (R294). -/
  | bne (f : FC)
  /-- BLT, opcode 0x102 (R294). -/
  | blt (f : FC)
  /-- BGE, opcode 0x103 (R294). -/
  | bge (f : FC)
  /-- BLTU, opcode 0x104 (R294). -/
  | bltu (f : FC)
  /-- BGEU, opcode 0x105 (R294). -/
  | bgeu (f : FC)
  /-- BK, opcode 0x106 (R294). -/
  | bk (f : FC)
  /-- BNK, opcode 0x107 (R294). -/
  | bnk (f : FC)
  /-- JMP, opcode 0x108 (R294). -/
  | jmp (f : FC)
  /-- JAL, opcode 0x109 (R297). -/
  | jal (f : FC)
  /-- JR, opcode 0x10A (R298). -/
  | jr (f : FR)
  /-- LOOP, opcode 0x10B (R296). -/
  | loop (f : FC)
  /-- SEND, opcode 0x140 (R312). -/
  | send (f : FRS)
  /-- SENDM, opcode 0x141 (R313). -/
  | sendm (f : FRC)
  /-- RECV, opcode 0x142 (R314). -/
  | recv (f : FR)
  /-- FIRE, opcode 0x143 (R315). -/
  | fire (f : FR)
  /-- END, opcode 0x144 (R316). -/
  | endFiring (f : FR)
  /-- YIELD, opcode 0x145 (R165). -/
  | yieldFiring (f : FR)
  /-- MIGRATE, opcode 0x146 (R169). -/
  | migrate (f : FR)
  /-- EVSET, opcode 0x147 (R167). -/
  | evset (f : FR)
  /-- EVCLR, opcode 0x148 (R167). -/
  | evclr (f : FR)
  /-- EVWAIT, opcode 0x149 (R167). -/
  | evwait (f : FR)
  /-- EVTEST, opcode 0x14A (R167). -/
  | evtest (f : FR)
  /-- JOIN, opcode 0x14B (R175). -/
  | join (f : FJoin)
  /-- JINIT, opcode 0x14C (R175). -/
  | jinit (f : FJinit)
  /-- HTSET, opcode 0x14D (R317). -/
  | htset (f : FR)
  /-- HTGET, opcode 0x14E (R317). -/
  | htget (f : FR)
  /-- HOSTQ, opcode 0x14F (R318). -/
  | hostq (f : FR)
  /-- LD, opcode 0x180 (R304). -/
  | ld (f : FM)
  /-- ST, opcode 0x181 (R304). -/
  | st (f : FM)
  /-- LDV, opcode 0x182 (R306). -/
  | ldv (f : FMV)
  /-- STV, opcode 0x183 (R306). -/
  | stv (f : FMV)
  /-- LDVS, opcode 0x184 (R307). -/
  | ldvs (f : FRL)
  /-- STVS, opcode 0x185 (R307). -/
  | stvs (f : FRL)
  /-- LDVX, opcode 0x186 (R307). -/
  | ldvx (f : FRL)
  /-- STVX, opcode 0x187 (R307). -/
  | stvx (f : FRL)
  /-- PREF, opcode 0x188 (R306). -/
  | pref (f : FMV)
  /-- LDC, opcode 0x189 (R305). -/
  | ldc (f : FMV)
  /-- STC, opcode 0x18A (R305). -/
  | stc (f : FMV)
  /-- LSLD, opcode 0x1C0 (R308). -/
  | lsld (f : FM)
  /-- LSST, opcode 0x1C1 (R308). -/
  | lsst (f : FM)
  /-- LSLDV, opcode 0x1C2 (R308). -/
  | lsldv (f : FML)
  /-- LSSTV, opcode 0x1C3 (R308). -/
  | lsstv (f : FML)
  /-- MCST, opcode 0x1C4 (R319). -/
  | mcst (f : FR)
  /-- CBINIT, opcode 0x1C5 (R320). -/
  | cbinit (f : FR)
  /-- CBADVP, opcode 0x1C6 (R321). -/
  | cbadvp (f : FR)
  /-- CBADVC, opcode 0x1C7 (R321). -/
  | cbadvc (f : FR)
  /-- CBCNT, opcode 0x1C8 (R321). -/
  | cbcnt (f : FR)
  /-- QCTL, opcode 0x1C9 (R322). -/
  | qctl (f : FR)
  /-- QTEST, opcode 0x1CA (R322). -/
  | qtest (f : FR)
  /-- QDRAIN, opcode 0x1CB (R322). -/
  | qdrain (f : FR)
  /-- AADD, opcode 0x200 (R324). -/
  | aadd (f : FA)
  /-- AAND, opcode 0x201 (R324). -/
  | aand (f : FA)
  /-- AOR, opcode 0x202 (R324). -/
  | aor (f : FA)
  /-- AXOR, opcode 0x203 (R324). -/
  | axor (f : FA)
  /-- AMIN, opcode 0x204 (R324). -/
  | amin (f : FA)
  /-- AMAX, opcode 0x205 (R324). -/
  | amax (f : FA)
  /-- AMINU, opcode 0x206 (R324). -/
  | aminu (f : FA)
  /-- AMAXU, opcode 0x207 (R324). -/
  | amaxu (f : FA)
  /-- ASWP, opcode 0x208 (R324). -/
  | aswp (f : FA)
  /-- ACAS, opcode 0x209 (R324). -/
  | acas (f : FA)
  /-- AFADD, opcode 0x20A (R324). -/
  | afadd (f : FA)
  /-- AFMIN, opcode 0x20B (R324). -/
  | afmin (f : FA)
  /-- AFMAX, opcode 0x20C (R324). -/
  | afmax (f : FA)
  /-- RGET, opcode 0x20D (R325). -/
  | rget (f : FA)
  /-- RPUT, opcode 0x20E (R325). -/
  | rput (f : FA)
  /-- RADD, opcode 0x20F (R325). -/
  | radd (f : FA)
  /-- RCAS, opcode 0x210 (R325). -/
  | rcas (f : FA)
  /-- VADD, opcode 0x240 (R332). -/
  | vadd (f : FV)
  /-- VSUB, opcode 0x241 (R332). -/
  | vsub (f : FV)
  /-- VMUL, opcode 0x242 (R332). -/
  | vmul (f : FV)
  /-- VMULH, opcode 0x243 (R332). -/
  | vmulh (f : FV)
  /-- VAND, opcode 0x244 (R332). -/
  | vand (f : FV)
  /-- VOR, opcode 0x245 (R332). -/
  | vor (f : FV)
  /-- VXOR, opcode 0x246 (R332). -/
  | vxor (f : FV)
  /-- VSHL, opcode 0x247 (R332). -/
  | vshl (f : FV)
  /-- VSHR, opcode 0x248 (R332). -/
  | vshr (f : FV)
  /-- VSHRA, opcode 0x249 (R332). -/
  | vshra (f : FV)
  /-- VMIN, opcode 0x24A (R332). -/
  | vmin (f : FV)
  /-- VMAX, opcode 0x24B (R332). -/
  | vmax (f : FV)
  /-- VCMPEQ, opcode 0x24C (R332). -/
  | vcmpeq (f : FV)
  /-- VCMPLT, opcode 0x24D (R332). -/
  | vcmplt (f : FV)
  /-- VSEL, opcode 0x24E (R334). -/
  | vsel (f : FV)
  /-- VABS, opcode 0x24F (R332). -/
  | vabs (f : FV)
  /-- VDOT4, opcode 0x250 (R333). -/
  | vdot4 (f : FV)
  /-- VSPLAT, opcode 0x251 (R334). -/
  | vsplat (f : FV)
  /-- VMOVX, opcode 0x252 (R334). -/
  | vmovx (f : FV)
  /-- VINS, opcode 0x253 (R334). -/
  | vins (f : FV)
  /-- VFADD, opcode 0x280 (R335). -/
  | vfadd (f : FV)
  /-- VFSUB, opcode 0x281 (R335). -/
  | vfsub (f : FV)
  /-- VFMUL, opcode 0x282 (R335). -/
  | vfmul (f : FV)
  /-- VFMA, opcode 0x283 (R335). -/
  | vfma (f : FV)
  /-- VFNMA, opcode 0x284 (R335). -/
  | vfnma (f : FV)
  /-- VFDIV, opcode 0x285 (R335). -/
  | vfdiv (f : FV)
  /-- VFSQRT, opcode 0x286 (R335). -/
  | vfsqrt (f : FV)
  /-- VFRSQ, opcode 0x287 (R339). -/
  | vfrsq (f : FV)
  /-- VFRCP, opcode 0x288 (R338). -/
  | vfrcp (f : FV)
  /-- VFMIN, opcode 0x289 (R336). -/
  | vfmin (f : FV)
  /-- VFMAX, opcode 0x28A (R336). -/
  | vfmax (f : FV)
  /-- VFABS, opcode 0x28B (R336). -/
  | vfabs (f : FV)
  /-- VFNEG, opcode 0x28C (R336). -/
  | vfneg (f : FV)
  /-- VFCMP, opcode 0x28D (R337). -/
  | vfcmp (f : FV)
  /-- VFCLASS, opcode 0x28E (R336). -/
  | vfclass (f : FV)
  /-- VCVT, opcode 0x2C0 (R340). -/
  | vcvt (f : FV)
  /-- VPERM, opcode 0x2C1 (R341). -/
  | vperm (f : FV)
  /-- VROT, opcode 0x2C2 (R341). -/
  | vrot (f : FV)
  /-- VBCAST, opcode 0x2C3 (R341). -/
  | vbcast (f : FV)
  /-- VREDADD, opcode 0x2C4 (R342). -/
  | vredadd (f : FV)
  /-- VREDMAX, opcode 0x2C5 (R342). -/
  | vredmax (f : FV)
  /-- VREDMIN, opcode 0x2C6 (R342). -/
  | vredmin (f : FV)
  /-- VSCANADD, opcode 0x2C7 (R343). -/
  | vscanadd (f : FV)
  /-- VPACK, opcode 0x2C8 (R344). -/
  | vpack (f : FV)
  /-- VUNPK, opcode 0x2C9 (R344). -/
  | vunpk (f : FV)
  /-- VCMPR, opcode 0x2CA (R345). -/
  | vcmpr (f : FV)
  /-- VEXPD, opcode 0x2CB (R345). -/
  | vexpd (f : FV)
  /-- VLANEM, opcode 0x2CC (R346). -/
  | vlanem (f : FV)
  /-- TCFG, opcode 0x300 (R349). -/
  | tcfg (f : FR)
  /-- THDR, opcode 0x301 (R350). -/
  | thdr (f : FR)
  /-- TZERO, opcode 0x302 (R351). -/
  | tzero (f : FR)
  /-- TLD, opcode 0x303 (R353). -/
  | tld (f : FRT)
  /-- TST, opcode 0x304 (R354). -/
  | tst (f : FR)
  /-- TROWG, opcode 0x305 (R352). -/
  | trowg (f : FR)
  /-- TROWP, opcode 0x306 (R352). -/
  | trowp (f : FR)
  /-- TCOLG, opcode 0x307 (R352). -/
  | tcolg (f : FR)
  /-- TCOLP, opcode 0x308 (R352). -/
  | tcolp (f : FR)
  /-- TMMA, opcode 0x309 (R355). -/
  | tmma (f : FR)
  /-- TADD, opcode 0x30A (R356). -/
  | tadd (f : FR)
  /-- TSCL, opcode 0x30B (R356). -/
  | tscl (f : FR)
  /-- TTRN, opcode 0x30C (R356). -/
  | ttrn (f : FR)
  /-- TCHK, opcode 0x30D (R357). -/
  | tchk (f : FR)
  /-- MJOB, opcode 0x340 (R360). -/
  | mjob (f : FR)
  /-- MWAIT, opcode 0x341 (R368). -/
  | mwait (f : FR)
  /-- MPOLL, opcode 0x342 (R368). -/
  | mpoll (f : FR)
  /-- MCANCEL, opcode 0x343 (R369). -/
  | mcancel (f : FR)
  /-- JEDGE, opcode 0x344 (R360). -/
  | jedge (f : FR)
  /-- JWAIT, opcode 0x345 (R368). -/
  | jwait (f : FR)
  /-- SCAN, opcode 0x346 (R377). -/
  | scan (f : FSC)
  /-- SCANW, opcode 0x347 (R377). -/
  | scanw (f : FSC)
  /-- CARRYS, opcode 0x348 (R379). -/
  | carrys (f : FR)
  /-- CARRYR, opcode 0x349 (R380). -/
  | carryr (f : FR)
  /-- COPY, opcode 0x380 (R396). -/
  | copy (f : FR)
  /-- COPY2D, opcode 0x381 (R396). -/
  | copy2d (f : FR)
  /-- CWAIT, opcode 0x382 (R401). -/
  | cwait (f : FR)
  /-- CPOLL, opcode 0x383 (R401). -/
  | cpoll (f : FR)
  /-- SPEC, opcode 0x384 (R402). -/
  | spec (f : FR)
  /-- HREL, opcode 0x385 (R404). -/
  | hrel (f : FR)
  /-- HHOLD, opcode 0x386 (R404). -/
  | hhold (f : FR)
  /-- HCALL, opcode 0x387 (R403). -/
  | hcall (f : FR)
  /-- HINFO, opcode 0x388 (R216). -/
  | hinfo (f : FR)
  /-- TFILL, opcode 0x389 (R399). -/
  | tfill (f : FR)
  /-- UNASSIGNED_OPCODE (R255): a word whose opcode the map does not assign. -/
  | unassignedOpcode (w : Word)
  /-- CREATE (R119): Host command that moves a FREE context id to BUILDING with its regions. -/
  | create (ctx : Nat)
  /-- COMMIT (R119): Host command that makes a BUILDING context LIVE when its regions are mapped and aligned, and allocates its handle table. -/
  | commit (ctx : Nat)
  /-- RESUME (R119): Host command that returns a HALTED context to LIVE and delivers held events. -/
  | resume (ctx : Nat)
  /-- DESTROY (R119): Host command that moves a context to DRAINING. -/
  | destroy (ctx : Nat)
  /-- SETMODE (R98): Host command that sets the context's MODEMAP. -/
  | setmode (ctx : Nat)
  /-- SETFAULT (R119): Host command that names or removes the context's fault actor. -/
  | setfault (ctx : Nat)
  /-- ANSWER (R121): Host command that answers an outstanding service record by SEQ. -/
  | answer (ctx : Nat)
  /-- CODECOPY (R229): Host command that makes a private copy of a shared code page for one context. -/
  | codecopy (ctx : Nat)
  /-- PREEMPT (R119): Host command that UNBINDs a resident group at once. -/
  | preempt (ctx : Nat)
  /-- PROMOTE (R227): Host command that offers a 2 MiB range to the PPU as a promotion candidate. -/
  | promote (ctx : Nat)
  /-- CONTEXT_SCRUB (R96): When every core of a DRAINING context is idle, everything of the context is cleared and its id returns to FREE. -/
  | contextScrub (ctx : Nat)
  /-- QUEUE_ENABLE (R107): Writing QCFG.EN to 1 enables a queue when its context is LIVE and QBASE aligned, else sets CMDERR. -/
  | queueEnable (q : Nat)
  /-- QUEUE_DISABLE (R107): Writing QCFG.EN to 0 disables a queue. -/
  | queueDisable (q : Nat)
  /-- QCMD_SKIP (R108): Moves an ERROR queue past the refused packet to RUNNING. -/
  | qcmdSkip (q : Nat)
  /-- QCMD_RESET (R108): Returns an ERROR queue to IDLE with QRPTR set to QWPTR. -/
  | qcmdReset (q : Nat)
  /-- DOORBELL_WRITE (R109): A host write of QWPTR; a pointer past QRPTR starts the queue, an overrun puts it in ERROR. -/
  | doorbellWrite (q : Nat) (wptr : BitVec 32)
  /-- LAUNCH (R117): Queue packet that the Plinth checks, places and turns into bind records. -/
  | launch (q : Nat)
  /-- TIMED_LAUNCH (R113): Launch packet whose entry firings are held until a start stamp. -/
  | timedLaunch (q : Nat)
  /-- LOAD (R134): Queue packet that translates or installs a container and gives the queue a reference. -/
  | load (q : Nat)
  /-- UNLOAD (R115): Queue packet that drops the queue's kernel reference after earlier launches complete. -/
  | unload (q : Nat)
  /-- SIGNAL (R167): Queue packet that sets or clears an event. -/
  | signal (q : Nat)
  /-- WAIT_PACKET (R167): Queue packet that waits for an event to be set. -/
  | waitPacket (q : Nat)
  /-- COPY_PACKET (R113): Queue packet that copies bytes in the bound context. -/
  | copyPacket (q : Nat)
  /-- QUEUE_WAKE (R107): A WAITING queue takes its head packet once the awaited event or earlier completion holds. -/
  | queueWake (q : Nat)
  /-- WAIT_TIMEOUT (R107): A WAIT packet's timeout passes and the queue enters ERROR. -/
  | waitTimeout (q : Nat)
  /-- TIMED_LAUNCH_START (R113): The time base reaches a TIMED-LAUNCH stamp and its held entry firings start. -/
  | timedLaunchStart (l : Nat)
  /-- KERNEL_CODE_FREE (R139): A RETIRING kernel's code pages are freed and it returns to ABSENT when no firing holds a reference. -/
  | kernelCodeFree (ctx : Nat) (kid : Nat)
  /-- BIND (R145): A bind record with OP BIND makes dispatch set up or restore a group's cores and move its lay-by entries in. -/
  | bind (die : Nat) (slot : Nat) (l : Nat) (g : Nat) (ox : Nat) (oy : Nat)
  /-- UNBIND (R145): A bind record with OP UNBIND makes dispatch pre-empt the group's cores and write their casts. -/
  | unbind (die : Nat) (slot : Nat)
  /-- RETIRE (R145): A bind record with OP RETIRE makes dispatch clear the group's cores. -/
  | retire (die : Nat) (slot : Nat)
  /-- CAST_WRITE (R104): A core's cast is written once its engine work has ended, completing UNBINDING. -/
  | castWrite (c : Nat)
  /-- QUANTUM_EXPIRY (R151): A launch's quantum expires and the Plinth picks the next resident set by rotation. -/
  | quantumExpiry (l : Nat)
  /-- LAUNCH_QUIESCENCE (R152): A quiescent launch retires every group and its packet completes. -/
  | launchQuiescence (l : Nat)
  /-- MESSAGE_ARRIVAL (R158): An arriving message is stored in the inbox or lay-by, bound to an actor and counted. -/
  | messageArrival (i : Nat)
  /-- STREAM_MESSAGE_ARRIVAL (R61): A stream message delivers its doublewords to IB without a firing. -/
  | streamMessageArrival (i : Nat)
  /-- JOIN_DECREMENT_ARRIVAL (R173): A join decrement is applied to its counter, firing or dead-lettering. -/
  | joinDecrementArrival (i : Nat)
  /-- REMOTE_OPERATION_ARRIVAL (R325): The owner's message unit performs a remote operation on its local store. -/
  | remoteOperationArrival (i : Nat)
  /-- MCST_ARRIVAL (R319): A receiver writes a multicast vector and counts a join decrement. -/
  | mcstArrival (i : Nat)
  /-- CARRY_ARRIVAL (R379): A carry enters the target's mailbox under its tag. -/
  | carryArrival (i : Nat)
  /-- WAKE_ARRIVAL (R366): An engine completion message arrives and counts toward its actor's engine input. -/
  | wakeArrival (i : Nat)
  /-- LATE_REPLY_REDIRECT (R169): A reply owed to a migrated firing is redirected by the waymark and discarded. -/
  | lateReplyRedirect (c : Nat)
  /-- LAYBY_RETURN (R100): Lay-by messages return to their core's inbox in arrival order as slots free. -/
  | laybyReturn (c : Nat)
  /-- SCHEDULER_PICK (R163): A free core picks the best-class oldest READY or SUSPENDED firing and raises the pass counts of the others. -/
  | schedulerPick (c : Nat)
  /-- PREEMPTION_ABORT (R36): A pre-emption request pending 75,000 cycles without a safe point aborts the firing for replay. -/
  | preemptionAbort (c : Nat)
  /-- WAYMARK_EXPIRY (R31): A waymark expires after 4,096 cycles and every late reply redirected. -/
  | waymarkExpiry (c : Nat)
  /-- MIGRATE_DEPART (R31): Once every publication is acknowledged the migration message leaves. -/
  | migrateDepart (c : Nat)
  /-- BOUNDARY_RELEASE (R154): A publication held at a boundary for room is released and the waiting firing goes on. -/
  | boundaryRelease (c : Nat)
  /-- WORLD_STOPPED (R102): Every core and engine of the context has stopped and STOPW completes. -/
  | worldStopped (ctx : Nat)
  /-- EVENT_SET_AT_HOME (R167): A published set reaches the event's home, sets it and wakes its waiters in order. -/
  | eventSetAtHome (i : Nat)
  /-- EVENT_CLEAR_AT_HOME (R167): A published clear reaches the event's home and clears it. -/
  | eventClearAtHome (i : Nat)
  /-- EVENT_WAKE (R167): A firing waiting in EVWAIT is woken by its event's home and begins a new phase. -/
  | eventWake (c : Nat)
  /-- JOB_WAIT_END (R368): An MWAIT or JWAIT ends when the job leaves QUEUED and RUNNING. -/
  | jobWaitEnd (c : Nat)
  /-- COPY_WAIT_END (R401): A CWAIT ends when the copy command leaves QUEUED and RUNNING. -/
  | copyWaitEnd (c : Nat)
  /-- CARRY_TAKE (R380): A waiting CARRYR takes the oldest carry with its tag. -/
  | carryTake (c : Nat)
  /-- TIMED_RELEASE (R179): A WAITT is released when the time base reaches its stamp. -/
  | timedRelease (c : Nat)
  /-- SCAN_COMPLETE (R376): The last participant's contribution completes a scan and every waiter gets its result. -/
  | scanComplete (c : Nat)
  /-- REMOTE_REPLY (R325): The reply of an RGET or RCAS returns and its value is put. -/
  | remoteReply (c : Nat)
  /-- PORT_WAIT_END (R58): An instruction waiting on an empty port or full output proceeds when a unit or room arrives. -/
  | portWaitEnd (c : Nat)
  /-- HANDLE_WAIT_END (R321): An instruction waiting on a ring's slots proceeds when enough are filled or free. -/
  | handleWaitEnd (c : Nat)
  /-- FAULT_ACTOR_FIRE (R99): An event of the context fires its fault actor with the fault payload, or posts to the error queue. -/
  | faultActorFire (ctx : Nat) (c : Nat)
  /-- TLB_MISS_SERVICE (R222): The toll core walks the tables for a miss, or forwards it to the host, and fills both TLBs. -/
  | tlbMissService (c : Nat)
  /-- PAGE_SERVICE (R464): The toll core maps a demand entry with a zeroed frame, then PTSYNC and REPLAY, or sends the fault on. -/
  | pageService (c : Nat)
  /-- PROMOTION (R227): A PPU copies 32 pages of a candidate into one 2 MiB frame and rewrites the tables. -/
  | promotion (ctx : Nat) (va : Word)
  /-- PROMOTION_ABANDON (R228): A promotion that has held a publication for 10 us is abandoned and the publication applied to the old frame. -/
  | promotionAbandon (ctx : Nat) (va : Word)
  /-- PAGE_MIGRATION (R228): A page is copied to another stack and its entry rewritten, holding publications meanwhile. -/
  | pageMigration (ctx : Nat) (va : Word) (stack : Nat)
  /-- ME_JOB_START (R363): The ME takes a queued job, checks descriptor and tiles and starts accumulating. -/
  | meJobStart (u : Nat)
  /-- ME_JOB_END (R366): A Matrix Engine job ends, drains if asked, forms its record and sends its wake. -/
  | meJobEnd (u : Nat)
  /-- JEDGE_START (R374): The JE checks its tiles and every edge index before computing. -/
  | jedgeStart (u : Nat)
  /-- EDGE_TILE_BOUNDARY (R374): The JE finishes an edge-tile of 256 edges, its partial rows in G. -/
  | edgeTileBoundary (u : Nat)
  /-- JEDGE_END (R373): The JE completes G, rewrites its header, forms the record and sends the wake. -/
  | jedgeEnd (u : Nat)
  /-- COPY_COMMAND_START (R398): A Copy Engine starts a command and checks its descriptor, capabilities and tile. -/
  | copyCommandStart (e : Nat)
  /-- COPY_COMMAND_END (R400): A copy command ends DONE or FAILED, sends its wake or sets its event. -/
  | copyCommandEnd (e : Nat)
  /-- RING_RCOUNT_POLL (R120): While a ring is full the device rereads RCOUNT at least every microsecond. -/
  | ringRcountPoll (ctx : Nat) (r : RingKind)
  /-- LINK_ENABLE (R231): The Plinth enables a DOWN link and it starts training. -/
  | linkEnable (n : Nat)
  /-- LINK_TRAINING_DONE (R231): Training ends UP, DEGRADED or DOWN by the lanes that trained. -/
  | linkTrainingDone (n : Nat) (lanes : BitVec 8) (peer : BitVec 18) (plink : BitVec 5)
  /-- LANE_FAILURE (R231): A lane fails and the link retrains with traffic held. -/
  | laneFailure (n : Nat) (lane : Nat)
  /-- LINK_RETRAIN (R231): The Plinth asks a DEGRADED link to retrain. -/
  | linkRetrain (n : Nat)
  /-- LINK_ACK_TIMEOUT (R231): No flit acknowledged for 100 us and the link becomes LOST. -/
  | linkAckTimeout (n : Nat)
  /-- LINK_DISABLE (R231): The Plinth disables a LOST link. -/
  | linkDisable (n : Nat)
  /-- FLIT_RECEIVE (R233): A 256-byte flit is received and its slots delivered, or a CRC failure asks for a replay. -/
  | flitReceive (n : Nat) (flit : BitVec 2048)
  /-- FLIT_REPLAY (R233): On a replay request the sender resends the flit and every later flit in order. -/
  | flitReplay (n : Nat) (seq : BitVec 12)
  /-- ROUTE_CHANGE (R235): The Plinth changes a route, holding new traffic until the old route's flits are acknowledged. -/
  | routeChange (pkg : Nat) (entry : BitVec 8)
  /-- PEER_LOSS (R237): A package id becomes lost; unacknowledged messages return as dead letters, contexts get PEER_LOST and counters are poisoned. -/
  | peerLoss (pkg : Nat)
  /-- DIE_LOSS (R238): A die is lost; contexts get DIE_LOST, its groups are RETIRED and its traffic returns. -/
  | dieLoss (die : Nat)
  /-- TIME_FLIT_EXCHANGE (R239): Every 1 ms each link exchanges time flits and the package slews toward its time source. -/
  | timeFlitExchange (n : Nat) (count : Word) (rtt : Nat) (peerRoot : Option (BitVec 18)) (hops : Nat)
  /-- ROOTSEL_WRITE (R241): A write of the time-base control register names or withdraws this package as time root. -/
  | rootselWrite (w : Word)
  /-- FEATOFF_WRITE (R129): A host write of FEATOFF switches off optional features while every context is FREE, otherwise sets bit 63. -/
  | featoffWrite (w : Word)
  /-- GAUGE_SOURCE_SET (R433): Writing GCFG.SRC selects a gauge source and resets the unit. -/
  | gaugeSourceSet (ctx : Nat) (u : Nat) (src : BitVec 4)
  /-- GAUGE_CLEAR (R433): Writing GCFG.CLR resets a gauge unit. -/
  | gaugeClear (ctx : Nat) (u : Nat)
  /-- REGISTER_WRITE (R4): A write to a register with no row of its own, with reserved bits staying zero and W1C bits clearing. -/
  | registerWrite (off : Nat) (w : Word)
  /-- CORRECTABLE_ERROR (R21): A corrected soft error is counted and logged with reason SOFT. -/
  | correctableError (die : Nat) (kind : ErrSite) (pa : Word)
  /-- UNCORRECTABLE_ERROR (R424): An uncorrectable error raises MCHECK to the context and a machine-check event to the Plinth. -/
  | uncorrectableError (die : Nat) (site : UncSite)
  /-- POWER_ON (R427): Boot ROM verifies the signed firmware on every die, entering INIT or BOOTFAIL. -/
  | powerOn
  /-- BOOT_INIT_DONE (R429): Memory test, link training start and time base complete, and boot reaches READY. -/
  | bootInitDone (bad : BitVec 8)
  /-- PROV_ERASE (R430): Provisioning command that erases the flash image region. -/
  | provErase
  /-- PROV_WRITE (R430): Provisioning command that writes up to 4 KiB from the data window to flash. -/
  | provWrite
  /-- PROV_VERIFY (R430): Provisioning command that checks the flash image without running it. -/
  | provVerify
  /-- PROV_RESET (R430): Provisioning command that resets the module into ROM boot. -/
  | provReset
  /-- GET_VERSION (R431): SPDM request answered on the DOE mailbox. -/
  | getVersion (req : List Byte)
  /-- GET_CAPABILITIES (R431): SPDM request answered on the DOE mailbox. -/
  | getCapabilities (req : List Byte)
  /-- NEGOTIATE_ALGORITHMS (R431): SPDM request settling on ECDSA P-521 with SHA-512. -/
  | negotiateAlgorithms (req : List Byte)
  /-- GET_DIGESTS (R431): SPDM request for certificate digests. -/
  | getDigests (req : List Byte)
  /-- GET_CERTIFICATE (R431): SPDM request for the device certificate chain. -/
  | getCertificate (req : List Byte)
  /-- CHALLENGE (R431): SPDM challenge signed with the fused identity key. -/
  | challenge (req : List Byte)
  /-- GET_MEASUREMENTS (R431): SPDM request for the image, version and FEATOFF measurements. -/
  | getMeasurements (req : List Byte)
  /-- THERMAL_THROTTLE (R436): Inlet above 45 C or power above TDP lowers the dies' clock in 100 MHz steps. -/
  | thermalThrottle (dies : BitVec 8)
  /-- THERMAL_RECOVER (R436): Once the cause clears the clock is raised again in 100 MHz steps. -/
  | thermalRecover (dies : BitVec 8)
  /-- THERMAL_SHUTDOWN (R436): At an inlet of 60 C every context is stopped as by DESTROY and the host told. -/
  | thermalShutdown
  /-- CXL_MEM_WRITE (R305): A host write to device memory over CXL.mem lands in HBM and clears the tag of every granule it touches. -/
  | cxlMemWrite (pa : Nat) (bytes : List Byte)
  deriving DecidableEq, Repr

end Sys2Proof
end

