-- ==== Sys2Proof/Machine/State.lean ====
section
/-! DEFINITION. The machine's state: everything the spec gives one package, as plain data, and the state right after reset.
INVENTORY.md lists each field with the rule that names it and its reset value. Collections are `Table`s keyed by a number;
a key that is not listed reads as the fresh value of its type. -/

namespace Sys2Proof.Machine

/-! ### Outcomes -/

/-- Why a step ends in no next state. An instruction's own faults (22 R419) are no such stop: they are taken, and give a next
state. -/
inductive Fault where
  /-- Raised by CXL_MEM_WRITE: the host's address lies outside the device's CXL.mem range (06 R109), which the spec says does
  not exist. Safe: the run stops. -/
  | noSuchAddress
  deriving DecidableEq, Repr

/-- Why the model refuses a step. -/
inductive Refusal where
  /-- Raised by a dispatch arm of an instruction without a meaning yet. Safe: the run stops. -/
  | notModelled (mnemonic : String)
  deriving DecidableEq, Repr

/-! ### Fault codes -/

/-- The fault codes of 22 R419, and the two kinds of context event that are no fault code (05 R99). -/
inductive FCode where
  | illegal | prefixBad | capTag | capPerm | capBounds | page | pageLoop | align | hdrCheck | hdrMismatch | hdrUnsupported
  | tileUnconf | handleStale | specFull | phaseOverflow | divzero | trapd | peerLost | laybyFull | brk | soft | stream
  | engine | nbvUnsupported | mcheck | emptyHandler | dieLost
  deriving DecidableEq, Repr

/-! ### Registers of a virtual core -/

/-- An x register: 128 bits and a tag (03 R44). -/
structure XReg where
  val : BitVec 128
  tag : Bool
  deriving DecidableEq, Repr

/-- The null value: zero, untagged (03 R42). -/
def XReg.zero : XReg := ⟨0, false⟩

/-- Where a configured tile register stands towards its image in the owner's cast (11 R198). -/
inductive TileState where
  | dirty | clean
  deriving DecidableEq, Repr

/-- A configured tile register: the header fields that are its own, the rest being computed (11 R197), and its 1 KiB body. -/
structure Tile where
  efmt : Nat
  swz : Nat
  rows : Nat
  cols : Nat
  body : BitVec 8192
  state : TileState
  deriving DecidableEq, Repr

/-- A handle's ring descriptor (17 R320-R321). -/
structure Ring where
  base : Nat
  n : Nat
  lsz : Nat
  p : BitVec 32
  c : BitVec 32
  p0 : BitVec 32
  c0 : BitVec 32
  deriving DecidableEq, Repr

/-- States of a join counter (10 R172). -/
inductive JState where
  | idle | armed | fired
  deriving DecidableEq, Repr

/-- A join counter (10 R172), with the coordinate of the core whose decrement brought it to zero (09 R161)
whether a firing has reserved its unit (R162), and whether its JINIT found an actor to bind (10 R175). -/
structure Join where
  count : BitVec 24
  state : JState
  scope : JScope
  poison : Bool
  exceeded : Bool
  actor : BitVec 12
  khidx : BitVec 12
  last : BitVec 31
  taken : Bool
  bound : Bool
  deriving DecidableEq, Repr

/-- A counter that no JINIT has armed. -/
def Join.idle : Join := ⟨0, .idle, .die, false, false, 0, 0, 0, false, false⟩

/-- The CSRs that hold one value per context per core (03 R69, 20 R389), each as its doubleword. -/
structure Csrs where
  fstat : Word
  nbv : Word
  lshash : Word
  lsstat : Word
  lsbad : Word
  qctlh : Word
  alarm : Word
  tvec : Word
  epcl : Word
  epch : Word
  estat : Word
  chstat : Word
  chfuel : Word
  carry : Word
  scanst : Word
  jobctr : Word
  jobwin : Word
  cpctr : Word
  cpwin : Word
  brka : Table Word
  deriving DecidableEq, Repr

/-- The reset values: 04 R92 (NBV 2), 20 R390 (ALARM all ones), 12 R215 (CHFUEL 65,536), every other one 0. -/
def Csrs.reset : Csrs :=
  { fstat := 0, nbv := 2, lshash := 0, lsstat := 0, lsbad := 0, qctlh := 0, alarm := 0xFFFFFFFFFFFFFFFF, tvec := 0,
    epcl := 0, epch := 0, estat := 0, chstat := 0, chfuel := 65536, carry := 0, scanst := 0, jobctr := 0, jobwin := 0,
    cpctr := 0, cpwin := 0, brka := [] }

/-- The state of a virtual core (03 R42): its registers, rings, join counters, CSRs, local store and LSDIRTY. Register tables
list only what differs from zero; `t` lists the configured tile registers, `h` the handles CBINIT has set. -/
structure VState where
  x : Table XReg
  y : Table Word
  l0 : Word
  l1 : Word
  l2 : Word
  l3 : Word
  v : Table Vec
  t : Table Tile
  h : Table Ring
  joins : Table Join
  csr : Csrs
  ls : Table Byte
  lsdirty : BitVec 64
  deriving DecidableEq, Repr

/-- A virtual core whose context has written nothing (03 R43, 05 R96). -/
def VState.fresh : VState :=
  { x := [], y := [], l0 := 0, l1 := 0, l2 := 0, l3 := 0, v := [], t := [], h := [], joins := [], csr := Csrs.reset, ls := [],
    lsdirty := 0 }

/-! ### Messages -/

/-- A virtual core: its launch and its place in the launch's rectangle (07 R136). -/
structure VCore where
  launch : Nat
  vx : Nat
  vy : Nat
  deriving DecidableEq, Repr

/-- The actor a message was bound to (09 R159): kernel id and actor index. -/
structure Binding where
  kernel : Nat
  actor : Nat
  deriving DecidableEq, Repr

/-- Kinds of message that start firings or fill IB (09 R157). -/
inductive MKind where
  | handler | stream | migration | completion | fire
  deriving DecidableEq, Repr

/-- A running or provisional reference on an entry of the handle table, with the handle it was taken through (12 R206-R207). -/
structure HRef where
  index : Nat
  gen : BitVec 20
  check : BitVec 32
  deriving DecidableEq, Repr

/-- A message: kind, handler index (for `fire`, the handle-table index), eight payload registers, the sender's packed
coordinate, the context, the sender's launch number as the header carries it, the time of publication, and for `fire` the
handle whose provisional reference it carries (17 R315). -/
structure Msg where
  kind : MKind
  hidx : Nat
  regs : List XReg
  sender : BitVec 31
  ctx : Nat
  launch : Nat
  born : Word
  href : Option HRef
  deriving DecidableEq, Repr

/-- Remote operations at an owner's local store (17 R325). -/
inductive RemOp where
  | get | put | add | cas
  deriving DecidableEq, Repr

/-- What travels from one core to another (09 R157). `remote` carries offset, width, operand and compare value, and the core
that waits for the reply (none for the posted forms). -/
inductive Body where
  | msg (m : Msg)
  | remote (op : RemOp) (off w : Nat) (val cmp : Word) (reply : Option Nat)
  | join (amount : Nat) (j : Nat)
  | mcst (off : Nat) (data : Vec) (j : Nat)
  | carry (tag : BitVec 8) (val : Word)
  deriving DecidableEq, Repr

/-- A publication on its way to a virtual core, in publication order. -/
structure Flight where
  src : BitVec 31
  ctx : Nat
  dst : VCore
  body : Body
  deriving DecidableEq, Repr

/-- An event operation on its way to its home (09 R167), in publication order; `reply` is who of another package is told when it has
been applied, with that package's token. -/
structure EvOp where
  src : BitVec 31
  ctx : Nat
  set : Bool
  event : BitVec 16
  launch : Option Nat
  reply : Option (BitVec 31 × Nat)
  deriving DecidableEq, Repr

/-- A message in an inbox (09 R158): what it carries, its actor, and whether a firing has reserved it (R162). -/
structure InMsg where
  id : Nat
  msg : Msg
  bound : Option Binding
  reserved : Bool
  deriving DecidableEq, Repr

/-! ### Firings -/

/-- A unit reserved for a firing (09 R161-R162): a message by its inbox number, a join counter, slots of a ring; a counter that a JINIT has
re-armed since, whose unit the firing keeps (10 R173). -/
inductive Input where
  | msg (id : Nat)
  | join (j : Nat)
  | slots (h n : Nat)
  | rearmed (j : Nat)
  deriving DecidableEq, Repr

/-- What a firing runs: an actor, the code of a handle (17 R315), the light handler's actor with its control word (03 R66). -/
inductive Code where
  | actor (b : Binding)
  | handle (r : HRef)
  | light (b : Binding) (cw : Word)
  deriving DecidableEq, Repr

/-- Where a firing goes on: the registers a safe point kept (03 R68), the trap CSRs, the address, the PCC and the live mask. `t` is none where
the tile registers stand elsewhere: in a cast that has not been read, or, for a replay, as the aborted run left them (11 R200, R202). `kept` is what the word
that waits there had read, where it was suspended in its wait (09 R168), and `ticket` its place on an event's wait list. -/
structure Resume where
  x : Table XReg
  y : Table Word
  v : Table Vec
  t : Option (Table Tile)
  epcl : Word
  epch : Word
  estat : Word
  pc : Word
  pcc : XReg
  stream : Opnd
  mask : Word
  kept : Option Word
  ticket : Option Nat
  deriving DecidableEq, Repr

/-- A reader's view of memory in one phase (21 R406-R407): the publication count at which the phase began, and the bytes and
tags that loads of the phase have fixed (P2). -/
structure View where
  start : Nat
  bytes : Table Byte
  tags : Table Bool
  deriving DecidableEq, Repr

/-- A firing (09 R154-R163). `regs` are x1-x10 at its start; `resume` is set when it goes on from a safe point; `recv` counts
the inputs RECV has passed; `svc` marks a firing of the fault actor (05 R462), whose launch may be absent; `committed` says
that it had committed early when it was last suspended (21 R412), `started` that it has run (07 R139), `stopping` that its STOPW stopped
the world (05 R102), `replay` that it is to be replayed, against the snapshot that the region had (07 R137). -/
structure Firing where
  code : Code
  cls : Nat
  passes : Nat
  launch : Option Nat
  svc : Bool
  regs : List XReg
  inputs : List Input
  recv : Nat
  refs : List HRef
  resume : Option Resume
  start : Word
  refPage : Option Nat
  refCount : Nat
  committed : Bool
  started : Bool
  stopping : Bool
  replay : Option View
  deriving DecidableEq, Repr

/-- The pending prefix of the next word (15 R256-R260). -/
structure Pfx where
  ximm : Option (BitVec 32)
  ord : Option Order
  first : Word
  deriving DecidableEq, Repr

/-- Access kinds of a translation (06 R121, 13 R220). -/
inductive Access where
  | read | write | fetch
  deriving DecidableEq, Repr

/-- What a waiting firing awaits (09 R154). `redo` waits re-execute the instruction when they end; the others complete it.
`safe` is a safe point whose publication is held: its live mask and the address control then passes to. -/
inductive Wait where
  | port
  | handle
  | boundary
  | safe (mask next : Word)
  | tlb (va : Word) (acc : Access)
  | window (copy : Bool) (id : Nat)
  | event (e : BitVec 16) (woken : Bool)
  | job (id : Nat)
  | copy (id : Nat)
  | stamp (t : Word)
  | carry (tag : BitVec 8) (d : Opnd)
  | scan (spec : BitVec 16) (d : Opnd) (wide : Bool)
  | remote (d : Opnd) (reply : Option Word)
  | world
  | migrate
  | spec (seq : Nat)
  | eventHost (e : BitVec 16) (seq : Nat) (test : Bool) (d : Opnd)
  deriving DecidableEq, Repr

/-- What a core does (09 R154): nothing; runs its firing; holds a waiting firing, with the SP bit of the word it waits at. -/
inductive Run where
  | idle
  | running
  | waiting (w : Wait) (sp : Bool)
  deriving DecidableEq, Repr

/-- A firing aborted by PAGE whose service has not ended (09 R154, 13 R224): the faulting address and access, the faulting
instruction, the service record it awaits under FAULTSVC = 2, and whether the host has refused it while its group was swapped out. -/
structure Aborted where
  firing : Firing
  va : Word
  acc : Access
  addr : Word
  seq : Option Nat
  refused : Bool
  deriving DecidableEq, Repr

/-- Reasons for a pre-emption (05 R103). -/
inductive Reason where
  | quantum | better | stopw | destroy | host
  deriving DecidableEq, Repr

/-- A pre-emption request: its reason, and the cycle at which it was raised (05 R103). `taken` once the core has stopped; `safe` where
it stopped at a safe point. -/
structure Preempt where
  reason : Reason
  cycle : Nat
  taken : Bool
  safe : Bool
  deriving DecidableEq, Repr

/-- A unit of a mesh port (03 R58, R65): its bits, whether it is a vector, whether it is a control word. -/
structure PUnit where
  data : Vec
  wide : Bool
  ctl : Bool
  deriving DecidableEq, Repr

/-- A doubleword of IB (03 R61); stream messages carry no control words of their own but a program may stream one. -/
structure IbUnit where
  data : Word
  ctl : Bool
  deriving DecidableEq, Repr

/-! ### The phase buffer -/

/-- Integer and float operations of an atomic (17 R324). -/
inductive AtomOp where
  | add | and | or | xor | min | max | minu | maxu | swp | cas | fadd | fmin | fmax
  deriving DecidableEq, Repr

/-- An entry of the phase buffer (17 R302): the stores, then the messages, remote operations and commands. A store carries the
physical address its translation gave, its bytes and, for STC, its tag; `also` gives further bytes of the store before it, with the entries they add; an engine command the window nibble it replaced. -/
inductive Entry where
  | store (va : Word) (pa : Nat) (bytes : List Byte) (tag : Option Bool)
  | also (va : Word) (pa : Nat) (bytes : List Byte) (cost : Nat)
  | atomic (va : Word) (pa w : Nat) (op : AtomOp) (val cmp : Word)
  | htset (index : Nat) (val : Word)
  | jinit (j : Nat) (scope : JScope) (count : BitVec 24) (kernel : Nat)
  | hhold (r : HRef)
  | hrel (r : HRef)
  | send (dst : VCore) (m : Msg)
  | sendm (spec : BitVec 16) (m : Msg)
  | fire (r : HRef) (regs : List XReg)
  | hostq (rec : List Word)
  | remote (dst : VCore) (op : RemOp) (off w : Nat) (val cmp : Word)
  | join (dst : VCore) (amount j : Nat)
  | mcst (spec : BitVec 16) (off : Nat) (data : Vec) (j : Nat)
  | carry (dst : VCore) (tag : BitVec 8) (val : Word)
  | event (set : Bool) (e : BitVec 16)
  | job (edge : Bool) (pa : Nat) (va : Word) (id : Nat) (nbv : Nat) (voided : Bool) (was : Nat)
  | copy (kind : Nat) (pa : Nat) (va : Word) (id : Nat) (ev : Option (BitVec 16)) (was : Nat)
  deriving DecidableEq, Repr

/-- What an abort restores (22 R422): where the firing would be replayed from (none: its start), and the CSRs, keep registers,
v registers, RECV position and number of carries taken, as they stood there. -/
structure Point where
  resume : Option Resume
  csr : Csrs
  keep : Table XReg
  v : Table Vec
  recv : Nat
  carried : Nat
  deriving DecidableEq, Repr

/-- A waymark (09 R169): the old firing's identity (its code, its launch, the cycle at which it began), the target, when it may expire, the replies still owed. -/
structure Waymark where
  code : Code
  launch : Option Nat
  start : Word
  target : VCore
  expiry : Nat
  owed : Nat
  deriving DecidableEq, Repr

/-- A TLB entry (13 R222): context, the set it stands in (0 in a core's TLB), page number in units of its size (0 64 KiB, 1 2 MiB, 2 1 GiB), frame address, rights. -/
structure TlbEntry where
  ctx : Nat
  set : Nat
  size : Nat
  page : Nat
  frame : Nat
  pr : Bool
  pw : Bool
  px : Bool
  deriving DecidableEq, Repr

/-- The owner of tile registers (11 R198): a context with a virtual core, or its service virtual core. -/
structure Owner where
  ctx : Nat
  who : Option VCore
  deriving DecidableEq, Repr

/-- Tiles of a switched-out owner that a core still holds, and the physical address of the owner's cast (11 R200). -/
structure Held where
  owner : Owner
  tiles : Table Tile
  cast : Nat
  deriving DecidableEq, Repr

/-- A compute core (01 R11) with the virtual core it runs. `ctx`, `launch`, `group` say what it serves; `latch` holds the
translations that the instruction waiting on TLB misses has obtained, so that a many-page access makes progress; `again` is
the instruction already fetched that the core executes next: one that waited, or a .S word between two elements (18 R330); `kept` is
what a word that goes on with its wait had read (09 R168), `ticket` its place on an event's wait list; `mask` the live mask of the
word with SP that waits (15 R243); `out` counts the entries that a boundary which is held has published; `mode` is the MODEMAP value the core has taken (05 R98);
`waitFrom` the cycle at which its firing last began to wait (23 R433); `barred` says that the restore of its cast has failed, so that it serves no firing of
its context (05 R106). -/
structure Core where
  vs : VState
  parked : Option VState
  ctx : Option Nat
  launch : Option Nat
  group : Nat
  ldim : Word
  gshape : Word
  gindex : Word
  quantum : Word
  gcoord : Word
  run : Run
  firing : Option Firing
  pc : Word
  pcc : XReg
  pfx : Option Pfx
  again : Option Instr
  buffer : List Entry
  out : Nat
  view : View
  committed : Bool
  stream : Opnd
  lq : List Vec
  sq : List Vec
  hq : List Word
  ports : Table (List PUnit)
  ib : List IbUnit
  taken : List (Nat × PUnit)
  takenIb : List IbUnit
  light : List Word
  point : Point
  inbox : List InMsg
  nextMsg : Nat
  matched : List Firing
  ready : List Firing
  aborted : List Aborted
  made : List HRef
  preempt : Option Preempt
  waymarks : List Waymark
  mailbox : List (BitVec 8 × Word)
  carries : List (BitVec 8 × Word)
  kept : Option Word
  ticket : Option Nat
  mask : Word
  mode : Word
  waitFrom : Nat
  tlb : List TlbEntry
  latch : List TlbEntry
  held : Option Held
  lazy : Option Nat
  barred : Bool
  deriving DecidableEq, Repr

/-- A core that serves nothing (reset; 05 R96). The CSRs set at bind hold their reset values (08 R143). -/
def Core.fresh : Core :=
  { vs := VState.fresh, parked := none, ctx := none, launch := none, group := 0, ldim := 0x10001, gshape := 0,
    gindex := 0x100000000, quantum := 200, gcoord := 0, run := .idle, firing := none, pc := 0, pcc := XReg.zero, pfx := none, again := none,
    buffer := [], out := 0, view := ⟨0, [], []⟩, committed := false, stream := .port 0, lq := [], sq := [], hq := [], ports := [], ib := [], taken := [], takenIb := [], light := [],
    point := ⟨none, Csrs.reset, [], [], 0, 0⟩, inbox := [], nextMsg := 0, matched := [], ready := [], aborted := [], made := [], preempt := none, waymarks := [],
    mailbox := [], carries := [], kept := none, ticket := none, mask := 0, mode := 0, waitFrom := 0, tlb := [], latch := [], held := none, lazy := none, barred := false }

/-! ### Clusters: the Matrix Engine, the Feed Unit, the Junction Engine, the cluster TLB -/

/-- Accumulator formats (19 R364). -/
inductive AFmt where
  | f32 | i32 | f64
  deriving DecidableEq, Repr

/-- A Matrix Engine slot (19 R364): its last writer's context and format, and its elements' bit patterns. -/
structure Slot where
  ctx : Nat
  fmt : AFmt
  elems : Table Word
  deriving DecidableEq, Repr

/-- A command in a cluster's job queue (19 R360, R366): the issuing core, its job id, the descriptor, the NBV at issue,
the cycle at which it was queued (23 R433). -/
structure Job where
  core : Nat
  svc : Bool
  vcore : VCore
  ctx : Nat
  id : Nat
  edge : Bool
  desc : Nat
  descVa : Word
  nbv : Nat
  since : Nat
  cancelled : Bool
  deriving DecidableEq, Repr

/-- A job between its start and its end (19 R363-R365, R373-R374). For MJOB: the descriptor's words, the K-blocks done, the
flags. For JEDGE: the next edge, each vertex's running count, the flags. `fail` is a failure found at the start or later. -/
structure Running where
  job : Job
  words : List Word
  view : View
  done : Nat
  next : Nat
  degs : Table Nat
  flags : BitVec 6
  fail : Option (FCode × Nat × Word)
  trusted : Bool
  deriving DecidableEq, Repr

/-- A cluster (01 R10): its job queue, the cluster core number last served, the Matrix Engine's job, the Junction Engine's jobs by
cluster core number, the slots, the cluster TLB. A JEDGE keeps its queue entry while it runs (19 R367). -/
structure Cluster where
  queue : List Job
  last : Nat
  me : Option Running
  je : Table Running
  slots : Table Slot
  tlb : List TlbEntry
  deriving DecidableEq, Repr

/-- A cluster with nothing queued, its slots never written and its TLB empty. -/
def Cluster.fresh : Cluster := { queue := [], last := 0, me := none, je := [], slots := [], tlb := [] }

/-! ### Copy Engines -/

/-- A copy command (20 R396): kind 3 COPY, 4 COPY2D, 5 TFILL, as its record names it (R400). -/
structure CopyCmd where
  core : Nat
  svc : Bool
  vcore : VCore
  ctx : Nat
  id : Nat
  kind : Nat
  desc : Nat
  descVa : Word
  event : Option (BitVec 16)
  deriving DecidableEq, Repr

/-- A copy command between its start and its end: its view of memory and what its checks found. -/
structure CopyRun where
  cmd : CopyCmd
  words : List Word
  view : View
  fail : Option (FCode × Nat × Word)
  trusted : Bool
  deriving DecidableEq, Repr

/-- A Copy Engine (20 R396). -/
structure CopyEngine where
  queue : List CopyCmd
  run : Option CopyRun
  deriving DecidableEq, Repr

/-- A Copy Engine with nothing to do. -/
def CopyEngine.fresh : CopyEngine := { queue := [], run := none }

/-! ### Contexts -/

/-- States of a context (05 R95). -/
inductive CState where
  | free | building | live | stopped | halted | draining
  deriving DecidableEq, Repr

/-- An event of a context, as the fault actor's payload x1-x7 (05 R99), with the launch it concerns (05 R462), and whether it
is a fault that ended a firing, which FAULTSVC = 2 sends to the error queue (22 R420). -/
structure CtxEvent where
  regs : List Word
  launch : Option Nat
  fault : Bool
  fromSvc : Bool
  deriving DecidableEq, Repr

/-- States of an entry of the handle table (12 R204). -/
inductive HState where
  | free | building | live | retiring
  deriving DecidableEq, Repr

/-- An entry of the handle table (12 R204); `root` is the kernel of the code handle at the root of its PARENT chain, "as recorded when the residual was made" (10 R175). -/
structure HEntry where
  state : HState
  residual : Bool
  host : Bool
  gen : BitVec 20
  check : BitVec 32
  codeva : Word
  words : BitVec 32
  owners : BitVec 16
  running : BitVec 16
  parent : BitVec 12
  stat : BitVec 2
  ktype : BitVec 8
  root : Nat
  deriving DecidableEq, Repr

/-- An entry that no handle has used. -/
def HEntry.empty : HEntry := ⟨.free, false, false, 0, 0, 0, 0, 0, 0, 0, 0, 0, 0⟩

/-- States of a kernel id (07). -/
inductive KState where
  | absent | loading | loaded | retiring
  deriving DecidableEq, Repr

/-- An input of an actor (07 R132). -/
inductive InKind where
  | message | ring | join | engine
  deriving DecidableEq, Repr

/-- An input: kind, rate and index (07 R132). -/
structure ActIn where
  kind : InKind
  rate : Nat
  index : Nat
  deriving DecidableEq, Repr

/-- An actor of a loaded kernel (07 R132). -/
structure Actor where
  func : Nat
  inputs : List ActIn
  hv : Bool
  hidx : Nat
  deriving DecidableEq, Repr

/-- A kernel: its actors, its functions' handle-table indexes, the container it came from, the queues that hold a reference,
the pages of its code, the address and length of each function, and the address and length of its data. -/
structure Kernel where
  state : KState
  actors : List Actor
  funcs : List Nat
  cbase : Word
  clen : Word
  refs : List Nat
  pages : List Word
  places : List (Word × Nat)
  data : Word
  dataLen : Nat
  deriving DecidableEq, Repr

/-- A kernel id that is not loaded. -/
def Kernel.absent : Kernel := ⟨.absent, [], [], 0, 0, [], [], [], 0, 0⟩

/-- A waiter on an event (09 R166): a core's firing, a firing that has been suspended in its wait by its ticket (R168), a queue's WAIT
packet, or what waits on another package, by its coordinate and that package's token. -/
inductive Waiter where
  | core (c : Nat)
  | parked (ticket : Nat)
  | queue (q : Nat)
  | remote (coord : BitVec 31) (token : Nat)
  deriving DecidableEq, Repr

/-- An event operation that a context has asked of its home on another package, and whose answer is to come: its token, the event, the
operation (1 set, 2 clear, 3 wait, 4 test), who asked (09 R167). -/
structure Away where
  token : Nat
  event : BitVec 16
  op : Nat
  who : Waiter
  deriving DecidableEq, Repr

/-- An event (09 R166): its state, its waiters in the order they joined, and whether its entry has moved to the memory table. -/
structure EventSt where
  set : Bool
  waiters : List Waiter
  spilled : Bool
  deriving DecidableEq, Repr

/-- An event at CREATE: clear, no waiters (09 R166). -/
def EventSt.clear : EventSt := ⟨false, [], false⟩

/-- What a service record asks, so that its ANSWER finds what waits (06 R121), for a SPEC with the generic code that it names (12 R217); nothing waits for the miss of a PREF. -/
inductive Ask where
  | tlb (c : Nat)
  | page (c : Nat)
  | place (l g : Nat)
  | event (e : BitVec 16) (op : Nat) (who : Option Waiter)
  | layby
  | spec (c : Nat) (index : Nat) (generic : List Word)
  | pref (c : Nat) (va : Word)
  deriving DecidableEq, Repr

/-- A gauge unit (23 R432). -/
structure Gauge where
  src : BitVec 4
  min : Word
  max : Word
  n : Word
  sum : Word
  sel : BitVec 5
  bins : Table (BitVec 32)
  deriving DecidableEq, Repr

/-- A gauge unit at reset: MIN is all ones, every other field 0 (23 R432). -/
def Gauge.reset : Gauge := ⟨0, 0xFFFFFFFFFFFFFFFF, 0, 0, 0, 0, []⟩

/-- A ring that tells the host (06 R120): its base, log2 of its records, WCOUNT, RCOUNT as last read, and the records that wait in
the Plinth's memory table while it is full. -/
structure RingSt where
  base : Word
  log : Nat
  wcount : Word
  rcount : Word
  waiting : List (List Word)
  deriving DecidableEq, Repr

/-- A lay-by entry (05 R100): for whom it waits, the packed coordinate of the core that it was resolved to (0 for none), and what it holds. -/
structure LayEntry where
  dst : VCore
  target : Nat
  src : BitVec 31
  body : Body
  bound : Option Binding
  deriving DecidableEq, Repr

/-- A contribution to a scan in progress (19 R376): the element's number, the modifiers it issued, its value and its carry-in. -/
structure Contribution where
  elem : Nat
  ty : VTy
  ex : Bool
  ci : Bool
  sg : Bool
  op : ScanOp
  wide : Bool
  value : Vec
  carry : Vec
  deriving DecidableEq, Repr

/-- A scan in progress (19 R376): launch, group (2^32 for the service virtual core, which belongs to none), subgroup specifier, the
number of participants, the contributions, and the elements whose results have been taken. -/
structure ScanSt where
  launch : Nat
  group : Nat
  spec : BitVec 16
  total : Nat
  parts : List Contribution
  taken : List Nat
  deriving DecidableEq, Repr

/-- What a cast does not hold of a swapped-out core (log entry 10): the firings with their inputs and saved registers; `replays` are
those that their PAGE service has made READY since the cast was written. -/
structure Shadow where
  ready : List Firing
  replays : List Firing
  matched : List Firing
  aborted : List Aborted
  inbox : List InMsg
  nextMsg : Nat
  ports : Table (List PUnit)
  ib : List IbUnit
  mailbox : List (BitVec 8 × Word)
  joins : Table Join
  deriving DecidableEq, Repr

/-- A JEDGE saved at an UNBIND with its group's casts (19 R374): its command and, if it had started, its position. -/
structure SavedEdge where
  job : Job
  run : Option Running
  deriving DecidableEq, Repr

/-- A context (05). `oldHandlers` lists the handler-table entries that later ones replaced, newest first, each with the publication
count at which it was replaced (17 R317); `offers` the promotions that the host has asked for (13 R227); `tickets` counts the firings suspended in an EVWAIT and the
tokens given to event operations asked of another package, `away` lists those without an answer; `pausedAt` is when it last left LIVE (08 R153); `svcCast` is the physical address of the cast of its service virtual core
once the Plinth has allocated it, `svcDirty` that this cast is behind the state (05 R462). -/
structure Ctx where
  state : CState
  modemap : Word
  faultIdx : BitVec 12
  faultV : Bool
  root : Word
  layBase : Word
  layLog : Nat
  layMax : Nat
  layFull : Bool
  lay : List LayEntry
  layRead : Word
  layWrite : Word
  dl : RingSt
  hq : RingSt
  eq : RingSt
  sv : RingSt
  castBase : Word
  castLog : Nat
  home : Bool
  handlers : Table Word
  oldHandlers : List (Nat × Word × Nat)
  handles : Table HEntry
  checkSeq : BitVec 32
  kernels : Table Kernel
  ktypes : List Nat
  events : Table EventSt
  pending : List CtxEvent
  haltCause : Nat
  asks : Table Ask
  gauges : Table Gauge
  cdrop : Word
  stopper : Option Nat
  service : VState
  scans : List ScanSt
  shadows : List (VCore × Shadow)
  edges : List SavedEdge
  told : List Nat
  offers : List Word
  tickets : Nat
  away : List Away
  pausedAt : Word
  svcCast : Option Nat
  svcDirty : Bool
  deriving DecidableEq, Repr

/-- A ring nobody has created. -/
def RingSt.none : RingSt := ⟨0, 0, 0, 0, []⟩

/-- A FREE context: "nothing of a past context remains" (05 R95). -/
def Ctx.fresh : Ctx :=
  { state := .free, modemap := 0, faultIdx := 0, faultV := false, root := 0, layBase := 0, layLog := 0, layMax := 0,
    layFull := false, lay := [], layRead := 0, layWrite := 0, dl := RingSt.none, hq := RingSt.none, eq := RingSt.none,
    sv := RingSt.none, castBase := 0, castLog := 0, home := false, handlers := [], oldHandlers := [], handles := [],
    checkSeq := 0, kernels := [], ktypes := [], events := [], pending := [], haltCause := 0, asks := [], gauges := [],
    cdrop := 0, stopper := none, service := VState.fresh, scans := [], shadows := [], edges := [],
    told := [], offers := [], tickets := 0, away := [], pausedAt := 0, svcCast := none, svcDirty := false }

/-! ### Queues and launches -/

/-- States of a queue (06 R107). -/
inductive QState where
  | disabled | idle | running | waiting | error
  deriving DecidableEq, Repr

/-- A queue (06 R107-R109). `pending` are the launches that it has taken and that have not completed; `since` is when its WAIT
packet began to wait, `onEvent` that it waits for an event and not at a BARRIER, `woken` that the event has come. -/
structure Queue where
  base : Word
  log2n : BitVec 5
  ctx : BitVec 8
  en : Bool
  rptr : BitVec 32
  state : QState
  cmderr : Bool
  err : BitVec 8
  tag : BitVec 32
  wptr : BitVec 32
  pending : List Nat
  since : Word
  onEvent : Bool
  woken : Bool
  deriving DecidableEq, Repr

/-- A queue at reset: DISABLED, LOG2N 6, every other field 0 (06 R108). -/
def Queue.reset : Queue := ⟨0, 6, 0, false, 0, .disabled, false, 0, 0, 0, [], 0, false, false⟩

/-- States of a group (08 R149). A group on another package's die is resident there (08 R148). -/
inductive GState where
  | pending | resident | unbinding | swapped | retired
  deriving DecidableEq, Repr

/-- A group (08 R149): its state, the die (numbered across packages, coordinate bits 30:10) and slot of its bind record, the
origin of its rectangle, whether it has ever been bound, whether it is one of the launch's resident set (08 R151), and whether it was
retired because its die was lost (14 R238). -/
structure Group where
  state : GState
  die : Nat
  slot : Nat
  ox : Nat
  oy : Nat
  bound : Bool
  granted : Bool
  lost : Bool
  deriving DecidableEq, Repr

/-- A group never bound. -/
def Group.fresh : Group := ⟨.pending, 0, 0, 0, 0, false, false, false⟩

/-- A launch (06 R112, 08): its packet's fields, the physical address of its casts once they have their place, the rotation pointer,
the slots granted, the groups of better classes that have taken slots of it (08 R148), when its quantum began, whether its start stamp has passed, whether it has not
completed, its groups. -/
structure Launch where
  ctx : Nat
  queue : Nat
  kernel : Nat
  entry : Nat
  prio : Nat
  w : Nat
  h : Nat
  lgw : Nat
  lgh : Nat
  argVa : Word
  argLen : Nat
  quantum : Nat
  start : Word
  done : Option (BitVec 16)
  cast : Option Nat
  rot : Nat
  slots : Nat
  taken : List (Nat × Nat)
  since : Word
  released : Bool
  live : Bool
  groups : Table Group
  deriving DecidableEq, Repr

/-- A bind record (08 R144), B0-B3. -/
structure Bind where
  b0 : Word
  b1 : Word
  b2 : Word
  b3 : Word
  deriving DecidableEq, Repr

/-! ### Dies and links -/

/-- A die: its 1,024 bind records, routing table, soft-error register, error log (physical address and time of each error), the times
of its machine-check events (22 R424), clock in MHz, whether it is lost. -/
structure Die where
  binds : Table Bind
  routes : Table (BitVec 8)
  soft : Word
  log : List (Word × Word)
  checks : List Word
  mhz : Nat
  lost : Bool
  deriving DecidableEq, Repr

/-- A die at reset: routing entries have UNREACH set (14 R234), the clock is 1.5 GHz (01 R13). -/
def Die.fresh : Die := ⟨[], [], 0, [], [], 1500, false⟩

/-- States of a link (14 R231). -/
inductive LState where
  | down | training | up | degraded | lost
  deriving DecidableEq, Repr

/-- A link (14 R231-R233): the fields of its status register, the sequence numbers of the last flit sent and of the last received in
order (0 before the first), the flits sent and not acknowledged with the numbers of those whose messages have come back, the contents of
the flits that wait while it trains on the normal channel and on the carry channel, a slot that waits for its extension, when a flit was
last acknowledged, the failed attempts of the present training, when it became LOST, and the root that its peer follows with the peer's
distance (R239). -/
structure Link where
  state : LState
  lanes : Nat
  peer : BitVec 18
  plink : BitVec 5
  retry : BitVec 16
  trains : BitVec 16
  seqTx : BitVec 12
  seqRx : BitVec 12
  sent : List (BitVec 2048)
  back : List (BitVec 12)
  holding : List (List (BitVec 640))
  carryHold : List (List (BitVec 640))
  half : List (BitVec 640)
  ackTime : Word
  fails : Nat
  lostAt : Word
  root : Option (BitVec 18)
  rootHops : Nat
  deriving DecidableEq, Repr

/-- A link at reset: DOWN, every field of its status register 0 (14 R232). -/
def Link.fresh : Link :=
  { state := .down, lanes := 0, peer := 0, plink := 0, retry := 0, trains := 0, seqTx := 0, seqRx := 0, sent := [], back := [], holding := [],
    carryHold := [], half := [], ackTime := 0, fails := 0, lostAt := 0, root := none, rootHops := 0 }

/-- A message of this package that the first link of its way has delivered and its destination has not acknowledged (14 R235, R237). -/
structure Far where
  pkg : Nat
  link : Nat
  slots : List (BitVec 640)
  deriving DecidableEq, Repr

/-- A message that waits for a new route (14 R235): from which die, on which channel. -/
structure Parked where
  die : Nat
  carry : Bool
  slots : List (BitVec 640)
  deriving DecidableEq, Repr

/-- A change of route that waits for what the old route owes (14 R235): the new entry, and the new traffic held for it. -/
structure Reroute where
  entry : BitVec 8
  held : List Parked
  deriving DecidableEq, Repr

/-! ### Boot and management -/

/-- States of boot (23 R429). -/
inductive Boot where
  | rom | init | ready | fail
  deriving DecidableEq, Repr

/-- Boot status, provisioning mailbox and its data window, flash, SPDM mailbox (23 R427-R431). `flash` lists what has been written since
manufacture or the last ERASE, `erased` says that there was one; `digest` is the SHA-512 of the running image; `spdm` the requests
so far, newest first; `stopped` says that the thermal limit has stopped the module (R436). -/
structure Mgmt where
  boot : Boot
  reason : BitVec 8
  die : BitVec 3
  fver : BitVec 32
  pcmd : Word
  parg0 : Word
  parg1 : Word
  window : Table Byte
  flash : Table (Option Byte)
  erased : Bool
  digest : Option (BitVec 512)
  spdm : List (List Byte)
  spdmRsp : List Byte
  stopped : Bool
  deriving DecidableEq, Repr

/-- Management at reset. -/
def Mgmt.reset : Mgmt :=
  { boot := .rom, reason := 0, die := 0, fver := 0, pcmd := 0, parg0 := 0, parg1 := 0, window := [], flash := [], erased := false,
    digest := none, spdm := [], spdmRsp := [], stopped := false }

/-! ### The package -/

/-- An older version of a 16-byte granule (21 R407, 15 R260): its number, the bytes and tag it held, the publication that
replaced it, whether a fetch may still find it (no FENCE.CODE has dropped it), and, for a publication narrowed by ORD, the
issuing core and the scope outside which the old value may still be read (15 R258, 21 R409), until the publication count `wide` at which the
issuer's next boundary that is not narrowed was made. -/
structure Version where
  granule : Nat
  bytes : BitVec 128
  tag : Bool
  stamp : Nat
  code : Bool
  narrow : Option (Nat × OScope)
  wide : Option Nat
  deriving DecidableEq, Repr

/-- A promotion or migration in progress (13 R227-R228): the context, the first virtual address, the old frames with the size of
each, the new frame, whether it is a promotion, and since when it has held a publication. -/
structure Move where
  ctx : Nat
  va : Word
  piece : Nat
  old : List Nat
  new : Nat
  promo : Bool
  held : Option Word
  deriving DecidableEq, Repr

/-- Whose turn a step is (the model's own schedule; log entry 1). -/
inductive Turn where
  | core (k : Nat)
  | event (i : Instr)
  | time (ticks cycles : Nat)
  deriving DecidableEq, Repr

/-- One package. `cur`, `agenda` and `free` are the model's own: the core whose turn it is, the turns to come, and the counter
that a free value takes its argument from; `copied` lists the frames of private copies of code pages (13 R229), `tbLeft` is
what is left of the last measured offset of the count after the slewing since (14 R239). -/
structure State where
  cur : Nat
  agenda : List Turn
  free : Nat
  mem : List Host.Cell
  tags : Table Bool
  hist : List Version
  stamp : Nat
  cores : Table Core
  clusters : Table Cluster
  engines : Table CopyEngine
  ctxs : Table Ctx
  queues : Table Queue
  launches : Table Launch
  dies : Table Die
  links : Table Link
  flights : List Flight
  evops : List EvOp
  frames : List (Nat × Nat)
  far : List Far
  rerouting : Table Reroute
  moving : List Move
  copied : List Nat
  lostPkgs : List Nat
  nextLaunch : BitVec 32
  time : Word
  cycle : Nat
  ccmd : Word
  carg : Table Word
  featoff : Word
  tbSync : Bool
  tbRoot : Bool
  tbRootOf : Option (BitVec 18)
  tbSrc : BitVec 5
  tbHops : BitVec 24
  tbOffs : BitVec 32
  tbLeft : Int
  rootsel : Bool
  pkg : BitVec 18
  mgmt : Mgmt
  notices : List Word
  deriving DecidableEq, Repr

/-- The package right after reset. -/
def State.reset : State :=
  { cur := 0, agenda := [], free := 0, mem := [], tags := [], hist := [], stamp := 0, cores := [], clusters := [], engines := [],
    ctxs := [], queues := [], launches := [], dies := [], links := [], flights := [], evops := [], frames := [], far := [], rerouting := [], moving := [], copied := [],
    lostPkgs := [], nextLaunch := 0, time := 0, cycle := 0, ccmd := 0, carg := [], featoff := 0, tbSync := false,
    tbRoot := false, tbRootOf := none, tbSrc := 0, tbHops := 0, tbOffs := 0, tbLeft := 0, rootsel := false, pkg := 0, mgmt := Mgmt.reset, notices := [] }

end Sys2Proof.Machine
end

