-- ==== Sys2Proof/Machine/Caps.lean ====
section
/-! DEFINITION. Capabilities: the layout, the bounds, the rewrite when the address moves, and the dereference check
(03 R45-R48). A capability is an `XReg` whose tag is set. -/

namespace Sys2Proof.Machine

/-- ADDR, bits 63:0. -/
def XReg.addr (c : XReg) : Word := c.val.setWidth 64
/-- Bits 127:64. -/
def XReg.hi (c : XReg) : Word := (c.val >>> 64).setWidth 64
/-- EXP, bits 69:64. -/
def XReg.exp (c : XReg) : Nat := fld c.hi 5 0
/-- BELOW, bits 90:70. -/
def XReg.below (c : XReg) : Nat := fld c.hi 26 6
/-- ABOVE, bits 111:91. -/
def XReg.above (c : XReg) : Nat := fld c.hi 47 27
/-- PR to PH, bits 118:112, as a number of seven bits. -/
def XReg.perms (c : XReg) : Nat := fld c.hi 54 48
/-- PS, bit 119. -/
def XReg.sealed (c : XReg) : Bool := fbit c.hi 55
/-- OTYPE, bits 127:120. -/
def XReg.otype (c : XReg) : Nat := fld c.hi 63 56

/-- A register of plain data: bits 127:64 zero, untagged (03 R44). -/
def XReg.plain (w : Word) : XReg := ⟨w.setWidth 128, false⟩
/-- A register from its two doublewords. -/
def XReg.ofWords (lo hi : Word) (tag : Bool) : XReg := ⟨hi.setWidth 128 <<< 64 ||| lo.setWidth 128, tag⟩

/-- Permission bits, numbered from PR (03 R45). -/
def pR : Nat := 1
/-- PW. -/
def pW : Nat := 2
/-- PX. -/
def pX : Nat := 4
/-- PM. -/
def pM : Nat := 8
/-- PL. -/
def pL : Nat := 16
/-- PG. -/
def pG : Nat := 32
/-- PH. -/
def pH : Nat := 64

/-- Bits 127:64 from their fields. -/
def capHi (exp below above perms : Nat) (sealed : Bool) (otype : Nat) : Word :=
  BitVec.ofNat 64 (exp % 64 + below % 2 ^ 21 * 2 ^ 6 + above % 2 ^ 21 * 2 ^ 27 + perms % 128 * 2 ^ 48 + sealed.toNat * 2 ^ 55 +
    otype % 256 * 2 ^ 56)

/-- A tagged, unsealed capability from its fields. -/
def mkCap (addr : Word) (exp below above perms : Nat) : XReg := XReg.ofWords addr (capHi exp below above perms false 0) true

/-- Whether a capability is the full-range one (03 R46). -/
def XReg.full (c : XReg) : Bool := decide (c.exp = 63) && decide (c.below = 0) && decide (c.above = 0)

/-- base and top of a capability (03 R46). A malformed one gives an empty range, which no access passes. -/
def XReg.bounds (c : XReg) : Nat × Nat :=
  if c.full then (0, 2 ^ 64)
  else if c.exp > 42 then (1, 0)
  else
    let g := 2 ^ c.exp
    let anchor := c.addr.toNat - c.addr.toNat % g
    if anchor < c.below * g ∨ anchor + c.above * g > 2 ^ 64 then (1, 0) else (anchor - c.below * g, anchor + c.above * g)
/-- base(c). -/
def XReg.base (c : XReg) : Nat := c.bounds.1
/-- top(c). -/
def XReg.top (c : XReg) : Nat := c.bounds.2

/-- A tagged capability moved to a new address, keeping its bounds and its tag where 03 R47 says that is possible. -/
def XReg.move (c : XReg) (na : Word) : XReg :=
  if c.full then XReg.ofWords na c.hi true
  else
    let g := 2 ^ c.exp
    let an := na.toNat - na.toNat % g
    if c.base ≤ an ∧ an ≤ c.top ∧ (an - c.base) / g < 2 ^ 21 ∧ (c.top - an) / g < 2 ^ 21 then
      XReg.ofWords na (capHi c.exp ((an - c.base) / g) ((c.top - an) / g) c.perms c.sealed c.otype) true
    else XReg.plain na

/-- The least exponent, at most `n` above `e`, at which [lo, hi) has fewer than 2^21 granules (16 R288). -/
def leastExp (lo hi : Nat) : Nat → Nat → Nat
  | 0, e => e
  | n + 1, e => if (hi + 2 ^ e - 1) / 2 ^ e - lo / 2 ^ e < 2 ^ 21 then e else leastExp lo hi n (e + 1)

/-- The bounds [lo, lo + len) rounded outward to the smallest exponent: exponent, base, top (16 R288). -/
def roundBounds (lo len : Nat) : Nat × Nat × Nat :=
  let e := leastExp lo (lo + len) 64 0
  (e, lo / 2 ^ e * 2 ^ e, (lo + len + 2 ^ e - 1) / 2 ^ e * 2 ^ e)

/-- The capability at lo for [lo, lo + len), rounded outward, with these permissions (06 R112, 16 R288, R290). -/
def capFor (lo len perms : Nat) : XReg :=
  let (e, nb, nt) := roundBounds lo len
  mkCap (BitVec.ofNat 64 lo) e 0 ((nt - nb) / 2 ^ e) perms

/-- What a dereference finds wrong with a capability before any address (03 R48): its tag, then its permissions. Under PL or PG
the other space bit must be clear. -/
def XReg.lacks (c : XReg) (need : Nat) : Option FCode :=
  if !c.tag then some .capTag
  else if c.sealed || decide (c.perms &&& need ≠ need) ||
    (decide (need &&& (pL + pG) ≠ 0) && decide ((c.perms &&& pL ≠ 0) = (c.perms &&& pG ≠ 0))) then some .capPerm
  else none

/-- Whether an access of `size` bytes at `a` is out of bounds (03 R48). -/
def XReg.outside (c : XReg) (a : Word) (size : Nat) : Bool := decide (a.toNat < c.base) || decide (a.toNat + size > c.top)

/-- Least of a list of addresses; 0 for none. -/
def lowest : List Word → Word
  | [] => 0
  | a :: t => t.foldl (fun m x => if x.toNat < m.toNat then x else m) a

/-- The check of 03 R48 over every address an instruction touches: each kind on every address before the next kind, the lowest
failing address reported (17 R301). -/
def checkCap (c : XReg) (need : Nat) (addrs : List Word) (size : Nat) : Except (FCode × Word) Unit :=
  match c.lacks need with
  | some f => .error (f, lowest addrs)
  | none =>
    match addrs.filter (fun a => c.outside a size) with
    | [] => .ok ()
    | bad => .error (.capBounds, lowest bad)

/-- The message capability that dispatch places in x127 (08 R146). -/
def messageCap : XReg := mkCap 0 63 0 0 pM

end Sys2Proof.Machine
end

