-- ==== Sys2Proof/Config.lean ====
section
/-! DEFINITION. What the spec leaves to an implementation, and the free values. A free value is an opaque constant without a
body: nothing can evaluate it, so whatever is proved holds for every value of it. Those of type `Nat → …` are applied to the
counter `State.free`, which every use advances, so that each use is a fresh value (log entry 2). -/

namespace Sys2Proof.Config

/-- Which of the values an address has held since the phase began a first load returns (21 R407). -/
opaque versionPick : Nat → Nat
/-- Which of a word's old and new contents an unfenced fetch finds (15 R260, 21 R417). -/
opaque fetchPick : Nat → Nat
/-- How many units a mesh port holds beyond one: the spec gives its inputs and outputs no capacity (03 R58). -/
opaque portDepth : Nat
/-- Where the Plinth finds a free frame: the number of free frames it passes over (13 R464). -/
opaque framePick : Nat → Nat
/-- The leaf that the host's own tables hold for a virtual address, and its level, at a time: a context under TLBFILL = 1 may have tables
of the host's own layout, which the host then walks (13 R220). Arguments: the context, the address, the time. -/
opaque hostLeaf : Nat → Word → Word → Word × Nat
/-- CHSTAT.FUEL of a residual that the host made (12 R215, R217). -/
opaque hostFuel : Nat → BitVec 32

/-- Which free virtual address the loader or the chisel takes, in units of 64 KiB (07 R135, 12 R214). -/
opaque vaPick : Nat → Nat

/-- CHSTAT.WORDS of a residual whose length does not fit its 16 bits (12 R215). -/
opaque longWords : Nat → BitVec 16

/-- The latency in cycles of the HBM read behind a load, when the caches did not serve it (23 R433, source 4). -/
opaque hbmRead : Nat → Option Word
/-- How many cycles the service of a PREF's miss took (23 R433, source 8). -/
opaque prefMiss : Nat → Word

/-- The per-row or per-column scale of a line beyond the scale block's last, which only a transposed tile has (11 R186, R189). -/
opaque scaleBeyond : Nat → Nat
/-- How many K-blocks a cancelled job had done when it stopped (19 R369). -/
opaque blocksDone : Nat → Nat

/-- The public key whose digest is fused at manufacture (23 R427): its two coordinates. -/
opaque imageKey : Nat × Nat
/-- The package id that the Plinth sets at boot (01 R9). -/
opaque bootPkg : BitVec 18
/-- The minimum firmware version fused for anti-rollback (23 R428). -/
opaque rollbackMin : BitVec 32
/-- The flash before anything has been written to it (23 R427): the image that the module was shipped with. -/
opaque shippedFlash : Nat → BitVec 8
/-- What a byte of the erased flash holds (23 R430). -/
opaque erasedFlash : BitVec 8
/-- The error code and data with which SPDM refuses a request, the newest first of those so far (23 R431): SPDM's own states and checks are named
and not restated. -/
opaque spdmError : List (List Byte) → Option (Byte × Byte)
/-- The bytes of an SPDM answer after those that the model fixes: nonces, certificates, signatures with the fused identity key. The first argument
is the counter of free values. -/
opaque spdmTail : Nat → List (List Byte) → List Byte
/-- A header byte of an SPDM answer: the first or second parameter, by number. -/
opaque spdmParam : Nat → List (List Byte) → Nat → Byte
/-- DMTFSpecMeasurementValueType of measurement block i. -/
opaque measureType : Nat → Byte
/-- The physical address that an error log's record holds for an uncorrectable error met outside an access (23 R435). -/
opaque errorAddress : Nat → Word

/-- The scalar-level words that the translator makes of a function's loop- or tile-level section (07 R124-R127): the spec fixes what
they compute and that they depend on the container, FEATURES and the translator alone, not their encoding; `none` when a word is
illegal at that level or a region needs a feature that is off and no cross-reference covers it. Arguments: the level (1 loop, 2 tile),
the container, the function's index, FEATURES. -/
opaque translate : Nat → List Byte → Nat → Word → Option (List Word)
/-- Where a function starts in a native image and how many words of it are its own: the image entry of 07 R131 does not say.
Arguments: the image's words, the function's index. -/
opaque imageEntry : List Word → Nat → Nat × Nat

/-- The Plinth's choice of S, the number of a launch's groups that get slots (08 R147). -/
opaque slotsPick : Nat → Nat
/-- Whether a group on another package, or with casts that another package wrote, holds a ready firing or a message (08 R151): the launch, the
group, the time. -/
opaque farWork : Nat → Nat → Word → Bool
/-- Replies that are still owed to a firing when it migrates (09 R169). -/
opaque lateReplies : Nat → Nat
/-- The home package of a context on the packages that are not its home: CREATE says only whether this package is (06 R119). -/
opaque homeOf : Nat → Nat
/-- Messages over several links that their destination package has acknowledged since: to which package, and how many of the oldest (14 R235,
R237; the spec gives such an acknowledgement no form). -/
opaque farAck : Nat → Nat × Nat
/-- How many ticks a count is slewed by towards its source, out of those that the limit of 14 R239 allows. -/
opaque slew : Nat → Nat

end Sys2Proof.Config
end

