-- ==== Sys2Proof/WellFormed.lean ====
section
/-! DEFINITION. Which words an assigned opcode accepts: operand roles (15 R247-R248), unused fields (R249), modifier layouts
(R250-R253, 18 R326), early-bound marks (R244) and the safe-point bit (R243). Everything R255 calls ILLEGAL in a word itself. -/

namespace Sys2Proof

/-- The operand roles of 15 R247, with the restrictions R248 and the rows of R254 put on them. -/
inductive Role where
  /-- Unused: specifier 0x000. -/
  | unused
  /-- S: a scalar source. -/
  | s
  /-- S in groups 0x3, 0x6, 0x7, 0x8: no class 4. -/
  | sAcc
  /-- SD: a scalar destination. -/
  | sd
  /-- SD in groups 0x3, 0x6, 0x7, 0x8: no class 4. -/
  | sdAcc
  /-- RB: a branch source. -/
  | rb
  /-- X and XD: class 0, read or written as a capability. -/
  | x
  /-- G: class 0 or 1, read and written. -/
  | g
  /-- B8: the first of eight x registers. -/
  | b8
  /-- V: a vector source. -/
  | v
  /-- VD: a vector destination. -/
  | vd
  /-- VA, and the fields the map gives as "v": a v register. -/
  | vReg
  /-- T: a tile register. -/
  | t
  /-- K: a k register. -/
  | k
  /-- H: a handle. -/
  | h
  /-- H with count field 0. -/
  | h0
  /-- Q as a source. -/
  | qs
  /-- Q as a destination. -/
  | qd
  /-- A link: class 0 or 1. -/
  | link
  /-- v or LQ. -/
  | vLQ
  /-- v or SQ. -/
  | vSQ
  /-- D of LD: SD without class 4, or LQ. -/
  | ldD
  /-- D of ST and LSST: S without class 4, or SQ. -/
  | stD
  /-- A of TCHK: X or T. -/
  | xt
  /-- A of JINIT: class 0, 1, 2 or 6. -/
  | j
  deriving DecidableEq, Repr

/-- The class CLS of a specifier (03 R55). -/
def Opnd.cls : Opnd → Nat
  | .x _ => 0 | .y _ => 1 | .l _ => 2 | .v _ => 3 | .port _ => 4 | .ring _ _ => 5 | .imm _ => 6
  | .k _ | .lane | .core | .gcoord | .gtb | .sink => 7

/-- Which specifiers a role accepts (15 R247-R248). -/
def Role.ok : Role → Opnd → Bool
  | .unused, o => decide (o = .x 0)
  | .s, .port i => decide (i.val ≤ 5)
  | .s, o => match o with | .x _ | .y _ | .l _ | .imm _ | .k _ | .lane | .core | .gcoord | .gtb => true | _ => false
  | .sAcc, o | .rb, o =>
    match o with | .x _ | .y _ | .l _ | .imm _ | .k _ | .lane | .core | .gcoord | .gtb => true | _ => false
  | .sd, .port i => decide (1 ≤ i.val ∧ i.val ≤ 4 ∨ 6 ≤ i.val)
  | .sd, .l i | .sdAcc, .l i | .ldD, .l i => decide (i = 0)
  | .sd, o | .sdAcc, o => match o with | .x _ | .y _ | .sink => true | _ => false
  | .x, o => match o with | .x _ => true | _ => false
  | .g, o | .link, o => match o with | .x _ | .y _ => true | _ => false
  | .b8, .x i => decide (1 ≤ i.val ∧ i.val ≤ 120)
  | .b8, _ => false
  | .v, .port i => decide (i.val ≤ 5)
  | .v, o => match o with | .v _ | .ring _ _ | .imm _ => true | _ => false
  | .vd, .port i => decide (1 ≤ i.val ∧ i.val ≤ 4 ∨ i.val = 6)
  | .vd, o => match o with | .v _ | .ring _ _ => true | _ => false
  | .vReg, o => match o with | .v _ => true | _ => false
  | .t, .v i => decide (i.val < 8)
  | .t, _ => false
  | .k, o => match o with | .k _ => true | _ => false
  | .h, o => match o with | .ring _ _ => true | _ => false
  | .h0, .ring _ c => decide (c = 0)
  | .h0, _ => false
  | .qs, .port i => decide (i.val ≤ 4)
  | .qd, .port i => decide (1 ≤ i.val ∧ i.val ≤ 4)
  | .qs, o | .qd, o => match o with | .ring _ _ => true | _ => false
  | .vLQ, .port i | .ldD, .port i => decide (i.val = 5)
  | .vSQ, .port i | .stD, .port i => decide (i.val = 6)
  | .vLQ, o | .vSQ, o => match o with | .v _ => true | _ => false
  | .ldD, o => match o with | .x _ | .y _ | .sink => true | _ => false
  | .stD, o => match o with | .x _ | .y _ | .l _ | .imm _ | .k _ | .lane | .core | .gcoord | .gtb => true | _ => false
  | .xt, .v i => decide (i.val < 8)
  | .xt, o => match o with | .x _ => true | _ => false
  | .j, o => match o with | .x _ | .y _ | .l _ | .imm _ => true | _ => false

/-- Whether a field of this role is read as a plain data value, so that it may carry an early-bound mark (15 R244). -/
def Role.data : Role → Bool
  | .s | .sAcc | .rb | .g | .stD | .j => true
  | _ => false

/-- One early-bound mark: allowed only on a plain data value of class 0, 1 or 2 (15 R244). -/
def markOk (set : Bool) (r : Role) (o : Opnd) : Bool := !set || (r.data && decide (o.cls ≤ 2))

/-- The three marks: bit 60 for A, bit 61 for B, bit 62 for C, or D read as a source (15 R244). -/
def bmOk (bm : BitVec 3) (ra : Role) (a : Opnd) (rB : Role) (b : Opnd) (rC : Role) (c : Opnd) : Bool :=
  markOk (bm.getLsbD 0) ra a && markOk (bm.getLsbD 1) rB b && markOk (bm.getLsbD 2) rC c

/-- An F-R word without C: each field's role, and the marks. -/
def FR.ok (f : FR) (d a b : Role) : Bool := d.ok f.d && a.ok f.a && b.ok f.b && bmOk f.bm a f.a b f.b d f.d
/-- An F-R word with C. -/
def FRC.ok (f : FRC) (d a b c : Role) : Bool :=
  d.ok f.d && a.ok f.a && b.ok f.b && c.ok f.c && bmOk f.bm a f.a b f.b c f.c
/-- SEND. -/
def FRS.ok (f : FRS) (d a b : Role) : Bool := d.ok f.d && a.ok f.a && b.ok f.b && bmOk f.bm a f.a b f.b d f.d
/-- TLD. -/
def FRT.ok (f : FRT) (d a b : Role) : Bool := d.ok f.d && a.ok f.a && b.ok f.b && bmOk f.bm a f.a b f.b d f.d
/-- The strided and indexed forms. -/
def FRL.ok (f : FRL) (d a b : Role) : Bool := d.ok f.d && a.ok f.a && b.ok f.b && bmOk f.bm a f.a b f.b d f.d
/-- Group 0x8: under .P, which only AADD to AFMAX take, D is 0x000 (15 R252). -/
def FA.ok (f : FA) (mayPost : Bool) (d a b c : Role) : Bool :=
  (!f.post || mayPost) && (if f.post then Role.unused.ok f.d else d.ok f.d) && a.ok f.a && b.ok f.b && c.ok f.c &&
  bmOk f.bm a f.a b f.b c f.c
/-- F-I. -/
def FI.ok (f : FI) (d a : Role) : Bool := d.ok f.d && a.ok f.a && bmOk f.bm a f.a .unused (.x 0) d f.d
/-- F-M: A is the base, class 0 (15 R245); EXT only on loads of .B, .H, .W (R251). -/
def FM.ok (f : FM) (d : Role) (load : Bool) : Bool :=
  d.ok f.d && Role.x.ok f.a && bmOk f.bm .x f.a .unused (.x 0) d f.d &&
  (!f.ext || (load && decide (f.width ≠ .d ∧ f.width ≠ .q)))
/-- F-M of a fixed width. -/
def FMV.ok (f : FMV) (d : Role) : Bool := d.ok f.d && Role.x.ok f.a && bmOk f.bm .x f.a .unused (.x 0) d f.d
/-- F-M of group 0x7 of a fixed width. -/
def FML.ok (f : FML) (d : Role) : Bool := d.ok f.d && Role.x.ok f.a && bmOk f.bm .x f.a .unused (.x 0) d f.d
/-- F-C. -/
def FC.ok (f : FC) (a b : Role) : Bool := a.ok f.a && b.ok f.b && bmOk f.bm a f.a b f.b .unused (.x 0)

/-- A V field that .S streams: class 4 with IDX 0-4, or class 5 (15 R250). -/
def Opnd.streamed : Opnd → Bool
  | .port i => decide (i.val ≤ 4)
  | .ring _ _ => true
  | _ => false

/-- A vector word's operands, marks and the streamed source that .S needs (15 R250, 18 R326-R327). -/
def FV.ok (f : FV) (d a b : Role) : Bool :=
  d.ok f.d && a.ok f.a && b.ok f.b && bmOk f.bm a f.a b f.b d f.d &&
  (!f.md.s || (decide (a = .v) && f.a.streamed) || (decide (b = .v) && f.b.streamed))

/-- .I8 to .I64. -/
def VTy.isInt : VTy → Bool
  | .i8 | .i16 | .i32 | .i64 => true
  | _ => false
/-- .F16, .BF16, .F32, .F64: the float types of groups 0xA and 0xB's reductions (18 R326). -/
def VTy.isFlt : VTy → Bool
  | .f16 | .bf16 | .f32 | .f64 => true
  | _ => false
/-- The types SCAN and SCANW take (19 R375). -/
def VTy.isScan : VTy → Bool
  | .i32 | .i64 | .f16 | .bf16 | .f32 | .f64 => true
  | _ => false

/-- RM is zero. -/
def VMod.noRm (m : VMod) : Bool := decide (m.rm = .rne)
/-- XMOD is zero but for the bits of `mask`. -/
def VMod.xOnly (m : VMod) (mask : BitVec 5) : Bool := decide (m.xmod &&& ~~~mask = 0)
/-- XMOD 40:37 of VCVT: the source TYPE, with bit 36 zero (15 R250). -/
def VMod.srcTy (m : VMod) : Option VTy :=
  if m.xmod.getLsbD 0 then none else
  match m.xmod.toNat / 2 with
  | 0 => some .i8 | 1 => some .i16 | 2 => some .i32 | 3 => some .i64 | 4 => some .e4m3 | 5 => some .e5m2
  | 6 => some .f16 | 7 => some .bf16 | 8 => some .f32 | 9 => some .f64 | _ => none
/-- VCVT needs a source TYPE other than its own (18 R326). -/
def VMod.cvtOk (m : VMod) : Bool := match m.srcTy with | some t => decide (t ≠ m.ty) | none => false
/-- VFCMP's predicate, 0-4 in XMOD 38:36 (18 R326, R337). -/
def VMod.cmpOk (m : VMod) : Bool := decide (m.xmod.toNat ≤ 4)

/-- SCAN and SCANW: B names the subgroup under .SG and is unused otherwise (15 R253, 19 R375). -/
def FSC.ok (f : FSC) (d a : Role) : Bool :=
  let b : Role := if f.sg then .s else .unused
  d.ok f.d && a.ok f.a && b.ok f.b && bmOk f.bm a f.a b f.b d f.d && f.ty.isScan

/-- Every opcode that the map assigns, as the ranges of the map (15 R254-R255). -/
def assignedOpc (opc : Nat) : Bool :=
  [(0x001, 0x011), (0x040, 0x063), (0x080, 0x089), (0x0C0, 0x0CD), (0x100, 0x10B), (0x140, 0x14F), (0x180, 0x18A), (0x1C0, 0x1CB), (0x200, 0x210), (0x240, 0x253), (0x280, 0x28E), (0x2C0, 0x2CC), (0x300, 0x30D), (0x340, 0x349), (0x380, 0x389)].any
    (fun r => decide (r.1 ≤ opc) && decide (opc ≤ r.2))

/-- A word's opcode, bits 59:50 (15 R242). -/
def opcOf (w : Word) : Nat := fld w 59 50

/-- Ranges of the numbers an event names: 256 contexts, 2,048 queues, 8 dies, 8,192 cores, 1,024 clusters, 32 Copy Engines,
18 links, 2^18 package ids (01 R7-R10, R23-R24). -/
def ctxOk (n : Nat) : Bool := decide (n < 256)
/-- See `ctxOk`. -/
def queueOk (n : Nat) : Bool := decide (n < 2048)
/-- See `ctxOk`. -/
def dieOk (n : Nat) : Bool := decide (n < 8)
/-- A die of any package: bits 30:10 of a packed coordinate (01 R9). -/
def anyDieOk (n : Nat) : Bool := decide (n < 2097152)
/-- See `ctxOk`. -/
def coreOk (n : Nat) : Bool := decide (n < 8192)
/-- See `ctxOk`. -/
def clusterOk (n : Nat) : Bool := decide (n < 1024)
/-- See `ctxOk`. -/
def engineOk (n : Nat) : Bool := decide (n < 32)
/-- See `ctxOk`. -/
def linkOk (n : Nat) : Bool := decide (n < 18)
/-- See `ctxOk`. -/
def pkgOk (n : Nat) : Bool := decide (n < 262144)
/-- The numbers an uncorrectable error's site names. -/
def UncSite.ok : UncSite → Bool
  | .access c _ | .cast c => coreOk c
  | .tiles c n => coreOk c && decide (n < 8)
  | .layby x => ctxOk x
  | .engine u => clusterOk u
  | .copyEngine e => engineOk e
  | .idle => true

/-- A word of an assigned opcode that raises no ILLEGAL (or, for a prefix, no PREFIX) by itself: all the checks of
15 R255, "made together". For an event: its numbers are in range. -/
def Instr.wf : Instr → Bool
  | .ximm _ => true
  | .ord _ => true
  | .nop f => f.ok .unused .unused .unused
  | .trap f => f.ok .unused .unused && decide (f.imm.toNat ≤ 0xFF)
  | .trapd f => f.ok .unused .unused && decide (1 ≤ f.imm.toNat ∧ f.imm.toNat ≤ 0x19)
  | .brk f => f.ok .unused .unused && decide (f.imm.toNat ≤ 0xFFFF)
  | .eret f => !f.sp && f.ok .unused .unused .unused
  | .csrr f => f.ok .sd .unused && decide (f.imm.toNat ≤ 0xFFF)
  | .csrw f => f.ok .sd .s && decide (f.imm.toNat ≤ 0xFFF)
  | .csrs f => f.ok .sd .s && decide (f.imm.toNat ≤ 0xFFF)
  | .csrc f => f.ok .sd .s && decide (f.imm.toNat ≤ 0xFFF)
  | .fenceCode f => f.ok .unused .x .s
  | .ptsync f => f.ok .unused .x .s
  | .stopw f => f.ok .unused .unused .unused
  | .resumew f => f.ok .unused .unused .unused
  | .waitt f => f.ok .unused .s .unused
  | .halt f => !f.sp && f.ok .unused .unused .unused
  | .add f => f.ok .sd .s .s
  | .sub f => f.ok .sd .s .s
  | .mul f => f.ok .sd .s .s
  | .mulh f => f.ok .sd .s .s
  | .mulhu f => f.ok .sd .s .s
  | .div f => f.ok .sd .s .s
  | .divu f => f.ok .sd .s .s
  | .rem f => f.ok .sd .s .s
  | .remu f => f.ok .sd .s .s
  | .and f => f.ok .sd .s .s
  | .or f => f.ok .sd .s .s
  | .xor f => f.ok .sd .s .s
  | .andn f => f.ok .sd .s .s
  | .orn f => f.ok .sd .s .s
  | .shl f => f.ok .sd .s .s
  | .shr f => f.ok .sd .s .s
  | .shra f => f.ok .sd .s .s
  | .rol f => f.ok .sd .s .s
  | .ror f => f.ok .sd .s .s
  | .min f => f.ok .sd .s .s
  | .max f => f.ok .sd .s .s
  | .minu f => f.ok .sd .s .s
  | .maxu f => f.ok .sd .s .s
  | .cmpeq f => f.ok .sd .s .s
  | .cmpne f => f.ok .sd .s .s
  | .cmplt f => f.ok .sd .s .s
  | .cmpltu f => f.ok .sd .s .s
  | .sel f => f.ok .sd .s .s .s
  | .clz f => f.ok .sd .s .unused
  | .ctz f => f.ok .sd .s .unused
  | .popc f => f.ok .sd .s .unused
  | .brev f => f.ok .sd .s .unused
  | .bswap f => f.ok .sd .s .unused
  | .ext f => f.ok .sd .s .s
  | .ins f => f.ok .g .s .s
  | .mov f => f.ok .sd .s .unused
  | .addi f => f.ok .sd .s
  | .andi f => f.ok .sd .s
  | .ori f => f.ok .sd .s
  | .xori f => f.ok .sd .s
  | .shli f => f.ok .sd .s
  | .shri f => f.ok .sd .s
  | .shrai f => f.ok .sd .s
  | .cmplti f => f.ok .sd .s
  | .movi f => f.ok .sd .unused
  | .movhi f => f.ok .sd .unused
  | .cgeta f => f.ok .sdAcc .x .unused
  | .cseta f => f.ok .x .x .sAcc
  | .cinc f => f.ok .x .x
  | .csetb f => f.ok .x .x .sAcc
  | .cgetb f => f.ok .sdAcc .x .unused
  | .cgetl f => f.ok .sdAcc .x .unused
  | .candp f => f.ok .x .x .sAcc
  | .cgetp f => f.ok .sdAcc .x .unused
  | .ctag f => f.ok .sdAcc .x .unused
  | .cclr f => f.ok .x .x .unused
  | .csub f => f.ok .sdAcc .x .x
  | .clscap f => f.ok .x .x .sAcc
  | .cseal f => f.ok .x .x .x
  | .cunseal f => f.ok .x .x .x
  | .beq f => f.ok .rb .rb
  | .bne f => f.ok .rb .rb
  | .blt f => f.ok .rb .rb
  | .bge f => f.ok .rb .rb
  | .bltu f => f.ok .rb .rb
  | .bgeu f => f.ok .rb .rb
  | .bk f => f.ok .k .unused
  | .bnk f => f.ok .k .unused
  | .jmp f => f.ok .unused .unused
  | .jal f => f.ok .link .unused
  | .jr f => f.ok .link .x .unused
  | .loop f => f.ok .g .unused
  | .send f => f.ok .unused .x .b8
  | .sendm f => f.ok .unused .x .b8 .s
  | .recv f => f.ok .b8 .unused .unused
  | .fire f => f.ok .unused .x .b8
  | .endFiring f => !f.sp && f.ok .unused .unused .unused
  | .yieldFiring f => f.sp && f.ok .unused .unused .unused
  | .migrate f => !f.sp && f.ok .unused .x .unused
  | .evset f => f.ok .unused .s .unused
  | .evclr f => f.ok .unused .s .unused
  | .evwait f => f.ok .unused .s .unused
  | .evtest f => f.ok .sd .s .unused
  | .join f => Role.unused.ok f.d && Role.x.ok f.a && Role.unused.ok f.b && bmOk f.bm .x f.a .unused f.b .unused f.d
  | .jinit f => Role.unused.ok f.d && Role.j.ok f.a && Role.unused.ok f.b && bmOk f.bm .j f.a .unused f.b .unused f.d
  | .htset f => f.ok .unused .s .s
  | .htget f => f.ok .sd .s .unused
  | .hostq f => f.ok .unused .b8 .unused
  | .ld f => f.ok .ldD true && (!decide (f.width = .q) || decide (f.d = .port 5))
  | .st f => f.ok .stD false && (!decide (f.width = .q) || decide (f.d = .port 6))
  | .ldv f => f.ok .vLQ
  | .stv f => f.ok .vSQ
  | .ldvs f => f.ok .vLQ .x .sAcc
  | .stvs f => f.ok .vSQ .x .sAcc
  | .ldvx f => f.ok .vLQ .x .vReg
  | .stvx f => f.ok .vSQ .x .vReg
  | .pref f => f.ok .unused
  | .ldc f => f.ok .x
  | .stc f => f.ok .x
  | .lsld f => f.ok .sdAcc true && decide (f.width ≠ .q) && !f.nt
  | .lsst f => f.ok .stD false && (!decide (f.width = .q) || decide (f.d = .port 6)) && !f.nt
  | .lsldv f => f.ok .vReg
  | .lsstv f => f.ok .vSQ
  | .mcst f => f.ok .unused .x .vReg
  | .cbinit f => f.ok .h0 .sAcc .sAcc
  | .cbadvp f => f.ok .h .unused .unused
  | .cbadvc f => f.ok .h .unused .unused
  | .cbcnt f => f.ok .sdAcc .h0 .unused
  | .qctl f => f.ok .qd .sAcc .unused
  | .qtest f => f.ok .sdAcc .qs .unused
  | .qdrain f => f.ok .x .qs .unused
  | .aadd f => f.ok true .sdAcc .x .sAcc .unused
  | .aand f => f.ok true .sdAcc .x .sAcc .unused
  | .aor f => f.ok true .sdAcc .x .sAcc .unused
  | .axor f => f.ok true .sdAcc .x .sAcc .unused
  | .amin f => f.ok true .sdAcc .x .sAcc .unused
  | .amax f => f.ok true .sdAcc .x .sAcc .unused
  | .aminu f => f.ok true .sdAcc .x .sAcc .unused
  | .amaxu f => f.ok true .sdAcc .x .sAcc .unused
  | .aswp f => f.ok true .sdAcc .x .sAcc .unused
  | .acas f => f.ok true .sdAcc .x .sAcc .sAcc
  | .afadd f => f.ok true .sdAcc .x .sAcc .unused
  | .afmin f => f.ok true .sdAcc .x .sAcc .unused
  | .afmax f => f.ok true .sdAcc .x .sAcc .unused
  | .rget f => f.ok false .sdAcc .x .unused .unused
  | .rput f => f.ok false .unused .x .sAcc .unused
  | .radd f => f.ok false .unused .x .sAcc .unused
  | .rcas f => f.ok false .sdAcc .x .sAcc .sAcc
  | .vadd f => f.ok .vd .v .v && f.md.ty.isInt && f.md.noRm && f.md.xOnly 1
  | .vsub f => f.ok .vd .v .v && f.md.ty.isInt && f.md.noRm && f.md.xOnly 1
  | .vmul f => f.ok .vd .v .v && f.md.ty.isInt && f.md.noRm && f.md.xOnly 1
  | .vmulh f => f.ok .vd .v .v && f.md.ty.isInt && f.md.noRm && !f.md.sat && f.md.xOnly 1
  | .vand f => f.ok .vd .v .v && f.md.ty.isInt && f.md.noRm && !f.md.sat && f.md.xOnly 0
  | .vor f => f.ok .vd .v .v && f.md.ty.isInt && f.md.noRm && !f.md.sat && f.md.xOnly 0
  | .vxor f => f.ok .vd .v .v && f.md.ty.isInt && f.md.noRm && !f.md.sat && f.md.xOnly 0
  | .vshl f => f.ok .vd .v .v && f.md.ty.isInt && f.md.noRm && !f.md.sat && f.md.xOnly 0
  | .vshr f => f.ok .vd .v .v && f.md.ty.isInt && f.md.noRm && !f.md.sat && f.md.xOnly 0
  | .vshra f => f.ok .vd .v .v && f.md.ty.isInt && f.md.noRm && !f.md.sat && f.md.xOnly 0
  | .vmin f => f.ok .vd .v .v && f.md.ty.isInt && f.md.noRm && !f.md.sat && f.md.xOnly 1
  | .vmax f => f.ok .vd .v .v && f.md.ty.isInt && f.md.noRm && !f.md.sat && f.md.xOnly 1
  | .vcmpeq f => f.ok .vd .v .v && f.md.ty.isInt && f.md.noRm && !f.md.sat && f.md.xOnly 0
  | .vcmplt f => f.ok .vd .v .v && f.md.ty.isInt && f.md.noRm && !f.md.sat && f.md.xOnly 1
  | .vsel f => f.ok .vd .v .v && f.md.noRm && !f.md.sat && !f.md.m && f.md.xOnly 0
  | .vabs f => f.ok .vd .v .unused && f.md.ty.isInt && f.md.noRm && f.md.xOnly 0
  | .vdot4 f => f.ok .vReg .v .v && decide (f.md.ty = .i8) && f.md.noRm && f.md.xOnly 1
  | .vsplat f => f.ok .vd .s .unused && f.md.noRm && !f.md.sat && !f.md.s && f.md.xOnly 0
  | .vmovx f => f.ok .sd .v .s && f.md.noRm && !f.md.sat && !f.md.m && !f.md.s && f.md.xOnly 1
  | .vins f => f.ok .vReg .s .s && f.md.noRm && !f.md.sat && !f.md.m && !f.md.s && f.md.xOnly 0
  | .vfadd f => f.ok .vd .v .v && f.md.ty.isFlt && f.md.xOnly 0
  | .vfsub f => f.ok .vd .v .v && f.md.ty.isFlt && f.md.xOnly 0
  | .vfmul f => f.ok .vd .v .v && f.md.ty.isFlt && f.md.xOnly 0
  | .vfma f => f.ok .vReg .v .v && f.md.ty.isFlt && f.md.xOnly 0
  | .vfnma f => f.ok .vReg .v .v && f.md.ty.isFlt && f.md.xOnly 0
  | .vfdiv f => f.ok .vd .v .v && f.md.ty.isFlt && f.md.xOnly 0
  | .vfsqrt f => f.ok .vd .v .unused && f.md.ty.isFlt && !f.md.sat && f.md.xOnly 0
  | .vfrsq f => f.ok .vd .v .unused && decide (f.md.ty = .f32) && f.md.noRm && !f.md.sat && f.md.xOnly 0
  | .vfrcp f => f.ok .vd .v .unused && decide (f.md.ty = .f32) && f.md.noRm && !f.md.sat && f.md.xOnly 0
  | .vfmin f => f.ok .vd .v .v && f.md.ty.isFlt && f.md.noRm && !f.md.sat && f.md.xOnly 0
  | .vfmax f => f.ok .vd .v .v && f.md.ty.isFlt && f.md.noRm && !f.md.sat && f.md.xOnly 0
  | .vfabs f => f.ok .vd .v .unused && f.md.ty.isFlt && f.md.noRm && !f.md.sat && f.md.xOnly 0
  | .vfneg f => f.ok .vd .v .unused && f.md.ty.isFlt && f.md.noRm && !f.md.sat && f.md.xOnly 0
  | .vfcmp f => f.ok .vd .v .v && f.md.ty.isFlt && f.md.noRm && !f.md.sat && f.md.cmpOk
  | .vfclass f => f.ok .vd .v .unused && f.md.ty.isFlt && f.md.noRm && !f.md.sat && f.md.xOnly 0
  | .vcvt f => f.ok .vd .v .unused && f.md.cvtOk
  | .vperm f => f.ok .vd .v .v && f.md.noRm && !f.md.sat && f.md.xOnly 0
  | .vrot f => f.ok .vd .v .s && f.md.noRm && !f.md.sat && f.md.xOnly 0
  | .vbcast f => f.ok .vd .v .s && f.md.noRm && !f.md.sat && f.md.xOnly 0
  | .vredadd f => f.ok .sd .v .unused && (f.md.ty.isInt || f.md.ty.isFlt) && (f.md.ty.isFlt || f.md.noRm) && !f.md.sat && !f.md.s && f.md.xOnly 0
  | .vredmax f => f.ok .sd .v .unused && (f.md.ty.isInt || f.md.ty.isFlt) && f.md.noRm && !f.md.sat && !f.md.s && f.md.xOnly 1 && (f.md.ty.isInt || f.md.xOnly 0)
  | .vredmin f => f.ok .sd .v .unused && (f.md.ty.isInt || f.md.ty.isFlt) && f.md.noRm && !f.md.sat && !f.md.s && f.md.xOnly 1 && (f.md.ty.isInt || f.md.xOnly 0)
  | .vscanadd f => f.ok .vd .v .unused && (f.md.ty.isInt || f.md.ty.isFlt) && (f.md.ty.isFlt || f.md.noRm) && !f.md.sat && f.md.xOnly 1
  | .vpack f => f.ok .vd .v .v && decide (f.md.ty = .i16 ∨ f.md.ty = .i32 ∨ f.md.ty = .i64) && f.md.noRm && f.md.xOnly 0
  | .vunpk f => f.ok .vd .v .unused && decide (f.md.ty = .i8 ∨ f.md.ty = .i16 ∨ f.md.ty = .i32) && f.md.noRm && !f.md.sat && f.md.xOnly 3
  | .vcmpr f => f.ok .vd .v .unused && f.md.noRm && !f.md.sat && !f.md.m && f.md.xOnly 0
  | .vexpd f => f.ok .vd .v .unused && f.md.noRm && !f.md.sat && !f.md.m && f.md.xOnly 0
  | .vlanem f => f.ok .sd .v .unused && f.md.noRm && !f.md.sat && !f.md.m && !f.md.s && f.md.xOnly 0
  | .tcfg f => f.ok .t .s .unused
  | .thdr f => f.ok .sd .t .s
  | .tzero f => f.ok .t .unused .unused
  | .tld f => f.ok .t .x .unused
  | .tst f => f.ok .unused .t .x
  | .trowg f => f.ok .vd .t .s
  | .trowp f => f.ok .t .v .s
  | .tcolg f => f.ok .vd .t .s
  | .tcolp f => f.ok .t .v .s
  | .tmma f => f.ok .t .t .t
  | .tadd f => f.ok .t .t .t
  | .tscl f => f.ok .t .t .s
  | .ttrn f => f.ok .t .t .unused
  | .tchk f => f.ok .sd .xt .s
  | .mjob f => f.ok .sd .x .unused
  | .mwait f => f.ok .unused .s .unused
  | .mpoll f => f.ok .sd .s .unused
  | .mcancel f => f.ok .unused .s .unused
  | .jedge f => f.ok .sd .x .unused
  | .jwait f => f.ok .unused .s .unused
  | .scan f => f.ok .sd .s
  | .scanw f => f.ok .vReg .vReg
  | .carrys f => f.ok .unused .s .s
  | .carryr f => f.ok .sd .s .unused
  | .copy f => f.ok .sd .x .s
  | .copy2d f => f.ok .sd .x .s
  | .cwait f => f.ok .unused .s .unused
  | .cpoll f => f.ok .sd .s .unused
  | .spec f => f.ok .x .x .x
  | .hrel f => f.ok .unused .x .unused
  | .hhold f => f.ok .unused .x .unused
  | .hcall f => f.ok .x .x .unused
  | .hinfo f => f.ok .sd .x .unused
  | .tfill f => f.ok .sd .x .s
  | .unassignedOpcode w => !assignedOpc (opcOf w)
  | .create ctx => ctxOk ctx
  | .commit ctx => ctxOk ctx
  | .resume ctx => ctxOk ctx
  | .destroy ctx => ctxOk ctx
  | .setmode ctx => ctxOk ctx
  | .setfault ctx => ctxOk ctx
  | .answer ctx => ctxOk ctx
  | .codecopy ctx => ctxOk ctx
  | .preempt ctx => ctxOk ctx
  | .promote ctx => ctxOk ctx
  | .contextScrub ctx => ctxOk ctx
  | .queueEnable q => queueOk q
  | .queueDisable q => queueOk q
  | .qcmdSkip q => queueOk q
  | .qcmdReset q => queueOk q
  | .doorbellWrite q _ => queueOk q
  | .launch q => queueOk q
  | .timedLaunch q => queueOk q
  | .load q => queueOk q
  | .unload q => queueOk q
  | .signal q => queueOk q
  | .waitPacket q => queueOk q
  | .copyPacket q => queueOk q
  | .queueWake q => queueOk q
  | .waitTimeout q => queueOk q
  | .timedLaunchStart _ => true
  | .kernelCodeFree ctx _ => ctxOk ctx
  | .bind die slot _ _ _ _ => anyDieOk die && decide (slot < 1024)
  | .unbind die slot => anyDieOk die && decide (slot < 1024)
  | .retire die slot => anyDieOk die && decide (slot < 1024)
  | .castWrite c => coreOk c
  | .quantumExpiry _ => true
  | .launchQuiescence _ => true
  | .messageArrival _ => true
  | .streamMessageArrival _ => true
  | .joinDecrementArrival _ => true
  | .remoteOperationArrival _ => true
  | .mcstArrival _ => true
  | .carryArrival _ => true
  | .wakeArrival _ => true
  | .lateReplyRedirect c => coreOk c
  | .laybyReturn c => coreOk c
  | .schedulerPick c => coreOk c
  | .preemptionAbort c => coreOk c
  | .waymarkExpiry c => coreOk c
  | .migrateDepart c => coreOk c
  | .boundaryRelease c => coreOk c
  | .worldStopped ctx => ctxOk ctx
  | .eventSetAtHome _ => true
  | .eventClearAtHome _ => true
  | .eventWake c => coreOk c
  | .jobWaitEnd c => coreOk c
  | .copyWaitEnd c => coreOk c
  | .carryTake c => coreOk c
  | .timedRelease c => coreOk c
  | .scanComplete c => coreOk c
  | .remoteReply c => coreOk c
  | .portWaitEnd c => coreOk c
  | .handleWaitEnd c => coreOk c
  | .faultActorFire ctx c => ctxOk ctx && coreOk c
  | .tlbMissService c => coreOk c
  | .pageService c => coreOk c
  | .promotion ctx _ => ctxOk ctx
  | .promotionAbandon ctx _ => ctxOk ctx
  | .pageMigration ctx _ stack => ctxOk ctx && decide (stack < 16)
  | .meJobStart u => clusterOk u
  | .meJobEnd u => clusterOk u
  | .jedgeStart u => clusterOk u
  | .edgeTileBoundary u => clusterOk u
  | .jedgeEnd u => clusterOk u
  | .copyCommandStart e => engineOk e
  | .copyCommandEnd e => engineOk e
  | .ringRcountPoll ctx _ => ctxOk ctx
  | .linkEnable n => linkOk n
  | .linkTrainingDone n _ _ _ => linkOk n
  | .laneFailure n lane => linkOk n && decide (lane < 8)
  | .linkRetrain n => linkOk n
  | .linkAckTimeout n => linkOk n
  | .linkDisable n => linkOk n
  | .flitReceive n _ => linkOk n
  | .flitReplay n _ => linkOk n
  | .routeChange pkg _ => pkgOk pkg
  | .peerLoss pkg => pkgOk pkg
  | .dieLoss die => dieOk die
  | .timeFlitExchange n _ _ _ _ => linkOk n
  | .rootselWrite _ => true
  | .featoffWrite _ => true
  | .gaugeSourceSet ctx u src => ctxOk ctx && decide (u < 16) && decide (src.toNat ≤ 8)
  | .gaugeClear ctx u => ctxOk ctx && decide (u < 16)
  | .registerWrite _ _ => true
  | .correctableError die _ _ => dieOk die
  | .uncorrectableError die site => dieOk die && site.ok
  | .powerOn => true
  | .bootInitDone _ => true
  | .provErase => true
  | .provWrite => true
  | .provVerify => true
  | .provReset => true
  | .getVersion _ => true
  | .getCapabilities _ => true
  | .negotiateAlgorithms _ => true
  | .getDigests _ => true
  | .getCertificate _ => true
  | .challenge _ => true
  | .getMeasurements _ => true
  | .thermalThrottle _ => true
  | .thermalRecover _ => true
  | .thermalShutdown => true
  | .cxlMemWrite _ _ => true

end Sys2Proof
end

