-- ==== Sys2Proof/Decode.lean ====
section
/-! DEFINITION. From an instruction word to an `Instr`, and back (15 R242-R259). Decoding is total: a word of an assigned
opcode that 15 R255 makes ILLEGAL is refused by name, a prefix word that R259 makes PREFIX likewise, and a word of an
unassigned opcode decodes to UNASSIGNED_OPCODE. -/

namespace Sys2Proof

/-- Why a word of an assigned opcode is no instruction: 15 R255, and for the prefixes R259. -/
inductive Reject where
  | illegal
  | prefixBad
  deriving DecidableEq, Repr

/-- The 12-bit specifier of an operand: CLS × 512 + IDX (15 R246, 03 R55). -/
def Opnd.code : Opnd → Nat
  | .x i => i.val
  | .y i => 0x200 + i.val
  | .l i => 0x400 + i.val
  | .v i => 0x600 + i.val
  | .port i => 0x800 + i.val
  | .ring h c => 0xA00 + 32 * h.val + c.val
  | .imm i => 0xC00 + i.toNat
  | .k i => 0xE00 + i.val
  | .lane => 0xE10
  | .core => 0xE11
  | .gcoord => 0xE12
  | .gtb => 0xE13
  | .sink => 0xE20

/-- The operand of a 12-bit specifier, where 03 R55 gives it one. -/
def Opnd.ofCode (n : Nat) : Option Opnd :=
  let i := n % 512
  match n / 512 with
  | 0 => if h : i < 128 then some (.x ⟨i, h⟩) else none
  | 1 => if h : i < 16 then some (.y ⟨i, h⟩) else none
  | 2 => if h : i < 4 then some (.l ⟨i, h⟩) else none
  | 3 => if h : i < 32 then some (.v ⟨i, h⟩) else none
  | 4 => if h : i < 8 then some (.port ⟨i, h⟩) else none
  | 5 => some (.ring (Fin.ofNat 16 (i / 32)) (Fin.ofNat 32 i))
  | 6 => some (.imm (BitVec.ofNat 9 i))
  | 7 =>
    if h : i < 16 then some (.k ⟨i, h⟩)
    else if i = 16 then some .lane
    else if i = 17 then some .core
    else if i = 18 then some .gcoord
    else if i = 19 then some .gtb
    else if i = 32 then some .sink
    else none
  | _ => none

/-- TYPE codes of 15 R250. -/
def VTy.code : VTy → Nat
  | .i8 => 0 | .i16 => 1 | .i32 => 2 | .i64 => 3 | .e4m3 => 4 | .e5m2 => 5 | .f16 => 6 | .bf16 => 7 | .f32 => 8 | .f64 => 9
/-- The TYPE of a code; 10-15 are reserved. -/
def VTy.ofCode : Nat → Option VTy
  | 0 => some .i8 | 1 => some .i16 | 2 => some .i32 | 3 => some .i64 | 4 => some .e4m3 | 5 => some .e5m2
  | 6 => some .f16 | 7 => some .bf16 | 8 => some .f32 | 9 => some .f64 | _ => none
/-- RM codes of 15 R250. -/
def RM.code : RM → Nat
  | .rne => 0 | .rtz => 1 | .rup => 2 | .rdn => 3
/-- The RM of a code. -/
def RM.ofCode : Nat → Option RM
  | 0 => some .rne | 1 => some .rtz | 2 => some .rup | 3 => some .rdn | _ => none
/-- WIDTH codes of 15 R251. -/
def Width.code : Width → Nat
  | .b => 0 | .h => 1 | .w => 2 | .d => 3 | .q => 4
/-- The WIDTH of a code; 5-7 are reserved. -/
def Width.ofCode : Nat → Option Width
  | 0 => some .b | 1 => some .h | 2 => some .w | 3 => some .d | 4 => some .q | _ => none
/-- LW codes of 15 R251. -/
def LaneW.code : LaneW → Nat
  | .i32 => 0 | .i64 => 1 | .i16 => 2 | .i8 => 3
/-- The LW of a code. -/
def LaneW.ofCode : Nat → Option LaneW
  | 0 => some .i32 | 1 => some .i64 | 2 => some .i16 | 3 => some .i8 | _ => none
/-- OP codes of SCAN (15 R253). -/
def ScanOp.code : ScanOp → Nat
  | .sum => 0 | .max => 1 | .min => 2
/-- The OP of a code; 3 is reserved. -/
def ScanOp.ofCode : Nat → Option ScanOp
  | 0 => some .sum | 1 => some .max | 2 => some .min | _ => none
/-- SCOPE codes of JINIT (10 R174). -/
def JScope.code : JScope → Nat
  | .die => 0 | .pkg => 1 | .sys => 2
/-- The SCOPE of a code; 3 is illegal. -/
def JScope.ofCode : Nat → Option JScope
  | 0 => some .die | 1 => some .pkg | 2 => some .sys | _ => none
/-- SCOPE codes of ORD (15 R257). -/
def OScope.code : OScope → Nat
  | .clu => 0 | .die => 1 | .pkg => 2
/-- The SCOPE of a code; 3 is reserved. -/
def OScope.ofCode : Nat → Option OScope
  | 0 => some .clu | 1 => some .die | 2 => some .pkg | _ => none
/-- STR codes of ORD (15 R257). -/
def Strength.code : Strength → Nat
  | .acq => 1 | .rel => 2 | .ar => 3
/-- The STR of a code; 0 is reserved. -/
def Strength.ofCode : Nat → Option Strength
  | 1 => some .acq | 2 => some .rel | 3 => some .ar | _ => none

/-- A word from its head (SP 63, BM 62:60, OPC 59:50) and its bits 49:0 (15 R242). -/
def mkWord (sp : Bool) (bm : BitVec 3) (opc body : Nat) : Word :=
  BitVec.ofNat 64 (sp.toNat * 2 ^ 63 + bm.toNat * 2 ^ 60 + opc * 2 ^ 50 + body)
/-- SP of a word. -/
def spOf (w : Word) : Bool := decide (fld w 63 63 = 1)
/-- BM of a word. -/
def bmOf (w : Word) : BitVec 3 := BitVec.ofNat 3 (fld w 62 60)
/-- One MOD flag. -/
def flagOf (w : Word) (i : Nat) : Bool := decide (fld w i i = 1)

/-- Bits 49:0 of an F-R word (15 R245). -/
def bodyR (md d a b : Nat) : Nat := md * 2 ^ 36 + d * 2 ^ 24 + a * 2 ^ 12 + b
/-- Bits 49:0 of an F-I, F-M or F-C word: the three fields and the 20-bit immediate (15 R245). -/
def bodyI (md d a imm : Nat) : Nat := md * 2 ^ 44 + d * 2 ^ 32 + a * 2 ^ 20 + imm
/-- D of an F-R word. -/
def dR (w : Word) : Option Opnd := Opnd.ofCode (fld w 35 24)
/-- A of an F-R word. -/
def aR (w : Word) : Option Opnd := Opnd.ofCode (fld w 23 12)
/-- B of an F-R word. -/
def bR (w : Word) : Option Opnd := Opnd.ofCode (fld w 11 0)
/-- C of an F-R word (15 R246). -/
def cR (w : Word) : Option Opnd := Opnd.ofCode (fld w 47 36)
/-- D of an F-I or F-M word, A of an F-C word. -/
def dI (w : Word) : Option Opnd := Opnd.ofCode (fld w 43 32)
/-- A of an F-I or F-M word, B of an F-C word. -/
def aI (w : Word) : Option Opnd := Opnd.ofCode (fld w 31 20)
/-- IMM20, OFF20, DISP20. -/
def immI (w : Word) : BitVec 20 := BitVec.ofNat 20 (fld w 19 0)

/-- Encode an F-R word. -/
def FR.enc (opc : Nat) (f : FR) : Word := mkWord f.sp f.bm opc (bodyR 0 f.d.code f.a.code f.b.code)
/-- Parse an F-R word: MOD is zero (15 R253). -/
def FR.dec (w : Word) : Option FR := do
  guard (fld w 49 36 = 0)
  return { sp := spOf w, bm := bmOf w, d := ← dR w, a := ← aR w, b := ← bR w }
/-- Encode an F-R word with C. -/
def FRC.enc (opc : Nat) (f : FRC) : Word := mkWord f.sp f.bm opc (bodyR f.c.code f.d.code f.a.code f.b.code)
/-- Parse an F-R word with C: MOD 49:48 is zero. -/
def FRC.dec (w : Word) : Option FRC := do
  guard (fld w 49 48 = 0)
  return { sp := spOf w, bm := bmOf w, d := ← dR w, a := ← aR w, b := ← bR w, c := ← cR w }
/-- Encode SEND. -/
def FRS.enc (opc : Nat) (f : FRS) : Word :=
  mkWord f.sp f.bm opc (bodyR (f.stream.toNat * 2 ^ 13) f.d.code f.a.code f.b.code)
/-- Parse SEND: MOD 48:36 is zero. -/
def FRS.dec (w : Word) : Option FRS := do
  guard (fld w 48 36 = 0)
  return { sp := spOf w, bm := bmOf w, stream := flagOf w 49, d := ← dR w, a := ← aR w, b := ← bR w }
/-- Encode TLD. -/
def FRT.enc (opc : Nat) (f : FRT) : Word :=
  mkWord f.sp f.bm opc (bodyR (f.strict.toNat * 2 ^ 13) f.d.code f.a.code f.b.code)
/-- Parse TLD: MOD 48:36 is zero. -/
def FRT.dec (w : Word) : Option FRT := do
  guard (fld w 48 36 = 0)
  return { sp := spOf w, bm := bmOf w, strict := flagOf w 49, d := ← dR w, a := ← aR w, b := ← bR w }
/-- Encode a strided or indexed access: LW 49:48, SPACE 45:44 (15 R251). -/
def FRL.enc (opc : Nat) (f : FRL) : Word :=
  mkWord f.sp f.bm opc (bodyR (f.lw.code * 2 ^ 12 + f.nt.toNat * 2 ^ 8) f.d.code f.a.code f.b.code)
/-- Parse a strided or indexed access: SPACE is 0 or 1, the other MOD bits zero. -/
def FRL.dec (w : Word) : Option FRL := do
  guard (fld w 47 45 = 0 ∧ fld w 43 36 = 0)
  return { sp := spOf w, bm := bmOf w, lw := ← LaneW.ofCode (fld w 49 48), nt := flagOf w 44,
           d := ← dR w, a := ← aR w, b := ← bR w }
/-- Encode group 0x8: P 49, WIDTH 48, C 47:36 (15 R252). -/
def FA.enc (opc : Nat) (f : FA) : Word :=
  mkWord f.sp f.bm opc (bodyR (f.post.toNat * 2 ^ 13 + f.dbl.toNat * 2 ^ 12 + f.c.code) f.d.code f.a.code f.b.code)
/-- Parse group 0x8. -/
def FA.dec (w : Word) : Option FA := do
  return { sp := spOf w, bm := bmOf w, post := flagOf w 49, dbl := flagOf w 48, c := ← cR w,
           d := ← dR w, a := ← aR w, b := ← bR w }
/-- MOD 49:36 of groups 0x9-0xB (15 R250). -/
def VMod.code (m : VMod) : Nat :=
  m.ty.code * 2 ^ 10 + m.rm.code * 2 ^ 8 + m.sat.toNat * 2 ^ 7 + m.m.toNat * 2 ^ 6 + m.s.toNat * 2 ^ 5 + m.xmod.toNat
/-- Encode a vector word. -/
def FV.enc (opc : Nat) (f : FV) : Word := mkWord f.sp f.bm opc (bodyR f.md.code f.d.code f.a.code f.b.code)
/-- Parse a vector word: TYPE 10-15 are reserved. -/
def FV.dec (w : Word) : Option FV := do
  let md : VMod := { ty := ← VTy.ofCode (fld w 49 46), rm := ← RM.ofCode (fld w 45 44), sat := flagOf w 43,
                     m := flagOf w 42, s := flagOf w 41, xmod := BitVec.ofNat 5 (fld w 40 36) }
  return { sp := spOf w, bm := bmOf w, md, d := ← dR w, a := ← aR w, b := ← bR w }
/-- Encode SCAN or SCANW (15 R253). -/
def FSC.enc (opc : Nat) (f : FSC) : Word :=
  mkWord f.sp f.bm opc (bodyR (f.ty.code * 2 ^ 10 + f.ex.toNat * 2 ^ 7 + f.ci.toNat * 2 ^ 6 + f.sg.toNat * 2 ^ 5 +
    f.op.code * 2 ^ 3) f.d.code f.a.code f.b.code)
/-- Parse SCAN or SCANW: bits 45:44 and 38:36 are zero, OP 3 is reserved. -/
def FSC.dec (w : Word) : Option FSC := do
  guard (fld w 45 44 = 0 ∧ fld w 38 36 = 0)
  return { sp := spOf w, bm := bmOf w, ty := ← VTy.ofCode (fld w 49 46), ex := flagOf w 43, ci := flagOf w 42,
           sg := flagOf w 41, op := ← ScanOp.ofCode (fld w 40 39), d := ← dR w, a := ← aR w, b := ← bR w }
/-- Encode an F-I word. -/
def FI.enc (opc : Nat) (f : FI) : Word := mkWord f.sp f.bm opc (bodyI 0 f.d.code f.a.code f.imm.toNat)
/-- Parse an F-I word: MOD is zero. -/
def FI.dec (w : Word) : Option FI := do
  guard (fld w 49 44 = 0)
  return { sp := spOf w, bm := bmOf w, d := ← dI w, a := ← aI w, imm := immI w }
/-- Encode LD, ST, LSLD or LSST: WIDTH 49:47, EXT 46, SPACE 45:44 (15 R251). -/
def FM.enc (opc : Nat) (f : FM) : Word :=
  mkWord f.sp f.bm opc (bodyI (f.width.code * 2 ^ 3 + f.ext.toNat * 2 ^ 2 + f.nt.toNat) f.d.code f.a.code f.off.toNat)
/-- Parse LD, ST, LSLD or LSST. -/
def FM.dec (w : Word) : Option FM := do
  guard (fld w 45 45 = 0)
  return { sp := spOf w, bm := bmOf w, width := ← Width.ofCode (fld w 49 47), ext := flagOf w 46, nt := flagOf w 44,
           d := ← dI w, a := ← aI w, off := immI w }
/-- Encode LDV, STV, PREF, LDC or STC: only SPACE in MOD (15 R251). -/
def FMV.enc (opc : Nat) (f : FMV) : Word := mkWord f.sp f.bm opc (bodyI f.nt.toNat f.d.code f.a.code f.off.toNat)
/-- Parse LDV, STV, PREF, LDC or STC. -/
def FMV.dec (w : Word) : Option FMV := do
  guard (fld w 49 45 = 0)
  return { sp := spOf w, bm := bmOf w, nt := flagOf w 44, d := ← dI w, a := ← aI w, off := immI w }
/-- Encode LSLDV or LSSTV: MOD is zero. -/
def FML.enc (opc : Nat) (f : FML) : Word := mkWord f.sp f.bm opc (bodyI 0 f.d.code f.a.code f.off.toNat)
/-- Parse LSLDV or LSSTV. -/
def FML.dec (w : Word) : Option FML := do
  guard (fld w 49 44 = 0)
  return { sp := spOf w, bm := bmOf w, d := ← dI w, a := ← aI w, off := immI w }
/-- Encode an F-C word: A in 43:32, B in 31:20, .T in bit 44. -/
def FC.enc (opc : Nat) (f : FC) : Word := mkWord f.sp f.bm opc (bodyI f.hint.toNat f.a.code f.b.code f.disp.toNat)
/-- Parse an F-C word: bits 49:45 are zero (15 R253). -/
def FC.dec (w : Word) : Option FC := do
  guard (fld w 49 45 = 0)
  return { sp := spOf w, bm := bmOf w, hint := flagOf w 44, a := ← dI w, b := ← aI w, disp := immI w }
/-- Encode JOIN: N 49:42, J 41:36 (10 R174). -/
def FJoin.enc (opc : Nat) (f : FJoin) : Word :=
  mkWord f.sp f.bm opc (bodyR (f.n.toNat * 2 ^ 6 + f.j.toNat) f.d.code f.a.code f.b.code)
/-- Parse JOIN. -/
def FJoin.dec (w : Word) : Option FJoin := do
  return { sp := spOf w, bm := bmOf w, n := BitVec.ofNat 8 (fld w 49 42), j := BitVec.ofNat 6 (fld w 41 36),
           d := ← dR w, a := ← aR w, b := ← bR w }
/-- Encode JINIT: SCOPE 43:42, J 41:36 (10 R174). -/
def FJinit.enc (opc : Nat) (f : FJinit) : Word :=
  mkWord f.sp f.bm opc (bodyR (f.scope.code * 2 ^ 6 + f.j.toNat) f.d.code f.a.code f.b.code)
/-- Parse JINIT: bits 49:44 are zero, SCOPE 3 is illegal. -/
def FJinit.dec (w : Word) : Option FJinit := do
  guard (fld w 49 44 = 0)
  return { sp := spOf w, bm := bmOf w, scope := ← JScope.ofCode (fld w 43 42), j := BitVec.ofNat 6 (fld w 41 36),
           d := ← dR w, a := ← aR w, b := ← bR w }

/-- XIMM: bits 49:32 zero, no SP, no BM (15 R256, R259). -/
def parseXimm (w : Word) : Except Reject Instr :=
  if fld w 63 60 = 0 ∧ fld w 49 32 = 0 then .ok (.ximm (BitVec.ofNat 32 (fld w 31 0))) else .error .prefixBad
/-- ORD: SCOPE 1:0, STR 3:2, the rest zero, no SP, no BM (15 R257, R259). -/
def parseOrd (w : Word) : Except Reject Instr :=
  if fld w 63 60 = 0 ∧ fld w 49 4 = 0 then
    match OScope.ofCode (fld w 1 0), Strength.ofCode (fld w 3 2) with
    | some sc, some st => .ok (.ord { scope := sc, str := st })
    | _, _ => .error .prefixBad
  else .error .prefixBad

/-- Group 0x0, system: the instruction of each assigned opcode (15 R254). -/
def parseGroup0 (w : Word) : Nat → Option Instr
  | 0x003 => Instr.nop <$> FR.dec w
  | 0x004 => Instr.trap <$> FI.dec w
  | 0x005 => Instr.trapd <$> FI.dec w
  | 0x006 => Instr.brk <$> FI.dec w
  | 0x007 => Instr.eret <$> FR.dec w
  | 0x008 => Instr.csrr <$> FI.dec w
  | 0x009 => Instr.csrw <$> FI.dec w
  | 0x00A => Instr.csrs <$> FI.dec w
  | 0x00B => Instr.csrc <$> FI.dec w
  | 0x00C => Instr.fenceCode <$> FR.dec w
  | 0x00D => Instr.ptsync <$> FR.dec w
  | 0x00E => Instr.stopw <$> FR.dec w
  | 0x00F => Instr.resumew <$> FR.dec w
  | 0x010 => Instr.waitt <$> FR.dec w
  | 0x011 => Instr.halt <$> FR.dec w
  | _ => none

/-- Group 0x1, integer register-register: the instruction of each assigned opcode (15 R254). -/
def parseGroup1 (w : Word) : Nat → Option Instr
  | 0x040 => Instr.add <$> FR.dec w
  | 0x041 => Instr.sub <$> FR.dec w
  | 0x042 => Instr.mul <$> FR.dec w
  | 0x043 => Instr.mulh <$> FR.dec w
  | 0x044 => Instr.mulhu <$> FR.dec w
  | 0x045 => Instr.div <$> FR.dec w
  | 0x046 => Instr.divu <$> FR.dec w
  | 0x047 => Instr.rem <$> FR.dec w
  | 0x048 => Instr.remu <$> FR.dec w
  | 0x049 => Instr.and <$> FR.dec w
  | 0x04A => Instr.or <$> FR.dec w
  | 0x04B => Instr.xor <$> FR.dec w
  | 0x04C => Instr.andn <$> FR.dec w
  | 0x04D => Instr.orn <$> FR.dec w
  | 0x04E => Instr.shl <$> FR.dec w
  | 0x04F => Instr.shr <$> FR.dec w
  | 0x050 => Instr.shra <$> FR.dec w
  | 0x051 => Instr.rol <$> FR.dec w
  | 0x052 => Instr.ror <$> FR.dec w
  | 0x053 => Instr.min <$> FR.dec w
  | 0x054 => Instr.max <$> FR.dec w
  | 0x055 => Instr.minu <$> FR.dec w
  | 0x056 => Instr.maxu <$> FR.dec w
  | 0x057 => Instr.cmpeq <$> FR.dec w
  | 0x058 => Instr.cmpne <$> FR.dec w
  | 0x059 => Instr.cmplt <$> FR.dec w
  | 0x05A => Instr.cmpltu <$> FR.dec w
  | 0x05B => Instr.sel <$> FRC.dec w
  | 0x05C => Instr.clz <$> FR.dec w
  | 0x05D => Instr.ctz <$> FR.dec w
  | 0x05E => Instr.popc <$> FR.dec w
  | 0x05F => Instr.brev <$> FR.dec w
  | 0x060 => Instr.bswap <$> FR.dec w
  | 0x061 => Instr.ext <$> FR.dec w
  | 0x062 => Instr.ins <$> FR.dec w
  | 0x063 => Instr.mov <$> FR.dec w
  | _ => none

/-- Group 0x2, integer immediate: the instruction of each assigned opcode (15 R254). -/
def parseGroup2 (w : Word) : Nat → Option Instr
  | 0x080 => Instr.addi <$> FI.dec w
  | 0x081 => Instr.andi <$> FI.dec w
  | 0x082 => Instr.ori <$> FI.dec w
  | 0x083 => Instr.xori <$> FI.dec w
  | 0x084 => Instr.shli <$> FI.dec w
  | 0x085 => Instr.shri <$> FI.dec w
  | 0x086 => Instr.shrai <$> FI.dec w
  | 0x087 => Instr.cmplti <$> FI.dec w
  | 0x088 => Instr.movi <$> FI.dec w
  | 0x089 => Instr.movhi <$> FI.dec w
  | _ => none

/-- Group 0x3, capability: the instruction of each assigned opcode (15 R254). -/
def parseGroup3 (w : Word) : Nat → Option Instr
  | 0x0C0 => Instr.cgeta <$> FR.dec w
  | 0x0C1 => Instr.cseta <$> FR.dec w
  | 0x0C2 => Instr.cinc <$> FI.dec w
  | 0x0C3 => Instr.csetb <$> FR.dec w
  | 0x0C4 => Instr.cgetb <$> FR.dec w
  | 0x0C5 => Instr.cgetl <$> FR.dec w
  | 0x0C6 => Instr.candp <$> FR.dec w
  | 0x0C7 => Instr.cgetp <$> FR.dec w
  | 0x0C8 => Instr.ctag <$> FR.dec w
  | 0x0C9 => Instr.cclr <$> FR.dec w
  | 0x0CA => Instr.csub <$> FR.dec w
  | 0x0CB => Instr.clscap <$> FR.dec w
  | 0x0CC => Instr.cseal <$> FR.dec w
  | 0x0CD => Instr.cunseal <$> FR.dec w
  | _ => none

/-- Group 0x4, branch and jump: the instruction of each assigned opcode (15 R254). -/
def parseGroup4 (w : Word) : Nat → Option Instr
  | 0x100 => Instr.beq <$> FC.dec w
  | 0x101 => Instr.bne <$> FC.dec w
  | 0x102 => Instr.blt <$> FC.dec w
  | 0x103 => Instr.bge <$> FC.dec w
  | 0x104 => Instr.bltu <$> FC.dec w
  | 0x105 => Instr.bgeu <$> FC.dec w
  | 0x106 => Instr.bk <$> FC.dec w
  | 0x107 => Instr.bnk <$> FC.dec w
  | 0x108 => Instr.jmp <$> FC.dec w
  | 0x109 => Instr.jal <$> FC.dec w
  | 0x10A => Instr.jr <$> FR.dec w
  | 0x10B => Instr.loop <$> FC.dec w
  | _ => none

/-- Group 0x5, messages and firings: the instruction of each assigned opcode (15 R254). -/
def parseGroup5 (w : Word) : Nat → Option Instr
  | 0x140 => Instr.send <$> FRS.dec w
  | 0x141 => Instr.sendm <$> FRC.dec w
  | 0x142 => Instr.recv <$> FR.dec w
  | 0x143 => Instr.fire <$> FR.dec w
  | 0x144 => Instr.endFiring <$> FR.dec w
  | 0x145 => Instr.yieldFiring <$> FR.dec w
  | 0x146 => Instr.migrate <$> FR.dec w
  | 0x147 => Instr.evset <$> FR.dec w
  | 0x148 => Instr.evclr <$> FR.dec w
  | 0x149 => Instr.evwait <$> FR.dec w
  | 0x14A => Instr.evtest <$> FR.dec w
  | 0x14B => Instr.join <$> FJoin.dec w
  | 0x14C => Instr.jinit <$> FJinit.dec w
  | 0x14D => Instr.htset <$> FR.dec w
  | 0x14E => Instr.htget <$> FR.dec w
  | 0x14F => Instr.hostq <$> FR.dec w
  | _ => none

/-- Group 0x6, global memory: the instruction of each assigned opcode (15 R254). -/
def parseGroup6 (w : Word) : Nat → Option Instr
  | 0x180 => Instr.ld <$> FM.dec w
  | 0x181 => Instr.st <$> FM.dec w
  | 0x182 => Instr.ldv <$> FMV.dec w
  | 0x183 => Instr.stv <$> FMV.dec w
  | 0x184 => Instr.ldvs <$> FRL.dec w
  | 0x185 => Instr.stvs <$> FRL.dec w
  | 0x186 => Instr.ldvx <$> FRL.dec w
  | 0x187 => Instr.stvx <$> FRL.dec w
  | 0x188 => Instr.pref <$> FMV.dec w
  | 0x189 => Instr.ldc <$> FMV.dec w
  | 0x18A => Instr.stc <$> FMV.dec w
  | _ => none

/-- Group 0x7, local store, rings and ports: the instruction of each assigned opcode (15 R254). -/
def parseGroup7 (w : Word) : Nat → Option Instr
  | 0x1C0 => Instr.lsld <$> FM.dec w
  | 0x1C1 => Instr.lsst <$> FM.dec w
  | 0x1C2 => Instr.lsldv <$> FML.dec w
  | 0x1C3 => Instr.lsstv <$> FML.dec w
  | 0x1C4 => Instr.mcst <$> FR.dec w
  | 0x1C5 => Instr.cbinit <$> FR.dec w
  | 0x1C6 => Instr.cbadvp <$> FR.dec w
  | 0x1C7 => Instr.cbadvc <$> FR.dec w
  | 0x1C8 => Instr.cbcnt <$> FR.dec w
  | 0x1C9 => Instr.qctl <$> FR.dec w
  | 0x1CA => Instr.qtest <$> FR.dec w
  | 0x1CB => Instr.qdrain <$> FR.dec w
  | _ => none

/-- Group 0x8, atomics and remote operations: the instruction of each assigned opcode (15 R254). -/
def parseGroup8 (w : Word) : Nat → Option Instr
  | 0x200 => Instr.aadd <$> FA.dec w
  | 0x201 => Instr.aand <$> FA.dec w
  | 0x202 => Instr.aor <$> FA.dec w
  | 0x203 => Instr.axor <$> FA.dec w
  | 0x204 => Instr.amin <$> FA.dec w
  | 0x205 => Instr.amax <$> FA.dec w
  | 0x206 => Instr.aminu <$> FA.dec w
  | 0x207 => Instr.amaxu <$> FA.dec w
  | 0x208 => Instr.aswp <$> FA.dec w
  | 0x209 => Instr.acas <$> FA.dec w
  | 0x20A => Instr.afadd <$> FA.dec w
  | 0x20B => Instr.afmin <$> FA.dec w
  | 0x20C => Instr.afmax <$> FA.dec w
  | 0x20D => Instr.rget <$> FA.dec w
  | 0x20E => Instr.rput <$> FA.dec w
  | 0x20F => Instr.radd <$> FA.dec w
  | 0x210 => Instr.rcas <$> FA.dec w
  | _ => none

/-- Group 0x9, integer lanes: the instruction of each assigned opcode (15 R254). -/
def parseGroup9 (w : Word) : Nat → Option Instr
  | 0x240 => Instr.vadd <$> FV.dec w
  | 0x241 => Instr.vsub <$> FV.dec w
  | 0x242 => Instr.vmul <$> FV.dec w
  | 0x243 => Instr.vmulh <$> FV.dec w
  | 0x244 => Instr.vand <$> FV.dec w
  | 0x245 => Instr.vor <$> FV.dec w
  | 0x246 => Instr.vxor <$> FV.dec w
  | 0x247 => Instr.vshl <$> FV.dec w
  | 0x248 => Instr.vshr <$> FV.dec w
  | 0x249 => Instr.vshra <$> FV.dec w
  | 0x24A => Instr.vmin <$> FV.dec w
  | 0x24B => Instr.vmax <$> FV.dec w
  | 0x24C => Instr.vcmpeq <$> FV.dec w
  | 0x24D => Instr.vcmplt <$> FV.dec w
  | 0x24E => Instr.vsel <$> FV.dec w
  | 0x24F => Instr.vabs <$> FV.dec w
  | 0x250 => Instr.vdot4 <$> FV.dec w
  | 0x251 => Instr.vsplat <$> FV.dec w
  | 0x252 => Instr.vmovx <$> FV.dec w
  | 0x253 => Instr.vins <$> FV.dec w
  | _ => none

/-- Group 0xA, floating-point lanes: the instruction of each assigned opcode (15 R254). -/
def parseGroupA (w : Word) : Nat → Option Instr
  | 0x280 => Instr.vfadd <$> FV.dec w
  | 0x281 => Instr.vfsub <$> FV.dec w
  | 0x282 => Instr.vfmul <$> FV.dec w
  | 0x283 => Instr.vfma <$> FV.dec w
  | 0x284 => Instr.vfnma <$> FV.dec w
  | 0x285 => Instr.vfdiv <$> FV.dec w
  | 0x286 => Instr.vfsqrt <$> FV.dec w
  | 0x287 => Instr.vfrsq <$> FV.dec w
  | 0x288 => Instr.vfrcp <$> FV.dec w
  | 0x289 => Instr.vfmin <$> FV.dec w
  | 0x28A => Instr.vfmax <$> FV.dec w
  | 0x28B => Instr.vfabs <$> FV.dec w
  | 0x28C => Instr.vfneg <$> FV.dec w
  | 0x28D => Instr.vfcmp <$> FV.dec w
  | 0x28E => Instr.vfclass <$> FV.dec w
  | _ => none

/-- Group 0xB, conversion and permutation: the instruction of each assigned opcode (15 R254). -/
def parseGroupB (w : Word) : Nat → Option Instr
  | 0x2C0 => Instr.vcvt <$> FV.dec w
  | 0x2C1 => Instr.vperm <$> FV.dec w
  | 0x2C2 => Instr.vrot <$> FV.dec w
  | 0x2C3 => Instr.vbcast <$> FV.dec w
  | 0x2C4 => Instr.vredadd <$> FV.dec w
  | 0x2C5 => Instr.vredmax <$> FV.dec w
  | 0x2C6 => Instr.vredmin <$> FV.dec w
  | 0x2C7 => Instr.vscanadd <$> FV.dec w
  | 0x2C8 => Instr.vpack <$> FV.dec w
  | 0x2C9 => Instr.vunpk <$> FV.dec w
  | 0x2CA => Instr.vcmpr <$> FV.dec w
  | 0x2CB => Instr.vexpd <$> FV.dec w
  | 0x2CC => Instr.vlanem <$> FV.dec w
  | _ => none

/-- Group 0xC, tile registers: the instruction of each assigned opcode (15 R254). -/
def parseGroupC (w : Word) : Nat → Option Instr
  | 0x300 => Instr.tcfg <$> FR.dec w
  | 0x301 => Instr.thdr <$> FR.dec w
  | 0x302 => Instr.tzero <$> FR.dec w
  | 0x303 => Instr.tld <$> FRT.dec w
  | 0x304 => Instr.tst <$> FR.dec w
  | 0x305 => Instr.trowg <$> FR.dec w
  | 0x306 => Instr.trowp <$> FR.dec w
  | 0x307 => Instr.tcolg <$> FR.dec w
  | 0x308 => Instr.tcolp <$> FR.dec w
  | 0x309 => Instr.tmma <$> FR.dec w
  | 0x30A => Instr.tadd <$> FR.dec w
  | 0x30B => Instr.tscl <$> FR.dec w
  | 0x30C => Instr.ttrn <$> FR.dec w
  | 0x30D => Instr.tchk <$> FR.dec w
  | _ => none

/-- Group 0xD, engines, scans and carries: the instruction of each assigned opcode (15 R254). -/
def parseGroupD (w : Word) : Nat → Option Instr
  | 0x340 => Instr.mjob <$> FR.dec w
  | 0x341 => Instr.mwait <$> FR.dec w
  | 0x342 => Instr.mpoll <$> FR.dec w
  | 0x343 => Instr.mcancel <$> FR.dec w
  | 0x344 => Instr.jedge <$> FR.dec w
  | 0x345 => Instr.jwait <$> FR.dec w
  | 0x346 => Instr.scan <$> FSC.dec w
  | 0x347 => Instr.scanw <$> FSC.dec w
  | 0x348 => Instr.carrys <$> FR.dec w
  | 0x349 => Instr.carryr <$> FR.dec w
  | _ => none

/-- Group 0xE, copy, specialise, handles: the instruction of each assigned opcode (15 R254). -/
def parseGroupE (w : Word) : Nat → Option Instr
  | 0x380 => Instr.copy <$> FR.dec w
  | 0x381 => Instr.copy2d <$> FR.dec w
  | 0x382 => Instr.cwait <$> FR.dec w
  | 0x383 => Instr.cpoll <$> FR.dec w
  | 0x384 => Instr.spec <$> FR.dec w
  | 0x385 => Instr.hrel <$> FR.dec w
  | 0x386 => Instr.hhold <$> FR.dec w
  | 0x387 => Instr.hcall <$> FR.dec w
  | 0x388 => Instr.hinfo <$> FR.dec w
  | 0x389 => Instr.tfill <$> FR.dec w
  | _ => none

/-- The instruction a word's fields name, by its group, OPC 9:6 (15 R242). -/
def parse (w : Word) : Option Instr :=
  let opc := opcOf w
  match opc / 64 with
  | 0 => parseGroup0 w opc
  | 1 => parseGroup1 w opc
  | 2 => parseGroup2 w opc
  | 3 => parseGroup3 w opc
  | 4 => parseGroup4 w opc
  | 5 => parseGroup5 w opc
  | 6 => parseGroup6 w opc
  | 7 => parseGroup7 w opc
  | 8 => parseGroup8 w opc
  | 9 => parseGroup9 w opc
  | 10 => parseGroupA w opc
  | 11 => parseGroupB w opc
  | 12 => parseGroupC w opc
  | 13 => parseGroupD w opc
  | 14 => parseGroupE w opc
  | _ => none

/-- Decode one word, for any 64 bits. -/
def decode (w : Word) : Except Reject Instr :=
  if opcOf w = 0x001 then parseXimm w
  else if opcOf w = 0x002 then parseOrd w
  else if assignedOpc (opcOf w) then
    match parse w with
    | some i => if i.wf then .ok i else .error .illegal
    | none => .error .illegal
  else .ok (.unassignedOpcode w)

/-- The opcode of an instruction word (15 R254); an unassigned word's own; none for an event. -/
def Instr.opc : Instr → Option Nat
  | .ximm _ => some 0x001
  | .ord _ => some 0x002
  | .nop _ => some 0x003
  | .trap _ => some 0x004
  | .trapd _ => some 0x005
  | .brk _ => some 0x006
  | .eret _ => some 0x007
  | .csrr _ => some 0x008
  | .csrw _ => some 0x009
  | .csrs _ => some 0x00A
  | .csrc _ => some 0x00B
  | .fenceCode _ => some 0x00C
  | .ptsync _ => some 0x00D
  | .stopw _ => some 0x00E
  | .resumew _ => some 0x00F
  | .waitt _ => some 0x010
  | .halt _ => some 0x011
  | .add _ => some 0x040
  | .sub _ => some 0x041
  | .mul _ => some 0x042
  | .mulh _ => some 0x043
  | .mulhu _ => some 0x044
  | .div _ => some 0x045
  | .divu _ => some 0x046
  | .rem _ => some 0x047
  | .remu _ => some 0x048
  | .and _ => some 0x049
  | .or _ => some 0x04A
  | .xor _ => some 0x04B
  | .andn _ => some 0x04C
  | .orn _ => some 0x04D
  | .shl _ => some 0x04E
  | .shr _ => some 0x04F
  | .shra _ => some 0x050
  | .rol _ => some 0x051
  | .ror _ => some 0x052
  | .min _ => some 0x053
  | .max _ => some 0x054
  | .minu _ => some 0x055
  | .maxu _ => some 0x056
  | .cmpeq _ => some 0x057
  | .cmpne _ => some 0x058
  | .cmplt _ => some 0x059
  | .cmpltu _ => some 0x05A
  | .sel _ => some 0x05B
  | .clz _ => some 0x05C
  | .ctz _ => some 0x05D
  | .popc _ => some 0x05E
  | .brev _ => some 0x05F
  | .bswap _ => some 0x060
  | .ext _ => some 0x061
  | .ins _ => some 0x062
  | .mov _ => some 0x063
  | .addi _ => some 0x080
  | .andi _ => some 0x081
  | .ori _ => some 0x082
  | .xori _ => some 0x083
  | .shli _ => some 0x084
  | .shri _ => some 0x085
  | .shrai _ => some 0x086
  | .cmplti _ => some 0x087
  | .movi _ => some 0x088
  | .movhi _ => some 0x089
  | .cgeta _ => some 0x0C0
  | .cseta _ => some 0x0C1
  | .cinc _ => some 0x0C2
  | .csetb _ => some 0x0C3
  | .cgetb _ => some 0x0C4
  | .cgetl _ => some 0x0C5
  | .candp _ => some 0x0C6
  | .cgetp _ => some 0x0C7
  | .ctag _ => some 0x0C8
  | .cclr _ => some 0x0C9
  | .csub _ => some 0x0CA
  | .clscap _ => some 0x0CB
  | .cseal _ => some 0x0CC
  | .cunseal _ => some 0x0CD
  | .beq _ => some 0x100
  | .bne _ => some 0x101
  | .blt _ => some 0x102
  | .bge _ => some 0x103
  | .bltu _ => some 0x104
  | .bgeu _ => some 0x105
  | .bk _ => some 0x106
  | .bnk _ => some 0x107
  | .jmp _ => some 0x108
  | .jal _ => some 0x109
  | .jr _ => some 0x10A
  | .loop _ => some 0x10B
  | .send _ => some 0x140
  | .sendm _ => some 0x141
  | .recv _ => some 0x142
  | .fire _ => some 0x143
  | .endFiring _ => some 0x144
  | .yieldFiring _ => some 0x145
  | .migrate _ => some 0x146
  | .evset _ => some 0x147
  | .evclr _ => some 0x148
  | .evwait _ => some 0x149
  | .evtest _ => some 0x14A
  | .join _ => some 0x14B
  | .jinit _ => some 0x14C
  | .htset _ => some 0x14D
  | .htget _ => some 0x14E
  | .hostq _ => some 0x14F
  | .ld _ => some 0x180
  | .st _ => some 0x181
  | .ldv _ => some 0x182
  | .stv _ => some 0x183
  | .ldvs _ => some 0x184
  | .stvs _ => some 0x185
  | .ldvx _ => some 0x186
  | .stvx _ => some 0x187
  | .pref _ => some 0x188
  | .ldc _ => some 0x189
  | .stc _ => some 0x18A
  | .lsld _ => some 0x1C0
  | .lsst _ => some 0x1C1
  | .lsldv _ => some 0x1C2
  | .lsstv _ => some 0x1C3
  | .mcst _ => some 0x1C4
  | .cbinit _ => some 0x1C5
  | .cbadvp _ => some 0x1C6
  | .cbadvc _ => some 0x1C7
  | .cbcnt _ => some 0x1C8
  | .qctl _ => some 0x1C9
  | .qtest _ => some 0x1CA
  | .qdrain _ => some 0x1CB
  | .aadd _ => some 0x200
  | .aand _ => some 0x201
  | .aor _ => some 0x202
  | .axor _ => some 0x203
  | .amin _ => some 0x204
  | .amax _ => some 0x205
  | .aminu _ => some 0x206
  | .amaxu _ => some 0x207
  | .aswp _ => some 0x208
  | .acas _ => some 0x209
  | .afadd _ => some 0x20A
  | .afmin _ => some 0x20B
  | .afmax _ => some 0x20C
  | .rget _ => some 0x20D
  | .rput _ => some 0x20E
  | .radd _ => some 0x20F
  | .rcas _ => some 0x210
  | .vadd _ => some 0x240
  | .vsub _ => some 0x241
  | .vmul _ => some 0x242
  | .vmulh _ => some 0x243
  | .vand _ => some 0x244
  | .vor _ => some 0x245
  | .vxor _ => some 0x246
  | .vshl _ => some 0x247
  | .vshr _ => some 0x248
  | .vshra _ => some 0x249
  | .vmin _ => some 0x24A
  | .vmax _ => some 0x24B
  | .vcmpeq _ => some 0x24C
  | .vcmplt _ => some 0x24D
  | .vsel _ => some 0x24E
  | .vabs _ => some 0x24F
  | .vdot4 _ => some 0x250
  | .vsplat _ => some 0x251
  | .vmovx _ => some 0x252
  | .vins _ => some 0x253
  | .vfadd _ => some 0x280
  | .vfsub _ => some 0x281
  | .vfmul _ => some 0x282
  | .vfma _ => some 0x283
  | .vfnma _ => some 0x284
  | .vfdiv _ => some 0x285
  | .vfsqrt _ => some 0x286
  | .vfrsq _ => some 0x287
  | .vfrcp _ => some 0x288
  | .vfmin _ => some 0x289
  | .vfmax _ => some 0x28A
  | .vfabs _ => some 0x28B
  | .vfneg _ => some 0x28C
  | .vfcmp _ => some 0x28D
  | .vfclass _ => some 0x28E
  | .vcvt _ => some 0x2C0
  | .vperm _ => some 0x2C1
  | .vrot _ => some 0x2C2
  | .vbcast _ => some 0x2C3
  | .vredadd _ => some 0x2C4
  | .vredmax _ => some 0x2C5
  | .vredmin _ => some 0x2C6
  | .vscanadd _ => some 0x2C7
  | .vpack _ => some 0x2C8
  | .vunpk _ => some 0x2C9
  | .vcmpr _ => some 0x2CA
  | .vexpd _ => some 0x2CB
  | .vlanem _ => some 0x2CC
  | .tcfg _ => some 0x300
  | .thdr _ => some 0x301
  | .tzero _ => some 0x302
  | .tld _ => some 0x303
  | .tst _ => some 0x304
  | .trowg _ => some 0x305
  | .trowp _ => some 0x306
  | .tcolg _ => some 0x307
  | .tcolp _ => some 0x308
  | .tmma _ => some 0x309
  | .tadd _ => some 0x30A
  | .tscl _ => some 0x30B
  | .ttrn _ => some 0x30C
  | .tchk _ => some 0x30D
  | .mjob _ => some 0x340
  | .mwait _ => some 0x341
  | .mpoll _ => some 0x342
  | .mcancel _ => some 0x343
  | .jedge _ => some 0x344
  | .jwait _ => some 0x345
  | .scan _ => some 0x346
  | .scanw _ => some 0x347
  | .carrys _ => some 0x348
  | .carryr _ => some 0x349
  | .copy _ => some 0x380
  | .copy2d _ => some 0x381
  | .cwait _ => some 0x382
  | .cpoll _ => some 0x383
  | .spec _ => some 0x384
  | .hrel _ => some 0x385
  | .hhold _ => some 0x386
  | .hcall _ => some 0x387
  | .hinfo _ => some 0x388
  | .tfill _ => some 0x389
  | .unassignedOpcode w => some (opcOf w)
  | .create _ => none
  | .commit _ => none
  | .resume _ => none
  | .destroy _ => none
  | .setmode _ => none
  | .setfault _ => none
  | .answer _ => none
  | .codecopy _ => none
  | .preempt _ => none
  | .promote _ => none
  | .contextScrub _ => none
  | .queueEnable _ => none
  | .queueDisable _ => none
  | .qcmdSkip _ => none
  | .qcmdReset _ => none
  | .doorbellWrite _ _ => none
  | .launch _ => none
  | .timedLaunch _ => none
  | .load _ => none
  | .unload _ => none
  | .signal _ => none
  | .waitPacket _ => none
  | .copyPacket _ => none
  | .queueWake _ => none
  | .waitTimeout _ => none
  | .timedLaunchStart _ => none
  | .kernelCodeFree _ _ => none
  | .bind _ _ _ _ _ _ => none
  | .unbind _ _ => none
  | .retire _ _ => none
  | .castWrite _ => none
  | .quantumExpiry _ => none
  | .launchQuiescence _ => none
  | .messageArrival _ => none
  | .streamMessageArrival _ => none
  | .joinDecrementArrival _ => none
  | .remoteOperationArrival _ => none
  | .mcstArrival _ => none
  | .carryArrival _ => none
  | .wakeArrival _ => none
  | .lateReplyRedirect _ => none
  | .laybyReturn _ => none
  | .schedulerPick _ => none
  | .preemptionAbort _ => none
  | .waymarkExpiry _ => none
  | .migrateDepart _ => none
  | .boundaryRelease _ => none
  | .worldStopped _ => none
  | .eventSetAtHome _ => none
  | .eventClearAtHome _ => none
  | .eventWake _ => none
  | .jobWaitEnd _ => none
  | .copyWaitEnd _ => none
  | .carryTake _ => none
  | .timedRelease _ => none
  | .scanComplete _ => none
  | .remoteReply _ => none
  | .portWaitEnd _ => none
  | .handleWaitEnd _ => none
  | .faultActorFire _ _ => none
  | .tlbMissService _ => none
  | .pageService _ => none
  | .promotion _ _ => none
  | .promotionAbandon _ _ => none
  | .pageMigration _ _ _ => none
  | .meJobStart _ => none
  | .meJobEnd _ => none
  | .jedgeStart _ => none
  | .edgeTileBoundary _ => none
  | .jedgeEnd _ => none
  | .copyCommandStart _ => none
  | .copyCommandEnd _ => none
  | .ringRcountPoll _ _ => none
  | .linkEnable _ => none
  | .linkTrainingDone _ _ _ _ => none
  | .laneFailure _ _ => none
  | .linkRetrain _ => none
  | .linkAckTimeout _ => none
  | .linkDisable _ => none
  | .flitReceive _ _ => none
  | .flitReplay _ _ => none
  | .routeChange _ _ => none
  | .peerLoss _ => none
  | .dieLoss _ => none
  | .timeFlitExchange _ _ _ _ _ => none
  | .rootselWrite _ => none
  | .featoffWrite _ => none
  | .gaugeSourceSet _ _ _ => none
  | .gaugeClear _ _ => none
  | .registerWrite _ _ => none
  | .correctableError _ _ _ => none
  | .uncorrectableError _ _ => none
  | .powerOn => none
  | .bootInitDone _ => none
  | .provErase => none
  | .provWrite => none
  | .provVerify => none
  | .provReset => none
  | .getVersion _ => none
  | .getCapabilities _ => none
  | .negotiateAlgorithms _ => none
  | .getDigests _ => none
  | .getCertificate _ => none
  | .challenge _ => none
  | .getMeasurements _ => none
  | .thermalThrottle _ => none
  | .thermalRecover _ => none
  | .thermalShutdown => none
  | .cxlMemWrite _ _ => none

/-- The word of an instruction, from the encoding tables of 15 R242-R258. An event has none. -/
def encode : Instr → Option Word
  | .ximm payload => some (mkWord false 0 0x001 payload.toNat)
  | .ord o => some (mkWord false 0 0x002 (o.str.code * 4 + o.scope.code))
  | .nop f => some (FR.enc 0x003 f)
  | .trap f => some (FI.enc 0x004 f)
  | .trapd f => some (FI.enc 0x005 f)
  | .brk f => some (FI.enc 0x006 f)
  | .eret f => some (FR.enc 0x007 f)
  | .csrr f => some (FI.enc 0x008 f)
  | .csrw f => some (FI.enc 0x009 f)
  | .csrs f => some (FI.enc 0x00A f)
  | .csrc f => some (FI.enc 0x00B f)
  | .fenceCode f => some (FR.enc 0x00C f)
  | .ptsync f => some (FR.enc 0x00D f)
  | .stopw f => some (FR.enc 0x00E f)
  | .resumew f => some (FR.enc 0x00F f)
  | .waitt f => some (FR.enc 0x010 f)
  | .halt f => some (FR.enc 0x011 f)
  | .add f => some (FR.enc 0x040 f)
  | .sub f => some (FR.enc 0x041 f)
  | .mul f => some (FR.enc 0x042 f)
  | .mulh f => some (FR.enc 0x043 f)
  | .mulhu f => some (FR.enc 0x044 f)
  | .div f => some (FR.enc 0x045 f)
  | .divu f => some (FR.enc 0x046 f)
  | .rem f => some (FR.enc 0x047 f)
  | .remu f => some (FR.enc 0x048 f)
  | .and f => some (FR.enc 0x049 f)
  | .or f => some (FR.enc 0x04A f)
  | .xor f => some (FR.enc 0x04B f)
  | .andn f => some (FR.enc 0x04C f)
  | .orn f => some (FR.enc 0x04D f)
  | .shl f => some (FR.enc 0x04E f)
  | .shr f => some (FR.enc 0x04F f)
  | .shra f => some (FR.enc 0x050 f)
  | .rol f => some (FR.enc 0x051 f)
  | .ror f => some (FR.enc 0x052 f)
  | .min f => some (FR.enc 0x053 f)
  | .max f => some (FR.enc 0x054 f)
  | .minu f => some (FR.enc 0x055 f)
  | .maxu f => some (FR.enc 0x056 f)
  | .cmpeq f => some (FR.enc 0x057 f)
  | .cmpne f => some (FR.enc 0x058 f)
  | .cmplt f => some (FR.enc 0x059 f)
  | .cmpltu f => some (FR.enc 0x05A f)
  | .sel f => some (FRC.enc 0x05B f)
  | .clz f => some (FR.enc 0x05C f)
  | .ctz f => some (FR.enc 0x05D f)
  | .popc f => some (FR.enc 0x05E f)
  | .brev f => some (FR.enc 0x05F f)
  | .bswap f => some (FR.enc 0x060 f)
  | .ext f => some (FR.enc 0x061 f)
  | .ins f => some (FR.enc 0x062 f)
  | .mov f => some (FR.enc 0x063 f)
  | .addi f => some (FI.enc 0x080 f)
  | .andi f => some (FI.enc 0x081 f)
  | .ori f => some (FI.enc 0x082 f)
  | .xori f => some (FI.enc 0x083 f)
  | .shli f => some (FI.enc 0x084 f)
  | .shri f => some (FI.enc 0x085 f)
  | .shrai f => some (FI.enc 0x086 f)
  | .cmplti f => some (FI.enc 0x087 f)
  | .movi f => some (FI.enc 0x088 f)
  | .movhi f => some (FI.enc 0x089 f)
  | .cgeta f => some (FR.enc 0x0C0 f)
  | .cseta f => some (FR.enc 0x0C1 f)
  | .cinc f => some (FI.enc 0x0C2 f)
  | .csetb f => some (FR.enc 0x0C3 f)
  | .cgetb f => some (FR.enc 0x0C4 f)
  | .cgetl f => some (FR.enc 0x0C5 f)
  | .candp f => some (FR.enc 0x0C6 f)
  | .cgetp f => some (FR.enc 0x0C7 f)
  | .ctag f => some (FR.enc 0x0C8 f)
  | .cclr f => some (FR.enc 0x0C9 f)
  | .csub f => some (FR.enc 0x0CA f)
  | .clscap f => some (FR.enc 0x0CB f)
  | .cseal f => some (FR.enc 0x0CC f)
  | .cunseal f => some (FR.enc 0x0CD f)
  | .beq f => some (FC.enc 0x100 f)
  | .bne f => some (FC.enc 0x101 f)
  | .blt f => some (FC.enc 0x102 f)
  | .bge f => some (FC.enc 0x103 f)
  | .bltu f => some (FC.enc 0x104 f)
  | .bgeu f => some (FC.enc 0x105 f)
  | .bk f => some (FC.enc 0x106 f)
  | .bnk f => some (FC.enc 0x107 f)
  | .jmp f => some (FC.enc 0x108 f)
  | .jal f => some (FC.enc 0x109 f)
  | .jr f => some (FR.enc 0x10A f)
  | .loop f => some (FC.enc 0x10B f)
  | .send f => some (FRS.enc 0x140 f)
  | .sendm f => some (FRC.enc 0x141 f)
  | .recv f => some (FR.enc 0x142 f)
  | .fire f => some (FR.enc 0x143 f)
  | .endFiring f => some (FR.enc 0x144 f)
  | .yieldFiring f => some (FR.enc 0x145 f)
  | .migrate f => some (FR.enc 0x146 f)
  | .evset f => some (FR.enc 0x147 f)
  | .evclr f => some (FR.enc 0x148 f)
  | .evwait f => some (FR.enc 0x149 f)
  | .evtest f => some (FR.enc 0x14A f)
  | .join f => some (FJoin.enc 0x14B f)
  | .jinit f => some (FJinit.enc 0x14C f)
  | .htset f => some (FR.enc 0x14D f)
  | .htget f => some (FR.enc 0x14E f)
  | .hostq f => some (FR.enc 0x14F f)
  | .ld f => some (FM.enc 0x180 f)
  | .st f => some (FM.enc 0x181 f)
  | .ldv f => some (FMV.enc 0x182 f)
  | .stv f => some (FMV.enc 0x183 f)
  | .ldvs f => some (FRL.enc 0x184 f)
  | .stvs f => some (FRL.enc 0x185 f)
  | .ldvx f => some (FRL.enc 0x186 f)
  | .stvx f => some (FRL.enc 0x187 f)
  | .pref f => some (FMV.enc 0x188 f)
  | .ldc f => some (FMV.enc 0x189 f)
  | .stc f => some (FMV.enc 0x18A f)
  | .lsld f => some (FM.enc 0x1C0 f)
  | .lsst f => some (FM.enc 0x1C1 f)
  | .lsldv f => some (FML.enc 0x1C2 f)
  | .lsstv f => some (FML.enc 0x1C3 f)
  | .mcst f => some (FR.enc 0x1C4 f)
  | .cbinit f => some (FR.enc 0x1C5 f)
  | .cbadvp f => some (FR.enc 0x1C6 f)
  | .cbadvc f => some (FR.enc 0x1C7 f)
  | .cbcnt f => some (FR.enc 0x1C8 f)
  | .qctl f => some (FR.enc 0x1C9 f)
  | .qtest f => some (FR.enc 0x1CA f)
  | .qdrain f => some (FR.enc 0x1CB f)
  | .aadd f => some (FA.enc 0x200 f)
  | .aand f => some (FA.enc 0x201 f)
  | .aor f => some (FA.enc 0x202 f)
  | .axor f => some (FA.enc 0x203 f)
  | .amin f => some (FA.enc 0x204 f)
  | .amax f => some (FA.enc 0x205 f)
  | .aminu f => some (FA.enc 0x206 f)
  | .amaxu f => some (FA.enc 0x207 f)
  | .aswp f => some (FA.enc 0x208 f)
  | .acas f => some (FA.enc 0x209 f)
  | .afadd f => some (FA.enc 0x20A f)
  | .afmin f => some (FA.enc 0x20B f)
  | .afmax f => some (FA.enc 0x20C f)
  | .rget f => some (FA.enc 0x20D f)
  | .rput f => some (FA.enc 0x20E f)
  | .radd f => some (FA.enc 0x20F f)
  | .rcas f => some (FA.enc 0x210 f)
  | .vadd f => some (FV.enc 0x240 f)
  | .vsub f => some (FV.enc 0x241 f)
  | .vmul f => some (FV.enc 0x242 f)
  | .vmulh f => some (FV.enc 0x243 f)
  | .vand f => some (FV.enc 0x244 f)
  | .vor f => some (FV.enc 0x245 f)
  | .vxor f => some (FV.enc 0x246 f)
  | .vshl f => some (FV.enc 0x247 f)
  | .vshr f => some (FV.enc 0x248 f)
  | .vshra f => some (FV.enc 0x249 f)
  | .vmin f => some (FV.enc 0x24A f)
  | .vmax f => some (FV.enc 0x24B f)
  | .vcmpeq f => some (FV.enc 0x24C f)
  | .vcmplt f => some (FV.enc 0x24D f)
  | .vsel f => some (FV.enc 0x24E f)
  | .vabs f => some (FV.enc 0x24F f)
  | .vdot4 f => some (FV.enc 0x250 f)
  | .vsplat f => some (FV.enc 0x251 f)
  | .vmovx f => some (FV.enc 0x252 f)
  | .vins f => some (FV.enc 0x253 f)
  | .vfadd f => some (FV.enc 0x280 f)
  | .vfsub f => some (FV.enc 0x281 f)
  | .vfmul f => some (FV.enc 0x282 f)
  | .vfma f => some (FV.enc 0x283 f)
  | .vfnma f => some (FV.enc 0x284 f)
  | .vfdiv f => some (FV.enc 0x285 f)
  | .vfsqrt f => some (FV.enc 0x286 f)
  | .vfrsq f => some (FV.enc 0x287 f)
  | .vfrcp f => some (FV.enc 0x288 f)
  | .vfmin f => some (FV.enc 0x289 f)
  | .vfmax f => some (FV.enc 0x28A f)
  | .vfabs f => some (FV.enc 0x28B f)
  | .vfneg f => some (FV.enc 0x28C f)
  | .vfcmp f => some (FV.enc 0x28D f)
  | .vfclass f => some (FV.enc 0x28E f)
  | .vcvt f => some (FV.enc 0x2C0 f)
  | .vperm f => some (FV.enc 0x2C1 f)
  | .vrot f => some (FV.enc 0x2C2 f)
  | .vbcast f => some (FV.enc 0x2C3 f)
  | .vredadd f => some (FV.enc 0x2C4 f)
  | .vredmax f => some (FV.enc 0x2C5 f)
  | .vredmin f => some (FV.enc 0x2C6 f)
  | .vscanadd f => some (FV.enc 0x2C7 f)
  | .vpack f => some (FV.enc 0x2C8 f)
  | .vunpk f => some (FV.enc 0x2C9 f)
  | .vcmpr f => some (FV.enc 0x2CA f)
  | .vexpd f => some (FV.enc 0x2CB f)
  | .vlanem f => some (FV.enc 0x2CC f)
  | .tcfg f => some (FR.enc 0x300 f)
  | .thdr f => some (FR.enc 0x301 f)
  | .tzero f => some (FR.enc 0x302 f)
  | .tld f => some (FRT.enc 0x303 f)
  | .tst f => some (FR.enc 0x304 f)
  | .trowg f => some (FR.enc 0x305 f)
  | .trowp f => some (FR.enc 0x306 f)
  | .tcolg f => some (FR.enc 0x307 f)
  | .tcolp f => some (FR.enc 0x308 f)
  | .tmma f => some (FR.enc 0x309 f)
  | .tadd f => some (FR.enc 0x30A f)
  | .tscl f => some (FR.enc 0x30B f)
  | .ttrn f => some (FR.enc 0x30C f)
  | .tchk f => some (FR.enc 0x30D f)
  | .mjob f => some (FR.enc 0x340 f)
  | .mwait f => some (FR.enc 0x341 f)
  | .mpoll f => some (FR.enc 0x342 f)
  | .mcancel f => some (FR.enc 0x343 f)
  | .jedge f => some (FR.enc 0x344 f)
  | .jwait f => some (FR.enc 0x345 f)
  | .scan f => some (FSC.enc 0x346 f)
  | .scanw f => some (FSC.enc 0x347 f)
  | .carrys f => some (FR.enc 0x348 f)
  | .carryr f => some (FR.enc 0x349 f)
  | .copy f => some (FR.enc 0x380 f)
  | .copy2d f => some (FR.enc 0x381 f)
  | .cwait f => some (FR.enc 0x382 f)
  | .cpoll f => some (FR.enc 0x383 f)
  | .spec f => some (FR.enc 0x384 f)
  | .hrel f => some (FR.enc 0x385 f)
  | .hhold f => some (FR.enc 0x386 f)
  | .hcall f => some (FR.enc 0x387 f)
  | .hinfo f => some (FR.enc 0x388 f)
  | .tfill f => some (FR.enc 0x389 f)
  | .unassignedOpcode w => some w
  | .create _ => none
  | .commit _ => none
  | .resume _ => none
  | .destroy _ => none
  | .setmode _ => none
  | .setfault _ => none
  | .answer _ => none
  | .codecopy _ => none
  | .preempt _ => none
  | .promote _ => none
  | .contextScrub _ => none
  | .queueEnable _ => none
  | .queueDisable _ => none
  | .qcmdSkip _ => none
  | .qcmdReset _ => none
  | .doorbellWrite _ _ => none
  | .launch _ => none
  | .timedLaunch _ => none
  | .load _ => none
  | .unload _ => none
  | .signal _ => none
  | .waitPacket _ => none
  | .copyPacket _ => none
  | .queueWake _ => none
  | .waitTimeout _ => none
  | .timedLaunchStart _ => none
  | .kernelCodeFree _ _ => none
  | .bind _ _ _ _ _ _ => none
  | .unbind _ _ => none
  | .retire _ _ => none
  | .castWrite _ => none
  | .quantumExpiry _ => none
  | .launchQuiescence _ => none
  | .messageArrival _ => none
  | .streamMessageArrival _ => none
  | .joinDecrementArrival _ => none
  | .remoteOperationArrival _ => none
  | .mcstArrival _ => none
  | .carryArrival _ => none
  | .wakeArrival _ => none
  | .lateReplyRedirect _ => none
  | .laybyReturn _ => none
  | .schedulerPick _ => none
  | .preemptionAbort _ => none
  | .waymarkExpiry _ => none
  | .migrateDepart _ => none
  | .boundaryRelease _ => none
  | .worldStopped _ => none
  | .eventSetAtHome _ => none
  | .eventClearAtHome _ => none
  | .eventWake _ => none
  | .jobWaitEnd _ => none
  | .copyWaitEnd _ => none
  | .carryTake _ => none
  | .timedRelease _ => none
  | .scanComplete _ => none
  | .remoteReply _ => none
  | .portWaitEnd _ => none
  | .handleWaitEnd _ => none
  | .faultActorFire _ _ => none
  | .tlbMissService _ => none
  | .pageService _ => none
  | .promotion _ _ => none
  | .promotionAbandon _ _ => none
  | .pageMigration _ _ _ => none
  | .meJobStart _ => none
  | .meJobEnd _ => none
  | .jedgeStart _ => none
  | .edgeTileBoundary _ => none
  | .jedgeEnd _ => none
  | .copyCommandStart _ => none
  | .copyCommandEnd _ => none
  | .ringRcountPoll _ _ => none
  | .linkEnable _ => none
  | .linkTrainingDone _ _ _ _ => none
  | .laneFailure _ _ => none
  | .linkRetrain _ => none
  | .linkAckTimeout _ => none
  | .linkDisable _ => none
  | .flitReceive _ _ => none
  | .flitReplay _ _ => none
  | .routeChange _ _ => none
  | .peerLoss _ => none
  | .dieLoss _ => none
  | .timeFlitExchange _ _ _ _ _ => none
  | .rootselWrite _ => none
  | .featoffWrite _ => none
  | .gaugeSourceSet _ _ _ => none
  | .gaugeClear _ _ => none
  | .registerWrite _ _ => none
  | .correctableError _ _ _ => none
  | .uncorrectableError _ _ => none
  | .powerOn => none
  | .bootInitDone _ => none
  | .provErase => none
  | .provWrite => none
  | .provVerify => none
  | .provReset => none
  | .getVersion _ => none
  | .getCapabilities _ => none
  | .negotiateAlgorithms _ => none
  | .getDigests _ => none
  | .getCertificate _ => none
  | .challenge _ => none
  | .getMeasurements _ => none
  | .thermalThrottle _ => none
  | .thermalRecover _ => none
  | .thermalShutdown => none
  | .cxlMemWrite _ _ => none

/-- The bytes of a number as memory holds them: least significant first (00 R3, 15 R242). -/
def bytesOf (n : Nat) (w : Nat) : List Byte := (List.range n).map (fun i => BitVec.ofNat 8 (w / 2 ^ (8 * i)))
/-- A number from its bytes, least significant first (00 R3). -/
def ofBytes : List Byte → Nat
  | [] => 0
  | b :: t => b.toNat + 256 * ofBytes t

/-- Decode from memory's bytes: one instruction word is eight bytes (15 R242). -/
def decodeBytes (bs : List Byte) : Except Reject Instr := decode (BitVec.ofNat 64 (ofBytes (bs.take 8)))

/-- The instruction that the decoder reads from bits numbered as the opcode table numbers them. An instruction is one word
of 64 bits, so the first word's bit 0 is the number's bit 0 and every bit above `nbits` is 0. -/
def decodeTableWord (nbits w : Nat) : Option Instr :=
  match decodeBytes (bytesOf 8 (w % 2 ^ nbits)) with
  | .ok i => some i
  | .error _ => none

end Sys2Proof
end

