-- ==== Sys2Proof/Machine/Memory.lean ====
section
/-! DEFINITION. Physical memory with its tags, a reader's view of it in a phase, the translation tables and the TLBs
(01 R19, 13, 17 R305, 21 R406-R409). -/

namespace Sys2Proof.Machine

/-! ### Access to the parts of the state -/

/-- The end of device physical memory (01 R19). -/
def memTop : Nat := 0xC000000000

/-- Core `k`; the core key is die*1024 + x*32 + y (01 R9). -/
def State.core (s : State) (k : Nat) : Core := Table.get Core.fresh s.cores k
/-- Replace core `k`. -/
def State.setCore (s : State) (k : Nat) (c : Core) : State := { s with cores := Table.insert s.cores k c }
/-- Cluster `u`; the cluster key is die*128 + cluster index (01 R10). -/
def State.cluster (s : State) (u : Nat) : Cluster := Table.get Cluster.fresh s.clusters u
/-- Replace cluster `u`. -/
def State.setCluster (s : State) (u : Nat) (c : Cluster) : State := { s with clusters := Table.insert s.clusters u c }
/-- Copy Engine `e`. -/
def State.engine (s : State) (e : Nat) : CopyEngine := Table.get CopyEngine.fresh s.engines e
/-- Replace Copy Engine `e`. -/
def State.setEngine (s : State) (e : Nat) (c : CopyEngine) : State := { s with engines := Table.insert s.engines e c }
/-- Context `n`. -/
def State.ctx (s : State) (n : Nat) : Ctx := Table.get Ctx.fresh s.ctxs n
/-- Replace context `n`. -/
def State.setCtx (s : State) (n : Nat) (c : Ctx) : State := { s with ctxs := Table.insert s.ctxs n c }
/-- Queue `q`. -/
def State.queue (s : State) (q : Nat) : Queue := Table.get Queue.reset s.queues q
/-- Replace queue `q`. -/
def State.setQueue (s : State) (q : Nat) (x : Queue) : State := { s with queues := Table.insert s.queues q x }
/-- Die `d` of this package. -/
def State.die (s : State) (d : Nat) : Die := Table.get Die.fresh s.dies d
/-- Replace die `d`. -/
def State.setDie (s : State) (d : Nat) (x : Die) : State := { s with dies := Table.insert s.dies d x }
/-- Link `n`. -/
def State.link (s : State) (n : Nat) : Link := Table.get Link.fresh s.links n
/-- Replace link `n`. -/
def State.setLink (s : State) (n : Nat) (x : Link) : State := { s with links := Table.insert s.links n x }
/-- Replace launch `l`. -/
def State.setLaunch (s : State) (l : Nat) (x : Launch) : State := { s with launches := Table.insert s.launches l x }
/-- Group `g` of a launch. -/
def Launch.group (l : Launch) (g : Nat) : Group := Table.get Group.fresh l.groups g
/-- Replace group `g` of a launch. -/
def Launch.setGroup (l : Launch) (g : Nat) (x : Group) : Launch := { l with groups := Table.insert l.groups g x }

/-- The die of a core key. -/
def coreDie (k : Nat) : Nat := k / 1024
/-- x within the die. -/
def coreX (k : Nat) : Nat := k / 32 % 32
/-- y within the die. -/
def coreY (k : Nat) : Nat := k % 32
/-- The core key of a place. -/
def coreKey (die x y : Nat) : Nat := die * 1024 + x * 32 + y
/-- The cluster key of a core (01 R10). -/
def clusterOf (k : Nat) : Nat := coreDie k * 128 + 16 * (coreY k / 4) + coreX k / 2
/-- The cluster core number (01 R10). -/
def clusterNo (k : Nat) : Nat := 2 * (coreY k % 4) + coreX k % 2
/-- The Copy Engine of a core: 4d + (cluster index mod 4) (20 R396). -/
def engineOf (k : Nat) : Nat := 4 * coreDie k + clusterOf k % 4
/-- The packed coordinate of a core of this package (01 R9). -/
def State.coord (s : State) (k : Nat) : BitVec 31 := BitVec.ofNat 31 (s.pkg.toNat * 8192 + k)

/-! ### Physical memory (17 R305) -/

/-- What an unlisted address reads as: the byte 0 (log entry 3). -/
def Memory.default : Byte := 0
/-- The canonical form of memory: addresses rising, no entry equal to what an unlisted address reads as. -/
def Memory.wf (m : List Host.Cell) : Bool := Table.wf Memory.default m

/-- The byte at a physical address. -/
def State.byte (s : State) (a : Nat) : Byte := Table.get Memory.default s.mem a
/-- n bytes from a physical address. -/
def State.bytes (s : State) (a n : Nat) : List Byte := (List.range n).map (fun i => s.byte (a + i))
/-- The doubleword at a physical address, little-endian (00 R3). -/
def State.word (s : State) (a : Nat) : Word := BitVec.ofNat 64 (ofBytes (s.bytes a 8))
/-- The tag of granule g, bytes 16g to 16g + 15. -/
def State.tagAt (s : State) (g : Nat) : Bool := Table.get false s.tags g
/-- The 16 bytes of granule g as one value. -/
def State.granule (s : State) (g : Nat) : BitVec 128 := BitVec.ofNat 128 (ofBytes (s.bytes (16 * g) 16))

/-- Bytes written one by one from an address. -/
def writeBytes (m : List Host.Cell) (a : Nat) : List Byte → List Host.Cell
  | [] => m
  | b :: t => writeBytes (Table.set Memory.default m a b) (a + 1) t

/-- The pieces of a byte string that lie in one granule each; the first argument bounds their number. -/
def pieces : Nat → Nat → List Byte → List (Nat × List Byte)
  | 0, _, _ => []
  | f + 1, a, bs =>
    if bs.isEmpty then [] else (a, bs.take (16 - a % 16)) :: pieces f (a + (16 - a % 16)) (bs.drop (16 - a % 16))

/-- Publish bytes that lie in one granule: they are written, the granule's tag becomes `tag` (17 R305), and what the granule
held is kept as an older version for phases that began before (21 R407), when anything changed. -/
def State.publishPiece (s : State) (narrow : Option (Nat × OScope)) (tag : Bool) (a : Nat) (bs : List Byte) : State :=
  let g := a / 16
  let s' := { s with mem := writeBytes s.mem a bs, tags := Table.set false s.tags g tag }
  if s'.granule g = s.granule g ∧ s'.tagAt g = s.tagAt g then s'
  else { s' with hist := { granule := g, bytes := s.granule g, tag := s.tagAt g, stamp := s.stamp, code := true, narrow, wide := none } :: s.hist,
                 stamp := s.stamp + 1 }

/-- Publish bytes at a physical address. Every write but STC's clears the tag of each granule it touches (17 R305). -/
def State.publish (s : State) (narrow : Option (Nat × OScope)) (tag : Bool) (a : Nat) (bs : List Byte) : State :=
  (pieces bs.length a bs).foldl (fun s p => s.publishPiece narrow tag p.1 p.2) s

/-- A write by an agent whose publications reach the package: an engine, the Plinth, the toll core, the host. -/
def State.write (s : State) (a : Nat) (bs : List Byte) : State := s.publish none false a bs
/-- Such a write of one doubleword. -/
def State.writeWord (s : State) (a : Nat) (w : Word) : State := s.write a (bytesOf 8 w.toNat)
/-- Such a write of doublewords in a row. -/
def State.writeWords (s : State) (a : Nat) : List Word → State
  | [] => s
  | w :: t => (s.writeWord a w).writeWords (a + 8) t

/-- Drop the older versions that fetches of physical addresses [lo, hi) may find (20 R392). -/
def State.fenceCode (s : State) (lo hi : Nat) : State :=
  { s with hist := s.hist.map (fun v => if lo < 16 * v.granule + 16 ∧ 16 * v.granule < hi then { v with code := false } else v) }

/-- Whether a version was replaced by a narrowed publication of core `k` that no later boundary has widened (15 R258). -/
def Version.pendingOf (v : Version) (k : Nat) : Bool := decide (v.narrow.map Prod.fst = some k) && v.wide.isNone

/-- Core `k`'s narrowed publications are acknowledged at package scope by its next boundary that is not narrowed (15 R258). -/
def State.widen (s : State) (k : Nat) : State :=
  if s.hist.any (fun v => v.pendingOf k) then
    { s with hist := s.hist.map (fun v => if v.pendingOf k then { v with wide := some s.stamp } else v), stamp := s.stamp + 1 }
  else s

/-- Whether a version was replaced by a publication that no boundary has acknowledged at package scope (21 R409). -/
def Version.unsettled (v : Version) : Bool := v.narrow.isSome && v.wide.isNone

/-- The doubleword at an aligned physical address as the newest publication acknowledged at package scope left it: what an agent
outside every narrowed scope is sure to find (21 R409, 13 R223). -/
def State.settledWord (s : State) (a : Nat) : Word :=
  match ((s.hist.filter (fun v => decide (v.granule = a / 16))).takeWhile Version.unsettled).getLast? with
  | some v => BitVec.ofNat 64 (ofBytes ((bytesOf 16 v.bytes.toNat).drop (a % 16) |>.take 8))
  | none => s.word a

/-! ### Samples of gauges (23 R432-R433) -/

/-- The bin of a sample. -/
def gaugeBin (v : Word) : Nat := if v = 0 then 0 else min 31 (Nat.log2 v.toNat + 1)

/-- A unit that takes a sample. -/
def Gauge.take (g : Gauge) (v : Word) : Gauge :=
  { g with min := if v.toNat < g.min.toNat then v else g.min, max := if g.max.toNat < v.toNat then v else g.max, n := g.n + 1,
           sum := if g.sum.toNat + v.toNat < 2 ^ 64 then g.sum + v else 0xFFFFFFFFFFFFFFFF,
           bins := let b := Table.get 0 g.bins (gaugeBin v)
                   if b = 0xFFFFFFFF then g.bins else Table.set 0 g.bins (gaugeBin v) (b + 1) }

/-- Whether some unit of a context gathers a source. -/
def State.gathers (s : State) (ctx src : Nat) : Bool := (s.ctx ctx).gauges.any (fun p => decide (p.2.src.toNat = src))

/-- A context's units that gather source `src` take the sample v. -/
def State.sample (s : State) (ctx src : Nat) (v : Word) : State :=
  if s.gathers ctx src then
    s.setCtx ctx { s.ctx ctx with gauges := (s.ctx ctx).gauges.map (fun p => if p.2.src.toNat = src then (p.1, p.2.take v) else p) }
  else s

/-- The data of a read return to a core or an engine of a context, and source 4 takes its latency where the read went to HBM: whether it did,
and how long it took, is a free value (R433; the fetches of code and the walks of tables are not counted, log entry 45). -/
def State.readReturn (s : State) (ctx : Nat) : State :=
  if s.gathers ctx 4 then
    let s1 : State := { s with free := s.free + 1 }
    match Config.hbmRead s.free with
    | some n => s1.sample ctx 4 n
    | none => s1
  else s

/-! ### A reader's view (21 R406-R407) -/

/-- Who reads: a core, a cluster's engine, a die's engine (21 R409). -/
inductive Reader where
  | core (k : Nat)
  | cluster (u : Nat)
  | die (d : Nat)
  deriving DecidableEq, Repr

/-- Whether a reader lies within the scope of an issuing core (15 R258, 21 R409). -/
def Reader.within (r : Reader) (issuer : Nat) : OScope → Bool
  | .pkg => true
  | .die => match r with
    | .core k => decide (coreDie k = coreDie issuer)
    | .cluster u => decide (u / 128 = coreDie issuer)
    | .die d => decide (d = coreDie issuer)
  | .clu => match r with
    | .core k => decide (clusterOf k = clusterOf issuer)
    | .cluster u => decide (u = clusterOf issuer)
    | .die _ => false

/-- A phase that begins now (P5). -/
def State.newView (s : State) : View := { start := s.stamp, bytes := [], tags := [] }

/-- Whether a version may still be read in this view: it was replaced since the phase began, or its replacement was narrowed to a scope
that the reader lies outside of and has not been widened since before the phase began (21 R409). -/
def Version.visible (v : Version) (r : Reader) (w : View) : Bool :=
  decide (w.start ≤ v.stamp) || (match v.narrow with
    | some (i, sc) => !r.within i sc && (match v.wide with | some n => decide (w.start ≤ n) | none => true)
    | none => false)

/-- n bytes at offset o of a granule's value. -/
def sliceOf (g : BitVec 128) (o n : Nat) : List Byte := (bytesOf 16 g.toNat).drop o |>.take n

/-- The values that n bytes at address a, within one granule, may be read as: the current one, then the older ones. The tag is
part of a value only where the reader wants it. -/
def State.candidates (s : State) (r : Reader) (w : View) (wantTag : Bool) (a n : Nat) : List (List Byte × Bool) :=
  (s.bytes a n, wantTag && s.tagAt (a / 16)) ::
  (s.hist.filter (fun v => decide (v.granule = a / 16) && v.visible r w)).map
    (fun v => (sliceOf v.bytes (a % 16) n, wantTag && v.tag))

/-- Whether bytes agree with those that the phase has fixed (P2). -/
def agrees (t : Table Byte) (a : Nat) : List Byte → Bool
  | [] => true
  | b :: rest => (match Table.find? t a with | some x => decide (x = b) | none => true) && agrees t (a + 1) rest

/-- Fix the bytes of an address range for the rest of the phase (P2). -/
def fixBytes (t : Table Byte) (a : Nat) : List Byte → Table Byte
  | [] => t
  | b :: rest => fixBytes (Table.insert t a b) (a + 1) rest

/-- Remove repeats, keeping first occurrences. -/
def distinct {α : Type} [DecidableEq α] : List α → List α
  | [] => []
  | x :: t => x :: (distinct t).filter (fun y => decide (y ≠ x))

/-- Read n bytes of one granule in a view. Where several values are possible, a free value picks one; where the phase has
already fixed every byte from different versions, those bytes stand and the tag is clear. -/
def State.loadPiece (s : State) (r : Reader) (w : View) (wantTag : Bool) (a n : Nat) : List Byte × Bool × View × State :=
  let ok := (s.candidates r w wantTag a n).filter (fun c => agrees w.bytes a c.1 &&
    (!wantTag || (match Table.find? w.tags (a / 16) with | some x => decide (x = c.2) | none => true)))
  let fixed : List Byte := (List.range n).map (fun i => (Table.find? w.bytes (a + i)).getD (s.byte (a + i)))
  let (c, s') := match distinct ok with
    | [] => ((fixed, false), s)
    | [c] => (c, s)
    | c :: t => ((c :: t).getD (Config.versionPick s.free % (t.length + 1)) c, { s with free := s.free + 1 })
  (c.1, c.2, { w with bytes := fixBytes w.bytes a c.1,
                      tags := if wantTag then Table.insert w.tags (a / 16) c.2 else w.tags }, s')

/-- Read bytes that may lie in several granules, in a view; the first argument bounds the number of granules. -/
def State.loadIn (r : Reader) : Nat → State → View → Nat → Nat → List Byte × View × State
  | 0, s, w, _, _ => ([], w, s)
  | f + 1, s, w, a, n =>
    if n = 0 then ([], w, s) else
    let m := min n (16 - a % 16)
    let (bs, _, w', s') := s.loadPiece r w false a m
    let (rest, w'', s'') := State.loadIn r f s' w' (a + m) (n - m)
    (bs ++ rest, w'', s'')

/-- The physical address and bytes of a buffered store. -/
def Entry.stored : Entry → Option (Nat × List Byte × Bool)
  | .store _ pa bs tag => some (pa, bs, tag.getD false)
  | .also _ pa bs _ => some (pa, bs, false)
  | _ => none

/-- A core's own stores over what memory gave (P1). -/
def overlay (buf : List Entry) (a : Nat) (bs : List Byte) : List Byte :=
  buf.foldl (fun bs e => match e.stored with
    | some (pa, sb, _) => bs.mapIdx (fun i b => if pa ≤ a + i ∧ a + i < pa + sb.length then sb.getD (a + i - pa) b else b)
    | none => bs) bs

/-- The tag that the core's own last store to granule g leaves, if it has stored there (P1). -/
def overlayTag (buf : List Entry) (g : Nat) : Option Bool :=
  buf.foldl (fun t e => match e.stored with
    | some (pa, sb, tag) => if pa < 16 * g + 16 ∧ 16 * g < pa + sb.length then some tag else t
    | none => t) none

/-- A load by core `k` of n bytes at a physical address (R406, R407). -/
def State.loadBytes (s : State) (k : Nat) (a n : Nat) : List Byte × State :=
  let (bs, w, s') := State.loadIn (.core k) (n + 1) s (s.core k).view a n
  (overlay (s.core k).buffer a bs, (s'.setCore k { s'.core k with view := w }).readReturn ((s.core k).ctx.getD 0))

/-- A load of a granule with its tag by core `k` (17 R305). -/
def State.loadCap (s : State) (k : Nat) (a : Nat) : BitVec 128 × Bool × State :=
  let (bs, t, w, s') := s.loadPiece (.core k) (s.core k).view true a 16
  let bs' := overlay (s.core k).buffer a bs
  (BitVec.ofNat 128 (ofBytes bs'), (overlayTag (s.core k).buffer (a / 16)).getD t,
    (s'.setCore k { s'.core k with view := w }).readReturn ((s.core k).ctx.getD 0))

/-! ### Tables and TLBs (13 R218-R223) -/

/-- log2 of a page size: 0 64 KiB, 1 2 MiB, 2 1 GiB. -/
def pageLog : Nat → Nat
  | 0 => 16
  | 1 => 21
  | _ => 30

/-- A valid leaf (13 R220). -/
structure Leaf where
  size : Nat
  frame : Nat
  pr : Bool
  pw : Bool
  px : Bool
  shr : Bool
  pst : Nat
  deriving DecidableEq, Repr

/-- The leaf that an entry of level 0, 1 or 2 holds, where 13 R220 makes it valid. -/
def leafOf (level : Nat) (e : Word) : Option Leaf :=
  let frame := fld e 55 16 * 65536
  if fbit e 0 ∧ fbit e 1 ∧ fld e 15 8 = 0 ∧ frame % 2 ^ pageLog level = 0 ∧ frame < memTop ∧
     ¬ (fbit e 4 ∧ fbit e 5 ∧ fbit e 3) then
    some { size := level, frame, pr := fbit e 2, pw := fbit e 3, px := fbit e 4, shr := fbit e 5, pst := fld e 7 6 }
  else none

/-- The next table that a pointer entry of level 3, 2 or 1 names (13 R219-R220). -/
def nextOf (level : Nat) (e : Word) : Option Nat :=
  let next := fld e 55 8 * 256
  if fbit e 0 ∧ ¬ fbit e 1 ∧ fld e 7 2 = 0 ∧ next % (if level = 1 then 256 else 4096) = 0 ∧ next < memTop then some next
  else none

/-- A demand entry: V 0, LEAF 1, SW bit 63 set (13 R464). -/
def isDemand (e : Word) : Bool := !fbit e 0 && fbit e 1 && fbit e 63

/-- How a walk ends: at a valid leaf, at a demand entry, or at nothing; with the entry's address and level. -/
inductive WalkEnd where
  | leaf (at_ : Nat) (l : Leaf)
  | demand (at_ : Nat) (level : Nat) (e : Word)
  | none
  deriving DecidableEq, Repr

/-- VA bits that index a level (13 R219). -/
def vaIndex (va : Word) : Nat → Nat
  | 0 => fld va 20 16
  | 1 => fld va 29 21
  | 2 => fld va 38 30
  | _ => fld va 55 39

/-- Walk from a table of the given level down, through entries published and acknowledged at package scope (13 R219, R223). -/
def State.walkFrom (s : State) (va : Word) : Nat → Nat → WalkEnd
  | 0, table =>
    let a := table + 8 * vaIndex va 0
    let e := s.settledWord a
    match leafOf 0 e with
    | some l => .leaf a l
    | none => if isDemand e then .demand a 0 e else .none
  | n + 1, table =>
    let a := table + 8 * vaIndex va (n + 1)
    let e := s.settledWord a
    match (if n + 1 = 3 then none else leafOf (n + 1) e) with
    | some l => .leaf a l
    | none =>
      if n + 1 ≠ 3 ∧ isDemand e then .demand a (n + 1) e
      else match nextOf (n + 1) e with
        | some t => s.walkFrom va n t
        | none => .none

/-- Whether the host walks a context's tables: MODEMAP.TLBFILL (05 R97). -/
def Ctx.hostWalks (x : Ctx) : Bool := fbit x.modemap 1

/-- The end of a walk by the host, in tables whose layout is its own (13 R220): what it finds is a free value. -/
def hostWalk (ctx : Nat) (va time : Word) : WalkEnd :=
  let p := Config.hostLeaf ctx va time
  match (if 2 < p.2 then none else leafOf p.2 p.1) with
  | some l => .leaf memTop l
  | none => .none

/-- Walk a context's default-format tables for a virtual address below 2^56, as the toll core's firmware, the Plinth and the promotion
units do. -/
def State.tableWalk (s : State) (ctx : Nat) (va : Word) : WalkEnd := s.walkFrom va 3 (s.ctx ctx).root.toNat

/-- Find the leaf of a virtual address below 2^56: by the toll core's walk, or by the host's (13 R220, R222). -/
def State.walk (s : State) (ctx : Nat) (va : Word) : WalkEnd :=
  if (s.ctx ctx).hostWalks then hostWalk ctx va s.time else s.tableWalk ctx va

/-- Whether rights admit an access. -/
def admits (pr pw px : Bool) : Access → Bool
  | .read => pr
  | .write => pw
  | .fetch => px

/-- Whether a page of PST 3 is refused and others admitted by their rights (13 R221). -/
def Leaf.admits (l : Leaf) (acc : Access) : Bool := decide (l.pst ≠ 3) && Machine.admits l.pr l.pw l.px acc

/-- Whether a TLB entry translates an address of a context for an access. A hit without the right is no hit: rights that
software has raised need no PTSYNC (13 R225), so such an access walks again. -/
def TlbEntry.hits (e : TlbEntry) (ctx : Nat) (va : Word) (acc : Access) : Bool :=
  decide (e.ctx = ctx) && decide (e.page = va.toNat / 2 ^ pageLog e.size) && admits e.pr e.pw e.px acc

/-- The physical address a TLB entry gives. -/
def TlbEntry.pa (e : TlbEntry) (va : Word) : Nat := e.frame + va.toNat % 2 ^ pageLog e.size

/-- Put an entry first (most recently used), dropping another for the same page, and keep at most `n` (13 R222). -/
def tlbPut (n : Nat) (e : TlbEntry) (l : List TlbEntry) : List TlbEntry :=
  (e :: l.filter (fun x => !(decide (x.ctx = e.ctx) && decide (x.size = e.size) && decide (x.page = e.page) &&
    decide (x.set = e.set)))).take n

/-- Put an entry into a cluster TLB: eight ways of its set (13 R222). -/
def ctlbPut (e : TlbEntry) (l : List TlbEntry) : List TlbEntry :=
  tlbPut 8 e (l.filter (fun x => decide (x.set = e.set))) ++ l.filter (fun x => decide (x.set ≠ e.set))

/-- The set of a cluster TLB that an address indexes: VA bits 22:16. -/
def tlbSet (va : Word) : Nat := fld va 22 16

/-- The TLB entry of a leaf. -/
def Leaf.entry (l : Leaf) (ctx : Nat) (va : Word) (set : Nat) : TlbEntry :=
  { ctx, set, size := l.size, page := va.toNat / 2 ^ pageLog l.size, frame := l.frame, pr := l.pr, pw := l.pw, px := l.px }

/-- What a core's lookup gives: a physical address with the TLBs touched, or a miss (13 R222). -/
def State.lookup (s : State) (k ctx : Nat) (acc : Access) (va : Word) : Option (Nat × State) :=
  let c := s.core k
  match c.tlb.find? (fun e => e.hits ctx va acc) with
  | some e => some (e.pa va, s.setCore k { c with tlb := tlbPut 32 e c.tlb })
  | none =>
    let u := s.cluster (clusterOf k)
    match u.tlb.find? (fun e => decide (e.set = tlbSet va) && e.hits ctx va acc) with
    | some e =>
      some (e.pa va, (s.setCluster (clusterOf k) { u with tlb := ctlbPut e u.tlb }).setCore k
        { c with tlb := tlbPut 32 { e with set := 0 } c.tlb })
    | none => (c.latch.find? (fun e => e.hits ctx va acc)).map (fun e => (e.pa va, s))

/-- Drop the TLB entries of a context whose page overlaps [lo, hi), on every core and cluster (13 R224). -/
def State.dropTlb (s : State) (ctx lo hi : Nat) : State :=
  let keep (e : TlbEntry) : Bool := !(decide (e.ctx = ctx) && decide (e.page * 2 ^ pageLog e.size < hi) &&
    decide (lo < (e.page + 1) * 2 ^ pageLog e.size))
  { s with cores := s.cores.map (fun p => (p.1, { p.2 with tlb := p.2.tlb.filter keep, latch := p.2.latch.filter keep })),
           clusters := s.clusters.map (fun p => (p.1, { p.2 with tlb := p.2.tlb.filter keep })) }

/-- A virtual address's frame address for an agent that walks the tables itself (the Plinth, an engine), with the right
it needs; `none` is a refusal. -/
def State.vaToPa (s : State) (ctx : Nat) (acc : Access) (va : Word) : Option Nat :=
  if va.toNat ≥ 2 ^ 56 then none else
  match s.walk ctx va with
  | .leaf _ l => if l.admits acc then some (l.frame + va.toNat % 2 ^ pageLog l.size) else none
  | _ => none

/-- Whether a physical address lies in a stack of a lost die (01 R19, 14 R238): die d has the 96 GiB from 96 GiB × d. -/
def State.lostMemory (s : State) (pa : Nat) : Bool := (s.die (pa / 0x1800000000)).lost

/-- The physical address of a virtual one that the Plinth accesses: none where it does not translate, or where its page lies in a stack of
a lost die. -/
def State.plinthPa (s : State) (ctx : Nat) (acc : Access) (va : Word) : Option Nat := (s.vaToPa ctx acc va).filter (fun pa => !s.lostMemory pa)

/-- Whether an address of a context translates to a stack of a lost die (14 R238). -/
def State.lostVa (s : State) (ctx : Nat) (acc : Access) (va : Word) : Bool := match s.vaToPa ctx acc va with
  | some pa => s.lostMemory pa
  | none => false

/-! ### Frames (13 R464) -/

/-- The bytes of a table of a level (13 R219). -/
def tableSize : Nat → Nat
  | 0 => 256
  | 3 => 1048576
  | _ => 4096

/-- The virtual bytes that an entry of a level spans. -/
def entrySpan : Nat → Nat
  | 0 => 2 ^ 16
  | 1 => 2 ^ 21
  | 2 => 2 ^ 30
  | _ => 2 ^ 39

/-- The numbers of a table's entries that are not all zeros. -/
def State.entriesIn (s : State) (level table : Nat) : List Nat :=
  distinct ((s.mem.filter (fun c => decide (table ≤ c.1) && decide (c.1 < table + tableSize level))).map (fun c => (c.1 - table) / 8))

/-- What a table of a level and the tables below it map: the virtual address, the entry's address and the leaf of each page. -/
def State.leavesBelow (s : State) : Nat → Nat → Nat → List (Nat × Nat × Leaf)
  | 0, table, va => (s.entriesIn 0 table).filterMap (fun i =>
      (leafOf 0 (s.word (table + 8 * i))).map (fun l => (va + i * entrySpan 0, table + 8 * i, l)))
  | n + 1, table, va => (s.entriesIn (n + 1) table).flatMap (fun i =>
      let a := table + 8 * i
      let v := va + i * entrySpan (n + 1)
      match (if n + 1 = 3 then none else leafOf (n + 1) (s.word a)), nextOf (n + 1) (s.word a) with
      | some l, _ => [(v, a, l)]
      | none, some t => s.leavesBelow n t v
      | none, none => [])

/-- A table of a level with the tables below it: the address and the size of each. -/
def State.tablesBelow (s : State) : Nat → Nat → List (Nat × Nat)
  | 0, table => [(table, tableSize 0)]
  | n + 1, table => (table, tableSize (n + 1)) :: (s.entriesIn (n + 1) table).flatMap (fun i =>
      match (if n + 1 = 3 then none else leafOf (n + 1) (s.word (table + 8 * i))), nextOf (n + 1) (s.word (table + 8 * i)) with
      | none, some t => s.tablesBelow n t
      | _, _ => [])

/-- The pages that a context's default-format tables map. -/
def State.leavesOf (s : State) (ctx : Nat) : List (Nat × Nat × Leaf) := s.leavesBelow 3 (s.ctx ctx).root.toNat 0

/-- The frames that contexts use: those that their tables map, which software may have chosen itself (13 R464), and the tables. -/
def State.mappedFrames (s : State) : List (Nat × Nat) :=
  (s.ctxs.filter (fun p => decide (p.2.state ≠ .free))).flatMap (fun p =>
    (s.leavesOf p.1).map (fun l => (l.2.2.frame, 2 ^ pageLog l.2.2.size)) ++ s.tablesBelow 3 p.2.root.toNat)

/-- Whether [a, a + n) overlaps one of these frames. -/
def overlapsAny (l : List (Nat × Nat)) (a n : Nat) : Bool := l.any (fun f => decide (a < f.1 + f.2) && decide (f.1 < a + n))

/-- The first frame of n bytes at or after place `i` of `count`, cyclically, that overlaps none of those taken; the next argument bounds
the places tried. -/
def probe (taken : List (Nat × Nat)) (n lo count : Nat) : Nat → Nat → Option Nat
  | 0, _ => none
  | f + 1, i =>
    let a := lo + (i % count) * n
    if overlapsAny taken a n then probe taken n lo count f (i + 1) else some a

/-- Take a free frame of n bytes in [lo, hi): which one is a free value; none when every place is taken. -/
def State.takeFrame (s : State) (n lo hi : Nat) : Option (Nat × State) :=
  let count := (hi - lo) / n
  if count = 0 then none else
  match probe (s.frames ++ s.mappedFrames) n lo count count (Config.framePick s.free) with
  | some a => some (a, { s with frames := (a, n) :: s.frames, free := s.free + 1 })
  | none => none

/-- Give a frame back. -/
def State.freeFrame (s : State) (a : Nat) : State :=
  { s with frames := s.frames.filter (fun f => decide (f.1 ≠ a)), copied := s.copied.filter (fun f => decide (f ≠ a)) }

/-- Fill a fresh frame of n bytes with zeros and clear its tags (13 R464); no phase has seen what it holds now. -/
def State.zeroFrame (s : State) (a n : Nat) : State :=
  { s with
           hist := s.hist.filter (fun v => decide (16 * v.granule + 16 ≤ a ∨ a + n ≤ 16 * v.granule)), mem := s.mem.filter (fun c => !(decide (a ≤ c.1) && decide (c.1 < a + n))),
           tags := s.tags.filter (fun t => !(decide (a ≤ 16 * t.1) && decide (16 * t.1 < a + n))) }

end Sys2Proof.Machine
end

