-- ==== Sys2Proof/Machine/Regs.lean ====
section
/-! DEFINITION. Reading and writing the registers of a virtual core: x, y, l, v (03 R42-R51), and the local store
(17 R308-R309). Every access to a register goes through here. -/

namespace Sys2Proof.Machine

/-! ### x, y, l, v -/

/-- x register i; x0 reads the null capability (03 R42). -/
def VState.getX (r : VState) (i : Nat) : XReg := if i = 0 then XReg.zero else Table.get XReg.zero r.x i
/-- Write x register i; a write to x0 is ignored (03 R42). -/
def VState.setX (r : VState) (i : Nat) (c : XReg) : VState := if i = 0 then r else { r with x := Table.set XReg.zero r.x i c }
/-- y register i. -/
def VState.getY (r : VState) (i : Nat) : Word := Table.get 0 r.y i
/-- Write y register i (03 R49). -/
def VState.setY (r : VState) (i : Nat) (w : Word) : VState := { r with y := Table.set 0 r.y i w }
/-- l register i. -/
def VState.getL (r : VState) : Nat → Word
  | 0 => r.l0
  | 1 => r.l1
  | 2 => r.l2
  | _ => r.l3
/-- ShiftL (00 R5, 03 R50). -/
def VState.shiftL (r : VState) (w : Word) : VState := { r with l0 := w, l1 := r.l0, l2 := r.l1, l3 := r.l2 }
/-- Clear the l file (03 R42, at every safe point). -/
def VState.clearL (r : VState) : VState := { r with l0 := 0, l1 := 0, l2 := 0, l3 := 0 }
/-- v register i. -/
def VState.getV (r : VState) (i : Nat) : Vec := Table.get 0 r.v i
/-- Write v register i. -/
def VState.setV (r : VState) (i : Nat) (w : Vec) : VState := { r with v := Table.set 0 r.v i w }
/-- The eight registers from x register i (role B8). -/
def VState.block (r : VState) (i : Nat) : List XReg := (List.range 8).map (fun j => r.getX (i + j))
/-- Write eight registers from x register i. -/
def VState.setBlock (r : VState) (i : Nat) : List XReg → VState
  | [] => r
  | c :: t => (r.setX i c).setBlock (i + 1) t

/-! ### The local store -/

/-- The size of a local store (01 R11). -/
def lsSize : Nat := 262144

/-- The byte at a local-store offset; beyond the store it reads zero (17 R309). -/
def VState.lsByte (r : VState) (a : Nat) : Byte := if a < lsSize then Table.get 0 r.ls a else 0
/-- n bytes from a local-store offset. -/
def VState.lsBytes (r : VState) (a n : Nat) : List Byte := (List.range n).map (fun i => r.lsByte (a + i))
/-- n bytes from a local-store offset as a number. -/
def VState.lsNat (r : VState) (a n : Nat) : Nat := ofBytes (r.lsBytes a n)

/-- The out-of-range report of an access of n bytes at offset a (17 R309): LSSTAT.OOR is set, and where it was clear LSBAD takes
the lowest out-of-range offset. -/
def Csrs.lsReport (c : Csrs) (a n : Nat) : Csrs :=
  if n = 0 ∨ a + n ≤ lsSize then c
  else { c with lsstat := c.lsstat ||| 1, lsbad := if fbit c.lsstat 0 then c.lsbad else BitVec.ofNat 64 (max a lsSize) }

/-- Write bytes at a local-store offset, dropping those beyond the store and marking the 4 KiB regions written (05 R104). -/
def VState.lsWrite (r : VState) (a : Nat) : List Byte → VState
  | [] => r
  | b :: t =>
    (if a < lsSize then { r with ls := Table.set 0 r.ls a b, lsdirty := r.lsdirty ||| (1#64 <<< (a / 4096)) } else r).lsWrite
      (a + 1) t

/-- A read of the local store by its own core, with the report of R309. -/
def VState.lsLoad (r : VState) (a n : Nat) : List Byte × VState := (r.lsBytes a n, { r with csr := r.csr.lsReport a n })
/-- A write of the local store by its own core, with the report of R309. -/
def VState.lsStore (r : VState) (a : Nat) (bs : List Byte) : VState :=
  let r' := r.lsWrite a bs
  { r' with csr := r'.csr.lsReport a bs.length }

/-! ### Cores -/

/-- Change core `k`. -/
def State.modCore (s : State) (k : Nat) (f : Core → Core) : State := s.setCore k (f (s.core k))
/-- Change the virtual core that core `k` runs. -/
def State.modVs (s : State) (k : Nat) (f : VState → VState) : State :=
  s.modCore k (fun c => { c with vs := f c.vs })
/-- The virtual core that core `k` runs. -/
def State.vs (s : State) (k : Nat) : VState := (s.core k).vs
/-- Change context `n`. -/
def State.modCtx (s : State) (n : Nat) (f : Ctx → Ctx) : State := s.setCtx n (f (s.ctx n))
/-- The context core `k` serves; a core that serves none counts as context 0, which then has nothing. -/
def State.ctxOf (s : State) (k : Nat) : Nat := (s.core k).ctx.getD 0

/-- The virtual core of the group that a core serves, also while a firing of the fault actor runs there (05 R462). -/
def Core.home (c : Core) : VState := c.parked.getD c.vs
/-- Replace it. -/
def Core.setHome (c : Core) (v : VState) : Core := match c.parked with
  | some _ => { c with parked := some v }
  | none => { c with vs := v }

/-- A local-store write by the message unit or an engine at core `k`: immediate, and not undone by an abort, so what it reports
(17 R309) stands at the replay point too. -/
def State.lsRemote (s : State) (k a : Nat) (bs : List Byte) : State :=
  s.modCore k (fun c =>
    let c' := c.setHome (c.home.lsStore a bs)
    if c.parked.isSome then c' else { c' with point := { c.point with csr := c.point.csr.lsReport a bs.length } })

/-- The report of a read of the local store by the message unit at core `k` (17 R309, R325). -/
def State.lsReport (s : State) (k a n : Nat) : State :=
  s.modCore k (fun c =>
    let c' := c.setHome { c.home with csr := c.home.csr.lsReport a n }
    if c.parked.isSome then c' else { c' with point := { c.point with csr := c.point.csr.lsReport a n } })

/-- Whether core `k`'s firing is one of the fault actor (05 R462). -/
def Core.svc (c : Core) : Bool := match c.firing with | some f => f.svc | none => false

/-- The launch that the sends of core `k` resolve in: its group's, or for a firing of the fault actor that of its event. -/
def Core.sendLaunch (c : Core) : Option Nat := match c.firing with
  | some f => if f.svc then f.launch else c.launch
  | none => c.launch

/-- The group-coordinate source (03 R57). -/
def Core.gcoordNow (c : Core) : Word := if c.svc then 0 else c.gcoord

/-- The number that stands for no launch: launch numbers have 32 bits (06 R112). -/
def noLaunch : Nat := 2 ^ 32

/-- A virtual core's position from the group-coordinate source (03 R57). -/
def Core.here (c : Core) : VCore := ⟨c.sendLaunch.getD noLaunch, fld c.gcoordNow 11 0, fld c.gcoordNow 27 16⟩

/-- Set the flag of early commitment of core `k`'s firing (21 R412). -/
def State.commit (s : State) (k : Nat) : State := s.modCore k (fun c => { c with committed := true })

end Sys2Proof.Machine
end

