-- ==== Sys2Proof/Machine/Flags.lean ====
section
/-! DEFINITION. The status bits of FSTAT (04 R79) and the rounding of an exact value with the bits it sets (04 R70-R78, R82-R83).
An exact value is a sign, a natural mantissa and a power of two; `sticky` says that the true magnitude lies strictly between the
mantissa and the next one. -/

namespace Sys2Proof.Machine

/-! ### FSTAT (R79) -/

/-- Sticky bits gathered by one operation, in FSTAT's places. -/
abbrev Sticky := BitVec 6
/-- Invalid. -/
def fNV : Sticky := 1
/-- Division by zero. -/
def fDZ : Sticky := 2
/-- Overflow. -/
def fOF : Sticky := 4
/-- Underflow. -/
def fUF : Sticky := 8
/-- Inexact. -/
def fNX : Sticky := 16
/-- Masked special. -/
def fMS : Sticky := 32

/-- Set sticky bits in FSTAT; the core never clears one (R79). -/
def VState.raise (r : VState) (f : Sticky) : VState := { r with csr := { r.csr with fstat := r.csr.fstat ||| f.setWidth 64 } }

/-- A Boolean's sticky bit. -/
def when (b : Bool) (f : Sticky) : Sticky := if b then f else 0

/-! ### Formats (R70, R73) -/

/-- The floating-point formats. -/
inductive Fmt where
  | f64 | f32 | bf16 | f16 | e4m3 | e5m2
  deriving DecidableEq, Repr

/-- Exponent bits. -/
def Fmt.eb : Fmt → Nat
  | .f64 => 11 | .f32 => 8 | .bf16 => 8 | .f16 => 5 | .e4m3 => 4 | .e5m2 => 5
/-- Fraction bits. -/
def Fmt.fb : Fmt → Nat
  | .f64 => 52 | .f32 => 23 | .bf16 => 7 | .f16 => 10 | .e4m3 => 3 | .e5m2 => 2
/-- Bias. -/
def Fmt.bias : Fmt → Nat
  | .f64 => 1023 | .f32 => 127 | .bf16 => 127 | .f16 => 15 | .e4m3 => 7 | .e5m2 => 15
/-- The canonical NaN. -/
def Fmt.nan : Fmt → Nat
  | .f64 => 0x7FF8000000000000 | .f32 => 0x7FC00000 | .bf16 => 0x7FC0 | .f16 => 0x7E00 | .e4m3 => 0x7F | .e5m2 => 0x7E
/-- Width in bits. -/
def Fmt.width (f : Fmt) : Nat := 1 + f.eb + f.fb
/-- The sign bit's value. -/
def Fmt.signBit (f : Fmt) (neg : Bool) : Nat := if neg then 2 ^ (f.eb + f.fb) else 0
/-- An infinity; E4M3 has none and its overflows never ask for one. -/
def Fmt.inf (f : Fmt) (neg : Bool) : Nat := f.signBit neg + (2 ^ f.eb - 1) * 2 ^ f.fb
/-- The largest finite magnitude. -/
def Fmt.max (f : Fmt) (neg : Bool) : Nat := f.signBit neg + (if f = .e4m3 then 0x7E else (2 ^ f.eb - 1) * 2 ^ f.fb - 1)
/-- The exponent of the smallest normal. -/
def Fmt.emin (f : Fmt) : Int := 1 - f.bias

/-- A decoded value: a NaN, signalling or quiet; an infinity; a finite (-1)^neg m 2^e. -/
inductive FVal where
  | nan (signalling : Bool)
  | inf (neg : Bool)
  | fin (neg : Bool) (m : Nat) (e : Int)
  deriving DecidableEq, Repr

/-- The value of a bit pattern (R70). -/
def Fmt.decode (f : Fmt) (bits : Nat) : FVal :=
  let neg := decide (bits / 2 ^ (f.eb + f.fb) % 2 = 1)
  let x := bits / 2 ^ f.fb % 2 ^ f.eb
  let fr := bits % 2 ^ f.fb
  if f = .e4m3 ∧ x = 15 ∧ fr = 7 then .nan false
  else if f ≠ .e4m3 ∧ x = 2 ^ f.eb - 1 then
    if fr = 0 then .inf neg else .nan (decide (fr < 2 ^ (f.fb - 1)))
  else if x = 0 then .fin neg fr (f.emin - f.fb)
  else .fin neg (fr + 2 ^ f.fb) ((x : Int) - f.bias - f.fb)

/-- Whether a value is a NaN. -/
def FVal.isNan : FVal → Bool
  | .nan _ => true
  | _ => false
/-- Whether a value is a signalling NaN. -/
def FVal.isSnan : FVal → Bool
  | .nan b => b
  | _ => false
/-- The value with its sign inverted; a NaN stays. -/
def FVal.neg : FVal → FVal
  | .nan b => .nan b
  | .inf n => .inf (!n)
  | .fin n m e => .fin (!n) m e

/-! ### Rounding (R77-R78) -/

/-- Whether a discarded part makes the magnitude grow: `rest` against `half`, with `sticky` below. -/
def roundsUp (rm : RM) (neg odd : Bool) (rest half : Nat) (sticky : Bool) : Bool := match rm with
  | .rne => decide (half < rest) || (decide (rest = half) && (sticky || odd))
  | .rtz => false
  | .rup => !neg && (decide (rest ≠ 0) || sticky)
  | .rdn => neg && (decide (rest ≠ 0) || sticky)

/-- m 2^e rounded to a multiple of 2^q: the multiplier, and whether it is inexact. -/
def roundTo (rm : RM) (neg : Bool) (m : Nat) (e q : Int) (sticky : Bool) : Nat × Bool :=
  let (m, e) := if sticky ∧ q ≤ e then (2 * m * 2 ^ (e - q).toNat, q - 1) else (m, e)
  if q ≤ e then (m * 2 ^ (e - q).toNat, false)
  else
    let sh := (q - e).toNat
    let n := m / 2 ^ sh
    let rest := m % 2 ^ sh
    (n + (roundsUp rm neg (decide (n % 2 = 1)) rest (2 ^ (sh - 1)) sticky).toNat, decide (rest ≠ 0) || sticky)

/-- The overflow table of R78. -/
def overflow (f : Fmt) (rm : RM) (sat neg : Bool) : Nat :=
  if sat ∨ f = .e4m3 then f.max neg
  else match rm with
    | .rne => f.inf neg
    | .rtz => f.max neg
    | .rup => if neg then f.max true else f.inf false
    | .rdn => if neg then f.inf true else f.max false

/-- The bits of n 2^q, which the format represents (q is the spacing at n). -/
def Fmt.pack (f : Fmt) (neg : Bool) (n : Nat) (q : Int) : Nat :=
  if n < 2 ^ f.fb then f.signBit neg + n
  else f.signBit neg + (q + f.fb + f.bias).toNat * 2 ^ f.fb + (n - 2 ^ f.fb)

/-- Round(x, fmt, mode) of a finite x with the sticky bits (R77-R78). A zero keeps the sign the operation gives it. DEDUCED (log entry 15): the
example of R83 that gives 300.0 as 0x7E with OF and NX contradicts R70 and R77, by which it is 288.0, 0x79 with NX; the rules are followed. -/
def roundFin (f : Fmt) (rm : RM) (sat neg : Bool) (m : Nat) (e : Int) (sticky : Bool) : Nat × Sticky :=
  if m = 0 ∧ !sticky then (f.signBit neg, 0)
  else
    let top : Int := e + (Nat.log2 m : Int)
    let q := Max.max (top - f.fb) (f.emin - f.fb)
    let (n, inexact) := roundTo rm neg m e q sticky
    let (n, q) := if 2 ^ (f.fb + 1) ≤ n then (n / 2, q + 1) else (n, q)
    let emax : Int := if f = .e4m3 then 8 else (2 ^ f.eb : Int) - 2 - f.bias
    if emax < q + f.fb ∧ 2 ^ f.fb ≤ n ∨ (f = .e4m3 ∧ q + f.fb = 8 ∧ 14 < n) then (overflow f rm sat neg, fOF ||| fNX)
    else
      let tiny := decide (top < f.emin) &&
        decide ((roundTo rm neg m e (top - f.fb) sticky).1 < 2 ^ (f.emin - top + f.fb).toNat)
      (f.pack neg n q, when inexact fNX ||| when (inexact && tiny) fUF)

end Sys2Proof.Machine
end

