-- ==== Sys2Proof/Machine/Float.lean ====
section
/-! DEFINITION. Exact floating-point operations and their rounded forms (18 R335-R339, 04 R85, R91), and conversions
(04 R82-R83). Every function takes and gives bit patterns as naturals, with the sticky bits it raises. -/

namespace Sys2Proof.Machine

/-- An exact result: a value, the bits the operation itself raises, whether the true magnitude exceeds the value's. -/
structure Exact where
  val : FVal
  flags : Sticky
  sticky : Bool
  deriving DecidableEq, Repr

/-- An exact value as a signed integer times 2^e, for a common exponent. -/
def signedAt (neg : Bool) (m : Nat) (e c : Int) : Int :=
  let v : Int := (m : Int) * 2 ^ (e - c).toNat
  if neg then -v else v

/-- The bit of a signalling NaN operand (R71). -/
def snanBit (a b : FVal) : Sticky := when (a.isSnan || b.isSnan) fNV

/-- a + b exactly. A zero that two non-zero terms form is +0 here; `roundSum` gives it its sign. -/
def addE (a b : FVal) : Exact := match a, b with
  | .nan x, _ => ⟨.nan false, when (x || b.isSnan) fNV, false⟩
  | _, .nan x => ⟨.nan false, when x fNV, false⟩
  | .inf x, .inf y => if x = y then ⟨.inf x, 0, false⟩ else ⟨.nan false, fNV, false⟩
  | .inf x, _ => ⟨.inf x, 0, false⟩
  | _, .inf y => ⟨.inf y, 0, false⟩
  | .fin na ma ea, .fin nb mb eb =>
    if ma = 0 ∧ mb = 0 then ⟨.fin (na && nb) 0 0, 0, false⟩
    else
      let c := min ea eb
      let v := signedAt na ma ea c + signedAt nb mb eb c
      ⟨.fin (decide (v < 0)) v.natAbs c, 0, false⟩

/-- a × b exactly. -/
def mulE (a b : FVal) : Exact := match a, b with
  | .nan x, _ => ⟨.nan false, when (x || b.isSnan) fNV, false⟩
  | _, .nan x => ⟨.nan false, when x fNV, false⟩
  | .inf x, .inf y => ⟨.inf (x != y), 0, false⟩
  | .inf x, .fin n m _ => if m = 0 then ⟨.nan false, fNV, false⟩ else ⟨.inf (x != n), 0, false⟩
  | .fin n m _, .inf y => if m = 0 then ⟨.nan false, fNV, false⟩ else ⟨.inf (n != y), 0, false⟩
  | .fin na ma ea, .fin nb mb eb => ⟨.fin (na != nb) (ma * mb) (ea + eb), 0, false⟩

/-- The quotient of two magnitudes with at least 66 bits, and whether a remainder is left. -/
def quotient (ma mb : Nat) : Nat × Int × Bool :=
  let k := 66 + Nat.log2 mb - Nat.log2 ma
  (ma * 2 ^ k / mb, -(k : Int), decide (ma * 2 ^ k % mb ≠ 0))

/-- a ÷ b. -/
def divE (a b : FVal) : Exact := match a, b with
  | .nan x, _ => ⟨.nan false, when (x || b.isSnan) fNV, false⟩
  | _, .nan x => ⟨.nan false, when x fNV, false⟩
  | .inf _, .inf _ => ⟨.nan false, fNV, false⟩
  | .inf x, .fin n _ _ => ⟨.inf (x != n), 0, false⟩
  | .fin n _ _, .inf y => ⟨.fin (n != y) 0 0, 0, false⟩
  | .fin na ma ea, .fin nb mb eb =>
    if mb = 0 then (if ma = 0 then ⟨.nan false, fNV, false⟩ else ⟨.inf (na != nb), fDZ, false⟩)
    else if ma = 0 then ⟨.fin (na != nb) 0 0, 0, false⟩
    else
      let (q, k, st) := quotient ma mb
      ⟨.fin (na != nb) q (ea - eb + k), 0, st⟩

/-- √a. -/
def sqrtE (a : FVal) : Exact := match a with
  | .nan x => ⟨.nan false, when x fNV, false⟩
  | .inf n => if n then ⟨.nan false, fNV, false⟩ else ⟨.inf false, 0, false⟩
  | .fin n m e =>
    if m = 0 then ⟨.fin n 0 0, 0, false⟩
    else if n then ⟨.nan false, fNV, false⟩
    else
      let m1 := if e % 2 = 0 then m else 2 * m
      let e1 := if e % 2 = 0 then e else e - 1
      let x := m1 * 2 ^ 140
      let r := Nat.sqrt x
      ⟨.fin false r (e1 / 2 - 70), 0, decide (r * r ≠ x)⟩

/-- Deliver an exact result in a format: a NaN is the canonical one (R71); an infinity keeps, or under .SAT and in E4M3 becomes
±max with OF and NX (R78). -/
def deliver (f : Fmt) (rm : RM) (sat : Bool) (x : Exact) : Nat × Sticky := match x.val with
  | .nan _ => (f.nan, x.flags)
  | .inf n => if sat ∨ f = .e4m3 then (f.max n, x.flags ||| fOF ||| fNX) else (f.inf n, x.flags)
  | .fin n m e => let (b, g) := roundFin f rm sat n m e x.sticky; (b, x.flags ||| g)

/-- Whether a value is a zero. -/
def FVal.isZero : FVal → Bool
  | .fin _ m _ => decide (m = 0)
  | _ => false
/-- The sign of a value that is not a NaN. -/
def FVal.isNeg : FVal → Bool
  | .nan _ => false
  | .inf n => n
  | .fin n _ _ => n

/-- Deliver a sum of two values: an exact zero of non-zero terms, or of zeros of opposite signs, is +0, or −0 under .RDN
(18 R335). -/
def roundSum (f : Fmt) (rm : RM) (sat : Bool) (a b : FVal) (flags : Sticky) : Nat × Sticky :=
  let x := addE a b
  let x := { x with flags := x.flags ||| flags }
  if x.val.isZero then
    let neg := if a.isZero ∧ b.isZero ∧ a.isNeg = b.isNeg then a.isNeg else decide (rm = .rdn)
    (f.signBit neg, x.flags)
  else deliver f rm sat x

/-- a + b in a format. -/
def fadd (f : Fmt) (rm : RM) (sat : Bool) (a b : Nat) : Nat × Sticky := roundSum f rm sat (f.decode a) (f.decode b) 0
/-- a − b. -/
def fsub (f : Fmt) (rm : RM) (sat : Bool) (a b : Nat) : Nat × Sticky := roundSum f rm sat (f.decode a) (f.decode b).neg 0
/-- a × b. -/
def fmul (f : Fmt) (rm : RM) (sat : Bool) (a b : Nat) : Nat × Sticky := deliver f rm sat (mulE (f.decode a) (f.decode b))
/-- a ÷ b. -/
def fdiv (f : Fmt) (rm : RM) (sat : Bool) (a b : Nat) : Nat × Sticky := deliver f rm sat (divE (f.decode a) (f.decode b))
/-- √a. -/
def fsqrt (f : Fmt) (rm : RM) (sat : Bool) (a : Nat) : Nat × Sticky := deliver f rm sat (sqrtE (f.decode a))
/-- a × b + d, or d − a × b, with one rounding. -/
def ffma (f : Fmt) (rm : RM) (sat negate : Bool) (a b d : Nat) : Nat × Sticky :=
  let p := mulE (f.decode a) (f.decode b)
  roundSum f rm sat (if negate then p.val.neg else p.val) (f.decode d) p.flags

/-- Whether a < b for two values that are no NaNs, zeros of either sign being equal. -/
def FVal.lt (a b : FVal) : Bool := match a, b with
  | .inf x, .inf y => x && !y
  | .inf x, _ => x
  | _, .inf y => !y
  | .fin na ma ea, .fin nb mb eb => decide (signedAt na ma ea (min ea eb) < signedAt nb mb eb (min ea eb))
  | _, _ => false
/-- Whether a = b for two values that are no NaNs. -/
def FVal.eqv (a b : FVal) : Bool := !a.lt b && !b.lt a
/-- Whether a stands below b with −0 below +0 (04 R91). -/
def FVal.below (a b : FVal) : Bool := a.lt b || (a.eqv b && a.isNeg && !b.isNeg)

/-- The minimum or maximum of R91 and R336. -/
def fminmax (f : Fmt) (mx : Bool) (a b : Nat) : Nat × Sticky :=
  let x := f.decode a
  let y := f.decode b
  let g := snanBit x y
  if x.isNan ∧ y.isNan then (f.nan, g)
  else if x.isNan then (b, g)
  else if y.isNan then (a, g)
  else if mx then (if x.below y then b else a, g) else (if y.below x then b else a, g)

/-- VFABS and VFNEG (18 R336). -/
def fsign (f : Fmt) (negate : Bool) (a : Nat) : Nat × Sticky :=
  let top := 2 ^ (f.eb + f.fb)
  match f.decode a with
  | .nan x => (f.nan, when x fNV)
  | _ => if negate then (if a / top % 2 = 1 then a - top else a + top, 0) else (a % top, 0)

/-- VFCLASS: the number with one bit set (18 R336). -/
def fclass (f : Fmt) (a : Nat) : Nat := match f.decode a with
  | .nan x => if x then 256 else 512
  | .inf n => if n then 1 else 128
  | .fin n m _ =>
    if m = 0 then (if n then 8 else 16)
    else if m < 2 ^ f.fb then (if n then 4 else 32)
    else (if n then 2 else 64)

/-- The predicates of VFCMP by their code (18 R337): the result and the NV bit. -/
def fcmp (f : Fmt) (code a b : Nat) : Bool × Sticky :=
  let x := f.decode a
  let y := f.decode b
  let un := x.isNan || y.isNan
  match code with
  | 0 => (!un && x.eqv y, snanBit x y)
  | 1 => (!un && x.lt y, when un fNV)
  | 2 => (!un && (x.lt y || x.eqv y), when un fNV)
  | 3 => (un, snanBit x y)
  | _ => (un || !x.eqv y, snanBit x y)

/-- Whether (m 2^e)^pw × v = 1 for a delivered pattern (m, e) and an operand v = mo 2^eo: the test of NX in R338-R339. -/
def reciprocalExact (f : Fmt) (r pw mo : Nat) (eo : Int) : Bool := match f.decode r with
  | .fin _ m e =>
    let t := (pw : Int) * e + eo
    decide (m ≠ 0) && decide (t ≤ 0) && decide (m ^ pw * mo = 2 ^ (-t).toNat)
  | _ => false

/-- VFRCP (18 R338). -/
def frcp (sat : Bool) (a : Nat) : Nat × Sticky := match Fmt.f32.decode a with
  | .nan x => (Fmt.f32.nan, when x fNV)
  | .inf n => (Fmt.f32.signBit n, 0)
  | .fin n m e =>
    if m = 0 then (if sat then (Fmt.f32.max n, fDZ ||| fOF ||| fNX) else (Fmt.f32.inf n, fDZ))
    else
      let k := Nat.log2 m                              -- |a| = 2^(e+k) × m / 2^k
      let j := (m - 2 ^ k) * 2 ^ 8 / 2 ^ k
      let t := (2 ^ 20 + (513 + 2 * j)) / (2 * (513 + 2 * j))
      -- r0 (2 - m r0) 2^16 with r0 = t / 2^10 and the mantissa m / 2^k
      let r1 := t * (2 ^ (k + 11) - m * t) / 2 ^ (k + 4)
      let (r, g) := roundFin .f32 .rne sat n r1 (-16 - (e + k)) false
      (r, (g &&& ~~~fNX) ||| when (!reciprocalExact .f32 r 1 m e) fNX)

/-- VFRSQ (18 R339). -/
def frsq (sat : Bool) (a : Nat) : Nat × Sticky := match Fmt.f32.decode a with
  | .nan x => (Fmt.f32.nan, when x fNV)
  | .inf n => if n then (Fmt.f32.nan, fNV) else (0, 0)
  | .fin n m e =>
    if m = 0 then (if sat then (Fmt.f32.max n, fDZ ||| fOF ||| fNX) else (Fmt.f32.inf n, fDZ))
    else if n then (Fmt.f32.nan, fNV)
    else
      let w := Nat.log2 m
      let ex := e + w
      let k := ex / 2                                  -- a = 2^(2k) × m 2^p / 2^w
      let p := (ex % 2).toNat
      let j := (m - 2 ^ w) * 2 ^ 7 / 2 ^ w
      -- 2^10 / √(q / 2^8) + 1/2 with q = (2^8 + 2j + 1) 2^p: the greatest t with (2t - 1)^2 q ≤ 2^30
      let q := (257 + 2 * j) * 2 ^ p
      let t := (Nat.sqrt (2 ^ 30 / q) + 1) / 2
      let r1 := t * (3 * 2 ^ (w + 20) - m * 2 ^ p * t * t) / 2 ^ (w + 15)
      let (r, g) := roundFin .f32 .rne sat false r1 (-16 - k) false
      (r, (g &&& ~~~fNX) ||| when (!reciprocalExact .f32 r 2 m e) fNX)

/-! ### Conversions (04 R82-R83) -/

/-- RoundInt of an exact magnitude: the integer and whether it is inexact. -/
def roundInt (rm : RM) (neg : Bool) (m : Nat) (e : Int) (sticky : Bool) : Int × Bool :=
  let (n, x) := roundTo rm neg m e 0 sticky
  (if neg then -(n : Int) else n, x)

/-- The range of an integer format of width w. -/
def intRange (signed : Bool) (w : Nat) : Int × Int := if signed then (-(2 ^ (w - 1) : Int), 2 ^ (w - 1) - 1) else (0, 2 ^ w - 1)

/-- An integer clamped to a range. -/
def clampTo (r : Int × Int) (v : Int) : Int := if v < r.1 then r.1 else if r.2 < v then r.2 else v

/-- An integer's low w bits. -/
def narrow (w : Nat) (v : Int) : Nat := (v % 2 ^ w).toNat

/-- Float to integer (R82). -/
def cvtToInt (signed : Bool) (w : Nat) (rm : RM) (sat : Bool) (x : FVal) : Nat × Sticky :=
  let (lo, hi) := intRange signed w
  match x with
  | .nan _ => (narrow w (if sat then 0 else lo), fNV)
  | .inf n => (narrow w (if sat ∧ !n then hi else lo), fNV)
  | .fin n m e =>
    let (v, inx) := roundInt rm n m e false
    if v < lo ∨ hi < v then (narrow w (if sat then (if v < lo then lo else hi) else lo), fNV)
    else (narrow w v, when inx fNX)

/-- A value converted to a float format (R82). -/
def cvtFloat (dst : Fmt) (rm : RM) (sat : Bool) (x : FVal) : Nat × Sticky :=
  deliver dst rm sat ⟨x, when x.isSnan fNV, false⟩

/-- Float to float, from a format's pattern (R82). DEDUCED (log entry 15): the row of a wider destination gives an infinity even under .SAT, where R78
says ±max of every converted infinity; formats of equal width count as narrower. -/
def cvtFmt (src dst : Fmt) (rm : RM) (sat : Bool) (x : Nat) : Nat × Sticky :=
  cvtFloat dst rm (sat && decide (dst.width ≤ src.width)) (src.decode x)

/-- A lane that a tree passed on unchanged (R87) as the operation delivers it: a NaN is the canonical one, with NV for a signalling one (R71).
DEDUCED (log entry 15): R71 speaks of what is delivered, R87 of what a node passes on. -/
def Fmt.settle (f : Fmt) (x : Nat) : Nat × Sticky := match f.decode x with
  | .nan s => (f.nan, when s fNV)
  | _ => (x, 0)

/-- Integer to float (R82). -/
def cvtFromInt (dst : Fmt) (rm : RM) (sat : Bool) (v : Int) : Nat × Sticky := roundFin dst rm sat (decide (v < 0)) v.natAbs 0 false

/-- Integer of width `from_` to integer of width w (R82): a wider destination extends, also under .SAT. DEDUCED (log entry 15): equal widths, which no
row names, count as narrower. -/
def cvtInt (signed : Bool) (from_ w : Nat) (sat : Bool) (v : Int) : Nat :=
  narrow w (if sat ∧ w ≤ from_ then clampTo (intRange signed w) v else v)

/-- Quantising to a code of n bits (R83), with an FP16 scale and an integer zero point. -/
def quantise (n : Nat) (rm : RM) (scale : Nat) (z : Int) (x : FVal) : Nat × Sticky :=
  let top : Int := 2 ^ n - 1
  let clampZ : Nat × Sticky :=
    (narrow n (clampTo (0, top) z), fNV ||| when (decide (z < 0 ∨ top < z)) (fOF ||| fNX))
  match x, Fmt.f16.decode scale with
  | .nan _, _ => clampZ
  | _, .nan _ => clampZ
  | _, .inf _ => clampZ
  | .inf n', .fin sn sm _ =>
    if sm = 0 then clampZ else (if n' != sn then 0 else top.toNat, fOF ||| fNX)
  | .fin xn xm xe, .fin sn sm se =>
    if sm = 0 then clampZ
    else
      let (v, inx) :=
        if xm = 0 then ((0 : Int), false)
        else
          let (q, k, st) := quotient xm sm
          roundInt rm (xn != sn) q (xe - se + k) st
      let c := v + z
      (narrow n (clampTo (0, top) c), when inx fNX ||| when (decide (c < 0 ∨ top < c)) (fOF ||| fNX))

/-- The format of a floating-point element type. -/
def Fmt.ofVTy : VTy → Option Fmt
  | .e4m3 => some .e4m3 | .e5m2 => some .e5m2 | .f16 => some .f16 | .bf16 => some .bf16 | .f32 => some .f32 | .f64 => some .f64
  | _ => none

end Sys2Proof.Machine
end

