-- ==== Sys2Proof/Machine/Rings.lean ====
section
/-! DEFINITION. What the device tells the host and the fault actor: the four rings of a context (06 R120-R121), dead letters
and context events (05 R99-R101), and the gauges' samples (23 R432-R433). -/

namespace Sys2Proof.Machine

/-- The number of a fault code or context event kind (05 R99, 22 R419). -/
def FCode.code : FCode → Nat
  | .illegal => 0x01 | .prefixBad => 0x02 | .capTag => 0x03 | .capPerm => 0x04 | .capBounds => 0x05 | .page => 0x06
  | .pageLoop => 0x07 | .align => 0x08 | .hdrCheck => 0x09 | .hdrMismatch => 0x0A | .hdrUnsupported => 0x0B
  | .tileUnconf => 0x0C | .handleStale => 0x0D | .specFull => 0x0E | .phaseOverflow => 0x0F | .divzero => 0x10
  | .trapd => 0x11 | .peerLost => 0x12 | .laybyFull => 0x13 | .brk => 0x14 | .soft => 0x15 | .stream => 0x16
  | .engine => 0x17 | .nbvUnsupported => 0x18 | .mcheck => 0x19 | .emptyHandler => 0x40 | .dieLost => 0x41

/-- The fault code of a number 0x01-0x19 (20 R387). -/
def FCode.ofCode : Nat → Option FCode
  | 0x01 => some .illegal | 0x02 => some .prefixBad | 0x03 => some .capTag | 0x04 => some .capPerm | 0x05 => some .capBounds
  | 0x06 => some .page | 0x07 => some .pageLoop | 0x08 => some .align | 0x09 => some .hdrCheck | 0x0A => some .hdrMismatch
  | 0x0B => some .hdrUnsupported | 0x0C => some .tileUnconf | 0x0D => some .handleStale | 0x0E => some .specFull
  | 0x0F => some .phaseOverflow | 0x10 => some .divzero | 0x11 => some .trapd | 0x12 => some .peerLost
  | 0x13 => some .laybyFull | 0x14 => some .brk | 0x15 => some .soft | 0x16 => some .stream | 0x17 => some .engine
  | 0x18 => some .nbvUnsupported | 0x19 => some .mcheck
  | _ => none

/-- Which kind of fault goes first within one instruction (22 R421); the codes R421 does not list come last. -/
def FCode.rank : FCode → Nat
  | .prefixBad => 0 | .illegal => 1 | .capTag => 2 | .capPerm => 3 | .capBounds => 4 | .handleStale => 5 | .specFull => 6
  | .align => 7 | .page => 8 | .mcheck => 9 | .hdrCheck => 10 | .tileUnconf => 11 | .hdrUnsupported => 12
  | .hdrMismatch => 13 | .stream => 14 | .nbvUnsupported => 15 | .divzero => 16 | .engine => 17 | .trapd => 18
  | _ => 19

/-! ### MODEMAP (05 R97) -/

/-- SCHED. -/
def Ctx.sched (c : Ctx) : Bool := fbit c.modemap 0
/-- PROMOTE. -/
def Ctx.promote (c : Ctx) : Bool := fbit c.modemap 4
/-- EVOVF. -/
def Ctx.evovf (c : Ctx) : Bool := fbit c.modemap 6
/-- LAYBYM. -/
def Ctx.laybym (c : Ctx) : Bool := fbit c.modemap 7
/-- TLBFILL, as a core has taken it. -/
def Core.tlbfill (c : Core) : Bool := fbit c.mode 1
/-- FAULTSVC, as a core has taken it. -/
def Core.faultsvc (c : Core) : Nat := fld c.mode 3 2
/-- SPECMODE, as a core has taken it. -/
def Core.specmode (c : Core) : Bool := fbit c.mode 5

/-! ### Gauges (23 R432-R433) -/

/-- The reset of a unit by a write of SRC or CLR: every field but SRC and BIN (R433). -/
def Gauge.clear (g : Gauge) : Gauge := { Gauge.reset with src := g.src, sel := g.sel }

/-! ### Rings (06 R120) -/

/-- A context's ring of a kind. -/
def Ctx.ring (c : Ctx) : RingKind → RingSt
  | .deadLetter => c.dl
  | .hostQueue => c.hq
  | .errorQueue => c.eq
  | .service => c.sv
/-- Replace a ring. -/
def Ctx.setRing (c : Ctx) (r : RingKind) (x : RingSt) : Ctx := match r with
  | .deadLetter => { c with dl := x }
  | .hostQueue => { c with hq := x }
  | .errorQueue => { c with eq := x }
  | .service => { c with sv := x }

/-- The bytes of a record: 128 on the dead-letter ring, 64 on the others. -/
def ringSize : RingKind → Nat
  | .deadLetter => 128
  | _ => 64

/-- Whether the device may write a record, as it last read RCOUNT. -/
def RingSt.room (r : RingSt) : Bool := decide ((r.wcount - r.rcount).toNat < 2 ^ r.log)

/-- Write doublewords at a virtual address of a context, each translated; none where one of them has no translation. -/
def State.writeVa (s : State) (ctx : Nat) (va : Word) : List Word → Option State
  | [] => some s
  | w :: t => match s.plinthPa ctx .write va with
    | some pa => (s.writeWord pa w).writeVa ctx (va + 8) t
    | none => none

/-- Write one record, then WCOUNT, as a release of the record; none where the ring is full or its memory does not answer. -/
def State.ringWrite (s : State) (ctx : Nat) (k : RingKind) (rec : List Word) : Option State :=
  let r := (s.ctx ctx).ring k
  if !r.room then none else
  match s.writeVa ctx (r.base + 64 + BitVec.ofNat 64 (ringSize k * (r.wcount.toNat % 2 ^ r.log))) rec with
  | none => none
  | some s1 =>
    match s1.writeVa ctx r.base [r.wcount + 1] with
    | none => none
    | some s2 => some (s2.modCtx ctx (fun c => c.setRing k { c.ring k with wcount := r.wcount + 1 }))

/-- The WCOUNT value that the next record of a ring takes: its index, and its SEQ mod 2^32. -/
def RingSt.next (r : RingSt) : Nat := r.wcount.toNat + r.waiting.length

/-- Post a record, or hold it in the Plinth's memory table, in order, while the ring is full. -/
def State.ringPost (s : State) (ctx : Nat) (k : RingKind) (rec : List Word) : State :=
  let hold : State := s.modCtx ctx (fun c => c.setRing k { c.ring k with waiting := (c.ring k).waiting ++ [rec] })
  if ((s.ctx ctx).ring k).waiting.isEmpty then (s.ringWrite ctx k rec).getD hold else hold

/-- Write the records that waited, in order, while there is room; the argument bounds their number. -/
def State.ringFlush (ctx : Nat) (k : RingKind) : Nat → State → State
  | 0, s => s
  | n + 1, s => match ((s.ctx ctx).ring k).waiting with
    | [] => s
    | rec :: t => match s.ringWrite ctx k rec with
      | none => s
      | some s' => State.ringFlush ctx k n (s'.modCtx ctx (fun c => c.setRing k { c.ring k with waiting := t }))

/-- Doublewords padded with zeros to n. -/
def padTo (n : Nat) (l : List Word) : List Word := l ++ List.replicate (n - l.length) 0

/-- The record of a source on the error queue: D0 holds the source and SEQ (06 R120). -/
def State.errorRecord (s : State) (ctx source : Nat) (d : List Word) : State :=
  s.ringPost ctx .errorQueue
    (padTo 8 (BitVec.ofNat 64 (source + (s.ctx ctx).eq.next % 2 ^ 32 * 2 ^ 32) :: d))

/-- A record on the service ring with what its answer is for; the SEQ under which it stands comes with it (06 R121). -/
def State.serviceRecord (s : State) (ctx kind : Nat) (d : List Word) (ask : Option Ask) : Nat × State :=
  let seq := (s.ctx ctx).sv.next % 2 ^ 32
  let s1 := s.ringPost ctx .service (padTo 8 (BitVec.ofNat 64 (kind + seq * 2 ^ 32) :: d))
  (seq, match ask with
    | some a => s1.modCtx ctx (fun c => { c with asks := Table.insert c.asks seq a })
    | none => s1)

/-! ### HALTED, events, dead letters (05 R99-R101) -/

/-- Nothing of a context is stopped for a STOPW any more: its cores are asked to stop no longer, and a STOPW that found another in
progress, or that had not completed, is executed again (05 R102). -/
def State.freeWorld (s : State) (ctx : Nat) : State :=
  let s1 := s.modCtx ctx (fun x => { x with stopper := none })
  let end_ (f : Firing) : Firing := { f with stopping := false }
  { s1 with cores := s1.cores.map (fun p =>
      if p.2.ctx = some ctx then
        (p.1, { p.2 with
          firing := p.2.firing.map end_, matched := p.2.matched.map end_, ready := p.2.ready.map end_,
          aborted := p.2.aborted.map (fun a => { a with firing := end_ a.firing }),
          preempt := if p.2.preempt.any (fun q => decide (q.reason = .stopw)) then none else p.2.preempt,
          run := match p.2.run with | .waiting .world _ => .running | r => r })
      else p) }

/-- A context is LIVE again: the time for which it was not does not count against its launches' quanta (05 R102, 08 R153). -/
def State.liveAgain (s : State) (ctx : Nat) : State :=
  let gap := s.time - (s.ctx ctx).pausedAt
  { s.modCtx ctx (fun x => { x with state := .live }) with
    launches := s.launches.map (fun p => (p.1, if p.2.ctx = ctx ∧ p.2.live then { p.2 with since := p.2.since + gap } else p.2)) }

/-- The world goes on: the context is LIVE again where it was STOPPED. -/
def State.wakeWorld (s : State) (ctx : Nat) : State :=
  let s1 := s.freeWorld ctx
  if (s1.ctx ctx).state = .stopped then s1.liveAgain ctx else s1

/-- The context enters HALTED with a cause (05 R101), from LIVE or from STOPPED (DEDUCED, log entry 43), and its error queue receives the record. A stop
of the world ends with it: "no stopping firing". -/
def State.haltCtx (s : State) (ctx cause : Nat) : State :=
  let halt (at_ : Word) : State := ((s.freeWorld ctx).modCtx ctx (fun c => { c with state := .halted, haltCause := cause, pausedAt := at_ })).errorRecord
    ctx 3 [BitVec.ofNat 64 cause]
  match (s.ctx ctx).state with
  | .live => halt s.time
  | .stopped => halt (s.ctx ctx).pausedAt
  | _ => s

/-- An event of a context, delivered in order by FAULT_ACTOR_FIRE. -/
def State.ctxEvent (s : State) (ctx : Nat) (e : CtxEvent) : State := s.modCtx ctx (fun c => { c with pending := c.pending ++ [e] })

/-- The payload x1-x7 of an event (05 R99). -/
def eventRegs (kind : Nat) (coord : Word) (addr at_ : Word) (early : Bool) (dl : Option Nat) (time : Word) : List Word :=
  [BitVec.ofNat 64 kind, coord, addr, at_, bit early, (dl.map (BitVec.ofNat 64)).getD 0xFFFFFFFFFFFFFFFF, time]

/-- An event that is no fault of a firing. -/
def plainEvent (regs : List Word) (launch : Option Nat) : CtxEvent := { regs, launch, fault := false, fromSvc := false }

/-- MCHECK for a context's fault actor, of an error outside any instruction (22 R424): x4 is 0, x6 all ones. -/
def State.checkEvent (s : State) (ctx : Nat) (coord addr : Word) (launch : Option Nat) : State :=
  s.ctxEvent ctx (plainEvent (eventRegs 0x19 coord addr 0 false none s.time) launch)

/-- Post a dead letter: the eight doublewords of the message, the target, the handler index, the reason, the time; the index of
its record comes with the state. A full ring halts the context (05 R101). -/
def State.deadLetter (s : State) (ctx : Nat) (payload : List Word) (target hidx reason : Word) : Nat × State :=
  let n := (s.ctx ctx).dl.next
  let s1 := s.ringPost ctx .deadLetter (padTo 16 ((padTo 8 (payload.take 8)) ++ [target, hidx, reason, s.time]))
  (n, if (s1.ctx ctx).dl.waiting.isEmpty then s1 else s1.haltCtx ctx 3)

/-- Bits 63:0 of payload registers. -/
def lows (l : List XReg) : List Word := l.map XReg.addr

/-- The target doubleword of a virtual coordinate, for a group without a bound core: bit 63 set (05 R99). -/
def virtualTarget (d : VCore) : Word := BitVec.ofNat 64 (d.vx + d.vy * 2 ^ 16 + 2 ^ 63)

/-- The empty-handler path (09 R160, 10 R173, 17 R300): a dead letter and an EMPTY_HANDLER event with `x3` in x3, met at `coord`. -/
def State.emptyHandler (s : State) (ctx : Nat) (payload : List Word) (target hidx : Word) (coord : Word) (x3 : Word)
    (launch : Option Nat) : State :=
  let (n, s1) := s.deadLetter ctx payload target hidx 0x40
  s1.ctxEvent ctx (plainEvent (eventRegs 0x40 coord x3 0 false (some n) s.time) launch)

/-- The coordinate of a core as a doubleword. -/
def State.coordW (s : State) (k : Nat) : Word := (s.coord k).setWidth 64

end Sys2Proof.Machine
end

