-- ==== Sys2Proof/Machine/Handles.lean ====
section
/-! DEFINITION. The handle table: current handles, running and provisional references, owner references, retiring and freeing
entries, and the pages of code (12 R203-R209); the handler table's entries (09 R159). -/

namespace Sys2Proof.Machine

/-- The fields of a handle value (12 R203). -/
def HRef.of (h : Word) : HRef := ⟨fld h 11 0, BitVec.ofNat 20 (fld h 31 12), BitVec.ofNat 32 (fld h 63 32)⟩
/-- The handle value of its fields. -/
def HRef.value (r : HRef) : Word := BitVec.ofNat 64 (r.index % 4096 + r.gen.toNat * 2 ^ 12 + r.check.toNat * 2 ^ 32)
/-- The capability of a handle: PH alone, its bounds the one byte at ADDR (12 R203). -/
def HRef.cap (r : HRef) : XReg := mkCap r.value 0 0 1 pH

/-- Entry i of a context's handle table. -/
def Ctx.handle (c : Ctx) (i : Nat) : HEntry := Table.get HEntry.empty c.handles i
/-- Replace entry i. -/
def Ctx.setHandle (c : Ctx) (i : Nat) (e : HEntry) : Ctx := { c with handles := Table.insert c.handles i e }
/-- The handle that names an entry now. -/
def HEntry.ref (e : HEntry) (i : Nat) : HRef := ⟨i, e.gen, e.check⟩
/-- Whether a handle is current (12 R206). -/
def Ctx.current (c : Ctx) (r : HRef) : Bool :=
  let e := c.handle r.index
  decide (e.state = .live) && decide (e.gen = r.gen) && decide (e.check = r.check)

/-- The lowest FREE entry (12 R205), trying n entries from i. -/
def Ctx.freeHandleFrom (c : Ctx) : Nat → Nat → Option Nat
  | 0, _ => none
  | n + 1, i => if (c.handle i).state = .free then some i else c.freeHandleFrom n (i + 1)
/-- The lowest FREE entry of a context's table. -/
def Ctx.freeHandle (c : Ctx) : Option Nat := c.freeHandleFrom 4096 0

/-- The check value after this one, skipping 0 (12 R205). -/
def nextCheck (w : BitVec 32) : BitVec 32 := if w + 1 = 0 then 1 else w + 1

/-- FREE to BUILDING: the entry takes the next check value (12 R205). -/
def Ctx.takeHandle (c : Ctx) (i : Nat) : Ctx :=
  { c.setHandle i { c.handle i with state := .building, check := c.checkSeq } with checkSeq := nextCheck c.checkSeq }

/-! ### Pages (13) -/

/-- Map a 64 KiB page of code or data by writing its leaf; the entry must exist (its table is reached). -/
def leafWord (frame : Nat) (pr pw px shr : Bool) : Word :=
  BitVec.ofNat 64 (3 + pr.toNat * 4 + pw.toNat * 8 + px.toNat * 16 + shr.toNat * 32 + frame)

/-- Unmap a 64 KiB page the device has mapped, give its frame back, and drop the translations of it. A page that a promotion has made part of a
2 MiB one stays mapped (log entry 41). -/
def State.unmapPage (s : State) (ctx : Nat) (va : Word) : State :=
  match s.tableWalk ctx va with
  | .leaf at_ l =>
    if l.size ≠ 0 then s
    else (((s.writeWord at_ 0).fenceCode l.frame (l.frame + 65536)).freeFrame l.frame).dropTlb ctx va.toNat (va.toNat + 65536)
  | _ => s

/-- Unmap pages one after another. -/
def State.unmapPages (s : State) (ctx : Nat) : List Word → State
  | [] => s
  | p :: t => (s.unmapPage ctx p).unmapPages ctx t

/-! ### References -/

/-- A RETIRING entry whose RUNNING is 0 is freed, its residual's pages with it; an entry whose GEN has reached 2^20 - 1 never
leaves RETIRING (12 R205). -/
def State.settleHandle (s : State) (ctx i : Nat) : State :=
  let e := (s.ctx ctx).handle i
  if e.state = .retiring ∧ e.running = 0 ∧ e.gen ≠ 0xFFFFF then
    (if e.residual then s.unmapPages ctx ((List.range ((e.words.toNat * 8 + 65535) / 65536)).map
        (fun j => e.codeva + BitVec.ofNat 64 (65536 * j))) else s).modCtx ctx
      (fun c => c.setHandle i { e with state := .free })
  else s

/-- LIVE to RETIRING: GEN moves on (12 R205). -/
def State.retireHandle (s : State) (ctx i : Nat) : State :=
  let e := (s.ctx ctx).handle i
  if e.state = .live then
    (s.modCtx ctx (fun c => c.setHandle i { e with state := .retiring, gen := e.gen + 1 })).settleHandle ctx i
  else s

/-- One more running or provisional reference. -/
def State.addRunning (s : State) (ctx i : Nat) : State :=
  s.modCtx ctx (fun c => c.setHandle i { c.handle i with running := (c.handle i).running + 1 })
/-- One less. -/
def State.dropRunning (s : State) (ctx i : Nat) : State :=
  (s.modCtx ctx (fun c => c.setHandle i { c.handle i with running := (c.handle i).running - 1 })).settleHandle ctx i
/-- Drop references one after another. -/
def State.dropAll (s : State) (ctx : Nat) : List HRef → State
  | [] => s
  | r :: t => (s.dropRunning ctx r.index).dropAll ctx t

/-- The running references of core `k`'s firing. -/
def Core.refs (c : Core) : List HRef := match c.firing with | some f => f.refs | none => []

/-- Whether core `k`'s firing may run the code of a handle: it is current, or the firing holds a running reference taken through
the same handle (12 R206). -/
def State.handlePasses (s : State) (k : Nat) (r : HRef) : Bool :=
  (s.ctx (s.ctxOf k)).current r || decide (r ∈ (s.core k).refs)

/-- Take the running reference of core `k`'s firing on an entry, at most one per entry (12 R207). -/
def State.takeRef (s : State) (k : Nat) (r : HRef) : State :=
  match (s.core k).firing with
  | none => s
  | some f =>
    if f.refs.any (fun x => decide (x.index = r.index)) then s
    else (s.addRunning (s.ctxOf k) r.index).modCore k (fun c => { c with firing := some { f with refs := f.refs ++ [r] } })

/-- The PCC over an entry's words (16 R293, 20 R384): PX and PG. Code within 2^21 granules has exact bounds; longer code the
bounds that CSETB would round to. -/
def codeCap (va : Word) (words : Nat) : XReg := capFor va.toNat (8 * words) (pX + pG)

/-! ### The handler table (09 R159) -/

/-- Entry i of a context's handler table, bits 63:0. -/
def Ctx.handler (c : Ctx) (i : Nat) : Word := Table.get 0 c.handlers i
/-- The bits of an entry that are not reserved: V, KERNEL, ACTOR (R317). -/
def handlerMask : Word := 0x0FFFFFFFFFFF0001

/-- A loaded kernel's actor, with a kernel id below 2^32. -/
def Ctx.kernel (c : Ctx) (id : Nat) : Kernel := Table.get Kernel.absent c.kernels id
/-- Actor a of a kernel. -/
def Kernel.actor? (k : Kernel) (a : Nat) : Option Actor := k.actors[a]?

/-- The actor that a handler-table entry names now, if it can fire: V set, the kernel LOADED, the index below NACTOR (09 R160). -/
def Ctx.bindingOf (c : Ctx) (hidx : Nat) : Option Binding :=
  let w := c.handler hidx
  let b : Binding := ⟨fld w 47 16, fld w 59 48⟩
  if fbit w 0 ∧ (c.kernel b.kernel).state = .loaded ∧ ((c.kernel b.kernel).actor? b.actor).isSome then some b else none

/-- A number that no kernel has. -/
def noKernel : Nat := 2 ^ 32

/-- The kernel of the code of entry i: a residual's as recorded when it was made, a code handle's as the one that lists it as a function, a
loaded one before one that is on its way out (10 R175). -/
def Ctx.rootOf (x : Ctx) (i : Nat) : Nat :=
  let lists (p : Nat × Kernel) : Bool := decide (i ∈ p.2.funcs)
  if (x.handle i).residual then (x.handle i).root
  else (((List.find? (fun p => lists p && decide (p.2.state = .loaded)) x.kernels).or (List.find? lists x.kernels)).map Prod.fst).getD noKernel

/-- The entry that a SPEC of the code of entry `parent` takes; what it has from its parent stands from now on, whatever comes of the parent. -/
def Ctx.takeFor (c : Ctx) (i parent : Nat) : Ctx :=
  let x := c.takeHandle i
  x.setHandle i { x.handle i with parent := BitVec.ofNat 12 parent, ktype := (c.handle parent).ktype, root := c.rootOf parent }

end Sys2Proof.Machine
end

