-- ==== Sys2Proof/Machine/Matching.lean ====
section
/-! DEFINITION. The ready queue of a core, the matching of inputs to actors, and the counters that have fired (09 R161-R163, 10 R173-R175). -/

namespace Sys2Proof.Machine

/-! ### The ready queue (09 R162-R163) -/

/-- Entries of a ready queue (01 R11). -/
def readyMax : Nat := 32
/-- Entries of an inbox (01 R11). -/
def inboxMax : Nat := 64

/-- MATCHED firings enter READY, in the order in which they matched, while entries are free. -/
def Core.fillReady (c : Core) : Core :=
  let n := readyMax - c.ready.length
  { c with ready := c.ready ++ c.matched.take n, matched := c.matched.drop n }

/-- A firing that becomes MATCHED, and READY where an entry is free. -/
def Core.enqueue (c : Core) (f : Firing) : Core := Core.fillReady { c with matched := c.matched ++ [f] }

/-- A firing that goes back to READY or is SUSPENDED: it counts as READY at once, whatever has entered the queue since it left (R165; log
entry 42). -/
def Core.requeue (c : Core) (f : Firing) : Core := { c with ready := c.ready ++ [f] }

/-- A firing that has not started: its code, its class, its launch, the registers x1-x10 and its inputs. -/
def Firing.new (code : Code) (cls : Nat) (launch : Option Nat) (svc : Bool) (regs : List XReg) (inputs : List Input)
    (refs : List HRef) : Firing :=
  { code, cls, passes := 0, launch, svc, regs, inputs, recv := 0, refs, resume := none, start := 0, refPage := none,
    refCount := 0, committed := false, started := false, stopping := false, replay := none }

/-- The priority class of the firings of a launch; a firing that belongs to no launch has class 0. -/
def State.classOf (s : State) (l : Option Nat) : Nat := match l with
  | some n => ((Table.find? s.launches n).map Launch.prio).getD 0
  | none => 0

/-- The argument capability of a launch, x10 (06 R112); the null capability where there is no launch. -/
def State.argCap (s : State) (l : Option Nat) : XReg := match l.bind (Table.find? s.launches) with
  | some x => capFor x.argVa.toNat x.argLen pR'
  | none => XReg.zero
where
  /-- PR and PG. -/
  pR' : Nat := pR + pG

/-- The class of the firings of core `k`: its launch's, or 0 for the service virtual core (09 R163). -/
def State.coreClass (s : State) (k : Nat) : Nat := if (s.core k).launch.isSome then s.classOf (s.core k).launch else 0

/-! ### Matching (09 R162) -/

/-- The firings of a core that hold inputs. -/
def Core.holders (c : Core) : List Firing := c.firing.toList ++ c.matched ++ c.ready ++ c.aborted.map Aborted.firing

/-- Slots of a ring that firings have reserved. -/
def Core.reservedSlots (c : Core) (h : Nat) : Nat :=
  ((c.holders.flatMap Firing.inputs).map (fun i => match i with
    | .slots x n => if x = h then n else 0
    | _ => 0)).sum

/-- Filled slots of a ring, as the last boundary left it, that no firing has reserved. -/
def Core.freeFilled (c : Core) (h : Nat) : Nat := match Table.find? c.home.h h with
  | some r => (r.p0 - r.c0).toNat - c.reservedSlots h
  | none => 0

/-- The messages bound to an actor that no firing has reserved, of the inbox kinds or of the engine kind, oldest first. -/
def Core.unreserved (c : Core) (b : Binding) (engine : Bool) : List InMsg :=
  c.inbox.filter (fun m => !m.reserved && decide (m.bound = some b) && decide ((m.msg.kind = .completion) = engine))

/-- Whether a join counter's unit is met for actor `a` of the kernel whose function 0 has handle index `f`, and not reserved. -/
def Join.metFor (j : Join) (a f : Nat) : Bool :=
  decide (j.state = .fired) && !j.taken && j.bound && decide (j.actor.toNat = a) && decide (j.khidx.toNat = f)

/-- The units an input would reserve now; none where it has not reached its rate. -/
def Core.unitsFor (c : Core) (b : Binding) (f : Nat) (i : ActIn) : Option (List Input) := match i.kind with
  | .message =>
    let l := c.unreserved b false
    if i.rate ≤ l.length then some ((l.take i.rate).map (fun m => .msg m.id)) else none
  | .engine => match c.unreserved b true with
    | m :: _ => some [.msg m.id]
    | [] => none
  | .ring => if i.rate ≤ c.freeFilled i.index then some [.slots i.index i.rate] else none
  | .join => if (Table.get Join.idle c.home.joins i.index).metFor b.actor f then some [.join i.index] else none

/-- The units of every input of an actor. -/
def Core.unitsAll (c : Core) (b : Binding) (f : Nat) : List ActIn → Option (List Input)
  | [] => some []
  | i :: t => match c.unitsFor b f i, c.unitsAll b f t with
    | some x, some y => some (x ++ y)
    | _, _ => none

/-- Mark units as reserved. -/
def Core.reserve (c : Core) (l : List Input) : Core :=
  let c' := c.setHome { c.home with
    joins := c.home.joins.map (fun j => if Input.join j.1 ∈ l then (j.1, { j.2 with taken := true }) else j) }
  { c' with inbox := c.inbox.map (fun m => if Input.msg m.id ∈ l then { m with reserved := true } else m) }

/-- The registers x1-x10 of a firing by its input 0 (09 R161). -/
def Core.startRegs (c : Core) (coord : Word) (arg : XReg) : List Input → List XReg
  | .msg id :: _ => match c.inbox.find? (fun m => decide (m.id = id)) with
    | some m => (m.msg.regs ++ List.replicate (8 - m.msg.regs.length) XReg.zero) ++ [XReg.plain (m.msg.sender.setWidth 64), arg]
    | none => List.replicate 9 XReg.zero ++ [arg]
  | .join j :: _ =>
    let x := Table.get Join.idle c.home.joins j
    List.replicate 8 XReg.zero ++ [XReg.plain (x.last.setWidth 64 ||| (bit x.exceeded <<< 62) ||| (bit x.poison <<< 63)), arg]
  | _ => List.replicate 8 XReg.zero ++ [XReg.plain coord, arg]

/-- One more firing of the first actor, in the order of kernels and actors, whose inputs have reached their rates. -/
def Core.matchOne (c : Core) (cls : Nat) (coord : Word) (arg : XReg) : List (Nat × Kernel) → Option Core
  | [] => none
  | (kid, kn) :: rest =>
    let try_ (p : Actor × Nat) : Option Core :=
      let b : Binding := ⟨kid, p.2⟩
      match p.1.inputs, c.unitsAll b (kn.funcs.getD 0 0) p.1.inputs with
      | _ :: _, some u =>
        some (Core.enqueue (c.reserve u) (Firing.new (.actor b) cls c.launch false (c.startRegs coord arg u) u []))
      | _, _ => none
    match (if kn.state = .loaded ∨ kn.state = .retiring then kn.actors.zipIdx.findSome? try_ else none) with
    | some c' => some c'
    | none => c.matchOne cls coord arg rest

/-- Every firing that matches now; the first argument bounds their number. -/
def Core.matchAll (cls : Nat) (coord : Word) (arg : XReg) (ks : List (Nat × Kernel)) : Nat → Core → Core
  | 0, c => c
  | n + 1, c => match c.matchOne cls coord arg ks with
    | some c' => Core.matchAll cls coord arg ks n c'
    | none => c

/-- Firings of core `k` whose inputs are met become MATCHED (R162); a core that serves no firing of its context matches none (05 R106). -/
def State.matchActors (s : State) (k : Nat) : State :=
  let c := s.core k
  if c.barred then s else s.setCore k (Core.fillReady (Core.matchAll (s.coreClass k) (s.coordW k) (s.argCap c.launch)
    ((s.ctx (s.ctxOf k)).kernels) (2 * inboxMax + 512) c))

/-! ### Fired counters (10 R173, R175) -/

/-- Whether an actor of some kernel is bound to a counter, as it was armed. -/
def Ctx.joinBound (x : Ctx) (jn : Join) (j : Nat) : Bool :=
  jn.bound && x.kernels.any (fun p => decide (p.2.funcs.getD 0 0 = jn.khidx.toNat) && (match p.2.actor? jn.actor.toNat with
    | some a => a.inputs.any (fun i => decide (i.kind = .join) && decide (i.index = j))
    | none => false))

/-- A FIRED counter without a bound actor takes the EMPTY_HANDLER path, and is IDLE again (R175). -/
def State.loseJoin (s : State) (k j : Nat) : State :=
  let c := s.core k
  let jn := Table.get Join.idle c.home.joins j
  if jn.state = .fired ∧ !jn.taken ∧ !(s.ctx (s.ctxOf k)).joinBound jn j then
    (s.emptyHandler (s.ctxOf k) [] (s.coordW k) (BitVec.ofNat 64 j) (s.coordW k) (BitVec.ofNat 64 (0x1000 + j)) c.launch).modCore k
      (fun c => c.setHome { c.home with joins := Table.set Join.idle c.home.joins j Join.idle })
  else s

/-- Counters that have reached zero start their actors' firings, in the order of their numbers. -/
def State.joinsFired (s : State) (k : Nat) : State :=
  (((s.core k).home.joins.map Prod.fst).foldl (fun s j => s.loseJoin k j) s).matchActors k

/-! ### Poisoning (10 R176) -/

/-- A counter that a loss poisons is FIRED. -/
def Join.poisoned (covers : JScope → Bool) (j : Join) : Join :=
  if j.state = .armed ∧ covers j.scope then { j with state := .fired, poison := true } else j

/-- Counters that a loss poisons. -/
def poisonAll (covers : JScope → Bool) (t : Table Join) : Table Join := t.map (fun j => (j.1, j.2.poisoned covers))

/-- Poison a context's ARMED counters of the scopes covered, on every core that serves it, in the casts of its swapped groups and in its
service virtual core; the join inputs are met at once. -/
def State.poison (s : State) (ctx : Nat) (covers : JScope → Bool) : State :=
  let all := poisonAll covers
  let s1 : State := { s with cores := s.cores.map (fun p =>
    if p.2.ctx = some ctx then
      (p.1, { p.2 with vs := { p.2.vs with joins := all p.2.vs.joins }, parked := p.2.parked.map (fun v => { v with joins := all v.joins }) })
    else p) }
  let s2 := s1.modCtx ctx (fun x => { x with service := { x.service with joins := all x.service.joins },
                                             shadows := x.shadows.map (fun p => (p.1, { p.2 with joins := all p.2.joins })) })
  ((s2.cores.filter (fun p => decide (p.2.ctx = some ctx) && p.2.launch.isSome)).map Prod.fst).foldl State.joinsFired s2

/-- Whether a switched-out virtual core has a firing that matches, from its messages or its counters, when its cast is restored (05 R463). -/
def Shadow.matches (h : Shadow) (ks : List (Nat × Kernel)) : Bool :=
  (Core.matchOne { Core.fresh with inbox := h.inbox, vs := { VState.fresh with joins := h.joins } } 0 0 XReg.zero ks).isSome

end Sys2Proof.Machine
end

