-- ==== Sys2Proof/Machine/Links.lean ====
section
/-! DEFINITION. Messages between packages: CRC-32C, headers and slots, flits, routes and the links' buffers (09 R157, 14). -/

namespace Sys2Proof.Machine

/-! ### CRC-32C (14 R233, 07 R123) -/

/-- One bit of the reflected CRC-32C. -/
def crcBit (c : BitVec 32) : BitVec 32 := if c.getLsbD 0 then (c >>> 1) ^^^ 0x82F63B78 else c >>> 1
/-- One byte of the CRC. -/
def crcByte (c : BitVec 32) (b : Byte) : BitVec 32 :=
  crcBit (crcBit (crcBit (crcBit (crcBit (crcBit (crcBit (crcBit (c ^^^ b.setWidth 32))))))))
/-- CRC-32C of a byte string. -/
def crc32c (bs : List Byte) : BitVec 32 := ~~~(bs.foldl crcByte 0xFFFFFFFF)

/-! ### Headers and slots (09 R157) -/

/-- Numbers of the kinds in HD0 47:44. -/
def kindHandler : Nat := 0
/-- Stream. -/
def kindStream : Nat := 1
/-- Migration. -/
def kindMigration : Nat := 2
/-- Engine completion. -/
def kindCompletion : Nat := 4
/-- Remote operation. -/
def kindRemote : Nat := 5
/-- Join decrement. -/
def kindJoin : Nat := 6
/-- MCST. -/
def kindMcst : Nat := 7
/-- Carry. -/
def kindCarry : Nat := 8
/-- Event operation. -/
def kindEvent : Nat := 9
/-- FIRE. -/
def kindFire : Nat := 10
/-- Extension. -/
def kindExt : Nat := 15

/-- The kind number of a message. -/
def MKind.code : MKind → Nat
  | .handler => kindHandler
  | .stream => kindStream
  | .migration => kindMigration
  | .completion => kindCompletion
  | .fire => kindFire

/-- The message kind of a number. -/
def MKind.ofCode : Nat → Option MKind
  | 0 => some .handler
  | 1 => some .stream
  | 2 => some .migration
  | 4 => some .completion
  | 10 => some .fire
  | _ => none

/-- The TAGS field of payload registers. -/
def tagBits (l : List XReg) : Nat := ofBits (l.map XReg.tag)
where
  /-- The number whose bit n is the n-th entry. -/
  ofBits : List Bool → Nat
    | [] => 0
    | b :: t => b.toNat + 2 * ofBits t

/-- HD0. -/
def hd0 (target hidx kind ctx tags : Nat) : Word :=
  BitVec.ofNat 64 (target % 2 ^ 31 + hidx % 4096 * 2 ^ 32 + kind % 16 * 2 ^ 44 + ctx % 256 * 2 ^ 48 + tags % 256 * 2 ^ 56)
/-- HD1. -/
def hd1 (sender launch : Nat) : Word := BitVec.ofNat 64 (sender % 2 ^ 31 + launch % 2 ^ 32 * 2 ^ 32)

/-- The ten doublewords of a slot as one value. -/
def slotBits (l : List Word) : BitVec 640 := BitVec.ofNat 640 (go (padTo 10 l))
where
  /-- Doublewords as one number, the first lowest. -/
  go : List Word → Nat
    | [] => 0
    | w :: t => w.toNat + 2 ^ 64 * go t

/-- Upper halves of payload registers. -/
def highs (l : List XReg) : List Word := l.map XReg.hi

/-- The payload and fields of each kind of body on a link. The layout of the payloads of remote operations, join decrements,
carries and event operations is the model's (the spec says only that the operands travel there; log entry 6). -/
def Body.wire (b : Body) : Nat × Nat × List XReg := match b with
  | .msg m => (m.kind.code, m.hidx, m.regs)
  | .remote op off w val cmp reply =>
    (kindRemote, 0, [XReg.plain (BitVec.ofNat 64 ((match op with | .get => 0 | .put => 1 | .add => 2 | .cas => 3) + w * 2 ^ 8 +
      off * 2 ^ 16 + (match reply with | some r => (r % 8192 + 1) * 2 ^ 48 | none => 0))), XReg.plain val, XReg.plain cmp])
  | .join amount j => (kindJoin, j, [XReg.plain (BitVec.ofNat 64 amount)])
  | .mcst _ data j =>
    (kindMcst, j, (List.range 8).map (fun i =>
      { val := (data >>> (64 * (i + 8))).setWidth 64 ++ ((data >>> (64 * i)).setWidth 64 : Word), tag := false }))
  | .carry tag val => (kindCarry, tag.toNat, [XReg.plain val])

/-- The offset in the local store that an MCST carries; 0 for every other body. -/
def Body.offset : Body → Nat
  | .mcst off _ _ => off
  | _ => 0

/-- The slots of a message: one, and an extension where a payload register is tagged, and for an MCST, whose vector's upper half it holds.
`ext` stands in the extension's bits HD1 30:0: the offset of an MCST (log entry 6). -/
def wireSlots (target sender : Nat) (ctx launch kind hidx : Nat) (regs : List XReg) (ext : Nat) : List (BitVec 640) :=
  let tags := tagBits (regs.take 8)
  slotBits (hd0 target hidx kind ctx tags :: hd1 sender launch :: padTo 8 (lows (regs.take 8))) ::
  (if tags = 0 ∧ kind ≠ kindMcst then [] else
    [slotBits (hd0 target 0 kindExt ctx 0 :: hd1 ext launch :: padTo 8 (highs (regs.take 8)))])

/-- The slots of a body for a packed coordinate. -/
def Body.slots (b : Body) (target sender ctx launch : Nat) : List (BitVec 640) :=
  let (kind, h, regs) := b.wire
  wireSlots target sender ctx launch kind h regs b.offset

/-! ### Flits and links (14 R231-R235) -/

/-- The bytes 0-247 of a flit: its header and its slots. -/
def flitBody (carry : Bool) (seq ack : Nat) (slots : List (BitVec 640)) : Nat :=
  (carry.toNat + slots.length % 4 * 2 + seq % 4096 * 2 ^ 16 + ack % 4096 * 2 ^ 32) + 2 ^ 64 * go slots
where
  /-- Slots as one number. -/
  go : List (BitVec 640) → Nat
    | [] => 0
    | x :: t => x.toNat + 2 ^ 640 * go t

/-- A whole flit with its CRC (14 R233). -/
def mkFlit (carry : Bool) (seq ack : Nat) (slots : List (BitVec 640)) : BitVec 2048 :=
  let b := flitBody carry seq ack slots
  BitVec.ofNat 2048 (b + (crc32c (bytesOf 248 b)).toNat * 2 ^ 1984)

/-- Transmit a flit: it stands in the retry buffer. The first flit has number 1 (log entry 13). -/
def Link.transmit (l : Link) (carry : Bool) (slots : List (BitVec 640)) : Link :=
  { l with sent := l.sent ++ [mkFlit carry (l.seqTx + 1).toNat l.seqRx.toNat slots], seqTx := l.seqTx + 1 }

/-- Put slots on a link: on their way on a link that carries traffic, held in the buffer of their channel on one that trains (R231, R236). -/
def Link.send (l : Link) (carry : Bool) (slots : List (BitVec 640)) : Link := match l.state with
  | .up | .degraded => l.transmit carry slots
  | _ => if carry then { l with carryHold := l.carryHold ++ [slots] } else { l with holding := l.holding ++ [slots] }

/-- The flits that wait on two channels in the order in which they leave: a carry flit first, and at most every second one while normal
flits wait (14 R236). -/
def channels : List (List (BitVec 640)) → List (List (BitVec 640)) → List (Bool × List (BitVec 640))
  | [], ns => ns.map (fun x => (false, x))
  | c :: cs, n :: ns => (true, c) :: (false, n) :: channels cs ns
  | c :: cs, [] => (true, c) :: channels cs []

/-- What a link has held leaves. -/
def Link.release (l : Link) : Link :=
  (channels l.carryHold l.holding).foldl (fun l p => l.transmit p.1 p.2) { l with carryHold := [], holding := [] }

/-- Doubleword i of a slot. -/
def slotWord (x : BitVec 640) (i : Nat) : Word := (x >>> (64 * i)).setWidth 64
/-- The slots that a flit uses. -/
def flitSlots (f : BitVec 2048) : List (BitVec 640) :=
  (List.range (((f >>> 1).setWidth 2 : BitVec 2).toNat)).map (fun i => (f >>> (64 + 640 * i)).setWidth 640)

/-- Whether a message of this package that `p` picks by its header has left it and is not acknowledged, or is held before a link. -/
def State.onWire (s : State) (p : Word → Word → Bool) : Bool :=
  let slot (x : BitVec 640) : Bool := decide (fld (slotWord x 1) 30 13 = s.pkg.toNat) && p (slotWord x 0) (slotWord x 1)
  s.links.any (fun l => l.2.sent.any (fun f => (flitSlots f).any slot) || (l.2.holding ++ l.2.carryHold).any (fun x => x.any slot)) ||
  s.far.any (fun f => f.slots.any slot) || s.rerouting.any (fun r => r.2.held.any (fun h => h.slots.any slot))

/-- Whether a publication of a context is on its way (21: not yet acknowledged). -/
def State.travels (s : State) (ctx : Nat) : Bool :=
  s.flights.any (fun f => decide (f.ctx = ctx)) || s.evops.any (fun o => decide (o.ctx = ctx)) ||
  s.onWire (fun h _ => decide (fld h 55 48 = ctx))

/-- Whether a publication of core `k` is on its way (02 R31). -/
def State.owesAck (s : State) (k : Nat) : Bool :=
  s.flights.any (fun f => decide (f.src = s.coord k)) || s.evops.any (fun o => decide (o.src = s.coord k)) ||
  s.onWire (fun _ h => decide (fld h 30 0 = (s.coord k).toNat))

/-- The link that a die's routing table gives for a package id, where there is a route (14 R234). -/
def State.routeOf (s : State) (die pkg : Nat) : Option Nat :=
  let e := Table.get 0x80 (s.die die).routes pkg
  let n := (e &&& 0x1F).toNat
  if e.getLsbD 7 ∨ e.getLsbD 6 ∨ 18 ≤ n ∨ (s.link n).state = .lost then none else some n

/-- Send a message towards another package, from a die of this one; none where there is no route. While the route changes, new traffic is
held (14 R235). -/
def State.sendWire (s : State) (die : Nat) (carry : Bool) (pkg : Nat) (slots : List (BitVec 640)) : Option State :=
  match Table.find? s.rerouting pkg with
  | some r => some { s with rerouting := Table.insert s.rerouting pkg { r with held := r.held ++ [{ die, carry, slots }] } }
  | none => match s.routeOf die pkg with
    | some n => some (s.setLink n ((s.link n).send carry slots))
    | none => none

/-- A PEER_LOST event for a context's traffic to a lost id, once for that id (14 R237); its counters armed with SCOPE 2 are poisoned
by `State.poison`, which the caller applies. -/
def State.peerEvent (s : State) (ctx : Nat) (pkg : Nat) (coord : Word) (dl : Option Nat) (launch : Option Nat) : State :=
  if pkg ∈ (s.ctx ctx).told then s
  else (s.modCtx ctx (fun c => { c with told := pkg :: c.told })).ctxEvent ctx
    (plainEvent (eventRegs 0x12 coord (BitVec.ofNat 64 pkg) 0 false dl s.time) launch)

/-- A message that comes back from a lost package (14 R237): a dead letter with reason PEER_LOST, the event, the poisoning.
`maybe` says that the destination may have received it. -/
def State.returned (s : State) (ctx pkg : Nat) (payload : List Word) (target hidx : Word) (maybe : Bool) (coord : Word)
    (launch : Option Nat) : State :=
  let (n, s1) := s.deadLetter ctx payload target hidx (0x12 ||| bit maybe)
  if pkg ∈ (s1.ctx ctx).told then s1
  else (s1.peerEvent ctx pkg coord (some n) launch).poison ctx (fun sc => decide (sc = .sys))

end Sys2Proof.Machine
end

