-- ==== Sys2Proof/Machine/Publish.lean ====
section
/-! DEFINITION. The phase buffer and its publication at a boundary (17 R302, 21 R405-R412): resolving message targets, applying
each kind of entry, the conditions that hold a publication, and the new phase. Ready queues and the firings that a publication
makes ready (09 R162-R163, 17 R315, 03 R66). -/

namespace Sys2Proof.Machine

/-! ### Atomics (17 R324, 04 R91) -/

/-- A w-byte value read as signed. -/
def signedOf (w n : Nat) : Int := if n < 2 ^ (8 * w - 1) then n else (n : Int) - 2 ^ (8 * w)

/-- The new value of an atomic on w-byte values; `cmp` is ACAS's compare value. -/
def atomNew (op : AtomOp) (w old b cmp : Nat) : Nat :=
  let f : Fmt := if w = 4 then .f32 else .f64
  match op with
  | .add => (old + b) % 2 ^ (8 * w)
  | .and => old &&& b
  | .or => old ||| b
  | .xor => old ^^^ b
  | .min => if signedOf w b < signedOf w old then b else old
  | .max => if signedOf w old < signedOf w b then b else old
  | .minu => min old b
  | .maxu => max old b
  | .swp => b
  | .cas => if old = cmp then b else old
  | .fadd => (fadd f .rne false old b).1
  | .fmin => (fminmax f false old b).1
  | .fmax => (fminmax f true old b).1

/-! ### Where a virtual core is (17 R300, 08 R149) -/

/-- Where a virtual core's group stands. -/
inductive Place where
  | here (k : Nat)
  | remote (coord : Nat)
  | waiting
  | retired
  deriving DecidableEq, Repr

/-- The group of a virtual core (07 R136). -/
def Launch.groupOf (l : Launch) (v : VCore) : Nat := v.vy / 2 ^ l.lgh * (l.w / 2 ^ l.lgw) + v.vx / 2 ^ l.lgw

/-- Where a virtual core's messages go. -/
def State.place (s : State) (v : VCore) : Place :=
  match Table.find? s.launches v.launch with
  | none => .retired
  | some l =>
    let g := l.group (l.groupOf v)
    let at_ := coreKey g.die (g.ox + v.vx % 2 ^ l.lgw) (g.oy + v.vy % 2 ^ l.lgh)
    match g.state with
    | .retired => .retired
    | .pending | .swapped => .waiting
    | .resident | .unbinding => if g.die / 8 = s.pkg.toNat then .here (at_ % 8192) else .remote at_

/-- Whether a specifier names a subgroup of a group of a launch's shape (08 R141-R142). -/
def subgroupOk (lgw lgh : Nat) (spec : Nat) : Bool :=
  let w := 2 ^ (spec % 8)
  let h := 2 ^ (spec / 8 % 8)
  let x := spec / 64 % 32
  let y := spec / 2048 % 32
  decide (spec % 8 ≤ 5) && decide (spec / 8 % 8 ≤ 5) && decide (x % w = 0) && decide (y % h = 0) &&
    decide (x + w ≤ 2 ^ lgw) && decide (y + h ≤ 2 ^ lgh)

/-- The virtual cores of a subgroup of the sender's group, row by row. -/
def subgroupCores (me : VCore) (lgw lgh : Nat) (spec : Nat) : List VCore :=
  let x0 := me.vx - me.vx % 2 ^ lgw + spec / 64 % 32
  let y0 := me.vy - me.vy % 2 ^ lgh + spec / 2048 % 32
  (List.range (2 ^ (spec / 8 % 8))).flatMap (fun j =>
    (List.range (2 ^ (spec % 8))).map (fun i => ⟨me.launch, x0 + i, y0 + j⟩))

/-! ### Sending -/

/-- The doublewords of a body as a dead letter shows them, its handler index, and x3 of the empty-handler path: for a decrement
0x1000 + counter (10 R173). Bodies other than messages show their operands (log entry 6). -/
def Body.letter (b : Body) : List Word × Word × Word := match b with
  | .msg m => (lows m.regs, BitVec.ofNat 64 m.hidx, BitVec.ofNat 64 m.hidx)
  | .join amount j => ([BitVec.ofNat 64 amount], BitVec.ofNat 64 j, BitVec.ofNat 64 (0x1000 + j))
  | .mcst _ data j =>
    ((List.range 8).map (fun i => (data >>> (64 * i)).setWidth 64), BitVec.ofNat 64 j, BitVec.ofNat 64 (0x1000 + j))
  | .remote op off w val cmp reply => (lows (Body.remote op off w val cmp reply).wire.2.2, 0, 0)
  | .carry tag val => ([val], tag.setWidth 64, tag.setWidth 64)

/-- Whether a virtual core's group was retired because its die was lost (14 R238). -/
def State.diedAt (s : State) (v : VCore) : Bool := match Table.find? s.launches v.launch with
  | some l => (l.group (l.groupOf v)).lost
  | none => false

/-- What a body for a RETIRED group leaves: a returned message where the group's die was lost (14 R238), else the empty-handler path
(09 R160). `sender` is the packed coordinate of its sender. -/
def State.toRetired (s : State) (ctx : Nat) (dst : VCore) (body : Body) (sender : Word) : State :=
  let (p, h, x3) := body.letter
  if s.diedAt dst then s.returned ctx s.pkg.toNat p (virtualTarget dst) h false sender (some dst.launch)
  else s.emptyHandler ctx p (virtualTarget dst) h sender x3 (some dst.launch)

/-- Whether a body travels on the carry channel (14 R236). -/
def Body.isCarry : Body → Bool
  | .carry .. => true
  | _ => false

/-- Publish a body to a virtual core from core `k` (R300, R156): on its way to a core or to the lay-by, over a link, or to the
empty-handler path of a RETIRED group. A request that awaits a reply is not answered there. What goes to another package waits behind what
the same core has sent to the same virtual core and has not left yet. -/
def State.sendBody (s : State) (k ctx : Nat) (dst : VCore) (body : Body) : State :=
  match s.place dst with
  | .here _ | .waiting => { s with flights := s.flights ++ [{ src := s.coord k, ctx, dst, body }] }
  | .retired => s.toRetired ctx dst body (s.coordW k)
  | .remote at_ =>
    if s.flights.any (fun f => decide (f.src = s.coord k) && decide (f.ctx = ctx) && decide (f.dst = dst)) then
      { s with flights := s.flights ++ [{ src := s.coord k, ctx, dst, body }] }
    else match s.sendWire (coreDie k) body.isCarry (at_ / 8192) (body.slots at_ (s.coord k).toNat ctx dst.launch) with
    | some s' => s'
    | none =>
      let (p, h', _) := body.letter
      s.returned ctx (at_ / 8192) p (BitVec.ofNat 64 at_) h' false (s.coordW k) (some dst.launch)

/-- Publish a body to several virtual cores. -/
def State.sendAll (s : State) (k ctx : Nat) (body : Body) : List VCore → State
  | [] => s
  | d :: t => (s.sendBody k ctx d body).sendAll k ctx body t

/-- Whether an event's home is a die of this package that is lost (14 R238). -/
def State.homeLost (s : State) (ctx : Nat) (e : BitVec 16) : Bool := (s.ctx ctx).home && (s.die (e.toNat % 8)).lost

/-- The slots of an event operation for a context's home on another package (09 R157, R167): 1 set, 2 clear, 3 wait, 4 test. Its target is
the first core of the event's home die, its payload the event with the operation, and the asker's token or 0 (log entry 6). -/
def homeSlots (ctx : Nat) (sender : BitVec 31) (launch : Option Nat) (op : Nat) (e : BitVec 16) (token : Nat) : List (BitVec 640) :=
  wireSlots (Config.homeOf ctx * 8192 + e.toNat % 8 * 1024) sender.toNat ctx (launch.getD 0) kindEvent 0
    [XReg.plain (BitVec.ofNat 64 (e.toNat + op * 2 ^ 16)), XReg.plain (BitVec.ofNat 64 token)] 0

/-- An event operation whose home die is lost comes back: a dead letter, the PEER_LOST event that names the event in x3 (14 R238), and the
poisoning that the event brings (10 R176). -/
def State.eventLost (s : State) (ctx : Nat) (src : BitVec 31) (launch : Option Nat) (set : Bool) (e : BitVec 16) : State :=
  let at_ : Word := src.setWidth 64
  let (n, s1) := s.deadLetter ctx [e.setWidth 64, bit set] at_ 0 0x12
  (s1.ctxEvent ctx (plainEvent (eventRegs 0x12 at_ (e.setWidth 64) 0 false (some n) s.time) launch)).poison ctx (fun sc => decide (sc = .sys))

/-- An event operation of a launch's command or firing, or of the Plinth, at `src` on die `die`, on its way to its home (09 R167): a die of
this package, or another package over a link. One whose home die is lost comes back as a dead letter, with a PEER_LOST event that names
the event in x3 (14 R238); one for a package that is lost comes back as R237 gives. -/
def State.postEvent (s : State) (die ctx : Nat) (src : BitVec 31) (launch : Option Nat) (set : Bool) (e : BitVec 16) : State :=
  let at_ : Word := src.setWidth 64
  if s.homeLost ctx e then s.eventLost ctx src launch set e
  else if (s.ctx ctx).home then { s with evops := s.evops ++ [{ src, ctx, set, event := e, launch, reply := none }] }
  else match s.sendWire die false (Config.homeOf ctx) (homeSlots ctx src launch (if set then 1 else 2) e 0) with
    | some s1 => s1
    | none => s.returned ctx (Config.homeOf ctx) [e.setWidth 64, bit set]
        (BitVec.ofNat 64 (Config.homeOf ctx * 8192 + e.toNat % 8 * 1024)) 0 false at_ launch

/-- An event operation that its home on another package is asked for, and whose answer `who` awaits; none where there is no route. -/
def State.askHome (s : State) (die ctx : Nat) (src : BitVec 31) (launch : Option Nat) (op : Nat) (e : BitVec 16) (who : Waiter) : Option State :=
  let n := (s.ctx ctx).tickets + 1
  (s.sendWire die false (Config.homeOf ctx) (homeSlots ctx src launch op e n)).map (fun s1 =>
    s1.modCtx ctx (fun x => { x with tickets := n, away := x.away ++ [{ token := n, event := e, op, who }] }))

/-- An event operation of a launch's command or firing at core `k`. -/
def State.sendEventOf (s : State) (k ctx : Nat) (launch : Option Nat) (set : Bool) (e : BitVec 16) : State :=
  s.postEvent (coreDie k) ctx (s.coord k) launch set e

/-- An event operation of core `k`'s firing. -/
def State.sendEvent (s : State) (k ctx : Nat) (set : Bool) (e : BitVec 16) : State :=
  s.sendEventOf k ctx (s.core k).sendLaunch set e

/-! ### Entries -/

/-- Whether an entry is published with the stores (P3). -/
def Entry.isStore : Entry → Bool
  | .store .. | .also .. | .atomic .. | .htset .. | .jinit .. | .hhold .. | .hrel .. => true
  | _ => false

/-- How many of the 256 entries an entry takes (17 R302, 20 R391, 19 R360, R379). -/
def Entry.cost : Entry → Nat
  | .store _ _ bs _ => (bs.length + 15) / 16
  | .also _ _ _ n => n
  | .send .. | .sendm .. | .fire .. | .hostq .. => 4
  | .mcst .. => 9
  | _ => 1

/-- Entries in use. -/
def Core.used (c : Core) : Nat := (c.buffer.map Entry.cost).sum

/-- Entries of a phase buffer (01 R11). -/
def bufferMax : Nat := 256

/-- Nibble m of a window CSR (19 R361). -/
def nibble (w : Word) (m : Nat) : Nat := fld w (4 * (m % 16) + 3) (4 * (m % 16))
/-- Write nibble m. -/
def setNibble (w : Word) (m v : Nat) : Word :=
  (w &&& ~~~(0xF#64 <<< (4 * (m % 16)))) ||| (BitVec.ofNat 64 (v % 16) <<< (4 * (m % 16)))

/-- The core that runs a context's service virtual core now (05 R462). -/
def State.serviceAt (s : State) (ctx : Nat) : Option Nat :=
  (List.find? (fun p => decide (p.2.ctx = some ctx) && p.2.parked.isSome) s.cores).map Prod.fst

/-- Change the window CSRs of the virtual core that issued a command at core `k`: the group's or, for the fault actor's, the
service virtual core's. An engine's progress is not undone by an abort, so the replay point of a firing there changes too. -/
def State.modWin (s : State) (k ctx : Nat) (svc : Bool) (f : Csrs → Csrs) : State :=
  let running (j : Nat) : State := s.modCore j (fun c =>
    { c with vs := { c.vs with csr := f c.vs.csr }, point := { c.point with csr := f c.point.csr } })
  if svc then match s.serviceAt ctx with
    | some j => running j
    | none => s.modCtx ctx (fun x => { x with service := { x.service with csr := f x.service.csr } })
  else if (s.core k).parked.isSome then s.modCore k (fun c => c.setHome { c.home with csr := f c.home.csr })
  else running k

/-- The JOBWIN nibble of a job becomes v. -/
def State.setJobWin (s : State) (k ctx : Nat) (svc : Bool) (id v : Nat) : State :=
  s.modWin k ctx svc (fun c => { c with jobwin := setNibble c.jobwin id v })
/-- The CPWIN nibble of a command becomes v. -/
def State.setCpWin (s : State) (k ctx : Nat) (svc : Bool) (id v : Nat) : State :=
  s.modWin k ctx svc (fun c => { c with cpwin := setNibble c.cpwin id v })

/-! ### Completion records of engine commands (19 R366, 20 R400) -/

/-- x1 of a completion record. -/
def recordHead (id kind status operand : Nat) (flags : Sticky) : Word :=
  BitVec.ofNat 64 (id % 65536 + kind % 256 * 2 ^ 16 + status % 256 * 2 ^ 24 + operand % 16 * 2 ^ 32 + flags.toNat * 2 ^ 36)

/-- The registers x1-x8 of a completion record. -/
def recordRegs (head x2 x3 : Word) (v : VCore) (x5 time : Word) : List XReg :=
  [head, x2, x3, BitVec.ofNat 64 (v.vx + v.vy * 2 ^ 16), x5, time, 0, 0].map XReg.plain

/-- The wake fields of a descriptor: whether a wake is asked for, its target and its handler index (19 R362, R370). -/
def wakeOf (edge : Bool) (d : List Word) : Bool × Nat × Nat × Nat :=
  if edge then
    let w := d.getD 12 0
    (fbit w 6, fld w 31 20, fld w 43 32, fld w 19 8)
  else
    let w := d.getD 6 0
    (fbit (d.getD 7 0) 3, fld w 11 0, fld w 23 12, fld w 55 44)

/-- Send the wake of a command of core `k`, virtual core `v`: a message of kind engine completion (19 R366). -/
def State.sendWake (s : State) (k ctx : Nat) (v : VCore) (vx vy hidx : Nat) (regs : List XReg) : State :=
  let m : Msg := { kind := .completion, hidx, regs, sender := s.coord k, ctx, launch := v.launch, born := s.time, href := none }
  s.sendBody k ctx ⟨v.launch, vx, vy⟩ (.msg m)

/-- Whether a target lies within its launch's rectangle: LDIM is 1 × 1 where there is no launch (05 R462). -/
def State.inLaunch (s : State) (l vx vy : Nat) : Bool := match Table.find? s.launches l with
  | some x => decide (vx < x.w) && decide (vy < x.h)
  | none => decide (vx = 0) && decide (vy = 0)

/-- A record without a trusted wake target: a dead letter with its status as the reason, and the event (22 R423). -/
def State.engineLetter (s : State) (k ctx : Nat) (v : VCore) (regs : List XReg) (hidx status : Nat) (x3 : Word) : State :=
  let (n, s1) := s.deadLetter ctx (lows regs) (s.coordW k) (BitVec.ofNat 64 hidx) (BitVec.ofNat 64 status)
  s1.ctxEvent ctx (plainEvent (eventRegs status (s.coordW k) x3 0 false (some n) s.time)
    (if v.launch = noLaunch then none else some v.launch))

/-- End a job without running it: the wake with status 0xFF, where WAKE = 1 (19 R369). A wake field that names no core of the
launch leaves a dead letter. -/
def State.cancelWake (s : State) (k ctx : Nat) (v : VCore) (edge : Bool) (id desc : Nat) : State :=
  let d := (List.range (if edge then 16 else 8)).map (fun i => s.word (desc + 8 * i))
  let (wake, vx, vy, hidx) := wakeOf edge d
  let x5 := if edge then d.getD 10 0 else BitVec.ofNat 64 (fld (d.getD 6 0) 43 24)
  let regs := recordRegs (recordHead id (if edge then 2 else 1) 0xFF 0 0) 0 0 v x5 s.time
  if !wake then s
  else if s.inLaunch v.launch vx vy then s.sendWake k ctx v vx vy hidx regs
  else s.engineLetter k ctx v regs hidx 0xFF 0

/-- The actor whose input record names a join counter in a kernel (10 R175). -/
def Kernel.joinOf (kn : Kernel) (j : Nat) : Option Nat :=
  kn.actors.findIdx? (fun a => a.inputs.any (fun i => decide (i.kind = .join) && decide (i.index = j)))

/-- That actor with the kernel's function 0; 0 and 0 for none. -/
def Kernel.joinActor (kn : Kernel) (j : Nat) : Nat × Nat :=
  match kn.joinOf j with
  | some a => (a, kn.funcs.getD 0 0)
  | none => (0, 0)

/-- A JINIT frees its counter from the firing it started: "a firing already matched keeps its input" (10 R173), and its end leaves
the re-armed counter alone. A firing of the fault actor has counters of its own (05 R462). -/
def Core.forgetJoin (c : Core) (j : Nat) : Core :=
  let drop (f : Firing) : Firing := { f with inputs := f.inputs.map (fun i => if i = .join j then .rearmed j else i) }
  { c with firing := c.firing.map drop, matched := c.matched.map drop, ready := c.ready.map drop,
           aborted := c.aborted.map (fun a => { a with firing := drop a.firing }) }

/-- JINIT applied (10 R173, R175). -/
def State.applyJinit (s : State) (k j : Nat) (scope : JScope) (count : BitVec 24) (kernel : Nat) : State :=
  let kn := (s.ctx (s.ctxOf k)).kernel kernel
  let (a, f) := kn.joinActor j
  let armed : Join := { count, state := .armed, scope, poison := false, exceeded := false, actor := BitVec.ofNat 12 a,
                        khidx := BitVec.ofNat 12 f, last := 0, taken := false, bound := (kn.joinOf j).isSome }
  (s.modCore k (fun c => if c.svc then c else c.forgetJoin j)).modVs k (fun r =>
    { r with joins := Table.set Join.idle r.joins j (if count = 0 then Join.idle else armed) })

/-- Write entry i of a context's handler table (09 R159); what it held stays known to phases that began before (17 R317). -/
def State.setHandler (s : State) (ctx i : Nat) (w : Word) : State :=
  let w := w &&& handlerMask
  let old := (s.ctx ctx).handler i
  if w = old then s
  else { s.modCtx ctx (fun c => { c with handlers := Table.set 0 c.handlers i w, oldHandlers := (i, old, s.stamp) :: c.oldHandlers })
         with stamp := s.stamp + 1 }

/-- A FIRE's message takes its place in core `k`'s inbox: its firing is ready (17 R315). -/
def State.fireIn (s : State) (k : Nat) (m : Msg) (svc : Bool) : State :=
  let c := s.core k
  let r := m.href.getD ⟨m.hidx, 0, 0⟩
  let l := if svc then c.sendLaunch else c.launch
  s.modCore k (fun c' => Core.enqueue
    { c' with inbox := c'.inbox ++ [{ id := c.nextMsg, msg := m, bound := none, reserved := true }], nextMsg := c.nextMsg + 1 }
    (Firing.new (.handle r) (s.coreClass k) l svc (m.regs ++ [XReg.plain (m.sender.setWidth 64), s.argCap l]) [.msg c.nextMsg] [r]))

/-- The FIRE of a handle's code, published: "a message to its own core" (17 R315), behind what the core has sent to itself before and what
waits for it (09 R156); it takes its place at once, and is sampled as an arrival (23 R433), where nothing stands before it. -/
def State.applyFire (s : State) (k ctx : Nat) (r : HRef) (regs : List XReg) : State :=
  let c := s.core k
  let m : Msg := { kind := .fire, hidx := r.index, regs, sender := s.coord k, ctx, launch := c.sendLaunch.getD 0, born := s.time,
                   href := some r }
  if c.svc ∨ c.inbox.length < inboxMax ∧ !(s.ctx ctx).lay.any (fun e => decide (e.dst = c.here)) ∧
      !s.flights.any (fun f => decide (f.src = s.coord k) && decide (f.ctx = ctx) && decide (f.dst = c.here)) then
    ((s.sample ctx 1 0).sample ctx 2 (BitVec.ofNat 64 (c.inbox.length + 1))).fireIn k m c.svc
  else { s with flights := s.flights ++ [{ src := s.coord k, ctx, dst := c.here, body := .msg m }] }

/-- Publish one entry of core `k`'s buffer, in the scope of the boundary. -/
def State.applyEntry (s : State) (k : Nat) (narrow : Option (Nat × OScope)) (e : Entry) : State :=
  let ctx := s.ctxOf k
  match e with
  | .store _ pa bs tag => s.publish narrow (tag.getD false) pa bs
  | .also _ pa bs _ => s.publish narrow false pa bs
  | .atomic _ pa w op val cmp =>
    s.publish narrow false pa
      (bytesOf w (atomNew op w (ofBytes (s.bytes pa w)) (val.toNat % 2 ^ (8 * w)) (cmp.toNat % 2 ^ (8 * w))))
  | .htset i w => s.setHandler ctx i w
  | .jinit j sc n kn => s.applyJinit k j sc n kn
  | .hhold r =>
    (if (s.ctx ctx).current r then s.modCtx ctx (fun c => c.setHandle r.index { c.handle r.index with owners := (c.handle r.index).owners + 1 })
     else s).dropRunning ctx r.index
  | .hrel r =>
    if (s.ctx ctx).current r then
      let s1 := s.modCtx ctx (fun c => c.setHandle r.index { c.handle r.index with owners := (c.handle r.index).owners - 1 })
      if ((s1.ctx ctx).handle r.index).owners = 0 then s1.retireHandle ctx r.index else s1
    else s
  | .send dst m => s.sendBody k ctx dst (.msg { m with born := s.time })
  | .sendm spec m =>
    s.sendAll k ctx (.msg { m with born := s.time })
      (subgroupCores (s.core k).here (fld (s.core k).gshape 2 0) (fld (s.core k).gshape 6 4) spec.toNat)
  | .fire r regs => s.applyFire k ctx r regs
  | .hostq rec => (s.ringWrite ctx .hostQueue rec).getD s
  | .remote dst op off w val cmp => s.sendBody k ctx dst (.remote op off w val cmp none)
  | .join dst n j => s.sendBody k ctx dst (.join n j)
  | .mcst spec off data j =>
    s.sendAll k ctx (.mcst off data j)
      (subgroupCores (s.core k).here (fld (s.core k).gshape 2 0) (fld (s.core k).gshape 6 4) spec.toNat)
  | .carry dst tag val => s.sendBody k ctx dst (.carry tag val)
  | .event set ev => s.sendEvent k ctx set ev
  | .job edge pa va id nbv voided _ =>
    if voided then (s.setJobWin k ctx (s.core k).svc id 6).cancelWake k ctx (s.core k).here edge id pa
    else
      let u := s.cluster (clusterOf k)
      let job : Job := { core := k, svc := (s.core k).svc, vcore := (s.core k).here, ctx, id, edge, desc := pa, descVa := va, nbv,
                         since := s.cycle, cancelled := false }
      (s.setCluster (clusterOf k) { u with queue := u.queue ++ [job] }).setJobWin k ctx (s.core k).svc id 2
  | .copy kind pa va id ev _ =>
    let e := s.engine (engineOf k)
    let cmd : CopyCmd := { core := k, svc := (s.core k).svc, vcore := (s.core k).here, ctx, id, kind, desc := pa, descVa := va,
                           event := ev }
    (s.setEngine (engineOf k) { e with queue := e.queue ++ [cmd] }).setCpWin k ctx (s.core k).svc id 2

/-- Publish entries in order. -/
def State.applyEntries (s : State) (k : Nat) (narrow : Option (Nat × OScope)) : List Entry → State
  | [] => s
  | e :: t => (s.applyEntry k narrow e).applyEntries k narrow t

/-! ### Holding a publication -/

/-- Whether a physical address lies in a page that is being moved (13 R228). -/
def State.isMoving (s : State) (pa : Nat) : Bool :=
  s.moving.any (fun m => m.old.any (fun f => decide (f ≤ pa) && decide (pa < f + m.piece)))

/-- The physical address an entry stores to. -/
def Entry.target? : Entry → Option Nat
  | .store _ pa _ _ => some pa
  | .also _ pa _ _ => some pa
  | .atomic _ pa .. => some pa
  | _ => none

/-- Commands a cluster's job queue holds (19 R360). -/
def jobQueueMax : Nat := 32
/-- Commands a Copy Engine holds (20 R396). -/
def copyQueueMax : Nat := 16

/-- Commands that a Copy Engine holds, the one it runs among them (20 R396). -/
def CopyEngine.held (e : CopyEngine) : Nat := e.queue.length + e.run.toList.length

/-- Whether an entry is a message that a full lay-by holds back (05 R100). -/
def Entry.isSend : Entry → Bool
  | .send .. | .sendm .. | .fire .. => true
  | _ => false
/-- Whether it is a host-queue record. -/
def Entry.isHostq : Entry → Bool
  | .hostq .. => true
  | _ => false
/-- Whether it is a job. -/
def Entry.isJob : Entry → Bool
  | .job _ _ _ _ _ voided _ => !voided
  | _ => false
/-- Whether it is a copy command. -/
def Entry.isCopy : Entry → Bool
  | .copy .. => true
  | _ => false

/-- The virtual address an entry stores to. -/
def Entry.targetVa? : Entry → Option Word
  | .store va .. => some va
  | .also va .. => some va
  | .atomic va .. => some va
  | _ => none

/-- Whether a virtual address lies in a page whose leaf says that it is promoting or migrating, by whoever moves it (13 R221). A context
whose host walks tables of its own layout has no such leaf (R220). -/
def State.pageHeld (s : State) (ctx : Nat) (va : Word) : Bool :=
  !(s.ctx ctx).hostWalks && (match s.walk ctx va with | .leaf _ l => decide (l.pst = 1 ∨ l.pst = 2) | _ => false)

/-- Whether core `k`'s next entry to publish is held (09 R154): a page on the move, a full lay-by, a full host queue, a full engine
queue. -/
def State.entryHeld (s : State) (k : Nat) (e : Entry) : Bool :=
  let ctx := s.ctxOf k
  let x := s.ctx ctx
  (e.target?.map s.isMoving).getD false || (e.targetVa?.map (s.pageHeld ctx)).getD false ||
  (e.isSend && x.layFull && decide (x.state ≠ .draining)) || (e.isHostq && decide (2 ^ x.hq.log ≤ (x.hq.wcount - x.hq.rcount).toNat)) ||
  (e.isJob && decide (jobQueueMax ≤ (s.cluster (clusterOf k)).queue.length)) ||
  (e.isCopy && decide (copyQueueMax ≤ (s.engine (engineOf k)).held))

/-- A buffer in the order of its publication (P3): the stores, then the messages. -/
def inOrder (buf : List Entry) : List Entry := buf.filter Entry.isStore ++ buf.filter (fun e => !e.isStore)

/-- Publish entries in order up to the first that is held, and the entries that remain (02 R41, log entry 7). -/
def State.applyUpTo (s : State) (k : Nat) (narrow : Option (Nat × OScope)) : List Entry → State × List Entry
  | [] => (s, [])
  | e :: t => if s.entryHeld k e then (s, e :: t) else (s.applyEntry k narrow e).applyUpTo k narrow t

/-- Whether the publication of a buffer of core `k` is held before its end (09 R154). -/
def State.isHeld (s : State) (k : Nat) (buf : List Entry) : Bool := !(s.applyUpTo k none (inOrder buf)).2.isEmpty

/-- The moves of pages that hold one of these physical addresses note since when they have held a publication (13 R228). -/
def State.noteAt (s : State) (pas : List Nat) : State :=
  { s with moving := s.moving.map (fun m =>
      if m.held.isNone ∧ pas.any (fun pa => m.old.any (fun f => decide (f ≤ pa) && decide (pa < f + m.piece)))
      then { m with held := some s.time } else m) }

/-- The moves that hold a store of a buffer note it. -/
def State.noteHeld (s : State) (buf : List Entry) : State := s.noteAt (buf.filterMap Entry.target?)

/-! ### The boundary -/

/-- A light-handler firing for a control word (03 R66, 09 R161), or the empty-handler path where QCTLH names no actor. -/
def State.lightFire (s : State) (k : Nat) (cw : Word) : State :=
  let q := (s.vs k).csr.qctlh
  let c := s.core k
  let ctx := s.ctxOf k
  match (if fbit q 12 then (s.ctx ctx).bindingOf (fld q 11 0) else none) with
  | some b =>
    s.modCore k (fun c => c.enqueue (Firing.new (.light b cw) (s.coreClass k) c.sendLaunch c.svc
      (XReg.plain cw :: List.replicate 7 XReg.zero ++ [XReg.plain (s.coordW k), s.argCap c.sendLaunch]) [] []))
  | none =>
    let h := BitVec.ofNat 64 (fld q 11 0)
    s.emptyHandler ctx [cw] (s.coordW k) h (s.coordW k) h c.sendLaunch

/-- Light-handler firings in the order of the reads. -/
def State.lightFires (s : State) (k : Nat) : List Word → State
  | [] => s
  | w :: t => (s.lightFire k w).lightFires k t

/-- The rings' pointers stand at their values at this boundary (17 R321). -/
def VState.settleRings (r : VState) : VState := { r with h := r.h.map (fun p => (p.1, { p.2 with p0 := p.2.p, c0 := p.2.c })) }

/-- The open host-queue record completed with zero doublewords (17 R318). -/
def Core.openRecord (c : Core) : List Entry := if c.hq.isEmpty then [] else [.hostq (padTo 8 c.hq)]

/-- Entries with the open host-queue record completed. -/
def Core.closed (c : Core) : List Entry := c.buffer ++ c.openRecord

/-- The narrowing of a boundary of core `k` under a scope (15 R258). -/
def narrowTo (k : Nat) : Option OScope → Option (Nat × OScope)
  | some .clu => some (k, .clu)
  | some .die => some (k, .die)
  | _ => none

/-- A reader's view after its own stores were published within the phase: its loads see them (P1). -/
def View.own (w : View) (e : Entry) : View := match e.stored with
  | some (pa, bs, tag) =>
    { w with bytes := fixBytes w.bytes pa bs,
             tags := (pieces bs.length pa bs).foldl (fun t p => Table.insert t (p.1 / 16) tag) w.tags }
  | none => w

/-- A phase boundary of core `k` over the entries given (P3, P5): the stores are published in program order, then the messages; port
units, ring slots and SPEC's references of the phase are released; a new phase begins; slots that it filled may let an actor match (09 R162).
None where an entry is held. -/
def State.boundaryOver (s : State) (k : Nat) (scope : Option OScope) (buf : List Entry) : Option State :=
  let c := s.core k
  let narrow := narrowTo k scope
  let s1 := s.sample (s.ctxOf k) 3 (BitVec.ofNat 64 (c.out + (buf.map Entry.cost).sum))
  let s2 := if narrow.isNone then s1.widen k else s1
  let (s3, rest) := s2.applyUpTo k narrow (inOrder buf)
  if !rest.isEmpty then none else
  let s4 := s3.lightFires k c.light
  let s5 := s4.modCore k (fun c => { c with vs := c.vs.settleRings, buffer := [], out := 0, view := s4.newView, taken := [], takenIb := [],
                                            light := [], made := [] })
  some (if c.home.h.isEmpty ∨ c.launch.isNone then s5 else s5.matchActors k)

/-- A phase boundary of core `k`; `scope` is that of an ORD prefix. An open host-queue record is completed and published with it; where
the buffer has no room for the record, the buffer is published early and the firing is committed (17 R302, R318). -/
def State.boundary (s : State) (k : Nat) (scope : Option OScope) : Option State :=
  let c := s.core k
  let finish (t : State) : State := t.modCore k (fun c => { c with hq := [] })
  if c.hq.isEmpty ∨ c.used + 4 ≤ bufferMax then (s.boundaryOver k scope c.closed).map finish
  else ((s.commit k).boundaryOver k none c.buffer).bind (fun t => (t.boundaryOver k scope c.openRecord).map finish)

/-- What a boundary of core `k` that is held leaves: what stands before the first held entry is published, the rest stays in the buffer
(02 R41). What is out cannot be replayed, so the firing is committed early (21, "Early commit"; log entry 7). -/
def State.stall (s : State) (k : Nat) (scope : Option OScope) : State :=
  let c := s.core k
  let all := inOrder c.buffer
  let (s1, rest) := s.applyUpTo k (narrowTo k scope) all
  let gone := all.take (all.length - rest.length)
  (if gone.isEmpty then s
   else (s1.commit k).modCore k (fun c =>
    { c with buffer := rest, out := c.out + (gone.map Entry.cost).sum, view := gone.foldl View.own c.view })).noteHeld rest

/-- A store that a page on the move has held goes to the frame that its page has now (13 R228). -/
def Entry.follow (s : State) (ctx : Nat) (e : Entry) : Entry :=
  let now (va : Word) (pa : Nat) : Nat := (s.vaToPa ctx .write va).getD pa
  match e with
  | .store va pa bs t => .store va (now va pa) bs t
  | .also va pa bs n => .also va (now va pa) bs n
  | .atomic va pa w op v c => .atomic va (now va pa) w op v c
  | e => e

/-- Where a store heads what core `k` has still to publish, a page on the move has held it: the stores follow their pages. -/
def State.refollow (s : State) (k : Nat) : State := match inOrder (s.core k).buffer with
  | e :: _ => if e.isStore then s.modCore k (fun c => { c with buffer := c.buffer.map (Entry.follow s (s.ctxOf k)) }) else s
  | [] => s

end Sys2Proof.Machine
end

