-- ==== Sys2Proof/Machine/Sched.lean ====
section
/-! DEFINITION. The life of a firing on a core (09 R154-R163): starting, suspending, aborting, ending; the service virtual core (05 R462). -/

namespace Sys2Proof.Machine

/-! ### The service virtual core (05 R462) -/

/-- Load the context's service virtual core in place of the group's. -/
def State.loadService (s : State) (k : Nat) : State :=
  let sv := (s.ctx (s.ctxOf k)).service
  s.modCore k (fun c => { c with parked := some c.vs, vs := sv })

/-- Put the service virtual core back; its cast is behind from then on. -/
def State.storeService (s : State) (k : Nat) : State :=
  match (s.core k).parked with
  | some v =>
    let sv := (s.core k).vs
    (s.modCtx (s.ctxOf k) (fun x => { x with service := sv, svcDirty := true })).modCore k (fun c => { c with parked := none, vs := v })
  | none => s

/-! ### Registers kept and dropped -/

/-- The keep registers x96-x127 of a table (03 R42). -/
def keepOf (x : Table XReg) : Table XReg := x.filter (fun p => decide (96 ≤ p.1))

/-- Whether XLIVE names xn (03 R67). -/
def xLive (mask : Word) (n : Nat) : Bool := decide (n < 96) && fbit mask (n / 4)
/-- Whether YLIVE names yn. -/
def yLive (mask : Word) (n : Nat) : Bool := fbit mask (32 + n)
/-- Whether VLIVE names vn. -/
def vLive (mask : Word) (n : Nat) : Bool := fbit mask (48 + n / 4)
/-- Whether TLIVE names tn. -/
def tLive (mask : Word) (n : Nat) : Bool := fbit mask (56 + n)

/-- Whether a core's tile registers hold what is its owner's, and not a cast that it has not read (11 R200). -/
def Core.hasTiles (c : Core) : Bool := c.svc || c.lazy.isNone

/-- What a safe point with this live mask keeps, to go on at `next` (03 R68). -/
def Core.resumeAt (c : Core) (mask next : Word) : Resume :=
  { x := c.vs.x.filter (fun p => xLive mask p.1), y := c.vs.y.filter (fun p => yLive mask p.1),
    v := c.vs.v.filter (fun p => vLive mask p.1), t := if c.hasTiles then some (c.vs.t.filter (fun p => tLive mask p.1)) else none,
    epcl := c.vs.csr.epcl, epch := c.vs.csr.epch, estat := c.vs.csr.estat, pc := next, pcc := c.pcc, stream := c.stream, mask,
    kept := c.kept, ticket := c.ticket }

/-- The replay point that a firing now has (22 R422). -/
def Core.pointAt (c : Core) (resume : Option Resume) (recv : Nat) : Point :=
  { resume, csr := c.vs.csr, keep := keepOf c.vs.x, v := c.vs.v, recv, carried := c.carries.length }

/-! ### Starting -/

/-- The code a firing starts in: its first address and its PCC; none where its kernel can start no firing (09 R160), but a firing that
had run before a kernel was unloaded goes on (07 R139). -/
def State.entryOf (s : State) (ctx : Nat) (code : Code) (started : Bool) : Option (Word × XReg) :=
  let x := s.ctx ctx
  let fromHandle (i : Nat) : Word × XReg := ((x.handle i).codeva, codeCap (x.handle i).codeva (x.handle i).words.toNat)
  let fromActor (b : Binding) : Option (Word × XReg) :=
    let kn := x.kernel b.kernel
    match kn.actor? b.actor with
    | some a =>
      let p := kn.places.getD a.func (0, 0)
      if kn.state = .loaded ∨ started ∧ kn.state = .retiring then some (p.1, codeCap p.1 p.2) else none
    | none => none
  match code with
  | .actor b => fromActor b
  | .light b _ => fromActor b
  | .handle r => some (fromHandle r.index)

/-- x registers of a table set from x1 on. -/
def startX (keep : Table XReg) (regs : List XReg) : Table XReg :=
  (regs.zipIdx.foldl (fun t p => Table.set XReg.zero t (p.2 + 1) p.1) [] : Table XReg) ++ keep

/-- x1-x10 of a firing at its start: where x9 is "this core's coordinate" (09 R161), it is that of the core on which the firing first starts. -/
def Firing.startsWith (f : Firing) (coord : Word) : List XReg :=
  let here : Bool := match f.code, f.inputs with
    | .light _ _, _ => true
    | _, .slots _ _ :: _ => true
    | _, _ => false
  if here ∧ !f.started then f.regs.set 8 (XReg.plain coord) else f.regs

/-- The tile registers that a firing finds where the core's registers are `now`: those that its safe point kept; a replay reads what the run
that was aborted left (11 R202). -/
def Firing.tiles (f : Firing) (now : Table Tile) : Table Tile := match f.resume with
  | none => now
  | some r => match r.t with
    | some t => t
    | none => if f.replay.isSome then now else now.filter (fun p => tLive r.mask p.1)

/-- The firing begins to run: from its start (09 R161, 03 R42) or from the safe point it was suspended at (03 R68). A replay has the
snapshot of the run that was aborted (07 R137). -/
def State.startFiring (s : State) (k : Nat) (f : Firing) (va : Word) (pcc : XReg) : State :=
  let s1 := if f.svc then s.loadService k else s
  let c := s1.core k
  let keep0 := keepOf c.vs.x
  let keep := if f.svc ∧ f.resume.isNone then
      Table.set XReg.zero (Table.set XReg.zero keep0 126 XReg.zero) 127 (if f.launch.isSome then messageCap else XReg.zero)
    else keep0
  let regs := f.startsWith (s.coordW k)
  let f1 := { f with start := BitVec.ofNat 64 s.cycle, started := true, regs }
  let vs : VState := match f.resume with
    | none => { c.vs with x := startX keep regs, y := [], csr := { c.vs.csr with epcl := 0, epch := 0, estat := 0 } }
    | some r => { c.vs with x := r.x ++ keep, y := r.y, v := r.v, t := f.tiles c.vs.t,
                            csr := { c.vs.csr with epcl := r.epcl, epch := r.epch, estat := r.estat } }
  let c1 := { c with vs := vs.clearL, run := .running, firing := some f1, pc := (f.resume.map Resume.pc).getD va,
                     pcc := (f.resume.map Resume.pcc).getD pcc, pfx := none, again := none, buffer := [], out := 0, view := f.replay.getD s1.newView,
                     committed := f.committed, stream := (f.resume.map Resume.stream).getD (.port 0), lq := [], sq := [], hq := [], taken := [], takenIb := [], light := [], made := [], latch := [],
                     mode := (s1.ctx (s1.ctxOf k)).modemap, kept := f.resume.bind Resume.kept,
                     ticket := f.resume.bind Resume.ticket }
  s1.setCore k { c1 with point := c1.pointAt f.resume f.recv }

/-! ### Leaving the core -/

/-- The core holds no firing any more. A pre-emption request is taken here (05 R103). -/
def State.restCore (s : State) (k : Nat) : State :=
  (if (s.core k).svc then s.storeService k else s).modCore k (fun c =>
    { c with run := .idle, firing := none, committed := false, pfx := none, again := none, kept := none, ticket := none, mask := 0, buffer := [], out := 0, lq := [], sq := [], hq := [], taken := [], takenIb := [], light := [], made := [], latch := [],
             preempt := c.preempt.map (fun p => { p with taken := true }) })

/-- The firing leaves the core SUSPENDED, to go on as its replay point says (09 R154, R165). -/
def State.suspend (s : State) (k : Nat) : State :=
  match (s.core k).firing with
  | none => s
  | some f =>
    let c := s.core k
    let f1 := { f with resume := c.point.resume, recv := c.point.recv, committed := c.committed, replay := none }
    (s.restCore k).modCore k (fun c => { c.requeue f1 with preempt := c.preempt.map (fun p => { p with safe := true }) })

/-- Messages of a firing are released from the inbox. -/
def Core.dropMessages (c : Core) (l : List Input) : Core := { c with inbox := c.inbox.filter (fun m => Input.msg m.id ∉ l) }

/-- Join counters of a firing that has ended return to IDLE unless a JINIT has re-armed them (10 R173). -/
def Core.dropJoins (c : Core) (l : List Input) : Core :=
  let freed := c.home.joins.map (fun j =>
    if Input.join j.1 ∈ l then (j.1, if j.2.state = .fired then Join.idle else { j.2 with taken := false }) else j)
  c.setHome { c.home with joins := freed.filter (fun j => decide (j.2 ≠ Join.idle)) }

/-- The inputs and references of a firing that has ended are released (09 R155, 12 R207). -/
def State.releaseFiring (s : State) (k : Nat) (f : Firing) : State :=
  ((s.modCore k (fun c => (c.dropMessages f.inputs).dropJoins f.inputs)).dropAll (s.ctxOf k) f.refs).matchActors k

/-- A core that the Plinth bound for firings of the fault actor alone serves no context once it holds none (05 R462). -/
def State.leaveSvc (s : State) (k : Nat) : State :=
  let c := s.core k
  if c.ctx.isSome ∧ c.launch.isNone ∧ c.holders.isEmpty then s.modCore k (fun c => { c with ctx := none, preempt := none }) else s

/-- The firing of core `k` is ENDED (09 R154-R155). The stopping firing's END returns the context to LIVE (05 R102). -/
def State.endFiring (s : State) (k : Nat) : State :=
  match (s.core k).firing with
  | none => s
  | some f =>
    let ctx := s.ctxOf k
    let s1 := s.sample ctx 7 (BitVec.ofNat 64 (s.cycle - f.start.toNat))
    let s2 := (s1.restCore k).modCore k (fun c => { c with carries := [] })
    let s3 := s2.releaseFiring k f
    (if (s3.ctx ctx).stopper = some k then s3.wakeWorld ctx else s3).leaveSvc k

/-- A pre-emption request reaches a core (05 R103). A core that runs nothing has already stopped. DESTROY replaces another reason. -/
def Core.request (c : Core) (r : Reason) (cycle : Nat) : Core := match c.preempt with
  | some p => if r = .destroy then { c with preempt := some { p with reason := r } } else c
  | none => { c with preempt := some { reason := r, cycle, taken := decide (c.run = .idle), safe := false } }

/-! ### Aborting (22 R422) -/

/-- Provisional references that a discarded buffer held. -/
def provisional : List Entry → List HRef
  | [] => []
  | .hhold r :: t => r :: provisional t
  | .fire r _ :: t => r :: provisional t
  | _ :: t => provisional t

/-- The window CSRs of a committed-early firing after its buffer is discarded: its HELD commands return to what their nibbles were, and
the counters go back by as many (19 R360). Entries are undone last first. -/
def Csrs.undoHeld (c : Csrs) : List Entry → Csrs
  | [] => c
  | e :: t =>
    let c' := c.undoHeld t
    match e with
    | .job _ _ _ id _ _ was => { c' with jobwin := setNibble c'.jobwin id was, jobctr := BitVec.ofNat 64 id }
    | .copy _ _ _ id _ was => { c' with cpwin := setNibble c'.cpwin id was, cpctr := BitVec.ofNat 64 id }
    | _ => c'

/-- The CSRs after the abort of a committed-early firing: every one that it wrote returns to its value (20 R388), but FSTAT "keeps every bit
set before the fault" (04 R80), the windows show what has been published, and SCANST is written by scans, not by the firing. -/
def Core.csrAfter (c : Core) : Csrs :=
  if !c.committed then c.point.csr
  else
    let w := c.vs.csr.undoHeld c.buffer
    { c.point.csr with fstat := w.fstat, scanst := w.scanst, jobctr := w.jobctr, jobwin := w.jobwin, cpctr := w.cpctr, cpwin := w.cpwin }

/-- Retire the entries of SPEC whose provisional owner references an abort drops (20 R402). -/
def State.retireAll (s : State) (ctx : Nat) : List HRef → State
  | [] => s
  | r :: t => ((s.modCtx ctx (fun x => x.setHandle r.index { x.handle r.index with owners := 0 })).retireHandle ctx r.index).retireAll ctx t

/-- Units return to the heads of their ports in their original order (03 R60). -/
def returnUnits (ports : Table (List PUnit)) : List (Nat × PUnit) → Table (List PUnit)
  | [] => ports
  | (i, u) :: t =>
    let p := returnUnits ports t
    Table.set [] p i (u :: Table.get [] p i)

/-- Nothing waits for core `k`'s firing any more: wait lists, replies, requests; an entry that a SPEC had reserved is FREE (12 R205). -/
def State.cancelWaits (s : State) (k : Nat) : State :=
  let noReply (b : Body) : Body := match b with
    | .remote op off w v cmp r => .remote op off w v cmp (if r = some k then none else r)
    | b => b
  let reserved := ((s.ctx (s.ctxOf k)).asks.filterMap (fun a => match a.2 with | .spec j i _ => if j = k then some i else none | _ => none))
  let s1 := s.modCtx (s.ctxOf k) (fun x =>
    { reserved.foldl (fun x i => x.setHandle i { x.handle i with state := .free }) x with
             events := x.events.map (fun e => (e.1, { e.2 with waiters := e.2.waiters.filter (fun w => decide (w ≠ .core k)) })),
             away := x.away.filter (fun a => decide (a.who ≠ .core k)),
             asks := (x.asks.filter (fun a => match a.2 with | .tlb j => decide (j ≠ k) | .spec j _ _ => decide (j ≠ k) | _ => true)).map (fun a => (a.1, match a.2 with
               | .event e op who => .event e op (if who = some (.core k) then none else who)
               | q => q)),
             lay := x.lay.map (fun e => { e with body := noReply e.body }) })
  { s1 with flights := s1.flights.map (fun f => { f with body := noReply f.body }) }

/-- What an abort undoes on core `k` before the firing goes to its service or its end (22 R422). -/
def State.undoFiring (s : State) (k : Nat) : State :=
  let ctx := s.ctxOf k
  let c0 := s.core k
  let s1 := ((s.dropAll ctx (provisional c0.buffer)).retireAll ctx c0.made).cancelWaits k
  s1.modCore k (fun c =>
    let csr := c.csrAfter
    let h := c.vs.h.map (fun p => (p.1, { p.2 with p := p.2.p0, c := p.2.c0 }))
    { c with
      vs := { c.vs with csr, h },
      ports := returnUnits c.ports c.taken, ib := c.takenIb ++ c.ib,
      mailbox := (c.carries.drop c.point.carried) ++ c.mailbox, carries := c.carries.take c.point.carried,
      buffer := [], hq := [], lq := [], sq := [], taken := [], takenIb := [], light := [], made := [] })

/-- The firing as it is replayed: from its start or its last safe point (09 R154), with the tile registers as they are (11 R202). -/
def Core.replayed (c : Core) (f : Firing) : Firing :=
  { f with resume := c.point.resume.map (fun r => { r with t := if c.hasTiles then none else r.t }), recv := c.point.recv, committed := c.committed, replay := some c.view }

/-- The keep registers and v registers stand as at the replay point: "a replayed firing starts as its first run did" (09 R161). -/
def State.restoreRegs (s : State) (k : Nat) : State :=
  s.modCore k (fun c => { c with vs := { c.vs with x := c.point.keep, v := c.point.v } })

/-- Abort the firing of core `k` for a replay: its effects undone, the firing to be replayed, the core free. -/
def State.abortReplay (s : State) (k : Nat) : State :=
  match (s.core k).firing with
  | none => s
  | some f =>
    let f1 := (s.core k).replayed f
    (((s.undoFiring k).restoreRegs k).restCore k).modCore k (fun c => c.requeue f1)

/-- Abort the firing of core `k` and end it, with no report (05 R95, R103 under DESTROY). -/
def State.abortEnd (s : State) (k : Nat) : State := (s.undoFiring k).endFiring k

end Sys2Proof.Machine
end

