-- ==== Sys2Proof/Machine/Ops.lean ====
section
/-! DEFINITION. The operations that instructions share: how one can stop, translation, fetching, safe points, faults as
22 R419-R425 serve them, taking a trap and returning from it (20 R383-R386), and running one instruction's effect with the
checks that every instruction has (03 R63-R64, 15 R243, 16 R293, 22 R421). -/

namespace Sys2Proof.Machine

/-- How an instruction ends when it does not complete: by a fault with its data address, or waiting in the state given. -/
inductive Stop where
  | fault (code : FCode) (addr : Word)
  | wait (w : Wait) (s : State)
  deriving DecidableEq, Repr

/-- The result of a part of an instruction. -/
abbrev Res (α : Type) := Except Stop α

/-- Raise a fault. -/
def fault {α : Type} (code : FCode) (addr : Word) : Res α := .error (.fault code addr)
/-- Raise a fault where a condition holds. -/
def faultIf (b : Bool) (code : FCode) (addr : Word) : Res Unit := if b then fault code addr else .ok ()
/-- Wait and execute the instruction again when the wait ends. -/
def redo {α : Type} (s : State) (w : Wait) : Res α := .error (.wait w s)
/-- The result of a capability check. -/
def liftCap {α : Type} (e : Except (FCode × Word) α) : Res α := match e with
  | .ok a => .ok a
  | .error (c, a) => fault c a

/-- The outcome of a step. -/
abbrev Out := Host.Outcome State Fault Refusal

/-! ### Translation (13 R218-R223) -/

/-- An access in the second doubleword of a service record, bits 34:32, and 0 to 2 in the order read, write, fetch (06 R121 lists the three
and gives them no numbers: DESIGN CHOICE, log entry 39). -/
def Access.code : Access → Nat
  | .read => 0
  | .write => 1
  | .fetch => 2

/-- The second doubleword of a TLBMISS or PAGE record: the core and the access (06 R121). -/
def State.whoAndHow (s : State) (k : Nat) (acc : Access) : Word := s.coordW k ||| BitVec.ofNat 64 (acc.code * 2 ^ 32)

/-- A leaf is written into the cluster TLB and core `k`'s (13 R222). -/
def State.fillTlbs (s : State) (k : Nat) (va : Word) (l : Leaf) : State :=
  let u := s.cluster (clusterOf k)
  let ctx := s.ctxOf k
  let own := l.entry ctx va 0
  (s.setCluster (clusterOf k) { u with tlb := ctlbPut (l.entry ctx va (tlbSet va)) u.tlb }).modCore k (fun c =>
    { c with tlb := tlbPut 32 own c.tlb, latch := own :: c.latch })

/-- A leaf serves the miss of a PREF, which nothing awaits: how long the service took is a free value (23 R433, source 8). -/
def State.prefFilled (s : State) (k : Nat) (va : Word) (l : Leaf) : State :=
  let t := s.fillTlbs k va l
  if t.gathers (s.ctxOf k) 8 then ({ t with free := t.free + 1 } : State).sample (s.ctxOf k) 8 (Config.prefMiss t.free) else t

/-- A miss forwarded to the host under TLBFILL = 1 (13 R222, 06 R121). -/
def State.missRecord (s : State) (k : Nat) (va : Word) (acc : Access) (ask : Ask) : State :=
  (s.serviceRecord (s.ctxOf k) 1 [va, s.whoAndHow k acc] (some ask)).2

/-- The translation of an address of a PREF (17 R306): a hit touches the TLBs; a miss goes to the toll core, which fills them from a leaf
that may be read, or asks the host. PREF awaits neither. -/
def State.touch (s : State) (k : Nat) (va : Word) : State :=
  if 2 ^ 56 ≤ va.toNat then s
  else match s.lookup k (s.ctxOf k) .read va with
    | some (_, s1) => s1
    | none =>
      if (s.core k).tlbfill then s.missRecord k va .read (.pref k va)
      else match s.walk (s.ctxOf k) va with
        | .leaf _ l => if l.admits .read then s.prefFilled k va l else s
        | _ => s

/-- Find the physical address of an address for core `k`: PAGE where any of bits 63:56 is set, a wait for the toll core on a miss. -/
def State.find (s : State) (k : Nat) (acc : Access) (va : Word) : Res (Nat × State) :=
  if va.toNat ≥ 2 ^ 56 then fault .page va
  else match s.lookup k (s.ctxOf k) acc va with
    | some (pa, s') => .ok (pa, s')
    | none => .error (.wait (.tlb va acc) s)

/-- MCHECK at the first of these addresses that stands in a stack of a lost die; it is tested once no address raises PAGE (22 R421). -/
def State.reachable (s : State) (l : List (Word × Nat)) : Res Unit := match l.find? (fun p => s.lostMemory p.2) with
  | some p => fault .mcheck p.1
  | none => .ok ()

/-- Translate an address for core `k`. -/
def State.translate (s : State) (k : Nat) (acc : Access) (va : Word) : Res (Nat × State) := do
  let (pa, s1) ← s.find k acc va
  s1.reachable [(va, pa)]
  return (pa, s1)

/-- Translate the pieces of an access of n bytes, which may lie in two pages: (address, physical address, length), ascending. -/
def State.translateSpan (s : State) (k : Nat) (acc : Access) (va : Word) (n : Nat) : Res (List (Word × Nat × Nat) × State) :=
  let first := 65536 - va.toNat % 65536
  if n ≤ first then do
    let (pa, s1) ← s.translate k acc va
    return ([(va, pa, n)], s1)
  else do
    let (pa, s1) ← s.find k acc va
    let va2 := va + BitVec.ofNat 64 first
    let (pb, s2) ← s1.find k acc va2
    s2.reachable [(va, pa), (va2, pb)]
    return ([(va, pa, first), (va2, pb, n - first)], s2)

/-- The faults of a reading, or those of checks that come before them in the order of 22 R421. -/
def before {α : Type} (checks : Res Unit) (r : Res α) : Res α := match r, checks with
  | .error (.fault f a), .error (.fault g b) => if g.rank < f.rank then fault g b else fault f a
  | r, _ => r

/-! ### Fetching (16 R293, 15 R260, 21 R417) -/

/-- Whether a word lies within the bounds of PCC. -/
def Core.reaches (c : Core) (a : Word) : Bool := !c.pcc.outside a 8

/-- The contents that a fetch of a word may find: the newest, or an older one that no FENCE.CODE has dropped. -/
def State.fetchable (s : State) (pa : Nat) : List Word :=
  s.word pa :: ((s.hist.filter (fun v => decide (v.granule = pa / 16) && v.code)).map
    (fun v => BitVec.ofNat 64 (ofBytes (sliceOf v.bytes (pa % 16) 8))))

/-- Fetch the word at an address for core `k`. -/
def State.fetchAt (s : State) (k : Nat) (a : Word) : Res (Word × State) :=
  if !(s.core k).reaches a then fault .capBounds a
  else do
    let (pa, s1) ← s.translate k .fetch a
    match distinct (s1.fetchable pa) with
    | [w] => return (w, s1)
    | l => return (l.getD (Config.fetchPick s1.free % l.length) 0, { s1 with free := s1.free + 1 })

/-- The breakpoint register that an address matches (13 R230). -/
def Csrs.matches (c : Csrs) (a : Word) : Option Nat :=
  (List.range 8).find? (fun n =>
    let b := Table.get 0 c.brka n
    fbit b 0 && decide (fld b 55 3 = fld a 55 3) && decide (fld a 63 56 = 0))

/-! ### Where an instruction stands -/

/-- The address that a fault of the current unit reports: its first prefix's, or the word's own (15 R260). -/
def Core.unitAt (c : Core) : Word := match c.pfx with | some p => p.first | none => c.pc

/-- The address after the word, past the live mask of a word with SP. -/
def Core.fallThrough (c : Core) (sp : Bool) : Word := c.pc + (if sp then 16 else 8)

/-- Control passes to `next`: no prefix is pending any more. -/
def State.advance (s : State) (k : Nat) (next : Word) : State :=
  s.modCore k (fun c => { c with pc := next, pfx := none, again := none, latch := [] })

/-- A field of 20 bits as a signed doubleword, widened by a pending XIMM (15 R256). -/
def Core.widened (c : Core) (imm : BitVec 20) : Word :=
  match c.pfx.bind Pfx.ximm with
  | some x => (x ++ imm : BitVec 52).signExtend 64
  | none => imm.signExtend 64

/-- The scope of a pending ORD, with its strength. -/
def Core.order (c : Core) : Option Order := c.pfx.bind Pfx.ord
/-- Whether a pending ORD asks for a boundary before and publication at once (.REL, .AR). -/
def Core.releasing (c : Core) : Bool := match c.order with
  | some o => decide (o.str ≠ .acq)
  | none => false
/-- Whether it asks for a boundary after (.ACQ, .AR). -/
def Core.acquiring (c : Core) : Bool := match c.order with
  | some o => decide (o.str ≠ .rel)
  | none => false

/-! ### Waiting -/

/-- The live mask of a word with SP stays with it while it waits (15 R243). -/
def State.withMask (s : State) (k : Nat) (m : Word) : State := s.modCore k (fun c => { c with mask := m })

/-- Core `k`'s firing waits (09 R154). -/
def State.waitOn (s : State) (k : Nat) (w : Wait) (sp : Bool) : State :=
  s.modCore k (fun c => { c with run := .waiting w sp, waitFrom := s.cycle })

/-- A boundary of core `k` that an instruction makes; where its publication is held the instruction is executed again when room
comes (09 R154). -/
def State.publishNow (s : State) (k : Nat) (scope : Option OScope) : Res State := match s.boundary k scope with
  | some s' => .ok s'
  | none => .error (.wait .boundary s)

/-- Entries enter the phase buffer; where they do not fit, the firing commits early and the buffer is published first (02 R29,
17 R302). -/
def State.enter (s : State) (k : Nat) (es : List Entry) : Res State :=
  let need := (es.map Entry.cost).sum
  if (s.core k).used + need ≤ bufferMax then
    .ok (s.modCore k (fun c => { c with buffer := c.buffer ++ es }))
  else do
    let s1 ← (s.commit k).publishNow k none
    return s1.modCore k (fun c => { c with buffer := c.buffer ++ es })

/-! ### ORD (15 R258) -/

/-- The scope of the boundaries that a pending ORD asks for. -/
def Core.scope (c : Core) : Option OScope := c.order.map Order.scope

/-- The boundary before an instruction under .REL or .AR, made once the instruction's own checks have passed. -/
def State.lead (s : State) (k : Nat) : Res State := if (s.core k).releasing then s.publishNow k (s.core k).scope else .ok s

/-- The boundary after an instruction under .ACQ or .AR. -/
def State.trail (s : State) (k : Nat) : Res State := if (s.core k).acquiring then s.publishNow k (s.core k).scope else .ok s

/-- Entries published at once within the phase: the firing commits early (R258). -/
def State.publishOnce (s : State) (k : Nat) (es : List Entry) : Res State :=
  if s.isHeld k es then .error (.wait .boundary (s.noteHeld es))
  else
    .ok (((s.commit k).applyEntries k (narrowTo k (s.core k).scope) es).modCore k (fun c => { c with view := es.foldl View.own c.view }))

/-- Entries of a store, a posted atomic or a SEND, in the order that a pending ORD asks for. -/
def State.enterOrdered (s : State) (k : Nat) (es : List Entry) : Res State := do
  let s1 ← s.lead k
  let s2 ← (if (s.core k).releasing then s1.publishOnce k es else s1.enter k es)
  s2.trail k

/-! ### Safe points (03 R67-R68, 15 R243) -/

/-- Whether core `k`'s firing must stop at its safe point: a pre-emption request is pending, or its context is HALTED (05 R95,
R103). -/
def State.mustStop (s : State) (k : Nat) : Bool :=
  (s.core k).preempt.isSome || decide ((s.ctx (s.ctxOf k)).state = .halted)

/-- The safe point of core `k` with a live mask, going on at `next`, after the instruction's effect. It makes the boundary, clears
the l file, sets the replay point; a pending request, or `yield`, suspends the firing. Under DESTROY the firing ends. -/
def State.safePoint (s : State) (k : Nat) (mask next : Word) (yield : Bool) : State :=
  match s.boundary k none with
  | none => (s.stall k none).waitOn k (.safe mask next) yield
  | some s1 =>
    let recv := match (s1.core k).firing with | some f => f.recv | none => 0
    let s2 : State := s1.modCore k (fun c =>
      let c1 : Core :=
        { c with vs := c.vs.clearL, pc := next, pfx := none, again := none, latch := [], run := .running, mode := (s1.ctx (s1.ctxOf k)).modemap }
      { c1 with point := c1.pointAt (some (c1.resumeAt mask next)) recv })
    if (s2.core k).preempt.any (fun p => decide (p.reason = .destroy)) then s2.endFiring k
    else if yield || s2.mustStop k then s2.suspend k
    else s2

/-! ### Faults (22) -/

/-- The eight registers of a firing's triggering message or completion record, with its handler index, where input 0 is one. -/
def Core.trigger (c : Core) (f : Firing) : Option Msg := match f.inputs with
  | .msg id :: _ => (c.inbox.find? (fun m => decide (m.id = id))).map InMsg.msg
  | _ => none

/-- The firing is Ended by a fault (22 R419): its trigger goes to the dead-letter queue, the fault to the fault actor or the error
queue (R420); a firing of the fault actor halts the context (05 R101). -/
def State.endByFault (s : State) (k : Nat) (code : FCode) (addr at_ : Word) : State :=
  match (s.core k).firing with
  | none => s
  | some f =>
    let ctx := s.ctxOf k
    let early := (s.core k).committed
    let trig := (s.core k).trigger f
    let s1 := s.undoFiring k
    let (dl, s2) := match trig with
      | some m =>
        let (n, t) := s1.deadLetter ctx (lows m.regs) (s1.coordW k) (BitVec.ofNat 64 m.hidx) (BitVec.ofNat 64 code.code)
        (some n, t)
      | none => (none, s1)
    let s3 := if f.svc then s2 else s2.ctxEvent ctx
      { regs := eventRegs code.code (s2.coordW k) addr at_ early dl s2.time, launch := f.launch,
        fault := decide ((s.core k).faultsvc = 2), fromSvc := false }
    let s4 := (if code = .peerLost then s3.poison ctx (fun sc => decide (sc = .sys)) else s3).endFiring k
    if f.svc then s4.haltCtx ctx 1 else s4

/-- The page of an address in units of 64 KiB (13 R226). -/
def pageOf (va : Word) : Nat := va.toNat / 65536

/-- A fault of core `k`'s firing, reported at `at_` (22 R419-R420, 09 R154). PAGE waits for its service, and a replay, where a
service may map the page; the fourth consecutive refault is PAGE_LOOP (13 R226). -/
def State.takeFault (s : State) (k : Nat) (code : FCode) (addr at_ : Word) (acc : Access) : State :=
  match (s.core k).firing with
  | none => s
  | some f =>
    let ctx := s.ctxOf k
    let x := s.ctx ctx
    if code ≠ .page then s.endByFault k code addr at_
    else
      let count := if f.refPage = some (pageOf addr) then f.refCount + 1 else 0
      if 4 ≤ count then s.endByFault k .pageLoop addr at_
      else if (s.core k).committed ∨ (s.core k).faultsvc = 1 ∨ x.state = .draining then s.endByFault k .page addr at_
      else
        let f1 := { (s.core k).replayed f with refPage := some (pageOf addr), refCount := count }
        let s1 := ((s.undoFiring k).restoreRegs k).restCore k
        let (seq, s2) := if (s.core k).faultsvc = 2 then
            let (n, t) := s1.serviceRecord ctx 2
              [addr, s.whoAndHow k acc, at_, 0] (some (.page k))
            (some n, t)
          else (none, s1)
        s2.modCore k (fun c => { c with aborted := c.aborted ++ [{ firing := f1, va := addr, acc, addr := at_, seq, refused := false }] })

/-! ### Traps (20 R383-R386) -/

/-- Take a trap: TVEC's code is entered with the return address saved (R384). `cause` is 0 TRAP, 1 BRK, 2 breakpoint match. The
state given stands at the trap's address; the pc of the result is the handler's. -/
def State.enterTrap (s : State) (k cause code : Nat) (ret : Word) : Res State := do
  let r := HRef.of (s.vs k).csr.tvec
  faultIf (!s.handlePasses k r) .handleStale (s.vs k).csr.tvec
  let s1 := s.takeRef k r
  let e := (s1.ctx (s1.ctxOf k)).handle r.index
  return s1.modCore k (fun c =>
    let link := c.pcc.move ret
    let csr := { c.vs.csr with
      epcl := link.addr, epch := link.hi,
      estat := BitVec.ofNat 64 (1 + link.tag.toNat * 2 + cause % 4 * 2 ^ 8 + code % 65536 * 2 ^ 16) }
    { c with vs := { c.vs with csr }, pcc := codeCap e.codeva e.words.toNat, pc := e.codeva, pfx := none, again := none, latch := [] })

/-- Whether a trap is being handled. -/
def Csrs.trapActive (c : Csrs) : Bool := fbit c.estat 0

/-- BRK and a breakpoint match: the trap where one can be taken, else the fault BRK (R385). -/
def State.breakTrap (s : State) (k cause code : Nat) (ret addr : Word) : Res State :=
  if (s.vs k).csr.tvec ≠ 0 ∧ !(s.vs k).csr.trapActive then s.enterTrap k cause code ret else fault .brk addr

/-- Return from a trap (R386). -/
def State.leaveTrap (s : State) (k : Nat) : Res State := do
  let c := (s.vs k).csr
  faultIf (!c.trapActive) .illegal 0
  faultIf (!fbit c.estat 1) .capTag c.epcl
  faultIf ((XReg.ofWords c.epcl c.epch true).outside c.epcl 8) .capBounds c.epcl
  faultIf (decide (c.epcl.toNat % 8 ≠ 0)) .align c.epcl
  let skip := decide (fld c.estat 9 8 = 2)
  let estat := (c.estat &&& ~~~5#64) ||| (if skip then 4 else 0)
  return s.modCore k (fun x =>
    { x with vs := { x.vs with csr := { x.vs.csr with estat } }, pcc := XReg.ofWords c.epcl c.epch true, pc := c.epcl,
             pfx := none, again := none, latch := [] })

/-! ### LQ and SQ at dispatch (03 R63-R64) -/

/-- How often an operand list names a port. -/
def countPort (i : Nat) (l : List Opnd) : Nat := (l.filter (fun o => match o with | .port j => decide (j.val = i) | _ => false)).length

/-- Whether R63 or R64 makes the word ILLEGAL: a read of LQ or SQ for which no earlier word has left an entry, or an entry left in either
at a boundary that needs them empty, after the word's own reads and writes. -/
def Core.queuesBad (c : Core) (needEmpty : Bool) (srcs dsts : List Opnd) : Bool :=
  decide (c.lq.length < countPort 5 srcs) || decide (c.sq.length < countPort 6 srcs) ||
  (needEmpty && (decide (countPort 5 srcs < c.lq.length + countPort 5 dsts) ||
    decide (countPort 6 srcs < c.sq.length + countPort 6 dsts)))

/-! ### Running one instruction -/

/-- What a word's effect leaves: the state, and where control goes where it does not fall through. -/
abbrev Effect := State × Option Word

/-- The first of two faults in the order of 22 R421. -/
def firstFault (a b : Option (FCode × Word)) : Option (FCode × Word) := match a, b with
  | some x, some y => if y.1.rank < x.1.rank then some y else some x
  | some x, none => some x
  | none, y => y

/-- The fault of a word's placement: the words it falls through to, and the live mask of a word with SP, must lie within PCC
(16 R293). -/
def Core.placement (c : Core) (sp falls : Bool) : Option (FCode × Word) :=
  if sp ∧ !c.reaches (c.pc + 8) then some (.capBounds, c.pc + 8)
  else if falls ∧ !c.reaches (c.fallThrough sp) then some (.capBounds, c.fallThrough sp)
  else none

/-- The access kind of a PAGE fault is remembered for its service: what the instruction was doing at that address. -/
def Stop.acc : Stop → Access
  | .wait (.tlb _ a) _ => a
  | _ => .read

/-- Whether a wait ends in executing its instruction again. -/
def Wait.redo : Wait → Bool
  | .port | .handle | .boundary | .tlb .. | .window .. => true
  | _ => false

/-- The state in which an instruction waits: one that will be executed again has taken no effect, except that what stood before the first
held entry of its publication is published, that moves of pages note what they hold, and that it may have committed the firing early. A
command that waits for its id's window has published (19 R360). -/
def State.heldBack (s1 s2 : State) (k : Nat) (w : Wait) : State :=
  match w with
  | .window .. => s2
  | .boundary =>
    let s3 := { s1 with moving := s2.moving }
    (if (s2.core k).committed then s3.commit k else s3).stall k (if (s1.core k).releasing then (s1.core k).scope else none)
  | _ =>
    if w.redo then (if (s2.core k).committed then s1.commit k else s1)
    else s2

/-- A phase of core `k` that begins now, at the release of a wait (21 R405). -/
def State.freshPhase (s : State) (k : Nat) : State := s.modCore k (fun c => { c with view := s.newView })

/-- A word that waited completes, its effect made (its event has come): its safe point, or the next word. -/
def State.finishWord (s : State) (k : Nat) (sp : Bool) : State :=
  let c := s.core k
  let s1 := s.modCore k (fun c => { c with run := .running, kept := none, ticket := none, mask := 0 })
  if sp then s1.safePoint k c.mask (c.pc + 16) false else s1.advance k (c.pc + 8)

/-- What a word that waits at a safe point had read. -/
def Wait.operand : Wait → Option Word
  | .event e _ => some (e.setWidth 64)
  | .job id => some (BitVec.ofNat 64 id)
  | .copy id => some (BitVec.ofNat 64 id)
  | .stamp t => some t
  | .carry tag _ => some (tag.setWidth 64)
  | .scan sg _ _ => some (sg.setWidth 64)
  | _ => none

/-- Waiter `a` of an event is from now on waiter `b`, on the wait list, in the record that the host answers, or in
what has been asked of a home on another package. -/
def Ctx.renameWaiter (x : Ctx) (a b : Waiter) : Ctx :=
  { x with
    events := x.events.map (fun e => (e.1, { e.2 with waiters := e.2.waiters.map (fun w => if w = a then b else w) })),
    away := x.away.map (fun q => if q.who = a then { q with who := b } else q),
    asks := x.asks.map (fun q => (q.1, match q.2 with
      | .event e op who => .event e op (if who = some a then some b else who)
      | r => r)) }

/-- A firing that is suspended in an EVWAIT keeps its place on the event's wait list, under a ticket of its own (09 R168). -/
def State.parkWaiter (s : State) (k : Nat) (w : Wait) : State :=
  let ctx := s.ctxOf k
  match w with
  | .event _ _ =>
    let n := (s.ctx ctx).tickets + 1
    (s.modCtx ctx (fun x => { x.renameWaiter (.core k) (.parked n) with tickets := n })).modCore k (fun c => { c with ticket := some n })
  | _ => s

/-- Core `k`'s firing stops at the wait `w` that is a safe point, to resume in its wait (09 R168): the word is executed again with
what it had read. -/
def State.suspendInWait (s : State) (k : Nat) (w : Wait) : State :=
  let c := s.core k
  (((s.parkWaiter k w).cancelWaits k).modCore k (fun c => { c with kept := w.operand, mask := 0 })).safePoint k c.mask c.unitAt true

/-- Core `k` takes a pending request at once where its firing waits at a safe point (09 R168, 05 R103). -/
def State.stopAtWait (s : State) (k : Nat) : State := match (s.core k).run with
  | .waiting w true => if w.operand.isSome ∧ (s.core k).preempt.isSome then s.suspendInWait k w else s
  | _ => s

/-- Cores take a pending request at once where their firings wait at a safe point. -/
def State.stopAtWaits (s : State) (ks : List Nat) : State := ks.foldl State.stopAtWait s

/-- The live mask of a word with SP, fetched before the word takes effect (15 R243). -/
def State.maskOf (s : State) (k : Nat) (sp : Bool) (place : Option (FCode × Word)) : Res (Word × State) :=
  if sp ∧ place.isNone then s.fetchAt k ((s.core k).pc + 8) else .ok (0, s)

/-- Run a word of core `k`: the checks of R63-R64, the word's own effect, the placement check, then the safe point of a word with
SP or the next address. `falls` says that control may fall through; `acc` is the kind of access a PAGE fault of it is. -/
def State.runWord (s : State) (k : Nat) (sp falls needEmpty : Bool) (acc : Access) (srcs dsts : List Opnd)
    (body : State → Res Effect) : Out :=
  let c := s.core k
  let die (x : FCode × Word) : Out := .next (s.takeFault k x.1 x.2 c.unitAt acc)
  if c.queuesBad (sp || needEmpty) srcs dsts then die (.illegal, 0) else
  let place := c.placement sp falls
  match s.maskOf k sp place with
  | .error (.wait w s1) =>
    match body s with
    | .error (.fault f a) => if f.rank < FCode.rank .page then die (f, a) else .next (s1.waitOn k w false)
    | _ => .next (s1.waitOn k w false)
  | .error (.fault f a) =>
    match body s with
    | .error (.fault g b) => if g.rank ≤ f.rank then die (g, b) else .next (s.takeFault k f a c.unitAt .fetch)
    | _ => .next (s.takeFault k f a c.unitAt .fetch)
  | .ok (m, s1) =>
    match body s1 with
    | .error (.fault f a) => match firstFault (some (f, a)) place with
      | some x => die x
      | none => die (f, a)
    | .error (.wait w s2) => match place with
      | some x => die x
      | none => .next ((((s1.heldBack s2 k w).withMask k m).waitOn k w (sp && !w.redo)).stopAtWait k)
    | .ok (s2, next) => match place with
      | some x => die x
      | none =>
        let dest := next.getD (c.fallThrough sp)
        if sp then .next (s2.safePoint k m dest false) else .next (s2.advance k dest)

/-- Run one element of a word that takes many: a .S word (18 R330), QDRAIN (17 R322). The word ends where a control word heads its
source, and otherwise stands where it was, to run its next element. Under `between`, a pending pre-emption is taken between two
elements. -/
def State.runElement (s : State) (k : Nat) (sp between : Bool) (srcs dsts : List Opnd) (body : State → Res (State × Bool)) : Out :=
  let c := s.core k
  let die (x : FCode × Word) : Out := .next (s.takeFault k x.1 x.2 c.unitAt .read)
  if c.queuesBad false srcs dsts then die (.illegal, 0) else
  let place := c.placement sp true
  match s.maskOf k sp place with
  | .error (.wait w s1) => .next (s1.waitOn k w false)
  | .error (.fault f a) => match body s with
    | .error (.fault g b) => if g.rank ≤ f.rank then die (g, b) else .next (s.takeFault k f a c.unitAt .fetch)
    | _ => .next (s.takeFault k f a c.unitAt .fetch)
  | .ok (m, s1) =>
    match body s1, place with
    | .error (.fault f a), p => match firstFault (some (f, a)) p with
      | some x => die x
      | none => die (f, a)
    | _, some x => die x
    | .error (.wait w s2), none => .next ((s1.heldBack s2 k w).waitOn k w between)
    | .ok (s2, ended), none =>
      let left := !(s2.core k).lq.isEmpty || !(s2.core k).sq.isEmpty
      if ended then
        if sp && left then die (.illegal, 0)
        else if sp then .next (s2.safePoint k m (c.fallThrough sp) false)
        else .next (s2.advance k (c.fallThrough sp))
      else if between && !left && s2.mustStop k then .next (s2.safePoint k m c.unitAt false)
      else .next s2

/-- Run a word that ends its firing (17 R316, 16 R275): LQ and SQ must be empty, its publication may be held. -/
def State.runEnd (s : State) (k : Nat) (body : State → Res State) : Out :=
  let c := s.core k
  if c.queuesBad true [] [] then .next (s.takeFault k .illegal 0 c.unitAt .read)
  else match body s with
    | .error (.fault f a) => .next (s.takeFault k f a c.unitAt .read)
    | .error (.wait w s1) => .next ((s.heldBack s1 k w).waitOn k w false)
    | .ok s1 => .next (s1.endFiring k)

/-- Run YIELD (09 R165): its safe point, at which the firing is suspended. -/
def State.runYield (s : State) (k : Nat) : Out :=
  let c := s.core k
  let die (x : FCode × Word) : Out := .next (s.takeFault k x.1 x.2 c.unitAt .read)
  if c.queuesBad true [] [] then die (.illegal, 0) else
  match c.placement true true with
  | some x => die x
  | none => match s.maskOf k true none with
    | .error (.wait w s1) => .next (s1.waitOn k w false)
    | .error (.fault f a) => .next (s.takeFault k f a c.unitAt .fetch)
    | .ok (m, s1) => .next (s1.safePoint k m (c.fallThrough true) true)

/-- Run a word that falls through. -/
def State.runSeq (s : State) (k : Nat) (sp : Bool) (srcs dsts : List Opnd) (body : State → Res State) : Out :=
  s.runWord k sp true false .read srcs dsts (fun s => do return (← body s, none))

/-- Run an access-half word that stores or loads. -/
def State.runMem (s : State) (k : Nat) (sp : Bool) (acc : Access) (srcs dsts : List Opnd) (body : State → Res State) : Out :=
  s.runWord k sp true false acc srcs dsts (fun s => do return (← body s, none))

/-- Run a word that names where control goes. -/
def State.runJump (s : State) (k : Nat) (sp : Bool) (srcs : List Opnd) (body : State → Res (State × Word)) : Out :=
  s.runWord k sp false false .fetch srcs [] (fun s => do let (s1, a) ← body s; return (s1, some a))

end Sys2Proof.Machine
end

