-- ==== Sys2Proof/Machine/Arrivals.lean ====
section
/-! DEFINITION. The message unit of a core: what arrives, in the order of 09 R156, and what it does there: messages into the inbox or the
lay-by (05 R100, 09 R158-R160), streams into IB (03 R61), join decrements (10 R173), MCST (17 R319), remote operations
(17 R325), carries (19 R379). -/

namespace Sys2Proof.Machine

/-! ### The lay-by (05 R100) -/

/-- Whether a body takes an inbox slot. -/
def Body.takesSlot : Body → Bool
  | .msg m => decide (m.kind ≠ .stream)
  | _ => false

/-- Entries that the lay-by holds for a virtual core. -/
def Ctx.layFor (x : Ctx) (v : VCore) : List LayEntry := x.lay.filter (fun e => decide (e.dst = v))

/-- The doublewords of a lay-by entry: an MCST, which is not bound, has its offset in the place of the binding (log entry 6). -/
def layWords (ctx : Nat) (e : LayEntry) : List Word :=
  let (kind, h, regs) := e.body.wire
  let tags := tagBits (regs.take 8)
  let bind := match e.bound with
    | some b => BitVec.ofNat 64 (b.kernel % 2 ^ 32 + b.actor % 4096 * 2 ^ 32 + 2 ^ 63)
    | none => BitVec.ofNat 64 e.body.offset
  [hd0 e.target h kind ctx tags, hd1 e.src.toNat e.dst.launch] ++ padTo 8 (lows (regs.take 8)) ++
    (if tags = 0 ∧ kind ≠ kindMcst then List.replicate 8 0 else padTo 8 (highs (regs.take 8))) ++ [bind] ++ List.replicate 13 0

/-- Entries that the lay-by's ring holds at its present size. -/
def Ctx.layCap (x : Ctx) : Nat := 2 ^ x.layLog / 256

/-- The lay-by is full and cannot grow here: the context takes LAYBY_FULL once, and under LAYBYM = 1 the host is asked (R100). DESIGN CHOICE (log
entry 6): no core meets this event, and its x2 is 0. -/
def State.layFull (s : State) (ctx : Nat) : State :=
  let x := s.ctx ctx
  if x.layFull then s
  else
    let s1 := (s.modCtx ctx (fun x => { x with layFull := true })).ctxEvent ctx
      (plainEvent (eventRegs 0x13 0 0 0 false none s.time) none)
    if x.laybym then (s1.serviceRecord ctx 5 [x.layBase, BitVec.ofNat 64 x.layLog] (some .layby)).2 else s1

/-- The Plinth doubles the ring while it is full and may grow; the argument bounds the doublings (R100). -/
def Ctx.grown : Nat → Ctx → Ctx
  | 0, x => x
  | n + 1, x => if x.layCap ≤ x.lay.length ∧ x.layLog < x.layMax then Ctx.grown n { x with layLog := x.layLog + 1 } else x

/-- An entry is written to the lay-by; none where it is full, and the message then stays on its way. -/
def State.layIn (s : State) (ctx : Nat) (e : LayEntry) : Option State :=
  let x := if (s.ctx ctx).laybym then s.ctx ctx else Ctx.grown 15 (s.ctx ctx)
  if x.layCap ≤ x.lay.length then none
  else
    let s1 := (s.setCtx ctx { x with lay := x.lay ++ [e], layWrite := x.layWrite + 1 }).sample ctx 6
      (BitVec.ofNat 64 (x.lay.length + 1))
    some ((s1.writeVa ctx (x.layBase + BitVec.ofNat 64 (256 * (x.layWrite.toNat % x.layCap))) (layWords ctx e)).getD s1)

/-! ### Joins (10 R173, R175-R176) -/

/-- A decrement of m arrives at counter j of core `k` from a core (R173). -/
def State.decrement (s : State) (k : Nat) (src : BitVec 31) (launch : Nat) (m j : Nat) : State :=
  let c := s.core k
  let jn := Table.get Join.idle c.home.joins j
  let put (x : Join) : State := s.modCore k (fun c => c.setHome { c.home with joins := Table.set Join.idle c.home.joins j x })
  match jn.state with
  | .armed =>
    if m < jn.count.toNat then put { jn with count := jn.count - BitVec.ofNat 24 m }
    else (put { jn with count := 0, state := .fired, exceeded := decide (jn.count.toNat < m), last := src }).joinsFired k
  | _ => s.emptyHandler (s.ctxOf k) [BitVec.ofNat 64 m] (s.coordW k) (BitVec.ofNat 64 j) (s.coordW k)
      (BitVec.ofNat 64 (0x1000 + j)) (some launch)

/-! ### Remote operations (17 R325) -/

/-- The reply of a remote operation to its issuing core: at once where it is a core of this package, else over a link. `changed` says
that the owner's bytes changed, which commits the issuing firing early. -/
def State.replyTo (s : State) (k : Nat) (src : BitVec 31) (ctx c : Nat) (v : Word) (changed : Bool) : State :=
  if src.toNat / 8192 = s.pkg.toNat then
    s.modCore c (fun x => match x.run with
      | .waiting (.remote d none) sp => { x with run := .waiting (.remote d (some v)) sp, committed := x.committed || changed }
      | _ => x)
  else
    (s.sendWire (coreDie k) false (src.toNat / 8192)
      (wireSlots src.toNat (s.coord k).toNat ctx 0 kindRemote 0
        [XReg.plain (BitVec.ofNat 64 (4 + changed.toNat * 2 ^ 8 + (c % 8192 + 1) * 2 ^ 48)), XReg.plain v] 0)).getD s

/-- A remote operation at core `k`. -/
def State.remoteOp (s : State) (k ctx : Nat) (src : BitVec 31) (op : RemOp) (off w : Nat) (val cmp : Word) (reply : Option Nat) : State :=
  let old := (s.core k).home.lsNat off w
  let new := match op with
    | .get => old
    | .put => val.toNat % 2 ^ (8 * w)
    | .add => (old + val.toNat) % 2 ^ (8 * w)
    | .cas => if old = cmp.toNat % 2 ^ (8 * w) then val.toNat % 2 ^ (8 * w) else old
  let writes := match op with
    | .get => false
    | .cas => decide (old = cmp.toNat % 2 ^ (8 * w))
    | _ => true
  let s1 := if writes then s.lsRemote k off (bytesOf w new) else s.lsReport k off w
  match reply with
  | some c => s1.replyTo k src ctx c (BitVec.ofNat 64 old) (writes && decide (old ≠ new))
  | none => s1

/-! ### Arrival at a core -/

/-- Whether an actor has an input of a message's kind (09 R160). -/
def Actor.accepts (a : Actor) (k : MKind) : Bool :=
  a.inputs.any (fun i => decide (i.kind = if k = .completion then .engine else .message))

/-- The binding of a message that arrives, where it can fire its actor. -/
def Ctx.bindMsg (x : Ctx) (m : Msg) : Option Binding := match x.bindingOf m.hidx with
  | some b => match (x.kernel b.kernel).actor? b.actor with
    | some a => if a.accepts m.kind then some b else none
    | none => none
  | none => none

/-- The empty-handler path of a message at core `k` (09 R160). -/
def State.emptyAt (s : State) (k ctx : Nat) (m : Msg) : State :=
  s.emptyHandler ctx (lows m.regs) (s.coordW k) (BitVec.ofNat 64 m.hidx) (s.coordW k) (BitVec.ofNat 64 m.hidx) (some m.launch)

/-- A message enters core `k`'s inbox, bound, and is counted. -/
def State.inboxIn (s : State) (k : Nat) (m : Msg) (b : Option Binding) : State :=
  (s.modCore k (fun c =>
    { c with inbox := c.inbox ++ [{ id := c.nextMsg, msg := m, bound := b, reserved := false }], nextMsg := c.nextMsg + 1 })).matchActors k

/-- What arrives at core `k` without an inbox slot. None: a carry that finds the mailbox full waits (19 R379). -/
def State.applyBody (s : State) (k ctx : Nat) (src : BitVec 31) (dst : VCore) : Body → Option State
  | .msg m => some (s.modCore k (fun c => { c with ib := c.ib ++ ((lows (m.regs.take 8)).map (fun w => { data := w, ctl := false })) }))
  | .remote op off w v cmp reply => some (s.remoteOp k ctx src op off w v cmp reply)
  | .join m j => some (s.decrement k src dst.launch m j)
  | .mcst off data j => some ((s.lsRemote k off (bytesOf 128 data.toNat)).decrement k src dst.launch 1 j)
  | .carry tag v =>
    if (s.core k).mailbox.length < 16 then some (s.modCore k (fun c => { c with mailbox := c.mailbox ++ [(tag, v)] })) else none

/-- A body arrives at core `k`; none where it has to stay on its way. Each message's latency is sampled at its arrival, and the depth of the inbox
as one enters it (23 R433). -/
def State.receive (s : State) (k ctx : Nat) (src : BitVec 31) (dst : VCore) (b : Body) : Option State := match b with
  | .msg m =>
    let s1 := s.sample ctx 1 (s.time - m.born)
    if m.kind = .stream then s1.applyBody k ctx src dst b
    else if m.kind = .fire then
      if (s.core k).inbox.length < inboxMax ∧ !(s.core k).barred ∧ ((s.ctx ctx).layFor dst).isEmpty then
        some ((s1.sample ctx 2 (BitVec.ofNat 64 ((s.core k).inbox.length + 1))).fireIn k m false)
      else s1.layIn ctx { dst, target := (s.coord k).toNat, src, body := b, bound := none }
    else match (s.ctx ctx).bindMsg m with
      | none => some (s1.emptyAt k ctx m)
      | some bd =>
        if (s.core k).inbox.length < inboxMax ∧ !(s.core k).barred ∧ ((s.ctx ctx).layFor dst).isEmpty then
          some ((s1.sample ctx 2 (BitVec.ofNat 64 ((s.core k).inbox.length + 1))).inboxIn k m (some bd))
        else s1.layIn ctx { dst, target := (s.coord k).toNat, src, body := b, bound := some bd }
  | _ => s.applyBody k ctx src dst b

/-- The empty-handler path of a message whose group has no cores. DESIGN CHOICE (log entry 6): the letter names the virtual core, and the event the
sender, in the places where no core can be named. -/
def State.emptyAway (s : State) (ctx : Nat) (dst : VCore) (src : BitVec 31) (m : Msg) : State :=
  s.emptyHandler ctx (lows m.regs) (virtualTarget dst) (BitVec.ofNat 64 m.hidx) (src.setWidth 64) (BitVec.ofNat 64 m.hidx) (some m.launch)

/-- A body that finds its group without cores goes to the lay-by; a message is bound there (R100), and one without a handler is lost as `emptyAway`
says (DESIGN CHOICE, log entry 6). -/
def State.receiveAway (s : State) (ctx : Nat) (src : BitVec 31) (dst : VCore) (b : Body) : Option State := match b with
  | .msg m =>
    if m.kind = .stream ∨ m.kind = .fire then s.layIn ctx { dst, target := 0, src, body := b, bound := none }
    else match (s.ctx ctx).bindMsg m with
      | none => some (s.emptyAway ctx dst src m)
      | some bd => s.layIn ctx { dst, target := 0, src, body := b, bound := some bd }
  | _ => s.layIn ctx { dst, target := 0, src, body := b, bound := none }

/-- The package's count of discarded messages of a context goes up (05 R96). -/
def State.discard (s : State) (ctx n : Nat) : State := s.modCtx ctx (fun x => { x with cdrop := x.cdrop + BitVec.ofNat 64 n })

/-- A body reaches its virtual core wherever that is now; none where it has to stay on its way. -/
def State.deliver (s : State) (f : Flight) : Option State :=
  if (s.ctx f.ctx).state = .draining ∨ (s.ctx f.ctx).state = .free ∨ (s.ctx f.ctx).state = .building then some (s.discard f.ctx 1)
  else match s.place f.dst with
    | .here k => s.receive k f.ctx f.src f.dst f.body
    | .waiting => s.receiveAway f.ctx f.src f.dst f.body
    | .retired => some (s.toRetired f.ctx f.dst f.body (f.src.setWidth 64))
    | .remote at_ =>
      match s.sendWire (at_ / 1024 % 8) f.body.isCarry (at_ / 8192) (f.body.slots at_ f.src.toNat f.ctx f.dst.launch) with
      | some s' => some s'
      | none =>
        let (p, h', _) := f.body.letter
        some (s.returned f.ctx (at_ / 8192) p (BitVec.ofNat 64 at_) h' false (f.src.setWidth 64) (some f.dst.launch))

/-- Whether flight i is the oldest of its sender to its virtual core: those arrive in publication order (09 R156). -/
def State.oldestFlight (s : State) (i : Nat) (f : Flight) : Bool :=
  !(s.flights.take i).any (fun g => decide (g.src = f.src) && decide (g.ctx = f.ctx) && decide (g.dst = f.dst))

/-- Flight i arrives, if it is of the kind asked for and its turn has come. One that the lay-by has no room for stays (R100). -/
def State.arrival (s : State) (i : Nat) (kind : Body → Bool) : State := match s.flights[i]? with
  | none => s
  | some f =>
    if !kind f.body || !s.oldestFlight i f then s
    else match ({ s with flights := s.flights.eraseIdx i } : State).deliver f with
      | some s' => s'
      | none => match f.body with
        | .carry .. => s
        | _ => s.layFull f.ctx

/-- MESSAGE_ARRIVAL: a handler or migration message, or a FIRE's. -/
def execMessageArrival (i : Nat) (s : State) : Out :=
  .next (s.arrival i (fun b => match b with | .msg m => decide (m.kind ≠ .stream ∧ m.kind ≠ .completion) | _ => false))
/-- STREAM_MESSAGE_ARRIVAL (03 R61). -/
def execStreamMessageArrival (i : Nat) (s : State) : Out :=
  .next (s.arrival i (fun b => match b with | .msg m => decide (m.kind = .stream) | _ => false))
/-- JOIN_DECREMENT_ARRIVAL (10 R173). -/
def execJoinDecrementArrival (i : Nat) (s : State) : Out :=
  .next (s.arrival i (fun b => match b with | .join .. => true | _ => false))
/-- REMOTE_OPERATION_ARRIVAL (17 R325). -/
def execRemoteOperationArrival (i : Nat) (s : State) : Out :=
  .next (s.arrival i (fun b => match b with | .remote .. => true | _ => false))
/-- MCST_ARRIVAL (17 R319). -/
def execMcstArrival (i : Nat) (s : State) : Out :=
  .next (s.arrival i (fun b => match b with | .mcst .. => true | _ => false))
/-- CARRY_ARRIVAL (19 R379). -/
def execCarryArrival (i : Nat) (s : State) : Out :=
  .next (s.arrival i (fun b => match b with | .carry .. => true | _ => false))
/-- WAKE_ARRIVAL (19 R366): an engine completion. -/
def execWakeArrival (i : Nat) (s : State) : Out :=
  .next (s.arrival i (fun b => match b with | .msg m => decide (m.kind = .completion) | _ => false))

/-! ### What an unloaded kernel leaves (07 R139, 09 R160) -/

/-- An input of a firing that cannot start goes to the dead-letter queue with EMPTY_HANDLER (09 R160); the slots of a ring are no message. -/
def State.loseInput (s : State) (k ctx : Nat) (launch : Option Nat) : Input → State
  | .msg id => match (s.core k).inbox.find? (fun m => decide (m.id = id)) with
    | some m => s.emptyAt k ctx m.msg
    | none => s
  | .join j | .rearmed j =>
    s.emptyHandler ctx [] (s.coordW k) (BitVec.ofNat 64 j) (s.coordW k) (BitVec.ofNat 64 (0x1000 + j)) launch
  | .slots _ _ => s

/-- Whether a firing has only the slots of rings as its inputs: then one letter stands for them all, that of its actor's handler (07 R139). -/
def Firing.ringsOnly (f : Firing) : Bool := !f.inputs.isEmpty && f.inputs.all (fun i => match i with | .slots _ _ => true | _ => false)

/-- The handler index that an actor's record names; 0 where it names none. -/
def State.handlerOf (s : State) (ctx : Nat) : Code → Word
  | .actor b => match ((s.ctx ctx).kernel b.kernel).actors[b.actor]? with
    | some a => if a.hv then BitVec.ofNat 64 a.hidx else 0
    | none => 0
  | _ => 0

/-- The dead letters of a firing whose kernel is no longer there. -/
def State.loseInputs (s : State) (k ctx : Nat) (f : Firing) : State := match f.code with
  | .light _ cw =>
    let h := BitVec.ofNat 64 (fld (s.vs k).csr.qctlh 11 0)
    s.emptyHandler ctx [cw] (s.coordW k) h (s.coordW k) h f.launch
  | _ =>
    if f.svc then s.emptyHandler ctx (lows (f.regs.take 8)) (s.coordW k) ((s.ctx ctx).faultIdx.setWidth 64) (s.coordW k)
      ((s.ctx ctx).faultIdx.setWidth 64) f.launch
    else if f.ringsOnly then
      let h := s.handlerOf ctx f.code
      s.emptyHandler ctx [] (s.coordW k) h (s.coordW k) h f.launch
    else f.inputs.foldl (fun s i => s.loseInput k ctx f.launch i) s

/-! ### The return from the lay-by (05 R100, 08 R145) -/

/-- One entry of core `k`'s virtual core leaves the lay-by; none where it has to stay. A kernel that has gone meanwhile leaves its
messages to the empty-handler path. -/
def State.layOut (s : State) (k ctx : Nat) (e : LayEntry) : Option State := match e.body with
  | .msg m =>
    if m.kind = .stream then s.applyBody k ctx e.src e.dst e.body
    else if inboxMax ≤ (s.core k).inbox.length then none
    else if m.kind = .fire then some (s.fireIn k m false)
    else match e.bound with
      | none => some (s.emptyAt k ctx m)
      | some b => match ((s.ctx ctx).kernel b.kernel).actor? b.actor with
        | some a => if a.accepts m.kind then some (s.inboxIn k m (some b)) else some (s.emptyAt k ctx m)
        | none => some (s.emptyAt k ctx m)
  | _ => s.applyBody k ctx e.src e.dst e.body

/-- Entries of a virtual core move to core `k` in arrival order while there is room: a message that stays holds back the messages
behind it, and takes no other body's turn. The list is the part of the lay-by still to be looked at. -/
def State.layReturn (k ctx : Nat) (v : VCore) : List LayEntry → Bool → State → State
  | [], _, s => s
  | e :: t, held, s =>
    if e.dst ≠ v ∨ (held ∧ e.body.takesSlot) then State.layReturn k ctx v t held s
    else match (s.modCtx ctx (fun x => { x with lay := x.lay.erase e, layRead := x.layRead + 1, layFull := false })).layOut k ctx e with
      | some s' => State.layReturn k ctx v t held s'
      | none => State.layReturn k ctx v t true s

/-- The lay-by entries of core `k`'s virtual core move in. -/
def State.refill (s : State) (k : Nat) : State :=
  let c := s.core k
  if c.barred then s else match c.ctx, c.launch with
  | some ctx, some l => State.layReturn k ctx ⟨l, fld c.gcoord 11 0, fld c.gcoord 27 16⟩ (s.ctx ctx).lay false s
  | _, _ => s

/-- LAYBY_RETURN. -/
def execLaybyReturn (c : Nat) (s : State) : Out := .next (s.refill c)

end Sys2Proof.Machine
end

