-- ==== Sys2Proof/Machine/Operands.lean ====
section
/-! DEFINITION. Reading and writing operands: the mesh ports, IB, LQ, SQ and HQ (03 R58-R66), circular buffers (17 R320-R321),
the k registers and specials (03 R53, R57), Src and Put (16 R271-R272), vector sources and VPut (18 R328). -/

namespace Sys2Proof

/-- Lane width of a type. -/
def VTy.width : VTy → Nat
  | .i8 | .e4m3 | .e5m2 => 8
  | .i16 | .f16 | .bf16 => 16
  | .i32 | .f32 => 32
  | .i64 | .f64 => 64

end Sys2Proof

namespace Sys2Proof.Machine

/-! ### What a firing of the fault actor reads of its launch (05 R462) -/

/-- The launch of core `k`'s firing, as `sendLaunch` names it. -/
def State.launchOf (s : State) (k : Nat) : Option Launch := (s.core k).sendLaunch.bind (Table.find? s.launches)

/-- LDIM (08 R143). -/
def State.ldimOf (s : State) (k : Nat) : Word :=
  if (s.core k).svc then match s.launchOf k with
    | some l => BitVec.ofNat 64 (l.w + l.h * 2 ^ 16)
    | none => 0x10001
  else (s.core k).ldim
/-- GSHAPE. -/
def State.gshapeOf (s : State) (k : Nat) : Word :=
  if (s.core k).svc then match s.launchOf k with
    | some l => BitVec.ofNat 64 (l.lgw + l.lgh * 2 ^ 4)
    | none => 0
  else (s.core k).gshape
/-- GINDEX. -/
def State.gindexOf (s : State) (k : Nat) : Word := if (s.core k).svc then 0x100000000 else (s.core k).gindex
/-- QUANTUM. -/
def State.quantumOf (s : State) (k : Nat) : Word :=
  if (s.core k).svc then match s.launchOf k with
    | some l => BitVec.ofNat 64 l.quantum
    | none => 200
  else (s.core k).quantum

/-! ### Mesh ports (03 R58-R60, R65) -/

/-- Whether a control word is of a kind that R65 knows: the end of a stream, or a program's own. -/
def cwOk (w : Word) : Bool := decide (fld w 63 56 = 1 ∨ 128 ≤ fld w 63 56)

/-- The core that a port names and its input that faces back (R58): the group's rectangle with its edges joined. A firing of the
fault actor belongs to no group: its ports name its own core, under inputs of their own (log entry 8). -/
def State.meshPeer (s : State) (k p : Nat) : Nat × Nat :=
  let c := s.core k
  if c.svc then (k, 4 + (match p with | 1 => 2 | 2 => 1 | 3 => 4 | _ => 3)) else
  let w := 2 ^ fld c.gshape 2 0
  let h := 2 ^ fld c.gshape 6 4
  let ux := fld c.gcoord 11 0 % w
  let uy := fld c.gcoord 27 16 % h
  let at_ (x y : Nat) : Nat := coreKey (coreDie k) (coreX k - ux + x) (coreY k - uy + y)
  match p with
  | 1 => (at_ ux ((uy + h - 1) % h), 2)
  | 2 => (at_ ux ((uy + 1) % h), 1)
  | 3 => (at_ ((ux + 1) % w) uy, 4)
  | _ => (at_ ((ux + w - 1) % w) uy, 3)

/-- The input of core `k` that a port named as a source reads. -/
def Core.input (c : Core) (p : Nat) : Nat := if c.svc then 4 + p else p
/-- The units that stand at a port named as a source. -/
def Core.units (c : Core) (p : Nat) : List PUnit := Table.get [] c.ports (c.input p)

/-- Whether a port's output has room for one more unit. A unit that the neighbour has read in its present phase still takes its place, until
the phase boundary releases it (R60). -/
def State.portRoom (s : State) (k p : Nat) : Bool :=
  let (n, q) := s.meshPeer k p
  let u := (Table.get [] (s.core n).ports q).length + ((s.core n).taken.filter (fun x => decide (x.1 = q))).length
  decide (u = 0) || decide (u ≤ Config.portDepth)

/-- Send a unit to a port: it waits for room, and commits the firing early (R60). -/
def State.sendUnit (s : State) (k p : Nat) (u : PUnit) : Res State :=
  if !s.portRoom k p then redo s .port
  else
    let (n, q) := s.meshPeer k p
    .ok ((s.commit k).modCore n (fun c => { c with ports := Table.set [] c.ports q (Table.get [] c.ports q ++ [u]) }))

/-- Dequeue the unit at the head of a mesh port; it returns there when the firing aborts. -/
def Core.popUnit (c : Core) (p : Nat) : Core := match c.units p with
  | [] => c
  | u :: t => { c with ports := Table.set [] c.ports (c.input p) t, taken := c.taken ++ [(c.input p, u)] }

/-- An ordinary read of a mesh port: a control word reads as zero and makes a light-handler firing ready at the next boundary
(R66); a unit of another width, and a malformed control word, raise STREAM. -/
def State.readPort (s : State) (k p : Nat) (wide : Bool) : Res (Vec × State) :=
  match (s.core k).units p with
  | [] => redo s .port
  | u :: _ =>
    let w : Word := u.data.setWidth 64
    if (u.ctl && !cwOk w) || decide (u.wide ≠ wide) then fault .stream 0
    else if u.ctl then .ok (0, s.modCore k (fun c => { c.popUnit p with light := c.light ++ [w] }))
    else .ok (u.data, s.modCore k (fun c => c.popUnit p))

/-- The doublewords of IB; a firing of the fault actor is sent no streams. -/
def Core.ibNow (c : Core) : List IbUnit := if c.svc then [] else c.ib

/-- Dequeue n doublewords of IB; they return there when the firing aborts. -/
def Core.popIb (c : Core) (n : Nat) : Core := { c with ib := c.ib.drop n, takenIb := c.takenIb ++ c.ib.take n }

/-- Doublewords as a vector of 64-bit lanes. -/
def vecOfWords (l : List Word) : Vec := BitVec.ofNat 1024 (slotBits.go l)

/-- A scalar read of IB (R61). -/
def State.readIb (s : State) (k : Nat) : Res (Word × State) := match (s.core k).ibNow with
  | [] => redo s .port
  | u :: _ =>
    if u.ctl && !cwOk u.data then fault .stream 0
    else if u.ctl then .ok (0, s.modCore k (fun c => { c.popIb 1 with light := c.light ++ [u.data] }))
    else .ok (u.data, s.modCore k (fun c => c.popIb 1))

/-- A vector read of IB: sixteen doublewords, none of them a control word (R61). -/
def State.readIbVec (s : State) (k : Nat) : Res (Vec × State) :=
  let l := (s.core k).ibNow.take 16
  if l.any IbUnit.ctl then fault .stream 0
  else if l.length < 16 then redo s .port
  else .ok (vecOfWords (l.map IbUnit.data), s.modCore k (fun c => c.popIb 16))

/-! ### LQ, SQ, HQ (R61, R63) -/

/-- Entries of LQ and of SQ (03 R63, 01 R11). -/
def queueMax : Nat := 16

/-- Dequeue LQ. A read for which no earlier load has left an entry is ILLEGAL (R63). -/
def State.popLq (s : State) (k : Nat) : Res (Vec × State) := match (s.core k).lq with
  | [] => fault .illegal 0
  | v :: t => .ok (v, s.modCore k (fun c => { c with lq := t }))

/-- Place a load's data in LQ: "while LQ holds 16 unread entries, the access half waits". DEDUCED (log entry 9): the stream is executed "one
instruction at a time in program order" (R62), so what stands behind a word that waits here does not go on. -/
def State.pushLq (s : State) (k : Nat) (v : Vec) : Res State :=
  if queueMax ≤ (s.core k).lq.length then redo s .port else .ok (s.modCore k (fun c => { c with lq := c.lq ++ [v] }))

/-- Dequeue SQ. -/
def State.popSq (s : State) (k : Nat) : Res (Vec × State) := match (s.core k).sq with
  | [] => fault .illegal 0
  | v :: t => .ok (v, s.modCore k (fun c => { c with sq := t }))

/-- Enqueue a result in SQ; "a write to SQ waits while SQ is full" (16 R272). -/
def State.pushSq (s : State) (k : Nat) (v : Vec) : Res State :=
  if queueMax ≤ (s.core k).sq.length then redo s .port else .ok (s.modCore k (fun c => { c with sq := c.sq ++ [v] }))

/-- Write the next doubleword of the firing's host-queue record; the eighth completes it (17 R318). -/
def State.pushHq (s : State) (k : Nat) (w : Word) : Res State :=
  let l := (s.core k).hq ++ [w]
  if l.length < 8 then .ok (s.modCore k (fun c => { c with hq := l }))
  else (s.modCore k (fun c => { c with hq := [] })).enter k [.hostq l]

/-! ### Circular buffers (17 R320-R321, 03 R54) -/

/-- The number of slots that a count field asks for: 0 stands for 32. -/
def countOf (c : Fin 32) : Nat := if c.val = 0 then 32 else c.val

/-- Filled slots. -/
def Ring.filled (g : Ring) : Nat := (g.p - g.c).toNat
/-- Free slots. -/
def Ring.room (g : Ring) : Nat := g.n - (g.p - g.c0).toNat
/-- The offset of the slot that a pointer names. -/
def Ring.slot (g : Ring) (q : BitVec 32) : Nat := g.base + q.toNat % g.n * 2 ^ g.lsz
/-- The byte of the mark map that holds the bit of the slot that a pointer names. -/
def Ring.markByte (g : Ring) (q : BitVec 32) : Nat := g.base + g.n * 2 ^ g.lsz + q.toNat % g.n / 8
/-- The bit within that byte. -/
def Ring.markBit (g : Ring) (q : BitVec 32) : Nat := q.toNat % g.n % 8

/-- Whether the slot that a pointer names holds a control word. -/
def VState.marked (r : VState) (g : Ring) (q : BitVec 32) : Bool := (r.lsByte (g.markByte q)).getLsbD (g.markBit q)
/-- Set or clear a slot's mark. -/
def VState.setMark (r : VState) (g : Ring) (q : BitVec 32) (b : Bool) : VState :=
  let m : Byte := 1#8 <<< g.markBit q
  let old := r.lsByte (g.markByte q)
  r.lsWrite (g.markByte q) [if b then old ||| m else old &&& ~~~m]
/-- The first doubleword of a slot. -/
def VState.slotWord (r : VState) (g : Ring) (q : BitVec 32) : Word := BitVec.ofNat 64 (r.lsNat (g.slot q) 8)
/-- Replace ring h. -/
def VState.setRing (r : VState) (h : Nat) (g : Ring) : VState := { r with h := Table.insert r.h h g }

/-- What is wrong with the handle operands of a word, kind by kind in field order (R54, 18 R329): not set by CBINIT; a count above
the slot count; a slot size other than a vector's. -/
def VState.ringFault (r : VState) (ops : List Opnd) : Option FCode :=
  let rings := ops.filterMap (fun o => match o with | .ring h c => some (Table.find? r.h h.val, countOf c) | _ => none)
  if rings.any (fun x => x.1.isNone) then some .capTag
  else if rings.any (fun x => match x.1 with | some g => decide (g.n < x.2) | none => false) then some .capBounds
  else if rings.any (fun x => match x.1 with | some g => decide (g.lsz ≠ 7) | none => false) then some .stream
  else none

/-- The next slot of a ring as a vector source. -/
def State.readRing (s : State) (k h n : Nat) : Res (Vec × State) :=
  let r := s.vs k
  match Table.find? r.h h with
  | none => fault .capTag 0
  | some g =>
    if g.filled < n then redo s .handle
    else
      let r' := r.setRing h { g with c := g.c + 1 }
      if r.marked g g.c then
        if !cwOk (r.slotWord g g.c) then fault .stream 0
        else .ok (0, s.modCore k (fun c => { c with vs := r', light := c.light ++ [r.slotWord g g.c] }))
      else .ok (BitVec.ofNat 1024 (r.lsNat (g.slot g.c) 128), s.modVs k (fun _ => r'))

/-- Write bytes into the next slot of a ring, with its mark. -/
def State.writeRing (s : State) (k h n : Nat) (bs : List Byte) (mark : Bool) : Res State :=
  let r := s.vs k
  match Table.find? r.h h with
  | none => fault .capTag 0
  | some g =>
    if g.room < n then redo s .handle
    else .ok (s.modVs k (fun r => ((r.lsWrite (g.slot g.p) bs).setMark g g.p mark).setRing h { g with p := g.p + 1 }))

/-! ### k registers and specials (R53, R57) -/

/-- Whether a control word stands at the head of a source. -/
def State.ctlAt (s : State) (k : Nat) : Opnd → Bool
  | .port i => if i.val = 0 then ((s.core k).ibNow.head?.map IbUnit.ctl).getD false
               else (((s.core k).units i.val).head?.map PUnit.ctl).getD false
  | .ring h _ => match Table.find? (s.vs k).h h.val with
    | some g => decide (0 < g.filled) && (s.vs k).marked g g.c
    | none => false
  | _ => false

/-- k register i as it reads when an instruction issues (R53). -/
def State.kreg (s : State) (k i : Nat) : Bool :=
  let c := s.core k
  match i with
  | 0 => !c.ibNow.isEmpty
  | 1 | 2 | 3 | 4 => !(c.units i).isEmpty
  | 5 | 6 | 7 | 8 => s.portRoom k (i - 4)
  | 9 => !c.lq.isEmpty
  | 10 => decide (c.sq.length < queueMax)
  | 11 => s.ctlAt k c.stream
  | 12 => decide ((s.cluster (clusterOf k)).queue.length < jobQueueMax)
  | 13 => decide ((s.engine (engineOf k)).held < copyQueueMax)
  | 14 => decide (c.vs.csr.alarm.toNat ≤ s.time.toNat)
  | _ => c.preempt.isSome

/-! ### Src and Put (16 R271-R272) -/

/-- A port or handle named as a source becomes the firing's current stream (R66). -/
def State.named (s : State) (k : Nat) (o : Opnd) : State := s.modCore k (fun c => { c with stream := o })

/-- A source field as the word issues: a k register is sampled then, before any source of the word is read (R53, 16 R271). -/
def State.issued (s : State) (k : Nat) : Opnd → Opnd
  | .k i => .imm (if s.kreg k i.val then 1 else 0)
  | o => o

/-- Src: the 64-bit value of a source field. DEDUCED (log entry 17): LQ and SQ as sources leave the current stream of R66 as it is, though 00 lists
them among the ports. -/
def State.src (s : State) (k : Nat) (o : Opnd) : Res (Word × State) := match o with
  | .x i => .ok (((s.vs k).getX i.val).addr, s)
  | .y i => .ok ((s.vs k).getY i.val, s)
  | .l i => .ok ((s.vs k).getL i.val, s)
  | .port i =>
    if i.val = 0 then (s.named k o).readIb k
    else if i.val = 5 then do
      let (v, s1) ← s.popLq k
      return (v.setWidth 64, s1)
    else if i.val = 6 then do
      let (v, s1) ← s.popSq k
      return (v.setWidth 64, s1)
    else do
      let (v, s1) ← (s.named k o).readPort k i.val false
      return (v.setWidth 64, s1)
  | .imm i => .ok (i.signExtend 64, s)
  | .k i => .ok (bit (s.kreg k i.val), s)
  | .core => .ok (s.coordW k, s)
  | .gcoord => .ok ((s.core k).gcoordNow, s)
  | .gtb => .ok (s.time, s)
  | .lane | .v _ | .ring .. | .sink => .ok (0, s)

/-- Src for a word that may wait: what it had read, where it goes on with its wait (09 R168). -/
def State.waitSrc (s : State) (k : Nat) (o : Opnd) : Res (Word × State) := match (s.core k).kept with
  | some w => .ok (w, s.modCore k (fun c => { c with kept := none }))
  | none => s.src k o

/-- A register read as a capability. -/
def State.cap (s : State) (k : Nat) (o : Opnd) : XReg := match o with
  | .x i => (s.vs k).getX i.val
  | _ => XReg.zero
/-- Write a register as a capability (role XD). -/
def State.setCap (s : State) (k : Nat) (o : Opnd) (c : XReg) : State := match o with
  | .x i => s.modVs k (fun r => r.setX i.val c)
  | _ => s
/-- Write a link: a capability in an x register, the address alone in a y register (16 R297-R298). -/
def State.setLink' (s : State) (k : Nat) (o : Opnd) (c : XReg) : State := match o with
  | .y i => s.modVs k (fun r => r.setY i.val c.addr)
  | o => s.setCap k o c
/-- ShiftL on core `k` (03 R50). -/
def State.shiftL (s : State) (k : Nat) (w : Word) : State := s.modVs k (fun r => r.shiftL w)

/-- Put: write a scalar result to a destination field. -/
def State.put (s : State) (k : Nat) (d : Opnd) (v : Word) : Res State := match d with
  | .l _ => .ok (s.modVs k (fun r => { r with l0 := v }))
  | .x i => .ok (s.modVs k (fun r => (r.setX i.val (XReg.plain v)).shiftL v))
  | .y i => .ok (s.modVs k (fun r => (r.setY i.val v).shiftL v))
  | .port i => do
    let s1 ← (if i.val = 7 then s.pushHq k v
      else if i.val = 6 then s.pushSq k (v.setWidth 1024)
      else s.sendUnit k i.val { data := v.setWidth 1024, wide := false, ctl := false })
    return s1.shiftL k v
  | _ => .ok (s.shiftL k v)

/-! ### Vector operands (18 R328, 03 R51) -/

/-- Lane i of width w. -/
def laneAt (v : Vec) (w i : Nat) : Nat := v.toNat / 2 ^ (w * i) % 2 ^ w
/-- A vector from its lanes, the first lowest. -/
def lanesNat (w : Nat) : List Nat → Nat
  | [] => 0
  | x :: t => x % 2 ^ w + 2 ^ w * lanesNat w t
/-- A vector from its lanes. -/
def ofLanes (w : Nat) (l : List Nat) : Vec := BitVec.ofNat 1024 (lanesNat w l)
/-- The lanes of a vector. -/
def lanesOf (v : Vec) (w : Nat) : List Nat := (List.range (1024 / w)).map (laneAt v w)
/-- A value in every lane. -/
def splat (w v : Nat) : Vec := ofLanes w (List.replicate (1024 / w) v)

/-- The y0 bit that governs lane i at width w (R51). -/
def maskBit (y0 : Word) (w i : Nat) : Bool := fbit y0 (if w = 16 then i / 2 else if w = 8 then i / 4 else i)

/-- The 1,024 bits of a vector source at lane width w. -/
def State.vsrc (s : State) (k w : Nat) (o : Opnd) : Res (Vec × State) := match o with
  | .v i => .ok ((s.vs k).getV i.val, s)
  | .port i =>
    if i.val = 0 then (s.named k o).readIbVec k
    else if i.val = 5 then s.popLq k
    else if i.val = 6 then s.popSq k
    else (s.named k o).readPort k i.val true
  | .ring h c => (s.named k o).readRing k h.val (countOf c)
  | .imm i => .ok (splat w ((i.signExtend 64 : Word).toNat % 2 ^ w), s)
  | _ => .ok (0, s)

/-- VPut: write a vector result, whose lanes of width w a mask may exclude. -/
def State.vput (s : State) (k : Nat) (d : Opnd) (w : Nat) (m : Bool) (r : Vec) : Res State :=
  let y0 := (s.vs k).getY 0
  let inc (i : Nat) : Bool := !m || maskBit y0 w i
  let u := if m then ofLanes w ((lanesOf r w).mapIdx (fun i x => if inc i then x else 0)) else r
  match d with
  | .v i => .ok (s.modVs k (fun vs => vs.setV i.val (if m then
      ofLanes w ((lanesOf r w).mapIdx (fun j x => if inc j then x else laneAt (vs.getV i.val) w j)) else r)))
  | .port i =>
    if i.val = 6 then s.pushSq k u else s.sendUnit k i.val { data := u, wide := true, ctl := false }
  | .ring h c => s.writeRing k h.val (countOf c) (bytesOf 128 u.toNat) false
  | _ => .ok s

/-- Raise sticky bits on core `k` (04 R79). -/
def State.raise (s : State) (k : Nat) (f : Sticky) : State := s.modVs k (fun r => r.raise f)

end Sys2Proof.Machine
end

