-- ==== Sys2Proof/Machine/LoadStore.lean ====
section
/-! DEFINITION. Group 0x6: loads and stores of global memory (17 R301-R307). -/

namespace Sys2Proof

/-- Bytes of a width (15 R251). -/
def Width.bytes : Width → Nat
  | .b => 1 | .h => 2 | .w => 4 | .d => 8 | .q => 16

/-- Bytes of a lane width. -/
def LaneW.bytes : LaneW → Nat
  | .i32 => 4 | .i64 => 8 | .i16 => 2 | .i8 => 1

end Sys2Proof

namespace Sys2Proof.Machine

/-- The unsigned integer of w bytes, sign-extended to 64 bits when asked (R304). -/
def extended (ext : Bool) (w v : Nat) : Nat := if ext ∧ 2 ^ (8 * w - 1) ≤ v then v + 2 ^ 64 - 2 ^ (8 * w) else v

/-- Raise ALIGN at the lowest of the addresses that are not multiples of n (R301). -/
def alignCheck (n : Nat) (l : List Word) : Res Unit := match l.filter (fun a => decide (a.toNat % n ≠ 0)) with
  | [] => .ok ()
  | bad => fault .align (lowest bad)

/-- The address of an F-M access, checked for its rights and alignment (R301, R304). -/
def State.checkedAt (s : State) (k : Nat) (o : Opnd) (off : BitVec 20) (need size al : Nat) : Res Word := do
  let c := s.cap k o
  let a := c.addr + (s.core k).widened off
  liftCap (checkCap c need [a] size)
  alignCheck al [a]
  return a

/-- Before a load under .ACQ or .AR the scope's point of agreement is read, past L1 (15 R258). -/
def State.fresh (s : State) (k : Nat) : State := if (s.core k).acquiring then s.freshPhase k else s

/-- The bytes of the translated pieces of a load. -/
def State.loadSpan (k : Nat) : List (Word × Nat × Nat) → State → List Byte × State
  | [], s => ([], s)
  | p :: t, s =>
    let (bs, s1) := s.loadBytes k p.2.1 p.2.2
    let (rest, s2) := State.loadSpan k t s1
    (bs ++ rest, s2)

/-- The entries of a store whose pieces lie in one page or two. -/
def storeSpan : List (Word × Nat × Nat) → List Byte → List Entry
  | [], _ => []
  | p :: t, bs => .store p.1 p.2.1 (bs.take p.2.2) none :: t.map (fun q => .also q.1 q.2.1 (bs.drop p.2.2) (q.2.2 / 16))

/-- The data of a store: an SQ entry, a v register, or a scalar source (R304, R306). -/
def State.storeData (s : State) (k : Nat) (o : Opnd) : Res (Vec × State) := match o with
  | .port _ => s.popSq k
  | .v i => .ok ((s.vs k).getV i.val, s)
  | o => do
    let (v, s1) ← s.src k o
    return (v.setWidth 1024, s1)

/-- Deliver a vector that a load has read: to LQ or to a v register. -/
def State.loadVec (s : State) (k : Nat) (d : Opnd) (v : Vec) : Res State := match d with
  | .v i => .ok (s.modVs k (fun r => r.setV i.val v))
  | _ => s.pushLq k v

/-- LD (R304). -/
def execLd (f : FM) (s : State) : Out :=
  s.runMem s.cur f.sp .read [] [f.d] (fun s => do
    let k := s.cur
    let w := f.width.bytes
    let a ← s.checkedAt k f.a f.off (pR + pG) w w
    let (ps, s1) ← s.translateSpan k .read a w
    let s2 ← s1.lead k
    let (bs, s3) := State.loadSpan k ps (s2.fresh k)
    let v := extended f.ext w (ofBytes bs)
    let s4 ← (match f.d with
      | .port _ => s3.pushLq k (BitVec.ofNat 1024 v)
      | d => s3.put k d (BitVec.ofNat 64 v))
    s4.trail k)

/-- ST (R304). -/
def execSt (f : FM) (s : State) : Out :=
  s.runMem s.cur f.sp .write [f.d] [] (fun s => do
    let k := s.cur
    let w := f.width.bytes
    let a ← s.checkedAt k f.a f.off (pW + pG) w w
    let (ps, s1) ← s.translateSpan k .write a w
    let (v, s2) ← s1.storeData k f.d
    s2.enterOrdered k (storeSpan ps (bytesOf w v.toNat)))

/-- LDV (R306). -/
def execLdv (f : FMV) (s : State) : Out :=
  s.runMem s.cur f.sp .read [] [f.d] (fun s => do
    let k := s.cur
    let a ← s.checkedAt k f.a f.off (pR + pG) 128 8
    let (ps, s1) ← s.translateSpan k .read a 128
    let s2 ← s1.lead k
    let (bs, s3) := State.loadSpan k ps (s2.fresh k)
    let s4 ← s3.loadVec k f.d (BitVec.ofNat 1024 (ofBytes bs))
    s4.trail k)

/-- STV (R306): eight entries. -/
def execStv (f : FMV) (s : State) : Out :=
  s.runMem s.cur f.sp .write [f.d] [] (fun s => do
    let k := s.cur
    let a ← s.checkedAt k f.a f.off (pW + pG) 128 8
    let (ps, s1) ← s.translateSpan k .write a 128
    let (v, s2) ← s1.storeData k f.d
    s2.enterOrdered k (storeSpan ps (bytesOf 128 v.toNat)))

/-- PREF (R306): where every check passes the block comes toward L1, which changes no value. Its translation is one as any other: what
misses goes to the toll core, which fills both TLBs or asks the host (13 R222), but PREF does not await it. It never faults. -/
def execPref (f : FMV) (s : State) : Out :=
  s.runSeq s.cur f.sp [] [] (fun s =>
    let k := s.cur
    match s.checkedAt k f.a f.off (pR + pG) 128 1 with
    | .ok a =>
      let first := 65536 - a.toNat % 65536
      let s1 := s.touch k a
      .ok (if 128 ≤ first then s1 else s1.touch k (a + BitVec.ofNat 64 first))
    | .error _ => .ok s)

/-- LDC (R305). -/
def execLdc (f : FMV) (s : State) : Out :=
  s.runMem s.cur f.sp .read [] [] (fun s => do
    let k := s.cur
    let a ← s.checkedAt k f.a f.off (pR + pG) 16 16
    let (pa, s1) ← s.translate k .read a
    let s2 ← s1.lead k
    let (v, t, s3) := (s2.fresh k).loadCap k pa
    (s3.setCap k f.d (if t then ⟨v, true⟩ else XReg.plain (v.setWidth 64))).trail k)

/-- STC (R305). -/
def execStc (f : FMV) (s : State) : Out :=
  s.runMem s.cur f.sp .write [] [] (fun s => do
    let k := s.cur
    let a ← s.checkedAt k f.a f.off (pW + pG) 16 16
    let (pa, s1) ← s.translate k .write a
    let c := s.cap k f.d
    s1.enterOrdered k [.store a pa (bytesOf 16 c.val.toNat) (some c.tag)])

/-! ### Strided and indexed forms (R307) -/

/-- Lane addresses, the lane numbers in ascending order of address. -/
def insertLane (p : Word × Nat) : List (Word × Nat) → List (Word × Nat)
  | [] => [p]
  | q :: t => if p.1.toNat < q.1.toNat then p :: q :: t else q :: insertLane p t
/-- Sort lanes by address, lanes of one address in lane order. -/
def sortLanes (l : List (Word × Nat)) : List (Word × Nat) := l.foldl (fun r p => insertLane p r) []

/-- Find the physical addresses of lanes in the order given: (address, lane, physical address). -/
def State.findLanes (k : Nat) (acc : Access) : List (Word × Nat) → State → Res (List (Word × Nat × Nat) × State)
  | [], s => .ok ([], s)
  | p :: t, s => do
    let (pa, s1) ← s.find k acc p.1
    let (r, s2) ← State.findLanes k acc t s1
    return ((p.1, p.2, pa) :: r, s2)

/-- Translate lanes: PAGE on every lane before MCHECK on any (R301, 22 R421). -/
def State.translateLanes (k : Nat) (acc : Access) (l : List (Word × Nat)) (s : State) : Res (List (Nat × Nat) × State) := do
  let (r, s1) ← State.findLanes k acc l s
  s1.reachable (r.map (fun p => (p.1, p.2.2)))
  return (r.map Prod.snd, s1)

/-- Strided lane addresses. -/
def strided (base stride : Word) (n : Nat) : List Word := (List.range n).map (fun i => base + BitVec.ofNat 64 i * stride)
/-- Indexed lane addresses. -/
def indexed (base : Word) (idx : Vec) (eb : Nat) : List Word :=
  (lanesOf idx (8 * eb)).map (fun x => base + BitVec.ofNat 64 (extended true eb x) * BitVec.ofNat 64 eb)

/-- The lane addresses of a strided or indexed form. -/
def State.laneAddrs (s : State) (k : Nat) (ix : Bool) (f : FRL) : Res (List Word × State) := do
  let eb := f.lw.bytes
  let base := (s.cap k f.a).addr
  if ix then
    let v := match f.b with | .v i => (s.vs k).getV i.val | _ => 0
    return (indexed base v eb, s)
  else
    let (st, s1) ← s.src k f.b
    return (strided base st (128 / eb), s1)

/-- The checks and translations of lanes: kind by kind over every lane (R301). -/
def State.checkedLanes (s : State) (k : Nat) (acc : Access) (need : Nat) (f : FRL) (as : List Word) :
    Res (List (Word × Nat) × State) := do
  let eb := f.lw.bytes
  liftCap (checkCap (s.cap k f.a) need as eb)
  alignCheck eb as
  let (ps, s1) ← State.translateLanes k acc (sortLanes as.zipIdx) s
  return (as.mapIdx (fun i a => (a, ((ps.find? (fun p => decide (p.1 = i))).map Prod.snd).getD 0)), s1)

/-- The lanes of a load, in lane order. -/
def State.loadLanes (k eb : Nat) : List (Word × Nat) → State → List Byte × State
  | [], s => ([], s)
  | p :: t, s =>
    let (bs, s1) := s.loadBytes k p.2 eb
    let (rest, s2) := State.loadLanes k eb t s1
    (bs ++ rest, s2)

/-- LDVS and LDVX. -/
def State.gather (s : State) (ix : Bool) (f : FRL) : Out :=
  s.runMem s.cur f.sp .read [] [f.d] (fun s => do
    let k := s.cur
    let (as, s1) ← s.laneAddrs k ix f
    let (ps, s2) ← s1.checkedLanes k .read (pR + pG) f as
    let s3 ← s2.lead k
    let (bs, s4) := State.loadLanes k f.lw.bytes ps (s3.fresh k)
    let s5 ← s4.loadVec k f.d (BitVec.ofNat 1024 (ofBytes bs))
    s5.trail k)

/-- STVS and STVX: one entry per lane, in ascending lane order. -/
def State.scatter (s : State) (ix : Bool) (f : FRL) : Out :=
  s.runMem s.cur f.sp .write [f.d] [] (fun s => do
    let k := s.cur
    let eb := f.lw.bytes
    let (as, s1) ← s.laneAddrs k ix f
    let (ps, s2) ← s1.checkedLanes k .write (pW + pG) f as
    let (v, s3) ← s2.storeData k f.d
    s3.enterOrdered k (ps.mapIdx (fun i p => .store p.1 p.2 (bytesOf eb (laneAt v (8 * eb) i)) none)))

/-- LDVS. -/
def execLdvs (f : FRL) (s : State) : Out := s.gather false f
/-- LDVX. -/
def execLdvx (f : FRL) (s : State) : Out := s.gather true f
/-- STVS. -/
def execStvs (f : FRL) (s : State) : Out := s.scatter false f
/-- STVX. -/
def execStvx (f : FRL) (s : State) : Out := s.scatter true f

end Sys2Proof.Machine
end

