-- ==== Sys2Proof/Machine/EventTable.lean ====
section
/-! DEFINITION. The events of a context at their home (09 R166-R168): setting, clearing, waiting, testing, and the entries that
the host serves (06 R121). -/

namespace Sys2Proof.Machine

/-- Event e of a context. -/
def Ctx.event (x : Ctx) (e : BitVec 16) : EventSt := Table.get EventSt.clear x.events e.toNat
/-- Replace an event. -/
def Ctx.setEvent (x : Ctx) (e : BitVec 16) (v : EventSt) : Ctx := { x with events := Table.set EventSt.clear x.events e.toNat v }

/-- Whether an event takes an entry of its die's table: it is set or has waiters, and has not moved to the memory table. -/
def EventSt.inTable (v : EventSt) : Bool := (v.set || !v.waiters.isEmpty) && !v.spilled

/-- Entries in use in the event table of die d. -/
def State.eventsOf (s : State) (d : Nat) : Nat :=
  (s.ctxs.map (fun p => if p.2.home then (p.2.events.filter (fun v => decide (v.1 % 8 = d) && v.2.inTable)).length else 0)).sum

/-- The token of a waiter in an EVENT record (06 R121); its form is the model's. -/
def Waiter.token : Waiter → Word
  | .core c => BitVec.ofNat 64 c
  | .parked n => BitVec.ofNat 64 (2 ^ 34 + n)
  | .queue q => BitVec.ofNat 64 (2 ^ 32 + q)
  | .remote c n => BitVec.ofNat 64 (2 ^ 33 + c.toNat + n % 2 ^ 24 * 2 ^ 40)

/-- An EVENT record for an operation: 1 set, 2 clear, 3 wait, 4 test. -/
def State.eventRecord (s : State) (ctx : Nat) (e : BitVec 16) (op : Nat) (who : Option Waiter) : Nat × State :=
  s.serviceRecord ctx 4 [BitVec.ofNat 64 (e.toNat + op * 2 ^ 16), (who.map Waiter.token).getD 0] (some (.event e op who))

/-- EVENT records of the waiters of an entry that moves to the host. -/
def State.waitRecords (s : State) (ctx : Nat) (e : BitVec 16) : List Waiter → State
  | [] => s
  | w :: t => (s.eventRecord ctx e 3 (some w)).2.waitRecords ctx e t

/-- An entry that the Plinth held in memory goes to the host, with what it holds, when EVOVF becomes 1 (05 R98). -/
def State.handEvent (s : State) (ctx : Nat) (e : BitVec 16) : State :=
  let v := (s.ctx ctx).event e
  if !v.spilled then s
  else
    let s1 := s.modCtx ctx (fun x => x.setEvent e { v with waiters := [] })
    (if v.set then (s1.eventRecord ctx e 1 none).2 else s1).waitRecords ctx e v.waiters

/-- An entry moves out of a full table, or because of a ninth waiter; it returns when it is clear, has no waiters and there is
room (R166). Under EVOVF = 1 the host is told what the entry holds. -/
def State.settleEvent (s : State) (ctx : Nat) (e : BitVec 16) : State :=
  let x := s.ctx ctx
  let v := x.event e
  let asked := x.asks.any (fun a => match a.2 with | .event f _ _ => decide (f = e) | _ => false)
  if v.inTable ∧ (8 < v.waiters.length ∨ 4096 < s.eventsOf (e.toNat % 8)) then
    let s1 := s.modCtx ctx (fun x => x.setEvent e { v with spilled := true })
    if x.evovf then s1.handEvent ctx e else s1
  else if v.spilled ∧ !v.set ∧ v.waiters.isEmpty ∧ !asked ∧ s.eventsOf (e.toNat % 8) < 4096 then
    s.modCtx ctx (fun x => x.setEvent e EventSt.clear)
  else s

/-- Entries of a die's events that have moved to the memory table return where the table has room for them now (R166). -/
def State.returnEvents (s : State) (d : Nat) : State :=
  (s.ctxs.flatMap (fun p => if p.2.home then
    (p.2.events.filter (fun v => decide (v.1 % 8 = d) && v.2.spilled)).map (fun v => (p.1, v.1)) else [])).foldl
      (fun s p => s.settleEvent p.1 (BitVec.ofNat 16 p.2)) s

/-- The home tells an asker on another package: operation 7 that its waiter is woken, 8 what its test found, 9 that its set or clear has been
applied (log entry 6). -/
def State.tellAway (s : State) (ctx : Nat) (e : BitVec 16) (coord : BitVec 31) (token op : Nat) (v : Word) : State :=
  (s.sendWire (e.toNat % 8) false (coord.toNat / 8192)
    (wireSlots coord.toNat (s.pkg.toNat * 8192 + e.toNat % 8 * 1024) ctx 0 kindEvent 0
      [XReg.plain (BitVec.ofNat 64 (e.toNat + op * 2 ^ 16)), XReg.plain (BitVec.ofNat 64 token), XReg.plain v] 0)).getD s

/-- A waiter is woken: a firing's EVWAIT, a queue's WAIT packet, or what waits on another package, which a link tells. A firing that has
been suspended in its wait finds, when it resumes, that it is on no wait list any more. -/
def State.wakeWaiter (s : State) (ctx : Nat) (e : BitVec 16) : Waiter → State
  | .core k => s.modCore k (fun c => match c.run with
    | .waiting (.event f _) sp => if f = e then { c with run := .waiting (.event e true) sp } else c
    | _ => c)
  | .parked _ => s
  | .queue q => s.setQueue q { s.queue q with woken := true }
  | .remote coord token => s.tellAway ctx e coord token 7 0

/-- Wake waiters in the order in which they joined. -/
def State.wakeWaiters (s : State) (ctx : Nat) (e : BitVec 16) : List Waiter → State
  | [] => s
  | w :: t => (s.wakeWaiter ctx e w).wakeWaiters ctx e t

/-- Whether the host serves an event now. -/
def Ctx.hostHolds (x : Ctx) (e : BitVec 16) : Bool := x.evovf && (x.event e).spilled

/-- A set or a clear applied at the home (R167); `who` is told of it, once the host has done it where the host serves the event. -/
def State.applyEventFor (s : State) (ctx : Nat) (set : Bool) (e : BitVec 16) (who : Option Waiter) : State :=
  let x := s.ctx ctx
  if x.hostHolds e then (s.eventRecord ctx e (if set then 1 else 2) who).2
  else
    let v := x.event e
    let s1 := s.modCtx ctx (fun x => x.setEvent e (if set then { v with set := true, waiters := [] } else { v with set := false }))
    let s2 := ((if set then s1.wakeWaiters ctx e v.waiters else s1).settleEvent ctx e).returnEvents (e.toNat % 8)
    match who with
    | some (.remote c n) => s2.tellAway ctx e c n 9 0
    | _ => s2

/-- A set or a clear applied at the home that nobody is told of. -/
def State.applyEvent (s : State) (ctx : Nat) (set : Bool) (e : BitVec 16) : State := s.applyEventFor ctx set e none

/-- An event operation that has reached its home on this package. -/
def State.applyOp (s : State) (o : EvOp) : State :=
  s.applyEventFor o.ctx o.set o.event (o.reply.map (fun r => .remote r.1 r.2))

/-- A wait that reaches the home: whether the event is set; if not, the waiter joins the list. -/
def State.joinEvent (s : State) (ctx : Nat) (e : BitVec 16) (w : Waiter) : Bool × State :=
  let x := s.ctx ctx
  if x.hostHolds e then (false, (s.eventRecord ctx e 3 (some w)).2)
  else
    let v := x.event e
    if v.set then (true, s)
    else (false, (s.modCtx ctx (fun x => x.setEvent e { v with waiters := v.waiters ++ [w] })).settleEvent ctx e)

/-- Whether a waiter waits, on a wait list or in a record that the host answers. -/
def Ctx.waits (x : Ctx) (w : Waiter) : Bool :=
  x.events.any (fun e => decide (w ∈ e.2.waiters)) || x.away.any (fun q => decide (q.who = w)) ||
  x.asks.any (fun q => match q.2 with | .event _ _ who => decide (who = some w) | _ => false)

/-- An EVWAIT that resumes in its wait (R168): where it still waits, core `k` takes its place on the list; otherwise it has been woken. -/
def State.rejoinEvent (s : State) (k ctx n : Nat) : Bool × State :=
  if (s.ctx ctx).waits (.parked n) then (false, s.modCtx ctx (fun x => x.renameWaiter (.parked n) (.core k))) else (true, s)

/-- The event operations of a core that are still on their way to this home arrive before what the core asks of it now: the operations
of one core reach the home in publication order (R167). -/
def State.drainEvents (s : State) (src : BitVec 31) (ctx : Nat) : State :=
  let mine (o : EvOp) : Bool := decide (o.src = src) && decide (o.ctx = ctx)
  (s.evops.filter mine).foldl State.applyOp { s with evops := s.evops.filter (fun o => !mine o) }

end Sys2Proof.Machine
end

