-- ==== Sys2Proof/Machine/Messages.lean ====
section
/-! DEFINITION. Group 0x5: messages, firings, events, joins, the handler table, the host queue (17 R299-R300, R311-R318,
10 R172-R175, 09 R165-R169, 20 R391). -/

namespace Sys2Proof.Machine

/-! ### Targets (17 R299-R300) -/

/-- VX and VY of a target's address. -/
def targetXY (a : Word) : Nat × Nat := (fld a 11 0, fld a 27 16)
/-- HIDX. -/
def targetHidx (a : Word) : Nat := fld a 43 32
/-- OFF. -/
def targetOff (a : Word) : Nat := fld a 49 32
/-- JIDX. -/
def targetJidx (a : Word) : Nat := fld a 55 50

/-- The check of Cap(A) as a message target; a firing that belongs to no launch reaches no core (05 R462). -/
def State.targetCap (s : State) (k : Nat) (o : Opnd) : Res (Word × Nat) := do
  let c := s.cap k o
  liftCap (checkCap c pM [c.addr] 1)
  match (s.core k).sendLaunch with
  | some l => return (c.addr, l)
  | none => fault .capBounds c.addr

/-- A target core within LDIM, with the address that named it. -/
def State.target (s : State) (k : Nat) (o : Opnd) : Res (VCore × Word) := do
  let (a, l) ← s.targetCap k o
  let (vx, vy) := targetXY a
  let d := s.ldimOf k
  faultIf (decide (fld d 15 0 ≤ vx) || decide (fld d 31 16 ≤ vy)) .capBounds a
  return (⟨l, vx, vy⟩, a)

/-- Whether a specifier names a subgroup of the sender's group; a firing of the fault actor belongs to none. -/
def State.subgroupHere (s : State) (k spec : Nat) : Bool :=
  !(s.core k).svc && subgroupOk (fld (s.core k).gshape 2 0) (fld (s.core k).gshape 6 4) spec

/-- A message of core `k`'s firing, to be published. -/
def State.newMsg (s : State) (k : Nat) (kind : MKind) (hidx : Nat) (regs : List XReg) (launch : Nat) : Msg :=
  { kind, hidx, regs, sender := s.coord k, ctx := s.ctxOf k, launch, born := 0, href := none }

/-- The eight registers of role B8. -/
def State.block (s : State) (k : Nat) (o : Opnd) : List XReg := match o with
  | .x i => (s.vs k).block i.val
  | _ => []

/-- SEND: a handler message, or with .S a stream message (R312). -/
def execSend (f : FRS) (s : State) : Out :=
  s.runSeq s.cur f.sp [] [] (fun s => do
    let k := s.cur
    let (dst, a) ← s.target k f.a
    let m := if f.stream then s.newMsg k .stream 0 (s.block k f.b) dst.launch
      else s.newMsg k .handler (targetHidx a) (s.block k f.b) dst.launch
    s.enterOrdered k [.send dst m])

/-- SENDM (R313). -/
def execSendm (f : FRC) (s : State) : Out :=
  s.runSeq s.cur f.sp [f.c] [] (fun s => do
    let k := s.cur
    let (a, l) ← s.targetCap k f.a
    let (w, s1) ← s.src k f.c
    let spec := fld w 15 0
    faultIf (!s.subgroupHere k spec) .capBounds (BitVec.ofNat 64 spec)
    s1.enter k [.sendm (BitVec.ofNat 16 spec) (s.newMsg k .handler (targetHidx a) (s.block k f.b) l)])

/-- The inputs of a firing that RECV has not passed: those after the message that x1-x8 held at the start. -/
def Firing.unread (f : Firing) : List Input := match f.inputs with
  | .msg _ :: _ => f.inputs.drop (max f.recv 1)
  | l => l.drop f.recv

/-- The first message among inputs, with the number of inputs up to it. -/
def nextMessage (c : Core) : List Input → Option (Msg × Nat)
  | [] => none
  | .msg id :: t => match c.inbox.find? (fun m => decide (m.id = id)) with
    | some m => some (m.msg, 1)
    | none => (nextMessage c t).map (fun p => (p.1, p.2 + 1))
  | _ :: t => (nextMessage c t).map (fun p => (p.1, p.2 + 1))

/-- RECV (R314). -/
def execRecv (f : FR) (s : State) : Out :=
  s.runSeq s.cur f.sp [] [] (fun s =>
    let k := s.cur
    let c := s.core k
    let base := match f.d with | .x i => i.val | _ => 1
    match c.firing with
    | none => .ok s
    | some fr =>
      let start := fr.inputs.length - fr.unread.length
      let (regs, w, n) := match nextMessage c fr.unread with
        | some (m, n) => (m.regs ++ List.replicate (8 - m.regs.length) XReg.zero, m.sender.setWidth 64, start + n)
        | none => (List.replicate 8 XReg.zero, 0xFFFFFFFFFFFFFFFF, fr.inputs.length)
      .ok (s.modCore k (fun c => { c with firing := some { fr with recv := n }, vs := (c.vs.setBlock base regs).shiftL w })))

/-- FIRE (R315). -/
def execFire (f : FR) (s : State) : Out :=
  s.runSeq s.cur f.sp [] [] (fun s => do
    let k := s.cur
    let c := s.cap k f.a
    liftCap (checkCap c pH [c.addr] 1)
    let r := HRef.of c.addr
    faultIf (!s.handlePasses k r) .handleStale c.addr
    faultIf (decide (((s.ctx (s.ctxOf k)).handle r.index).running = 0xFFFF)) .specFull c.addr
    (s.addRunning (s.ctxOf k) r.index).enter k [.fire r (s.block k f.b)])

/-- END (R316). -/
def execEndFiring (_f : FR) (s : State) : Out := s.runEnd s.cur (fun s => s.publishNow s.cur none)

/-- YIELD (R316, 09 R165). -/
def execYieldFiring (_f : FR) (s : State) : Out := s.runYield s.cur

/-- MIGRATE (R316): the target check, the boundary, and the wait for MIGRATE_DEPART, which sends the message and ends the firing. -/
def execMigrate (f : FR) (s : State) : Out :=
  s.runEnd s.cur (fun s => do
    let _ ← s.target s.cur f.a
    let s1 ← s.publishNow s.cur none
    .error (.wait .migrate s1))

/-! ### Events (09 R167, 20 R391) -/

/-- EVSET. -/
def execEvset (f : FR) (s : State) : Out :=
  s.runSeq s.cur f.sp [f.a] [] (fun s => do
    let (w, s1) ← s.src s.cur f.a
    s1.enter s.cur [.event true (w.setWidth 16)])
/-- EVCLR. -/
def execEvclr (f : FR) (s : State) : Out :=
  s.runSeq s.cur f.sp [f.a] [] (fun s => do
    let (w, s1) ← s.src s.cur f.a
    s1.enter s.cur [.event false (w.setWidth 16)])

/-- The place on a wait list that a firing resumed with is taken up, by it and by its replay. -/
def Core.spendTicket (c : Core) : Core :=
  { c with ticket := none, point := { c.point with resume := c.point.resume.map (fun r => { r with ticket := none }) } }

/-- EVWAIT: a boundary, then a wait until the home reports the event set. A home on another package is asked, and answers, over a link. -/
def execEvwait (f : FR) (s : State) : Out :=
  s.runSeq s.cur f.sp [f.a] [] (fun s => do
    let k := s.cur
    let (w, s1) ← s.waitSrc k f.a
    let e : BitVec 16 := w.setWidth 16
    let ctx := s.ctxOf k
    faultIf (s.homeLost ctx e) .peerLost (e.setWidth 64)
    let s2 ← s1.publishNow k none
    let wait (r : Bool × State) : Res State := if r.1 then .ok (r.2.freshPhase k) else .error (.wait (.event e false) r.2)
    match (s.core k).ticket with
    | some n => wait (((s2.drainEvents (s2.coord k) ctx).modCore k Core.spendTicket).rejoinEvent k ctx n)
    | none =>
      if (s2.ctx ctx).home then wait ((s2.drainEvents (s2.coord k) ctx).joinEvent ctx e (.core k))
      else match s2.askHome (coreDie k) ctx (s2.coord k) (s2.core k).sendLaunch 3 e (.core k) with
        | some s3 => wait (false, s3)
        | none => fault .peerLost (e.setWidth 64))

/-- EVTEST: an implicit boundary, then the event's state from its home; a home that is another package, or the host, answers later. -/
def execEvtest (f : FR) (s : State) : Out :=
  s.runSeq s.cur f.sp [f.a] [f.d] (fun s => do
    let k := s.cur
    let (w, s1) ← s.src k f.a
    let e : BitVec 16 := w.setWidth 16
    let ctx := s.ctxOf k
    faultIf (s.homeLost ctx e) .peerLost (e.setWidth 64)
    let s2 ← s1.publishNow k none
    if (s2.ctx ctx).home then
      let s3 := s2.drainEvents (s2.coord k) ctx
      if (s3.ctx ctx).hostHolds e then
        let (seq, s4) := s3.eventRecord ctx e 4 (some (.core k))
        .error (.wait (.eventHost e seq true f.d) s4)
      else
        (s3.freshPhase k).put k f.d (bit ((s3.ctx ctx).event e).set)
    else match s2.askHome (coreDie k) ctx (s2.coord k) (s2.core k).sendLaunch 4 e (.core k) with
      | some s3 => .error (.wait (.eventHost e 0 true f.d) s3)
      | none => fault .peerLost (e.setWidth 64))

/-! ### Joins (10 R174-R175) -/

/-- JOIN. -/
def execJoin (f : FJoin) (s : State) : Out :=
  s.runSeq s.cur f.sp [] [] (fun s => do
    let (dst, _) ← s.target s.cur f.a
    s.enter s.cur [.join dst (f.n.toNat + 1) f.j.toNat])

/-- The kernel whose code holds an address (10 R175): of a function, its kernel; of a residual, the kernel recorded when it was made. A number
that no kernel has where there is none. -/
def Ctx.kernelAt (x : Ctx) (pc : Word) : Nat :=
  let holds (e : HEntry) : Bool := decide (e.state = .live ∨ e.state = .retiring) && decide (e.codeva.toNat ≤ pc.toNat) &&
    decide (pc.toNat < e.codeva.toNat + 8 * e.words.toNat)
  match List.find? (fun p => holds p.2) x.handles with
  | some p => x.rootOf p.1
  | none => noKernel

/-- JINIT. -/
def execJinit (f : FJinit) (s : State) : Out :=
  s.runSeq s.cur f.sp [f.a] [] (fun s => do
    let k := s.cur
    let (w, s1) ← s.src k f.a
    s1.enter k [.jinit f.j.toNat f.scope (w.setWidth 24) ((s.ctx (s.ctxOf k)).kernelAt (s.core k).pc)])

/-! ### The handler table and the host queue (R317-R318) -/

/-- HTSET. -/
def execHtset (f : FR) (s : State) : Out :=
  s.runSeq s.cur f.sp [f.a, f.b] [] (fun s => do
    let k := s.cur
    let (i, s1) ← s.src k f.a
    let inside : Res Unit := faultIf (decide (4096 ≤ i.toNat)) .capBounds i
    let (w, s2) ← before inside (s1.src k (s.issued k f.b))
    inside
    s2.enter k [.htset i.toNat w])

/-- Entry i of the handler table as it stood when a phase began. -/
def Ctx.handlerAt (x : Ctx) (start i : Nat) : Word :=
  ((x.oldHandlers.filter (fun o => decide (o.1 = i) && decide (start ≤ o.2.2))).getLast?.map (fun o => o.2.1)).getD (x.handler i)

/-- The firing's own latest HTSET of an entry in the phase. -/
def ownHandler (buf : List Entry) (i : Nat) : Option Word :=
  buf.foldl (fun r e => match e with
    | .htset j w => if j = i then some (w &&& handlerMask) else r
    | _ => r) none

/-- HTGET. -/
def execHtget (f : FR) (s : State) : Out :=
  s.runSeq s.cur f.sp [f.a] [f.d] (fun s => do
    let k := s.cur
    let (i, s1) ← s.src k f.a
    faultIf (decide (4096 ≤ i.toNat)) .capBounds i
    let c := s1.core k
    s1.put k f.d ((ownHandler c.buffer i.toNat).getD ((s1.ctx (s1.ctxOf k)).handlerAt c.view.start i.toNat)))

/-- HOSTQ. -/
def execHostq (f : FR) (s : State) : Out :=
  s.runSeq s.cur f.sp [] [] (fun s => s.enter s.cur [.hostq (lows (s.block s.cur f.a))])

end Sys2Proof.Machine
end

