-- ==== Sys2Proof/Machine/Atomics.lean ====
section
/-! DEFINITION. Group 0x8: atomics on global memory, and remote operations at another core's local store (17 R323-R325). -/

namespace Sys2Proof

/-- Bytes of a group 0x8 form. -/
def FA.bytes (f : FA) : Nat := if f.dbl then 8 else 4

end Sys2Proof

namespace Sys2Proof.Machine

/-- A value-returning atomic, performed at the memory: the old value, and the state after it. -/
def State.performAtomic (s : State) (k pa w : Nat) (op : AtomOp) (b c : Word) : Nat × State :=
  let m := 2 ^ (8 * w)
  let old := ofBytes (s.bytes pa w)
  let new := atomNew op w old (b.toNat % m) (c.toNat % m)
  let s1 := s.publish (narrowTo k (s.core k).scope) false pa (bytesOf w new)
  (old, if new = old then s1 else s1.commit k)

/-- A global atomic (R324). -/
def State.atomicOp (s : State) (f : FA) (op : AtomOp) : Out :=
  s.runMem s.cur f.sp .write [f.b, f.c] [f.d] (fun s => do
    let k := s.cur
    let w := f.bytes
    let (b, s1) ← s.src k f.b
    let (c, s2) ← s1.src k f.c
    let x := s2.cap k f.a
    let a := x.addr
    liftCap (checkCap x (pR + pW + pG) [a] w)
    alignCheck w [a]
    let (pa, s3) ← s2.translate k .write a
    if f.post then s3.enterOrdered k [.atomic a pa w op b c]
    else
      let s4 ← s3.publishNow k (s3.core k).scope
      if s4.isHeld k [.atomic a pa w op b c] then .error (.wait .boundary (s4.noteHeld [.atomic a pa w op b c]))
      else
        let (old, s5) := s4.performAtomic k pa w op b c
        let s6 ← s5.put k f.d (BitVec.ofNat 64 old)
        s6.trail k)

/-- AADD. -/
def execAadd (f : FA) (s : State) : Out := s.atomicOp f .add
/-- AAND. -/
def execAand (f : FA) (s : State) : Out := s.atomicOp f .and
/-- AOR. -/
def execAor (f : FA) (s : State) : Out := s.atomicOp f .or
/-- AXOR. -/
def execAxor (f : FA) (s : State) : Out := s.atomicOp f .xor
/-- AMIN. -/
def execAmin (f : FA) (s : State) : Out := s.atomicOp f .min
/-- AMAX. -/
def execAmax (f : FA) (s : State) : Out := s.atomicOp f .max
/-- AMINU. -/
def execAminu (f : FA) (s : State) : Out := s.atomicOp f .minu
/-- AMAXU. -/
def execAmaxu (f : FA) (s : State) : Out := s.atomicOp f .maxu
/-- ASWP. -/
def execAswp (f : FA) (s : State) : Out := s.atomicOp f .swp
/-- ACAS. -/
def execAcas (f : FA) (s : State) : Out := s.atomicOp f .cas
/-- AFADD. -/
def execAfadd (f : FA) (s : State) : Out := s.atomicOp f .fadd
/-- AFMIN. -/
def execAfmin (f : FA) (s : State) : Out := s.atomicOp f .fmin
/-- AFMAX. -/
def execAfmax (f : FA) (s : State) : Out := s.atomicOp f .fmax

/-! ### Remote operations (R325) -/

/-- The target and the aligned offset of a remote operation. -/
def State.remoteAt (s : State) (k : Nat) (f : FA) : Res (VCore × Nat) := do
  let (dst, a) ← s.target k f.a
  let off := targetOff a
  faultIf (decide (off % f.bytes ≠ 0)) .align (BitVec.ofNat 64 off)
  return (dst, off)

/-- A posted remote operation. -/
def State.remotePosted (s : State) (f : FA) (op : RemOp) : Out :=
  s.runSeq s.cur f.sp [f.b] [] (fun s => do
    let k := s.cur
    let (b, s1) ← s.src k f.b
    let (dst, off) ← s1.remoteAt k f
    s1.enterOrdered k [.remote dst op off f.bytes b 0])

/-- The lost package that an owner stands on: no route leads there, or it stood on a lost die of this package (14 R237-R238). -/
def State.ownerLost (s : State) (k : Nat) (dst : VCore) : Option Nat := match s.place dst with
  | .remote at_ => if (s.routeOf (coreDie k) (at_ / 8192)).isNone then some (at_ / 8192) else none
  | .retired => if s.diedAt dst then some s.pkg.toNat else none
  | _ => none

/-- A value-returning remote operation: its checks, the implicit boundary, the request, the wait for REMOTE_REPLY. -/
def State.remoteValue (s : State) (f : FA) (op : RemOp) : Out :=
  s.runSeq s.cur f.sp [f.b, f.c] [f.d] (fun s => do
    let k := s.cur
    let (b, s1) ← s.src k f.b
    let (c, s2) ← s1.src k f.c
    let (dst, off) ← s2.remoteAt k f
    match s2.ownerLost k dst with
    | some p => fault .peerLost (BitVec.ofNat 64 p)
    | none =>
      let s3 ← s2.publishNow k (s2.core k).scope
      .error (.wait (.remote f.d none) (s3.sendBody k (s3.ctxOf k) dst (.remote op off f.bytes b c (some k)))))

/-- RGET. -/
def execRget (f : FA) (s : State) : Out := s.remoteValue f .get
/-- RPUT. -/
def execRput (f : FA) (s : State) : Out := s.remotePosted f .put
/-- RADD. -/
def execRadd (f : FA) (s : State) : Out := s.remotePosted f .add
/-- RCAS. -/
def execRcas (f : FA) (s : State) : Out := s.remoteValue f .cas

end Sys2Proof.Machine
end

