-- ==== Sys2Proof/Machine/Branch.lean ====
section
/-! DEFINITION. Group 0x4: branches, jumps, LOOP (16 R293-R298). -/

namespace Sys2Proof.Machine

/-- The target of an F-C word: its own address plus 8 × DISP (R294). -/
def Core.target (c : Core) (f : FC) : Word := c.pc + 8 * c.widened f.disp

/-- Whether a word lies outside PCC (R293). -/
def State.leaves (s : State) (a : Word) : Res Unit := faultIf (!(s.core s.cur).reaches a) .capBounds a

/-- Where a branch passes control: to its target when taken, else past the word and its live mask (R295). -/
def State.branchTo (s : State) (f : FC) (taken : Bool) : Res Word := do
  let c := s.core s.cur
  let next := if taken then c.target f else c.fallThrough f.sp
  s.leaves next
  return next

/-- A conditional branch on two sources (R294). -/
def State.compareBranch (s : State) (f : FC) (p : Word → Word → Bool) : Out :=
  s.runJump s.cur f.sp [f.a, f.b] (fun s => do
    let (a, s1) ← s.src s.cur f.a
    let (b, s2) ← s1.src s.cur f.b
    let next ← s.branchTo f (p a b)
    return (s2, next))

/-- BEQ. -/
def execBeq (f : FC) (s : State) : Out := s.compareBranch f (fun a b => decide (a = b))
/-- BNE. -/
def execBne (f : FC) (s : State) : Out := s.compareBranch f (fun a b => decide (a ≠ b))
/-- BLT. -/
def execBlt (f : FC) (s : State) : Out := s.compareBranch f (fun a b => decide (s64 a < s64 b))
/-- BGE. -/
def execBge (f : FC) (s : State) : Out := s.compareBranch f (fun a b => decide (s64 b ≤ s64 a))
/-- BLTU. -/
def execBltu (f : FC) (s : State) : Out := s.compareBranch f (fun a b => decide (a.toNat < b.toNat))
/-- BGEU. -/
def execBgeu (f : FC) (s : State) : Out := s.compareBranch f (fun a b => decide (b.toNat ≤ a.toNat))

/-- A branch on a k register, sampled now (R294, 03 R53). -/
def State.kBranch (s : State) (f : FC) (want : Bool) : Out :=
  s.runJump s.cur f.sp [] (fun s => do
    let (a, s1) ← s.src s.cur f.a
    let next ← s.branchTo f (decide (a ≠ 0) == want)
    return (s1, next))
/-- BK. -/
def execBk (f : FC) (s : State) : Out := s.kBranch f true
/-- BNK. -/
def execBnk (f : FC) (s : State) : Out := s.kBranch f false

/-- JMP. -/
def execJmp (f : FC) (s : State) : Out :=
  s.runJump s.cur f.sp [] (fun s => do
    let next ← s.branchTo f true
    return (s, next))

/-- JAL: the link, then the jump (R297). -/
def execJal (f : FC) (s : State) : Out :=
  s.runJump s.cur f.sp [] (fun s => do
    let next ← s.branchTo f true
    let c := s.core s.cur
    let ret := c.fallThrough f.sp
    return ((s.setLink' s.cur f.a (c.pcc.move ret)).shiftL s.cur ret, next))

/-- JR: the link from the old PCC, then control and PCC from Cap(A) (R298). -/
def execJr (f : FR) (s : State) : Out :=
  s.runJump s.cur f.sp [] (fun s => do
    let t := s.cap s.cur f.a
    liftCap (checkCap t (pX + pG) [t.addr] 8)
    faultIf (decide (t.addr.toNat % 8 ≠ 0)) .align t.addr
    let c := s.core s.cur
    let ret := c.fallThrough f.sp
    let s1 := (s.modCore s.cur (fun c => { c with pcc := t })).setLink' s.cur f.d (c.pcc.move ret)
    return (s1.shiftL s.cur ret, t.addr))

/-- LOOP: decrement, and branch while the count is not zero (R296). -/
def execLoop (f : FC) (s : State) : Out :=
  s.runJump s.cur f.sp [f.a] (fun s => do
    let (a, s1) ← s.src s.cur f.a
    let c := a - 1
    let next ← s.branchTo f (decide (c ≠ 0))
    return (s1.setLink' s.cur f.a (XReg.plain c), next))

end Sys2Proof.Machine
end

