-- ==== Sys2Proof/Machine/Capability.lean ====
section
/-! DEFINITION. Group 0x3: reading and deriving capabilities (16 R285-R292). Results of role XD do not enter the l file. -/

namespace Sys2Proof.Machine

/-- A getter: a doubleword of Cap(A) (R286). -/
def State.getter (s : State) (f : FR) (op : XReg → Word) : Out :=
  s.runSeq s.cur f.sp [] [f.d] (fun s => s.put s.cur f.d (op (s.cap s.cur f.a)))

/-- A derivation from Cap(A) and Src(B) (R285). -/
def State.derive (s : State) (f : FR) (op : XReg → Word → Res XReg) : Out :=
  s.runSeq s.cur f.sp [f.b] [] (fun s => do
    let c := s.cap s.cur f.a
    let (b, s1) ← s.src s.cur f.b
    let r ← op c b
    return s1.setCap s.cur f.d r)

/-- CGETA. -/
def execCgeta (f : FR) (s : State) : Out := s.getter f XReg.addr
/-- CGETB: base mod 2^64. -/
def execCgetb (f : FR) (s : State) : Out := s.getter f (fun c => BitVec.ofNat 64 c.base)
/-- CGETL: 2^64 - 1 for a length of 2^64; 0 for a malformed or zero-length capability. -/
def execCgetl (f : FR) (s : State) : Out := s.getter f (fun c => BitVec.ofNat 64 (min (c.top - c.base) (2 ^ 64 - 1)))
/-- CGETP: permissions with PS, then OTYPE. -/
def execCgetp (f : FR) (s : State) : Out := s.getter f (fun c => BitVec.ofNat 64 (fld c.hi 63 48))
/-- CTAG. -/
def execCtag (f : FR) (s : State) : Out := s.getter f (fun c => bit c.tag)
/-- CSUB. -/
def execCsub (f : FR) (s : State) : Out :=
  s.runSeq s.cur f.sp [] [f.d] (fun s => s.put s.cur f.d ((s.cap s.cur f.a).addr - (s.cap s.cur f.b).addr))

/-- A capability, tagged or not, at another address (R287). -/
def moveCap (c : XReg) (na : Word) : Res XReg :=
  if c.tag ∧ c.sealed then fault .capPerm c.addr
  else .ok (if c.tag then c.move na else XReg.plain na)

/-- CSETA (R287). -/
def execCseta (f : FR) (s : State) : Out := s.derive f moveCap
/-- CINC (R287); XIMM may widen the increment. -/
def execCinc (f : FI) (s : State) : Out :=
  s.runSeq s.cur f.sp [] [] (fun s => do
    let c := s.cap s.cur f.a
    let r ← moveCap c (c.addr + (s.core s.cur).widened f.imm)
    return s.setCap s.cur f.d r)
/-- CCLR: the address without its tag (R287). -/
def execCclr (f : FR) (s : State) : Out :=
  s.runSeq s.cur f.sp [] [] (fun s => do
    let c := s.cap s.cur f.a
    faultIf (c.tag && c.sealed) .capPerm c.addr
    return s.setCap s.cur f.d (XReg.plain c.addr))

/-- The bounds [ADDR, ADDR + len) of a capability, rounded outward (R288). -/
def boundCap (c : XReg) (len : Word) : Res XReg := do
  faultIf (!c.tag) .capTag c.addr
  faultIf c.sealed .capPerm c.addr
  let (e, nb, nt) := roundBounds c.addr.toNat len.toNat
  faultIf (decide (42 < e) || decide (nb < c.base) || decide (c.top < nt)) .capBounds c.addr
  return XReg.ofWords c.addr (capHi e 0 ((nt - nb) / 2 ^ e) c.perms c.sealed c.otype) true
/-- CSETB (R288). -/
def execCsetb (f : FR) (s : State) : Out := s.derive f boundCap

/-- CANDP (R289). -/
def execCandp (f : FR) (s : State) : Out :=
  s.derive f (fun c m => do
    faultIf (!c.tag) .capTag c.addr
    faultIf c.sealed .capPerm c.addr
    return XReg.ofWords c.addr (capHi c.exp c.below c.above (c.perms &&& m.toNat) c.sealed c.otype) true)

/-- CLSCAP (R290): from x0 the core's own local store. -/
def execClscap (f : FR) (s : State) : Out :=
  s.derive f (fun c w => do
    let off := fld w 19 0
    let len := fld w 40 20
    let own := decide (f.a = .x 0)
    faultIf (!own && !c.tag) .capTag c.addr
    faultIf (!own && (c.sealed || decide (c.perms &&& pL = 0))) .capPerm c.addr
    faultIf (decide (2 ^ 20 < off + len) || (!own && (decide (off < c.base) || decide (c.top < off + len)))) .capBounds
      (BitVec.ofNat 64 off)
    return capFor off len (if own then pR + pW + pL else c.perms))

/-- The checks of CSEAL and CUNSEAL on Cap(A) and the key, kind by kind (R291); the type the key carries. -/
def State.sealCheck (s : State) (k : Nat) (opens : Bool) (a b : XReg) : Res Nat := do
  let r := HRef.of b.addr
  let t := ((s.ctx (s.ctxOf k)).handle r.index).ktype.toNat
  faultIf (!a.tag) .capTag a.addr
  faultIf (!b.tag) .capTag b.addr
  faultIf (a.sealed != opens) .capPerm a.addr
  faultIf (b.sealed || decide (b.perms ≠ pH)) .capPerm b.addr
  faultIf (decide (t = 0)) .capPerm b.addr
  faultIf (opens && decide (a.otype ≠ t)) .capPerm a.addr
  faultIf (!s.handlePasses k r) .handleStale b.addr
  return t

/-- CSEAL (R291). -/
def execCseal (f : FR) (s : State) : Out :=
  s.runSeq s.cur f.sp [] [] (fun s => do
    let a := s.cap s.cur f.a
    let t ← s.sealCheck s.cur false a (s.cap s.cur f.b)
    return s.setCap s.cur f.d (XReg.ofWords a.addr (capHi a.exp a.below a.above a.perms true t) true))
/-- CUNSEAL (R291). -/
def execCunseal (f : FR) (s : State) : Out :=
  s.runSeq s.cur f.sp [] [] (fun s => do
    let a := s.cap s.cur f.a
    let _ ← s.sealCheck s.cur true a (s.cap s.cur f.b)
    return s.setCap s.cur f.d (XReg.ofWords a.addr (capHi a.exp a.below a.above a.perms false 0) true))

end Sys2Proof.Machine
end

