-- ==== Sys2Proof/Machine/Tiles.lean ====
section
/-! DEFINITION. Tiles (11): headers and their checks, where an element lies, the roles of an operand, result headers; and the
accumulation of products (04 R84-R86, R93). -/

namespace Sys2Proof.Machine

/-- CSR FEATURES: the features of the device without those that FEATOFF switches off (07 R129). -/
def State.features (s : State) : Word := 0x3F &&& ~~~(s.featoff &&& 0x3E)
/-- FEATURES.SPARSE. -/
def hasSparse (f : Word) : Bool := fbit f 1
/-- FEATURES.QA. -/
def hasQa (f : Word) : Bool := fbit f 2
/-- FEATURES.FPSIXTYFOUR. -/
def hasF64 (f : Word) : Bool := fbit f 3
/-- FEATURES.CARRY. -/
def hasCarry (f : Word) : Bool := fbit f 4
/-- FEATURES.NBVONE. -/
def hasNbv1 (f : Word) : Bool := fbit f 5

/-! ### Element formats (11 R180, R182) -/

/-- Bits of an element. -/
def efBits : Nat → Nat
  | 1 => 64
  | 2 | 7 => 32
  | 3 | 4 | 8 => 16
  | 11 | 12 | 14 => 4
  | _ => 8
/-- The floating-point format of an EFMT. -/
def efFmt : Nat → Option Fmt
  | 1 => some .f64 | 2 => some .f32 | 3 => some .bf16 | 4 => some .f16 | 5 => some .e4m3 | 6 => some .e5m2 | _ => none
/-- The signed integer formats. -/
def efSigned (e : Nat) : Bool := decide (e = 7 ∨ e = 8 ∨ e = 9 ∨ e = 11)
/-- QA8 and QA4. -/
def efQa (e : Nat) : Bool := decide (e = 13 ∨ e = 14)
/-- INT8, UINT8, INT4, UINT4. -/
def efSmall (e : Nat) : Bool := decide (9 ≤ e ∧ e ≤ 12)
/-- An integer element's value. -/
def efInt (e bits : Nat) : Int := if efSigned e ∧ 2 ^ (efBits e - 1) ≤ bits then (bits : Int) - 2 ^ efBits e else bits

/-! ### Headers (R180-R181) -/

/-- A header's fields; `good` says that MAGIC, HVER and HCHK are right, `resv` that a reserved bit is set. -/
structure Hdr where
  good : Bool
  efmt : Nat
  slay : Nat
  spar : Nat
  swz : Nat
  zpf : Nat
  rows : Nat
  cols : Nat
  stride : Nat
  group : Nat
  filled : Bool
  trans : Bool
  dirty : Bool
  resv : Bool
  scaleoff : Nat
  bodylen : Nat
  metaoff : Nat
  deriving DecidableEq, Repr

/-- One bit of the CRC of R181. -/
def crc16Bit (c : Nat) : Nat := if c / 2 ^ 15 % 2 = 1 then (c * 2 % 2 ^ 16) ^^^ 0x1021 else c * 2 % 2 ^ 16
/-- The CRC of R181 over a byte string. -/
def crc16 (bs : List Byte) : Nat :=
  bs.foldl (fun c b => Nat.repeat crc16Bit 8 (c ^^^ (b.toNat * 2 ^ 8))) 0xFFFF

/-- HCHK of four header doublewords. -/
def hchk (w : List Word) : Nat := crc16 ((w.flatMap (fun x => bytesOf 8 x.toNat)).take 30)

/-- A header from its four doublewords. -/
def Hdr.of (w : List Word) : Hdr :=
  let h0 := w.getD 0 0
  let h1 := w.getD 1 0
  let h2 := w.getD 2 0
  let h3 := w.getD 3 0
  { good := decide (fld h0 7 0 = 0xA7 ∧ fld h0 11 8 = 1 ∧ fld h3 63 48 = hchk w), efmt := fld h0 17 12, slay := fld h0 21 18,
    spar := fld h0 25 22, swz := fld h0 29 26, zpf := fld h0 31 30, rows := fld h0 47 32, cols := fld h0 63 48,
    stride := fld h1 31 0, group := fld h1 47 32, filled := fbit h1 48, trans := fbit h1 49, dirty := fbit h1 50,
    resv := decide (fld h1 63 51 ≠ 0 ∨ fld h3 47 32 ≠ 0), scaleoff := fld h2 31 0, bodylen := fld h2 63 32,
    metaoff := fld h3 31 0 }

/-- The four doublewords of a header, HCHK computed anew. -/
def Hdr.words (h : Hdr) : List Word :=
  let h0 := BitVec.ofNat 64 (0xA7 + 2 ^ 8 + h.efmt % 64 * 2 ^ 12 + h.slay % 16 * 2 ^ 18 + h.spar % 16 * 2 ^ 22 + h.swz % 16 * 2 ^ 26 +
    h.zpf % 4 * 2 ^ 30 + h.rows % 65536 * 2 ^ 32 + h.cols % 65536 * 2 ^ 48)
  let h1 := BitVec.ofNat 64 (h.stride % 2 ^ 32 + h.group % 65536 * 2 ^ 32 + h.filled.toNat * 2 ^ 48 + h.trans.toNat * 2 ^ 49 +
    h.dirty.toNat * 2 ^ 50)
  let h2 := BitVec.ofNat 64 (h.scaleoff % 2 ^ 32 + h.bodylen % 2 ^ 32 * 2 ^ 32)
  let h3 := BitVec.ofNat 64 (h.metaoff % 2 ^ 32)
  [h0, h1, h2, h3 ||| BitVec.ofNat 64 (hchk [h0, h1, h2, h3] * 2 ^ 48)]

/-- The header of an unconfigured register (19 R348). -/
def Hdr.none : Hdr :=
  { good := true, efmt := 0, slay := 0, spar := 0, swz := 0, zpf := 0, rows := 0, cols := 0, stride := 0, group := 0, filled := false,
    trans := false, dirty := false, resv := false, scaleoff := 0, bodylen := 0, metaoff := 0 }

/-- The computed header of a tile register (R197). -/
def Hdr.reg (efmt swz rows cols : Nat) (dirty : Bool) : Hdr :=
  { Hdr.none with efmt, swz, rows, cols, stride := 64, bodylen := 1024, dirty }

/-- The header of a tile register's contents. -/
def Tile.hdr (t : Tile) : Hdr := Hdr.reg t.efmt t.swz t.rows t.cols (decide (t.state = .dirty))

/-- The limits of R197 on what a register may hold. -/
def regFits (efmt swz rows cols : Nat) : Bool :=
  decide (1 ≤ efmt ∧ efmt ≤ 12 ∧ swz ≤ 2 ∧ 1 ≤ rows ∧ 1 ≤ cols) &&
  (if swz = 2 then decide (cols ≤ 16 ∧ rows * efBits efmt ≤ 512) else decide (rows ≤ 16 ∧ cols * efBits efmt ≤ 512))

/-! ### Shapes and places (R180, R182-R184) -/

/-- The logical shape. -/
def Hdr.shape (h : Hdr) : Nat × Nat := if h.trans then (h.cols, h.rows) else (h.rows, h.cols)
/-- Whether K is the stored column axis, for an operand whose K is its logical column axis (`kcol`) or row axis (R183). -/
def Hdr.kStored (h : Hdr) (kcol : Bool) : Bool := kcol != h.trans
/-- The logical count of K and of the other axis. -/
def Hdr.km (h : Hdr) (kcol : Bool) : Nat × Nat := if kcol then (h.shape.2, h.shape.1) else h.shape
/-- The stored extent. -/
def Hdr.extent (h : Hdr) (kcol : Bool) : Nat × Nat :=
  if h.spar = 1 then (if h.kStored kcol then (h.rows, h.cols / 2) else (h.rows / 2, h.cols)) else (h.rows, h.cols)

/-- Division rounded up. -/
def up (a b : Nat) : Nat := (a + b - 1) / b

/-- The place of stored element (r, c) in bits from the start of the body (R184). -/
def Hdr.bitAt (h : Hdr) (r c : Nat) : Nat :=
  let b := efBits h.efmt
  match h.swz with
  | 0 => r * h.stride * 8 + c * b
  | 1 =>
    let g := c * b / 64
    r * h.stride * 8 + 64 * ((g - g % 8) + ((g % 8) ^^^ (r % 8))) + c * b % 64
  | 2 => c * h.stride * 8 + r * b
  | _ => r / 16 * h.stride * 8 + c / 16 * 256 * b + (r % 16 * 16 + c % 16) * b

/-- The place of logical element (i, j) of a dense tile. -/
def Hdr.elemAt (h : Hdr) (i j : Nat) : Nat := if h.trans then h.bitAt j i else h.bitAt i j

/-! ### Checks of a header alone (R75, R185, R188) -/

/-- Bytes of the scale block (R186). -/
def Hdr.scaleLen (h : Hdr) (kcol : Bool) : Nat :=
  let (k, m) := h.km kcol
  match h.slay with
  | 1 => 4
  | 2 => 2 * h.rows
  | 3 => 2 * h.cols
  | 4 => 4 * (m * (k / h.group))
  | 5 => 2 * (m * (k / h.group))
  | _ => 0
/-- Bytes of the metadata that the header fixes (R185). -/
def Hdr.metaLen (h : Hdr) (kcol : Bool) : Nat :=
  let (k, m) := h.km kcol
  let (sr, sc) := h.extent kcol
  match h.spar with
  | 1 => up (m * k) 8
  | 2 => up (up sr 16 * up sc 16) 8
  | 3 => (h.rows + 1) * 4
  | _ => 0

/-- The extents of the parts of a tile, from its header (R185). -/
def Hdr.parts (h : Hdr) (kcol : Bool) : List (Nat × Nat) :=
  [(0, 32), (32, h.bodylen)] ++ (if h.slay = 0 then [] else [(h.scaleoff, h.scaleLen kcol)]) ++
  (if h.spar = 0 then [] else [(h.metaoff, h.metaLen kcol)])

/-- Whether no two extents overlap. -/
def disjoint : List (Nat × Nat) → Bool
  | [] => true
  | p :: t => t.all (fun q => decide (p.1 + p.2 ≤ q.1) || decide (q.1 + q.2 ≤ p.1)) && disjoint t

/-- ROWSTRIDE and BODYLEN (the table of R185). -/
def Hdr.strideOk (h : Hdr) (kcol : Bool) : Bool :=
  let b := efBits h.efmt
  let (sr, sc) := h.extent kcol
  match h.spar, h.swz with
  | 2, 3 => decide (h.stride = 0)
  | 3, 0 => decide (h.stride = 0)
  | 2, _ | 3, _ => false
  | _, 0 => decide (up (sc * b) 8 ≤ h.stride) && decide ((sr - 1) * h.stride + up (sc * b) 8 ≤ h.bodylen)
  | _, 1 =>
    let l := up (up (sc * b) 8) 64 * 64
    decide (l ≤ h.stride) && decide (h.stride % 64 = 0) && decide ((sr - 1) * h.stride + l ≤ h.bodylen)
  | _, 2 => decide (up (sr * b) 8 ≤ h.stride) && decide ((sc - 1) * h.stride + up (sr * b) 8 ≤ h.bodylen)
  | _, _ => decide (up sc 16 * 32 * b ≤ h.stride) && decide (up sr 16 * h.stride ≤ h.bodylen)

/-- The layout of a header is consistent (R185). -/
def Hdr.layoutOk (h : Hdr) (kcol : Bool) : Bool :=
  h.strideOk kcol &&
  decide ((h.scaleoff = 0) = (h.slay = 0)) && decide (h.scaleoff % 4 = 0) &&
  decide ((h.metaoff = 0) = (h.spar = 0)) && decide (h.metaoff % 4 = 0) &&
  (decide (h.spar ≠ 1) || decide ((h.km kcol).1 % 8 = 0)) &&
  (if h.slay = 4 ∨ h.slay = 5 then decide (h.group ≠ 0) && decide ((h.km kcol).1 % h.group = 0) else decide (h.group = 0)) &&
  disjoint (h.parts kcol)

/-- The roles of an operand (R188). -/
inductive TRole where
  | reg | mem | left | right | feature | weight | edges | fill
  deriving DecidableEq, Repr

/-- The formats of a role (R188, R129-R130). -/
def TRole.fmtOk (r : TRole) (f : Word) (h : Hdr) : Bool :=
  let e := h.efmt
  match r with
  | .reg | .mem => decide (1 ≤ e ∧ e ≤ 12)
  | .left | .right =>
    (decide (e = 1) && hasF64 f) || decide (2 ≤ e ∧ e ≤ 6) || efSmall e || (efQa e && hasQa f)
  | .feature => decide (e = 3 ∨ e = 4)
  | .weight => decide (e = 3 ∨ e = 4) || (efQa e && hasQa f)
  | .edges => decide (e = 7 ∧ h.cols = 2)
  | .fill => decide (1 ≤ e ∧ e ≤ 12) || (efQa e && hasQa f)
/-- The scale layouts of a role. -/
def TRole.slayOk (r : TRole) (h : Hdr) : Bool :=
  let fp := (efFmt h.efmt).isSome
  match h.slay with
  | 0 => true
  | 1 => fp && decide (r = .left ∨ r = .right ∨ r = .fill)
  | 2 => fp && decide (r = .left ∨ r = .fill)
  | 3 => fp && decide (r = .right ∨ r = .fill)
  | _ => efQa h.efmt && decide (r = .left ∨ r = .right ∨ r = .weight ∨ r = .fill)
/-- The sparsity forms of a role. -/
def TRole.sparOk (r : TRole) (f : Word) (h : Hdr) : Bool :=
  let e := h.efmt
  match h.spar with
  | 0 => true
  | 1 => hasSparse f && decide (r = .left ∨ r = .right) && decide (3 ≤ e ∧ e ≤ 6 ∨ e = 9 ∨ e = 11)
  | 2 => hasSparse f && decide (r = .left ∨ r = .right) && !efQa e
  | _ => decide (r = .left) && decide (2 ≤ e ∧ e ≤ 4)
/-- The swizzles of a role. -/
def TRole.swzOk (r : TRole) (h : Hdr) : Bool :=
  if r = .edges then decide (h.swz = 0) else if h.swz = 3 then decide (r ≠ .reg) else decide (h.swz ≤ 2)

/-- Whether a header that passed steps 2 and 3 of R192 passes step 4 in a role (R188). `kcol` names its K axis. -/
def Hdr.roleOk (h : Hdr) (r : TRole) (kcol : Bool) (f : Word) : Bool :=
  decide (h.efmt ≤ 14 ∧ h.slay ≤ 5 ∧ h.spar ≤ 3 ∧ h.swz ≤ 3 ∧ h.zpf ≤ 2) && !h.resv &&
  decide (1 ≤ h.rows ∧ h.rows ≤ 4096 ∧ 1 ≤ h.cols ∧ h.cols ≤ 4096) &&
  decide (h.group = 0 ∨ h.group = 32 ∨ h.group = 64 ∨ h.group = 128) &&
  (if efQa h.efmt then decide (h.slay = 4 ∧ h.zpf = 0 ∨ h.slay = 5 ∧ (h.zpf = 1 ∨ h.zpf = 2)) else decide (h.zpf = 0)) &&
  r.fmtOk f h && r.slayOk h && r.sparOk f h && r.swzOk h && h.layoutOk kcol

/-- Whether strict mode refuses an operand (R196). -/
def Hdr.strictBad (h : Hdr) : Bool := decide (h.swz ≠ 0) && !h.filled

/-! ### Results (R190-R191) -/

/-- The EFMT of a product. -/
def productEfmt (a b : Nat) : Option Nat :=
  if (a = 3 ∧ b = 3) ∨ (a = 4 ∧ b = 4) ∨ (a = 2 ∧ b = 2) then some 2
  else if (a = 5 ∨ a = 6) ∧ (b = 5 ∨ b = 6) then some 2
  else if a = 1 ∧ b = 1 then some 1
  else if efSmall a ∧ efSmall b then some 7
  else if (efQa a ∧ (b = 3 ∨ b = 4)) ∨ (efQa b ∧ (a = 3 ∨ a = 4)) then some 2
  else none
/-- The formats that TADD, TSCL and TTRN take. -/
def addEfmt (e : Nat) : Bool := decide (e = 1 ∨ e = 2 ∨ e = 3 ∨ e = 4 ∨ e = 7 ∨ e = 8 ∨ e = 9)

/-! ### Bodies of registers -/

/-- The b bits at a bit offset of a body. -/
def Tile.bitsAt (t : Tile) (off b : Nat) : Nat := t.body.toNat / 2 ^ off % 2 ^ b
/-- Element (i, j) of a register. -/
def Tile.elem (t : Tile) (i j : Nat) : Nat := t.bitsAt (t.hdr.bitAt i j) (efBits t.efmt)

/-- Bits written into a body at a bit offset. -/
def putBits (body : BitVec 8192) (off b v : Nat) : BitVec 8192 :=
  let m : BitVec 8192 := BitVec.ofNat 8192 (2 ^ b - 1) <<< off
  (body &&& ~~~m) ||| (BitVec.ofNat 8192 (v % 2 ^ b) <<< off)

/-- The positions of a shape, row by row. -/
def positions (m n : Nat) : List (Nat × Nat) := (List.range m).flatMap (fun i => (List.range n).map (fun j => (i, j)))

/-- A register's contents of given format, swizzle and shape, every element from a function, every other bit zero; dirty. -/
def Tile.build (efmt swz rows cols : Nat) (f : Nat → Nat → Nat) : Tile :=
  let h := Hdr.reg efmt swz rows cols true
  { efmt, swz, rows, cols, state := .dirty,
    body := (positions rows cols).foldl (fun b p => putBits b (h.bitAt p.1 p.2) (efBits efmt) (f p.1 p.2)) 0 }

/-- Set an element. -/
def Tile.setElem (t : Tile) (i j v : Nat) : Tile :=
  { t with body := putBits t.body (t.hdr.bitAt i j) (efBits t.efmt) v, state := .dirty }

/-! ### Accumulation (04 R84-R86, R93) -/

/-- Whether a value is an infinity or a NaN. -/
def FVal.special : FVal → Bool
  | .fin .. => false
  | _ => true

/-- An exact integer as a value. -/
def FVal.ofInt (i : Int) : FVal := .fin (decide (i < 0)) i.natAbs 0

/-- The exact sum of exact values. Infinities of both signs set NV wherever they stand. -/
def exactSum (l : List Exact) : Exact := match l with
  | [] => ⟨.fin false 0 0, 0, false⟩
  | x :: t =>
    let s := t.foldl (fun s y => let z := addE s.val y.val; { z with flags := z.flags ||| s.flags ||| y.flags }) x
    { s with flags := s.flags ||| when (l.any (fun y => decide (y.val = .inf false)) &&
      l.any (fun y => decide (y.val = .inf true))) fNV }

/-- What a K index brings to a block: a product, or exactly +0 where there is none to form (R84-R85), with the bits that this sets. -/
inductive Term where
  | prod (x : Exact)
  | zero (flags : Sticky)
  deriving DecidableEq, Repr

/-- The exact value of a term. -/
def Term.exact : Term → Exact
  | .prod x => x
  | .zero g => ⟨.fin false 0 0, g, false⟩

/-- The term at one K index of two operands (R84-R85): of the values that each of them stores there. None is a structural zero, whose product is
+0, with MS against an infinity or a NaN; several are elements that a sparse index names there together (11 R187). -/
def kProduct (a b : List FVal) : Term :=
  if a.isEmpty ∨ b.isEmpty then .zero (when ((a ++ b).any FVal.special) fMS)
  else .prod (exactSum (a.flatMap (fun x => b.map (mulE x))))

/-- A block of sixteen terms: what K lacks is exact +0 (R85). -/
def padBlock (l : List Term) : List Term := l ++ List.replicate (16 - l.length) (.zero 0)

/-- One level of a pairwise tree on rounded values. -/
def treeLevel (f : Fmt) : List (Nat × Sticky) → List (Nat × Sticky)
  | a :: b :: t => let (r, g) := fadd f .rne false a.1 b.1; (r, g ||| a.2 ||| b.2) :: treeLevel f t
  | l => l

/-- One K-block added to an accumulator of format f; `scale` is the FP16 scale of the group of a QA operand (R85, R93). Under NBV 1 it multiplies each
product, and no exact zero. DESIGN CHOICE (log entry 15): a subnormal scale is no "ME or JE input" that R93 flushes. -/
def addBlock (f : Fmt) (nbv : Nat) (acc : Nat) (scale : Option Nat) (l : List Term) : Nat × Sticky :=
  let scaled (x : Exact) : Exact := match scale with
    | some s => let y := mulE (Fmt.f16.decode s) x.val; { y with flags := y.flags ||| x.flags }
    | none => x
  if nbv = 1 then
    let rounded := (padBlock l).map (fun t => match t with | .prod x => deliver f .rne false (scaled x) | .zero g => (0, g))
    let sum := (treeLevel f (treeLevel f (treeLevel f (treeLevel f rounded)))).headD (0, 0)
    let (r, g) := fadd f .rne false acc sum.1
    (r, g ||| sum.2)
  else
    let s := scaled (exactSum ((padBlock l).map Term.exact))
    roundSum f .rne false (f.decode acc) s.val s.flags

/-- The value of a floating-point input; NBV 1 flushes a subnormal to zero of its sign (R93). -/
def inputVal (f : Fmt) (nbv bits : Nat) : FVal :=
  let x := f.decode bits
  match x with
  | .fin n m _ => if nbv = 1 ∧ m < 2 ^ f.fb then .fin n 0 0 else x
  | _ => x

/-- A list cut into blocks of sixteen; the first argument bounds their number. -/
def blocks {α : Type} : Nat → List α → List (List α)
  | 0, _ => []
  | n + 1, l => if l.isEmpty then [] else l.take 16 :: blocks n (l.drop 16)

end Sys2Proof.Machine
end

