-- ==== Sys2Proof/Machine/Vector.lean ====
section
/-! DEFINITION. What vector instructions share: running them with or without .S (18 R328-R330), lanes under .M (03 R51), and the
trees of reductions and scans (04 R87-R88). -/

namespace Sys2Proof.Machine

/-! ### Stream mode (18 R330, R329) -/

/-- The word at the head of a streamed source. -/
def State.headAt (s : State) (k : Nat) : Opnd → Word
  | .ring h _ => match Table.find? (s.vs k).h h.val with
    | some g => (s.vs k).slotWord g g.c
    | none => 0
  | .port i =>
    if i.val = 0 then ((s.core k).ibNow.head?.map IbUnit.data).getD 0
    else (((s.core k).units i.val).head?.map (fun u => (u.data.setWidth 64 : Word))).getD 0
  | _ => 0

/-- Step 1 of R330: whether a control word heads one of the streamed sources, taken in field order. -/
def State.streamEnds (s : State) (k : Nat) : List Opnd → Res Bool
  | [] => .ok false
  | o :: t => if s.ctlAt k o then (if cwOk (s.headAt k o) then .ok true else fault .stream 0) else s.streamEnds k t

/-- The handle faults of a vector instruction (R329). -/
def State.handleCheck (s : State) (k : Nat) (ops : List Opnd) : Res Unit := match (s.vs k).ringFault ops with
  | some c => fault c 0
  | none => .ok ()

/-- Run a vector instruction whose V sources are `vs`: once, or under .S one element at a time. -/
def State.runVector (s : State) (f : FV) (vs : List Opnd) (body : State → Res State) : Out :=
  let k := s.cur
  let srcs := [f.a, f.b]
  let ops := vs ++ [f.d]
  if f.md.s then
    s.runElement k f.sp f.sp srcs [f.d] (fun s => do
      s.handleCheck k ops
      let st := vs.filter Opnd.streamed
      let s1 := st.foldl (fun s o => s.named k o) s
      let done ← s1.streamEnds k st
      if done then return (s1, true) else return (← body s1, false))
  else s.runSeq k f.sp srcs [f.d] (fun s => do
    s.handleCheck k ops
    body s)

/-! ### Lanes -/

/-- Whether lane i of width w takes part (R51). -/
def State.included (s : State) (k w : Nat) (m : Bool) (i : Nat) : Bool := !m || maskBit ((s.vs k).getY 0) w i

/-- The bits that a list of lane results raises. -/
def allBits (l : List (Nat × Sticky)) : Sticky := l.foldl (fun g p => g ||| p.2) 0

/-- Write lane results of width w, with what they raise (R328, R329). -/
def State.deliverLanes (s : State) (k : Nat) (f : FV) (w : Nat) (l : List (Nat × Sticky)) : Res State := do
  let s1 ← s.vput k f.d w f.md.m (ofLanes w (l.map Prod.fst))
  return s1.raise k (allBits l)

/-- A lane-by-lane instruction of one source. -/
def State.unary (s : State) (f : FV) (g : Nat → Nat × Sticky) : Out :=
  s.runVector f [f.a] (fun s => do
    let k := s.cur
    let w := f.md.ty.width
    let (a, s1) ← s.vsrc k w f.a
    s1.deliverLanes k f w ((lanesOf a w).mapIdx (fun i x => if s.included k w f.md.m i then g x else (0, 0))))

/-- A lane-by-lane instruction of two sources. -/
def State.binary (s : State) (f : FV) (g : Nat → Nat → Nat × Sticky) : Out :=
  s.runVector f [f.a, f.b] (fun s => do
    let k := s.cur
    let w := f.md.ty.width
    let (a, s1) ← s.vsrc k w f.a
    let (b, s2) ← s1.vsrc k w f.b
    s2.deliverLanes k f w (((lanesOf a w).zip (lanesOf b w)).mapIdx (fun i p =>
      if s.included k w f.md.m i then g p.1 p.2 else (0, 0))))

/-- A lane-by-lane instruction that accumulates into D. -/
def State.ternary (s : State) (f : FV) (g : Nat → Nat → Nat → Nat × Sticky) : Out :=
  s.runVector f [f.a, f.b] (fun s => do
    let k := s.cur
    let w := f.md.ty.width
    let (a, s1) ← s.vsrc k w f.a
    let (b, s2) ← s1.vsrc k w f.b
    let (d, s3) ← s2.vsrc k w f.d
    s3.deliverLanes k f w (((lanesOf a w).zip ((lanesOf b w).zip (lanesOf d w))).mapIdx (fun i p =>
      if s.included k w f.md.m i then g p.1 p.2.1 p.2.2 else (0, 0))))

/-- A w-bit lane as signed, or unsigned under .U (R332). -/
def laneInt (u : Bool) (w x : Nat) : Int := if !u ∧ 2 ^ (w - 1) ≤ x then (x : Int) - 2 ^ w else x
/-- Deliver an exact integer: mod 2^w, or clamped under .SAT. -/
def laneOut (sat u : Bool) (w : Nat) (x : Int) : Nat := narrow w (if sat then clampTo (intRange (!u) w) x else x)
/-- Modifier bit 36: .U, .EX or .SX. -/
def xmod0 (m : VMod) : Bool := m.xmod.getLsbD 0

/-! ### Trees (04 R87-R88) -/

/-- A node of a tree: with one operand excluded it passes the other on. -/
def node {α : Type} (op : α → α → α × Sticky) (a b : Option α) : Option α × Sticky := match a, b with
  | some x, some y => let (r, g) := op x y; (some r, g)
  | some x, none => (some x, 0)
  | none, y => (y, 0)

/-- One level of the pairwise tree. -/
def pairLevel {α : Type} (op : α → α → α × Sticky) : List (Option α) → List (Option α) × Sticky
  | a :: b :: t =>
    let (r, g) := node op a b
    let (rest, h) := pairLevel op t
    (r :: rest, g ||| h)
  | l => (l, 0)

/-- The pairwise tree of at most n levels. -/
def pairTree {α : Type} (op : α → α → α × Sticky) : Nat → List (Option α) → Sticky → Option α × Sticky
  | 0, l, g => (l.headD none, g)
  | n + 1, l, g =>
    if l.length ≤ 1 then (l.headD none, g)
    else let (r, h) := pairLevel op l; pairTree op n r (g ||| h)

/-- One level of the tree of R88: the elements that `sel` names take the one `dist` below as their left operand. -/
def scanLevel {α : Type} (op : α → α → α × Sticky) (sel : Nat → Bool) (dist : Nat) (l : List (Option α)) :
    List (Option α) × Sticky :=
  let r := l.mapIdx (fun i x => if sel i then node op (l.getD (i - dist) none) x else (x, (0 : Sticky)))
  (r.map Prod.fst, r.foldl (fun g p => g ||| p.2) 0)

/-- The levels of R88 up the tree, from level d on. -/
def scanUp {α : Type} (op : α → α → α × Sticky) : Nat → Nat → List (Option α) → Sticky → List (Option α) × Sticky
  | 0, _, l, g => (l, g)
  | n + 1, d, l, g =>
    let (r, h) := scanLevel op (fun i => decide ((i + 1) % 2 ^ (d + 1) = 0)) (2 ^ d) l
    scanUp op n (d + 1) r (g ||| h)

/-- The levels of R88 down the tree: d = n - 1 to 0. -/
def scanDown {α : Type} (op : α → α → α × Sticky) : Nat → List (Option α) → Sticky → List (Option α) × Sticky
  | 0, l, g => (l, g)
  | d + 1, l, g =>
    let (r, h) := scanLevel op (fun i => decide ((i + 1) % 2 ^ (d + 1) = 2 ^ d) && decide (2 ^ (d + 1) < i + 1)) (2 ^ d) l
    scanDown op d r (g ||| h)

/-- The inclusive scan of 2^m elements (R88). -/
def brentKung {α : Type} (op : α → α → α × Sticky) (m : Nat) (l : List (Option α)) : List (Option α) × Sticky :=
  let (r, g) := scanUp op m 0 l 0
  scanDown op (m - 1) r g

end Sys2Proof.Machine
end

