-- ==== Sys2Proof/Machine/VectorPerm.lean ====
section
/-! DEFINITION. Group 0xB: conversions, permutations, reductions, scans of lanes, packing, selection (18 R340-R346). -/

namespace Sys2Proof.Machine

/-- One lane converted from a type to another (R340, 04 R82): the integer types are signed. -/
def convertLane (src dst : VTy) (rm : RM) (sat : Bool) (x : Nat) : Nat × Sticky :=
  match Fmt.ofVTy src, Fmt.ofVTy dst with
  | some a, some b => cvtFmt a b rm sat x
  | some a, none => cvtToInt true dst.width rm sat (a.decode x)
  | none, some b => cvtFromInt b rm sat (laneInt false src.width x)
  | none, none => (cvtInt true src.width dst.width sat (laneInt false src.width x), 0)

/-- VCVT. -/
def execVcvt (f : FV) (s : State) : Out :=
  s.runVector f [f.a] (fun s => do
    let k := s.cur
    let w := f.md.ty.width
    let src := f.md.srcTy.getD .i32
    let (a, s1) ← s.vsrc k src.width f.a
    s1.deliverLanes k f w ((List.range (1024 / w)).map (fun i =>
      if i < 1024 / src.width ∧ s.included k w f.md.m i then convertLane src f.md.ty f.md.rm f.md.sat (laneAt a src.width i)
      else (0, 0))))

/-- A permutation: lane i of the result is a lane of A (R341). -/
def permuted (a : Vec) (w : Nat) (g : Nat → Nat) : Vec := ofLanes w ((List.range (1024 / w)).map (fun i => laneAt a w (g i)))

/-- VPERM. -/
def execVperm (f : FV) (s : State) : Out :=
  s.runVector f [f.a, f.b] (fun s => do
    let k := s.cur
    let w := f.md.ty.width
    let (a, s1) ← s.vsrc k w f.a
    let (b, s2) ← s1.vsrc k w f.b
    s2.vput k f.d w f.md.m (permuted a w (fun i => laneAt b w i % (1024 / w))))
/-- VROT. -/
def execVrot (f : FV) (s : State) : Out :=
  s.runVector f [f.a] (fun s => do
    let k := s.cur
    let w := f.md.ty.width
    let (a, s1) ← s.vsrc k w f.a
    let (b, s2) ← s1.src k (s.issued k f.b)
    let n := 1024 / w
    s2.vput k f.d w f.md.m (permuted a w (fun i => (i + (s64 b % n).toNat) % n)))
/-- VBCAST. -/
def execVbcast (f : FV) (s : State) : Out :=
  s.runVector f [f.a] (fun s => do
    let k := s.cur
    let w := f.md.ty.width
    let (a, s1) ← s.vsrc k w f.a
    let (b, s2) ← s1.src k (s.issued k f.b)
    s2.vput k f.d w f.md.m (permuted a w (fun _ => b.toNat % (1024 / w))))

/-- The lanes of a vector that take part. -/
def State.taking (s : State) (k w : Nat) (m : Bool) (a : Vec) : List (Option Nat) :=
  (lanesOf a w).mapIdx (fun i x => if s.included k w m i then some x else none)

/-- What a reduction or a scan delivers of a value of its tree. -/
def laneSettle (ty : VTy) (x : Nat) : Nat × Sticky := match Fmt.ofVTy ty with
  | some t => t.settle x
  | none => (x, 0)

/-- The sum of two lanes (R342). -/
def laneSum (ty : VTy) (rm : RM) (a b : Nat) : Nat × Sticky := match Fmt.ofVTy ty with
  | some t => fadd t rm false a b
  | none => ((a + b) % 2 ^ ty.width, 0)
/-- The identity of a sum: −0 or 0. -/
def sumUnit (ty : VTy) : Nat := match Fmt.ofVTy ty with
  | some t => t.signBit true
  | none => 0
/-- The maximum or minimum of two lanes. -/
def laneMinmax (ty : VTy) (mx u : Bool) (a b : Nat) : Nat × Sticky := match Fmt.ofVTy ty with
  | some t => fminmax t mx a b
  | none =>
    let lt := decide (laneInt u ty.width a < laneInt u ty.width b)
    (if lt = mx then b else a, 0)
/-- The identity of a maximum or minimum. -/
def minmaxUnit (ty : VTy) (mx u : Bool) : Nat := match Fmt.ofVTy ty with
  | some t => t.inf mx
  | none => let r := intRange (!u) ty.width; narrow ty.width (if mx then r.1 else r.2)

/-- A reduction (R342). -/
def State.reduceLanes (s : State) (f : FV) (u : Bool) (op : Nat → Nat → Nat × Sticky) (unit : Nat) : Out :=
  s.runVector f [f.a] (fun s => do
    let k := s.cur
    let w := f.md.ty.width
    let (a, s1) ← s.vsrc k w f.a
    let (r, g) := pairTree op 7 (s.taking k w f.md.m a) 0
    let (v, h) := laneSettle f.md.ty (r.getD unit)
    let out : Word := if (Fmt.ofVTy f.md.ty).isSome then BitVec.ofNat 64 v else w64 (laneInt u w v)
    let s2 ← s1.put k f.d out
    return s2.raise k (g ||| h))

/-- VREDADD. -/
def execVredadd (f : FV) (s : State) : Out := s.reduceLanes f false (laneSum f.md.ty f.md.rm) (sumUnit f.md.ty)
/-- VREDMAX. -/
def execVredmax (f : FV) (s : State) : Out :=
  let u := xmod0 f.md
  s.reduceLanes f u (laneMinmax f.md.ty true u) (minmaxUnit f.md.ty true u)
/-- VREDMIN. -/
def execVredmin (f : FV) (s : State) : Out :=
  let u := xmod0 f.md
  s.reduceLanes f u (laneMinmax f.md.ty false u) (minmaxUnit f.md.ty false u)

/-- The exclusive results of a scan: each included element takes the inclusive result of the nearest included one below, or the
identity (R343). -/
def exclusive {α : Type} (incl : List (Option α)) (prev : α) : List (Option α) := match incl with
  | [] => []
  | none :: t => none :: exclusive t prev
  | some x :: t => some prev :: exclusive t x

/-- VSCANADD. -/
def execVscanadd (f : FV) (s : State) : Out :=
  s.runVector f [f.a] (fun s => do
    let k := s.cur
    let w := f.md.ty.width
    let (a, s1) ← s.vsrc k w f.a
    let x := s.taking k w f.md.m a
    let (r, g) := brentKung (laneSum f.md.ty f.md.rm) (Nat.log2 (1024 / w)) x
    let incl := (x.zip r).map (fun p => if p.1.isSome then p.2 else none)
    let out := (if xmod0 f.md then exclusive incl (sumUnit f.md.ty) else incl).map (fun y => (y.map (laneSettle f.md.ty)).getD (0, 0))
    let s2 ← s1.vput k f.d w f.md.m (ofLanes w (out.map Prod.fst))
    return s2.raise k (g ||| allBits out))

/-- VPACK (R344). -/
def execVpack (f : FV) (s : State) : Out :=
  s.runVector f [f.a, f.b] (fun s => do
    let k := s.cur
    let w := f.md.ty.width
    let (a, s1) ← s.vsrc k w f.a
    let (b, s2) ← s1.vsrc k w f.b
    s2.vput k f.d (w / 2) f.md.m (ofLanes (w / 2) ((lanesOf a w ++ lanesOf b w).map (fun x =>
      laneOut f.md.sat false (w / 2) (laneInt false w x)))))

/-- VUNPK. -/
def execVunpk (f : FV) (s : State) : Out :=
  s.runVector f [f.a] (fun s => do
    let k := s.cur
    let w := f.md.ty.width
    let n := 1024 / (2 * w)
    let (a, s1) ← s.vsrc k w f.a
    s1.vput k f.d (2 * w) f.md.m (ofLanes (2 * w) ((List.range n).map (fun i =>
      narrow (2 * w) (laneInt (xmod0 f.md) w (laneAt a w (if f.md.xmod.getLsbD 1 then i + n else i)))))))

/-- Lanes that a selection spreads over the selected places. -/
def expand (sel : Nat → Bool) : Nat → List Nat → List Nat → List Nat
  | _, _, [] => []
  | i, src, _ :: t => if sel i then src.headD 0 :: expand sel (i + 1) src.tail t else 0 :: expand sel (i + 1) src t

/-- VCMPR (R345). -/
def execVcmpr (f : FV) (s : State) : Out :=
  s.runVector f [f.a] (fun s => do
    let k := s.cur
    let w := f.md.ty.width
    let (a, s1) ← s.vsrc k w f.a
    s1.vput k f.d w false (ofLanes w ((s.taking k w true a).filterMap id)))
/-- VEXPD. -/
def execVexpd (f : FV) (s : State) : Out :=
  s.runVector f [f.a] (fun s => do
    let k := s.cur
    let w := f.md.ty.width
    let (a, s1) ← s.vsrc k w f.a
    s1.vput k f.d w false (ofLanes w (expand (s.included k w true) 0 (lanesOf a w) (lanesOf a w))))

/-- VLANEM (R346). -/
def execVlanem (f : FV) (s : State) : Out :=
  s.runVector f [f.a] (fun s => do
    let k := s.cur
    let w := f.md.ty.width
    let (a, s1) ← s.vsrc k w f.a
    s1.put k f.d (((lanesOf a w).mapIdx (fun i x => if x ≠ 0 then
      (1#64 <<< (if w = 16 then i / 2 else if w = 8 then i / 4 else i)) else 0)).foldl (fun r x => r ||| x) 0))

end Sys2Proof.Machine
end

