-- ==== Sys2Proof/Machine/Engines.lean ====
section
/-! DEFINITION. Group 0xD on the core's side: issuing engine commands and waiting for them, scans, carries (19 R359-R380); the issue
of copy commands shares it (20 R396). -/

namespace Sys2Proof.Machine

/-! ### Issue (19 R360-R361, 20 R396) -/

/-- The next id and the window of jobs, or of copy commands. -/
def Csrs.window (c : Csrs) (copy : Bool) : Word × Word := if copy then (c.cpctr, c.cpwin) else (c.jobctr, c.jobwin)

/-- The state of an id: its nibble where the id is in the window, else 0 (R361). -/
def Csrs.stateOf (c : Csrs) (copy : Bool) (id : Nat) : Nat :=
  let (next, win) := c.window copy
  let back := (fld next 15 0 + 65536 - id % 65536) % 65536
  if 1 ≤ back ∧ back ≤ 16 then nibble win id else 0

/-- The id m takes the state HELD, and the next id follows (R360). -/
def Csrs.held (c : Csrs) (copy : Bool) (m : Nat) : Csrs :=
  if copy then { c with cpwin := setNibble c.cpwin m 1, cpctr := BitVec.ofNat 64 ((m + 1) % 65536) }
  else { c with jobwin := setNibble c.jobwin m 1, jobctr := BitVec.ofNat 64 ((m + 1) % 65536) }

/-- The checks on a descriptor of `size` bytes, with its physical and virtual address. -/
def State.descriptor (s : State) (k size : Nat) (o : Opnd) : Res (Nat × Word × State) := do
  let c := s.cap k o
  liftCap (checkCap c (pR + pG) [c.addr] size)
  faultIf (decide (c.addr.toNat % size ≠ 0)) .align c.addr
  let (pa, s1) ← s.translate k .read c.addr
  return (pa, c.addr, s1)

/-- The id of the next command, once its nibble is free: a HELD one is published, a QUEUED or RUNNING one waited for. -/
def State.takeId (s : State) (k : Nat) (copy : Bool) : Res (Nat × State) := do
  let now (s : State) : Nat × Nat := let (next, win) := (s.vs k).csr.window copy; (fld next 15 0, nibble win (fld next 15 0))
  let s1 ← (if (now s).2 = 1 then s.publishNow k none else .ok s)
  let (id, n) := now s1
  if n = 2 ∨ n = 3 then redo s1 (.window copy id) else return (id, s1)

/-- A command enters the phase buffer; its id is put to D. -/
def State.issue (s : State) (k : Nat) (copy : Bool) (id : Nat) (e : Entry) (d : Opnd) : Res State := do
  let s1 ← s.enter k [e]
  (s1.modVs k (fun r => { r with csr := r.csr.held copy id })).put k d (BitVec.ofNat 64 id)

/-- MJOB and JEDGE. -/
def State.issueJob (s : State) (edge : Bool) (f : FR) : Out :=
  s.runSeq s.cur f.sp [] [f.d] (fun s => do
    let k := s.cur
    let (pa, va, s1) ← s.descriptor k (if edge then 128 else 64) f.a
    let (id, s2) ← s1.takeId k false
    let csr := (s2.vs k).csr
    s2.issue k false id (.job edge pa va id (fld csr.nbv 3 0) false (nibble csr.jobwin id)) f.d)

/-- MJOB. -/
def execMjob (f : FR) (s : State) : Out := s.issueJob false f
/-- JEDGE. -/
def execJedge (f : FR) (s : State) : Out := s.issueJob true f

/-! ### Waiting, polling, cancelling (R368-R369, 20 R401) -/

/-- MWAIT, JWAIT, CWAIT. -/
def State.awaitId (s : State) (copy : Bool) (f : FR) : Out :=
  s.runSeq s.cur f.sp [f.a] [] (fun s => do
    let k := s.cur
    let (w, s1) ← s.waitSrc k f.a
    let id := fld w 15 0
    let s2 ← s1.publishNow k none
    let n := (s2.vs k).csr.stateOf copy id
    if n = 2 ∨ n = 3 then .error (.wait (if copy then .copy id else .job id) s2) else return s2.freshPhase k)

/-- MPOLL, CPOLL. -/
def State.pollId (s : State) (copy : Bool) (f : FR) : Out :=
  s.runSeq s.cur f.sp [f.a] [f.d] (fun s => do
    let k := s.cur
    let (w, s1) ← s.src k f.a
    s1.put k f.d (BitVec.ofNat 64 ((s1.vs k).csr.stateOf copy (fld w 15 0))))

/-- MWAIT. -/
def execMwait (f : FR) (s : State) : Out := s.awaitId false f
/-- JWAIT. -/
def execJwait (f : FR) (s : State) : Out := s.awaitId false f
/-- MPOLL. -/
def execMpoll (f : FR) (s : State) : Out := s.pollId false f

/-- A HELD command of an id is voided in the phase buffer (R369). -/
def voidEntry (id : Nat) : Entry → Entry
  | .job edge pa va i nbv v was => .job edge pa va i nbv (v || decide (i = id)) was
  | e => e

/-- Whether a job is the one that core `k`'s firing names by an id. -/
def State.ownJob (s : State) (k id : Nat) (j : Job) : Bool :=
  decide (j.id = id) && decide (j.ctx = s.ctxOf k) && decide (j.svc = (s.core k).svc) && (j.svc || decide (j.core = k))

/-- A QUEUED job leaves its queue, and its wake is sent (R369). -/
def State.dropJob (s : State) (k id : Nat) : State :=
  s.clusters.foldl (fun s p =>
    let u := s.cluster p.1
    match u.queue.filter (s.ownJob k id) with
    | j :: _ =>
      ((s.setCluster p.1 { u with queue := u.queue.filter (fun x => !s.ownJob k id x) }).setJobWin j.core j.ctx j.svc id 6).cancelWake
        j.core j.ctx j.vcore j.edge id j.desc
    | [] => s) s

/-- A RUNNING job is told to stop at its next K-block or edge-tile boundary (R369). -/
def State.stopJob (s : State) (k id : Nat) : State :=
  let mark (r : Running) : Running := if s.ownJob k id r.job then { r with job := { r.job with cancelled := true } } else r
  { s with clusters := s.clusters.map (fun p => (p.1, { p.2 with me := p.2.me.map mark, je := p.2.je.map (fun r => (r.1, mark r.2)) })) }

/-- MCANCEL: at once, by the state of the id. -/
def execMcancel (f : FR) (s : State) : Out :=
  s.runSeq s.cur f.sp [f.a] [] (fun s => do
    let k := s.cur
    let (w, s1) ← s.src k f.a
    let id := fld w 15 0
    match (s1.vs k).csr.stateOf false id with
    | 1 => return s1.modCore k (fun c => { c with buffer := c.buffer.map (voidEntry id) })
    | 2 => return s1.dropJob k id
    | 3 => return s1.stopJob k id
    | _ => return s1)

/-! ### Scans (R375-R378, 04 R88-R89) -/

/-- The identity of a scan's operation. -/
def scanUnit (op : ScanOp) (ty : VTy) : Nat := match op with
  | .sum => sumUnit ty
  | .max => minmaxUnit ty true false
  | .min => minmaxUnit ty false false
/-- One node of a scan. -/
def scanNode (op : ScanOp) (ty : VTy) : Nat → Nat → Nat × Sticky := match op with
  | .sum => laneSum ty .rne
  | .max => laneMinmax ty true false
  | .min => laneMinmax ty false false

/-- Whether a bit pattern is a signalling NaN of a type; one among the contributions sets NV (R378). -/
def scanNv (ty : VTy) (x : Nat) : Sticky := match Fmt.ofVTy ty with
  | some t => when (t.decode x).isSnan fNV
  | none => 0

/-- One lane of a scan: the result of each element, with the bits raised. -/
def scanLane (op : ScanOp) (ty : VTy) (ex : Bool) (carry : Option Nat) (l : List Nat) : List Nat × Sticky :=
  let (incl, g) := brentKung (scanNode op ty) (Nat.log2 l.length) (l.map some)
  let incl := incl.map (fun x => x.getD 0)
  let base := if ex then incl.dropLast else incl
  let r : List (Nat × Sticky) := match carry with
    | some c => (if ex then [laneSettle ty c] else []) ++ base.map (scanNode op ty c)
    | none => (if ex then [(scanUnit op ty, 0)] else []) ++ base.map (laneSettle ty)
  (r.map Prod.fst, g ||| allBits r ||| l.foldl (fun g x => g ||| scanNv ty x) 0)

/-- Whether every participant issued the same MOD (R376). -/
def ScanSt.agree (t : ScanSt) : Bool := match t.parts with
  | p :: rest => rest.all (fun q => decide (q.ty = p.ty ∧ q.ex = p.ex ∧ q.ci = p.ci ∧ q.sg = p.sg ∧ q.op = p.op ∧ q.wide = p.wide))
  | [] => true

/-- The contribution of an element. -/
def ScanSt.part (t : ScanSt) (e : Nat) : Option Contribution := t.parts.find? (fun p => decide (p.elem = e))

/-- The result of element e of a complete scan, as lanes of its type, with the scan's bits. -/
def ScanSt.result (t : ScanSt) (e : Nat) : Vec × Sticky := match t.part 0 with
  | none => (0, 0)
  | some p0 =>
    let w := p0.ty.width
    let lane (i : Nat) : List Nat × Sticky :=
      scanLane p0.op p0.ty p0.ex (if p0.ci then some (laneAt p0.carry w i) else none)
        ((List.range t.total).map (fun j => laneAt ((t.part j).map Contribution.value |>.getD 0) w i))
    let r := (List.range (if p0.wide then 1024 / w else 1)).map lane
    (ofLanes w (r.map (fun x => x.1.getD e 0)), r.foldl (fun g x => g ||| x.2) 0)

/-- The group whose scans core `k`'s firing joins; the service virtual core belongs to none. -/
def Core.scanGroup (c : Core) : Nat := if c.svc then 2 ^ 32 else c.group

/-- The specifier of the whole group (08 R142). -/
def Core.wholeGroup (c : Core) : BitVec 16 :=
  if c.svc then 0 else BitVec.ofNat 16 (fld c.gshape 2 0 + 8 * fld c.gshape 6 4)

/-- The element that a core is of a subgroup of its group; none outside it. -/
def Core.elementOf (c : Core) (spec : BitVec 16) : Option Nat :=
  let n := spec.toNat
  let w := 2 ^ (n % 8)
  let h := 2 ^ (n / 8 % 8)
  let x := if c.svc then 0 else c.here.vx % 2 ^ fld c.gshape 2 0
  let y := if c.svc then 0 else c.here.vy % 2 ^ fld c.gshape 6 4
  let x0 := n / 64 % 32
  let y0 := n / 2048 % 32
  if x0 ≤ x ∧ x < x0 + w ∧ y0 ≤ y ∧ y < y0 + h then some ((y - y0) * w + (x - x0)) else none

/-- Whether a scan is one that core `k`'s firing joins. -/
def ScanSt.isFor (t : ScanSt) (c : Core) (spec : BitVec 16) : Bool :=
  decide (t.launch = c.sendLaunch.getD 0) && decide (t.group = c.scanGroup) && decide (t.spec = spec)

/-- Whether an element has contributed and not yet taken its result. -/
def ScanSt.owes (t : ScanSt) (e : Nat) : Bool := (t.part e).isSome && decide (e ∉ t.taken)

/-- A contribution joins the scan in progress of its specifier, or starts one; a replayed SCAN finds its contribution there (R378). -/
def joinScan (c : Core) (spec : BitVec 16) (total : Nat) (p : Contribution) (l : List ScanSt) : List ScanSt :=
  if l.any (fun t => t.isFor c spec && t.owes p.elem) then l
  else if l.any (fun t => t.isFor c spec && decide (t.parts.length < t.total)) then
    l.map (fun t => if t.isFor c spec ∧ t.parts.length < t.total then { t with parts := t.parts ++ [p] } else t)
  else l ++ [{ launch := c.sendLaunch.getD 0, group := c.scanGroup, spec, total, parts := [p], taken := [] }]

/-- SCAN and SCANW: the boundary, the contribution, and the wait for SCAN_COMPLETE. -/
def State.runScan (s : State) (f : FSC) (wide : Bool) : Out :=
  s.runSeq s.cur f.sp (if wide then [f.b] else [f.a, f.b]) [f.d] (fun s => do
    let k := s.cur
    let w := f.ty.width
    let again := (s.core k).kept.isSome
    let (value, s1) ← (if again then .ok (0, s) else if wide then s.vsrc k w f.a else do
      let (v, s1) ← s.src k f.a
      return ((v.setWidth 1024 : Vec), s1))
    let (spec, s2) ← (if again || f.sg then do
        let (v, s2) ← s1.waitSrc k (s.issued k f.b)
        return ((v.setWidth 16 : BitVec 16), s2)
      else .ok ((s1.core k).wholeGroup, s1))
    let c := s2.core k
    faultIf (f.sg && !s2.subgroupHere k spec.toNat) .capBounds (spec.setWidth 64)
    match c.elementOf spec with
    | none => fault .capBounds (spec.setWidth 64)
    | some e =>
      let s3 ← s2.publishNow k none
      let p : Contribution :=
        { elem := e, ty := f.ty, ex := f.ex, ci := f.ci, sg := f.sg, op := f.op, wide, value,
          carry := if wide then (match f.d with | .v i => (s.vs k).getV i.val | _ => 0) else (s.vs k).csr.carry.setWidth 1024 }
      let total := 2 ^ (spec.toNat % 8) * 2 ^ (spec.toNat / 8 % 8)
      .error (.wait (.scan spec f.d wide) (s3.modCtx (s3.ctxOf k) (fun x => { x with scans := joinScan c spec total p x.scans }))))

/-- SCAN. -/
def execScan (f : FSC) (s : State) : Out := s.runScan f false
/-- SCANW. -/
def execScanw (f : FSC) (s : State) : Out := s.runScan f true

/-! ### Carries (R379-R380) -/

/-- CARRYS. -/
def execCarrys (f : FR) (s : State) : Out :=
  s.runSeq s.cur f.sp [f.a, f.b] [] (fun s => do
    let k := s.cur
    faultIf (!hasCarry s.features) .illegal 0
    let d := s.ldimOf k
    let inside (t : Word) : Res Unit := faultIf ((s.core k).sendLaunch.isNone || decide (fld d 15 0 ≤ fld t 11 0) ||
      decide (fld d 31 16 ≤ fld t 27 16)) .capBounds t
    let (v, s1) ← before (do inside (← s.src k f.b).1) (s.src k f.a)
    let (t, s2) ← s1.src k (s.issued k f.b)
    inside t
    match (s2.core k).sendLaunch with
    | none => fault .capBounds t
    | some l =>
      s2.enter k [.carry ⟨l, fld t 11 0, fld t 27 16⟩ (BitVec.ofNat 8 (fld t 39 32)) v])

/-- CARRYR: a boundary, and the wait for CARRY_TAKE. -/
def execCarryr (f : FR) (s : State) : Out :=
  s.runSeq s.cur f.sp [f.a] [f.d] (fun s => do
    let k := s.cur
    faultIf (!hasCarry s.features) .illegal 0
    let (t, s1) ← s.waitSrc k f.a
    let s2 ← s1.publishNow k none
    .error (.wait (.carry (t.setWidth 8) f.d) s2))

end Sys2Proof.Machine
end

