-- ==== Sys2Proof/Machine/Casts.lean ====
section
/-! DEFINITION. Casts: the coder and the header (05 R104-R106), and the lazy save of tile registers (11 R198-R201). -/

namespace Sys2Proof

/-- The number of a tile register operand. -/
def Opnd.tnum : Opnd → Nat
  | .v i => i.val
  | _ => 0

end Sys2Proof

namespace Sys2Proof.Machine

/-! ### The coder (R106) -/

/-- How many doublewords at the head of a list equal w, at most n. -/
def runOf (w : Word) : Nat → List Word → Nat
  | 0, _ => 0
  | _, [] => 0
  | n + 1, x :: t => if x = w then 1 + runOf w n t else 0

/-- How many literals a literal token takes: up to n, stopping before a zero doubleword or a pair of equal doublewords. -/
def literals : Nat → List Word → Nat
  | 0, _ => 0
  | _, [] => 0
  | n + 1, x :: t => if x = 0 ∨ t.head? = some x then 0 else 1 + literals n t

/-- Code doublewords greedily; the first argument bounds the number of tokens. -/
def codeWords : Nat → List Word → List Word
  | 0, _ => []
  | _, [] => []
  | f + 1, x :: t =>
    let l := x :: t
    if x = 0 then
      let n := runOf 0 128 l
      BitVec.ofNat 64 (n - 1) :: codeWords f (l.drop n)
    else
      let n := runOf x 64 l
      if 2 ≤ n then BitVec.ofNat 64 (0x80 + n - 1) :: x :: codeWords f (l.drop n)
      else
        let m := max 1 (literals 64 l)
        BitVec.ofNat 64 (0xC0 + m - 1) :: (l.take m ++ codeWords f (l.drop m))

/-- A section's coded doublewords. -/
def codeSection (l : List Word) : List Word := codeWords l.length l

/-- Decode coded doublewords; none where a token is malformed or calls for more than there is. -/
def decodeWords : Nat → List Word → Option (List Word)
  | 0, l => if l.isEmpty then some [] else none
  | _, [] => some []
  | f + 1, x :: t =>
    if fld x 63 8 ≠ 0 then none
    else
      let k := fld x 7 0
      if k < 0x80 then (decodeWords f t).map (fun r => List.replicate (k + 1) 0 ++ r)
      else if k < 0xC0 then match t with
        | w :: t' => (decodeWords f t').map (fun r => List.replicate (k - 0x80 + 1) w ++ r)
        | [] => none
      else if t.length < k - 0xC0 + 1 then none
      else (decodeWords f (t.drop (k - 0xC0 + 1))).map (fun r => t.take (k - 0xC0 + 1) ++ r)

/-- A section from its coded doublewords. -/
def decodeSection (l : List Word) : Option (List Word) := decodeWords l.length l

/-! ### Reading and writing casts in memory -/

/-- Doublewords at a physical address. -/
def State.wordsAt (s : State) (a n : Nat) : List Word := (List.range n).map (fun i => s.word (a + 8 * i))

/-- LENS of section i as the header of a cast holds it. -/
def State.castLen (s : State) (cast i : Nat) : Nat := ofBytes (s.bytes (cast + 32 + 4 * i) 4)
/-- The mark of tiles that are still held (R104). -/
def tilesHeld : Nat := 0xFFFFFFFF
/-- The doublewords a section takes in the cast. -/
def State.castWords (s : State) (cast i : Nat) : Nat := if s.castLen cast i = tilesHeld then 0 else s.castLen cast i
/-- The address of a section: the sections stand one after another behind the header (log entry 10). -/
def State.castAt (s : State) (cast i : Nat) : Nat := cast + 64 + 8 * ((List.range i).map (s.castWords cast)).sum
/-- A section's contents. -/
def State.castSection (s : State) (cast i : Nat) : Option (List Word) :=
  decodeSection (s.wordsAt (s.castAt cast i) (s.castWords cast i))

/-! ### Section 1: tiles -/

/-- The doublewords of a tile register in a cast (R105): header and body. -/
def Tile.words (t : Tile) : List Word :=
  t.hdr.words ++ (List.range 128).map (fun i => (t.body >>> (64 * i)).setWidth 64)
/-- A tile register with what a cast's 132 doublewords hold, configured-clean; none for an unconfigured one. -/
def Tile.ofWords (l : List Word) : Option Tile :=
  let h := Hdr.of (l.take 4)
  if h.efmt = 0 then none
  else some { efmt := h.efmt, swz := h.swz, rows := h.rows, cols := h.cols, state := .clean,
              body := BitVec.ofNat 8192 (slotBits.go (l.drop 4)) }

/-- Which register a tile of section 1 is: its place among the configured registers at the cast, which the cast's TSTATE names
(R105, section 2). -/
def setBits (w : Nat) : List Nat := (List.range 8).filter (fun n => w / 2 ^ n % 2 = 1)

/-- Tiles from a section's doublewords for the registers named. -/
def tilesOf : List Nat → List Word → Table Tile
  | [], _ => []
  | n :: t, l => match Tile.ofWords (l.take 132) with
    | some x => (n, x) :: tilesOf t (l.drop 132)
    | none => tilesOf t (l.drop 132)

/-- The doublewords of section 2 that stand before TSTATE: sixteen handles of two, then the CSRs below 0x031. -/
def tstateIndex : Nat := 32 + 12

/-- The registers whose tiles a cast's section 1 holds: CONF of its TSTATE. -/
def State.castTiles (s : State) (cast : Nat) : List Nat :=
  setBits (((s.castSection cast 2).bind (fun l => l[tstateIndex]?)).map (fun w => fld w 15 8) |>.getD 0)

/-- The contents of section 1 for the registers named: a tile that an error has taken is stored as unconfigured (R201). -/
def tileWords (ns : List Nat) (tiles : Table Tile) : List Word :=
  ns.flatMap (fun n => match Table.find? tiles n with
    | some t => t.words
    | none => List.replicate 132 0)

/-- Write section 1 of a cast in full; the sections after it move up behind it. -/
def State.writeTiles (s : State) (cast : Nat) (tiles : Table Tile) : State :=
  let coded := codeSection (tileWords (s.castTiles cast) tiles)
  let rest := s.wordsAt (s.castAt cast 2) (((List.range 4).map (fun i => s.castWords cast (i + 2))).sum)
  (s.writeWords (s.castAt cast 1) (coded ++ rest)).write (cast + 36) (bytesOf 4 coded.length)

/-- The tiles that a cast's section 1 holds; none while a core still holds them. -/
def State.readTiles (s : State) (cast : Nat) : Table Tile :=
  if s.castLen cast 1 = tilesHeld then [] else
  match s.castSection cast 1 with
  | some l => tilesOf (s.castTiles cast) l
  | none => []

/-! ### The lazy save (R198, R200) -/

/-- The owner of the tile registers that core `k` runs. -/
def Core.owner (c : Core) : Owner := ⟨c.ctx.getD 0, if c.svc then none else some c.here⟩

/-- The owner that core `k`'s group is. -/
def Core.groupOwner (c : Core) : Owner := ⟨c.ctx.getD 0, some c.here⟩

/-- Core `k` writes the tiles it still holds for a switched-out owner into that owner's cast, and holds them no more; those of a DRAINING
context are not written (R201). -/
def State.writeOut (s : State) (k : Nat) : State := match (s.core k).held with
  | some h =>
    (if (s.ctx h.owner.ctx).state = .draining then s else s.writeTiles h.cast h.tiles).modCore k (fun c => { c with held := none })
  | none => s

/-- The core that still holds an owner's tiles. -/
def State.holderOf (s : State) (o : Owner) : Option Nat :=
  (List.find? (fun p => match p.2.held with | some h => decide (h.owner = o) | none => false) s.cores).map Prod.fst

/-- The tiles of core `k`'s group that its registers have not taken up yet, with the core that still holds them: where no core does, they
stand in the cast. -/
def State.farTiles (s : State) (k cast : Nat) : Table Tile × Option Nat := match s.holderOf (s.core k).groupOwner with
  | some j => ((match (s.core j).held with | some h => h.tiles | none => []), some j)
  | none => (s.readTiles cast, none)

/-- Tiles come into core `k`'s registers: the firing that runs finds its own, and the suspended ones that had none of their own yet keep those
of their live masks (R198). -/
def Core.takeTiles (c : Core) (t : Table Tile) : Core :=
  let keep (f : Firing) : Firing :=
    if f.replay.isSome ∨ f.svc then f else { f with resume := f.resume.map (fun r => { r with t := some (f.tiles t) }) }
  { c with lazy := none, vs := { c.vs with t := (c.firing.map (fun f => f.tiles t)).getD t }, matched := c.matched.map keep,
           ready := c.ready.map keep, aborted := c.aborted.map (fun a => { a with firing := keep a.firing }) }

/-- The configured tiles of the owner that core `k` runs, wherever they stand, with whether the core's registers hold them. -/
def State.ownTiles (s : State) (k : Nat) : Table Tile × Bool :=
  let c := s.core k
  match (if c.svc then none else c.lazy) with
  | none => (c.vs.t, true)
  | some cast =>
    let (t, at_) := s.farTiles k cast
    ((c.firing.map (fun f => f.tiles t)).getD t, decide (at_ = some k))

/-- CSR TDIRTY (R199). -/
def State.tdirty (s : State) (k : Nat) : Word :=
  BitVec.ofNat 64 (((s.core k).vs.t.map (fun p => if p.2.state = .dirty then 2 ^ p.1 else 0)).sum)
/-- CSR TSTATE (R199). -/
def State.tstate (s : State) (k : Nat) : Word :=
  let (t, here) := s.ownTiles k
  BitVec.ofNat 64 ((here && !t.isEmpty).toNat + 2 ^ 8 * (t.map (fun p => 2 ^ p.1)).sum)

/-! ### Tile registers of a core -/

/-- The header of tile register n: an unconfigured one reads as 19 R348 says. -/
def VState.thdr (r : VState) (n : Nat) : Hdr := match Table.find? r.t n with
  | some t => t.hdr
  | none => Hdr.none
/-- Set tile register n. -/
def VState.setT (r : VState) (n : Nat) (t : Tile) : VState := { r with t := Table.insert r.t n t }
/-- Unconfigure tile register n. -/
def VState.clearT (r : VState) (n : Nat) : VState := { r with t := Table.erase r.t n }
/-- The data address that names tile register n (11 R192). -/
def tileAddr (n : Nat) : Word := 0xFFFFFFFFFFFFFF00 + BitVec.ofNat 64 n

end Sys2Proof.Machine
end

