-- ==== Sys2Proof/Machine/CastImage.lean ====
section
/-! DEFINITION. Writing the cast of a virtual core and restoring it (05 R104-R106, R463), and the transfer of tile registers before a tile
instruction (11 R200). What the cast's format does not hold of a switched-out virtual core stands in a `Shadow` beside it (log entry 10). -/

namespace Sys2Proof.Machine

/-! ### The pieces of a section (R105) -/

/-- Registers x1-x127 that a live mask names, with the keep registers. -/
def liveXs (mask : Word) : List Nat := ((List.range 128).drop 1).filter (fun n => decide (96 ≤ n) || xLive mask n)
/-- y registers that it names. -/
def liveYs (mask : Word) : List Nat := (List.range 16).filter (yLive mask)
/-- v registers that it names. -/
def liveVs (mask : Word) : List Nat := (List.range 32).filter (vLive mask)

/-- The sixteen doublewords of a vector. -/
def vecWords (v : Vec) : List Word := (List.range 16).map (fun i => (v >>> (64 * i)).setWidth 64)
/-- Tag bits of x registers from n on. -/
def tagWord (x : Table XReg) (n : Nat) : Word :=
  BitVec.ofNat 64 (((List.range 64).map (fun i => (Table.get XReg.zero x (n + i)).tag.toNat * 2 ^ i)).sum)

/-- Section 0. -/
def section0 (mask : Word) (x : Table XReg) (y : Table Word) (v : Table Vec) : List Word :=
  (liveXs mask).flatMap (fun n => [(Table.get XReg.zero x n).addr, (Table.get XReg.zero x n).hi]) ++ [tagWord x 0, tagWord x 64] ++
  (liveYs mask).map (Table.get 0 y) ++ (liveVs mask).flatMap (fun n => vecWords (Table.get 0 v n))

/-- A table from values for the keys listed. -/
def tableOf {α : Type} [DecidableEq α] (d : α) (l : List (Nat × α)) : Table α := l.foldl (fun t p => Table.set d t p.1 p.2) []

/-- x, y and v registers from section 0. -/
def ofSection0 (mask : Word) (l : List Word) : Table XReg × Table Word × Table Vec :=
  let xs := liveXs mask
  let n := 2 * xs.length
  let tag (i : Nat) : Bool := fbit (l.getD (n + i / 64) 0) (i % 64)
  let ys := liveYs mask
  (tableOf XReg.zero (xs.zipIdx.map (fun p => (p.1, XReg.ofWords (l.getD (2 * p.2) 0) (l.getD (2 * p.2 + 1) 0) (tag p.1)))),
   tableOf 0 (ys.zipIdx.map (fun p => (p.1, l.getD (n + 2 + p.2) 0))),
   tableOf 0 ((liveVs mask).zipIdx.map (fun p => (p.1, vecOfWords ((l.drop (n + 2 + ys.length + 16 * p.2)).take 16)))))

/-- The doublewords of a handle; a handle that CBINIT has not set gives zeros. DESIGN CHOICE (log entry 10): R105 gives each handle two doublewords
and no layout for them. -/
def ringWords (h : Option Ring) : List Word := match h with
  | some g => [BitVec.ofNat 64 (g.base + g.n * 2 ^ 18 + g.lsz * 2 ^ 27), BitVec.ofNat 64 (g.p.toNat + g.c.toNat * 2 ^ 32)]
  | none => [0, 0]
/-- A handle from its doublewords. -/
def ringOf (a b : Word) : Option Ring :=
  if fld a 26 18 = 0 then none
  else
    let p := BitVec.ofNat 32 (fld b 31 0)
    let c := BitVec.ofNat 32 (fld b 63 32)
    some { base := fld a 17 0, n := fld a 26 18, lsz := fld a 29 27, p, c, p0 := p, c0 := c }

/-- The CSRs of section 2 (20 R389). -/
def Csrs.saved (c : Csrs) (tdirty tstate : Word) : List Word :=
  [c.fstat, c.nbv, c.lshash, c.lsstat, c.lsbad, c.qctlh, c.alarm, c.tvec, c.epcl, c.epch, c.estat, tdirty, tstate, c.chstat, c.chfuel,
   c.carry, c.scanst, c.jobctr, c.jobwin, c.cpctr, c.cpwin] ++ (List.range 8).map (Table.get 0 c.brka)
/-- The CSRs from section 2's doublewords after the handles. -/
def Csrs.ofSaved (l : List Word) : Csrs :=
  let w (i : Nat) : Word := l.getD i 0
  { fstat := w 0, nbv := w 1, lshash := w 2, lsstat := w 3, lsbad := w 4, qctlh := w 5, alarm := w 6, tvec := w 7, epcl := w 8,
    epch := w 9, estat := w 10, chstat := w 13, chfuel := w 14, carry := w 15, scanst := w 16, jobctr := w 17, jobwin := w 18,
    cpctr := w 19, cpwin := w 20, brka := tableOf 0 ((List.range 8).map (fun i => (i, w (21 + i)))) }

/-- The doublewords of section 2. -/
def section2Len : Nat := 32 + 21 + 8

/-- A join counter's doubleword (10 R172). -/
def Join.word (j : Join) : Word :=
  BitVec.ofNat 64 (j.count.toNat + (match j.state with | .idle => 0 | .armed => 1 | .fired => 2) * 2 ^ 24 +
    (match j.scope with | .die => 0 | .pkg => 1 | .sys => 2) * 2 ^ 26 + j.poison.toNat * 2 ^ 28 + j.exceeded.toNat * 2 ^ 29 +
    j.actor.toNat * 2 ^ 30 + j.khidx.toNat * 2 ^ 42)
/-- A join counter from its doubleword. The coordinate of its last decrement, its reservation and whether an actor was bound are not in it:
they come from the shadow, as does a poisoning since the cast was written (10 R176). Without one, a counter counts as bound unless its
fields name actor 0 of handle 0 (log entry 10). -/
def Join.ofWord (w : Word) (old : Option Join) : Join :=
  let o := old.getD Join.idle
  let st : JState := match fld w 25 24 with | 1 => .armed | 2 => .fired | _ => .idle
  let hit := decide (st = .armed) && decide (o.state = .fired) && o.poison
  { count := BitVec.ofNat 24 (fld w 23 0), state := if hit then .fired else st,
    scope := (match fld w 27 26 with | 1 => .pkg | 2 => .sys | _ => .die), poison := hit || fbit w 28, exceeded := fbit w 29,
    actor := BitVec.ofNat 12 (fld w 41 30), khidx := BitVec.ofNat 12 (fld w 53 42), last := o.last, taken := false,
    bound := (old.map Join.bound).getD (decide (fld w 53 30 ≠ 0)) }

/-- RQ0 and RQ1 of a firing in the ready queue (R463). -/
def Firing.entry (f : Firing) : List Word :=
  let place := f.cls % 4 * 2 ^ 44 + f.passes % 64 * 2 ^ 46
  match f.code with
  | .actor b => [BitVec.ofNat 64 (b.kernel % 2 ^ 32 + b.actor % 4096 * 2 ^ 32 + place), 0]
  | .handle r => [BitVec.ofNat 64 (r.index % 4096 * 2 ^ 32 + place + 2 ^ 52), 0]
  | .light b cw => [BitVec.ofNat 64 (b.kernel % 2 ^ 32 + b.actor % 4096 * 2 ^ 32 + place + 2 ^ 53), cw]

/-- Section 4: the inbox and the ready queue. -/
def section4 (ctx coord : Nat) (dst : VCore) (inbox : List InMsg) (ready : List Firing) : List Word :=
  BitVec.ofNat 64 inbox.length :: (inbox.flatMap (fun m =>
    layWords ctx { dst, target := coord, src := m.msg.sender, body := .msg m.msg, bound := m.bound })) ++
  BitVec.ofNat 64 ready.length :: ready.flatMap Firing.entry

/-- The parts of n doublewords of a list. -/
def chunks (n : Nat) : Nat → List Word → List (List Word)
  | 0, _ => []
  | m + 1, l => l.take n :: chunks n m (l.drop n)

/-- A message of an inbox from its 32 doublewords; one of a kind that takes no inbox slot counts as a handler message. A FIRE's names an entry
of the handle table as that now stands. -/
def Ctx.inboxMsg (x : Ctx) (ctx id : Nat) (l : List Word) : InMsg :=
  let w (i : Nat) : Word := l.getD i 0
  let tags := fld (w 0) 63 56
  let kind := (MKind.ofCode (fld (w 0) 47 44)).getD .handler
  let hidx := fld (w 0) 43 32
  let e := x.handle hidx
  let regs := (List.range 8).map (fun i => XReg.ofWords (w (2 + i)) (w (10 + i)) (tags.testBit i))
  { id, reserved := false,
    bound := if fbit (w 18) 63 then some ⟨fld (w 18) 31 0, fld (w 18) 43 32⟩ else none,
    msg := { kind, hidx, regs, sender := BitVec.ofNat 31 (fld (w 1) 30 0), ctx, launch := fld (w 1) 63 32, born := 0,
             href := if kind = .fire then some ⟨hidx, e.gen, e.check⟩ else none } }

/-- Whether section 4's counts agree with its length. -/
def section4Ok (l : List Word) : Bool :=
  let n := (l.getD 0 0).toNat
  decide (l.length = 2 + 32 * n + 2 * (l.getD (1 + 32 * n) 0).toNat)

/-- Regions of the local store that LSDIRTY names. -/
def dirtyRegions (d : BitVec 64) : List Nat := (List.range 64).filter (fun i => fbit d i)

/-- Section 5. -/
def VState.section5 (r : VState) : List Word :=
  (dirtyRegions r.lsdirty).flatMap (fun g => (List.range 512).map (fun i => BitVec.ofNat 64 (r.lsNat (4096 * g + 8 * i) 8)))

/-- The local store from section 5. -/
def lsOf (d : BitVec 64) (l : List Word) : Table Byte :=
  (dirtyRegions d).zipIdx.flatMap (fun p => (List.range 4096).filterMap (fun i =>
    let b : Byte := ((l.getD (512 * p.2 + i / 8) 0) >>> (8 * (i % 8))).setWidth 8
    if b = 0 then none else some (4096 * p.1 + i, b)))

/-! ### Writing (R104-R105, 11 R198, R200) -/

/-- The firing whose safe point the cast is taken at: the one that was suspended last. -/
def newest (ready : List Firing) : Option Firing := ready.reverse.find? (fun f => f.resume.isSome && f.replay.isNone && !f.svc)

/-- The tiles that the cast of core `k`'s group is to hold, and the core that goes on holding them: this one, or another whose tiles this core
has not taken up; none where they stand in the old cast, and are written out. -/
def State.tilesToSave (s : State) (k : Nat) (live : Option Resume) : Table Tile × Option Nat :=
  let c := s.core k
  let keep (t : Table Tile) : Table Tile := match live with
    | some r => r.t.getD (t.filter (fun p => tLive r.mask p.1))
    | none => t
  match c.lazy with
  | none => (keep c.home.t, some k)
  | some cast =>
    let (t, at_) := s.farTiles k cast
    (keep t, at_)

/-- The registers of a set of tiles as a number with a bit for each. -/
def tileBits (t : Table Tile) : Nat := (t.map (fun p => 2 ^ p.1)).sum

/-- The image of a cast: its header and its coded sections, of a virtual core of context `ctx` on a core, at the safe point `live` or at a
boundary, with its tiles and its section 4. -/
def castImage (ctx coord : Nat) (live : Option Resume) (r : VState) (t : Table Tile) (held : Bool) (sec4 : List Word) : List Word :=
  let mask := match live with | some r => r.mask | none => 0xFFFFFFFFFFFFFFFF
  let x := (match live with | some r => r.x | none => []) ++ keepOf r.x
  let y := match live with | some r => r.y | none => []
  let v := match live with | some r => r.v | none => r.v
  let dirty := tileBits (t.filter (fun p => decide (p.2.state = .dirty)))
  let secs : List (List Word) :=
    [section0 mask x y v, if held then [] else tileWords (t.map Prod.fst) t,
     (List.range 16).flatMap (fun i => ringWords (Table.find? r.h i)) ++
       r.csr.saved (BitVec.ofNat 64 dirty) (BitVec.ofNat 64 (held.toNat + 2 ^ 8 * tileBits t)),
     (List.range 64).map (fun j => (Table.get Join.idle r.joins j).word), sec4, r.section5].map codeSection
  let lens := secs.mapIdx (fun i l => if i = 1 ∧ held then tilesHeld else l.length)
  let len (i : Nat) : Nat := lens.getD i 0
  [BitVec.ofNat 64 (0xCA57 + 2 ^ 16 + ctx % 256 * 2 ^ 24 + coord * 2 ^ 32 + live.isSome.toNat * 2 ^ 63), mask,
   r.lsdirty, (live.map Resume.pc).getD 0, BitVec.ofNat 64 (len 0 + len 1 * 2 ^ 32), BitVec.ofNat 64 (len 2 + len 3 * 2 ^ 32),
   BitVec.ofNat 64 (len 4 + len 5 * 2 ^ 32), 0] ++ secs.flatten

/-- Write the cast of core `k`'s group, no firing of which runs, at a physical address. Its tiles are lazily saved from then on. -/
def State.writeCast (s : State) (k cast : Nat) : State :=
  let c := s.core k
  let live := if c.preempt.any Preempt.safe then (newest c.ready).bind Firing.resume else none
  let (t, at_) := s.tilesToSave k live
  let s1 := s.writeWords cast (castImage (s.ctxOf k) (s.coord k).toNat live c.home t (at_.isSome && !t.isEmpty)
    (section4 (s.ctxOf k) (s.coord k).toNat c.here c.inbox (c.ready.filter (fun f => !f.svc))))
  (match at_ with
  | some j => s1.modCore j (fun d =>
      { d with held := if t.isEmpty then d.held.filter (fun h => decide (h.owner ≠ c.groupOwner)) else some { owner := c.groupOwner, tiles := t, cast } })
  | none => s1).modCore k (fun d => { d.setHome { d.home with t := [] } with lazy := some cast })

/-- What the cast lacks of core `k`. -/
def Core.shadow (c : Core) : Shadow :=
  let own (l : List Firing) : List Firing := l.filter (fun f => !f.svc)
  { ready := own c.ready, replays := [], matched := own c.matched, aborted := c.aborted.filter (fun a => !a.firing.svc), inbox := c.inbox,
    nextMsg := c.nextMsg, ports := c.ports.filter (fun p => decide (p.1 ≤ 4)), ib := c.ib, mailbox := c.mailbox, joins := c.vs.joins }

/-! ### Restoring (R106, R145, R463) -/

/-- What units of inputs are reserved is what the firings of a core hold. Actors' MATCHED firings match again (R463); the messages of FIRE and
the control words of light handlers, which nothing matches, keep their place. -/
def Core.rematch (c : Core) : Core :=
  let c1 : Core := { c with matched := c.matched.filter (fun f => match f.code with | .actor _ => false | _ => true) }
  let used := c1.holders.flatMap Firing.inputs
  { c1 with
    inbox := c1.inbox.map (fun m => { m with reserved := decide (Input.msg m.id ∈ used) }),
    vs := { c1.vs with joins := c1.vs.joins.map (fun j => (j.1, { j.2 with taken := decide (Input.join j.1 ∈ used) })) } }

/-- A core with what the shadow of its virtual core keeps. -/
def Core.withShadow (c : Core) (h : Shadow) : Core :=
  { c with ready := h.ready ++ h.replays, matched := h.matched, aborted := h.aborted, inbox := h.inbox, nextMsg := h.nextMsg, ports := h.ports, ib := h.ib,
           mailbox := h.mailbox }

/-- A firing from its entry of section 4 enters the ready queue of core `k`, the oldest units of its actor's inputs reserved for it; an actor
whose inputs are not met there is an entry firing's (log entry 10). -/
def State.readEntry (s : State) (k : Nat) (c : Core) (q : List Word) : Core :=
  let x := s.ctx (s.ctxOf k)
  let w := q.getD 0 0
  let b : Binding := ⟨fld w 31 0, fld w 43 32⟩
  let arg := s.argCap c.launch
  let new (code : Code) (regs : List XReg) (ins : List Input) (refs : List HRef) : Firing :=
    { Firing.new code (fld w 45 44) c.launch false regs ins refs with passes := fld w 51 46 }
  let push (c : Core) (f : Firing) : Core := { c with ready := c.ready ++ [f] }
  if fbit w 52 then match c.inbox.find? (fun m => decide (m.msg.kind = .fire) && !m.reserved) with
    | some m =>
      let r := m.msg.href.getD ⟨b.actor, 0, 0⟩
      push (c.reserve [.msg m.id]) (new (.handle r) (m.msg.regs ++ [XReg.plain (m.msg.sender.setWidth 64), arg]) [.msg m.id] [r])
    | none => c
  else if fbit w 53 then
    push c (new (.light b (q.getD 1 0)) (XReg.plain (q.getD 1 0) :: List.replicate 7 XReg.zero ++ [XReg.plain (s.coordW k), arg]) [] [])
  else
    let kn := x.kernel b.kernel
    let units := match (kn.actor? b.actor).map Actor.inputs with
      | some (i :: t) => (c.unitsAll b (kn.funcs.getD 0 0) (i :: t)).getD []
      | _ => []
    push (c.reserve units) (new (.actor b) (if units.isEmpty then List.replicate 9 XReg.zero ++ [arg] else c.startRegs (s.coordW k) arg units) units [])

/-- A core with the inbox and the ready queue that section 4 gives. -/
def State.readSection4 (s : State) (k : Nat) (c : Core) (l : List Word) : Core :=
  let n := (l.getD 0 0).toNat
  let msgs := (chunks 32 n (l.drop 1)).mapIdx (fun i w => (s.ctx (s.ctxOf k)).inboxMsg (s.ctxOf k) i w)
  (chunks 2 (l.getD (1 + 32 * n) 0).toNat (l.drop (2 + 32 * n))).foldl (fun c q => s.readEntry k c q) { c with inbox := msgs, nextMsg := n }

/-- The code that a suspended firing runs, for its PCC. -/
def State.pccOf (s : State) (k : Nat) (f : Firing) : XReg := ((s.entryOf (s.ctxOf k) f.code true).map Prod.snd).getD XReg.zero

/-- A suspended firing with what a cast holds for it; of the rest, what its shadow had. -/
def State.resumed (s : State) (k : Nat) (mask pc : Word) (x : Table XReg) (y : Table Word) (v : Table Vec) (r : VState) (f : Firing) : Firing :=
  let xs := x.filter (fun p => decide (p.1 < 96))
  { f with resume := some (match f.resume with
    | some o => { o with x := xs, y, v, t := none, pc, mask }
    | none => { x := xs, y, v, t := none, epcl := r.csr.epcl, epch := r.csr.epch, estat := r.csr.estat, pc, pcc := s.pccOf k f, stream := .port 0,
                mask, kept := none, ticket := none }),
           started := true }

/-- Change the firing that a cast taken at a safe point resumes: the one that was suspended last, which stands last in the queue. -/
def patchLast (g : Firing → Firing) (l : List Firing) : List Firing :=
  let i := (l.reverse.findIdx? (fun f => f.resume.isSome && f.replay.isNone)).getD 0
  (l.reverse.modify i g).reverse

/-- Core `k` with the virtual core that a cast holds; none where a section is malformed (R106). The shadow gives what the format lacks,
where section 4 still is the one that was written with it. -/
def State.readCast (s : State) (k cast : Nat) (h : Option Shadow) : Option Core :=
  let mask := s.word (cast + 8)
  let dirty := s.word (cast + 16)
  let c := s.core k
  match s.castSection cast 0, s.castSection cast 1, s.castSection cast 2, s.castSection cast 3, s.castSection cast 4,
      s.castSection cast 5 with
  | some s0, some s1, some s2, some s3, some s4, some s5 =>
    if s0.length = 2 * (liveXs mask).length + 2 + (liveYs mask).length + 16 * (liveVs mask).length ∧
       (s.castLen cast 1 = tilesHeld ∨ s1.length = 132 * (s.castTiles cast).length) ∧ s2.length = section2Len ∧ s3.length = 64 ∧
       section4Ok s4 ∧ s5.length = 512 * (dirtyRegions dirty).length then
      let (x, y, v) := ofSection0 mask s0
      let hs := (List.range 16).filterMap (fun i => (ringOf (s2.getD (2 * i) 0) (s2.getD (2 * i + 1) 0)).map (fun g => (i, g)))
      let joins := tableOf Join.idle (s3.zipIdx.map (fun p => (p.2, Join.ofWord p.1 (h.map (fun o => Table.get Join.idle o.joins p.2)))))
      let vs : VState := { VState.fresh with
          x := x.filter (fun p => decide (96 ≤ p.1)), v, h := hs, joins, csr := Csrs.ofSaved (s2.drop 32), ls := lsOf dirty s5,
          lsdirty := dirty }
      let c1 : Core := { c with vs, lazy := some cast }
      let c2 := match h with
        | some o =>
          if section4 (s.ctxOf k) (fld (s.word cast) 62 32) c.here o.inbox o.ready = s4 then (c1.withShadow o).rematch
          else s.readSection4 k c1 s4
        | none => s.readSection4 k c1 s4
      some (if fbit (s.word cast) 63 then { c2 with ready := patchLast (s.resumed k mask (s.word (cast + 24)) x y v vs) c2.ready } else c2)
    else none
  | _, _, _, _, _, _ => none

/-! ### The place of a cast (08 R144) -/

/-- The bytes of a cast area (08 R144). -/
def castArea : Nat := 0x60000

/-- The physical address of the cast of the virtual core that core `k` runs, where its launch's casts have their place. -/
def State.castOf (s : State) (k : Nat) : Option Nat :=
  let c := s.core k
  match c.launch.bind (fun l => Table.find? s.launches l) with
  | none => none
  | some x =>
    let r := x.group c.group
    x.cast.map (fun a => a + (c.group * 2 ^ (x.lgw + x.lgh) + (coreY k - r.oy) * 2 ^ x.lgw + (coreX k - r.ox)) * castArea)

/-- Whether bytes [a, a + n) of a context's cast region hold no live launch's casts, nor the service virtual core's. -/
def State.castFree (s : State) (ctx a n : Nat) : Bool :=
  s.launches.all (fun p => !(decide (p.2.ctx = ctx) && p.2.live) || (match p.2.cast with
    | some b => decide (a + n ≤ b) || decide (b + p.2.w * p.2.h * castArea ≤ a)
    | none => true)) &&
  (match (s.ctx ctx).svcCast with
    | some b => decide (a + n ≤ b) || decide (b + castArea ≤ a)
    | none => true)

/-- The first free place for n bytes in a context's cast region. -/
def State.castRoom (s : State) (ctx n : Nat) : Option Nat := match s.vaToPa ctx .write (s.ctx ctx).castBase with
  | none => none
  | some base =>
    let ends := s.launches.filterMap (fun p => if p.2.ctx = ctx ∧ p.2.live then p.2.cast.map (· + p.2.w * p.2.h * castArea) else none) ++
      ((s.ctx ctx).svcCast.map (· + castArea)).toList
    (base :: ends).find? (fun a => s.castFree ctx a n && decide (a + n ≤ base + 2 ^ (s.ctx ctx).castLog))

/-- The service virtual core of a context is saved "in a cast of its own, as the state of a group's virtual core is" (05 R462), by core `k`,
where the cast is behind and none of its firings runs: at a boundary, its tiles in full (log entry 10). Its place is the first free one. -/
def State.saveService (s : State) (k ctx : Nat) : State :=
  let x := s.ctx ctx
  if !x.svcDirty ∨ (s.serviceAt ctx).isSome then s
  else match (match x.svcCast with | some a => some a | none => s.castRoom ctx castArea) with
    | none => s
    | some a =>
      let t := x.service.t.map (fun p => (p.1, { p.2 with state := TileState.clean }))
      (s.writeWords a (castImage ctx (s.coord k).toNat none x.service x.service.t false (section4 ctx (s.coord k).toNat ⟨noLaunch, 0, 0⟩ [] []))).modCtx
        ctx (fun x => { x with svcCast := some a, svcDirty := false, service := { x.service with t } })

/-! ### Before a tile instruction (11 R200) -/

/-- The tiles of core `k`'s group come into its registers, after their holder's write-out; an owner that returns to its holder finds them in
place, dirty (11 R198). -/
def State.loadTiles (s : State) (k : Nat) : State := match (s.core k).lazy with
  | none => s
  | some cast =>
    let (t, at_) := s.farTiles k cast
    match at_ with
    | some j =>
      if j = k then s.modCore k (fun c => { c.takeTiles (t.map (fun p => (p.1, { p.2 with state := .dirty }))) with held := none })
      else
        let s1 := s.writeOut j
        s1.modCore k (fun c => c.takeTiles (s1.readTiles cast))
    | none => s.modCore k (fun c => c.takeTiles t)

/-- Before a tile instruction: what the core holds for another owner is written out, and the tiles of the owner that runs are brought into the
registers. Those of the group give way to the service virtual core's, which come with its state (log entry 10). -/
def State.bringTiles (s : State) (k : Nat) : State :=
  let c := s.core k
  let s1 := if c.held.any (fun h => decide (h.owner ≠ c.owner)) then s.writeOut k else s
  if !c.svc then s1.loadTiles k
  else if c.lazy.isSome ∨ c.home.t.isEmpty then s1
  else match s1.castOf k with
    | some cast => (s1.writeCast k cast).writeOut k
    | none => s1

/-- Before a suspended firing that keeps tiles of its own goes on, those of its group come into the registers (log entry 10). -/
def State.readyTiles (s : State) (k : Nat) (f : Firing) : State :=
  if f.svc ∨ (f.resume.bind Resume.t).isNone then s else s.loadTiles k

end Sys2Proof.Machine
end

