-- ==== Sys2Proof/Machine/Groups.lean ====
section
/-! DEFINITION. Groups: their cores, bind records and what dispatch does on them, casts at an unbind, rotation, quiescence
(07 R136, 08 R140-R153). Where a group is placed is the Plinth's policy: the operands of BIND. -/

namespace Sys2Proof.Machine

/-! ### Cores and records of a group (R136, R144) -/

/-- The package and die of a die of this package, numbered across packages. -/
def State.globalDie (s : State) (d : Nat) : Nat := s.pkg.toNat * 8 + d % 8

/-- The virtual cores of group g of launch l with their offsets within the group, row by row. -/
def Launch.vcores (x : Launch) (l g : Nat) : List (Nat × Nat × VCore) :=
  let w := 2 ^ x.lgw
  let h := 2 ^ x.lgh
  let per := x.w / w
  (List.range h).flatMap (fun j => (List.range w).map (fun i => (i, j, ⟨l, g % per * w + i, g / per * h + j⟩)))

/-- The number of groups, G (R140). -/
def Launch.count (x : Launch) : Nat := x.w / 2 ^ x.lgw * (x.h / 2 ^ x.lgh)

/-- The core keys of a group bound on this package. -/
def Launch.cores (x : Launch) (l g : Nat) : List Nat :=
  let r := x.group g
  (x.vcores l g).map (fun p => coreKey (r.die % 8) (r.ox + p.1) (r.oy + p.2.1))

/-- Whether a group stands on this package's cores. -/
def State.isLocal (s : State) (r : Group) : Bool := decide (r.die / 8 = s.pkg.toNat)

/-- A launch by its number. -/
def State.launch? (s : State) (l : Nat) : Option Launch := Table.find? s.launches l

/-- Change a launch. -/
def State.modLaunch (s : State) (l : Nat) (f : Launch → Launch) : State := match s.launch? l with
  | some x => s.setLaunch l (f x)
  | none => s

/-- A bind record for a group (R144). -/
def Launch.record (x : Launch) (l g ox oy op cast : Nat) : Bind :=
  { b0 := BitVec.ofNat 64 (l % 2 ^ 32 + g % 2 ^ 24 * 2 ^ 32 + x.ctx % 256 * 2 ^ 56),
    b1 := BitVec.ofNat 64 (ox % 32 + oy % 32 * 2 ^ 5 + x.lgw % 8 * 2 ^ 10 + x.lgh % 8 * 2 ^ 13 + x.prio % 4 * 2 ^ 16 + op % 4 * 2 ^ 18 +
      x.quantum % 2 ^ 32 * 2 ^ 32),
    b2 := BitVec.ofNat 64 (cast + g * 2 ^ (x.lgw + x.lgh) * castArea), b3 := x.start }

/-- OP of a record. -/
def Bind.op (b : Bind) : Nat := fld b.b1 19 18
/-- A record with another OP. -/
def Bind.setOp (b : Bind) (op : Nat) : Bind := { b with b1 := (b.b1 &&& ~~~(3#64 <<< 18)) ||| (BitVec.ofNat 64 (op % 4) <<< 18) }
/-- An empty record. -/
def Bind.empty : Bind := ⟨0, 0, 0, 0⟩

/-- Bind record n of die d. -/
def State.bindAt (s : State) (d n : Nat) : Bind := Table.get Bind.empty (s.die d).binds n
/-- Write a bind record. -/
def State.setBind (s : State) (d n : Nat) (b : Bind) : State :=
  s.setDie d { s.die d with binds := Table.set Bind.empty (s.die d).binds n b }

/-- The rectangle of a record: origin and sides. -/
def Bind.rect (b : Bind) : Nat × Nat × Nat × Nat := (fld b.b1 4 0, fld b.b1 9 5, 2 ^ fld b.b1 12 10, 2 ^ fld b.b1 15 13)

/-- Whether two rectangles overlap. -/
def overlaps (a b : Nat × Nat × Nat × Nat) : Bool :=
  decide (a.1 < b.1 + b.2.2.1) && decide (b.1 < a.1 + a.2.2.1) && decide (a.2.1 < b.2.1 + b.2.2.2) && decide (b.2.1 < a.2.1 + a.2.2.2)

/-! ### The place of a launch's casts (R144, 06 R119) -/

/-- The physical address of a launch's casts: where they stand, or the first free place of the context's cast region. -/
def State.castPlace (s : State) (x : Launch) : Option Nat := match x.cast with
  | some a => some a
  | none => s.castRoom x.ctx (x.w * x.h * castArea)

/-! ### BIND (R145-R146) -/

/-- A core as a bind sets it: what is a core's own stays, the coordinate CSRs come from the record. -/
def Core.bound (c : Core) (x : Launch) (l g : Nat) (v : VCore) (mode : Word) : Core :=
  { Core.fresh with
    tlb := c.tlb, held := c.held, waymarks := c.waymarks, ctx := some x.ctx, launch := some l, group := g,
    ldim := BitVec.ofNat 64 (x.w + x.h * 2 ^ 16), gshape := BitVec.ofNat 64 (x.lgw + x.lgh * 2 ^ 4),
    gindex := BitVec.ofNat 64 (g + x.count * 2 ^ 32), quantum := BitVec.ofNat 64 x.quantum,
    gcoord := BitVec.ofNat 64 (v.vx + v.vy * 2 ^ 16), mode }

/-- The state of a virtual core at its group's first bind (R146). -/
def Launch.firstState (x : Launch) : VState :=
  { VState.fresh with x := [(126, capFor x.argVa.toNat x.argLen (pR + pW + pG)), (127, messageCap)] }

/-- The virtual core at its first bind: its entry firing is ready. -/
def State.firstBind (s : State) (k l : Nat) (x : Launch) : State :=
  (s.modCore k (fun c => { c with vs := x.firstState })).modCore k (fun c =>
    c.enqueue (Firing.new (.actor ⟨x.kernel, x.entry⟩) x.prio (some l) false (List.replicate 9 XReg.zero ++ [s.argCap (some l)]) [] []))

/-- The JEDGEs that were saved with a virtual core go on at core `k` (19 R374). -/
def State.restoreEdges (s : State) (k : Nat) (v : VCore) (ctx : Nat) : State :=
  let mine := (s.ctx ctx).edges.filter (fun e => decide (e.job.vcore = v))
  let s1 := s.modCtx ctx (fun x => { x with edges := x.edges.filter (fun e => decide (e.job.vcore ≠ v)) })
  let u := s1.cluster (clusterOf k)
  let back (j : Job) : Job := { j with core := k }
  s1.setCluster (clusterOf k)
    { u with queue := u.queue ++ mine.map (fun e => back e.job),
             je := (mine.filterMap SavedEdge.run).foldl (fun t r => Table.insert t (clusterNo k) { r with job := back r.job }) u.je }

/-- The virtual core comes back from its cast (R145). A malformed cast halts the context, and the core serves no firing of it (05 R106): the
cast and its shadow stay for a later bind. -/
def State.laterBind (s : State) (k cast : Nat) (v : VCore) (ctx : Nat) : State :=
  match s.readCast k cast ((List.find? (fun p => decide (p.1 = v)) (s.ctx ctx).shadows).map Prod.snd) with
  | none => (s.modCore k (fun c => { c with barred := true })).haltCtx ctx 5
  | some c =>
    ((s.setCore k c).modCtx ctx (fun x => { x with shadows := x.shadows.filter (fun q => decide (q.1 ≠ v)) })).restoreEdges k v ctx

/-- One core of a bind. While the world is being stopped it is asked to stop as every other core is (05 R102). -/
def State.bindCore (s : State) (l g : Nat) (x : Launch) (r : Group) (cast : Nat) (p : Nat × Nat × VCore) : State :=
  let k := coreKey (r.die % 8) (r.ox + p.1) (r.oy + p.2.1)
  let s1 := s.modCore k (fun c => c.bound x l g p.2.2 (s.ctx x.ctx).modemap)
  let s2 := if r.bound then s1.laterBind k (cast + (g * 2 ^ (x.lgw + x.lgh) + p.2.1 * 2 ^ x.lgw + p.1) * castArea) p.2.2 x.ctx
    else s1.firstBind k l x
  let s3 := if (s2.core k).home.joins.isEmpty ∧ (s2.core k).inbox.isEmpty then s2.refill k else (s2.joinsFired k).refill k
  if (s3.ctx x.ctx).stopper.isSome then s3.modCore k (fun c => c.request .stopw s3.cycle) else s3

/-- Whether the launches that a queue took before this one have been placed (06 R117). -/
def State.inTurn (s : State) (l : Nat) (x : Launch) : Bool :=
  ((s.queue x.queue).pending.takeWhile (fun n => decide (n ≠ l))).all (fun n => match s.launch? n with
    | some y => y.groups.any (fun p => p.2.bound)
    | none => true)

/-- Whether a group of a better class that has taken a slot still keeps it from its loser: until its record retires or unbinds (R148). -/
def State.keepsSlot (s : State) (t : Nat × Nat) : Bool := match s.launch? t.1 with
  | some y => y.live && decide ((y.group t.2).state ≠ .retired)
  | none => false

/-- The slots that a launch holds: those granted, less those that better classes keep from it (R148). -/
def State.slotsOf (s : State) (x : Launch) : Nat := x.slots - (x.taken.filter s.keepsSlot).length

/-- The slots of a launch that groups are in. -/
def Launch.inUse (x : Launch) : Nat := (x.groups.filter (fun p => decide (p.2.state = .resident ∨ p.2.state = .unbinding))).length

/-- Whether a group waits for a slot that it has been granted, and that its launch has free (R148-R149, R151). -/
def State.wantsSlot (s : State) (l g : Nat) (x : Launch) : Bool :=
  x.live && decide (g < x.count) && (x.group g).granted && decide ((x.group g).state = .pending ∨ (x.group g).state = .swapped) &&
    decide ((s.ctx x.ctx).state = .live) && s.inTurn l x && decide (x.inUse < s.slotsOf x)

/-- Whether a group of a launch that has been picked still has to be bound. -/
def State.awaits (s : State) (l : Nat) (x : Launch) : Bool := (List.range x.count).any (fun g => s.wantsSlot l g x)

/-- A launch's quantum begins when it holds all its slots (R153): the time before does not count. -/
def State.startQuantum (s : State) (l : Nat) : State := match s.launch? l with
  | some x => if s.awaits l x then s else s.setLaunch l { x with since := s.time }
  | none => s

/-- What the lay-by holds for a group that has been bound on another package goes on to it, in arrival order (R145, 09 R170). -/
def State.forwardLay (s : State) (ctx : Nat) (vs : List VCore) : State :=
  let out := (s.ctx ctx).lay.filter (fun e => decide (e.dst ∈ vs))
  out.foldl (fun s e => (s.deliver { src := e.src, ctx, dst := e.dst, body := e.body }).getD s)
    (if out.isEmpty then s else s.modCtx ctx (fun x =>
      { x with lay := x.lay.filter (fun e => decide (e.dst ∉ vs)), layRead := x.layRead + BitVec.ofNat 64 out.length, layFull := false }))

/-- A bind record of a group is written and carried out (R145). A misplaced record is not acted on: the context halts. Cores that
still serve another context, or firings of the fault actor, are waited for. -/
def State.bindGroup (s : State) (die slot l g ox oy : Nat) : State := match s.launch? l with
  | none => s
  | some x =>
    if !s.wantsSlot l g x then s
    else if die / 8 ≠ s.pkg.toNat then
      ((s.setLaunch l (x.setGroup g { x.group g with state := .resident, die, slot, ox, oy, bound := true })).forwardLay x.ctx
        ((x.vcores l g).map (fun p => p.2.2))).startQuantum l
    else match s.castPlace x with
      | none => s
      | some cast =>
        let d := die % 8
        let w := 2 ^ x.lgw
        let h := 2 ^ x.lgh
        let bad := decide (ox % w ≠ 0) || decide (oy % h ≠ 0) || decide (32 < ox + w) || decide (32 < oy + h) ||
          (s.die d).binds.any (fun p => decide (p.2.op ≠ 0) && overlaps p.2.rect (ox, oy, w, h))
        if bad then s.haltCtx x.ctx 4
        else if (s.bindAt d slot).op ≠ 0 ∨ 1024 ≤ slot ∨ (s.die d).lost then s
        else
          let r : Group := { x.group g with die, slot, ox, oy }
          let x1 : Launch := { x with cast := some cast }
          if ((x1.setGroup g r).cores l g).any (fun k => (s.core k).ctx.isSome) then s
          else
            let s1 := (s.setLaunch l (x1.setGroup g { r with state := .resident, bound := true })).setBind d slot
              (x1.record l g ox oy 1 cast)
            ((x1.vcores l g).foldl (fun s p => s.bindCore l g x1 r cast p) s1).startQuantum l

/-- BIND: a record that the Plinth's policy writes. Under MODEMAP.SCHED = 1 the host chooses instead (06 R121). -/
def execBind (die slot l g ox oy : Nat) (s : State) : Out :=
  match s.launch? l with
  | some x => if (s.ctx x.ctx).sched then .next s else .next (s.bindGroup die slot l g ox oy)
  | none => .next s

/-- The lowest empty slot of a die's table. -/
def State.emptySlot (s : State) (d : Nat) : Nat :=
  ((List.range 1024).find? (fun n => decide ((s.bindAt d n).op = 0))).getD 1024

/-! ### UNBIND and casts (R145, R150) -/

/-- A resident group begins to unbind, for a reason (R145, 05 R103). Of one on another package this package sees only that it has been asked, and
later, by UNBIND, that it is done (log entry 44). -/
def State.unbindGroup (s : State) (l g : Nat) (r : Reason) : State := match s.launch? l with
  | none => s
  | some x =>
    let gr := x.group g
    if gr.state ≠ .resident then s
    else if !s.isLocal gr then s.setLaunch l (x.setGroup g { gr with state := .unbinding })
    else
      let s1 := (s.setLaunch l (x.setGroup g { gr with state := .unbinding })).setBind (gr.die % 8) gr.slot
        ((s.bindAt (gr.die % 8) gr.slot).setOp 2)
      ((x.cores l g).foldl (fun s k => s.modCore k (fun c => c.request r s.cycle)) s1).stopAtWaits (x.cores l g)

/-- The group of a bind record. -/
def State.groupAt (s : State) (die slot : Nat) : Option (Nat × Nat) :=
  s.launches.findSome? (fun p => (List.find? (fun (q : Nat × Group) =>
    decide (q.2.die = die) && decide (q.2.slot = slot) && (decide (q.2.state = .resident) || decide (q.2.state = .unbinding))) p.2.groups).map (fun q => (p.1, q.1)))

/-- The group of a better class that takes a slot of a launch (R148). -/
def State.takerOf (s : State) (x : Launch) : Option (Nat × Nat) :=
  s.launches.findSome? (fun p => if p.2.prio < x.prio then
    ((List.range p.2.count).find? (fun h => s.wantsSlot p.1 h p.2)).map (fun h => (p.1, h)) else none)

/-- The slots that a group had taken are its losers' again: its record retires or unbinds (R148). -/
def State.yieldSlots (s : State) (l g : Nat) : State :=
  { s with launches := s.launches.map (fun p => (p.1, { p.2 with taken := p.2.taken.filter (fun t => decide (t ≠ (l, g))) })) }

/-- UNBIND: a group of a better class takes the slot of a resident group, whose launch loses it (R148). Of a group of another package that is
UNBINDING, its casts have been written there. -/
def execUnbind (die slot : Nat) (s : State) : Out := match s.groupAt die slot with
  | none => .next s
  | some (l, g) => match s.launch? l with
    | none => .next s
    | some x =>
      let gr := x.group g
      if gr.state = .unbinding then
        if s.isLocal gr then .next s else .next ((s.setLaunch l (x.setGroup g { gr with state := .swapped })).yieldSlots l g)
      else match s.takerOf x with
        | some t =>
          if (s.ctx x.ctx).state = .stopped then .next s
          else .next ((s.setLaunch l { x with taken := x.taken ++ [t] }).unbindGroup l g .better)
        | none => .next s

/-- Whether a core has stopped for a request: it runs nothing. -/
def Core.stopped (c : Core) : Bool := decide (c.run = .idle)

/-- Whether engine work that a core's group issued there still has to end before its cast is written (R150). -/
def State.engineBusy (s : State) (k : Nat) : Bool :=
  let u := s.cluster (clusterOf k)
  u.queue.any (fun j => decide (j.core = k) && !j.svc && !j.edge) ||
  (match u.me with | some r => decide (r.job.core = k) && !r.job.svc | none => false) ||
  s.engines.any (fun p => (p.2.queue ++ (p.2.run.map CopyRun.cmd).toList).any (fun c => decide (c.core = k) && !c.svc)) ||
  s.flights.any (fun f => decide (f.src = s.coord k) && (match f.body with | .msg m => decide (m.kind = .completion) | _ => false)) ||
  s.evops.any (fun o => decide (o.src = s.coord k)) ||
  s.onWire (fun h0 h1 => decide (fld h1 30 0 = (s.coord k).toNat) && decide (fld h0 47 44 = kindCompletion ∨ fld h0 47 44 = kindEvent))

/-- The JEDGEs of core `k`'s virtual core leave its cluster, to resume at the next bind (19 R374). -/
def State.saveEdges (s : State) (k ctx : Nat) : State :=
  let u := s.cluster (clusterOf k)
  let mine (j : Job) : Bool := decide (j.core = k) && !j.svc
  let run := (Table.find? u.je (clusterNo k)).filter (fun r => mine r.job)
  let jobs := u.queue.filter mine
  if jobs.isEmpty then s
  else
    (s.setCluster (clusterOf k) { u with queue := u.queue.filter (fun j => !mine j),
                                         je := if run.isSome then Table.erase u.je (clusterNo k) else u.je }).modCtx ctx
      (fun x => { x with edges := x.edges ++ jobs.map (fun j => { job := j, run := run.filter (fun r => decide (r.job.id = j.id)) }) })

/-- A core whose cast has been written, or that a RETIRE clears: it serves nothing, but firings of the fault actor that wait there. -/
def Core.left (c : Core) : Core :=
  let svc := c.ready.filter Firing.svc ++ c.matched.filter Firing.svc
  { Core.fresh with tlb := c.tlb, held := c.held, waymarks := c.waymarks, ready := svc, mode := c.mode,
                    aborted := c.aborted.filter (fun a => a.firing.svc),
                    ctx := if svc.isEmpty ∧ !c.aborted.any (fun a => a.firing.svc) then none else c.ctx }

/-- The cast of a core of an UNBINDING group is written, and the core leaves it; the last one makes the group SWAPPED. A core that serves no
firing of its context, its restore having failed, leaves the cast as it is (05 R106). -/
def State.leaveGroup (s : State) (k ctx l cast : Nat) (la : Launch) : State :=
  let c := s.core k
  let gr := la.group c.group
  let s1 := if c.barred then s else (((s.saveEdges k ctx).writeCast k cast).modCtx ctx (fun y => { y with shadows := y.shadows ++ [(c.here, c.shadow)] }))
  let s2 := s1.modCore k Core.left
  if (la.cores l c.group).any (fun j => decide ((s2.core j).launch = some l)) then s2
  else
    ((s2.modLaunch l (fun y => y.setGroup c.group { gr with state := .swapped })).yieldSlots l c.group).setBind (gr.die % 8) gr.slot
      ((s.bindAt (gr.die % 8) gr.slot).setOp 0)

/-- CAST_WRITE, of a core that has stopped for a request (05 R103): of an UNBINDING group once its engine work has ended, of a RESIDENT one
where it stands. The service virtual core is saved where its cast is behind (05 R462). -/
def execCastWrite (c : Nat) (s0 : State) : Out :=
  let x := s0.core c
  match x.ctx with
  | none => .next s0
  | some ctx =>
    let s := s0.saveService c ctx
    match x.launch.bind s.launch?, x.launch, s.castOf c with
    | some la, some l, some cast =>
      match (la.group x.group).state with
      | .unbinding => if !x.stopped ∨ s.engineBusy c then .next s else .next (s.leaveGroup c ctx l cast la)
      | .resident => if x.stopped ∧ x.preempt.any Preempt.taken ∧ !x.barred then .next (s.writeCast c cast) else .next s
      | _ => .next s
    | _, _, _ => .next s

/-! ### Rotation (R151) -/

/-- Whether a group has never been bound, or its cast, its cores or its lay-by entries hold a ready firing or a message, one that matches when
its cast is restored among them (05 R463). What a group of another package holds, this package does not see (Config.farWork). -/
def State.eligible (s : State) (l g : Nat) (x : Launch) : Bool :=
  let gr := x.group g
  let vs := (x.vcores l g).map (fun p => p.2.2)
  let lay := (s.ctx x.ctx).lay.any (fun e => decide (e.dst ∈ vs))
  match gr.state with
  | .pending => true
  | .retired => false
  | .resident | .unbinding =>
    lay || (if s.isLocal gr then (x.cores l g).any (fun k => !(s.core k).holders.isEmpty || !(s.core k).inbox.isEmpty) else Config.farWork l g s.time)
  | .swapped =>
    let mine := (s.ctx x.ctx).shadows.filter (fun p => decide (p.1 ∈ vs))
    lay || (mine.isEmpty && Config.farWork l g s.time) || mine.any (fun p =>
      !p.2.ready.isEmpty || !p.2.replays.isEmpty || !p.2.matched.isEmpty || !p.2.aborted.isEmpty || !p.2.inbox.isEmpty || p.2.matches (s.ctx x.ctx).kernels)

/-- The host is asked for a rectangle for each group that wants one, where it is not already (06 R121). -/
def State.askPlaces (s : State) (l : Nat) : State := match s.launch? l with
  | none => s
  | some x =>
    if !(s.ctx x.ctx).sched then s
    else (List.range x.count).foldl (fun s g =>
      if s.wantsSlot l g x ∧ !(s.ctx x.ctx).asks.any (fun a => decide (a.2 = .place l g)) then
        (s.serviceRecord x.ctx 3
          [BitVec.ofNat 64 l, BitVec.ofNat 64 g,
           BitVec.ofNat 64 ((x.w - 1) + (x.h - 1) * 2 ^ 16 + x.lgw * 2 ^ 32 + x.lgh * 2 ^ 40), BitVec.ofNat 64 x.prio] (some (.place l g))).2
      else s) s

/-- QUANTUM_EXPIRY: the next resident set is the first S eligible groups in circular order from the pointer, S being the slots that the launch
holds; of the resident groups that are not picked, as many give up their slots as the picked ones need. A quantum in which a group that was
picked has not been bound goes on (R153). -/
def execQuantumExpiry (l : Nat) (s : State) : Out := match s.launch? l with
  | none => .next s
  | some x =>
    let gs := List.range x.count
    if !x.live ∨ (s.ctx x.ctx).state ≠ .live ∨ s.time.toNat < x.since.toNat + x.quantum * 1000 ∨
       gs.any (fun g => decide ((x.group g).state = .unbinding)) ∨ s.awaits l x ∨ s.slotsOf x = 0 then .next s
    else
      let order := gs.map (fun i => (x.rot + i) % x.count)
      let picked := (order.filter (fun g => s.eligible l g x)).take (s.slotsOf x)
      let resident := gs.filter (fun g => decide ((x.group g).state = .resident))
      let fresh := picked.filter (fun g => decide ((x.group g).state ≠ .resident))
      let spare := resident.filter (fun g => decide (g ∉ picked))
      let x1 : Launch := { x with rot := match picked.getLast? with | some g => (g + 1) % x.count | none => x.rot, since := s.time }
      let x2 := gs.foldl (fun y g => y.setGroup g { y.group g with granted := decide (g ∈ picked) }) x1
      let need := fresh.length - (s.slotsOf x - resident.length)
      .next (((spare.take need).foldl (fun s g => s.unbindGroup l g .quantum) (s.setLaunch l x2)).askPlaces l)

/-! ### Quiescence and retirement (R152) -/

/-- The coordinate by which the Plinth of die d sends: its first core's. -/
def State.plinthCoord (s : State) (d : Nat) : BitVec 31 := s.coord (d * 1024)

/-- An event operation of the Plinth of die d for a context: applied at its home on this package, or on its way to it (09 R167). -/
def State.plinthEvent (s : State) (d ctx : Nat) (set : Bool) (e : BitVec 16) : State :=
  if (s.ctx ctx).home ∧ !s.homeLost ctx e then s.applyEvent ctx set e
  else s.postEvent d ctx (s.plinthCoord d) none set e

/-- Whether an engine command of a launch is outstanding, saved ones among them. -/
def State.engineWork (s : State) (l : Nat) : Bool :=
  s.clusters.any (fun p => p.2.queue.any (fun j => decide (j.vcore.launch = l)) ||
    (match p.2.me with | some r => decide (r.job.vcore.launch = l) | none => false)) ||
  s.engines.any (fun p => (p.2.queue ++ (p.2.run.map CopyRun.cmd).toList).any (fun c => decide (c.vcore.launch = l))) ||
  s.ctxs.any (fun p => p.2.edges.any (fun e => decide (e.job.vcore.launch = l)))

/-- Whether a launch is quiescent. -/
def State.quiescent (s : State) (l : Nat) (x : Launch) : Bool :=
  (List.range x.count).all (fun g => decide ((x.group g).state = .resident ∨ (x.group g).state = .swapped ∨ (x.group g).state = .retired) &&
    !s.eligible l g x) &&
  !s.engineWork l && !s.flights.any (fun f => decide (f.dst.launch = l)) && !s.evops.any (fun o => decide (o.launch = some l)) &&
  !s.onWire (fun _ h => decide (fld h 63 32 = l))

/-- The launch's packet has completed (06 R113). -/
def State.completeLaunch (s : State) (l : Nat) (x : Launch) : State :=
  let q := s.queue x.queue
  let s1 := (s.setQueue x.queue { q with pending := q.pending.filter (fun n => decide (n ≠ l)) }).modLaunch l (fun y => { y with live := false })
  match x.done with
  | some e => s1.plinthEvent (x.queue / 256) x.ctx true e
  | none => s1

/-- A group is RETIRED; RETIRE then clears its cores. -/
def State.retireGroup (s : State) (l g : Nat) : State := match s.launch? l with
  | none => s
  | some x =>
    let gr := x.group g
    let s1 := s.setLaunch l (x.setGroup g { gr with state := .retired, granted := false })
    if (gr.state = .resident ∨ gr.state = .unbinding) ∧ s.isLocal gr then
      s1.setBind (gr.die % 8) gr.slot ((s.bindAt (gr.die % 8) gr.slot).setOp 3)
    else
      let vs := (x.vcores l g).map (fun p => p.2.2)
      s1.modCtx x.ctx (fun y => { y with shadows := y.shadows.filter (fun p => decide (p.1 ∉ vs)) })

/-- LAUNCH_QUIESCENCE: every group retires, and the packet completes. -/
def execLaunchQuiescence (l : Nat) (s : State) : Out := match s.launch? l with
  | none => .next s
  | some x =>
    if !x.live ∨ (s.ctx x.ctx).state = .draining ∨ !s.quiescent l x then .next s
    else .next (((List.range x.count).foldl (fun s g => s.retireGroup l g) s).completeLaunch l x)

/-- Core `k` is cleared of what a launch's virtual core left there (R145, 05 R96). -/
def State.clearCore (s : State) (k : Nat) : State :=
  s.modCore k (fun c => { c.left with
    tlb := c.tlb.filter (fun e => decide (some e.ctx ≠ c.ctx)),
    held := match c.held with | some h => if some h.owner.ctx = c.ctx then none else some h | none => none })

/-- RETIRE: a record whose OP is RETIRE is carried out. -/
def execRetire (die slot : Nat) (s : State) : Out :=
  if die / 8 ≠ s.pkg.toNat ∨ (s.bindAt (die % 8) slot).op ≠ 3 then .next s
  else
    let (ox, oy, w, h) := (s.bindAt (die % 8) slot).rect
    let ks := (List.range h).flatMap (fun j => (List.range w).map (fun i => coreKey (die % 8) (ox + i) (oy + j)))
    if ks.any (fun k => (s.core k).svc) then .next s
    else
      let vs := ks.map (fun k => (s.core k).owner)
      let s1 := (ks.foldl (fun s k => s.clearCore k) s).setBind (die % 8) slot ((s.bindAt (die % 8) slot).setOp 0)
      .next { s1 with cores := s1.cores.map (fun p => (p.1, { p.2 with
        held := match p.2.held with | some h => if h.owner ∈ vs then none else some h | none => none })) }

/-- TIMED_LAUNCH_START: the time base has reached the start stamp, and the held entry firings may start (R149, 06 R113). -/
def execTimedLaunchStart (l : Nat) (s : State) : Out := match s.launch? l with
  | none => .next s
  | some x => if x.live ∧ x.start.toNat ≤ s.time.toNat then .next (s.setLaunch l { x with released := true }) else .next s

end Sys2Proof.Machine
end

