-- ==== Sys2Proof/Machine/Csr.lean ====
section
/-! DEFINITION. The CSRs by number (20 R388-R390, 23 R432-R434): what each reads, and what a write of each does. -/

namespace Sys2Proof.Machine

/-- The gauge unit and the offset in it that a CSR number names. -/
def gaugeOf (n : Nat) : Nat × Nat := ((n - 0x100) / 8, n % 8)

/-- Gauge unit u of a context. -/
def Ctx.gauge (x : Ctx) (u : Nat) : Gauge := Table.get Gauge.reset x.gauges u

/-- The register at an offset of a gauge unit. -/
def Gauge.read (g : Gauge) : Nat → Option Word
  | 0 => some (g.src.setWidth 64)
  | 1 => some g.min
  | 2 => some g.max
  | 3 => some g.n
  | 4 => some g.sum
  | 5 => some (g.sel.setWidth 64)
  | 6 => some ((Table.get 0 g.bins g.sel.toNat).setWidth 64)
  | _ => none

/-- CSR n as core `k` reads it; none outside the map. -/
def State.csrRead (s : State) (k n : Nat) : Option Word :=
  let c := (s.vs k).csr
  let x := s.ctx (s.ctxOf k)
  match n with
  | 0x000 => some c.fstat
  | 0x001 => some c.nbv
  | 0x002 => some s.features
  | 0x008 => some (s.core k).mode
  | 0x010 => some c.lshash
  | 0x011 => some c.lsstat
  | 0x012 => some c.lsbad
  | 0x018 => some c.qctlh
  | 0x019 => some c.alarm
  | 0x020 => some c.tvec
  | 0x021 => some c.epcl
  | 0x022 => some c.epch
  | 0x023 => some c.estat
  | 0x030 => some (s.tdirty k)
  | 0x031 => some (s.tstate k)
  | 0x038 => some c.chstat
  | 0x039 => some c.chfuel
  | 0x040 => some c.carry
  | 0x041 => some c.scanst
  | 0x048 => some c.jobctr
  | 0x049 => some c.jobwin
  | 0x04A => some c.cpctr
  | 0x04B => some c.cpwin
  | 0x060 => some (s.ldimOf k)
  | 0x061 => some (s.gshapeOf k)
  | 0x062 => some (s.gindexOf k)
  | 0x063 => some (s.quantumOf k)
  | _ =>
    if 0x070 ≤ n ∧ n ≤ 0x077 then some (Table.get 0 c.brka (n - 0x070))
    else if 0x100 ≤ n ∧ n ≤ 0x17F then (x.gauge (gaugeOf n).1).read (gaugeOf n).2
    else none

/-- The bits of a CSR that a write may set; none for a CSR that no write may name (R389). -/
def csrMask (n : Nat) : Option Word := match n with
  | 0x000 => some 0x3F
  | 0x001 => some 0xF
  | 0x010 => some 0x3FF
  | 0x011 => some 1
  | 0x018 => some 0x1FFF
  | 0x019 | 0x020 | 0x040 => some 0xFFFFFFFFFFFFFFFF
  | 0x039 => some 0xFFFFFFFF
  | _ =>
    if 0x070 ≤ n ∧ n ≤ 0x077 then some 0x00FFFFFFFFFFFFF9
    else if 0x100 ≤ n ∧ n ≤ 0x17F then
      match n % 8 with
      | 0 | 5 => some 0x1F
      | _ => none
    else none

/-- A write of GCFG or GBSEL of a context's unit (23 R432-R433). A write of GCFG writes SRC, and so resets the unit. -/
def State.gaugeWrite (s : State) (ctx n : Nat) (w : Word) : State :=
  let u := (gaugeOf n).1
  let g := (s.ctx ctx).gauge u
  let g' : Gauge := if n % 8 = 0 then { Gauge.clear g with src := w.setWidth 4 } else { g with sel := w.setWidth 5 }
  s.modCtx ctx (fun x => { x with gauges := Table.set Gauge.reset x.gauges u g' })

/-- Write a value, reserved bits already clear, to CSR n of core `k`, or refuse it with the fault its rule names. -/
def State.csrStore (s : State) (k n : Nat) (w : Word) : Res State :=
  let put (f : Csrs → Csrs) : Res State := .ok (s.modVs k (fun r => { r with csr := f r.csr }))
  match n with
  | 0x000 => put (fun c => { c with fstat := w })
  | 0x001 =>
    if w = 2 ∨ (w = 1 ∧ hasNbv1 s.features) then put (fun c => { c with nbv := w }) else fault .nbvUnsupported w
  | 0x010 => put (fun c => { c with lshash := w })
  | 0x011 => put (fun c => { c with lsstat := w })
  | 0x018 => put (fun c => { c with qctlh := w })
  | 0x019 => put (fun c => { c with alarm := w })
  | 0x020 => put (fun c => { c with tvec := w })
  | 0x039 => put (fun c => { c with chfuel := w })
  | 0x040 => put (fun c => { c with carry := w })
  | _ =>
    if 0x070 ≤ n ∧ n ≤ 0x077 then put (fun c => { c with brka := Table.set 0 c.brka (n - 0x070) w })
    else if n % 8 = 0 ∧ 9 ≤ fld w 3 0 then fault .illegal 0
    else .ok (s.gaugeWrite (s.ctxOf k) n w)

/-- A CSR instruction (R388): `f` gives the new value from the old one and Src(A); none for CSRR, which writes nothing. -/
def State.csrOp (s : State) (k n : Nat) (d a : Opnd) (f : Option (Word → Word → Word)) : Res State :=
  match s.csrRead k n with
  | none => fault .illegal 0
  | some old => match f with
    | none => s.put k d old
    | some f => match csrMask n with
      | none => fault .illegal 0
      | some m => do
        let (v, s1) ← s.src k a
        let s2 ← s1.csrStore k n (f old v &&& m)
        s2.put k d old

end Sys2Proof.Machine
end

