-- ==== Sys2Proof/Machine/Fetch.lean ====
section
/-! DEFINITION. From the program counter of a core to the instruction it executes: fetching, breakpoint matches (13 R230, 20 R385),
the rules of prefixes (15 R256-R260), decoding. -/

namespace Sys2Proof.Machine

/-- Opcodes whose word is a prefix. -/
def isPrefixOpc (opc : Nat) : Bool := decide (opc = 0x001 ∨ opc = 0x002)

/-- Whether a word of this opcode accepts XIMM (15 R256): an F-I instruction of group 0x2 or 0x3, an F-M or F-C instruction. -/
def takesXimm (opc : Nat) : Bool :=
  decide (0x080 ≤ opc ∧ opc ≤ 0x089 ∨ opc = 0x0C2 ∨ 0x100 ≤ opc ∧ opc ≤ 0x10B ∧ opc ≠ 0x10A ∨
    0x180 ≤ opc ∧ opc ≤ 0x18A ∧ ¬ (0x184 ≤ opc ∧ opc ≤ 0x187) ∨ 0x1C0 ≤ opc ∧ opc ≤ 0x1C3)

/-- Whether a word of this opcode accepts ORD (15 R257): group 0x6 but for PREF, group 0x8, SEND. -/
def takesOrd (opc : Nat) : Bool :=
  decide (0x180 ≤ opc ∧ opc ≤ 0x18A ∧ opc ≠ 0x188 ∨ 0x200 ≤ opc ∧ opc ≤ 0x210 ∨ opc = 0x140)

/-- Whether a word may follow the prefixes that stand before it (15 R259). -/
def prefixFits (p : Option Pfx) (opc : Nat) : Bool := match p with
  | none => true
  | some p =>
    if opc = 0x001 then p.ximm.isNone
    else if opc = 0x002 then false
    else (p.ximm.isNone || takesXimm opc) && (p.ord.isNone || takesOrd opc)

/-- Whether core `k`'s firing belongs to a HALTED context. -/
def State.frozen (s : State) (k : Nat) : Bool := match (s.core k).ctx with
  | some ctx => decide ((s.ctx ctx).state = .halted)
  | none => false

/-- The instruction that core `k` executes next, with the state after its fetch; or the state that the attempt leaves: a wait for
a translation, a fault, a trap. A waiting instruction, and a .S word between two elements, are not fetched again. "No firing of the context
runs" while it is HALTED (05 R95). -/
def State.fetchInstr (s : State) (k : Nat) : Except State (Instr × State) :=
  let c := s.core k
  if s.frozen k then .error s else
  match c.again with
  | some i => .ok (i, s)
  | none =>
    match s.fetchAt k c.pc with
    | .error (.wait w s1) => .error (s1.waitOn k w false)
    | .error (.fault f a) => .error (s.takeFault k f a c.unitAt .fetch)
    | .ok (w, s1) =>
      let csr := (s1.vs k).csr
      let skip := fbit csr.estat 2
      match (if skip then none else csr.matches c.pc) with
      | some n => match s1.breakTrap k 2 n c.unitAt c.pc with
        | .ok s2 => .error s2
        | .error (.fault f a) => .error (s1.takeFault k f a c.unitAt .fetch)
        | .error (.wait _ s2) => .error s2
      | none =>
        if !prefixFits c.pfx (opcOf w) then .error (s1.takeFault k .prefixBad 0 c.unitAt .fetch)
        else match decode w with
          | .error .illegal => .error (s1.takeFault k .illegal 0 c.unitAt .fetch)
          | .error .prefixBad => .error (s1.takeFault k .prefixBad 0 c.unitAt .fetch)
          | .ok i =>
            let s2 := if skip && !isPrefixOpc (opcOf w) then
                s1.modVs k (fun r => { r with csr := { r.csr with estat := r.csr.estat &&& ~~~4#64 } })
              else s1
            .ok (i, s2.modCore k (fun c => { c with again := some i }))

/-- The most that a count may be slewed by in so many ticks: 1 in 10,000, and no further than the offset that is left (14 R239). -/
def slewLimit (left : Int) (ticks : Nat) : Nat := min left.natAbs (ticks / 10000)

/-- Time that passes: ticks of the package's own rate (14 R239), cycles of the core clock (01 R13). A package that is steered slews its count
towards its source within the limit; how far within it is a free value. The count never goes backward and never jumps. -/
def State.passTime (s : State) (ticks cycles : Nat) : State :=
  let lim := if s.tbRoot ∨ s.tbRootOf.isNone then 0 else slewLimit s.tbLeft ticks
  if lim = 0 then { s with time := s.time + BitVec.ofNat 64 ticks, cycle := s.cycle + cycles }
  else
    let n := Config.slew s.free % (lim + 1)
    let left := if 0 ≤ s.tbLeft then s.tbLeft - n else s.tbLeft + n
    { s with time := s.time + BitVec.ofNat 64 (if 0 ≤ s.tbLeft then ticks + n else ticks - n), cycle := s.cycle + cycles, free := s.free + 1,
             tbLeft := left, tbSync := s.tbSync || decide (left.natAbs ≤ 8) }

/-- The instruction that the next turn of core `k` executes, given by a word placed in memory: the core runs a firing whose code
stands at virtual 0x10000, in the first page of physical memory, and its TLB holds that page. -/
def State.placeWord (s : State) (k : Nat) (w : Nat) : State :=
  let c := s.core k
  let f := Firing.new (.handle ⟨0, 0, 0⟩) 0 c.launch false [] [] []
  let va : Word := 0x10000
  let entry : TlbEntry := { ctx := c.ctx.getD 0, set := 0, size := 0, page := 1, frame := 0, pr := true, pw := false, px := true }
  let c1 : Core := { c with run := .running, firing := some (c.firing.getD f), pc := va, pcc := codeCap va 64, pfx := none,
                            again := none, buffer := [], tlb := tlbPut 32 entry c.tlb }
  { s.setCore k c1 with
    mem := writeBytes s.mem 0 (bytesOf 8 w),
    hist := s.hist.filter (fun v => decide (v.granule ≠ 0)) }

end Sys2Proof.Machine
end

