-- ==== Sys2Proof/Machine/Scalar.lean ====
section
/-! DEFINITION. Groups 0x1 and 0x2: 64-bit integer arithmetic (16 R276-R284). -/

namespace Sys2Proof.Machine

/-- A two-source form: read A, then B, put the result (R277). -/
def State.two (s : State) (f : FR) (op : Word → Word → Word) : Out :=
  s.runSeq s.cur f.sp [f.a, f.b] [f.d] (fun s => do
    let (a, s1) ← s.src s.cur f.a
    let (b, s2) ← s1.src s.cur (s.issued s.cur f.b)
    s2.put s.cur f.d (op a b))

/-- A division form: DIVZERO where the divisor is zero (R278). -/
def State.divide (s : State) (f : FR) (op : Word → Word → Word) : Out :=
  s.runSeq s.cur f.sp [f.a, f.b] [f.d] (fun s => do
    let (a, s1) ← s.src s.cur f.a
    let (b, s2) ← s1.src s.cur (s.issued s.cur f.b)
    faultIf (decide (b = 0)) .divzero 0
    s2.put s.cur f.d (op a b))

/-- A single-source form (R280). -/
def State.one (s : State) (f : FR) (op : Word → Word) : Out :=
  s.runSeq s.cur f.sp [f.a] [f.d] (fun s => do
    let (a, s1) ← s.src s.cur f.a
    s1.put s.cur f.d (op a))

/-- An immediate form: Src(A) and the immediate, which XIMM may widen (R283). -/
def State.immediate (s : State) (f : FI) (op : Word → Word → Word) : Out :=
  s.runSeq s.cur f.sp [f.a] [f.d] (fun s => do
    let i := (s.core s.cur).widened f.imm
    let (a, s1) ← s.src s.cur f.a
    s1.put s.cur f.d (op a i))

/-- A shift by an immediate, which must lie in 0-63 after widening (R283). -/
def State.shiftImmediate (s : State) (f : FI) (op : Word → Nat → Word) : Out :=
  s.runSeq s.cur f.sp [f.a] [f.d] (fun s => do
    let i := (s.core s.cur).widened f.imm
    faultIf (decide (64 ≤ i.toNat)) .illegal 0
    let (a, s1) ← s.src s.cur f.a
    s1.put s.cur f.d (op a i.toNat))

/-- Leading zero bits of a doubleword (R280). -/
def leadingZeros (a : Word) : Nat := if a = 0 then 64 else 63 - Nat.log2 a.toNat
/-- Trailing zero bits of a doubleword (R280). -/
def trailingZeros (a : Word) : Nat := ((List.range 64).find? (fun i => fbit a i)).getD 64
/-- One bits of a doubleword (R280). -/
def oneBits (a : Word) : Nat := ((List.range 64).filter (fun i => fbit a i)).length
/-- Bit i of the result is bit 63 - i (R280). -/
def reverseBits (a : Word) : Word :=
  (List.range 64).foldl (fun r i => if fbit a i then r ||| (1#64 <<< (63 - i)) else r) 0
/-- Byte i of the result is byte 7 - i (R280). -/
def reverseBytes (a : Word) : Word := BitVec.ofNat 64 (ofBytes (bytesOf 8 a.toNat).reverse)

/-- POS and LEN of a field control: LEN limited to 64 - POS (R281). -/
def fieldOf (f : Word) : Nat × Nat := (fld f 5 0, min (fld f 12 6) (64 - fld f 5 0))
/-- EXT (R281). -/
def extractField (a f : Word) : Word :=
  let (p, len) := fieldOf f
  let u := a.toNat / 2 ^ p % 2 ^ len
  if fbit f 13 ∧ 0 < len ∧ 2 ^ (len - 1) ≤ u then BitVec.ofNat 64 (u + 2 ^ 64 - 2 ^ len) else BitVec.ofNat 64 u
/-- INS (R281). -/
def insertField (old a f : Word) : Word :=
  let (p, len) := fieldOf f
  let m : Word := BitVec.ofNat 64 ((2 ^ len - 1) * 2 ^ p)
  (old &&& ~~~m) ||| ((a <<< p) &&& m)

/-- The quotient of signed division, truncated (R278). -/
def divS (a b : Word) : Word := w64 (Int.tdiv (s64 a) (s64 b))
/-- The remainder of signed division, with the dividend's sign (R278). -/
def remS (a b : Word) : Word := w64 (Int.tmod (s64 a) (s64 b))

/-- ADD (R277). -/
def execAdd (f : FR) (s : State) : Out := s.two f (fun a b => a + b)
/-- SUB (R277). -/
def execSub (f : FR) (s : State) : Out := s.two f (fun a b => a - b)
/-- MUL (R277). -/
def execMul (f : FR) (s : State) : Out := s.two f (fun a b => a * b)
/-- MULH (R277). -/
def execMulh (f : FR) (s : State) : Out := s.two f (fun a b => w64 (s64 a * s64 b / 2 ^ 64))
/-- MULHU (R277). -/
def execMulhu (f : FR) (s : State) : Out := s.two f (fun a b => BitVec.ofNat 64 (a.toNat * b.toNat / 2 ^ 64))
/-- AND (R277). -/
def execAnd (f : FR) (s : State) : Out := s.two f (fun a b => a &&& b)
/-- OR (R277). -/
def execOr (f : FR) (s : State) : Out := s.two f (fun a b => a ||| b)
/-- XOR (R277). -/
def execXor (f : FR) (s : State) : Out := s.two f (fun a b => a ^^^ b)
/-- ANDN (R277). -/
def execAndn (f : FR) (s : State) : Out := s.two f (fun a b => a &&& ~~~b)
/-- ORN (R277). -/
def execOrn (f : FR) (s : State) : Out := s.two f (fun a b => a ||| ~~~b)
/-- SHL (R277). -/
def execShl (f : FR) (s : State) : Out := s.two f (fun a b => a <<< (b.toNat % 64))
/-- SHR (R277). -/
def execShr (f : FR) (s : State) : Out := s.two f (fun a b => a >>> (b.toNat % 64))
/-- SHRA (R277). -/
def execShra (f : FR) (s : State) : Out := s.two f (fun a b => a.sshiftRight (b.toNat % 64))
/-- ROL (R277). -/
def execRol (f : FR) (s : State) : Out := s.two f (fun a b => a.rotateLeft (b.toNat % 64))
/-- ROR (R277). -/
def execRor (f : FR) (s : State) : Out := s.two f (fun a b => a.rotateRight (b.toNat % 64))
/-- MIN (R277). -/
def execMin (f : FR) (s : State) : Out := s.two f (fun a b => if s64 a < s64 b then a else b)
/-- MAX (R277). -/
def execMax (f : FR) (s : State) : Out := s.two f (fun a b => if s64 b < s64 a then a else b)
/-- MINU (R277). -/
def execMinu (f : FR) (s : State) : Out := s.two f (fun a b => if a.toNat < b.toNat then a else b)
/-- MAXU (R277). -/
def execMaxu (f : FR) (s : State) : Out := s.two f (fun a b => if b.toNat < a.toNat then a else b)
/-- CMPEQ (R277). -/
def execCmpeq (f : FR) (s : State) : Out := s.two f (fun a b => bit (decide (a = b)))
/-- CMPNE (R277). -/
def execCmpne (f : FR) (s : State) : Out := s.two f (fun a b => bit (decide (a ≠ b)))
/-- CMPLT (R277). -/
def execCmplt (f : FR) (s : State) : Out := s.two f (fun a b => bit (decide (s64 a < s64 b)))
/-- CMPLTU (R277). -/
def execCmpltu (f : FR) (s : State) : Out := s.two f (fun a b => bit (decide (a.toNat < b.toNat)))
/-- DIV (R278). -/
def execDiv (f : FR) (s : State) : Out := s.divide f divS
/-- DIVU (R278). -/
def execDivu (f : FR) (s : State) : Out := s.divide f (fun a b => a / b)
/-- REM (R278). -/
def execRem (f : FR) (s : State) : Out := s.divide f remS
/-- REMU (R278). -/
def execRemu (f : FR) (s : State) : Out := s.divide f (fun a b => a % b)
/-- SEL: every source is read (R279). -/
def execSel (f : FRC) (s : State) : Out :=
  s.runSeq s.cur f.sp [f.a, f.b, f.c] [f.d] (fun s => do
    let (a, s1) ← s.src s.cur f.a
    let (b, s2) ← s1.src s.cur (s.issued s.cur f.b)
    let (c, s3) ← s2.src s.cur (s.issued s.cur f.c)
    s3.put s.cur f.d (if c ≠ 0 then a else b))
/-- CLZ (R280). -/
def execClz (f : FR) (s : State) : Out := s.one f (fun a => BitVec.ofNat 64 (leadingZeros a))
/-- CTZ (R280). -/
def execCtz (f : FR) (s : State) : Out := s.one f (fun a => BitVec.ofNat 64 (trailingZeros a))
/-- POPC (R280). -/
def execPopc (f : FR) (s : State) : Out := s.one f (fun a => BitVec.ofNat 64 (oneBits a))
/-- BREV (R280). -/
def execBrev (f : FR) (s : State) : Out := s.one f (fun a => reverseBits a)
/-- BSWAP (R280). -/
def execBswap (f : FR) (s : State) : Out := s.one f (fun a => reverseBytes a)
/-- MOV (R280). -/
def execMov (f : FR) (s : State) : Out := s.one f (fun a => a)
/-- EXT (R281). -/
def execExt (f : FR) (s : State) : Out := s.two f extractField
/-- INS: D is read after A and B (R281). -/
def execIns (f : FR) (s : State) : Out :=
  s.runSeq s.cur f.sp [f.a, f.b] [f.d] (fun s => do
    let (a, s1) ← s.src s.cur f.a
    let (b, s2) ← s1.src s.cur (s.issued s.cur f.b)
    let (old, s3) ← s2.src s.cur f.d
    s3.put s.cur f.d (insertField old a b))

/-- ADDI (R283). -/
def execAddi (f : FI) (s : State) : Out := s.immediate f (fun a i => a + i)
/-- ANDI (R283). -/
def execAndi (f : FI) (s : State) : Out := s.immediate f (fun a i => a &&& i)
/-- ORI (R283). -/
def execOri (f : FI) (s : State) : Out := s.immediate f (fun a i => a ||| i)
/-- XORI (R283). -/
def execXori (f : FI) (s : State) : Out := s.immediate f (fun a i => a ^^^ i)
/-- SHLI (R283). -/
def execShli (f : FI) (s : State) : Out := s.shiftImmediate f (fun a n => a <<< n)
/-- SHRI (R283). -/
def execShri (f : FI) (s : State) : Out := s.shiftImmediate f (fun a n => a >>> n)
/-- SHRAI (R283). -/
def execShrai (f : FI) (s : State) : Out := s.shiftImmediate f (fun a n => a.sshiftRight n)
/-- CMPLTI (R283). -/
def execCmplti (f : FI) (s : State) : Out := s.immediate f (fun a i => bit (decide (s64 a < s64 i)))
/-- MOVI (R283). -/
def execMovi (f : FI) (s : State) : Out := s.immediate f (fun _ i => i)
/-- MOVHI (R283). -/
def execMovhi (f : FI) (s : State) : Out := s.immediate f (fun _ i => i <<< 32)

end Sys2Proof.Machine
end

