-- ==== Sys2Proof/Machine/Chisel.lean ====
section
/-! DEFINITION. The chisel: the residual that SPEC makes of a function's words and the values of its early-bound registers
(12 R210-R213, R215, 27 R451). The spec fixes what is folded, what is emitted, the two bounds and the moves; the places of the
paths behind a branch that stays, and where the generic code that a bounded residual ends in stands, are the model's (log
entry 11). -/

namespace Sys2Proof.Machine

/-! ### How words use registers (15 R254) -/

/-- What a word does with an operand field, as far as the x, y and l registers go: nothing; reads it; writes it; reads and
writes it; puts a scalar result to it; reads it and puts to it; reads, or writes, the eight registers from it. -/
inductive Use where
  | no | read | write | both | put | upd | readBlock | writeBlock
  deriving DecidableEq, Repr

/-- An opcode range with the uses of D, A, B and C; an F-C word's fields are A and B. -/
abbrev UseRow := Nat × Nat × Use × Use × Use × Use

/-- Group 0x0. -/
def uses0 : List UseRow :=
  [(0x008, 0x008, .put, .no, .no, .no), (0x009, 0x00B, .put, .read, .no, .no), (0x00C, 0x00D, .no, .read, .read, .no),
   (0x010, 0x010, .no, .read, .no, .no)]
/-- Group 0x1. -/
def uses1 : List UseRow :=
  [(0x040, 0x05A, .put, .read, .read, .no), (0x05B, 0x05B, .put, .read, .read, .read), (0x05C, 0x060, .put, .read, .no,
   .no), (0x061, 0x061, .put, .read, .read, .no), (0x062, 0x062, .upd, .read, .read, .no), (0x063, 0x063, .put, .read, .no,
   .no)]
/-- Group 0x2. -/
def uses2 : List UseRow :=
  [(0x080, 0x087, .put, .read, .no, .no), (0x088, 0x089, .put, .no, .no, .no)]
/-- Group 0x3. -/
def uses3 : List UseRow :=
  [(0x0C0, 0x0C0, .put, .read, .no, .no), (0x0C1, 0x0C1, .write, .read, .read, .no), (0x0C2, 0x0C2, .write, .read, .no,
   .no), (0x0C3, 0x0C3, .write, .read, .read, .no), (0x0C4, 0x0C5, .put, .read, .no, .no), (0x0C6, 0x0C6, .write, .read,
   .read, .no), (0x0C7, 0x0C8, .put, .read, .no, .no), (0x0C9, 0x0C9, .write, .read, .no, .no), (0x0CA, 0x0CA, .put, .read,
   .read, .no), (0x0CB, 0x0CD, .write, .read, .read, .no)]
/-- Group 0x4. -/
def uses4 : List UseRow :=
  [(0x100, 0x105, .no, .read, .read, .no), (0x109, 0x109, .no, .write, .no, .no), (0x10A, 0x10A, .write, .read, .no, .no),
   (0x10B, 0x10B, .no, .both, .no, .no)]
/-- Group 0x5. -/
def uses5 : List UseRow :=
  [(0x140, 0x140, .no, .read, .readBlock, .no), (0x141, 0x141, .no, .read, .readBlock, .read), (0x142, 0x142, .writeBlock,
   .no, .no, .no), (0x143, 0x143, .no, .read, .readBlock, .no), (0x146, 0x149, .no, .read, .no, .no), (0x14A, 0x14A, .put,
   .read, .no, .no), (0x14B, 0x14C, .no, .read, .no, .no), (0x14D, 0x14D, .no, .read, .read, .no), (0x14E, 0x14E, .put,
   .read, .no, .no), (0x14F, 0x14F, .no, .readBlock, .no, .no)]
/-- Group 0x6. -/
def uses6 : List UseRow :=
  [(0x180, 0x180, .put, .read, .no, .no), (0x181, 0x181, .read, .read, .no, .no), (0x182, 0x183, .no, .read, .no, .no),
   (0x184, 0x185, .no, .read, .read, .no), (0x186, 0x188, .no, .read, .no, .no), (0x189, 0x189, .write, .read, .no, .no),
   (0x18A, 0x18A, .read, .read, .no, .no)]
/-- Group 0x7. -/
def uses7 : List UseRow :=
  [(0x1C0, 0x1C0, .put, .read, .no, .no), (0x1C1, 0x1C1, .read, .read, .no, .no), (0x1C2, 0x1C4, .no, .read, .no, .no),
   (0x1C5, 0x1C5, .no, .read, .read, .no), (0x1C8, 0x1C8, .put, .no, .no, .no), (0x1C9, 0x1C9, .no, .read, .no, .no),
   (0x1CA, 0x1CA, .put, .no, .no, .no), (0x1CB, 0x1CB, .put, .no, .no, .no)]
/-- Group 0x8. -/
def uses8 : List UseRow :=
  [(0x200, 0x208, .put, .read, .read, .no), (0x209, 0x209, .put, .read, .read, .read), (0x20A, 0x20C, .put, .read, .read,
   .no), (0x20D, 0x20D, .put, .read, .no, .no), (0x20E, 0x20F, .no, .read, .read, .no), (0x210, 0x210, .put, .read, .read,
   .read)]
/-- Group 0x9. -/
def uses9 : List UseRow :=
  [(0x251, 0x251, .no, .read, .no, .no), (0x252, 0x252, .put, .no, .read, .no), (0x253, 0x253, .no, .read, .read, .no)]
/-- Group 0xB. -/
def usesB : List UseRow :=
  [(0x2C2, 0x2C3, .no, .no, .read, .no), (0x2C4, 0x2C6, .put, .no, .no, .no), (0x2CC, 0x2CC, .put, .no, .no, .no)]
/-- Group 0xC. -/
def usesC : List UseRow :=
  [(0x300, 0x300, .no, .read, .no, .no), (0x301, 0x301, .put, .no, .read, .no), (0x303, 0x303, .no, .read, .no, .no),
   (0x304, 0x308, .no, .no, .read, .no), (0x30B, 0x30B, .no, .no, .read, .no), (0x30D, 0x30D, .put, .read, .read, .no)]
/-- Group 0xD. -/
def usesD : List UseRow :=
  [(0x340, 0x340, .put, .read, .no, .no), (0x341, 0x341, .no, .read, .no, .no), (0x342, 0x342, .put, .read, .no, .no),
   (0x343, 0x343, .no, .read, .no, .no), (0x344, 0x344, .put, .read, .no, .no), (0x345, 0x345, .no, .read, .no, .no),
   (0x346, 0x346, .put, .read, .read, .no), (0x347, 0x347, .no, .no, .read, .no), (0x348, 0x348, .no, .read, .read, .no),
   (0x349, 0x349, .put, .read, .no, .no)]
/-- Group 0xE. -/
def usesE : List UseRow :=
  [(0x380, 0x381, .put, .read, .read, .no), (0x382, 0x382, .no, .read, .no, .no), (0x383, 0x383, .put, .read, .no, .no),
   (0x384, 0x384, .write, .read, .read, .no), (0x385, 0x386, .no, .read, .no, .no), (0x387, 0x387, .write, .read, .no, .no),
   (0x388, 0x388, .put, .read, .no, .no), (0x389, 0x389, .put, .read, .read, .no)]

/-- Every group's rows. -/
def useRows : List UseRow := List.flatten [uses0, uses1, uses2, uses3, uses4, uses5, uses6, uses7, uses8, uses9, usesB, usesC, usesD, usesE]

/-- The uses of D, A, B and C of a word. -/
def usesOf (w : Word) : List Use :=
  let opc := opcOf w
  match useRows.find? (fun r => decide (r.1 ≤ opc) && decide (opc ≤ r.2.1)) with
  | some (_, _, d, a, b, c) => [if 0x200 ≤ opc ∧ opc ≤ 0x20C ∧ fbit w 49 then .no else d, a, b, c]
  | none => [.no, .no, .no, .no]

/-- The lowest bits of the D, A, B and C fields of an opcode's format (15 R245-R246); an absent field stands at 64. -/
def fieldBits (opc : Nat) : List Nat :=
  if (0x100 ≤ opc ∧ opc ≤ 0x10B ∧ opc ≠ 0x10A) then [64, 32, 20, 64]
  else if (0x080 ≤ opc ∧ opc ≤ 0x089) ∨ (0x004 ≤ opc ∧ opc ≤ 0x006) ∨ (0x008 ≤ opc ∧ opc ≤ 0x00B) ∨ opc = 0x0C2 ∨
      (0x180 ≤ opc ∧ opc ≤ 0x18A ∧ ¬ (0x184 ≤ opc ∧ opc ≤ 0x187)) ∨ (0x1C0 ≤ opc ∧ opc ≤ 0x1C3) then [32, 20, 64, 64]
  else [24, 12, 0, 36]

/-- The fields of a word: where each stands, its use, its specifier. -/
def fieldsOf (w : Word) : List (Nat × Use × Nat) :=
  ((fieldBits (opcOf w)).zip (usesOf w)).filterMap (fun p =>
    if p.1 = 64 ∨ p.2 = .no then none else some (p.1, p.2, fld w (p.1 + 11) p.1))

/-- Whether a specifier names an x register but x0, or a y register: the registers whose values the chisel follows. -/
def isReg (n : Nat) : Bool := decide (1 ≤ n ∧ n < 128 ∨ 0x200 ≤ n ∧ n < 0x210)
/-- Whether it names an l register. -/
def isL (n : Nat) : Bool := decide (0x400 ≤ n ∧ n < 0x404)

/-- The registers that a word reads by its fields, and by itself: MIGRATE x1-x8, HALT x1-x5, a masked or selecting vector word y0. -/
def readsOf (w : Word) : List Nat :=
  let opc := opcOf w
  (fieldsOf w).flatMap (fun f => match f.2.1 with
    | .read | .both | .upd => [f.2.2]
    | .readBlock => (List.range 8).map (fun i => f.2.2 + i)
    | _ => []) ++
  (if opc = 0x146 then (List.range 8).map (fun i => i + 1) else if opc = 0x011 then (List.range 5).map (fun i => i + 1)
   else if (0x240 ≤ opc ∧ opc ≤ 0x2CC ∧ fbit w 42) ∨ opc = 0x24E ∨ opc = 0x2CA ∨ opc = 0x2CB then [0x200] else [])

/-- The registers it writes. -/
def writesOf (w : Word) : List Nat :=
  (fieldsOf w).flatMap (fun f => match f.2.1 with
    | .write | .both | .put | .upd => [f.2.2]
    | .writeBlock => (List.range 8).map (fun i => f.2.2 + i)
    | _ => [])

/-- Whether its result enters the l file (03 R50): JAL, JR, HCALL, RECV, and a result put anywhere but to l0 and LQ. -/
def shiftsL (w : Word) : Bool :=
  let opc := opcOf w
  decide (opc = 0x109 ∨ opc = 0x10A ∨ opc = 0x387 ∨ opc = 0x142) ||
  (fieldsOf w).any (fun f => decide (f.2.1 = .put ∨ f.2.1 = .upd) && !isL f.2.2 && decide (f.2.2 ≠ 0x805))
/-- Whether it writes l0 alone. -/
def writesL0 (w : Word) : Bool := (writesOf w).any isL

/-- Whether a word is a JR that leaves a link, by which control may come back (16 R298). -/
def linksBack (w : Word) : Bool := decide (opcOf w = 0x10A) && isReg (fld w 35 24)
/-- Words to whose end control never falls: END, MIGRATE, HALT, ERET, JR without a link, TRAPD end a path. -/
def endsPath (w : Word) : Bool :=
  let opc := opcOf w
  decide (opc = 0x144 ∨ opc = 0x146 ∨ opc = 0x011 ∨ opc = 0x007 ∨ opc = 0x10A ∨ opc = 0x005) && !linksBack w
/-- Words that run other code and return: TRAP, BRK, HCALL, JR with a link. -/
def callsAway (w : Word) : Bool := decide (opcOf w = 0x004 ∨ opcOf w = 0x006 ∨ opcOf w = 0x387) || linksBack w
/-- Words that name where control goes. -/
def namesNext (w : Word) : Bool := endsPath w || callsAway w || decide (0x100 ≤ opcOf w ∧ opcOf w ≤ 0x10B)

/-! ### Units: a word with its prefixes and its live mask -/

/-- A word with the prefixes before it and the live mask after it: the offset of the first of its words and of the word itself,
its words, the offset of the next unit. -/
structure CodeUnit where
  first : Nat
  at_ : Nat
  pfx : Option Pfx
  word : Word
  instr : Instr
  words : List Word
  next : Nat
  deriving DecidableEq, Repr

/-- The word at an offset of a function. -/
def codeAt (code : List Word) (a : Nat) : Option Word := if a % 8 = 0 then code[a / 8]? else none

/-- The unit whose remaining words start at `a`, after the prefixes `p`; the first argument bounds the prefixes. -/
def unitFrom (code : List Word) (first : Nat) : Nat → Option Pfx → List Word → Nat → Except FCode CodeUnit
  | n, p, ws, a => match codeAt code a with
    | none => .error .capBounds
    | some w =>
      if !prefixFits p (opcOf w) then .error .prefixBad
      else match decode w, n with
        | .error .illegal, _ => .error .illegal
        | .error .prefixBad, _ => .error .prefixBad
        | .ok (.ximm x), n + 1 =>
          let q : Pfx := p.getD { ximm := none, ord := none, first := BitVec.ofNat 64 first }
          unitFrom code first n (some { q with ximm := some x }) (ws ++ [w]) (a + 8)
        | .ok (.ord o), n + 1 =>
          let q : Pfx := p.getD { ximm := none, ord := none, first := BitVec.ofNat 64 first }
          unitFrom code first n (some { q with ord := some o }) (ws ++ [w]) (a + 8)
        | .ok i, _ =>
          let next := a + (if spOf w then 16 else 8)
          match (if spOf w then (codeAt code (a + 8)).map (fun m => [m]) else some []) with
          | none => .error .capBounds
          | some m =>
            if !namesNext w ∧ (codeAt code next).isNone then .error .capBounds
            else .ok { first, at_ := a, pfx := p, word := w, instr := i, words := ws ++ w :: m, next }

/-- The unit at an offset of a function, or the fault that its own words fix (16 R293, 15 R255, R259, 12 R213). -/
def unitAt (code : List Word) (a : Nat) : Except FCode CodeUnit := unitFrom code a 3 none [] a

/-- The early-bound registers of a function, in the order of their first marked fields (12 R210). A live mask is no instruction word. -/
def earlyFrom (code : List Word) : Nat → Nat → List Nat → List Nat
  | 0, _, l => l
  | n + 1, a, l => match codeAt code a with
    | none => l
    | some w => match decode w with
      | .error _ => earlyFrom code n (a + 8) l
      | .ok _ =>
        let bits := fieldBits (opcOf w)
        let spec (i : Nat) : Nat := let p := bits.getD i 64; fld w (p + 11) p
        let third := if (usesOf w).getD 3 .no = .no then spec 0 else spec 3
        let bm := !isPrefixOpc (opcOf w)
        let marked := [(60, spec 1), (61, spec 2), (62, third)].filterMap (fun m => if bm && fbit w m.1 then some m.2 else none)
        earlyFrom code n (a + (if bm && spOf w then 16 else 8)) (marked.foldl (fun l r => if r ∈ l then l else l ++ [r]) l)

/-- The early-bound registers of a function, by specifier. -/
def earlyRegs (code : List Word) : List Nat := earlyFrom code (code.length + 1) 0 []

/-! ### Moves (12 R212, 27 R451) -/

/-- An F-I word, with an XIMM before it where the value does not fit IMM20 (15 R256, R265). -/
def wordsI (opc d a : Nat) (v : Int) : List Word :=
  let w := mkWord false 0 opc (bodyI 0 d a (v % 2 ^ 20).toNat)
  if -2 ^ 19 ≤ v ∧ v < 2 ^ 19 then [w] else [mkWord false 0 0x001 (v / 2 ^ 20 % 2 ^ 32).toNat, w]

/-- Words that set a register, or the sink, to a value, and the values that they shift into the l file: MOVI, or MOVHI and ORI
where the value takes more than 52 bits (16 R284). -/
def moveWords (d : Nat) (v : Word) : List Word × List Word :=
  if -2 ^ 51 ≤ s64 v ∧ s64 v < 2 ^ 51 then (wordsI 0x088 d 0 (s64 v), [v])
  else
    let t := if d = 0xE20 then 0x400 else d
    (wordsI 0x089 d 0 (v.toNat / 2 ^ 32) ++ wordsI 0x082 t t (v.toNat % 2 ^ 32),
     if d = 0xE20 then [v] else [(v >>> 32) <<< 32, v])

/-! ### Paths -/

/-- What an entry of the l file holds: a known value; the argument of a marked l register before any write (R210); the value that
such a register held, after one; the result of an emitted word, or an entry value, by number. -/
inductive LVal where
  | val (w : Word)
  | early (w : Word)
  | lost
  | late (n : Nat)
  deriving DecidableEq, Repr

/-- A point of a path: the offset in the function; the registers whose value is known, those of them that the machine's registers
hold, those that the path has written; the l file as the generic code and as the residual has it (R211). -/
structure Path where
  pc : Nat
  known : Table Word
  placed : List Nat
  wrote : List Nat
  gen : List LVal
  res : List LVal
  deriving DecidableEq, Repr

/-- A word of the residual: as it is, or a branch to a label. -/
inductive Item where
  | word (w : Word)
  | branch (w : Word) (label : Nat)
  deriving DecidableEq, Repr

/-- The head of the loop iteration that a path unrolls (R212): the path there, the branch's offset, and how much had been emitted
and set aside. -/
structure LoopHead where
  path : Path
  upto : Nat
  items : Nat
  pending : Nat
  deriving DecidableEq, Repr

/-- A path set aside: its label, and the offset of the branch that led back to it. -/
structure Pending where
  label : Nat
  path : Path
  back : Option Nat
  deriving DecidableEq, Repr

/-- The residual so far: its items, last first; where labels stand; the paths set aside; the paths given up for want of fuel or
room, by label, oldest first; fuel used; FOLDTRAP; a number for the next late value or label. -/
structure Chip where
  items : List Item
  labels : Table Nat
  pending : List Pending
  given : List (Nat × Path)
  used : Nat
  trapped : Bool
  seq : Nat
  deriving DecidableEq, Repr

/-- The value of a specifier where it is known: immediates, x0, followed registers, l registers. -/
def Path.value (p : Path) (n : Nat) : Option Word :=
  if n = 0 then some 0
  else if isReg n then Table.find? p.known n
  else if isL n then match p.gen.getD (n - 0x400) .lost with
    | .val w => some w
    | .early w => some w
    | _ => none
  else if 0xC00 ≤ n ∧ n < 0xE00 then some ((BitVec.ofNat 9 n).signExtend 64)
  else none

/-- A marked l register that any write of the l file has passed no longer counts as holding its argument (R210). -/
def LVal.age : LVal → LVal
  | .early _ => .lost
  | v => v

/-- A value shifted into an l file. -/
def pushL (v : LVal) (l : List LVal) : List LVal := v :: l.take 3

/-- A path whose next words shift these values into the residual's l file alone. -/
def Path.pushes (p : Path) (l : List Word) : Path := { p with res := l.foldl (fun r v => pushL (.val v) r) p.res }

/-- The machine register of a known register takes its value. -/
def Chip.move (c : Chip) (p : Path) (r : Nat) : Chip × Path := match Table.find? p.known r with
  | none => (c, p)
  | some v =>
    let (ws, sh) := moveWords r v
    ({ c with items := (ws.map Item.word).reverse ++ c.items }, { p.pushes sh with placed := r :: p.placed })

/-- Moves of the known registers of a list that the machine does not hold, in the order given. -/
def Chip.moves (c : Chip) (p : Path) : List Nat → Chip × Path
  | [] => (c, p)
  | r :: t =>
    if (Table.find? p.known r).isSome ∧ r ∉ p.placed then
      let (c1, p1) := c.move p r
      c1.moves p1 t
    else c.moves p t

/-- The registers of a list that the chisel follows, in ascending order without repeats. -/
def regsIn (l : List Nat) : List Nat := ((List.range 0x210).filter (fun n => isReg n && decide (n ∈ l)))

/-- Which l register of the residual holds what l register k of the generic code holds. -/
def Path.holder (p : Path) (k : Nat) : Option Nat :=
  let want : LVal := match p.gen.getD k .lost with
    | .early w => .val w
    | v => v
  if want = .lost then none else p.res.findIdx? (fun v => decide (v = want))

/-- The l registers that a word reads stand in the residual's l file: a known value is put there through the sink (R211). -/
def Chip.supplyL (c : Chip) (p : Path) : List Nat → Option (Chip × Path)
  | [] => some (c, p)
  | k :: t =>
    if (p.holder k).isSome then c.supplyL p t
    else match p.value (0x400 + k) with
      | none => none
      | some v =>
        let (ws, sh) := moveWords 0xE20 v
        Chip.supplyL { c with items := (ws.map Item.word).reverse ++ c.items } (p.pushes sh) t

/-- A word whose reads of l registers name the registers where the residual holds their values. -/
def Path.renamed (p : Path) (w : Word) : Option Word :=
  (fieldsOf w).foldl (fun r f => match r with
    | none => none
    | some w =>
      if (f.2.1 = .read ∨ f.2.1 = .both ∨ f.2.1 = .upd) ∧ isL f.2.2 then
        (p.holder (f.2.2 - 0x400)).map (fun n =>
          (w &&& ~~~(0xFFF#64 <<< f.1)) ||| (BitVec.ofNat 64 (0x400 + n) <<< f.1))
      else some w) (some w)

/-- Whether a specifier names a keep register (03 R42). -/
def isKeep (n : Nat) : Bool := decide (96 ≤ n ∧ n < 128)

/-- At a safe point the l file is cleared (03 R42), and another firing of the core may come between, which may write the keep registers: what the
path has written there is known no longer. -/
def Path.atSafePoint (p : Path) : Path :=
  { p with known := p.known.filter (fun e => !(isKeep e.1 && decide (e.1 ∈ p.wrote))),
           gen := List.replicate 4 (.val 0), res := List.replicate 4 (.val 0) }

/-- What an emitted word does to the path: what it writes is late, its result enters both l files, a safe point clears them. -/
def Chip.after (c : Chip) (p : Path) (u : CodeUnit) : Chip × Path :=
  let ws := regsIn (writesOf u.word)
  let p1 : Path := { p with known := p.known.filter (fun e => e.1 ∉ ws), placed := p.placed.filter (fun r => r ∉ ws),
                            wrote := ws ++ p.wrote }
  let v := LVal.late c.seq
  let p2 := if shiftsL u.word then { p1 with gen := pushL v (p1.gen.map LVal.age), res := pushL v p1.res }
    else if writesL0 u.word then { p1 with gen := v :: (p1.gen.map LVal.age).drop 1, res := v :: p1.res.drop 1 }
    else p1
  ({ c with seq := c.seq + 1 }, if spOf u.word then p2.atSafePoint else p2)

/-- Code elsewhere runs and returns: what it may read stands in the machine's registers, and nothing is known afterwards. -/
def Chip.forget (c : Chip) (p : Path) : Chip × Path :=
  let l := (List.range 4).map (fun i => LVal.late (c.seq + i))
  ({ c with seq := c.seq + 8 },
   { p with known := [], placed := [], gen := if p.gen.map LVal.age = p.res then l else (List.range 4).map (fun i => LVal.late (c.seq + 4 + i)),
            res := l })

/-- Emit a unit with its known operands supplied (R212); `label` makes its word a branch, which needs no XIMM. None where no l register
holds what it reads. -/
def Chip.emit (c : Chip) (p : Path) (u : CodeUnit) (label : Option Nat) : Option (Chip × Path) :=
  let all := callsAway u.word || decide (opcOf u.word = 0x109)
  let (c1, p1) := c.moves p (regsIn (if all then p.known.map Prod.fst else readsOf u.word))
  let ls := (List.range 4).filter (fun k => 0x400 + k ∈ readsOf u.word)
  match c1.supplyL p1 ls with
  | none => none
  | some (c2, p2) => match p2.renamed u.word with
    | none => none
    | some w =>
      let n := (u.at_ - u.first) / 8
      let item := match label with | some t => Item.branch w t | none => Item.word w
      let c3 := { c2 with items := ((u.words.drop (n + 1)).map Item.word).reverse ++ item :: ((if label.isSome then [] else u.words.take n).map Item.word).reverse ++ c2.items }
      some (c3.after p2 u)

/-! ### Folding (R212-R213) -/

/-- The meanings of groups 0x1 and 0x2. -/
def foldable (s : State) : Instr → Option Out
  | .add f => some (execAdd f s) | .sub f => some (execSub f s) | .mul f => some (execMul f s) | .mulh f => some (execMulh f s)
  | .mulhu f => some (execMulhu f s) | .div f => some (execDiv f s) | .divu f => some (execDivu f s)
  | .rem f => some (execRem f s) | .remu f => some (execRemu f s) | .and f => some (execAnd f s) | .or f => some (execOr f s)
  | .xor f => some (execXor f s) | .andn f => some (execAndn f s) | .orn f => some (execOrn f s) | .shl f => some (execShl f s)
  | .shr f => some (execShr f s) | .shra f => some (execShra f s) | .rol f => some (execRol f s) | .ror f => some (execRor f s)
  | .min f => some (execMin f s) | .max f => some (execMax f s) | .minu f => some (execMinu f s) | .maxu f => some (execMaxu f s)
  | .cmpeq f => some (execCmpeq f s) | .cmpne f => some (execCmpne f s) | .cmplt f => some (execCmplt f s)
  | .cmpltu f => some (execCmpltu f s) | .sel f => some (execSel f s) | .clz f => some (execClz f s) | .ctz f => some (execCtz f s)
  | .popc f => some (execPopc f s) | .brev f => some (execBrev f s) | .bswap f => some (execBswap f s) | .ext f => some (execExt f s)
  | .ins f => some (execIns f s) | .mov f => some (execMov f s) | .addi f => some (execAddi f s) | .andi f => some (execAndi f s)
  | .ori f => some (execOri f s) | .xori f => some (execXori f s) | .shli f => some (execShli f s) | .shri f => some (execShri f s)
  | .shrai f => some (execShrai f s) | .cmplti f => some (execCmplti f s) | .movi f => some (execMovi f s)
  | .movhi f => some (execMovhi f s)
  | _ => none

/-- A machine with one core that is about to execute a unit of the function with the known values in its registers: the chisel
"evaluates the instruction" there, by the instruction's own meaning. -/
def Path.probe (p : Path) (code : List Word) (u : CodeUnit) : State :=
  let f := Firing.new (.handle ⟨0, 0, 0⟩) 0 none false [] [] []
  let l (k : Nat) : Word := (p.value (0x400 + k)).getD 0
  let x : Table XReg := p.known.filterMap (fun e => if e.1 < 128 then some (e.1, XReg.plain e.2) else none)
  let y : Table Word := p.known.filterMap (fun e => if 128 ≤ e.1 then some (e.1 - 0x200, e.2) else none)
  let c : Core := { Core.fresh with
    run := .running, firing := some f, pc := BitVec.ofNat 64 u.at_, pcc := codeCap 0 (code.length + 1), pfx := u.pfx,
    vs := { VState.fresh with x, y, l0 := l 0, l1 := l 1, l2 := l 2, l3 := l 3 } }
  { State.reset with cores := [(0, c)], ctxs := [(0, { Ctx.fresh with state := .live })] }

/-- What a unit of groups 0x1 and 0x2 gives with the known values: its result, or the code of its fault. -/
def Path.evaluate (p : Path) (code : List Word) (u : CodeUnit) : Option (Except FCode Word) :=
  match decode (u.word &&& ~~~(1#64 <<< 63)) with
  | .error _ => none
  | .ok i => match foldable (p.probe code u) i with
    | some (.next s) =>
      let c := s.core 0
      if c.firing.isSome then some (.ok c.vs.l0)
      else match (s.ctx 0).pending with
        | e :: _ => (FCode.ofCode (e.regs.headD 0).toNat).map .error
        | [] => none
    | _ => none

/-- Whether every source of a word is known. -/
def Path.knows (p : Path) (w : Word) : Bool := (readsOf w).all (fun n => (p.value n).isSome)

/-- IMM20 of a unit, widened by its XIMM (15 R256). -/
def CodeUnit.imm (u : CodeUnit) : Word :=
  let imm := immI u.word
  match u.pfx.bind Pfx.ximm with
  | some x => (x ++ imm : BitVec 52).signExtend 64
  | none => imm.signExtend 64

/-- The fault that known operands, or the word itself, fix for a unit that is not folded (R213): a zero divisor, a shift by an immediate past 63, a
CSR that cannot be named so, a refused NBV, an index beyond the handler table. -/
def Path.fixedFault (p : Path) (features : Word) (u : CodeUnit) : Option FCode :=
  let w := u.word
  let opc := opcOf w
  let field (i : Nat) : Option Word := let b := (fieldBits opc).getD i 64; p.value (fld w (b + 11) b)
  if 0x045 ≤ opc ∧ opc ≤ 0x048 then (if field 2 = some 0 then some .divzero else none)
  else if 0x084 ≤ opc ∧ opc ≤ 0x086 then (if 64 ≤ u.imm.toNat then some .illegal else none)
  else if 0x008 ≤ opc ∧ opc ≤ 0x00B then
    let n := fld w 19 0
    if (State.reset.csrRead 0 n).isNone ∨ (opc ≠ 0x008 ∧ (csrMask n).isNone) then some .illegal
    else if n = 1 ∧ opc = 0x009 then match field 1 with
      | some v => if v &&& 0xF = 2 ∨ (v &&& 0xF = 1 ∧ hasNbv1 features) then none else some .nbvUnsupported
      | none => none
    else none
  else if opc = 0x14D ∨ opc = 0x14E then match field 1 with
    | some v => if 4096 ≤ v.toNat then some .capBounds else none
    | none => none
  else none

/-! ### One unit -/

/-- How a path goes on: to another point of itself, not at all, or not without the generic code (R211). -/
inductive Turned where
  | on (p : Path)
  | over
  | generic
  deriving DecidableEq, Repr

/-- A TRAPD with a code in place of the rest of a path (R213). -/
def Chip.trap (c : Chip) (f : FCode) : Chip :=
  { c with items := .word (mkWord false 0 0x005 (bodyI 0 0 0 f.code)) :: c.items, trapped := true }

/-- The safe point of a folded unit with SP stays, as a NOP with the live mask. -/
def Chip.keepPoint (c : Chip) (p : Path) (u : CodeUnit) : Chip × Path :=
  if spOf u.word then
    ({ c with items := .word (u.words.getLastD 0) :: .word (mkWord true 0 0x003 0) :: c.items }, p.atSafePoint)
  else (c, p)

/-- A register takes a known value on a path. -/
def Path.learn (p : Path) (r : Nat) (v : Word) : Path :=
  if isReg r then { p with known := Table.insert p.known r v, placed := p.placed.filter (fun x => x ≠ r), wrote := r :: p.wrote }
  else p

/-- A folded unit writes a register. A keep register outlives the firing, whatever ends it, and is moved at once (R211, R213). -/
def Chip.learn (c : Chip) (p : Path) (r : Nat) (v : Word) : Chip × Path :=
  if isKeep r then c.moves (p.learn r v) [r] else (c, p.learn r v)

/-- A unit of groups 0x1 and 0x2 with every source known and no port as its destination. -/
def Chip.fold (c : Chip) (p : Path) (code : List Word) (u : CodeUnit) : Chip × Turned :=
  match p.evaluate code u with
  | some (.error f) => (c.trap f, .over)
  | some (.ok v) =>
    let d := (writesOf u.word).headD 0
    let (c0, p1) := c.learn p d v
    let p2 : Path := { p1 with gen := if isL d then .val v :: (p1.gen.map LVal.age).drop 1 else pushL (.val v) (p1.gen.map LVal.age) }
    let (c1, p3) := c0.keepPoint p2 u
    (c1, .on { p3 with pc := u.next })
  | none => (c, .generic)

/-- The target of an F-C unit: its word's offset plus 8 × DISP, widened by XIMM (16 R294). -/
def CodeUnit.target (u : CodeUnit) : Nat :=
  (BitVec.ofNat 64 u.at_ + 8 * u.imm).toNat

/-- The relation of a comparing branch (16 R294). -/
def branchTest (opc : Nat) (a b : Word) : Bool := match opc with
  | 0x100 => decide (a = b)
  | 0x101 => decide (a ≠ b)
  | 0x102 => decide (s64 a < s64 b)
  | 0x103 => decide (s64 b ≤ s64 a)
  | 0x104 => decide (a.toNat < b.toNat)
  | _ => decide (b.toNat ≤ a.toNat)

/-- A branch that stays (R212): the path goes on where it is not taken, and the other is set aside. -/
def Chip.split (c : Chip) (p : Path) (u : CodeUnit) : Chip × Turned :=
  let label := c.seq
  match ({ c with seq := c.seq + 1 }).emit p u (some label) with
  | none => (c, .generic)
  | some (c1, p1) =>
    let t := u.target
    let q : Pending := { label, path := { p1 with pc := t }, back := if t ≤ u.at_ then some u.at_ else none }
    (({ c1 with pending := c1.pending ++ [q] } : Chip), .on { p1 with pc := u.next })

/-- JAL: the called words are a path of their own, and control comes back to what follows, where nothing is known. -/
def Chip.splitCall (c : Chip) (p : Path) (code : List Word) (u : CodeUnit) : Chip × Turned :=
  if (codeAt code u.target).isNone then (c.trap .capBounds, .over)
  else
    let label := c.seq
    match ({ c with seq := c.seq + 1 }).emit p u (some label) with
    | none => (c, .generic)
    | some (c1, p1) =>
      let q : Pending := { label, path := { p1 with pc := u.target }, back := none }
      let (c2, p2) := c1.forget p1
      (({ c2 with pending := c2.pending ++ [q] } : Chip), .on { p2 with pc := u.next })

/-- A unit of group 0x4. -/
def Chip.branch (c : Chip) (p : Path) (code : List Word) (u : CodeUnit) : Chip × Turned :=
  let opc := opcOf u.word
  let known := p.knows u.word
  let field (i : Nat) : Nat := let b := (fieldBits opc).getD i 64; fld u.word (b + 11) b
  if opc = 0x109 then c.splitCall p code u
  else if opc = 0x106 ∨ opc = 0x107 ∨ (opc ≠ 0x108 ∧ !known) then c.split p u
  else
    let a := (p.value (field 1)).getD 0
    let b := (p.value (field 2)).getD 0
    let count := a - 1
    let taken := if opc = 0x108 then true else if opc = 0x10B then decide (count ≠ 0) else branchTest opc a b
    let dest := if taken then u.target else u.next
    if (codeAt code dest).isNone then (c.trap .capBounds, .over)
    else
      let (c0, p1) := if opc = 0x10B then c.learn p (field 1) count else (c, p)
      let (c1, p2) := c0.keepPoint p1 u
      (c1, .on { p2 with pc := dest })

/-- Process the unit where a path stands. -/
def Chip.process (c : Chip) (p : Path) (code : List Word) (features : Word) (u : CodeUnit) : Chip × Turned :=
  let opc := opcOf u.word
  let emitOn (c : Chip) (p : Path) : Chip × Turned := match c.emit p u none with
    | none => (c, .generic)
    | some (c1, p1) => (c1, .on { p1 with pc := u.next })
  match p.fixedFault features u with
  | some f => (c.trap f, .over)
  | none =>
    if endsPath u.word then
      let (c1, p1) := c.moves p (regsIn p.wrote)
      match c1.emit p1 u none with
      | none => (c, .generic)
      | some (c2, _) => (c2, .over)
    else if (opc / 64 = 1 ∨ opc / 64 = 2) ∧ p.knows u.word ∧ !(writesOf u.word).any (fun d => decide (0x800 ≤ d ∧ d < 0xA00)) then
      c.fold p code u
    else if opc / 64 = 4 then c.branch p code u
    else if callsAway u.word then
      match c.emit p u none with
      | none => (c, .generic)
      | some (c1, p1) =>
        let (c2, p2) := c1.forget p1
        (c2, .on { p2 with pc := u.next })
    else emitOn c p

/-! ### The whole residual -/

/-- Words a residual may hold (R212). -/
def residualMax : Nat := 8192

/-- A path is given up at the head of the iteration it unrolls, or where it stands, and every path set aside before with it (R212). -/
def Chip.giveUp (c : Chip) (head : Option LoopHead) (label : Nat) (p : Path) (items pending : Nat) : Chip :=
  let (q, n, m) := match head with
    | some h => (h.path, h.items, h.pending)
    | none => (p, items, pending)
  { c with items := c.items.drop (c.items.length - n), pending := [],
           given := (label, q) :: (c.pending.take m).map (fun x => (x.label, x.path)) }

/-- Process paths until none is left or a bound is met; the first argument bounds the turns. The fuel used alone where the function
is not specialised (R211). -/
def Chip.run (code : List Word) (features : Word) (fuel : Nat) : Nat → Chip → Option LoopHead → Path → Except Nat Chip
  | 0, c, head, p => .ok (c.giveUp head c.seq p c.items.length c.pending.length)
  | n + 1, c, head, p =>
    let head := head.filter (fun h => decide (p.pc ≤ h.upto))
    let stop (d : Chip) : Except Nat Chip := .ok (d.giveUp head d.seq p c.items.length c.pending.length)
    let next (c : Chip) : Except Nat Chip := match c.pending with
      | [] => .ok c
      | q :: t =>
        Chip.run code features fuel n { c with pending := t, labels := Table.insert c.labels q.label c.items.length }
          (q.back.map (fun a => { path := q.path, upto := a, items := c.items.length, pending := t.length })) q.path
    if fuel ≤ c.used then stop c
    else match unitAt code p.pc with
      | .error f =>
        let c1 := if (codeAt code p.pc).isSome then { c with used := c.used + 1 } else c
        if residualMax < c1.items.length + 1 then stop c1 else next (c1.trap f)
      | .ok u =>
        let (c1, t) := { c with used := c.used + 1 }.process p code features u
        match t with
        | .generic => .error (c.used + 1)
        | .over => if residualMax < c1.items.length then stop c1 else next c1
        | .on q =>
          if residualMax < c1.items.length then stop c1
          else
            let back := decide (q.pc ≤ u.at_)
            Chip.run code features fuel n c1
              (if back then some { path := q, upto := u.at_, items := c1.items.length, pending := c1.pending.length } else head) q

/-- Whether generic code from a point may read an l register that holds what the residual's does not (R211): the units reached, with
the l registers that differ, followed for a bounded number of turns. -/
def mayRead (code : List Word) : Nat → List (Nat × List Bool) → List (Nat × List Bool) → Bool
  | 0, _, work => !work.isEmpty
  | _, _, [] => false
  | n + 1, seen, (a, bad) :: work =>
    if !bad.any id ∨ (a, bad) ∈ seen then mayRead code n seen work
    else match unitAt code a with
      | .error _ => mayRead code n ((a, bad) :: seen) work
      | .ok u =>
        let opc := opcOf u.word
        if (readsOf u.word).any (fun r => isL r && bad.getD (r - 0x400) false) then true
        else
          let b1 := if spOf u.word then [false, false, false, false] else if shiftsL u.word then false :: bad.take 3
            else if writesL0 u.word then false :: bad.drop 1 else bad
          let succ := (if 0x100 ≤ opc ∧ opc ≤ 0x10B ∧ opc ≠ 0x10A then [u.target] else []) ++
            (if endsPath u.word ∨ opc = 0x108 then [] else [u.next])
          mayRead code n ((a, bad) :: seen) (succ.map (fun x => (x, b1)) ++ work)

/-- Whether a given-up path may go on in generic code with the l file that its moves leave. -/
def Path.genericFits (p : Path) (code : List Word) : Bool :=
  let p1 := (({ items := [], labels := [], pending := [], given := [], used := 0, trapped := false, seq := 0 } : Chip).moves
    { p with placed := [] } (regsIn (p.known.map Prod.fst))).2
  let bad := (p1.gen.zip p1.res).map (fun x => decide ((match x.1 with | .early w => LVal.val w | v => v) ≠ x.2))
  !mayRead code (16 * code.length + 16) [] [(p.pc, bad)]

/-- Whether a branch of the words from offset h on reaches a word before them. -/
def reachesBack (code : List Word) (h : Nat) : Nat → Nat → Bool
  | 0, _ => false
  | n + 1, a => match unitAt code a with
    | .error _ => if code.length * 8 ≤ a then false else reachesBack code h n (a + 8)
    | .ok u =>
      let opc := opcOf u.word
      (decide (0x100 ≤ opc ∧ opc ≤ 0x10B ∧ opc ≠ 0x10A) && decide (u.target < h)) || reachesBack code h n u.next

/-- The words of an item that stands at word i, given where labels stand. -/
def Item.resolve (labels : Table Nat) (i : Nat) : Item → Word
  | .word w => w
  | .branch w t =>
    let d : Int := Int.ofNat (Table.get i labels t) - Int.ofNat i
    (w &&& ~~~0xFFFFF#64) ||| BitVec.ofNat 64 (d % 2 ^ 20).toNat

/-- A JMP to a label. -/
def jumpTo (t : Nat) : Item := .branch (mkWord false 0 0x108 (bodyI 0 0 0 0)) t

/-- The paths that were given up: each makes its moves (27 R451), and goes on in the generic code that stands after the last; the
last falls into it where it begins there. -/
def Chip.finish (c : Chip) (code : List Word) : List Word :=
  let low := c.given.foldl (fun m g => min m g.2.pc) (code.length * 8)
  let start := if reachesBack code low (code.length + 1) low then 0 else low
  let entry (a : Nat) : Nat := 2 ^ 32 + a
  let place (st : Chip) (g : Nat × Path) : Chip :=
    let c1 : Chip := { st with labels := Table.insert st.labels g.1 st.items.length }
    let (c2, _) := c1.moves { g.2 with placed := [] } (regsIn (g.2.known.map Prod.fst))
    if g.2.pc = start ∧ some g = c.given.getLast? then c2
    else { c2 with items := jumpTo (entry g.2.pc) :: c2.items }
  let c1 := c.given.foldl place c
  let base := c1.items.length
  let labels := c.given.foldl (fun t g => Table.insert t (entry g.2.pc) (base + (g.2.pc - start) / 8)) c1.labels
  let tail := if c.given.isEmpty then [] else code.drop (start / 8)
  c1.items.reverse.mapIdx (fun i x => x.resolve labels i) ++ tail

/-- The residual of a function for the values of its early-bound registers: its words, and PARTIAL, FOLDTRAP and the fuel used
(R210-R215). -/
def chisel (code : List Word) (args : List (Nat × Word)) (fuel : Nat) (features : Word) : List Word × Bool × Bool × Nat :=
  if args.isEmpty then (code, false, false, 0)
  else
    let known : Table Word := args.foldl (fun t a => if isReg a.1 then Table.insert t a.1 a.2 else t) []
    let gen : List LVal := (List.range 4).map (fun k => match List.find? (fun a => decide (a.1 = 0x400 + k)) args with
      | some a => .early a.2
      | none => .late k)
    let p : Path := { pc := 0, known, placed := [], wrote := [], gen, res := (List.range 4).map LVal.late }
    let c0 : Chip := { items := [], labels := [], pending := [], given := [], used := 0, trapped := false, seq := 8 }
    match Chip.run code features fuel (2 * fuel + 2) c0 none p with
    | .error used => (code, true, false, used)
    | .ok c =>
      let ws := c.finish code
      if ws.length ≤ residualMax ∧ c.given.all (fun g => g.2.genericFits code) then (ws, !c.given.isEmpty, c.trapped, c.used)
      else (code, true, false, c.used)

end Sys2Proof.Machine
end

