-- ==== Sys2Proof/Machine/Pages.lean ====
section
/-! DEFINITION. Pages that the device maps for a context: the loader's code and data and the chisel's residuals (07 R134-R135,
12 R214, R217). -/

namespace Sys2Proof.Machine

/-- A pointer entry (13 R220). -/
def pointerWord (table : Nat) : Word := BitVec.ofNat 64 (1 + table)

/-- The level-0 entry of a virtual address, below a table of the given level; tables that are missing on the way are made of zeroed
frames. None where an entry on the way is in use otherwise, or where there is no frame. -/
def State.reachSlot (va : Word) : Nat → Nat → State → Option (Nat × State)
  | 0, table, s => some (table + 8 * vaIndex va 0, s)
  | n + 1, table, s =>
    let a := table + 8 * vaIndex va (n + 1)
    let e := s.word a
    match nextOf (n + 1) e with
    | some t => State.reachSlot va n t s
    | none =>
      if fbit e 0 ∨ isDemand e then none
      else match s.takeFrame (tableSize n) 0 memTop with
        | some (t, s1) => State.reachSlot va n t ((s1.zeroFrame t (tableSize n)).writeWord a (pointerWord t))
        | none => none

/-- Whether n pages from a virtual address hold nothing: no leaf, no demand entry. -/
def State.vaFree (s : State) (ctx : Nat) (va : Nat) (n : Nat) : Bool :=
  (List.range n).all (fun i => decide (s.tableWalk ctx (BitVec.ofNat 64 (va + 65536 * i)) = .none))

/-- The first window of n free pages at or after window `i`, cyclically; the first argument bounds the search. -/
def State.findVa (s : State) (ctx n : Nat) : Nat → Nat → Option Nat
  | 0, _ => none
  | f + 1, i =>
    let va := i % (2 ^ 40 / n) * n * 65536
    if s.vaFree ctx va n then some va else State.findVa s ctx n f (i + 1)

/-- Map n fresh zeroed pages from a virtual address. -/
def State.mapPages (ctx : Nat) (pr pw px : Bool) : Nat → Nat → State → Option State
  | 0, _, s => some s
  | n + 1, va, s => match State.reachSlot (BitVec.ofNat 64 va) 3 (s.ctx ctx).root.toNat s with
    | none => none
    | some (slot, s1) => match s1.takeFrame 65536 0 memTop with
      | none => none
      | some (fr, s2) =>
        State.mapPages ctx pr pw px n (va + 65536) ((s2.zeroFrame fr 65536).writeWord slot (leafWord fr pr pw px false))

/-- The contents of fresh pages: doublewords from a virtual address on. Nothing that a phase has seen stood there. -/
def State.fillPages (ctx : Nat) : Nat → Nat → List Word → State → State
  | 0, _, _, s => s
  | n + 1, va, ws, s =>
    match s.tableWalk ctx (BitVec.ofNat 64 va) with
    | .leaf _ l =>
      let bs := (ws.take 8192).flatMap (fun w => bytesOf 8 w.toNat)
      State.fillPages ctx n (va + 65536) (ws.drop 8192)
        { s with mem := writeBytes s.mem l.frame bs,
                 hist := s.hist.filter (fun v => decide (16 * v.granule + 16 ≤ l.frame ∨ l.frame + 65536 ≤ 16 * v.granule)) }
    | _ => s

/-- Doublewords in fresh pages of a context at an address that the device chooses, with the given rights: the address. -/
def State.install (s : State) (ctx : Nat) (pr pw px : Bool) (ws : List Word) : Option (Word × State) :=
  let n := max 1 ((ws.length + 8191) / 8192)
  match s.findVa ctx n (16386 * (s.mem.length + 1)) (Config.vaPick s.free) with
  | none => none
  | some va => match State.mapPages ctx pr pw px n va { s with free := s.free + 1 } with
    | none => none
    | some s1 => some (BitVec.ofNat 64 va, State.fillPages ctx n va ws s1)

/-- The words of code at a virtual address of a context, where it is mapped for fetching. -/
def State.codeWords (s : State) (ctx : Nat) (va : Word) (n : Nat) : List Word :=
  (List.range n).filterMap (fun i =>
    (s.vaToPa ctx .fetch (va + BitVec.ofNat 64 (8 * i))).map s.word)

end Sys2Proof.Machine
end

