-- ==== Sys2Proof/Machine/Specialise.lean ====
section
/-! DEFINITION. Group 0xE: copy commands, SPEC, and handles (12 R206-R217, 20 R396-R404). -/

namespace Sys2Proof.Machine

/-! ### Copy commands (20 R396, R401) -/

/-- COPY, COPY2D and TFILL: the issue of R360, with the event that Src(B) names. -/
def State.issueCopy (s : State) (kind : Nat) (f : FR) : Out :=
  s.runSeq s.cur f.sp [f.b] [f.d] (fun s => do
    let k := s.cur
    let (pa, va, s1) ← s.descriptor k 64 f.a
    let (id, s2) ← s1.takeId k true
    let (e, s3) ← s2.src k f.b
    let ev : Option (BitVec 16) := if fbit e 16 then some (e.setWidth 16) else none
    s3.issue k true id (.copy kind pa va id ev (nibble (s3.vs k).csr.cpwin id)) f.d)

/-- COPY. -/
def execCopy (f : FR) (s : State) : Out := s.issueCopy 3 f
/-- COPY2D. -/
def execCopy2d (f : FR) (s : State) : Out := s.issueCopy 4 f
/-- TFILL. -/
def execTfill (f : FR) (s : State) : Out := s.issueCopy 5 f
/-- CWAIT. -/
def execCwait (f : FR) (s : State) : Out := s.awaitId true f
/-- CPOLL. -/
def execCpoll (f : FR) (s : State) : Out := s.pollId true f

/-! ### Handles (R206-R209, R216, 20 R403-R404) -/

/-- The check of a register as a code handle (03 R48): its address and the handle it names. -/
def State.handleOf (s : State) (k : Nat) (o : Opnd) : Res (Word × HRef) := do
  let c := s.cap k o
  liftCap (checkCap c pH [c.addr] 1)
  return (c.addr, HRef.of c.addr)

/-- The checks of HHOLD and HREL: a residual's handle, current. -/
def State.residualOf (s : State) (k : Nat) (o : Opnd) : Res (Word × HRef) := do
  let (h, r) ← s.handleOf k o
  let x := s.ctx (s.ctxOf k)
  let e := x.handle r.index
  faultIf (decide (e.state ≠ .free) && !e.residual) .capPerm h
  faultIf (!x.current r) .handleStale h
  return (h, r)

/-- HREL. -/
def execHrel (f : FR) (s : State) : Out :=
  s.runSeq s.cur f.sp [] [] (fun s => do
    let (_, r) ← s.residualOf s.cur f.a
    s.enter s.cur [.hrel r])

/-- The HHOLDs of an entry that are on their way to a boundary. -/
def State.holdsDue (s : State) (ctx i : Nat) : Nat :=
  (s.cores.map (fun p => if p.2.ctx = some ctx then (p.2.buffer.filter (fun e => match e with | .hhold r => decide (r.index = i) | _ => false)).length
    else 0)).sum

/-- HHOLD: a provisional reference at once, an owner reference at the boundary. One that would take OWNERS past 65,535, those on their way
counted, raises SPEC_FULL (R208). -/
def execHhold (f : FR) (s : State) : Out :=
  s.runSeq s.cur f.sp [] [] (fun s => do
    let k := s.cur
    let (h, r) ← s.residualOf k f.a
    let e := (s.ctx (s.ctxOf k)).handle r.index
    faultIf (decide (0xFFFF ≤ e.owners.toNat + s.holdsDue (s.ctxOf k) r.index) || decide (e.running = 0xFFFF)) .specFull h
    (s.addRunning (s.ctxOf k) r.index).enter k [.hhold r])

/-- HCALL (20 R403). -/
def execHcall (f : FR) (s : State) : Out :=
  s.runJump s.cur f.sp [] (fun s => do
    let k := s.cur
    let (h, r) ← s.handleOf k f.a
    faultIf (!s.handlePasses k r) .handleStale h
    let e := (s.ctx (s.ctxOf k)).handle r.index
    faultIf (!(s.core k).refs.any (fun q => decide (q.index = r.index)) && decide (e.running = 0xFFFF)) .specFull h
    faultIf (decide (e.codeva.toNat % 8 ≠ 0)) .align e.codeva
    let s1 := s.takeRef k r
    let c := s1.core k
    let ret := c.fallThrough f.sp
    let s2 := (s1.setCap k f.d (c.pcc.move ret)).modCore k (fun c => { c with pcc := codeCap e.codeva e.words.toNat })
    return (s2.shiftL k ret, e.codeva))

/-- STATE as a number (12 R204). -/
def HState.code : HState → Nat
  | .free => 0 | .building => 1 | .live => 2 | .retiring => 3

/-- The doubleword of HINFO (12 R216). -/
def Ctx.handleInfo (x : Ctx) (r : HRef) : Word :=
  let e := x.handle r.index
  BitVec.ofNat 64 (e.state.code + 4 * e.residual.toNat + 8 * e.host.toNat + 16 * (x.current r).toNat + 32 * e.stat.toNat +
    2 ^ 16 * e.owners.toNat + 2 ^ 32 * e.running.toNat + 2 ^ 48 * min 65535 e.words.toNat)

/-- HINFO. -/
def execHinfo (f : FR) (s : State) : Out :=
  s.runSeq s.cur f.sp [] [f.d] (fun s => do
    let k := s.cur
    let (_, r) ← s.handleOf k f.a
    s.put k f.d ((s.ctx (s.ctxOf k)).handleInfo r))

/-! ### SPEC (12 R210-R215, R217, 20 R402) -/

/-- CHSTAT after a SPEC (R215); a length beyond its field is a free value. -/
def State.chstatOf (s : State) (partly trapped host : Bool) (words fuel : Nat) : Word × State :=
  let (w, s1) := if words < 65536 then (words, s) else ((Config.longWords s.free).toNat, { s with free := s.free + 1 })
  (BitVec.ofNat 64 (partly.toNat + 2 * trapped.toNat + 4 * host.toNat + 2 ^ 16 * w + 2 ^ 32 * fuel), s1)

/-- A residual's words become code of a BUILDING entry, which is LIVE from now on with the firing's provisional owner reference; its
handle goes to D and CHSTAT is written (R205, R214-R215, 20 R402). None where the device finds no pages. -/
def State.makeResidual (s : State) (k index : Nat) (d : Opnd) (host partly trapped : Bool) (fuel : Nat) (ws : List Word) :
    Option State :=
  let ctx := s.ctxOf k
  match s.install ctx false false true ws with
  | none => none
  | some (va, s1) =>
    let e := (s1.ctx ctx).handle index
    let e1 : HEntry := { e with
      state := .live, residual := true, host, codeva := va, words := BitVec.ofNat 32 ws.length, owners := 1, running := 0,
      stat := BitVec.ofNat 2 (partly.toNat + 2 * trapped.toNat) }
    let (st, s2) := (s1.modCtx ctx (fun x => x.setHandle index e1)).chstatOf partly trapped host ws.length fuel
    some (((s2.modVs k (fun r => { r with csr := { r.csr with chstat := st } })).modCore k
      (fun c => { c with made := c.made ++ [e1.ref index] })).setCap k d (e1.ref index).cap)

/-- The words of the code that an entry holds; none for an entry that is FREE or BUILDING (R214). -/
def State.entryCode (s : State) (ctx index : Nat) : List Word :=
  let e := (s.ctx ctx).handle index
  if e.state = .live ∨ e.state = .retiring then s.codeWords ctx e.codeva e.words.toNat else []

/-- The argument block's doublewords, as the firing's loads read them (R210). -/
def State.loadArgs (s : State) (k : Nat) (va : Word) (n : Nat) : Res (List Word × State) := do
  let pages := (va.toNat % 65536 + 8 * n + 65535) / 65536
  let starts := (List.range pages).map (fun i =>
    if i = 0 then (va, min (8 * n) (65536 - va.toNat % 65536))
    else
      let off := 65536 - va.toNat % 65536 + 65536 * (i - 1)
      (va + BitVec.ofNat 64 off, min (8 * n - off) 65536))
  let (bs, s1) ← starts.foldlM (fun (r : List Byte × State) p => do
    let (pa, t) ← r.2.translate k .read p.1
    let (b, t1) := t.loadBytes k pa p.2
    return (r.1 ++ b, t1)) (([] : List Byte), s)
  return ((List.range n).map (fun i => BitVec.ofNat 64 (ofBytes ((bs.drop (8 * i)).take 8))), s1)

/-- SPEC. Under SPECMODE = 1 the host is asked for the words, and the firing waits for its answer (R217). -/
def execSpec (f : FR) (s : State) : Out :=
  s.runSeq s.cur f.sp [] [] (fun s => do
    let k := s.cur
    let ctx := s.ctxOf k
    let (h, r) ← s.handleOf k f.a
    let code := s.entryCode ctx r.index
    let regs := earlyRegs code
    let b := s.cap k f.b
    if regs.isEmpty then (match b.lacks (pR + pG) with | some c => fault c b.addr | none => .ok ())
    else liftCap (checkCap b (pR + pG) [b.addr] (8 * regs.length))
    faultIf (!(s.ctx ctx).current r) .handleStale h
    match (s.ctx ctx).freeHandle with
    | none => fault .specFull h
    | some i =>
      let fuel := fld (s.vs k).csr.chfuel 31 0
      if (s.core k).specmode then
        let e := (s.ctx ctx).handle r.index
        let s1 ← s.publishNow k none
        let (seq, s2) := (s1.modCtx ctx (fun x => x.takeFor i r.index)).serviceRecord ctx 6
          [h, e.codeva, e.words.setWidth 64, b.addr, BitVec.ofNat 64 fuel, BitVec.ofNat 64 i] (some (.spec k i code))
        .error (.wait (.spec seq) s2)
      else
        let (args, s1) ← s.loadArgs k b.addr regs.length
        let (ws, partly, trapped, used) := chisel code (regs.zip args) fuel s1.features
        match (s1.modCtx ctx (fun x => x.takeFor i r.index)).makeResidual k i f.d false partly trapped used ws with
        | some s2 => return s2
        | none => fault .specFull h)

end Sys2Proof.Machine
end

