-- ==== Sys2Proof/Machine/Loader.lean ====
section
/-! DEFINITION. The loader: containers, levels and images, actors, relocations, installing a kernel and taking it away (07 R123-R135,
R139; 06 R114-R115). What a loop- or tile-level section translates to is `Config.translate`. -/

namespace Sys2Proof.Machine

/-! ### Reading a context's memory (the Plinth's reads) -/

/-- n bytes at a virtual address that the Plinth reads, page by page; none where a page does not answer. The first argument bounds
the number of pages. -/
def State.readVa (s : State) (ctx : Nat) : Nat → Word → Nat → Option (List Byte)
  | 0, _, _ => some []
  | f + 1, va, n =>
    if n = 0 then some []
    else
      let m := min n (65536 - va.toNat % 65536)
      match s.plinthPa ctx .read va, State.readVa s ctx f (va + BitVec.ofNat 64 m) (n - m) with
      | some pa, some rest => some (s.bytes pa m ++ rest)
      | _, _ => none

/-- Bytes as doublewords, the last one padded with zeros; the first argument bounds their number. -/
def toWords : Nat → List Byte → List Word
  | 0, _ => []
  | n + 1, l => if l.isEmpty then [] else BitVec.ofNat 64 (ofBytes (l.take 8)) :: toWords n (l.drop 8)

/-! ### The records of a container -/

/-- Bits hi:lo of a record. -/
def bitsOf (r hi lo : Nat) : Nat := r / 2 ^ lo % 2 ^ (hi + 1 - lo)

/-- A record of n bytes at an offset of a container, as one number; none where it does not lie in it. -/
def recordAt (b : List Byte) (off n : Nat) : Option Nat :=
  if off + n ≤ b.length then some (ofBytes ((b.drop off).take n)) else none

/-- Doublewords at an offset of a container. -/
def wordsAt (b : List Byte) (off n : Nat) : Option (List Word) :=
  if off + 8 * n ≤ b.length then some (toWords n ((b.drop off).take (8 * n))) else none

/-- The header of a container that R123 accepts for a LOAD of its length (R134). -/
def headerOf (b : List Byte) : Option Nat := match recordAt b 0 64 with
  | none => none
  | some h =>
    if bitsOf h 31 0 = 0x4D424F31 ∧ bitsOf h 47 32 = 1 ∧ bitsOf h 63 49 = 0 ∧ bitsOf h 127 104 = 0 ∧ bitsOf h 511 448 = 0 ∧
       bitsOf h 415 384 = b.length ∧ 1 ≤ bitsOf h 79 64 ∧ bitsOf h 79 64 ≤ 4096 ∧ 1 ≤ bitsOf h 95 80 ∧ bitsOf h 95 80 ≤ 4096 ∧
       bitsOf h 103 96 ≤ 16 ∧
       bitsOf h 447 416 = (crc32c (b.take 52 ++ List.replicate 4 0 ++ b.drop 56)).toNat then some h
    else none

/-! ### Levels (R124-R127) -/

/-- Whether the words of a scalar-level section are legal: live masks, which follow words with SP, are no instructions. -/
def legalScalar : Bool → List Word → Bool
  | _, [] => true
  | true, _ :: t => legalScalar false t
  | false, w :: t => match decode w with
    | .ok (.unassignedOpcode _) => false
    | .ok _ => legalScalar (spOf w && !isPrefixOpc (opcOf w)) t
    | .error _ => false

/-- A word with the abstract vectors and tiles that its level lets a class-3 specifier name (R124) put as registers. DESIGN CHOICE (log entry 25): the
tile level allows the loop level's names too. -/
def concrete (lev : Nat) (w : Word) : Word :=
  let opc := opcOf w
  let n := if lev = 2 ∧ (opc / 64 = 0xC ∨ opc / 64 = 0xD) then 8 else 32
  (fieldBits opc).foldl (fun v p =>
    if 36 ≤ p ∨ fld w (p + 11) (p + 9) ≠ 3 then v
    else (v &&& ~~~(0x1FF#64 <<< p)) ||| (BitVec.ofNat 64 (fld w (p + 8) p % n) <<< p)) w

/-- Whether a word needs a feature that is switched off (R127): CARRYS and CARRYR do by themselves; what a tile operation needs stands in its
headers. -/
def needsOff (feat : Word) (w : Word) : Bool := !hasCarry feat && decide (opcOf w = 0x348 ∨ opcOf w = 0x349)

/-- Whether every word of a loop- or tile-level section is legal at that level (R125), and has its features, or a region paired with a lower one
(R127). -/
def legalAt (lev : Nat) (feat : Word) (xs : List ((Nat × Nat) × (Nat × Nat))) (ws : List Word) : Bool :=
  legalScalar false (ws.map (concrete lev)) &&
    (ws.zipIdx).all (fun p => !needsOff feat p.1 || xs.any (fun x => decide (x.1.1 ≤ p.2) && decide (p.2 < x.1.1 + x.1.2)))

/-- A level section: its version and words. A section of another kind, or one that does not lie in the container, is malformed. -/
def sectionAt (b : List Byte) (kind off : Nat) : Option (Nat × List Word) := match recordAt b off 16 with
  | none => none
  | some h =>
    if bitsOf h 7 0 = kind ∧ bitsOf h 31 16 = 0 ∧ bitsOf h 127 64 = 0 ∧ off % 8 = 0 then
      (wordsAt b (off + 16) (bitsOf h 63 32)).map (fun ws => (bitsOf h 15 8, ws))
    else none

/-- Whether two regions of words overlap. -/
def regionsMeet (a b : Nat × Nat) : Bool := decide (a.1 < b.1 + b.2) && decide (b.1 < a.1 + a.2)

/-- Whether no cross-reference of a list overlaps another's regions (R127). -/
def pairsApart : List ((Nat × Nat) × (Nat × Nat)) → Bool
  | [] => true
  | p :: t => t.all (fun q => !regionsMeet p.1 q.1 && !regionsMeet p.2 q.2) && pairsApart t

/-- The cross-references of a function. -/
def xrefsAt (b : List Byte) (off first : Nat) : Nat → Option (List ((Nat × Nat) × (Nat × Nat)))
  | 0 => some []
  | n + 1 => match recordAt b (off + 16 * first) 16, xrefsAt b off (first + 1) n with
    | some r, some t => some (((bitsOf r 31 0, bitsOf r 63 32), (bitsOf r 95 64, bitsOf r 127 96)) :: t)
    | _, _ => none

/-- The words of a function: those of the highest level that the translator accepts (R125). -/
def translated (b : List Byte) (h i : Nat) (feat : Word) : Option (List Word) := match recordAt b (bitsOf h 159 128 + 32 * i) 32 with
  | none => none
  | some r =>
    if bitsOf r 31 3 ≠ 0 ∨ bitsOf r 255 192 ≠ 0 then none
    else match xrefsAt b (bitsOf h 255 224) (bitsOf r 159 128) (bitsOf r 191 160) with
      | none => none
      | some xs =>
        let sect (lev : Nat) (off : Nat) : Option (Option (Nat × List Word)) :=
          if bitsOf r lev lev = 1 then (sectionAt b (lev + 1) off).map some else some none
        match sect 0 (bitsOf r 63 32), sect 1 (bitsOf r 95 64), sect 2 (bitsOf r 127 96) with
        | some sc, some lo, some ti =>
          let high (lev : Nat) (p : Option (Nat × List Word)) : Option (List Word) := match p with
            | some (1, ws) => if legalAt lev feat xs ws then (Config.translate lev b i feat).filter (legalScalar false) else none
            | _ => none
          let scal : Option (List Word) := match sc with
            | some (1, ws) => if legalScalar false ws then some ws else none
            | _ => none
          if !pairsApart xs then none else (high 2 ti).or ((high 1 lo).or scal)
        | _, _, _ => none

/-- The words of every function, from function i on. -/
def translateAllFuncs (b : List Byte) (h : Nat) (feat : Word) : Nat → Nat → Option (List (List Word))
  | 0, _ => some []
  | n + 1, i => match translated b h i feat, translateAllFuncs b h feat n (i + 1) with
    | some w, some t => some (w :: t)
    | _, _ => none

/-! ### Native images (R129, R131) -/

/-- How many of the bits of a number below 2^64 are set. -/
def bitCount (n : Nat) : Nat := ((List.range 64).filter (fun i => n.testBit i)).length

/-- The images of a container: code and required features. -/
def imagesAt (b : List Byte) (off : Nat) : Nat → Option (List (List Word × Nat))
  | 0 => some []
  | n + 1 => match recordAt b off 32, imagesAt b (off + 32) n with
    | some r, some t =>
      let len := bitsOf r 63 32
      if len % 8 ≠ 0 ∨ len = 0 ∨ bitsOf r 255 128 ≠ 0 then none
      else (wordsAt b (bitsOf r 31 0) (len / 8)).map (fun ws => (ws, bitsOf r 127 64) :: t)
    | _, _ => none

/-- The image that R131 chooses: of those that match, the first of those that require the most features. -/
def chooseImage (feat : Word) (l : List (List Word × Nat)) : Option (List Word) :=
  ((l.filter (fun p => decide (p.2 &&& feat.toNat = p.2))).foldl (fun (best : Option (List Word × Nat)) p => match best with
    | some q => if bitCount q.2 < bitCount p.2 then some p else some q
    | none => some p) none).map Prod.fst

/-- The code that a LOAD installs: pieces of code, and for each function its piece, its first word there and its length. Where the
functions of an image start in it, the spec does not say: `Config.imageEntry`. -/
def codeOf (b : List Byte) (h : Nat) (feat : Word) : Option (List (List Word) × List (Nat × Nat × Nat)) :=
  match imagesAt b (bitsOf h 223 192) (bitsOf h 103 96) with
  | none => none
  | some imgs =>
    let nf := bitsOf h 79 64
    match (if bitsOf h 48 48 = 0 then chooseImage feat imgs else none) with
    | some ws =>
      some ([ws], (List.range nf).map (fun i =>
        let start := (Config.imageEntry ws i).1 % ws.length
        (0, start, 1 + (Config.imageEntry ws i).2 % (ws.length - start))))
    | none => (translateAllFuncs b h feat nf 0).map (fun fs => (fs, fs.zipIdx.map (fun p => (p.2, 0, p.1.length))))

/-! ### Actors (R132-R133) -/

/-- An input of an actor record. -/
def inputOf (r : Nat) : Option ActIn :=
  let rate := bitsOf r 13 8
  let i := bitsOf r 5 0
  if bitsOf r 7 6 ≠ 0 ∨ rate = 0 then none
  else match bitsOf r 15 14 with
    | 0 => if i = 0 then some ⟨.message, rate, 0⟩ else none
    | 1 => if rate ≤ 32 ∧ i < 16 then some ⟨.ring, rate, i⟩ else none
    | 2 => if rate = 1 then some ⟨.join, rate, i⟩ else none
    | _ => if rate = 1 ∧ i = 0 then some ⟨.engine, rate, 0⟩ else none

/-- Whether an instruction word matches an output kind (R132). The D of CBINIT and CBADVC names a handle and is no destination, and so is the D
that a store reads. -/
def matchesOut (kind : Nat) (w : Word) : Bool :=
  let opc := opcOf w
  match kind with
  | 0 => decide (opc = 0x140 ∨ opc = 0x141 ∨ opc = 0x143 ∨ opc = 0x146)
  | 1 =>
    let d := (fieldBits opc).getD 0 64
    decide (opc = 0x1C6) || (decide (d ≠ 64) && decide (opc ≠ 0x1C5 ∧ opc ≠ 0x1C7) && decide ((usesOf w).headD .no ≠ .read) && decide (fld w (d + 11) (d + 9) = 5))
  | 2 => decide (opc = 0x14B ∨ opc = 0x1C4)
  | _ => decide (opc = 0x340 ∨ opc = 0x344 ∨ opc = 0x380 ∨ opc = 0x381 ∨ opc = 0x389)

/-- The instruction words of code, its live masks left out. -/
def instrWords : Bool → List Word → List Word
  | _, [] => []
  | true, _ :: t => instrWords false t
  | false, w :: t => w :: instrWords (spOf w && !isPrefixOpc (opcOf w)) t

/-- An actor record with its outputs, checked against R132. -/
def actorAt (b : List Byte) (h i : Nat) (code : Nat → List Word) : Option Actor := match recordAt b (bitsOf h 191 160 + 16 * i) 16 with
  | none => none
  | some r =>
    let func := bitsOf r 15 0
    let nin := bitsOf r 18 16
    let nout := bitsOf r 21 19
    let outs := if nout = 0 then some 0 else recordAt b (bitsOf h 191 160 + 16 * bitsOf h 95 80 + 8 * i) 8
    match outs with
    | none => none
    | some o =>
      let ins := (List.range nin).map (fun j => inputOf (bitsOf r (79 + 16 * j) (64 + 16 * j)))
      let body := instrWords false (code func)
      if func < bitsOf h 79 64 ∧ 1 ≤ nin ∧ nin ≤ 4 ∧ nout ≤ 4 ∧ bitsOf r 63 35 = 0 ∧ ins.all Option.isSome ∧
         (List.range nout).all (fun j => body.any (matchesOut (bitsOf o (8 * j + 7) (8 * j + 6)))) then
        some { func, inputs := ins.filterMap id, hv := bitsOf r 34 34 = 1, hidx := bitsOf r 33 22 }
      else none

/-- The actors of a container. -/
def actorsAt (b : List Byte) (h : Nat) (code : Nat → List Word) : Nat → Nat → Option (List Actor)
  | 0, _ => some []
  | n + 1, i => match actorAt b h i code, actorsAt b h code n (i + 1) with
    | some a, some t => some (a :: t)
    | _, _ => none

/-- The join counters that an actor's inputs name. -/
def Actor.joins (a : Actor) : List Nat := (a.inputs.filter (fun i => decide (i.kind = .join))).map ActIn.index

/-- Whether no join counter is the input of two actors (R133). -/
def joinsApart : List Actor → Bool
  | [] => true
  | a :: t => t.all (fun c => !a.joins.any (fun j => decide (j ∈ c.joins))) && joinsApart t

/-- Whether a handler-table entry is filled by another loaded kernel (R133). -/
def Ctx.filledByOther (x : Ctx) (kid i : Nat) : Bool :=
  let w := x.handler i
  fbit w 0 && decide (fld w 47 16 ≠ kid) && decide ((x.kernel (fld w 47 16)).state = .loaded)

/-! ### Relocations (R135) -/

/-- A relocation: its offset, and the address argument or the function whose handle goes there. -/
inductive Reloc where
  | addr (off arg : Nat)
  | handle (off func : Nat)
  deriving DecidableEq, Repr

/-- The relocations of a container, checked. -/
def relocsAt (b : List Byte) (off len nf : Nat) : Nat → Option (List Reloc)
  | 0 => some []
  | n + 1 => match recordAt b off 16, relocsAt b (off + 16) len nf n with
    | some r, some t =>
      let o := bitsOf r 63 0
      let arg := bitsOf r 127 96
      if bitsOf r 95 72 ≠ 0 then none
      else match bitsOf r 71 64 with
        | 1 => if o + 8 ≤ len then some (.addr o arg :: t) else none
        | 2 => if o + 16 ≤ len ∧ o % 16 = 0 ∧ arg < nf then some (.handle o arg :: t) else none
        | _ => none
    | _, _ => none

/-- Bytes placed at an offset of a data section. -/
def splice (d : List Byte) (off : Nat) (bs : List Byte) : List Byte := d.take off ++ bs ++ d.drop (off + bs.length)

/-- The relocated data section with the offsets of its capabilities, in the order of the records. -/
def relocate (va : Word) (caps : List XReg) : List Reloc → List Byte × List Nat → List Byte × List Nat
  | [], d => d
  | .addr o arg :: t, (d, tags) =>
    relocate va caps t (splice d o (bytesOf 8 (va + BitVec.ofNat 64 arg).toNat), tags.filter (fun g => decide (g + 16 ≤ o ∨ o + 8 ≤ g)))
  | .handle o f :: t, (d, tags) =>
    relocate va caps t (splice d o (bytesOf 16 (caps.getD f XReg.zero).val.toNat), o :: tags)

/-- Set the tags of capabilities in the data section. -/
def State.tagAll (s : State) (ctx : Nat) (va : Word) : List Nat → State
  | [] => s
  | o :: t => match s.vaToPa ctx .read (va + BitVec.ofNat 64 o) with
    | some pa => ({ s with tags := Table.set false s.tags (pa / 16) true } : State).tagAll ctx va t
    | none => s.tagAll ctx va t

/-! ### Installing (R134, 12 R204-R205) -/

/-- Pieces of code in fresh pages mapped PX: their addresses. -/
def State.installAll (s : State) (ctx : Nat) : List (List Word) → Option (List (Word × Nat) × State)
  | [] => some ([], s)
  | p :: t => match s.install ctx false false true p with
    | none => none
    | some (va, s1) => match s1.installAll ctx t with
      | none => none
      | some (l, s2) => some ((va, p.length) :: l, s2)

/-- The pages of a piece of n words. -/
def codePages (va : Word) (n : Nat) : List Word :=
  (List.range (max 1 ((n + 8191) / 8192))).map (fun i => va + BitVec.ofNat 64 (65536 * i))

/-- The object type of a kernel id, from the ids in the order of their first load. -/
def ktypeIn (l : List Nat) (kid : Nat) : Nat := match l.idxOf? kid with
  | some i => if i < 255 then i + 1 else 0
  | none => 0

/-- Code handles for functions, in function order, each in the lowest FREE entry: their entries. -/
def State.codeHandles (s : State) (ctx ktype : Nat) : List (Word × Nat) → Option (List Nat × State)
  | [] => some ([], s)
  | (va, n) :: t => match (s.ctx ctx).freeHandle with
    | none => none
    | some i =>
      let s1 := s.modCtx ctx (fun x => (x.takeHandle i).setHandle i
        { (x.takeHandle i).handle i with
          state := .live, residual := false, host := false, codeva := va, words := BitVec.ofNat 32 n, owners := 0, running := 0,
          parent := 0, stat := 0, ktype := BitVec.ofNat 8 ktype })
      match s1.codeHandles ctx ktype t with
      | none => none
      | some (l, s2) => some (i :: l, s2)

/-- Handler entries that the actors of a kernel ask for (R133). -/
def State.loadHandlers (s : State) (ctx kid : Nat) : List (Actor × Nat) → State
  | [] => s
  | (a, i) :: t =>
    (if a.hv then s.setHandler ctx a.hidx (BitVec.ofNat 64 (1 + kid % 2 ^ 32 * 2 ^ 16 + i % 4096 * 2 ^ 48)) else s).loadHandlers ctx kid t

/-- Firings that a change of a context's kernels lets match. -/
def State.matchContext (s : State) (ctx : Nat) : State :=
  s.cores.foldl (fun s p => if p.2.ctx = some ctx ∧ p.2.launch.isSome then s.matchActors p.1 else s) s

/-- A container is installed as kernel `kid` for queue q: the state, and the data section's address and length. None: the LOAD fails,
and nothing of it stays. -/
def State.installKernel (s : State) (ctx q kid : Nat) (base : Word) (b : List Byte) : Option (Word × Nat × State) :=
  match headerOf b with
  | none => none
  | some h => match codeOf b h s.features with
    | none => none
    | some (parts, funcs) =>
      let code (f : Nat) : List Word := match funcs[f]? with
        | some (p, start, n) => ((parts.getD p []).drop start).take n
        | none => []
      let len := bitsOf h 383 352
      match actorsAt b h code (bitsOf h 95 80) 0, relocsAt b (bitsOf h 287 256) len (bitsOf h 79 64) (bitsOf h 319 288),
          (if bitsOf h 351 320 + len ≤ b.length then some ((b.drop (bitsOf h 351 320)).take len) else none) with
      | some actors, some relocs, some raw =>
        if !joinsApart actors || actors.any (fun a => a.hv && (s.ctx ctx).filledByOther kid a.hidx) then none
        else
          let s0 := s.modCtx ctx (fun x => if kid ∈ x.ktypes then x else { x with ktypes := x.ktypes ++ [kid] })
          match s0.installAll ctx parts with
          | none => none
          | some (vas, s1) =>
            let places := funcs.map (fun f => ((vas.getD f.1 (0, 0)).1 + BitVec.ofNat 64 (8 * f.2.1), f.2.2))
            match s1.codeHandles ctx (ktypeIn (s0.ctx ctx).ktypes kid) places with
            | none => none
            | some (hs, s2) =>
              let caps := hs.map (fun i => (((s2.ctx ctx).handle i).ref i).cap)
              match (if len = 0 then some ((0 : Word), s2) else s2.install ctx true true false (List.replicate ((len + 7) / 8) 0)) with
              | none => none
              | some (dva, s3) =>
                let (bytes, tags) := relocate dva caps relocs (raw, [])
                let s4 := if len = 0 then s3
                  else (State.fillPages ctx ((len + 65535) / 65536) dva.toNat (toWords len bytes) s3).tagAll ctx dva tags
                let kn : Kernel := { state := .loaded, actors, funcs := hs, cbase := base, clen := BitVec.ofNat 64 b.length, refs := [q],
                                     pages := vas.flatMap (fun p => codePages p.1 p.2), places, data := dva, dataLen := len }
                let s5 := s4.modCtx ctx (fun x => { x with kernels := Table.insert x.kernels kid kn })
                some (dva, len, (s5.loadHandlers ctx kid actors.zipIdx).matchContext ctx)
      | _, _, _ => none

/-! ### Taking a kernel away (06 R115, 07 R139) -/

/-- Every handler-table entry that names a kernel is emptied as HTSET empties it. -/
def State.emptyHandlers (s : State) (ctx kid : Nat) : State :=
  ((s.ctx ctx).handlers.filter (fun p => decide (fld p.2 47 16 = kid))).foldl (fun s p => s.setHandler ctx p.1 0) s

/-- Code handles retire. -/
def State.retireHandles (s : State) (ctx : Nat) : List Nat → State
  | [] => s
  | i :: t => (s.retireHandle ctx i).retireHandles ctx t

/-- Whether a firing is one of a kernel's actors. -/
def Firing.ofKernel (f : Firing) (kid : Nat) : Bool := match f.code with
  | .actor b => decide (b.kernel = kid)
  | .light b _ => decide (b.kernel = kid)
  | .handle _ => false

/-- Whether it is one that has begun to run. -/
def Firing.runs (f : Firing) (kid : Nat) : Bool := f.started && f.ofKernel kid

/-- The firings of a switched-out virtual core. -/
def Shadow.firings (h : Shadow) : List Firing := h.ready ++ h.replays ++ h.matched ++ h.aborted.map Aborted.firing

/-- Whether a firing still holds a reference to code on a kernel's pages. What a switched-out virtual core holds of the kernel is waited for
(log entry 41). -/
def State.codeHeld (s : State) (ctx kid : Nat) (kn : Kernel) : Bool :=
  let x := s.ctx ctx
  s.cores.any (fun p => decide (p.2.ctx = some ctx) && p.2.holders.any (fun f => f.runs kid)) ||
  x.shadows.any (fun p => p.2.firings.any (fun f => f.ofKernel kid) || p.2.inbox.any (fun m => m.bound.any (fun b => decide (b.kernel = kid)))) ||
  x.handles.any (fun p => decide (p.2.state = .retiring) && !p.2.residual && decide (p.2.running ≠ 0) &&
    kn.pages.any (fun v => decide (p.2.codeva.toNat / 65536 = v.toNat / 65536)))

/-- Queue q's reference to a kernel is dropped; the last one takes the kernel to RETIRING. Its code is unfetchable from then on but for the
firings that hold a reference to it and run to their END (R139): where there is none, its pages go at once. -/
def State.dropKernel (s : State) (ctx q kid : Nat) : State :=
  let kn := (s.ctx ctx).kernel kid
  let refs := kn.refs.filter (fun r => decide (r ≠ q))
  let put (kn : Kernel) (s : State) : State := s.modCtx ctx (fun x => { x with kernels := Table.insert x.kernels kid kn })
  if refs.isEmpty then
    let s1 := ((put { kn with state := .retiring, refs } s).emptyHandlers ctx kid).retireHandles ctx kn.funcs
    if s1.codeHeld ctx kid kn then s1 else put { kn with state := .retiring, refs, pages := [] } (s1.unmapPages ctx kn.pages)
  else put { kn with refs } s

/-- What is bound to a kernel's actors on core `k` and has not started goes to the dead-letter queue (R139). -/
def State.loseKernel (s : State) (k ctx kid : Nat) : State :=
  let c := s.core k
  let lost (f : Firing) : Bool := !f.started && f.ofKernel kid
  let mine (m : InMsg) : Bool := !m.reserved && m.bound.any (fun b => decide (b.kernel = kid))
  let gone := (c.ready ++ c.matched).filter lost
  let s1 := (c.inbox.filter mine).foldl (fun s m => s.emptyAt k ctx m.msg) (gone.foldl (fun s f => s.loseInputs k ctx f) s)
  let ins := gone.flatMap Firing.inputs
  s1.modCore k (fun c => Core.fillReady ((Core.dropMessages { c with
    ready := c.ready.filter (fun f => !lost f), matched := c.matched.filter (fun f => !lost f), inbox := c.inbox.filter (fun m => !mine m) }
    ins).dropJoins ins))

/-- The lay-by's messages that are bound to a kernel's actors go there too. -/
def State.loseLay (s : State) (ctx kid : Nat) : State :=
  let mine (e : LayEntry) : Bool := e.bound.any (fun b => decide (b.kernel = kid))
  let out := (s.ctx ctx).lay.filter mine
  if out.isEmpty then s
  else
    out.foldl (fun s e => match e.body with | .msg m => s.emptyAway ctx e.dst e.src m | _ => s) (s.modCtx ctx (fun x =>
      { x with lay := x.lay.filter (fun e => !mine e), layRead := x.layRead + BitVec.ofNat 64 out.length, layFull := false }))

/-- KERNEL_CODE_FREE: a RETIRING kernel's code pages are freed, and it is ABSENT again, once no firing holds a reference. What its actors would
still have been started for is lost first, so that no later kernel of the id takes it. -/
def execKernelCodeFree (ctx kid : Nat) (s : State) : Out :=
  let kn := (s.ctx ctx).kernel kid
  if kn.state ≠ .retiring ∨ s.codeHeld ctx kid kn then .next s
  else
    let ks := (s.cores.filter (fun p => decide (p.2.ctx = some ctx))).map Prod.fst
    let s1 := (ks.foldl (fun s k => s.loseKernel k ctx kid) s).loseLay ctx kid
    .next ((s1.unmapPages ctx kn.pages).modCtx ctx (fun x => { x with kernels := Table.erase x.kernels kid }))

end Sys2Proof.Machine
end

