-- ==== Sys2Proof/Machine/Queues.lean ====
section
/-! DEFINITION. Queues: their registers and states, and the packets (06 R107-R117). A packet event acts on a RUNNING queue whose head
packet is of its kind; the Plinth's place in the queue is its QRPTR. -/

namespace Sys2Proof.Machine

/-! ### Copying bytes of a context (R112, R116, 20 R398) -/

/-- Bytes from a virtual address, page by page, up to the first page that does not answer, whose address comes with them. -/
def State.readPrefix (s : State) (ctx : Nat) : Nat → Word → Nat → List Byte × Option Word
  | 0, _, _ => ([], none)
  | f + 1, va, n =>
    if n = 0 then ([], none)
    else
      let m := min n (65536 - va.toNat % 65536)
      match s.plinthPa ctx .read va with
      | none => ([], some va)
      | some pa =>
        let (rest, e) := State.readPrefix s ctx f (va + BitVec.ofNat 64 m) (n - m)
        (s.bytes pa m ++ rest, e)

/-- Bytes written to a virtual address, page by page, up to the first page that does not answer: the state, how many were written, and
that page's address. -/
def State.writePrefix (ctx : Nat) : Nat → State → Word → List Byte → Nat → State × Nat × Option Word
  | 0, s, _, _, done => (s, done, none)
  | f + 1, s, va, bs, done =>
    if bs.isEmpty then (s, done, none)
    else
      let m := min bs.length (65536 - va.toNat % 65536)
      match s.plinthPa ctx .write va with
      | none => (s, done, some va)
      | some pa => State.writePrefix ctx f (s.write pa (bs.take m)) (va + BitVec.ofNat 64 m) (bs.drop m) (done + m)

/-- An address in each page that n bytes of a context's virtual memory touch. -/
def pagesOf (va : Word) (n : Nat) : List Word :=
  (List.range (n / 65536 + 2)).filterMap (fun i =>
    if 65536 * i < n + 65536 then some (va + BitVec.ofNat 64 (min (65536 * i) (n - 1))) else none)

/-- Whether a write of n bytes of a context is held: a page of them is on the move (13 R221, R228). -/
def State.rangeMoving (s : State) (ctx : Nat) (va : Word) (n : Nat) : Bool :=
  decide (n ≠ 0) && (pagesOf va n).any (fun a =>
    s.pageHeld ctx a || (match s.vaToPa ctx .write a with | some pa => s.isMoving pa | none => false))

/-- The moves that hold a write of n bytes note since when (13 R228). -/
def State.noteRange (s : State) (ctx : Nat) (va : Word) (n : Nat) : State :=
  s.noteAt ((pagesOf va n).filterMap (s.vaToPa ctx .write))

/-! ### The states of a queue (R107) -/

/-- Change queue q. -/
def State.modQueue (s : State) (q : Nat) (f : Queue → Queue) : State := s.setQueue q (f (s.queue q))

/-- A queue that stops waiting is on no event's wait list any more. -/
def State.leaveWait (s : State) (q : Nat) : State :=
  (s.modCtx (s.queue q).ctx.toNat (fun x =>
    { x with events := x.events.map (fun e => (e.1, { e.2 with waiters := e.2.waiters.filter (fun w => decide (w ≠ .queue q)) })),
             away := x.away.filter (fun a => decide (a.who ≠ .queue q)),
             asks := x.asks.map (fun a => (a.1, match a.2 with
               | .event e op who => .event e op (if who = some (.queue q) then none else who)
               | r => r)) })).modQueue q (fun x => { x with onEvent := false, woken := false })

/-- A packet is refused: the queue is in ERROR, with a record on the error queue (R116). -/
def State.refuse (s : State) (q code : Nat) (tag : BitVec 32) : State :=
  ((s.leaveWait q).modQueue q (fun x => { x with state := .error, err := BitVec.ofNat 8 code, tag })).errorRecord
    (s.queue q).ctx.toNat 2 [BitVec.ofNat 64 q, BitVec.ofNat 64 code, tag.setWidth 64]

/-- The slot of the head packet of queue q. -/
def State.packetAt (s : State) (q : Nat) : Nat := (s.queue q).base.toNat + 64 * ((s.queue q).rptr.toNat % 2 ^ (s.queue q).log2n.toNat)

/-- The eight doublewords of the head packet of queue q (R109). -/
def State.headPacket (s : State) (q : Nat) : List Word := (List.range 8).map (fun i => s.word (s.packetAt q + 8 * i))

/-- A doubleword of a packet. -/
def pk (d : List Word) (i : Nat) : Word := d.getD i 0
/-- KIND. -/
def pkKind (d : List Word) : Nat := fld (pk d 0) 7 0
/-- The event that the packet's completion sets. -/
def pkDone (d : List Word) : Option (BitVec 16) := if fbit (pk d 0) 9 then some (BitVec.ofNat 16 (fld (pk d 0) 31 16)) else none
/-- TAG. -/
def pkTag (d : List Word) : BitVec 32 := BitVec.ofNat 32 (fld (pk d 0) 63 32)

/-- Whether the write pointer is further from the read pointer than the ring is long. -/
def Queue.overrun (x : Queue) : Bool := decide (2 ^ x.log2n.toNat < (x.wptr - x.rptr).toNat)

/-- A queue that has been overrun is refused, its head packet's TAG with it, "always" (R110), while it waits too; one that is RUNNING with
nothing to take is IDLE. -/
def State.settleQueue (s : State) (q : Nat) : State :=
  let x := s.queue q
  if x.state ≠ .running ∧ x.state ≠ .waiting then s
  else if x.overrun then s.refuse q 6 (pkTag (s.headPacket q))
  else if x.state = .running ∧ x.rptr = x.wptr then s.modQueue q (fun x => { x with state := .idle })
  else s

/-- The queue goes on behind its head packet. -/
def State.takePacket (s : State) (q : Nat) : State :=
  (s.modQueue q (fun x => { x with state := .running, rptr := x.rptr + 1 })).settleQueue q

/-- EN is written to 1. -/
def State.enableQueue (s : State) (q : Nat) : State :=
  let x := s.queue q
  if x.state ≠ .disabled then s
  else if (s.ctx x.ctx.toNat).state = .live ∧ x.base.toNat % (64 * 2 ^ x.log2n.toNat) = 0 then
    s.setQueue q { x with en := true, state := .idle }
  else s.setQueue q { x with cmderr := true }

/-- EN is written to 0. -/
def State.disableQueue (s : State) (q : Nat) : State :=
  (s.leaveWait q).modQueue q (fun x => { x with en := false, state := .disabled, err := 0 })

/-- QCMD is written (R108). -/
def State.queueCommand (s : State) (q op : Nat) : State :=
  let x := s.queue q
  if x.state ≠ .error ∨ ¬ (op = 1 ∨ op = 2) then s.setQueue q { x with cmderr := true }
  else if op = 1 then (s.setQueue q { x with state := .running, rptr := x.rptr + 1, err := 0 }).settleQueue q
  else s.setQueue q { x with state := .idle, rptr := x.wptr, err := 0 }

/-- QWPTR is written (R109). -/
def State.doorbell (s : State) (q : Nat) (w : BitVec 32) : State :=
  (s.modQueue q (fun x => { x with wptr := w, state := if x.state = .idle ∧ w ≠ x.rptr then .running else x.state })).settleQueue q

/-- QUEUE_ENABLE. -/
def execQueueEnable (q : Nat) (s : State) : Out := .next (s.enableQueue q)
/-- QUEUE_DISABLE. -/
def execQueueDisable (q : Nat) (s : State) : Out := .next (s.disableQueue q)
/-- QCMD_SKIP. -/
def execQcmdSkip (q : Nat) (s : State) : Out := .next (s.queueCommand q 1)
/-- QCMD_RESET. -/
def execQcmdReset (q : Nat) (s : State) : Out := .next (s.queueCommand q 2)
/-- DOORBELL_WRITE. -/
def execDoorbellWrite (q : Nat) (wptr : BitVec 32) (s : State) : Out := .next (s.doorbell q wptr)

/-! ### Packets (R111-R113) -/

/-- What becomes of a head packet: it is refused, with or without an event beside it; it stays; the queue waits for its event; it is taken, complete or not. -/
inductive Packet where
  | refused (code : Nat)
  | refusedAfter (s : State) (code : Nat)
  | stays (s : State)
  | waits (s : State)
  | done (s : State)
  | begun (s : State)

/-- A packet that completes sets its event (R113), and the queue goes on. -/
def State.completePacket (s : State) (q : Nat) (d : List Word) : State :=
  (match pkDone d with | some e => s.plinthEvent (q / 256) (s.queue q).ctx.toNat true e | none => s).takePacket q

/-- The event of a packet kind on queue q. It acts where the queue runs and its head packet is of the kind, or of no kind; a context
that is not, or no longer, there has no packet taken, and neither has a queue of a lost die (14 R238). A slot in a stack of a lost die raises
MCHECK, and its packet is refused as one that could not be read (log entry 29). -/
def State.packetEvent (s : State) (q : Nat) (kind : Nat) (take : List Word → Packet) : State :=
  let x := s.queue q
  let ctx := s.ctx x.ctx.toNat
  if x.state ≠ .running ∨ (s.die (q / 256)).lost ∨ ctx.state = .free ∨ ctx.state = .building ∨ ctx.state = .draining then s
  else if s.lostMemory (s.packetAt q) then (s.refuse q 8 0).checkEvent x.ctx.toNat 0 (BitVec.ofNat 64 (s.packetAt q)) none
  else
    let d := s.headPacket q
    let k := pkKind d
    if k = 0 ∨ 7 < k then s.refuse q 1 (pkTag d)
    else if k ≠ kind then s
    else if fld (pk d 0) 15 10 ≠ 0 then s.refuse q 2 (pkTag d)
    else if fbit (pk d 0) 8 ∧ x.pending ≠ [] then s.setQueue q { x with state := .waiting, onEvent := false, woken := false, since := s.time }
    else match take d with
      | .refused code => s.refuse q code (pkTag d)
      | .refusedAfter s1 code => s1.refuse q code (pkTag d)
      | .stays s1 => s1
      | .waits s1 => s1
      | .done s1 => s1.completePacket q d
      | .begun s1 => s1.takePacket q

/-- Whether doublewords from i on are zero. -/
def zeroFrom (d : List Word) (i : Nat) : Bool := (d.drop i).all (fun w => decide (w = 0))

/-! ### LAUNCH and TIMED-LAUNCH (R112, R117, 08 R140, R143, R148) -/

/-- Whether the fields of a LAUNCH keep to R112, R140 and R143. -/
def launchFields (d : List Word) (timed : Bool) : Bool :=
  let lgw := fld (pk d 2) 34 32
  let lgh := fld (pk d 2) 42 40
  let w := fld (pk d 2) 12 0 + 1
  let h := fld (pk d 2) 28 16 + 1
  let quantum := fld (pk d 4) 63 32
  decide (fld (pk d 1) 63 50 = 0) && decide (fld (pk d 2) 15 13 = 0) && decide (fld (pk d 2) 31 29 = 0) &&
    decide (fld (pk d 2) 39 35 = 0) && decide (fld (pk d 2) 63 43 = 0) &&
    decide (lgw ≤ 5) && decide (lgh ≤ 5) && decide (w ≤ 4096) && decide (h ≤ 4096) && decide (w % 2 ^ lgw = 0) &&
    decide (h % 2 ^ lgh = 0) && decide (quantum = 0 ∨ 100 ≤ quantum ∧ quantum ≤ 100000) && (timed || decide (pk d 5 = 0)) && zeroFrom d 6

/-- The launch of a packet, with the first S of its groups granted slots, S being the Plinth's choice (08 R148, R151). -/
def State.newLaunch (s : State) (q : Nat) (d : List Word) : Launch :=
  let w := fld (pk d 2) 12 0 + 1
  let h := fld (pk d 2) 28 16 + 1
  let lgw := fld (pk d 2) 34 32
  let lgh := fld (pk d 2) 42 40
  let count := w / 2 ^ lgw * (h / 2 ^ lgh)
  let slots := 1 + Config.slotsPick s.free % count
  { ctx := (s.queue q).ctx.toNat, queue := q, kernel := fld (pk d 1) 31 0, entry := fld (pk d 1) 47 32, prio := fld (pk d 1) 49 48, w, h,
    lgw, lgh, argVa := pk d 3, argLen := fld (pk d 4) 31 0, quantum := if fld (pk d 4) 63 32 = 0 then 200 else fld (pk d 4) 63 32,
    start := pk d 5, done := pkDone d, cast := none, rot := slots % count, slots, taken := [], since := s.time,
    released := decide ((pk d 5).toNat ≤ s.time.toNat), live := true,
    groups := (List.range slots).map (fun g => (g, { Group.fresh with granted := true })) }

/-- A LAUNCH or TIMED-LAUNCH is checked and handed on. -/
def State.launchPacket (s : State) (q : Nat) (timed : Bool) (d : List Word) : Packet :=
  let x := s.queue q
  let ctx := x.ctx.toNat
  let kid := fld (pk d 1) 31 0
  let kn := (s.ctx ctx).kernel kid
  if !launchFields d timed then .refused 2
  else if !(decide (kn.state = .loaded) && decide (q ∈ kn.refs)) then .refused 3
  else if kn.actors.length ≤ fld (pk d 1) 47 32 then .refused 2
  else if fld (pk d 4) 31 0 ≠ 0 ∧ (s.vaToPa ctx .read (pk d 3)).isNone then .refused 8
  else if (s.ctx ctx).state ≠ .live then .stays s
  else
    let l := s.nextLaunch.toNat
    let s1 := ({ s with nextLaunch := s.nextLaunch + 1, free := s.free + 1 } : State).setLaunch l (s.newLaunch q d)
    .begun ((s1.setQueue q { x with pending := x.pending ++ [l] }).askPlaces l)

/-- LAUNCH. -/
def execLaunch (q : Nat) (s : State) : Out := .next (s.packetEvent q 1 (s.launchPacket q false))
/-- TIMED_LAUNCH. -/
def execTimedLaunch (q : Nat) (s : State) : Out := .next (s.packetEvent q 2 (s.launchPacket q true))

/-! ### LOAD and UNLOAD (R114-R115, 07 R134, R139) -/

/-- The LOADED record of a LOAD that is about to complete (R121, 07 R135); it waits while the ring has no room (R120). -/
def State.loaded (s : State) (ctx q kid : Nat) (data : Word) (len : Nat) : Packet :=
  if !(s.ctx ctx).sv.waiting.isEmpty || !(s.ctx ctx).sv.room then .stays s
  else .done (s.serviceRecord ctx 8 [BitVec.ofNat 64 kid, data, BitVec.ofNat 64 len, BitVec.ofNat 64 q] none).2

/-- The MCHECK of an access of the Plinth to a range of which a page lies in a stack of a lost die (14 R238). -/
def State.checkRange (s : State) (ctx : Nat) (acc : Access) (va : Word) (n : Nat) : State :=
  match (pagesOf va n).find? (s.lostVa ctx acc) with
  | some a => s.checkEvent ctx 0 a none
  | none => s

/-- A LOAD. It waits while the kernel of a past load is RETIRING, and while its LOADED record has no room. -/
def State.loadPacket (s : State) (q : Nat) (d : List Word) : Packet :=
  let ctx := (s.queue q).ctx.toNat
  let kid := fld (pk d 1) 31 0
  let kn := (s.ctx ctx).kernel kid
  if kid = 0 ∨ fld (pk d 1) 63 32 ≠ 0 ∨ !zeroFrom d 4 then .refused 2
  else match kn.state with
    | .loaded =>
      if q ∈ kn.refs ∨ kn.cbase ≠ pk d 2 ∨ kn.clen ≠ pk d 3 then .refused 4
      else match (s.modCtx ctx (fun x => { x with kernels := Table.insert x.kernels kid { kn with refs := kn.refs ++ [q] } })).loaded ctx q kid
          kn.data kn.dataLen with
        | .stays _ => .stays s
        | r => r
    | .retiring => .stays s
    | _ =>
      if 2 ^ 32 ≤ (pk d 3).toNat then .refused 5
      else match s.readVa ctx ((pk d 3).toNat / 65536 + 2) (pk d 2) (pk d 3).toNat with
        | none => .refusedAfter (s.checkRange ctx .read (pk d 2) (pk d 3).toNat) 8
        | some b => match s.installKernel ctx q kid (pk d 2) b with
          | none => .refused 5
          | some (dva, len, s1) => match s1.loaded ctx q kid dva len with
            | .stays _ => .stays s
            | r => r

/-- LOAD. -/
def execLoad (q : Nat) (s : State) : Out := .next (s.packetEvent q 3 (s.loadPacket q))

/-- An UNLOAD, which waits for the queue's earlier launches. -/
def State.unloadPacket (s : State) (q : Nat) (d : List Word) : Packet :=
  let ctx := (s.queue q).ctx.toNat
  let kid := fld (pk d 1) 31 0
  let kn := (s.ctx ctx).kernel kid
  if fld (pk d 1) 63 32 ≠ 0 ∨ !zeroFrom d 2 then .refused 2
  else if !(decide (kn.state = .loaded) && decide (q ∈ kn.refs)) then .refused 3
  else if (s.queue q).pending ≠ [] then .stays s
  else .done (s.dropKernel ctx q kid)

/-- UNLOAD. -/
def execUnload (q : Nat) (s : State) : Out := .next (s.packetEvent q 4 (s.unloadPacket q))

/-! ### SIGNAL, WAIT, COPY (R112-R113, R116, 09 R167) -/

/-- A SIGNAL: the packet completes when the event is set or cleared. Where the host serves the event, or its home is another package, it
stays at the head until the answer comes. -/
def State.signalPacket (s : State) (q : Nat) (d : List Word) : Packet :=
  let ctx := (s.queue q).ctx.toNat
  let e : BitVec 16 := BitVec.ofNat 16 (fld (pk d 1) 15 0)
  let set := !fbit (pk d 1) 16
  if fld (pk d 1) 63 17 ≠ 0 ∨ !zeroFrom d 2 then .refused 2
  else if (s.ctx ctx).waits (.queue q) then .stays s
  else if (s.ctx ctx).home then
    if !s.homeLost ctx e ∧ (s.ctx ctx).hostHolds e then .stays (s.applyEventFor ctx set e (some (.queue q)))
    else .done (s.plinthEvent (q / 256) ctx set e)
  else match s.askHome (q / 256) ctx (s.plinthCoord (q / 256)) none (if set then 1 else 2) e (.queue q) with
    | some s1 => .stays s1
    | none => .done (s.plinthEvent (q / 256) ctx set e)

/-- SIGNAL. -/
def execSignal (q : Nat) (s : State) : Out := .next (s.packetEvent q 5 (s.signalPacket q))

/-- A WAIT's packet has seen its event set: the event is cleared where the packet says so. -/
def State.clearOnWake (s : State) (q : Nat) (d : List Word) : State :=
  if fbit (pk d 1) 16 then s.plinthEvent (q / 256) (s.queue q).ctx.toNat false (BitVec.ofNat 16 (fld (pk d 1) 15 0)) else s

/-- A WAIT. The event of a context whose home is another package is waited for there. -/
def State.waitPacket (s : State) (q : Nat) (d : List Word) : Packet :=
  let ctx := (s.queue q).ctx.toNat
  if fld (pk d 1) 63 17 ≠ 0 ∨ !zeroFrom d 3 then .refused 2
  else
    let wait (s : State) : Packet := .waits (s.modQueue q (fun x => { x with state := .waiting, onEvent := true, woken := false, since := s.time }))
    if !(s.ctx ctx).home then
      wait ((s.askHome (q / 256) ctx (s.plinthCoord (q / 256)) none 3 (BitVec.ofNat 16 (fld (pk d 1) 15 0)) (.queue q)).getD s)
    else match s.joinEvent ctx (BitVec.ofNat 16 (fld (pk d 1) 15 0)) (.queue q) with
      | (true, s1) => .done (s1.clearOnWake q d)
      | (false, s1) => wait s1

/-- WAIT_PACKET. -/
def execWaitPacket (q : Nat) (s : State) : Out := .next (s.packetEvent q 6 (s.waitPacket q))

/-- A COPY. A first byte that does not answer refuses it; a later fault leaves the bytes before it written, a record on the error
queue, and no DONEEV. A page in a stack of a lost die faults with MCHECK for the context (14 R238). -/
def State.copyPacket (s : State) (q : Nat) (d : List Word) : Packet :=
  let ctx := (s.queue q).ctx.toNat
  let n := (pk d 3).toNat
  if !zeroFrom d 4 then .refused 2
  else if n = 0 then .done s
  else if (s.plinthPa ctx .read (pk d 1)).isNone ∨ (s.plinthPa ctx .write (pk d 2)).isNone then
    .refusedAfter ((s.checkRange ctx .read (pk d 1) 1).checkRange ctx .write (pk d 2) 1) 8
  else if s.rangeMoving ctx (pk d 2) n then .stays (s.noteRange ctx (pk d 2) n)
  else
    let (bs, e1) := s.readPrefix ctx (n / 65536 + 2) (pk d 1) n
    let (s1, _, e2) := State.writePrefix ctx (n / 65536 + 2) s (pk d 2) bs 0
    if e1.isNone ∧ e2.isNone then .done s1
    else .begun (((s1.errorRecord ctx 2 [BitVec.ofNat 64 q, 8, (pkTag d).setWidth 64]).checkRange ctx .read (pk d 1) (e1.elim 0 (fun _ => n))).checkRange
      ctx .write (pk d 2) (e2.elim 0 (fun _ => n)))

/-- COPY_PACKET. -/
def execCopyPacket (q : Nat) (s : State) : Out := .next (s.packetEvent q 7 (s.copyPacket q))

/-! ### WAITING queues (R107) -/

/-- QUEUE_WAKE. -/
def execQueueWake (q : Nat) (s : State) : Out :=
  let x := s.queue q
  let d := s.headPacket q
  if x.state ≠ .waiting then .next s
  else if x.onEvent then
    if x.woken then
      .next (((s.modQueue q (fun x => { x with state := .running, onEvent := false, woken := false })).clearOnWake q d).completePacket q d)
    else .next s
  else if x.pending = [] then .next ((s.modQueue q (fun x => { x with state := .running })).settleQueue q)
  else .next s

/-- WAIT_TIMEOUT. -/
def execWaitTimeout (q : Nat) (s : State) : Out :=
  let x := s.queue q
  let d := s.headPacket q
  if x.state = .waiting ∧ x.onEvent ∧ !x.woken ∧ pk d 2 ≠ 0 ∧ x.since.toNat + (pk d 2).toNat ≤ s.time.toNat then
    .next (s.refuse q 7 (pkTag d))
  else .next s

/-- Queues of a context that enters DRAINING are in ERROR with CTX_GONE, "Bound context enters DRAINING" (R107). The code is one of those of a
refused packet, so a record goes to the error queue (R116), with the head packet's TAG where there is one (log entry 41). -/
def State.queuesGone (s : State) (ctx : Nat) : State :=
  s.queues.foldl (fun s p =>
    if p.2.ctx.toNat = ctx ∧ p.2.state ≠ .disabled then
      s.refuse p.1 9 (if p.2.rptr = p.2.wptr then 0 else pkTag (s.headPacket p.1))
    else s) s

end Sys2Proof.Machine
end

