-- ==== Sys2Proof/Machine/TileRegs.lean ====
section
/-! DEFINITION. Group 0xC: tile registers (19 R347-R357). -/

namespace Sys2Proof.Machine

/-! ### Checks of register operands (11 R192) -/

/-- Whether a register's contents pass a role with K along the column axis or the row axis. -/
def State.regOk (s : State) (k n : Nat) (r : TRole) (kcol : Bool) : Bool := ((s.vs k).thdr n).roleOk r kcol s.features

/-- Steps 3 and 4 on register operands in field order. -/
def State.regChecks (s : State) (k : Nat) (ops : List (Nat × TRole × Bool)) : Res Unit :=
  match ops.find? (fun o => decide (((s.vs k).thdr o.1).efmt = 0)) with
  | some o => fault .tileUnconf (tileAddr o.1)
  | none => match ops.find? (fun o => !s.regOk k o.1 o.2.1 o.2.2) with
    | some o => fault .hdrUnsupported (tileAddr o.1)
    | none => .ok ()

/-- The contents of a register. -/
def State.tile (s : State) (k n : Nat) : Tile := (Table.find? (s.vs k).t n).getD (Tile.build 0 0 0 0 (fun _ _ => 0))

/-- Run a word with a tile-register operand: first the transfer of R200. -/
def State.runTile (s : State) (sp : Bool) (acc : Access) (srcs dsts : List Opnd) (body : State → Res State) : Out :=
  (s.bringTiles s.cur).runMem s.cur sp acc srcs dsts body

/-! ### Configuring and reading (R349-R352) -/

/-- TCFG. -/
def execTcfg (f : FR) (s : State) : Out :=
  s.runTile f.sp .read [f.a] [] (fun s => do
    let k := s.cur
    let n := f.d.tnum
    let (c, s1) ← s.src k f.a
    if fld c 5 0 = 0 then return s1.modVs k (fun r => r.clearT n)
    else
      faultIf (decide (fld c 7 6 ≠ 0) || decide (fld c 15 10 ≠ 0) || decide (fld c 63 48 ≠ 0) ||
        !regFits (fld c 5 0) (fld c 9 8) (fld c 31 16) (fld c 47 32)) .hdrUnsupported (tileAddr n)
      return s1.modVs k (fun r => r.setT n
        { efmt := fld c 5 0, swz := fld c 9 8, rows := fld c 31 16, cols := fld c 47 32, body := 0, state := .dirty }))

/-- THDR. -/
def execThdr (f : FR) (s : State) : Out :=
  s.runTile f.sp .read [f.b] [f.d] (fun s => do
    let k := s.cur
    let (i, s1) ← s.src k f.b
    s1.put k f.d (((s.vs k).thdr f.a.tnum).words.getD (i.toNat % 4) 0))

/-- TZERO. -/
def execTzero (f : FR) (s : State) : Out :=
  s.runTile f.sp .read [] [] (fun s => do
    let k := s.cur
    let n := f.d.tnum
    s.regChecks k [(n, .reg, true)]
    return s.modVs k (fun r => r.setT n { s.tile k n with body := 0, state := .dirty }))

/-- The elements of a logical row or column. -/
def Tile.line (t : Tile) (row : Bool) (i : Nat) : List Nat :=
  if row then (List.range t.cols).map (fun j => t.elem i j) else (List.range t.rows).map (fun j => t.elem j i)

/-- TROWG and TCOLG. -/
def State.readLine (s : State) (f : FR) (row : Bool) : Out :=
  s.runTile f.sp .read [f.b] [f.d] (fun s => do
    let k := s.cur
    let n := f.a.tnum
    let checks := s.regChecks k [(n, .reg, true)]
    before checks (s.handleCheck k [f.d])
    let (i, s1) ← before checks (s.src k f.b)
    checks
    let t := s1.tile k n
    faultIf (decide ((if row then t.rows else t.cols) ≤ i.toNat)) .hdrMismatch (tileAddr n)
    s1.vput k f.d 32 false (BitVec.ofNat 1024 (lanesNat (efBits t.efmt) (t.line row i.toNat))))

/-- TROWP and TCOLP: the source unit is dequeued before a fault of the tile. -/
def State.writeLine (s : State) (f : FR) (row : Bool) : Out :=
  s.runTile f.sp .read [f.a, f.b] [] (fun s => do
    let k := s.cur
    let n := f.d.tnum
    let checks := s.regChecks k [(n, .reg, true)]
    before checks (s.handleCheck k [f.a])
    let (v, s1) ← before checks (s.vsrc k 32 f.a)
    let (i, s2) ← before checks (s1.src k (s.issued k f.b))
    checks
    let t := s2.tile k n
    faultIf (decide ((if row then t.rows else t.cols) ≤ i.toNat)) .hdrMismatch (tileAddr n)
    let b := efBits t.efmt
    let t' := (List.range (if row then t.cols else t.rows)).foldl (fun t j =>
      let x := v.toNat / 2 ^ (b * j) % 2 ^ b
      if row then t.setElem i.toNat j x else t.setElem j i.toNat x) t
    return s2.modVs k (fun r => r.setT n t'))

/-- TROWG. -/
def execTrowg (f : FR) (s : State) : Out := s.readLine f true
/-- TCOLG. -/
def execTcolg (f : FR) (s : State) : Out := s.readLine f false
/-- TROWP. -/
def execTrowp (f : FR) (s : State) : Out := s.writeLine f true
/-- TCOLP. -/
def execTcolp (f : FR) (s : State) : Out := s.writeLine f false

/-! ### Tiles in memory (R353-R354) -/

/-- Where a memory tile lies for core `k`: its capability, the address of its header, whether that is a local-store offset, and
the pages translated so far. -/
structure MemTile where
  cap : XReg
  at_ : Word
  ls : Bool
  pages : List (Nat × Nat)
  deriving DecidableEq, Repr

/-- The space bit that a memory tile's capability is checked for. -/
def MemTile.space (m : MemTile) : Nat := if m.ls then pL else pG

/-- Find the pages of [a, hi) for each access, ascending: (address, physical address); the first argument bounds their number. -/
def State.findPages (k : Nat) (accs : List Access) : Nat → State → Nat → Nat → Res (List (Word × Nat) × State)
  | 0, s, _, _ => .ok ([], s)
  | f + 1, s, a, hi =>
    if hi ≤ a then .ok ([], s)
    else do
      let (pa, s1) ← accs.foldlM (fun (p : Nat × State) acc => p.2.find k acc (BitVec.ofNat 64 a)) (0, s)
      let (r, s2) ← State.findPages k accs f s1 ((a / 65536 + 1) * 65536) hi
      return ((BitVec.ofNat 64 a, pa) :: r, s2)

/-- Translate the pages of [a, hi): PAGE on every page before MCHECK on any (22 R421). -/
def State.translatePages (k : Nat) (accs : List Access) (n : Nat) (s : State) (a hi : Nat) : Res (List (Nat × Nat) × State) := do
  let (l, s1) ← State.findPages k accs n s a hi
  s1.reachable l
  return (l.map (fun p => (p.1.toNat / 65536, p.2 - p.1.toNat % 65536)), s1)

/-- Bytes [a, a + n) of a memory tile are checked and translated. -/
def State.tileSpan (s : State) (k : Nat) (m : MemTile) (need : Nat) (accs : List Access) (a n : Nat) : Res (MemTile × State) := do
  liftCap (checkCap m.cap (need + m.space) [BitVec.ofNat 64 a] n)
  if m.ls then return (m, s)
  else
    let (p, s1) ← State.translatePages k accs (n / 65536 + 2) s a (a + n)
    return ({ m with pages := m.pages ++ p }, s1)

/-- Step 1 of R192 on the header of a memory tile. -/
def State.tileAt (s : State) (k : Nat) (o : Opnd) (need : Nat) (accs : List Access) : Res (MemTile × State) := do
  let c := s.cap k o
  let m : MemTile := { cap := c, at_ := c.addr, ls := decide (c.perms &&& pL ≠ 0), pages := [] }
  liftCap (checkCap c (need + m.space) [c.addr] 32)
  faultIf (decide (c.addr.toNat % 32 ≠ 0)) .align c.addr
  s.tileSpan k m need accs c.addr.toNat 32

/-- The physical address of a byte in a translated page. -/
def MemTile.pa (m : MemTile) (a : Nat) : Nat :=
  ((m.pages.find? (fun p => decide (p.1 = a / 65536))).map (fun p => p.2 + a % 65536)).getD 0

/-- n bytes of a memory tile at offset o from its header, as core `k` sees them; the first argument bounds the pages they lie in. -/
def State.tileBytes (k : Nat) (m : MemTile) : Nat → State → Nat → Nat → List Byte × State
  | 0, s, _, _ => ([], s)
  | f + 1, s, o, n =>
    let a := m.at_.toNat + o
    if n = 0 then ([], s)
    else if m.ls then ((s.vs k).lsBytes a n, s)
    else
      let here := min n (65536 - a % 65536)
      let (bs, s1) := s.loadBytes k (m.pa a) here
      let (rest, s2) := State.tileBytes k m f s1 (o + here) (n - here)
      (bs ++ rest, s2)

/-- What local-store offsets beyond the store report (17 R309): the lowest of them. -/
def Csrs.lsReportAll (c : Csrs) (offs : List Nat) : Csrs := match (offs.filter (fun a => decide (lsSize ≤ a))) with
  | [] => c
  | a :: t => { c with lsstat := c.lsstat ||| 1, lsbad := if fbit c.lsstat 0 then c.lsbad else BitVec.ofNat 64 (t.foldl min a) }

/-- The same on core `k`, for offsets from the header of a tile in its local store. -/
def State.tileReport (s : State) (k : Nat) (m : MemTile) (offs : List Nat) : State :=
  if m.ls then s.modVs k (fun r => { r with csr := r.csr.lsReportAll (offs.map (fun o => m.at_.toNat + o)) }) else s

/-- The header of a memory tile. -/
def State.tileHeader (s : State) (k : Nat) (m : MemTile) : Hdr × State :=
  let (bs, s1) := State.tileBytes k m 2 s 0 32
  (Hdr.of ((List.range 4).map (fun i => BitVec.ofNat 64 (ofBytes (bs.drop (8 * i) |>.take 8)))),
    s1.tileReport k m (List.range 32))

/-- The bytes, from the header, that hold logical element (i, j). -/
def Hdr.bytesOf (h : Hdr) (i j : Nat) : List Nat :=
  let o := h.elemAt i j
  (List.range ((o % 8 + efBits h.efmt + 7) / 8)).map (fun x => 32 + o / 8 + x)

/-- The bytes of every element of a dense tile. -/
def Hdr.allBytes (h : Hdr) : List Nat := (positions h.shape.1 h.shape.2).flatMap (fun p => h.bytesOf p.1 p.2)

/-- Logical element (i, j) of a memory tile. -/
def State.tileElem (s : State) (k : Nat) (m : MemTile) (h : Hdr) (i j : Nat) : Nat × State :=
  let o := h.elemAt i j
  let b := efBits h.efmt
  let (bs, s1) := State.tileBytes k m 2 s (32 + o / 8) ((o % 8 + b + 7) / 8)
  (ofBytes bs / 2 ^ (o % 8) % 2 ^ b, s1)

/-- Elements of a memory tile at positions. -/
def State.tileElems (k : Nat) (m : MemTile) (h : Hdr) : List (Nat × Nat) → State → List ((Nat × Nat) × Nat) × State
  | [], s => ([], s)
  | p :: t, s =>
    let (x, s1) := s.tileElem k m h p.1 p.2
    let (r, s2) := State.tileElems k m h t s1
    ((p, x) :: r, s2)

/-- The value at a position of a list of elements. -/
def elemOf (l : List ((Nat × Nat) × Nat)) (i j : Nat) : Nat :=
  ((l.find? (fun e => decide (e.1 = (i, j)))).map Prod.snd).getD 0

/-- TLD (R353). -/
def execTld (f : FRT) (s : State) : Out :=
  s.runTile f.sp .read [] [] (fun s => do
    let k := s.cur
    let n := f.d.tnum
    let (m, s1) ← s.tileAt k f.a pR [.read]
    let (h, s2) := s1.tileHeader k m
    let hd := (s.vs k).thdr n
    faultIf (!h.good) .hdrCheck m.at_
    faultIf (decide (h.efmt = 0)) .tileUnconf m.at_
    faultIf (decide (hd.efmt = 0)) .tileUnconf (tileAddr n)
    faultIf (!h.roleOk .mem true s.features) .hdrUnsupported m.at_
    faultIf (!regFits h.efmt hd.swz h.shape.1 h.shape.2) .hdrMismatch (tileAddr n)
    faultIf (f.strict && h.strictBad) .hdrMismatch m.at_
    let (m, s3) ← s2.tileSpan k m pR [.read] (m.at_.toNat + 32) h.bodylen
    let (l, s4) := State.tileElems k m h (positions h.shape.1 h.shape.2) s3
    let s5 := s4.tileReport k m h.allBytes
    return s5.modVs k (fun r => r.setT n (Tile.build h.efmt hd.swz h.shape.1 h.shape.2 (elemOf l))))

/-- A tile's changed bytes by their offset from the header, with one element written over what stands there. -/
def putElem (h : Hdr) (img : Table Byte) (old : Nat → Byte) (i j x : Nat) : Table Byte :=
  let o := h.elemAt i j
  let cur (a : Nat) : Byte := (Table.find? img a).getD (old a)
  (h.bytesOf i j).zipIdx.foldl (fun t p =>
    let m := (2 ^ efBits h.efmt - 1) * 2 ^ (o % 8) / 2 ^ (8 * p.2) % 256
    let v := x * 2 ^ (o % 8) / 2 ^ (8 * p.2) % 256
    Table.insert t p.1 ((cur p.1 &&& ~~~(BitVec.ofNat 8 m)) ||| BitVec.ofNat 8 v)) img

/-- Changed bytes cut into runs within a granule. -/
def runsOf : List (Nat × Byte) → List (Nat × List Byte)
  | [] => []
  | (a, b) :: t => match runsOf t with
    | (c, l) :: r => if c = a + 1 ∧ c % 16 ≠ 0 then (a, b :: l) :: r else (a, [b]) :: (c, l) :: r
    | [] => [(a, [b])]

/-- The entries of runs of bytes: one for each granule. -/
def MemTile.entries (m : MemTile) : Option Nat → List (Nat × List Byte) → List Entry
  | _, [] => []
  | g, (o, l) :: t =>
    let a := m.at_.toNat + o
    (if g = some (a / 16) then .also (BitVec.ofNat 64 a) (m.pa a) l 0 else .store (BitVec.ofNat 64 a) (m.pa a) l none) :: m.entries (some (a / 16)) t

/-- TST (R354). -/
def execTst (f : FR) (s : State) : Out :=
  s.runTile f.sp .write [] [] (fun s => do
    let k := s.cur
    let n := f.a.tnum
    let (m, s1) ← s.tileAt k f.b (pR + pW) [.read, .write]
    let (h, s2) := s1.tileHeader k m
    let ht := (s.vs k).thdr n
    faultIf (!h.good) .hdrCheck m.at_
    faultIf (decide (ht.efmt = 0)) .tileUnconf (tileAddr n)
    faultIf (decide (h.efmt = 0)) .tileUnconf m.at_
    faultIf (!h.roleOk .mem true s.features) .hdrUnsupported m.at_
    faultIf (decide (h.efmt ≠ ht.efmt) || decide (h.shape ≠ ht.shape)) .hdrMismatch m.at_
    let (m, s3) ← s2.tileSpan k m (pR + pW) [.read, .write] (m.at_.toNat + 32) h.bodylen
    let t := s.tile k n
    let ps := positions t.rows t.cols
    let (old, s4) := if efBits h.efmt = 4 then
        let (l, s') := State.tileElemBytes k m (h.allBytes) s3
        (l, s')
      else ([], s3)
    let img := ps.foldl (fun img p => putElem h img (fun a => Table.get 0 old a) p.1 p.2 (t.elem p.1 p.2)) []
    let w := ({ h with filled := true, dirty := false } : Hdr).words
    let hdr := (bytesOf 8 (w.getD 1 0).toNat).zipIdx.foldl (fun t p => Table.insert t (8 + p.2) p.1) img
    let all := ((bytesOf 8 (w.getD 3 0).toNat).drop 6).zipIdx.foldl (fun t p => Table.insert t (30 + p.2) p.1) hdr
    if m.ls then
      let s5 := s4.modVs k (fun r => all.foldl (fun r p => r.lsWrite (m.at_.toNat + p.1) [p.2]) r)
      return s5.tileReport k m (all.map Prod.fst)
    else s4.enter k (m.entries none (runsOf all)))
where
  /-- The bytes at offsets from the header, as the core sees them. -/
  State.tileElemBytes (k : Nat) (m : MemTile) : List Nat → State → Table Byte × State
    | [], s => ([], s)
    | o :: t, s =>
      let (bs, s1) := State.tileBytes k m 2 s o 1
      let (r, s2) := State.tileElemBytes k m t s1
      (Table.insert r o (bs.headD 0), s2)

/-! ### Arithmetic (R355-R356) -/

/-- One element of a product (04 R85, R93): K pairs of bit patterns accumulated onto acc. -/
def accumulate (ea eb er nbv acc : Nat) (ps : List (Nat × Nat)) : Nat × Sticky :=
  match efFmt ea, efFmt eb, efFmt er with
  | some fa, some fb, some fr =>
    (blocks (ps.length + 1) ps).foldl (fun r l =>
      let (v, g) := addBlock fr nbv r.1 none (l.map (fun p => .prod (mulE (inputVal fa nbv p.1) (inputVal fb nbv p.2))))
      (v, r.2 ||| g)) (acc, 0)
  | _, _, _ => (narrow 32 (ps.foldl (fun (x : Int) p => x + efInt ea p.1 * efInt eb p.2) (acc : Int)), 0)

/-- Write a whole tile result with its FSTAT bits. -/
def State.putTile (s : State) (k n : Nat) (efmt swz m n' : Nat) (f : Nat → Nat → Nat × Sticky) : State :=
  (s.modVs k (fun r => r.setT n (Tile.build efmt swz m n' (fun i j => (f i j).1)))).raise k
    ((positions m n').foldl (fun g p => g ||| (f p.1 p.2).2) 0)

/-- Every element of a tile takes a new value, with its FSTAT bits; the other bytes of the body stay. -/
def State.updateTile (s : State) (k n : Nat) (f : Nat → Nat → Nat × Sticky) : State :=
  let t := s.tile k n
  let l := (positions t.rows t.cols).map (fun p => (p, f p.1 p.2))
  (s.modVs k (fun r => r.setT n (l.foldl (fun t p => t.setElem p.1.1 p.1.2 p.2.1) t))).raise k (l.foldl (fun g p => g ||| p.2.2) 0)

/-- TMMA (R355). -/
def execTmma (f : FR) (s : State) : Out :=
  s.runTile f.sp .read [] [] (fun s => do
    let k := s.cur
    let (na, nb, nd) := (f.a.tnum, f.b.tnum, f.d.tnum)
    s.regChecks k [(na, .left, true), (nb, .right, false), (nd, .reg, true)]
    let (ta, tb, td) := (s.tile k na, s.tile k nb, s.tile k nd)
    match productEfmt ta.efmt tb.efmt with
    | none => fault .hdrUnsupported (tileAddr nb)
    | some e =>
      faultIf (decide (ta.cols ≠ tb.rows)) .hdrMismatch (tileAddr nb)
      faultIf (decide (td.efmt ≠ e ∨ td.rows ≠ ta.rows ∨ td.cols ≠ tb.cols)) .hdrMismatch (tileAddr nd)
      let nbv := fld (s.vs k).csr.nbv 3 0
      return s.updateTile k nd (fun i j =>
        accumulate ta.efmt tb.efmt e nbv (td.elem i j) ((List.range ta.cols).map (fun x => (ta.elem i x, tb.elem x j)))))

/-- An overwriting form's result must fit its destination (R191). -/
def State.overwrite (s : State) (k nd efmt m n : Nat) (f : Nat → Nat → Nat × Sticky) : Res State := do
  let td := s.tile k nd
  faultIf (!regFits efmt td.swz m n) .hdrMismatch (tileAddr nd)
  return s.putTile k nd efmt td.swz m n f

/-- TADD. -/
def execTadd (f : FR) (s : State) : Out :=
  s.runTile f.sp .read [] [] (fun s => do
    let k := s.cur
    let (na, nb, nd) := (f.a.tnum, f.b.tnum, f.d.tnum)
    s.regChecks k [(na, .reg, true), (nb, .reg, true), (nd, .reg, true)]
    let (ta, tb) := (s.tile k na, s.tile k nb)
    faultIf (!addEfmt ta.efmt) .hdrUnsupported (tileAddr na)
    faultIf (decide (tb.efmt ≠ ta.efmt)) .hdrUnsupported (tileAddr nb)
    faultIf (decide (tb.rows ≠ ta.rows ∨ tb.cols ≠ ta.cols)) .hdrMismatch (tileAddr nb)
    s.overwrite k nd ta.efmt ta.rows ta.cols (fun i j => match efFmt ta.efmt with
      | some t => fadd t .rne false (ta.elem i j) (tb.elem i j)
      | none => ((ta.elem i j + tb.elem i j) % 2 ^ efBits ta.efmt, 0)))

/-- TSCL. -/
def execTscl (f : FR) (s : State) : Out :=
  s.runTile f.sp .read [f.b] [] (fun s => do
    let k := s.cur
    let (na, nd) := (f.a.tnum, f.d.tnum)
    let checks := s.regChecks k [(na, .reg, true), (nd, .reg, true)]
    let early := do
      checks
      faultIf (!addEfmt (s.tile k na).efmt) .hdrUnsupported (tileAddr na)
    let (b, s1) ← before early (s.src k f.b)
    checks
    let ta := s1.tile k na
    faultIf (!addEfmt ta.efmt) .hdrUnsupported (tileAddr na)
    let w := efBits ta.efmt
    let x := b.toNat % 2 ^ w
    s1.overwrite k nd ta.efmt ta.rows ta.cols (fun i j => match efFmt ta.efmt with
      | some t => fmul t .rne false (ta.elem i j) x
      | none => (narrow w (efInt ta.efmt (ta.elem i j) * efInt ta.efmt x), 0)))

/-- TTRN. -/
def execTtrn (f : FR) (s : State) : Out :=
  s.runTile f.sp .read [] [] (fun s => do
    let k := s.cur
    let (na, nd) := (f.a.tnum, f.d.tnum)
    s.regChecks k [(na, .reg, true), (nd, .reg, true)]
    let ta := s.tile k na
    faultIf (!addEfmt ta.efmt) .hdrUnsupported (tileAddr na)
    s.overwrite k nd ta.efmt ta.cols ta.rows (fun i j => (ta.elem j i, 0)))

/-! ### TCHK (R357) -/

/-- The role of a code, with its K axis and whether it is strict. -/
def roleOf : Nat → Option (TRole × Bool × Bool)
  | 0 => some (.reg, true, false)
  | 1 => some (.mem, true, false)
  | 2 => some (.left, true, false)
  | 3 => some (.right, false, false)
  | 4 => some (.feature, false, false)
  | 5 => some (.weight, true, false)
  | 6 => some (.edges, true, false)
  | 7 => some (.fill, true, false)
  | 8 => some (.mem, true, true)
  | 9 => some (.fill, false, false)
  | _ => none

/-- What TCHK puts for a header in memory. -/
def checkCode (h : Hdr) (role : Option (TRole × Bool × Bool)) (features : Word) (c : XReg) : Nat := match role with
  | none => 0x0B
  | some (r, kcol, strict) =>
    if !h.good then 0x09
    else if h.efmt = 0 then 0x0C
    else if !h.roleOk r kcol features then 0x0B
    else if strict && h.strictBad then 0x0A
    else if (h.parts kcol).any (fun p => c.outside (c.addr + BitVec.ofNat 64 p.1) p.2) then 0x05
    else 0

/-- TCHK. -/
def execTchk (f : FR) (s : State) : Out :=
  match f.a with
  | .v _ =>
    s.runTile f.sp .read [f.b] [f.d] (fun s => do
      let k := s.cur
      let n := f.a.tnum
      let (b, s1) ← s.src k f.b
      let code := if ((s.vs k).thdr n).efmt = 0 then 0x0C else match roleOf b.toNat with
        | none => 0x0B
        | some (r, kcol, strict) =>
          if !s.regOk k n r kcol || (strict && ((s.vs k).thdr n).strictBad) then 0x0B else 0
      s1.put k f.d (BitVec.ofNat 64 code))
  | _ =>
    s.runMem s.cur f.sp .read [f.b] [f.d] (fun s => do
      let k := s.cur
      let (m, s1) ← s.tileAt k f.a pR [.read]
      let (b, s2) ← s1.src k f.b
      let (h, s3) := s2.tileHeader k m
      s3.put k f.d (BitVec.ofNat 64 (checkCode h (roleOf b.toNat) s.features m.cap)))

end Sys2Proof.Machine
end

