-- ==== Sys2Proof/Machine/Jobs.lean ====
section
/-! DEFINITION. What the engines share: reading memory as an agent without a phase buffer (21 R411), the checks of tiles in memory by
11 R192, the elements and scales of an operand in every layout (11 R182-R187), and the record that ends a command (19 R366, 20 R400). -/

namespace Sys2Proof.Machine

/-! ### Reading and writing (21 R406, R411) -/

/-- A failure of a command: the fault code, the operand number of 19 R366, the data address. -/
abbrev JFail := FCode × Nat × Word

/-- An engine at work: the package, and what the command's one phase has fixed. -/
structure Eng where
  s : State
  w : View
  deriving DecidableEq, Repr

/-- What a part of a command gives. -/
abbrev JRes := Except JFail

/-- Fail where a condition holds. -/
def failIf (b : Bool) (f : JFail) : JRes Unit := if b then .error f else .ok ()

/-- The accesses that permission bits ask for. -/
def accessesOf (need : Nat) : List Access :=
  (if need &&& pR ≠ 0 then [.read] else []) ++ (if need &&& pW ≠ 0 then [.write] else [])

/-- The physical address of a command's access for operand `op`. -/
def State.reach (s : State) (ctx op need : Nat) (va : Word) : JRes Nat :=
  if (accessesOf need).any (fun a => (s.vaToPa ctx a va).isNone) then .error (.page, op, va)
  else match s.vaToPa ctx ((accessesOf need).headD .read) va with
    | none => .error (.page, op, va)
    | some pa => if s.lostMemory pa then .error (.mcheck, op, va) else .ok pa

/-- Every page of [va, va + n) answers; the first argument bounds their number. -/
def State.reachAll (s : State) (ctx op need : Nat) : Nat → Word → Nat → JRes Unit
  | 0, _, _ => .ok ()
  | f + 1, va, n =>
    if n = 0 then .ok ()
    else do
      let _ ← s.reach ctx op need va
      let m := min n (65536 - va.toNat % 65536)
      s.reachAll ctx op need f (va + BitVec.ofNat 64 m) (n - m)

/-- Bytes at a physical address, read in the phase of a command of a context. -/
def Eng.load (m : Eng) (r : Reader) (ctx pa n : Nat) : List Byte × Eng :=
  let (bs, w, s) := State.loadIn r (n / 16 + 2) m.s m.w pa n
  (bs, { s := s.readReturn ctx, w })

/-- Bytes at a virtual address, page by page, up to the first that fails; the first argument bounds their number. -/
def Eng.readPrefix (r : Reader) (ctx op : Nat) : Nat → Eng → Word → Nat → List Byte × Option JFail × Eng
  | 0, m, _, _ => ([], none, m)
  | f + 1, m, va, n =>
    if n = 0 then ([], none, m)
    else match m.s.reach ctx op pR va with
      | .error e => ([], some e, m)
      | .ok pa =>
        let k := min n (65536 - va.toNat % 65536)
        let (bs, m1) := m.load r ctx pa k
        let (rest, e, m2) := Eng.readPrefix r ctx op f m1 (va + BitVec.ofNat 64 k) (n - k)
        (bs ++ rest, e, m2)

/-- Bytes at a virtual address, all of them. -/
def Eng.read (m : Eng) (r : Reader) (ctx op : Nat) (va : Word) (n : Nat) : JRes (List Byte × Eng) :=
  match Eng.readPrefix r ctx op (n / 65536 + 2) m va n with
  | (_, some e, _) => .error e
  | (bs, none, m1) => .ok (bs, m1)

/-- Bytes written to a virtual address, page by page, up to the first that fails, with how many were written. The command's later reads
see them (P1). -/
def Eng.writePrefix (ctx op : Nat) : Nat → Eng → Word → List Byte → Nat → Nat × Option JFail × Eng
  | 0, m, _, _, done => (done, none, m)
  | f + 1, m, va, bs, done =>
    if bs.isEmpty then (done, none, m)
    else match m.s.reach ctx op pW va with
      | .error e => (done, some e, m)
      | .ok pa =>
        let k := min bs.length (65536 - va.toNat % 65536)
        let m1 : Eng := { s := m.s.write pa (bs.take k), w := { m.w with bytes := fixBytes m.w.bytes pa (bs.take k) } }
        Eng.writePrefix ctx op f m1 (va + BitVec.ofNat 64 k) (bs.drop k) (done + k)

/-- Bytes written to a virtual address, all of them. -/
def Eng.write (m : Eng) (ctx op : Nat) (va : Word) (bs : List Byte) : JRes Eng :=
  match Eng.writePrefix ctx op (bs.length / 65536 + 2) m va bs 0 with
  | (_, some e, _) => .error e
  | (_, none, m1) => .ok m1

/-! ### Descriptors -/

/-- The doublewords of a descriptor of n granules, with the granules' tags (19 R362). -/
def Eng.descriptor (m : Eng) (r : Reader) (ctx pa : Nat) : Nat → List Word × List Bool × Eng
  | 0 => ([], [], m)
  | n + 1 =>
    let (ws, ts, m1) := m.descriptor r ctx pa n
    let (bs, t, w, s) := m1.s.loadPiece r m1.w true (pa + 16 * n) 16
    let g := BitVec.ofNat 128 (ofBytes bs)
    (ws ++ [g.setWidth 64, (g >>> 64).setWidth 64], ts ++ [t], { s := s.readReturn ctx, w })

/-- The capability in granule i of a descriptor. -/
def granuleCap (ws : List Word) (ts : List Bool) (i : Nat) : XReg := XReg.ofWords (ws.getD (2 * i) 0) (ws.getD (2 * i + 1) 0) (ts.getD i false)

/-- A check of 03 R48 for operand `op`. -/
def jcap (op : Nat) (e : Except (FCode × Word) Unit) : JRes Unit := match e with
  | .ok _ => .ok ()
  | .error (f, a) => .error (f, op, a)

/-! ### Tiles in memory (11 R192-R193) -/

/-- A tile operand whose header has been read: its operand number, its capability and the rights it needs, its role with its K axis,
and its header. -/
structure EOp where
  op : Nat
  cap : XReg
  need : Nat
  role : TRole
  kcol : Bool
  hdr : Hdr
  deriving DecidableEq, Repr

/-- The virtual address of its header. -/
def EOp.va (o : EOp) : Word := o.cap.addr

/-- Step 1 of R192. -/
def Eng.header (m : Eng) (r : Reader) (ctx op : Nat) (cap : XReg) (need : Nat) (role : TRole) (kcol : Bool) : JRes (EOp × Eng) := do
  jcap op (checkCap cap (need + pG) [cap.addr] 32)
  failIf (decide (cap.addr.toNat % 32 ≠ 0)) (.align, op, cap.addr)
  let pa ← m.s.reach ctx op need cap.addr
  let (bs, m1) := m.load r ctx pa 32
  return ({ op, cap, need, role, kcol,
            hdr := Hdr.of ((List.range 4).map (fun i => BitVec.ofNat 64 (ofBytes ((bs.drop (8 * i)).take 8)))) }, m1)

/-- The headers of operands in the order of the descriptor. -/
def Eng.headers (r : Reader) (ctx : Nat) : List (Nat × XReg × Nat × TRole × Bool) → Eng → JRes (List EOp × Eng)
  | [], m => .ok ([], m)
  | (op, cap, need, role, kcol) :: t, m => do
    let (o, m1) ← m.header r ctx op cap need role kcol
    let (rest, m2) ← Eng.headers r ctx t m1
    return (o :: rest, m2)

/-- The first operand, in field order, of which something holds, fails with a code at its header. -/
def failFirst (ops : List EOp) (bad : EOp → Bool) (f : FCode) : JRes Unit := match ops.find? bad with
  | some o => .error (f, o.op, o.va)
  | none => .ok ()

/-- Step 8 of R192 on the parts that the headers fix: the bounds of every operand, then its pages. -/
def State.checkBodies (s : State) (ctx : Nat) (ops : List EOp) : JRes Unit := do
  for o in ops do
    for p in o.hdr.parts o.kcol do
      jcap o.op (checkCap o.cap (o.need + pG) [o.va + BitVec.ofNat 64 p.1] p.2)
  for o in ops do
    for p in o.hdr.parts o.kcol do
      s.reachAll ctx o.op o.need (p.2 / 65536 + 2) (o.va + BitVec.ofNat 64 p.1) p.2

/-! ### The elements of an operand (11 R182-R187) -/

/-- An operand's parts, read: the body, the scale block, the metadata with the column indices of a row-compressed tile, each as one
number; `open_` is what a scale beyond the block reads as, a free value. -/
structure Oprd where
  hdr : Hdr
  kcol : Bool
  body : Nat
  scale : Nat
  info : Nat
  open_ : Nat
  deriving DecidableEq, Repr

/-- n bits at a bit offset of a number. -/
def bitsAt (x off n : Nat) : Nat := x / 2 ^ off % 2 ^ n

/-- Row start r of a row-compressed tile. -/
def Oprd.rowStart (x : Oprd) (r : Nat) : Nat := bitsAt x.info (32 * r) 32
/-- Column index n. -/
def Oprd.colIndex (x : Oprd) (n : Nat) : Nat := bitsAt x.info (32 * (x.hdr.rows + 1) + 16 * n) 16

/-- The 16 × 16 sub-tiles of a stored extent, in a row. -/
def Oprd.subCols (x : Oprd) : Nat := up (x.hdr.extent x.kcol).2 16
/-- How many sub-tiles before the n-th are present. -/
def Oprd.present (x : Oprd) (n : Nat) : Nat := ((List.range n).filter (fun i => x.info.testBit i)).length

/-- The bit patterns stored at a stored position of a tile that is not 2:4 sparse; none at a structural zero. -/
def Oprd.stored (x : Oprd) (r c : Nat) : List Nat :=
  let b := efBits x.hdr.efmt
  match x.hdr.spar with
  | 2 =>
    let n := r / 16 * x.subCols + c / 16
    if x.info.testBit n then [bitsAt x.body (x.present n * 256 * b + (r % 16 * 16 + c % 16) * b) b] else []
  | 3 =>
    (((List.range (x.rowStart (r + 1) - x.rowStart r)).map (x.rowStart r + ·)).filter (fun n => decide (x.colIndex n = c))).map
      (fun n => bitsAt x.body (n * b) b)
  | _ => [bitsAt x.body (x.hdr.bitAt r c) b]

/-- The bit patterns at logical position (m, k) of an operand. -/
def Oprd.codes (x : Oprd) (m k : Nat) : List Nat :=
  let place (k : Nat) : Nat × Nat := if x.hdr.kStored x.kcol then (m, k) else (k, m)
  if x.hdr.spar = 1 then
    let j := k / 4
    let n := bitsAt x.info (4 * (m * (x.hdr.km x.kcol).1 / 4 + j)) 4
    ([0, 1].filter (fun i => decide (n / 4 ^ i % 4 = k % 4))).map
      (fun i => bitsAt x.body (x.hdr.bitAt (place (2 * j + i)).1 (place (2 * j + i)).2) (efBits x.hdr.efmt))
  else x.stored (place k).1 (place k).2

/-- The index of the group that holds (m, k) in the scale block (R186). -/
def Oprd.groupOf (x : Oprd) (m k : Nat) : Nat := m * ((x.hdr.km x.kcol).1 / x.hdr.group) + k / x.hdr.group

/-- The FP16 scale of a group. -/
def Oprd.groupScale (x : Oprd) (m k : Nat) : Nat := bitsAt x.scale ((if x.hdr.slay = 4 then 32 else 16) * x.groupOf m k) 16

/-- The zero point of a group (04 R75). -/
def Oprd.zeroPoint (x : Oprd) (m k : Nat) : Int := match x.hdr.zpf with
  | 0 =>
    let z := bitsAt x.scale (32 * x.groupOf m k + 16) 8
    if z < 128 then z else (z : Int) - 256
  | 1 => if x.hdr.efmt = 13 then 128 else 8
  | _ => 0

/-- The values at a logical position that enter a product: q − z for a quantised operand (04 R76), else the element's value. -/
def Oprd.values (x : Oprd) (nbv m k : Nat) : List FVal :=
  (x.codes m k).map (fun q => match efFmt x.hdr.efmt with
    | some f => inputVal f nbv q
    | none => FVal.ofInt (if efQa x.hdr.efmt then (q : Int) - x.zeroPoint m k else efInt x.hdr.efmt q))

/-- The scale of SLAY 1, 2 or 3 for a row or a column: the number in the block, or the free value beyond it. -/
def Oprd.lineScale (x : Oprd) (i : Nat) : Option FVal := match x.hdr.slay with
  | 1 => some (Fmt.f32.decode (bitsAt x.scale 0 32))
  | 2 => some (Fmt.f16.decode (if i < x.hdr.rows then bitsAt x.scale (16 * i) 16 else x.open_ % 2 ^ 16))
  | 3 => some (Fmt.f16.decode (if i < x.hdr.cols then bitsAt x.scale (16 * i) 16 else x.open_ % 2 ^ 16))
  | _ => none

/-- Read a part of an operand as a number. -/
def Eng.part (m : Eng) (r : Reader) (ctx : Nat) (o : EOp) (off n : Nat) : JRes (Nat × Eng) := do
  let (bs, m1) ← m.read r ctx o.op (o.va + BitVec.ofNat 64 off) n
  return (ofBytes bs, m1)

/-- Read the metadata of an operand, with its column indices, and check it (R187). -/
def Eng.metadata (m : Eng) (r : Reader) (ctx : Nat) (o : EOp) : JRes (Nat × Eng) := do
  let h := o.hdr
  let b := efBits h.efmt
  let bad : JFail := (.engine, o.op, 0)
  let x0 : Oprd := { hdr := h, kcol := o.kcol, body := 0, scale := 0, info := 0, open_ := 0 }
  let (i, m1) ← m.part r ctx o h.metaoff (if h.spar = 0 then 0 else h.metaLen o.kcol)
  let x := { x0 with info := i }
  match h.spar with
  | 2 =>
    failIf (decide (h.bodylen * 8 < x.present (up (h.extent o.kcol).1 16 * x.subCols) * 256 * b)) bad
    return (i, m1)
  | 3 =>
    let top := h.bodylen * 8 / b
    failIf ((List.range h.rows).any (fun j => decide (x.rowStart (j + 1) < x.rowStart j)) ||
      (List.range (h.rows + 1)).any (fun j => decide (top < x.rowStart j))) bad
    let n := x.rowStart h.rows
    let off := h.metaoff + 4 * (h.rows + 1)
    failIf (!disjoint ([(0, 32), (32, h.bodylen), (off, 2 * n)] ++ (if h.slay = 0 then [] else [(h.scaleoff, h.scaleLen o.kcol)]))) bad
    jcap o.op (checkCap o.cap (o.need + pG) [o.va + BitVec.ofNat 64 off] (2 * n))
    let (c, m2) ← m1.part r ctx o off (2 * n)
    let y := { x0 with info := i + c * 2 ^ (32 * (h.rows + 1)) }
    failIf ((List.range n).any (fun j => decide (h.cols ≤ y.colIndex j))) bad
    return (y.info, m2)
  | _ => return (i, m1)

/-- Read an operand. -/
def Eng.operand (m : Eng) (r : Reader) (ctx : Nat) (o : EOp) : JRes (Oprd × Eng) := do
  let (info, m1) ← m.metadata r ctx o
  let (body, m2) ← m1.part r ctx o 32 o.hdr.bodylen
  let (scale, m3) ← m2.part r ctx o o.hdr.scaleoff (o.hdr.scaleLen o.kcol)
  return ({ hdr := o.hdr, kcol := o.kcol, body, scale, info, open_ := Config.scaleBeyond m3.s.free },
    { m3 with s := { m3.s with free := m3.s.free + 1 } })

/-! ### Sums of products (04 R85, R93) -/

/-- One output element: products over K indices k0, k0 + 1, …, in blocks of sixteen, added to an accumulator of format f; `scale` gives the
group scale of the block that begins at an index. -/
def sumBlocks (f : Fmt) (nbv : Nat) (scale : Nat → Option Nat) (p : Nat → Term) (k0 : Nat) : Nat → Nat → Nat → Nat × Sticky
  | 0, _, acc => (acc, 0)
  | n + 1, len, acc =>
    let (v, g) := addBlock f nbv acc (scale k0) ((List.range (min 16 len)).map (fun i => p (k0 + i)))
    let (w, g') := sumBlocks f nbv scale p (k0 + 16) n (len - 16) v
    (w, g ||| g')

/-! ### Completion (19 R366, 20 R400, 22 R423) -/

/-- How a command ends. -/
inductive Ending where
  | done
  | failed (f : JFail)
  | cancelled
  deriving DecidableEq, Repr

/-- Its status in the record. -/
def Ending.status : Ending → Nat
  | .done => 0
  | .failed f => f.1.code
  | .cancelled => 0xFF
/-- Its operand number. -/
def Ending.operand : Ending → Nat
  | .failed f => f.2.1
  | _ => 0
/-- Its data address. -/
def Ending.addr : Ending → Word
  | .failed f => f.2.2
  | _ => 0
/-- The state of its id (19 R361). -/
def Ending.nibble : Ending → Nat
  | .done => 4
  | .failed _ => 5
  | .cancelled => 6
/-- Whether it failed. -/
def Ending.bad : Ending → Bool
  | .failed _ => true
  | _ => false

/-- The record of a command of core `k`'s virtual core v: its wake where it asks for one that can be trusted, else a dead letter for a
command that failed. -/
def State.report (s : State) (k ctx : Nat) (v : VCore) (wake : Bool × Nat × Nat × Nat) (trusted : Bool) (e : Ending) (regs : List XReg) : State :=
  if !trusted ∨ (!wake.1 ∧ e.bad) then s.engineLetter k ctx v regs wake.2.2.2 e.status e.addr
  else if wake.1 then s.sendWake k ctx v wake.2.1 wake.2.2.1 wake.2.2.2 regs
  else s

/-- A job ends: its nibble, its record, its wake. -/
def State.endJob (s : State) (j : Job) (ws : List Word) (trusted : Bool) (e : Ending) (x3 : Nat) (g : Sticky) : State :=
  let x5 := if j.edge then ws.getD 10 0 else BitVec.ofNat 64 (fld (ws.getD 6 0) 43 24)
  let regs := recordRegs (recordHead j.id (if j.edge then 2 else 1) e.status e.operand g) e.addr (BitVec.ofNat 64 x3) j.vcore x5 s.time
  (s.setJobWin j.core j.ctx j.svc j.id e.nibble).report j.core j.ctx j.vcore (wakeOf j.edge ws) trusted e regs

end Sys2Proof.Machine
end

