-- ==== Sys2Proof/Machine/FaultService.lean ====
section
/-! DEFINITION. What serves a context's misses, faults and events: the toll core (13 R222-R224, R464), the fault actor (05 R99-R101, R462,
22 R420), the rings' readers (06 R120), and the moving of pages (13 R227-R229). -/

namespace Sys2Proof.Machine

/-! ### Misses (R222-R223) -/

/-- A leaf serves the access that core `k` waits for (R222), and its wait is sampled (23 R433). -/
def State.missFilled (s : State) (k : Nat) (va : Word) (l : Leaf) : State :=
  (s.fillTlbs k va l).sample (s.ctxOf k) 8 (BitVec.ofNat 64 (s.cycle - (s.core k).waitFrom))

/-- The access that waits goes on: it is executed again, or raises PAGE where it has no right. -/
def State.afterMiss (s : State) (k : Nat) (va : Word) (acc : Access) (ok : Bool) : State :=
  let s1 := s.modCore k (fun c => { c with run := .running })
  if ok then s1 else s1.takeFault k .page va (s.core k).unitAt acc

/-- TLB_MISS_SERVICE. -/
def execTlbMissService (c : Nat) (s : State) : Out :=
  let x := s.core c
  let ctx := s.ctxOf c
  match x.run with
  | .waiting (.tlb va acc) _ =>
    if x.tlbfill then
      if (s.ctx ctx).asks.any (fun a => decide (a.2 = .tlb c)) then .next s
      else .next (s.missRecord c va acc (.tlb c))
    else match s.walk ctx va with
      | .leaf _ l => if l.admits acc then .next ((s.missFilled c va l).afterMiss c va acc true) else .next (s.afterMiss c va acc false)
      | _ => .next (s.afterMiss c va acc false)
  | _ => .next s

/-! ### PAGE (R224, R464, 22 R420) -/

/-- An aborted firing is replayed (09 R154). -/
def State.replayAborted (s : State) (k : Nat) (a : Aborted) : State :=
  s.modCore k (fun c => Core.requeue { c with aborted := c.aborted.erase a } a.firing)

/-- An aborted firing is Ended by its fault (22 R419-R420), in the mode in which its service began: the host's where it was asked (05 R98). -/
def State.endAborted (s : State) (k : Nat) (a : Aborted) (code : FCode) : State :=
  let f := a.firing
  let ctx := s.ctxOf k
  let trig := (s.core k).trigger f
  let s1 := s.modCore k (fun c => { c with aborted := c.aborted.erase a })
  let (dl, s2) := match trig with
    | some m =>
      let (n, t) := s1.deadLetter ctx (lows m.regs) (s1.coordW k) (BitVec.ofNat 64 m.hidx) (BitVec.ofNat 64 code.code)
      (some n, t)
    | none => (none, s1)
  let s3 := if f.svc then s2 else s2.ctxEvent ctx
    { regs := eventRegs code.code (s2.coordW k) a.va a.addr f.committed dl s2.time, launch := f.launch,
      fault := a.seq.isSome || a.refused, fromSvc := false }
  let s4 := (s3.releaseFiring k f).leaveSvc k
  if f.svc then s4.haltCtx ctx 1 else s4

/-- A leaf that replaces an entry: new frame, rights and PST, the software bits kept. -/
def leafFrom (e : Word) (frame : Nat) (pr pw px : Bool) (shr : Bool) (pst : Nat) : Word :=
  leafWord frame pr pw px shr ||| BitVec.ofNat 64 (pst % 4 * 64 + fld e 63 56 * 2 ^ 56)

/-- Whether a demand entry's rights include those that an access needs. -/
def demandAdmits (e : Word) (acc : Access) : Bool := admits (fbit e 2) (fbit e 3) (fbit e 4) acc

/-- PAGE_SERVICE: the toll core serves the firing that has waited longest on core c. A walk that ends at a demand entry whose rights suffice
is the one case in which it maps a page and the firing is replayed; "in every other case" the firing is Ended (R464). -/
def execPageService (c : Nat) (s : State) : Out :=
  let ctx := s.ctxOf c
  match (s.core c).aborted.find? (fun a => a.seq.isNone) with
  | none => .next s
  | some a =>
    if a.refused ∨ 2 ^ 56 ≤ a.va.toNat ∨ (s.ctx ctx).state = .draining then .next (s.endAborted c a .page)
    else match s.tableWalk ctx a.va with
      | .demand at_ lv e =>
        let n := 2 ^ pageLog lv
        if !demandAdmits e a.acc then .next (s.endAborted c a .page)
        else match s.takeFrame n 0 memTop with
          | none => .next (s.endAborted c a .page)
          | some (fr, s1) =>
            let lo := a.va.toNat / n * n
            .next ((((s1.zeroFrame fr n).writeWord at_ (leafFrom e fr (fbit e 2) (fbit e 3) (fbit e 4) false 0)).dropTlb ctx lo
              (lo + n)).replayAborted c a)
      | _ => .next (s.endAborted c a .page)

/-! ### The fault actor (05 R99-R101, R462) -/

/-- The fault actor, where it can fire now (R101). -/
def Ctx.faultActor (x : Ctx) : Option Binding := if x.faultV then x.bindingOf x.faultIdx.toNat else none

/-- Whether a core of a context holds a firing of the fault actor. -/
def State.serving (s : State) (ctx : Nat) : Bool := s.cores.any (fun p => decide (p.2.ctx = some ctx) && p.2.holders.any Firing.svc)

/-- Whether a core can take a firing of a context's fault actor: it serves a group of the context, or nothing. -/
def State.canServe (s : State) (ctx c : Nat) : Bool :=
  let x := s.core c
  !(s.die (coreDie c)).lost && !x.barred && (decide (x.ctx = none) || (decide (x.ctx = some ctx) && x.preempt.isNone))

/-- The first event of the context leaves the queue. -/
def Ctx.popEvent (x : Ctx) : Ctx := { x with pending := x.pending.tail }

/-- FAULT_ACTOR_FIRE: the next event of a context is delivered, to the error queue or to the fault actor on core c. -/
def execFaultActorFire (ctx c : Nat) (s : State) : Out :=
  let x := s.ctx ctx
  match x.pending with
  | [] => .next s
  | e :: _ =>
    if x.state = .free ∨ x.state = .building ∨ x.state = .draining ∨ x.state = .halted then .next s
    else if e.fault then .next ((s.modCtx ctx Ctx.popEvent).errorRecord ctx 1 e.regs)
    else match x.faultActor with
      | none => .next (s.haltCtx ctx 2)
      | some b =>
        if x.state ≠ .live ∨ s.serving ctx ∨ !s.canServe ctx c then .next s
        else
          let f := Firing.new (.actor b) 0 e.launch true
            ((padTo 8 e.regs).map XReg.plain ++ [XReg.zero, s.argCap e.launch]) [] []
          .next ((s.modCtx ctx Ctx.popEvent).modCore c (fun y => Core.enqueue { y with ctx := some ctx } f))

/-! ### The rings' readers (06 R120) -/

/-- RCOUNT is read again, and the records that waited are written while there is room. -/
def State.pollRing (s : State) (ctx : Nat) (r : RingKind) : State :=
  match s.vaToPa ctx .read (((s.ctx ctx).ring r).base + 8) with
  | none => s
  | some pa =>
    let s1 := s.modCtx ctx (fun x => x.setRing r { x.ring r with rcount := s.word pa })
    State.ringFlush ctx r ((s1.ctx ctx).ring r).waiting.length s1

/-- RING_RCOUNT_POLL, while a ring is full. A dead letter that halted its context waits for RESUME (05 R101). -/
def execRingRcountPoll (ctx : Nat) (r : RingKind) (s : State) : Out :=
  let x := s.ctx ctx
  if x.state = .free ∨ x.state = .building ∨ (x.ring r).room ∧ (x.ring r).waiting.isEmpty ∨ r = .deadLetter ∧ x.state = .halted then .next s
  else .next (s.pollRing ctx r)

/-! ### Moving pages (13 R227-R228) -/

/-- n bytes of memory with their tags, as they stand, into a fresh frame. -/
def State.copyFrame (s : State) (src dst n : Nat) : State :=
  let s1 := s.zeroFrame dst n
  { s1 with
    mem := (s.mem.filter (fun c => decide (src ≤ c.1) && decide (c.1 < src + n))).foldl
      (fun m c => Table.set Memory.default m (c.1 - src + dst) c.2) s1.mem,
    tags := (s.tags.filter (fun t => decide (src ≤ 16 * t.1) && decide (16 * t.1 < src + n))).foldl
      (fun m t => Table.set false m (t.1 - src / 16 + dst / 16) t.2) s1.tags }

/-- A physical address that lay in a frame now lies in another. -/
def movePa (src dst n pa : Nat) : Nat := if src ≤ pa ∧ pa < src + n then pa - src + dst else pa

/-- A page of a context that moves: its virtual address, its old frame, its new frame, its size. -/
structure Shift where
  ctx : Nat
  va : Nat
  src : Nat
  dst : Nat
  n : Nat
  deriving DecidableEq, Repr

/-- Where a physical address that stands for a virtual one of a context lies after the move. -/
def Shift.at_ (m : Shift) (ctx : Nat) (va : Word) (pa : Nat) : Nat :=
  if m.ctx = ctx ∧ m.va ≤ va.toNat ∧ va.toNat < m.va + m.n then movePa m.src m.dst m.n pa else pa

/-- A buffered store goes where its page now is: "applied to the new frame" (R228). -/
def Entry.moved (m : Shift) (ctx : Nat) : Entry → Entry
  | .store va pa bs tag => .store va (m.at_ ctx va pa) bs tag
  | .also va pa bs cost => .also va (m.at_ ctx va pa) bs cost
  | .atomic va pa w op v c => .atomic va (m.at_ ctx va pa) w op v c
  | .job e pa va id nbv v was => .job e (m.at_ ctx va pa) va id nbv v was
  | .copy k pa va id ev was => .copy k (m.at_ ctx va pa) va id ev was
  | e => e

/-- What holds the physical address of a moved page holds its new one. -/
def State.follow (s : State) (m : Shift) : State :=
  let job (j : Job) : Job := { j with desc := m.at_ j.ctx j.descVa j.desc }
  let cmd (c : CopyCmd) : CopyCmd := { c with desc := m.at_ c.ctx c.descVa c.desc }
  { s with
    cores := s.cores.map (fun p => (p.1, { p.2 with buffer := p.2.buffer.map (Entry.moved m (p.2.ctx.getD 0)) })),
    clusters := s.clusters.map (fun p => (p.1, { p.2 with queue := p.2.queue.map job })),
    engines := s.engines.map (fun p => (p.1, { p.2 with queue := p.2.queue.map cmd })) }

/-- The address of the entry of a level for a virtual address, where the tables reach there. -/
def State.entryFrom (s : State) (va : Word) (stop : Nat) : Nat → Nat → Option Nat
  | 0, table => some (table + 8 * vaIndex va 0)
  | n + 1, table =>
    let a := table + 8 * vaIndex va (n + 1)
    if n + 1 = stop then some a
    else match nextOf (n + 1) (s.word a) with
      | some t => s.entryFrom va stop n t
      | none => none

/-- The level-0 entries of a 2 MiB range with their addresses, where every page of it is a 64 KiB leaf. -/
def State.leaves32 (s : State) (ctx : Nat) (va : Word) : Option (List (Nat × Word × Leaf)) :=
  let l := (List.range 32).filterMap (fun i => match s.tableWalk ctx (va + BitVec.ofNat 64 (65536 * i)) with
    | .leaf a x => if x.size = 0 then some (a, s.word a, x) else none
    | _ => none)
  if l.length = 32 then some l else none

/-- The stack of a physical address: 48 GiB each (01 R19). -/
def stackOf (pa : Nat) : Nat := pa / 0xC00000000

/-- Whether a frame overlaps the casts of a live launch, which its bind records name by their physical address (08 R144, log entry 12). -/
def State.inCasts (s : State) (a n : Nat) : Bool := s.launches.any (fun p => match p.2.cast with
  | some b => p.2.live && decide (a < b + p.2.w * p.2.h * castArea) && decide (b < a + n)
  | none => false)

/-- Whether the leaves of a range make it a candidate (R227). -/
def candidate (l : List (Nat × Word × Leaf)) : Bool := match l with
  | [] => false
  | (_, e, x) :: _ => l.all (fun p => decide (p.2.2.pst = 0 ∧ !p.2.2.shr ∧ p.2.2.pr = x.pr ∧ p.2.2.pw = x.pw ∧ p.2.2.px = x.px ∧
      fld p.2.1 63 56 = fld e 63 56 ∧ stackOf p.2.2.frame = stackOf x.frame))

/-- PST of leaf entries becomes v. -/
def State.setPst (s : State) (v : Nat) : List (Nat × Word × Leaf) → State
  | [] => s
  | (a, e, _) :: t => (s.writeWord a ((e &&& ~~~0xC0#64) ||| BitVec.ofNat 64 (v % 4 * 64))).setPst v t

/-- A requested promotion has ended: the PROMOTED record (06 R121). -/
def State.promoted (s : State) (ctx : Nat) (va : Word) (how : Nat) : State :=
  if va ∈ (s.ctx ctx).offers then
    ((s.modCtx ctx (fun x => { x with offers := x.offers.erase va })).serviceRecord ctx 7 [va, BitVec.ofNat 64 how] none).2
  else s

/-- The move in progress of a context's page. -/
def State.move? (s : State) (ctx : Nat) (va : Word) : Option Move := s.moving.find? (fun m => decide (m.ctx = ctx ∧ m.va = va))
/-- A move has ended. -/
def State.endMove (s : State) (m : Move) : State := { s with moving := s.moving.erase m }

/-- Whether a context's pages may move: it exists and is not on its way out. -/
def Ctx.active (x : Ctx) : Bool := decide (x.state = .live ∨ x.state = .stopped ∨ x.state = .halted)

/-- A promotion begins: steps 1 and 2 of R227. -/
def State.promoteBegin (s : State) (ctx : Nat) (va : Word) : State :=
  let x := s.ctx ctx
  if !x.active ∨ va.toNat % 0x200000 ≠ 0 ∨ x.promote ∧ va ∉ x.offers then s
  else match (if 2 ^ 56 ≤ va.toNat then none else s.leaves32 ctx va) with
    | none => s.promoted ctx va 1
    | some l =>
      if !candidate l then s.promoted ctx va 1
      else
        let st := stackOf ((l.map (fun p => p.2.2.frame)).headD 0)
        match s.takeFrame 0x200000 (st * 0xC00000000) ((st + 1) * 0xC00000000) with
        | none => s.promoted ctx va 1
        | some (new, s1) =>
          let s2 := s1.setPst 1 l
          { s2 with moving := s2.moving ++ [{ ctx, va, piece := 65536, old := l.map (fun p => p.2.2.frame), new, promo := true, held := none }] }

/-- A promotion is given up: the leaves are as they were, the new frame is free. -/
def State.promoteAbandon (s : State) (m : Move) : State :=
  ((match s.leaves32 m.ctx m.va with
    | some l => (s.setPst 0 (l.filter (fun p => decide (p.2.2.pst = 1)))).freeFrame m.new
    | none => s.freeFrame m.new).endMove m).promoted m.ctx m.va 2

/-- A promotion ends: steps 3 to 6 of R227, where the leaves still are as step 2 left them. Frames that the bind records of live launches
name stay taken (log entry 12). -/
def State.promoteEnd (s : State) (m : Move) : State := match s.leaves32 m.ctx m.va, s.entryFrom m.va 1 3 (s.ctx m.ctx).root.toNat with
  | some l, some at1 =>
    if l.any (fun p => decide (p.2.2.pst ≠ 1)) ∨ l.map (fun p => p.2.2.frame) ≠ m.old then s.promoteAbandon m
    else
      let (e, x) := match l with | p :: _ => (p.2.1, p.2.2) | [] => (0, ⟨0, 0, false, false, false, false, 0⟩)
      let t0 := nextOf 1 (s.word at1)
      let s1 := m.old.zipIdx.foldl (fun s p => (s.copyFrame p.1 (m.new + 65536 * p.2) 65536).follow
        ⟨m.ctx, m.va.toNat + 65536 * p.2, p.1, m.new + 65536 * p.2, 65536⟩) s
      let s2 := (s1.writeWord at1 (leafFrom e m.new x.pr x.pw x.px false 0)).dropTlb m.ctx m.va.toNat (m.va.toNat + 0x200000)
      let s3 := (m.old.filter (fun a => !s2.inCasts a 65536)).foldl State.freeFrame s2
      ((match t0 with | some t => s3.freeFrame t | none => s3).endMove m).promoted m.ctx m.va 0
  | _, _ => s.promoteAbandon m

/-- PROMOTION: it begins, or one that has begun ends. -/
def execPromotion (ctx : Nat) (va : Word) (s : State) : Out := match s.move? ctx va with
  | some m => if m.promo then .next (s.promoteEnd m) else .next s
  | none => .next (s.promoteBegin ctx va)

/-- PROMOTION_ABANDON: 10 microseconds after a publication was held. -/
def execPromotionAbandon (ctx : Nat) (va : Word) (s : State) : Out := match s.move? ctx va with
  | some m => match m.promo, m.held with
    | true, some t => if t.toNat + 10000 ≤ s.time.toNat then .next (s.promoteAbandon m) else .next s
    | _, _ => .next s
  | none => .next s

/-- The leaves that map a frame with its size: its own page alone, or every one of a frame that several contexts share (R229). -/
def State.mappers (s : State) (ctx : Nat) (va : Word) (at_ : Nat) (l : Leaf) : List (Nat × Nat × Nat × Leaf) :=
  if !l.shr then [(ctx, va.toNat, at_, l)]
  else s.ctxs.flatMap (fun p => if p.2.state = .free then [] else
    ((s.leavesOf p.1).filter (fun q => decide (q.2.2.frame = l.frame ∧ q.2.2.size = l.size))).map (fun q => (p.1, q.1, q.2.1, q.2.2)))

/-- A migration begins: PST 2 in every leaf that maps the page's frame, and a frame in the other stack. -/
def State.migrateBegin (s : State) (ctx : Nat) (va : Word) (stack : Nat) : State := match s.tableWalk ctx va with
  | .leaf a l =>
    let n := 2 ^ pageLog l.size
    if !(s.ctx ctx).active ∨ va.toNat % n ≠ 0 ∨ l.pst ≠ 0 ∨ stackOf l.frame = stack ∨ 16 ≤ stack ∨ s.inCasts l.frame n then s
    else match s.takeFrame n (stack * 0xC00000000) ((stack + 1) * 0xC00000000) with
      | none => s
      | some (new, s1) =>
        let s2 := s1.setPst 2 ((s.mappers ctx va a l).map (fun p => (p.2.2.1, s1.word p.2.2.1, p.2.2.2)))
        { s2 with moving := s2.moving ++ [{ ctx, va, piece := n, old := [l.frame], new, promo := false, held := none }] }
  | _ => s

/-- One leaf of a page that has migrated: the entry, the stores held for it, the drop. -/
def State.remap (s : State) (old new n : Nat) (p : Nat × Nat × Nat × Leaf) : State :=
  let l := p.2.2.2
  ((s.follow ⟨p.1, p.2.1, old, new, n⟩).writeWord p.2.2.1 (leafFrom (s.word p.2.2.1) new l.pr l.pw l.px l.shr 0)).dropTlb p.1 p.2.1 (p.2.1 + n)

/-- A migration ends: the copy, the entries, the drops. -/
def State.migrateEnd (s : State) (m : Move) : State :=
  let old := m.old.headD 0
  match s.tableWalk m.ctx m.va with
  | .leaf a l =>
    if l.pst ≠ 2 ∨ l.frame ≠ old ∨ 2 ^ pageLog l.size ≠ m.piece then (s.freeFrame m.new).endMove m
    else
      let s1 := (s.mappers m.ctx m.va a l).foldl (fun s p => s.remap old m.new m.piece p) (s.copyFrame old m.new m.piece)
      (s1.freeFrame old).endMove m
  | _ => (s.freeFrame m.new).endMove m

/-- PAGE_MIGRATION: it begins, or one that has begun ends. -/
def execPageMigration (ctx : Nat) (va : Word) (stack : Nat) (s : State) : Out := match s.move? ctx va with
  | some m => if m.promo then .next s else .next (s.migrateEnd m)
  | none => .next (s.migrateBegin ctx va stack)

/-- The private copy of a shared code page (R229); none where the address names no such page, or there is no frame. -/
def State.codeCopy (s : State) (ctx : Nat) (va : Word) : Option (Option State) := match (if 2 ^ 56 ≤ va.toNat then .none else s.tableWalk ctx va) with
  | .leaf a l =>
    if l.size ≠ 0 ∨ !l.px ∨ !l.shr ∨ va.toNat % 65536 ≠ 0 then none
    else match s.takeFrame 65536 0 memTop with
      | none => some none
      | some (new, s1) =>
        some (some ({ ((s1.copyFrame l.frame new 65536).writeWord a (leafFrom (s1.word a) new l.pr false true false 0)).dropTlb ctx va.toNat
          (va.toNat + 65536) with copied := new :: s1.copied }))
  | _ => none

end Sys2Proof.Machine
end

