-- ==== Sys2Proof/Machine/Wake.lean ====
section
/-! DEFINITION. What starts, stops and wakes firings: the actor scheduler's pick (09 R162-R165), the abort of a request that is not met
(05 R103), migration (09 R169), the events' home (09 R167-R168), stopping the world (05 R102), and the ends of waits (09 R154). -/

namespace Sys2Proof.Machine

/-! ### The scheduler (R163) -/

/-- The state of the group that core `k` serves. -/
def State.groupState (s : State) (k : Nat) : Option GState :=
  ((s.core k).launch.bind s.launch?).map (fun x => (x.group (s.core k).group).state)

/-- Whether a firing is the entry firing of a timed launch that has not started (08 R149). -/
def State.timedEntry (s : State) (f : Firing) : Bool :=
  f.inputs.isEmpty && !f.started && !f.svc && (match f.code with | .actor _ => true | _ => false) &&
    (match f.launch.bind s.launch? with | some x => !x.released | none => false)

/-- Whether a firing of core `k` may be picked: in a LIVE context those of a RESIDENT group and of the fault actor, in a STOPPED one the
stopping firing alone (05 R95, R102). -/
def State.mayRun (s : State) (k ctx : Nat) (f : Firing) : Bool := match (s.ctx ctx).state with
  | .live => f.svc || (decide (s.groupState k = some .resident) && !s.timedEntry f)
  | .stopped => f.stopping
  | _ => false

/-- The place in a ready queue of the firing to be picked: of the best class, the one that entered first. -/
def pickIndex (ok : Firing → Bool) (l : List Firing) : Option Nat :=
  (List.range 4).findSome? (fun c => l.findIdx? (fun f => ok f && decide (f.cls = c)))

/-- A firing that is passed over. -/
def Firing.passed (f : Firing) : Firing :=
  if 64 ≤ f.passes + 1 then { f with cls := f.cls - 1, passes := 0 } else { f with passes := f.passes + 1 }

/-- A firing whose kernel is no longer there when it would start: its inputs are lost, and it is ENDED (07 R139). -/
def State.loseFiring (s : State) (k ctx : Nat) (f : Firing) : State := ((s.loseInputs k ctx f).releaseFiring k f).leaveSvc k

/-- A free core picks a firing; every other READY or SUSPENDED firing of the core is passed over. -/
def State.pick (s : State) (k : Nat) : State :=
  let c := s.core k
  match c.ctx with
  | none => s
  | some ctx =>
    if c.run ≠ .idle ∨ c.preempt.isSome ∨ c.barred then s
    else
      let s1 := if c.launch.isSome then s.joinsFired k else s
      let ready := (s1.core k).ready
      match pickIndex (s1.mayRun k ctx) ready with
      | none => s1
      | some i => match ready[i]? with
        | none => s1
        | some f =>
          let s2 := s1.modCore k (fun c => Core.fillReady { c with ready := (ready.eraseIdx i).map Firing.passed })
          match (match f.resume with | some r => some (r.pc, r.pcc) | none => s2.entryOf ctx f.code f.started) with
          | some (va, pcc) => (s2.readyTiles k f).startFiring k f va pcc
          | none => s2.loseFiring k ctx f

/-- SCHEDULER_PICK. -/
def execSchedulerPick (c : Nat) (s : State) : Out := .next (s.pick c)

/-! ### Requests that are not met (05 R103, 02 R36) -/

/-- The cycles that a request waits for a safe point. -/
def preemptLimit : Nat := 75000

/-- PREEMPTION_ABORT: the firing is aborted and replayed, or under DESTROY ended. One that has committed early is waited for, and one that
waits for the world to go on has stopped. -/
def execPreemptionAbort (c : Nat) (s : State) : Out :=
  let x := s.core c
  match x.preempt with
  | none => .next s
  | some p =>
    let atWorld := match x.run with | .waiting .world _ => true | _ => false
    if x.run = .idle ∨ p.taken ∨ x.committed ∨ s.cycle < p.cycle + preemptLimit then .next s
    else if p.reason = .destroy then .next (s.abortEnd c)
    else if atWorld then .next s
    else .next (s.abortReplay c)

/-! ### Migration (02 R31, 09 R169) -/

/-- Waymarks that a core holds. -/
def waymarkMax : Nat := 8
/-- Cycles that a waymark stands. -/
def waymarkLife : Nat := 4096

/-- MIGRATE_DEPART: once every publication of the core is acknowledged (02 R31), the message leaves and the firing is ENDED. How many replies are
still owed to the firing is a free value. -/
def execMigrateDepart (c : Nat) (s : State) : Out :=
  let x := s.core c
  match x.run, x.again with
  | .waiting .migrate _, some (.migrate f) => match s.target c f.a with
    | .ok (dst, a) =>
      let own := decide (dst = x.here)
      if (s.ctx (s.ctxOf c)).layFull ∨ (!own ∧ waymarkMax ≤ x.waymarks.length) ∨ s.owesAck c then .next s
      else
        let m := s.newMsg c .migration (targetHidx a) ((s.vs c).block 1) dst.launch
        let s1 := s.sendBody c (s.ctxOf c) dst (.msg { m with born := s.time })
        let s2 : State := if own then s1 else
          { s1.modCore c (fun y =>
              { y with waymarks := y.waymarks ++ [{
                  code := (y.firing.map Firing.code).getD (.actor ⟨0, 0⟩), launch := y.firing.bind Firing.launch, start := (y.firing.map Firing.start).getD 0,
                  target := dst, expiry := s.cycle + waymarkLife, owed := Config.lateReplies s.free }] })
            with free := s1.free + 1 }
        .next (s2.endFiring c)
    | .error _ => .next s
  | _, _ => .next s

/-- LATE_REPLY_REDIRECT: a late reply comes, and the target discards it. -/
def execLateReplyRedirect (c : Nat) (s : State) : Out :=
  let ws := (s.core c).waymarks
  match ws.findIdx? (fun w => decide (w.owed ≠ 0)) with
  | some i => .next (s.modCore c (fun x => { x with waymarks := ws.modify i (fun w => { w with owed := w.owed - 1 }) }))
  | none => .next s

/-- WAYMARK_EXPIRY. -/
def execWaymarkExpiry (c : Nat) (s : State) : Out :=
  let ws := (s.core c).waymarks
  match ws.findIdx? (fun w => decide (w.owed = 0 ∧ w.expiry ≤ s.cycle)) with
  | some i => .next (s.modCore c (fun x => { x with waymarks := ws.eraseIdx i }))
  | none => .next s

/-! ### Held publications (09 R154) -/

/-- BOUNDARY_RELEASE: what the next held entry waited for has come. Where everything can be published the word is executed again, or its
safe point is made; else as much as can be leaves, in order. -/
def execBoundaryRelease (c : Nat) (s : State) : Out :=
  let s1 := s.refollow c
  let x := s1.core c
  let scope := if x.releasing then x.scope else none
  match x.run with
  | .waiting .boundary _ =>
    .next (if s1.isHeld c x.buffer then s1.stall c scope else s1.modCore c (fun y => { y with run := .running }))
  | .waiting (.safe mask next) yield =>
    .next (if s1.isHeld c x.buffer then s1.stall c none else s1.safePoint c mask next yield)
  | _ => .next s

/-! ### Stopping the world (05 R102) -/

/-- Whether the engines of a context have come to their boundary: no Matrix Engine job, no copy command runs. -/
def State.enginesStill (s : State) (ctx : Nat) : Bool :=
  !s.clusters.any (fun p => match p.2.me with | some r => decide (r.job.ctx = ctx) | none => false) &&
  !s.engines.any (fun p => match p.2.run with | some r => decide (r.cmd.ctx = ctx) | none => false)

/-- Whether a core has stopped for a STOPW. -/
def Core.still (c : Core) : Bool := match c.run with
  | .idle => true
  | .waiting .world _ => true
  | _ => false

/-- WORLD_STOPPED: the STOPW of the stopping firing completes, "when every core and engine has stopped and every publication is acknowledged". -/
def execWorldStopped (ctx : Nat) (s : State) : Out :=
  let x := s.ctx ctx
  match x.stopper with
  | none => .next s
  | some k => match (s.core k).run with
    | .waiting .world sp =>
      if (x.state = .live ∨ x.state = .draining) ∧ s.enginesStill ctx ∧
         s.cores.all (fun p => decide (p.2.ctx ≠ some ctx) || p.2.still) ∧ !s.travels ctx then
        let s1 := s.modCtx ctx (fun x => if x.state = .live then { x with state := .stopped, pausedAt := s.time } else x)
        let s2 := s1.modCore k (fun c => { c with firing := c.firing.map (fun f => { f with stopping := true }) })
        .next ((s2.freshPhase k).finishWord k sp)
      else .next s
    | _ => .next s

/-! ### Events (09 R167) -/

/-- Whether an event operation is the oldest of its core for its context. -/
def State.oldestEvOp (s : State) (i : Nat) (o : EvOp) : Bool :=
  !(s.evops.take i).any (fun p => decide (p.src = o.src) && decide (p.ctx = o.ctx))

/-- An event operation reaches its home; one whose home die is lost comes back (14 R238). -/
def State.evArrive (s : State) (i : Nat) (set : Bool) : State := match s.evops[i]? with
  | none => s
  | some o =>
    if o.set ≠ set ∨ !s.oldestEvOp i o then s
    else
      let s1 : State := { s with evops := s.evops.eraseIdx i }
      if !(s.ctx o.ctx).active ∨ !(s.ctx o.ctx).home then s1
      else if s.homeLost o.ctx o.event then s1.eventLost o.ctx o.src o.launch set o.event
      else s1.applyOp o

/-- EVENT_SET_AT_HOME. -/
def execEventSetAtHome (i : Nat) (s : State) : Out := .next (s.evArrive i true)
/-- EVENT_CLEAR_AT_HOME. -/
def execEventClearAtHome (i : Nat) (s : State) : Out := .next (s.evArrive i false)

/-! ### The ends of waits -/

/-- A word that waited puts its value and completes; none where the destination has no room yet. -/
def State.finishPut (s : State) (k : Nat) (d : Opnd) (v : Word) (sp : Bool) : Option State := match s.put k d v with
  | .ok s1 => some (s1.finishWord k sp)
  | .error (.fault f a) => some (s.takeFault k f a (s.core k).unitAt .read)
  | .error (.wait _ _) => none

/-- EVENT_WAKE: an EVWAIT whose event was set completes in a new phase. -/
def execEventWake (c : Nat) (s : State) : Out := match (s.core c).run with
  | .waiting (.event _ woken) sp => if woken then .next ((s.freshPhase c).finishWord c sp) else .next s
  | _ => .next s

/-- Whether an id's command is still QUEUED or RUNNING. -/
def State.idBusy (s : State) (k : Nat) (copy : Bool) (id : Nat) : Bool :=
  let n := (s.vs k).csr.stateOf copy id
  decide (n = 2 ∨ n = 3)

/-- The end of a wait for a job or a copy command, or for its id's window. -/
def State.idWaitEnd (s : State) (k : Nat) (copy : Bool) : State := match (s.core k).run with
  | .waiting (.job id) sp => if copy || s.idBusy k false id then s else (s.freshPhase k).finishWord k sp
  | .waiting (.copy id) sp => if !copy || s.idBusy k true id then s else (s.freshPhase k).finishWord k sp
  | .waiting (.window cp id) _ =>
    let (_, win) := (s.vs k).csr.window copy
    if cp ≠ copy ∨ nibble win id = 2 ∨ nibble win id = 3 then s else s.modCore k (fun c => { c with run := .running })
  | _ => s

/-- JOB_WAIT_END (19 R368). -/
def execJobWaitEnd (c : Nat) (s : State) : Out := .next (s.idWaitEnd c false)
/-- COPY_WAIT_END (20 R401). -/
def execCopyWaitEnd (c : Nat) (s : State) : Out := .next (s.idWaitEnd c true)

/-- CARRY_TAKE (19 R380). -/
def execCarryTake (c : Nat) (s : State) : Out := match (s.core c).run with
  | .waiting (.carry tag d) sp => match (s.core c).mailbox.find? (fun m => decide (m.1 = tag)) with
    | some m =>
      let s1 := s.modCore c (fun x => { x with mailbox := x.mailbox.erase m, carries := x.carries ++ [m] })
      .next (((s1.freshPhase c).finishPut c d m.2 sp).getD s)
    | none => .next s
  | _ => .next s

/-- TIMED_RELEASE (10 R179). -/
def execTimedRelease (c : Nat) (s : State) : Out := match (s.core c).run with
  | .waiting (.stamp t) sp => if t.toNat ≤ s.time.toNat then .next ((s.freshPhase c).finishWord c sp) else .next s
  | _ => .next s

/-- A scan's result as the doubleword that SCAN puts (R377). -/
def scanWord (ty : VTy) (v : Vec) : Word :=
  let n := laneAt v ty.width 0
  if ty.isFlt then BitVec.ofNat 64 n else BitVec.ofInt 64 (if 2 * n < 2 ^ ty.width then (n : Int) else (n : Int) - 2 ^ ty.width)

/-- A participant of a complete scan gets its result; none where its destination has no room yet. -/
def State.scanReturn (s : State) (k : Nat) (t : ScanSt) (e : Nat) (d : Opnd) (wide sp : Bool) : Option State :=
  if !t.agree then some (s.takeFault k .engine (t.spec.setWidth 64) (s.core k).unitAt .read)
  else
    let (r, g) := t.result e
    let s1 := ((s.commit k).freshPhase k).modVs k (fun v => { v with csr := { v.csr with scanst := BitVec.ofNat 64 (g.toNat % 32) } })
    if wide then some ((match d with | .v i => s1.modVs k (fun v => v.setV i.val r) | _ => s1).finishWord k sp)
    else match t.part 0 with
      | some p => s1.finishPut k d (scanWord p.ty r) sp
      | none => none

/-- A participant that waits for a complete scan takes its result. -/
def State.scanTake (s : State) (k : Nat) (t : ScanSt) : State := match (s.core k).run with
  | .waiting (.scan spec d wide) sp => match (s.core k).elementOf spec with
    | none => s
    | some e =>
      if !t.isFor (s.core k) spec || e ∈ t.taken then s
      else match s.scanReturn k t e d wide sp with
        | none => s
        | some s1 => s1.modCtx (s.ctxOf k) (fun x => { x with scans := x.scans.map (fun u =>
            if u.launch = t.launch ∧ u.group = t.group ∧ u.spec = t.spec ∧ u.parts = t.parts then { u with taken := u.taken ++ [e] } else u) })
  | _ => s

/-- SCAN_COMPLETE: the scan that core c waits for is complete, and every participant that waits gets its result. -/
def execScanComplete (c : Nat) (s : State) : Out :=
  let ctx := s.ctxOf c
  match (s.core c).run with
  | .waiting (.scan spec _ _) _ =>
    let x := s.core c
    match (x.elementOf spec).bind (fun e => (s.ctx ctx).scans.find? (fun t => t.isFor x spec && decide (t.parts.length = t.total) && t.owes e)) with
    | none => .next s
    | some t =>
      let ks := (s.cores.filter (fun p => decide (p.2.ctx = some ctx))).map Prod.fst
      let s1 := ks.foldl (fun s k => s.scanTake k t) s
      .next (s1.modCtx ctx (fun x => { x with scans := x.scans.filter (fun u => decide (u.taken.length < u.total)) }))
  | _ => .next s

/-- REMOTE_REPLY (17 R325): the value is put; under .ACQ a new phase begins. -/
def execRemoteReply (c : Nat) (s : State) : Out := match (s.core c).run with
  | .waiting (.remote d (some v)) sp =>
    let s1 := if (s.core c).acquiring then s.freshPhase c else s
    .next ((s1.finishPut c d v sp).getD s)
  | _ => .next s

/-- PORT_WAIT_END: the word is executed again (03 R58). -/
def execPortWaitEnd (c : Nat) (s : State) : Out := match (s.core c).run with
  | .waiting .port _ => .next (s.modCore c (fun x => { x with run := .running }))
  | _ => .next s

/-- HANDLE_WAIT_END: the word is executed again (17 R321). -/
def execHandleWaitEnd (c : Nat) (s : State) : Out := match (s.core c).run with
  | .waiting .handle _ => .next (s.modCore c (fun x => { x with run := .running }))
  | _ => .next s

end Sys2Proof.Machine
end

