-- ==== Sys2Proof/Machine/Matrix.lean ====
section
/-! DEFINITION. The cluster's job queue and the Matrix Engine (19 R362-R367, 04 R85-R86, R93, 11 R189). -/

namespace Sys2Proof.Machine

/-! ### Whose turn it is (R367) -/

/-- Whether the commands of a context start, and its JEDGEs go past their next edge-tile: not from the moment at which a STOPW asks it to stop
(05 R95, R102). -/
def State.engineMayRun (s : State) (ctx : Nat) : Bool := decide ((s.ctx ctx).state = .live) && (s.ctx ctx).stopper.isNone

/-- The first edge after a JEDGE's range. -/
def edgeStop (ws : List Word) : Nat := fld (ws.getD 13 0) 31 0 + fld (ws.getD 13 0) 63 32

/-- Whether a JEDGE has nothing more to do: it has failed, was cancelled, or has done its last edge. -/
def Running.over (r : Running) : Bool := r.fail.isSome || r.job.cancelled || decide (edgeStop r.words ≤ r.next)

/-- Whether two commands are the same. -/
def Job.same (a b : Job) : Bool := decide (a.id = b.id) && decide (a.ctx = b.ctx) && decide (a.svc = b.svc) && decide (a.core = b.core)

/-- Whether a JEDGE has stopped for the UNBIND of its group (R374). One that a Matrix Engine job of its core waits behind goes on, so that
the job ends as 08 R150 asks. -/
def State.edgePaused (s : State) (u : Cluster) (j : Job) : Bool :=
  !j.svc && decide (s.groupState j.core = some .unbinding) &&
    !u.queue.any (fun x => decide (x.core = j.core) && !x.svc && !x.edge)

/-- Whether a cluster core's first command may take a turn. -/
def State.takesTurn (s : State) (u : Cluster) (n : Nat) (j : Job) : Bool :=
  !j.edge || (!s.edgePaused u j && (match Table.find? u.je n with
    | some r => r.job.same j && !r.over
    | none => true))

/-- The cluster core number whose turn it is, with its command: the first after the one last served that has one. -/
def State.turnOf (s : State) (u : Nat) : Option (Nat × Job) :=
  let c := s.cluster u
  (List.range 8).findSome? (fun i =>
    let n := (c.last + 1 + i) % 8
    ((c.queue.find? (fun j => decide (clusterNo j.core = n) && s.engineMayRun j.ctx)).filter (s.takesTurn c n)).map (fun j => (n, j)))

/-! ### Starting a job (R363) -/

/-- The fields of W4. -/
def w4 (ws : List Word) (hi lo : Nat) : Nat := fld (ws.getD 4 0) hi lo
/-- The fields of W7. -/
def w7 (ws : List Word) (hi lo : Nat) : Nat := fld (ws.getD 7 0) hi lo

/-- Step 1 of R363. -/
def State.mjobFieldsOk (s : State) (l : Nat) (ws : List Word) : Bool :=
  let w6 := ws.getD 6 0
  decide (fld w6 63 56 = 0) && decide (w7 ws 63 18 = 0) && decide (w7 ws 5 4 ≤ 1) &&
  decide (w7 ws 11 6 ∈ [0, 2, 3, 4, 5, 6, 9]) && decide (w7 ws 17 15 ≤ 2) && decide (w4 ws 38 26 % 16 = 0) &&
  decide (fld w6 43 24 % 32 = 0) && s.inLaunch l (fld w6 11 0) (fld w6 23 12)

/-- The accumulator's format. -/
def accFmt (e : Nat) : AFmt := if e = 1 then .f64 else if e = 2 then .f32 else .i32

/-- The K indices that a job uses (R364): KLEN, or K − K0. -/
def kLen (ws : List Word) (k : Nat) : Nat := if w4 ws 51 39 = 0 then k - w4 ws 38 26 else w4 ws 51 39

/-- The headers of A and B. -/
def Eng.mjobHeaders (m : Eng) (r : Reader) (ctx : Nat) (ws : List Word) (ts : List Bool) : JRes (List EOp × Eng) :=
  Eng.headers r ctx [(2, granuleCap ws ts 0, pR, .left, true), (3, granuleCap ws ts 1, pR, .right, false)] m

/-- Steps 2 to 5 of R363. -/
def Eng.mjobChecks (m : Eng) (r : Reader) (ctx : Nat) (slot : Option Slot) (ws : List Word) (ts : List Bool) : JRes Eng := do
  let (ops, m1) ← m.mjobHeaders r ctx ws ts
  failFirst ops (fun o => !o.hdr.good) .hdrCheck
  failFirst ops (fun o => decide (o.hdr.efmt = 0)) .tileUnconf
  failFirst ops (fun o => !o.hdr.roleOk o.role o.kcol m1.s.features) .hdrUnsupported
  match ops with
  | [a, b] =>
    failIf (decide (a.hdr.spar ≠ 0) && decide (b.hdr.spar ≠ 0)) (.hdrUnsupported, 3, b.va)
    match productEfmt a.hdr.efmt b.hdr.efmt with
    | none => .error (.hdrUnsupported, 3, b.va)
    | some e =>
      failIf (decide (a.hdr.shape.2 ≠ b.hdr.shape.1)) (.hdrMismatch, 3, b.va)
      (if fbit (ws.getD 7 0) 2 then failFirst ops (fun o => o.hdr.strictBad) .hdrMismatch else .ok ())
      m1.s.checkBodies ctx ops
      let (_, m2) ← m1.metadata r ctx a
      let (_, m3) ← m2.metadata r ctx b
      failIf (decide (w7 ws 11 6 ≠ 0 ∧ e = 1)) (.engine, 1, 0)
      failIf (decide (a.hdr.shape.1 < w4 ws 12 0 + w4 ws 59 56 + 1 ∨ a.hdr.shape.2 < w4 ws 38 26 + w4 ws 51 39)) (.hdrMismatch, 2, a.va)
      failIf (decide (b.hdr.shape.2 < w4 ws 25 13 + w4 ws 63 60 + 1)) (.hdrMismatch, 3, b.va)
      failIf (decide (e = 1 ∧ 7 < w4 ws 63 60)) (.hdrMismatch, 8, 0)
      failIf (!fbit (ws.getD 7 0) 0 && (match slot with
        | some x => decide (x.ctx = ctx ∧ x.fmt ≠ accFmt e)
        | none => false)) (.hdrMismatch, 8, 0)
      return m3
  | _ => .error (.engine, 1, 0)

/-- A command's start: its descriptor is read, step 1 and the other checks are made. -/
def State.startJob (s : State) (r : Reader) (j : Job) (n : Nat) (fieldsOk : List Word → List Bool → Bool)
    (checks : List Word → List Bool → Eng → JRes (List Word × Eng)) : Running × State :=
  let m : Eng := { s, w := s.newView }
  let run (ws : List Word) (w : View) (fail : Option JFail) (trusted : Bool) : Running :=
    { job := j, words := ws, view := w, done := 0, next := fld (ws.getD 13 0) 31 0, degs := [], flags := 0, fail, trusted }
  if s.lostMemory j.desc then (run [] m.w (some (.mcheck, 1, j.descVa)) false, s)
  else
    let (ws, ts, m1) := m.descriptor r j.ctx j.desc n
    if !fieldsOk ws ts then (run ws m1.w (some (.engine, 1, 0)) false, m1.s)
    else match checks ws ts m1 with
      | .ok (ws, m2) => (run ws m2.w none true, m2.s)
      | .error f => (run ws m1.w (some f) true, m1.s)

/-- A job leaves its cluster's queue, or is marked there as RUNNING, and its wait is sampled (23 R433, source 5). -/
def State.jobStarted (s : State) (j : Job) : State :=
  (s.sample j.ctx 5 (BitVec.ofNat 64 (s.cycle - j.since))).setJobWin j.core j.ctx j.svc j.id 3

/-- ME_JOB_START: a free Matrix Engine takes the job whose turn it is. -/
def execMeJobStart (u : Nat) (s : State) : Out :=
  let c := s.cluster u
  match (if c.me.isSome then none else s.turnOf u) with
  | none => .next s
  | some (n, j) =>
    if j.edge then .next s
    else
      let r := Reader.cluster u
      let (run, s1) := s.startJob r j 4 (fun ws _ => s.mjobFieldsOk j.vcore.launch ws) (fun ws ts m => do
        let m1 ← m.mjobChecks r j.ctx (Table.find? c.slots (w4 ws 55 52)) ws ts
        return (ws, m1))
      .next ((s1.jobStarted j).setCluster u { c with queue := c.queue.erase j, last := n, me := some run })

/-! ### What a job computes (R364) -/

/-- The block's shape. -/
def blockShape (ws : List Word) : Nat × Nat := (w4 ws 59 56 + 1, w4 ws 63 60 + 1)

/-- The key of slot element (m, n). -/
def slotKey (m n : Nat) : Nat := 16 * m + n

/-- The floating-point format of an accumulator. -/
def AFmt.fmt : AFmt → Fmt
  | .f64 => .f64
  | _ => .f32

/-- One element after `lim` K-blocks. -/
def jobElem (a b : Oprd) (fmt : AFmt) (nbv : Nat) (ws : List Word) (len lim m n acc : Nat) : Nat × Sticky :=
  let k0 := w4 ws 38 26
  let i := w4 ws 12 0 + m
  let j := w4 ws 25 13 + n
  match fmt with
  | .i32 =>
    let v (x : Oprd) (m k : Nat) : Int := ((x.codes m k).map (efInt x.hdr.efmt)).foldl (fun s v => s + v) 0
    let sum : Int := (List.range (min len (16 * lim))).foldl (fun s k => s + v a i (k0 + k) * v b j (k0 + k)) 0
    let ms : Sticky := 0
    (narrow 32 ((acc : Int) + sum), ms)
  | f =>
    let scale (k : Nat) : Option Nat :=
      if efQa a.hdr.efmt then some (a.groupScale i k) else if efQa b.hdr.efmt then some (b.groupScale j k) else none
    sumBlocks f.fmt nbv scale (fun k => kProduct (a.values nbv i k) (b.values nbv j k)) k0 lim len acc

/-- The slot before a job: cleared under INITZ and where another context wrote it last. -/
def slotBefore (slot : Option Slot) (ctx : Nat) (initz : Bool) : Table Word := match slot with
  | some x => if initz ∨ x.ctx ≠ ctx then [] else x.elems
  | none => []

/-! ### The epilogue and the drain (R365, 11 R189) -/

/-- A slot element as it is drained, without its epilogue: scaled by A's and B's scales. -/
def scaledElem (fmt : AFmt) (sa sb : Option FVal) (x : Nat) : Nat × Sticky :=
  if sa.isNone ∧ sb.isNone then (x, 0)
  else
    let one : FVal := .fin false 1 0
    let s := mulE (sa.getD one) (sb.getD one)
    let y := mulE (fmt.fmt.decode x) s.val
    deliver fmt.fmt .rne false { y with flags := y.flags ||| s.flags }

/-- The value of an accumulator element. -/
def accVal (fmt : AFmt) (x : Nat) : FVal := match fmt with
  | .i32 => FVal.ofInt (if x < 2 ^ 31 then (x : Int) else (x : Int) - 2 ^ 32)
  | f => f.fmt.decode x

/-- ReLU on an FP32 pattern: +0 for what is below zero or −0. -/
def relu (x : Nat) : Nat := match Fmt.f32.decode x with
  | .nan _ => x
  | v => if v.isNeg then 0 else x

/-- An FP32 pattern as an element of an output format (04 R82). -/
def toOut (e : Nat) (rm : RM) (sat : Bool) (x : Nat) : Nat × Sticky := match efFmt e with
  | some f => cvtFmt .f32 f rm sat x
  | none => cvtToInt true 8 rm sat (Fmt.f32.decode x)

/-- The epilogue. -/
def epilogue (fmt : AFmt) (ws : List Word) (x : Nat) : Nat × Sticky :=
  let e := w7 ws 11 6
  if e = 0 then (x, 0)
  else
    let f32 (n : Nat) : FVal := Fmt.f32.decode n
    let p := mulE (accVal fmt x) (f32 (fld (ws.getD 5 0) 31 0))
    let (y, g) := roundSum .f32 .rne false p.val (f32 (fld (ws.getD 5 0) 63 32)) p.flags
    let (z, h) := toOut e ((RM.ofCode (w7 ws 13 12)).getD .rne) (fbit (ws.getD 7 0) 14) (if w7 ws 5 4 = 1 then relu y else y)
    (z, g ||| h)

/-- The header of a drained tile: the least ROWSTRIDE and BODYLEN of 11 R185. -/
def drainHdr (efmt swz rows cols : Nat) : Hdr :=
  let b := efBits efmt
  let line := if swz = 2 then up (rows * b) 8 else if swz = 1 then up (up (cols * b) 8) 64 * 64 else up (cols * b) 8
  { Hdr.none with efmt, swz, rows, cols, stride := line, bodylen := (if swz = 2 then cols else rows) * line, filled := true }

/-- The bytes of a drained tile. -/
def drainBytes (h : Hdr) (f : Nat → Nat → Nat) : List Byte :=
  let body := (positions h.rows h.cols).foldl (fun b p => putBits b (h.bitAt p.1 p.2) (efBits h.efmt) (f p.1 p.2)) 0
  (h.words.flatMap (fun w => bytesOf 8 w.toNat)) ++ bytesOf h.bodylen body.toNat

/-- The writes of a drain to a virtual core that is not resident here travel as RPUTs do: doublewords, then the bytes left. -/
def drainPuts (off : Nat) (bs : List Byte) : List Body :=
  let n := bs.length / 8
  ((List.range n).map (fun i => Body.remote .put (off + 8 * i) 8 (BitVec.ofNat 64 (ofBytes ((bs.drop (8 * i)).take 8))) 0 none)) ++
  (bs.drop (8 * n)).zipIdx.map (fun p => Body.remote .put (off + 8 * n + p.2) 1 (p.1.setWidth 64) 0 none)

/-- The drained bytes land in the target's local store (R365, 17 R309). -/
def State.drainTo (s : State) (j : Job) (vx vy off : Nat) (bs : List Byte) : State :=
  if j.vcore.launch = noLaunch then match s.serviceAt j.ctx with
    | some k => s.modVs k (fun r => r.lsStore off bs)
    | none => s.modCtx j.ctx (fun x => { x with service := x.service.lsStore off bs })
  else
    let dst : VCore := ⟨j.vcore.launch, vx, vy⟩
    match s.place dst with
    | .here k => s.lsRemote k off bs
    | .retired => s
    | _ => (drainPuts off bs).foldl (fun s b => s.sendBody j.core j.ctx dst b) s

/-! ### The end of a job (R364-R366, R369) -/

/-- What a job that did not fail leaves: its slot, the K-blocks done, the flags, the drained tile. -/
def Eng.mjobResult (m : Eng) (r : Reader) (run : Running) (slot : Option Slot) : JRes (Slot × Nat × Sticky × Option (List Byte) × Eng) := do
  let ws := run.words
  let j := run.job
  let (ops, m1) ← m.mjobHeaders r j.ctx ws [true, true, true, true]
  match ops with
  | [oa, ob] =>
    let (a, m2) ← m1.operand r j.ctx oa
    let (b, m3) ← m2.operand r j.ctx ob
    let e := (productEfmt oa.hdr.efmt ob.hdr.efmt).getD 7
    let fmt := accFmt e
    let len := kLen ws oa.hdr.shape.2
    let all := up len 16
    let lim := if j.cancelled then Config.blocksDone m3.s.free % (all + 1) else all
    let m4 : Eng := { m3 with s := { m3.s with free := m3.s.free + 1 } }
    let (rows, cols) := blockShape ws
    let before := slotBefore slot j.ctx (fbit (ws.getD 7 0) 0)
    let elems : List (Nat × Nat × Nat × Sticky) := (positions rows cols).map (fun p =>
      (p.1, p.2, jobElem a b fmt j.nbv ws len lim p.1 p.2 (Table.get 0 before (slotKey p.1 p.2)).toNat))
    let after := elems.foldl (fun t x => Table.set 0 t (slotKey x.1 x.2.1) (BitVec.ofNat 64 x.2.2.1)) before
    let g := elems.foldl (fun g x => g ||| x.2.2.2) 0
    let new : Slot := { ctx := j.ctx, fmt, elems := after }
    if j.cancelled ∨ !fbit (ws.getD 7 0) 1 then return (new, lim, g, none, m4)
    else
      let out := elems.map (fun x =>
        let (v, g1) := scaledElem fmt (a.lineScale (w4 ws 12 0 + x.1)) (b.lineScale (w4 ws 25 13 + x.2.1)) x.2.2.1
        let (y, g2) := epilogue fmt ws v
        (slotKey x.1 x.2.1, y, g1 ||| g2))
      let h := drainHdr (if w7 ws 11 6 = 0 then e else w7 ws 11 6) (w7 ws 17 15) rows cols
      let val (m n : Nat) : Nat := ((out.find? (fun x => decide (x.1 = slotKey m n))).map (fun x => x.2.1)).getD 0
      return (new, lim, out.foldl (fun g x => g ||| x.2.2) g, some (drainBytes h val), m4)
  | _ => .error (.engine, 1, 0)

/-- ME_JOB_END. -/
def execMeJobEnd (u : Nat) (s : State) : Out :=
  let c := s.cluster u
  match c.me with
  | none => .next s
  | some run =>
    let idle := s.setCluster u { c with me := none }
    let j := run.job
    match run.fail with
    | some f => .next (idle.endJob j run.words run.trusted (if j.cancelled then .cancelled else .failed f) 0 0)
    | none => match Eng.mjobResult { s, w := run.view } (.cluster u) run (Table.find? c.slots (w4 run.words 55 52)) with
      | .error f => .next (idle.endJob j run.words true (if j.cancelled then .cancelled else .failed f) 0 0)
      | .ok (slot, done, g, drained, m) =>
        let s1 := m.s.setCluster u { c with me := none, slots := Table.insert c.slots (w4 run.words 55 52) slot }
        let w6 := run.words.getD 6 0
        let s2 := match drained with
          | some bs => s1.drainTo j (fld w6 11 0) (fld w6 23 12) (fld w6 43 24) bs
          | none => s1
        .next (s2.endJob j run.words true (if j.cancelled then .cancelled else .done) done (run.flags ||| g))

end Sys2Proof.Machine
end

