-- ==== Sys2Proof/Machine/Copies.lean ====
section
/-! DEFINITION. The Copy Engines: COPY, COPY2D and TFILL commands from their start to their end (20 R396-R400, 04 R82-R83). -/

namespace Sys2Proof.Machine

/-! ### The descriptor (R397-R398) -/

/-- The fields of a copy descriptor. -/
structure CDesc where
  src : XReg
  dst : XReg
  len : Nat
  rows : Nat
  sstride : Nat
  dstride : Nat
  sfmt : Nat
  rm : RM
  sat : Bool
  kcol : Bool
  deriving DecidableEq, Repr

/-- A descriptor's fields from its doublewords and tags. -/
def CDesc.of (ws : List Word) (ts : List Bool) : CDesc :=
  let w (i hi lo : Nat) : Nat := fld (ws.getD i 0) hi lo
  { src := granuleCap ws ts 0, dst := granuleCap ws ts 1, len := w 4 31 0, rows := w 4 47 32, sstride := w 5 31 0, dstride := w 5 63 32,
    sfmt := w 7 5 0, rm := (RM.ofCode (w 7 7 6)).getD .rne, sat := fbit (ws.getD 7 0) 8, kcol := !fbit (ws.getD 7 0) 9 }

/-- Step 1 of R398 for a command of a kind: 3 COPY, 4 COPY2D, 5 TFILL. -/
def State.copyFieldsOk (s : State) (l kind : Nat) (ws : List Word) : Bool :=
  let w (i hi lo : Nat) : Nat := fld (ws.getD i 0) hi lo
  decide (w 4 63 48 = 0) && decide (w 6 63 37 = 0) && decide (w 7 63 10 = 0) && s.inLaunch l (w 6 11 0) (w 6 23 12) &&
  (decide (kind = 4) || (decide (w 4 47 32 = 0) && decide (w 5 63 32 = 0))) &&
  (if kind = 5 then decide (w 4 31 0 = 0) && decide (1 ≤ w 7 5 0 ∧ w 7 5 0 ≤ 12) else decide (w 7 5 0 = 0) && decide (w 7 9 9 = 0))

/-- The wake fields of a copy descriptor: whether one is asked for, its target, its handler index. -/
def copyWake (ws : List Word) : Bool × Nat × Nat × Nat :=
  let w := ws.getD 6 0
  (fbit w 36, fld w 11 0, fld w 23 12, fld w 35 24)

/-- The rows of a COPY or a COPY2D: source and destination addresses. -/
def CDesc.lines (d : CDesc) (kind : Nat) : List (Word × Word) :=
  if kind = 3 then [(d.src.addr, d.dst.addr)]
  else (List.range d.rows).map (fun r => (d.src.addr + BitVec.ofNat 64 (r * d.sstride), d.dst.addr + BitVec.ofNat 64 (r * d.dstride)))

/-- The header of a TFILL's target, read. -/
def Eng.fillHeader (m : Eng) (r : Reader) (ctx : Nat) (d : CDesc) : JRes (EOp × Eng) := m.header r ctx 3 d.dst (pR + pW) .fill d.kcol

/-- Bytes of a row of a TFILL's source. -/
def CDesc.rowLen (d : CDesc) (h : Hdr) : Nat := up (h.shape.2 * efBits d.sfmt) 8

/-- Steps 2 and 3 of R398. The bytes a TFILL reads and writes are known once its header has passed. -/
def Eng.copyChecks (m : Eng) (r : Reader) (ctx kind : Nat) (d : CDesc) : JRes Eng :=
  if kind = 5 then do
    jcap 2 (checkCap d.src (pR + pG) [] 0)
    let (o, m1) ← m.fillHeader r ctx d
    failIf (!o.hdr.good) (.hdrCheck, 3, o.va)
    failIf (decide (o.hdr.efmt = 0)) (.tileUnconf, 3, o.va)
    failIf (!o.hdr.roleOk .fill d.kcol m1.s.features) (.hdrUnsupported, 3, o.va)
    jcap 2 (checkCap d.src (pR + pG) ((List.range o.hdr.shape.1).map (fun i => d.src.addr + BitVec.ofNat 64 (i * d.sstride))) (d.rowLen o.hdr))
    for p in o.hdr.parts d.kcol do
      jcap 3 (checkCap d.dst (pR + pW + pG) [o.va + BitVec.ofNat 64 p.1] p.2)
    return m1
  else do
    let l := if d.len = 0 then [] else d.lines kind
    jcap 2 (checkCap d.src (pR + pG) (l.map Prod.fst) d.len)
    jcap 3 (checkCap d.dst (pW + pG) (l.map Prod.snd) d.len)
    return m

/-- COPY_COMMAND_START: a free engine starts the command that reached it first, of those whose context goes on. -/
def execCopyCommandStart (e : Nat) (s : State) : Out :=
  let c := s.engine e
  match (if c.run.isSome then none else c.queue.find? (fun x => s.engineMayRun x.ctx)) with
  | none => .next s
  | some cmd =>
    let r := Reader.die (e / 4)
    let m : Eng := { s, w := s.newView }
    let start (s : State) (run : CopyRun) : Out :=
      .next ((s.setCpWin cmd.core cmd.ctx cmd.svc cmd.id 3).setEngine e { queue := c.queue.erase cmd, run := some run })
    if s.lostMemory cmd.desc then start s { cmd, words := [], view := m.w, fail := some (.mcheck, 1, cmd.descVa), trusted := false }
    else
      let (ws, ts, m1) := m.descriptor r cmd.ctx cmd.desc 4
      if !s.copyFieldsOk cmd.vcore.launch cmd.kind ws then
        start m1.s { cmd, words := ws, view := m1.w, fail := some (.engine, 1, 0), trusted := false }
      else match m1.copyChecks r cmd.ctx cmd.kind (CDesc.of ws ts) with
        | .error f => start m1.s { cmd, words := ws, view := m1.w, fail := some f, trusted := true }
        | .ok m2 => start m2.s { cmd, words := ws, view := m2.w, fail := none, trusted := true }

/-! ### Moving bytes (R398) -/

/-- Rows moved one after another, each from the source as it stood before it: the bytes written, and the failure that ended it. -/
def Eng.copyLines (r : Reader) (ctx len : Nat) : List (Word × Word) → Nat → Eng → Nat × Option JFail × Eng
  | [], n, m => (n, none, m)
  | (a, b) :: t, n, m =>
    let (bs, e1, m1) := Eng.readPrefix r ctx 2 (len / 65536 + 2) m a len
    let (k, e2, m2) := Eng.writePrefix ctx 3 (bs.length / 65536 + 2) m1 b bs 0
    match e2.orElse (fun _ => e1) with
    | some f => (n + k, some f, m2)
    | none => Eng.copyLines r ctx len t (n + k) m2

/-! ### TFILL (R399) -/

/-- A source element's value. -/
def sourceVal (e q : Nat) : FVal := match efFmt e with
  | some f => f.decode q
  | none => FVal.ofInt (efInt e q)

/-- An element converted for a tile: (m, k) is its place along the target's axes, (i, j) its row and column. -/
def fillElem (d : CDesc) (x : Oprd) (i j q : Nat) : Nat × Sticky :=
  let e := x.hdr.efmt
  let (m, k) := if d.kcol then (i, j) else (j, i)
  if efQa e then quantise (efBits e) d.rm (x.groupScale m k) (x.zeroPoint m k) (sourceVal d.sfmt q)
  else match (if x.hdr.slay = 2 then x.lineScale i else if x.hdr.slay = 3 then x.lineScale j else x.lineScale 0), efFmt e, efFmt d.sfmt with
    | some sc, some f, _ => deliver f d.rm false (divE (sourceVal d.sfmt q) sc)
    | _, some f, some g => cvtFmt g f d.rm d.sat q
    | _, some f, none => cvtFromInt f d.rm d.sat (efInt d.sfmt q)
    | _, none, some g => cvtToInt (efSigned e) (efBits e) d.rm d.sat (g.decode q)
    | _, none, none => (cvtInt (efSigned e) (efBits d.sfmt) (efBits e) d.sat (efInt d.sfmt q), 0)

/-- An element written into a tile in memory: its bytes, or its nibble of a byte. -/
def Eng.putElem (m : Eng) (ctx : Nat) (o : EOp) (i j v : Nat) : JRes Eng := do
  let off := o.hdr.elemAt i j
  let va := o.va + BitVec.ofNat 64 (32 + off / 8)
  if efBits o.hdr.efmt = 4 then
    let pa ← m.s.reach ctx 3 (pR + pW) va
    let old := (m.s.byte pa).toNat
    let new := if off % 8 = 0 then old / 16 * 16 + v % 16 else old % 16 + v % 16 * 16
    m.write ctx 3 va [BitVec.ofNat 8 new]
  else m.write ctx 3 va (bytesOf (efBits o.hdr.efmt / 8) v)

/-- Elements one after another: how many were written, the flags, and the failure that ended it. -/
def Eng.fillElems (r : Reader) (ctx : Nat) (d : CDesc) (o : EOp) (x : Oprd) :
    List (Nat × Nat) → Nat → Sticky → Eng → Nat × Sticky × Option JFail × Eng
  | [], n, g, m => (n, g, none, m)
  | (i, j) :: t, n, g, m =>
    let b := efBits d.sfmt
    let work : JRes (Sticky × Eng) := do
      let (bs, m1) ← m.read r ctx 2 (d.src.addr + BitVec.ofNat 64 (i * d.sstride + j * b / 8)) (up b 8)
      let (v, g1) := fillElem d x i j (ofBytes bs / 2 ^ (j * b % 8) % 2 ^ b)
      let m2 ← m1.putElem ctx o i j v
      return (g1, m2)
    match work with
    | .error f => (n, g, some f, m)
    | .ok (g1, m2) => Eng.fillElems r ctx d o x t (n + 1) (g ||| g1) m2

/-- A TFILL: the scale block is read, the elements are written, then ENGINE_FILLED and HCHK. -/
def Eng.fill (m : Eng) (r : Reader) (ctx : Nat) (d : CDesc) : Nat × Sticky × Option JFail × Eng :=
  let begin_ : JRes (EOp × Oprd × Eng) := do
    let (o, m1) ← m.fillHeader r ctx d
    let (scale, m2) ← m1.part r ctx o o.hdr.scaleoff (o.hdr.scaleLen d.kcol)
    return (o, { hdr := o.hdr, kcol := d.kcol, body := 0, scale, info := 0, open_ := Config.scaleBeyond m2.s.free },
      { m2 with s := { m2.s with free := m2.s.free + 1 } })
  match begin_ with
  | .error f => (0, 0, some f, m)
  | .ok (o, x, m1) =>
    let (n, g, e, m2) := Eng.fillElems r ctx d o x (positions o.hdr.shape.1 o.hdr.shape.2) 0 0 m1
    match e with
    | some f => (n, g, some f, m2)
    | none =>
      let ws := ({ o.hdr with filled := true } : Hdr).words
      let finish : JRes Eng := do
        let m3 ← m2.write ctx 3 (o.va + 14) ((bytesOf 8 (ws.getD 1 0).toNat).drop 6 |>.take 1)
        m3.write ctx 3 (o.va + 30) ((bytesOf 8 (ws.getD 3 0).toNat).drop 6)
      match finish with
      | .error f => (n, g, some f, m2)
      | .ok m3 => (n, g, none, m3)

/-! ### The end (R400) -/

/-- The ranges that a command may write: address and bytes. -/
def CDesc.targets (d : CDesc) (kind : Nat) : List (Word × Nat) :=
  if kind = 5 then [(d.dst.addr, min (d.dst.top - d.dst.addr.toNat) (2 ^ 32 + 32))] else (d.lines kind).map (fun p => (p.2, d.len))

/-- Whether a command would write into a page that is being moved, so that it is held (13 R228). -/
def State.copyHeld (s : State) (ctx kind : Nat) (d : CDesc) : Bool := (d.targets kind).any (fun p => s.rangeMoving ctx p.1 p.2)
/-- The moves note it. -/
def State.noteCopy (s : State) (ctx kind : Nat) (d : CDesc) : State := (d.targets kind).foldl (fun s p => s.noteRange ctx p.1 p.2) s

/-- A copy command ends: its nibble, its event where it is DONE, its record, its wake. -/
def State.endCopy (s : State) (c : CopyCmd) (ws : List Word) (trusted : Bool) (e : Ending) (x3 : Nat) (g : Sticky) : State :=
  let regs := recordRegs (recordHead c.id c.kind e.status e.operand g) e.addr (BitVec.ofNat 64 x3) c.vcore (ws.getD 2 0) s.time
  let s1 := s.setCpWin c.core c.ctx c.svc c.id e.nibble
  let s2 := match (if e.bad then none else c.event) with
    | some ev => s1.sendEventOf c.core c.ctx (if c.vcore.launch = noLaunch then none else some c.vcore.launch) true ev
    | none => s1
  s2.report c.core c.ctx c.vcore (copyWake ws) trusted e regs

/-- COPY_COMMAND_END: the command's bytes are moved or its elements converted, and it ends. -/
def execCopyCommandEnd (e : Nat) (s : State) : Out :=
  let c := s.engine e
  match c.run with
  | none => .next s
  | some run =>
    let cmd := run.cmd
    let idle (s : State) : State := s.setEngine e { c with run := none }
    match run.fail with
    | some f => .next ((idle s).endCopy cmd run.words run.trusted (.failed f) 0 0)
    | none =>
      let d := CDesc.of run.words [true, true, true, true]
      if s.copyHeld cmd.ctx cmd.kind d then .next (s.noteCopy cmd.ctx cmd.kind d)
      else
        let m : Eng := { s, w := run.view }
        let r := Reader.die (e / 4)
        let (n, g, f, m1) := if cmd.kind = 5 then m.fill r cmd.ctx d
          else
            let (n, f, m1) := Eng.copyLines r cmd.ctx d.len (d.lines cmd.kind) 0 m
            (n, 0, f, m1)
        .next ((idle m1.s).endCopy cmd run.words true (match f with | some f => .failed f | none => .done) n g)

end Sys2Proof.Machine
end

