-- ==== Sys2Proof/Machine/Host.lean ====
section
/-! DEFINITION. The host's commands on contexts (06 R118-R119, R121; 05 R95-R96, R98; 13 R227, R229). A command ends with a STATUS in CCMD;
one that the device cannot finish yet leaves the state as it is, and GO stays written. -/

namespace Sys2Proof.Machine

/-- Argument i of the context-control registers. -/
def State.arg (s : State) (i : Nat) : Word := Table.get 0 s.carg i

/-! ### CREATE and COMMIT -/

/-- CREATE's sizes (CARG2), where they keep to R119. -/
def sizesOk (w : Word) : Bool :=
  let within (hi lo a b : Nat) : Bool := decide (a ≤ fld w hi lo) && decide (fld w hi lo ≤ b)
  within 5 0 16 30 && within 13 8 (fld w 5 0) 30 && within 19 16 6 15 && within 27 24 6 15 && within 35 32 6 15 &&
    within 43 40 6 15 && within 53 48 20 40

/-- CREATE. -/
def State.create (s : State) (ctx : Nat) : Nat × State :=
  let w := s.arg 2
  if (s.ctx ctx).state ≠ .free then (2, s)
  else if (s.arg 0).toNat % 0x100000 ≠ 0 ∨ !sizesOk w then (4, s)
  else
    let ring (base : Word) (log : Nat) : RingSt := { base, log, wcount := 0, rcount := 0, waiting := [] }
    (0, s.setCtx ctx { Ctx.fresh with
      state := .building, root := s.arg 0, layBase := s.arg 1, layLog := fld w 5 0, layMax := fld w 13 8, dl := ring (s.arg 3) (fld w 19 16),
      hq := ring (s.arg 4) (fld w 27 24), eq := ring (s.arg 5) (fld w 35 32), sv := ring (s.arg 6) (fld w 43 40), castBase := s.arg 7,
      castLog := fld w 53 48, home := fbit w 63, cdrop := (s.ctx ctx).cdrop })

/-- Whether every page of [va, va + n) is mapped; the first argument bounds the number of pages. -/
def State.mapped (s : State) (ctx : Nat) : Nat → Nat → Nat → Bool
  | 0, _, n => decide (n = 0)
  | f + 1, va, n =>
    if n = 0 then true
    else if 2 ^ 56 ≤ va then false
    else match s.walk ctx (BitVec.ofNat 64 va) with
      | .leaf _ l =>
        let m := 2 ^ pageLog l.size - va % 2 ^ pageLog l.size
        if n ≤ m then true else State.mapped s ctx f (va + m) (n - m)
      | _ => false

/-- Whether a region of n bytes stands at a multiple of `align` and is mapped. -/
def State.regionOk (s : State) (ctx : Nat) (base : Word) (n align : Nat) : Bool :=
  decide (base.toNat % align = 0) && s.mapped ctx (n / 65536 + 2) base.toNat n

/-- Whether every region that CREATE named is aligned and mapped. -/
def State.regionsOk (s : State) (ctx : Nat) : Bool :=
  let x := s.ctx ctx
  s.regionOk ctx x.layBase (2 ^ x.layLog) (2 ^ x.layLog) && s.regionOk ctx x.castBase (2 ^ x.castLog) 65536 &&
    s.regionOk ctx x.dl.base (64 + 128 * 2 ^ x.dl.log) 4096 && s.regionOk ctx x.hq.base (64 + 64 * 2 ^ x.hq.log) 4096 &&
    s.regionOk ctx x.eq.base (64 + 64 * 2 ^ x.eq.log) 4096 && s.regionOk ctx x.sv.base (64 + 64 * 2 ^ x.sv.log) 4096

/-- COMMIT: the handle table is allocated, its check sequence starts at 1 (12 R204-R205). -/
def State.commitCtx (s : State) (ctx : Nat) : Nat × State :=
  if (s.ctx ctx).state ≠ .building then (2, s)
  else if !s.regionsOk ctx then (3, s)
  else (0, s.modCtx ctx (fun x => { x with state := .live, handles := [], checkSeq := 1 }))

/-! ### RESUME and DESTROY (05 R95-R96, R101) -/

/-- RESUME: dead letters that waited are written; a full ring, or held events without an actor, halt the context again. -/
def State.resumeCtx (s : State) (ctx : Nat) : Nat × State :=
  if (s.ctx ctx).state ≠ .halted then (2, s)
  else
    let s1 := ((s.modCtx ctx (fun x => { x with haltCause := 0 })).liveAgain ctx).pollRing ctx .deadLetter
    let x := s1.ctx ctx
    (0, if !x.dl.waiting.isEmpty then s1.haltCtx ctx 3
      else if x.pending.any (fun e => !e.fault) ∧ x.faultActor.isNone then s1.haltCtx ctx 2
      else s1)

/-- DESTROY. -/
def State.destroyCtx (s : State) (ctx : Nat) : Nat × State :=
  if !(s.ctx ctx).active then (2, s)
  else
    let s1 := (s.modCtx ctx (fun x => { x with state := .draining, stopper := none })).queuesGone ctx
    let s2 : State := { s1 with cores := s1.cores.map (fun p => if p.2.ctx = some ctx then (p.1, p.2.request .destroy s.cycle) else p) }
    (0, s2.stopAtWaits ((s.cores.filter (fun p => decide (p.2.ctx = some ctx))).map Prod.fst))

/-! ### SETMODE, SETFAULT, CODECOPY, PREEMPT, PROMOTE -/

/-- Whether a context accepts its settings. -/
def Ctx.settable (x : Ctx) : Bool := decide (x.state = .building) || x.active

/-- SETMODE (05 R98). -/
def State.setMode (s : State) (ctx : Nat) : Nat × State :=
  if !(s.ctx ctx).settable then (2, s)
  else if fld (s.arg 0) 63 8 ≠ 0 ∨ fld (s.arg 0) 3 2 = 3 then (4, s)
  else
    let s1 := s.modCtx ctx (fun x => { x with modemap := s.arg 0 })
    (0, if (s.ctx ctx).evovf ∨ !(s1.ctx ctx).evovf then s1
      else ((s.ctx ctx).events.map (fun p => BitVec.ofNat 16 p.1)).foldl (fun s e => s.handEvent ctx e) s1)

/-- SETFAULT. -/
def State.setFault (s : State) (ctx : Nat) : Nat × State :=
  if !(s.ctx ctx).settable then (2, s)
  else if fld (s.arg 0) 63 13 ≠ 0 then (4, s)
  else (0, s.modCtx ctx (fun x => { x with faultIdx := BitVec.ofNat 12 (fld (s.arg 0) 11 0), faultV := fbit (s.arg 0) 12 }))

/-- PREEMPT (05 R103). -/
def State.preemptGroup (s : State) (ctx : Nat) : Nat × State :=
  if (s.ctx ctx).state ≠ .live then (2, s)
  else
    let l := fld (s.arg 0) 31 0
    let g := fld (s.arg 1) 23 0
    match s.launch? l with
    | some x => if x.ctx = ctx ∧ g < x.count ∧ (x.group g).state = .resident then (0, s.unbindGroup l g .host) else (4, s)
    | none => (4, s)

/-- PROMOTE (13 R227): the range is offered to the PPU. -/
def State.offerPromotion (s : State) (ctx : Nat) : Nat × State :=
  if !(s.ctx ctx).active ∨ !(s.ctx ctx).promote then (2, s)
  else if (s.arg 0).toNat % 0x200000 ≠ 0 then (4, s)
  else (0, s.modCtx ctx (fun x => { x with offers := x.offers ++ [s.arg 0] }))

/-! ### ANSWER (06 R121) -/

/-- A record has its answer. -/
def State.answered (s : State) (ctx seq : Nat) : State := s.modCtx ctx (fun x => { x with asks := Table.erase x.asks seq })

/-- The answer to TLBMISS. -/
def State.answerTlb (s : State) (status c : Nat) : Option State := match (s.core c).run with
  | .waiting (.tlb va acc) _ =>
    if status = 1 then some (s.afterMiss c va acc false)
    else if status ≠ 0 then none
    else match (if fld (s.arg 2) 1 0 = 3 then none else leafOf (fld (s.arg 2) 1 0) (s.arg 1)) with
      | some l => some (if l.admits acc then (s.missFilled c va l).afterMiss c va acc true else s.afterMiss c va acc false)
      | none => none
  | _ => if status = 0 ∨ status = 1 then some s else none

/-- The answer to the TLBMISS of a PREF: nothing waits for it, and its leaf fills the TLBs of the core where that still serves the
context. -/
def State.answerPref (s : State) (ctx status c : Nat) (va : Word) : Option State :=
  if status = 1 then some s
  else if status ≠ 0 then none
  else match (if fld (s.arg 2) 1 0 = 3 then none else leafOf (fld (s.arg 2) 1 0) (s.arg 1)) with
    | some l => some (if l.admits .read ∧ (s.core c).ctx = some ctx then s.prefFilled c va l else s)
    | none => none

/-- The answer to PAGE for a firing that its core has been swapped out with: it is replayed, or ended, once its group is bound. -/
def Shadow.answer (h : Shadow) (seq : Nat) (replay : Bool) : Shadow :=
  match h.aborted.find? (fun a => decide (a.seq = some seq)) with
  | none => h
  | some a =>
    if replay then { h with aborted := h.aborted.erase a, replays := h.replays ++ [a.firing] }
    else { h with aborted := h.aborted.map (fun b => if b = a then { b with seq := none, refused := true } else b) }

/-- The answer to PAGE. -/
def State.answerPage (s : State) (ctx seq status c : Nat) : Option State :=
  if ¬ (status = 0 ∨ status = 1) then none
  else match (s.core c).aborted.find? (fun a => decide (a.seq = some seq)) with
    | some a =>
      if status = 0 then
        let lo := pageOf a.va * 65536
        some ((s.dropTlb ctx lo (lo + 65536)).replayAborted c a)
      else some (s.endAborted c a .page)
    | none => some (s.modCtx ctx (fun x => { x with shadows := x.shadows.map (fun p => (p.1, p.2.answer seq (decide (status = 0)))) }))

/-- The answer to PLACE; inner none where the cores are not free yet. -/
def State.answerPlace (s : State) (status l g : Nat) : Option (Option State) :=
  if status = 1 then some (some s)
  else if status ≠ 0 then none
  else match s.launch? l with
    | none => some (some s)
    | some x =>
      if !s.wantsSlot l g x then some (some s)
      else
        let d := fld (s.arg 1) 2 0
        let s1 := s.bindGroup (s.globalDie d) (s.emptySlot d) l g (fld (s.arg 1) 12 8) (fld (s.arg 1) 20 16)
        let still := match s1.launch? l with | some y => decide ((y.group g).state = (x.group g).state) | none => false
        if still && decide ((s1.ctx x.ctx).state = .live) then some none else some (some s1)

/-- The answer to EVENT: the model keeps the state that the host has applied, for the entry's return (09 R166). -/
def State.answerEvent (s : State) (ctx status : Nat) (e : BitVec 16) (op : Nat) (who : Option Waiter) : Option State :=
  if status ≠ 0 then none
  else
    let mark (v : Bool) : State := s.modCtx ctx (fun x => x.setEvent e { x.event e with set := v })
    let done (s : State) : State := match who with
      | some (.queue q) => s.completePacket q (s.headPacket q)
      | some (.remote c n) => s.tellAway ctx e c n 9 0
      | _ => s
    some (match op, who with
      | 1, _ => done (mark true)
      | 2, _ => done (mark false)
      | 4, some (.remote c n) => s.tellAway ctx e c n 8 (bit (fbit (s.arg 1) 0))
      | 3, some w => s.wakeWaiter ctx e w
      | 4, some (.core k) => match (s.core k).run with
        | .waiting (.eventHost _ _ _ d) sp => ((s.freshPhase k).finishPut k d (bit (fbit (s.arg 1) 0)) sp).getD s
        | _ => s
      | _, _ => s)

/-- Lay-by entries written to the ring from its read count on. -/
def State.relay (s : State) (ctx : Nat) : Nat → List LayEntry → State
  | _, [] => s
  | i, e :: t =>
    let x := s.ctx ctx
    (((s.writeVa ctx (x.layBase + BitVec.ofNat 64 (256 * (i % x.layCap))) (layWords ctx e)).getD s).relay ctx (i + 1) t)

/-- The answer to LAYBY (05 R100). -/
def State.answerLayby (s : State) (ctx status : Nat) : Option State :=
  let x := s.ctx ctx
  let log := (s.arg 2).toNat
  if status = 1 then some s
  else if status ≠ 0 ∨ log ≤ x.layLog ∨ 30 < log ∨ (s.arg 1).toNat % 2 ^ log ≠ 0 then none
  else
    let s1 := s.modCtx ctx (fun x => { x with layBase := s.arg 1, layLog := log, layFull := false,
                                              layWrite := x.layRead + BitVec.ofNat 64 x.lay.length })
    some (s1.relay ctx x.layRead.toNat x.lay)

/-- The answer to SPEC (12 R217): a refusal installs the generic code as it stood when the SPEC was issued; inner none where the device finds no pages for the words. -/
def State.answerSpec (s : State) (ctx status c index : Nat) (generic : List Word) : Option (Option State) :=
  let k := c
  match (s.core k).run, (s.core k).again with
  | .waiting (.spec _) sp, some (.spec f) =>
    let n := (s.arg 2).toNat
    if 3 < status then none
    else
      let words : Option (List Word) := if status = 3 ∨ 8192 < n then some generic
        else (s.readVa ctx (n * 8 / 65536 + 2) (s.arg 1) (8 * n)).map (toWords n)
      match words with
      | none => none
      | some ws =>
        let refused := decide (status = 3) || decide (8192 < n)
        let s1 : State := { s with free := s.free + 1 }
        match s1.makeResidual k index f.d true (refused || decide (status = 1)) (!refused && decide (status = 2))
            (Config.hostFuel s.free).toNat ws with
        | some s2 => some (some ((s2.freshPhase k).finishWord k sp))
        | none => some none
  | _, _ => if 3 < status then none else some (some s)

/-- ANSWER: STATUS and the state; none where it has to wait. -/
def State.answer (s : State) (ctx : Nat) : Option (Nat × State) :=
  let seq := fld (s.arg 0) 31 0
  let status := fld (s.arg 0) 39 32
  if !(s.ctx ctx).active then some (2, s)
  else match Table.find? (s.ctx ctx).asks seq with
    | none => some (4, s)
    | some a =>
      let s0 := s.answered ctx seq
      let simple (r : Option State) : Option (Nat × State) := match r with
        | some s1 => some (0, s1)
        | none => some (4, s)
      let maybe (r : Option (Option State)) : Option (Nat × State) := match r with
        | some (some s1) => some (0, s1)
        | some none => none
        | none => some (4, s)
      match a with
      | .tlb c => simple (s0.answerTlb status c)
      | .pref c va => simple (s0.answerPref ctx status c va)
      | .page c => simple (s0.answerPage ctx seq status c)
      | .place l g => maybe (s0.answerPlace status l g)
      | .event e op who => simple ((s0.answerEvent ctx status e op who).map (fun s1 => (s1.settleEvent ctx e).returnEvents (e.toNat % 8)))
      | .layby => simple (s0.answerLayby ctx status)
      | .spec c i code => maybe (s0.answerSpec ctx status c i code)

/-! ### Commands -/

/-- A command: its STATUS and the state; none where it has to wait. -/
def State.command (s : State) (op ctx : Nat) : Option (Nat × State) := match op with
  | 1 => some (s.create ctx)
  | 2 => some (s.commitCtx ctx)
  | 3 => some (s.resumeCtx ctx)
  | 4 => some (s.destroyCtx ctx)
  | 5 => some (s.setMode ctx)
  | 6 => some (s.setFault ctx)
  | 7 => s.answer ctx
  | 8 =>
    if !(s.ctx ctx).active then some (2, s)
    else match s.codeCopy ctx (s.arg 0) with
      | some (some s1) => some (0, s1)
      | some none => none
      | none => some (4, s)
  | 9 => some (s.preemptGroup ctx)
  | 10 => some (s.offerPromotion ctx)
  | _ => some (4, s)

/-- A command written to CCMD with GO (R118). Before READY the device accepts none (23 R428-R429). -/
def State.runCommand (s : State) (op ctx : Nat) : State :=
  if s.mgmt.boot ≠ .ready then s
  else match s.command op ctx with
    | some (status, s1) => { s1 with ccmd := BitVec.ofNat 64 (op % 16 + ctx % 256 * 2 ^ 8 + status * 2 ^ 16) }
    | none => s

/-- CREATE. -/
def execCreate (ctx : Nat) (s : State) : Out := .next (s.runCommand 1 ctx)
/-- COMMIT. -/
def execCommit (ctx : Nat) (s : State) : Out := .next (s.runCommand 2 ctx)
/-- RESUME. -/
def execResume (ctx : Nat) (s : State) : Out := .next (s.runCommand 3 ctx)
/-- DESTROY. -/
def execDestroy (ctx : Nat) (s : State) : Out := .next (s.runCommand 4 ctx)
/-- SETMODE. -/
def execSetmode (ctx : Nat) (s : State) : Out := .next (s.runCommand 5 ctx)
/-- SETFAULT. -/
def execSetfault (ctx : Nat) (s : State) : Out := .next (s.runCommand 6 ctx)
/-- ANSWER. -/
def execAnswer (ctx : Nat) (s : State) : Out := .next (s.runCommand 7 ctx)
/-- CODECOPY. -/
def execCodecopy (ctx : Nat) (s : State) : Out := .next (s.runCommand 8 ctx)
/-- PREEMPT. -/
def execPreempt (ctx : Nat) (s : State) : Out := .next (s.runCommand 9 ctx)
/-- PROMOTE. -/
def execPromote (ctx : Nat) (s : State) : Out := .next (s.runCommand 10 ctx)

/-! ### The scrub (05 R96) -/

/-- Zeros over a region of a context's virtual memory, page by page; the first argument bounds the number of pages. -/
def State.zeroVa (ctx : Nat) : Nat → Nat → Nat → State → State
  | 0, _, _, s => s
  | f + 1, va, n, s =>
    if n = 0 then s
    else
      let m := min n (65536 - va % 65536)
      State.zeroVa ctx f (va + m) (n - m) (match s.vaToPa ctx .write (BitVec.ofNat 64 va) with
        | some pa => s.zeroFrame pa m
        | none => s)

/-- The casts of a context's launches and of its service virtual core are cleared. -/
def State.zeroCasts (s : State) (ctx : Nat) : State :=
  s.launches.foldl (fun s p => match p.2.cast with
    | some a => if p.2.ctx = ctx then s.zeroFrame a (p.2.w * p.2.h * castArea) else s
    | none => s) (match (s.ctx ctx).svcCast with
    | some a => s.zeroFrame a castArea
    | none => s)

/-- Everything of a context is cleared on a core. -/
def Core.scrubbed (c : Core) (ctx : Nat) : Core :=
  let other := c.held.filter (fun h => decide (h.owner.ctx ≠ ctx))
  let tlb := c.tlb.filter (fun e => decide (e.ctx ≠ ctx))
  if c.ctx = some ctx then { Core.fresh with tlb, held := other } else { c with tlb, held := other }

/-- Everything of a context is cleared on a cluster. -/
def Cluster.scrubbed (u : Cluster) (ctx : Nat) : Cluster :=
  { u with queue := u.queue.filter (fun j => decide (j.ctx ≠ ctx)), me := u.me.filter (fun r => decide (r.job.ctx ≠ ctx)),
           je := u.je.filter (fun p => decide (p.2.job.ctx ≠ ctx)), slots := u.slots.filter (fun p => decide (p.2.ctx ≠ ctx)),
           tlb := u.tlb.filter (fun e => decide (e.ctx ≠ ctx)) }

/-- Everything of a context is cleared on a Copy Engine. -/
def CopyEngine.scrubbed (e : CopyEngine) (ctx : Nat) : CopyEngine :=
  { queue := e.queue.filter (fun c => decide (c.ctx ≠ ctx)), run := e.run.filter (fun r => decide (r.cmd.ctx ≠ ctx)) }

/-- The pages that the device has mapped for a context's kernels and residuals. -/
def State.freePages (s : State) (ctx : Nat) : State :=
  let x := s.ctx ctx
  let code := x.kernels.flatMap (fun p => p.2.pages)
  let residuals := (x.handles.filter (fun p => p.2.residual && decide (p.2.state ≠ .free))).flatMap (fun p => codePages p.2.codeva p.2.words.toNat)
  s.unmapPages ctx (code ++ residuals)

/-- The frames that the device has taken for a context, which its tables map and no other context's, and those of its moves in progress, go back
to the Plinth (log entry 46). -/
def State.releaseFrames (s : State) (ctx : Nat) : State :=
  let others := (s.ctxs.filter (fun p => decide (p.1 ≠ ctx) && decide (p.2.state ≠ .free))).flatMap (fun p =>
    (s.leavesOf p.1).map (fun l => l.2.2.frame))
  let mine := (s.moving.filter (fun m => decide (m.ctx = ctx))).map Move.new ++
    ((s.leavesOf ctx).map (fun l => l.2.2.frame)).filter (fun a => decide (a ∉ others))
  mine.foldl State.freeFrame s

/-- Everything of a context is cleared, and its id is FREE. What was still on its way is discarded and counted. -/
def State.scrub (s : State) (ctx : Nat) : State :=
  let x := s.ctx ctx
  let dropped := (s.flights.filter (fun f => decide (f.ctx = ctx))).length
  let s1 := ((State.zeroVa ctx (2 ^ x.layLog / 65536 + 1) x.layBase.toNat (2 ^ x.layLog) s).zeroCasts ctx).freePages ctx
  let s2 := State.zeroVa ctx (128 * 2 ^ x.dl.log / 65536 + 2) x.dl.base.toNat (64 + 128 * 2 ^ x.dl.log) s1 |>.releaseFrames ctx
  let gone := (s.launches.filter (fun p => decide (p.2.ctx = ctx))).map Prod.fst
  { s2 with
    cores := s2.cores.map (fun p => (p.1, p.2.scrubbed ctx)),
    clusters := s2.clusters.map (fun p => (p.1, p.2.scrubbed ctx)),
    engines := s2.engines.map (fun p => (p.1, p.2.scrubbed ctx)),
    flights := s2.flights.filter (fun f => decide (f.ctx ≠ ctx)),
    evops := s2.evops.filter (fun o => decide (o.ctx ≠ ctx)),
    moving := s2.moving.filter (fun m => decide (m.ctx ≠ ctx)),
    launches := s2.launches.filter (fun p => decide (p.2.ctx ≠ ctx)),
    queues := s2.queues.map (fun p => (p.1, { p.2 with pending := p.2.pending.filter (fun l => decide (l ∉ gone)) })),
    dies := s2.dies.map (fun p => (p.1, { p.2 with binds := p.2.binds.filter (fun b => decide (fld b.2.b0 63 56 ≠ ctx)) })),
    ctxs := Table.insert s2.ctxs ctx { Ctx.fresh with cdrop := x.cdrop + BitVec.ofNat 64 dropped } }

/-- CONTEXT_SCRUB: every core of the DRAINING context is idle. -/
def execContextScrub (ctx : Nat) (s : State) : Out :=
  if (s.ctx ctx).state ≠ .draining ∨ s.cores.any (fun p => decide (p.2.ctx = some ctx) && decide (p.2.run ≠ .idle)) then .next s
  else .next (s.scrub ctx)

end Sys2Proof.Machine
end

