-- ==== Sys2Proof/Machine/Junction.lean ====
section
/-! DEFINITION. The Junction Engine (19 R370-R374, 04 R90). -/

namespace Sys2Proof.Machine

/-! ### The descriptor and the tiles (R370-R371) -/

/-- The fields of W12. -/
def w12 (ws : List Word) (hi lo : Nat) : Nat := fld (ws.getD 12 0) hi lo
/-- Two layers. -/
def jTwo (ws : List Word) : Bool := fbit (ws.getD 12 0) 0
/-- Whether the edges carry features. -/
def jFeat (ws : List Word) : Bool := decide (ws.getD 4 0 ≠ 0 ∨ ws.getD 5 0 ≠ 0)

/-- Step 1 of R363 on a JEDGE's descriptor. A WBCAP that is not used must be sixteen zero bytes, untagged. -/
def State.jedgeFieldsOk (s : State) (l : Nat) (ws : List Word) (ts : List Bool) : Bool :=
  decide (w12 ws 2 1 ≠ 3) && decide (w12 ws 4 3 ≠ 3) && decide (w12 ws 7 7 = 0) && decide (w12 ws 63 44 = 0) &&
  decide (ws.getD 14 0 = 0) && decide (ws.getD 15 0 = 0) &&
  (jTwo ws || (decide (ws.getD 8 0 = 0) && decide (ws.getD 9 0 = 0) && !ts.getD 4 false)) &&
  s.inLaunch l (w12 ws 31 20) (w12 ws 43 32)

/-- The tiles of a job. -/
structure JTiles where
  e : EOp
  x : EOp
  ef : Option EOp
  wa : EOp
  wb : Option EOp
  g : EOp
  deriving DecidableEq, Repr

/-- Every tile, in the order of the descriptor. -/
def JTiles.all (t : JTiles) : List EOp := [t.e, t.x] ++ t.ef.toList ++ [t.wa] ++ t.wb.toList ++ [t.g]
/-- Every tile but the aggregate. -/
def JTiles.inputs (t : JTiles) : List EOp := [t.e, t.x] ++ t.ef.toList ++ [t.wa] ++ t.wb.toList

/-- V and F. -/
def JTiles.v (t : JTiles) : Nat := t.x.hdr.shape.1
/-- F. -/
def JTiles.f (t : JTiles) : Nat := t.x.hdr.shape.2
/-- Fe. -/
def JTiles.fe (t : JTiles) : Nat := (t.ef.map (fun o => o.hdr.shape.2)).getD 0
/-- H. -/
def JTiles.h (t : JTiles) : Nat := t.wa.hdr.shape.1
/-- Fo. -/
def JTiles.fo (t : JTiles) : Nat := (t.wb.map (fun o => o.hdr.shape.1)).getD t.h
/-- The aggregate's header as the job leaves it (R373, 11 R190). -/
def JTiles.out (t : JTiles) : Hdr := { t.g.hdr with efmt := 2, rows := t.v, cols := t.fo, filled := true, trans := false, dirty := false }

/-- The headers, in the order of the descriptor. -/
def Eng.jHeaders (m : Eng) (r : Reader) (ctx : Nat) (ws : List Word) (ts : List Bool) : JRes (JTiles × Eng) := do
  let cap := granuleCap ws ts
  let (e, m1) ← m.header r ctx 2 (cap 0) pR .edges true
  let (x, m2) ← m1.header r ctx 3 (cap 1) pR .feature false
  let (ef, m3) ← (if jFeat ws ∨ ts.getD 2 false then do
      let (o, n) ← m2.header r ctx 4 (cap 2) pR .feature false
      return (some o, n)
    else .ok (none, m2))
  let (wa, m4) ← m3.header r ctx 5 (cap 3) pR .weight true
  let (wb, m5) ← (if jTwo ws then do
      let (o, n) ← m4.header r ctx 6 (cap 4) pR .weight true
      return (some o, n)
    else .ok (none, m4))
  let (g, m6) ← m5.header r ctx 7 (cap 5) (pR + pW) .mem true
  return ({ e, x, ef, wa, wb, g }, m6)

/-- Whether the aggregate's header fails R188 where R371 does not set it aside. -/
def Hdr.aggregateBad (h : Hdr) : Bool := decide (h.slay ≠ 0) || decide (h.spar ≠ 0) || decide (3 < h.swz) || h.resv || decide (h.zpf ≠ 0) ||
  decide (h.group ≠ 0) || decide (h.scaleoff ≠ 0) || decide (h.metaoff ≠ 0)

/-- The count of edges (W13). -/
def edgeCount (ws : List Word) (rows : Nat) : Nat :=
  if fld (ws.getD 13 0) 63 32 = 0 then rows - fld (ws.getD 13 0) 31 0 else fld (ws.getD 13 0) 63 32

/-- The descriptor's words with the count of edges written out. -/
def withCount (ws : List Word) (rows : Nat) : List Word :=
  ws.set 13 (BitVec.ofNat 64 (fld (ws.getD 13 0) 31 0 + edgeCount ws rows * 2 ^ 32))

/-- A signed 32-bit element. -/
def sgn32 (n : Nat) : Int := if n < 2 ^ 31 then (n : Int) else (n : Int) - 2 ^ 32

/-- The source and destination of edge i of an edge list. -/
def Oprd.edge (x : Oprd) (i : Nat) : Int × Int :=
  (sgn32 ((x.stored (if x.hdr.trans then 0 else i) (if x.hdr.trans then i else 0)).headD 0),
   sgn32 ((x.stored (if x.hdr.trans then 1 else i) (if x.hdr.trans then i else 1)).headD 0))

/-- The checks of R371 and R374, with the edge count written into the descriptor's words. -/
def Eng.jedgeChecks (m : Eng) (r : Reader) (ctx : Nat) (ws : List Word) (ts : List Bool) : JRes (List Word × Eng) := do
  let (t, m1) ← m.jHeaders r ctx ws ts
  let fmt := t.x.hdr.efmt
  let rows := t.e.hdr.shape.1
  let e0 := fld (ws.getD 13 0) 31 0
  failFirst t.all (fun o => !o.hdr.good) .hdrCheck
  failFirst t.inputs (fun o => decide (o.hdr.efmt = 0)) .tileUnconf
  failFirst t.all (fun o => if o.op = 7 then o.hdr.aggregateBad else !o.hdr.roleOk o.role o.kcol m1.s.features) .hdrUnsupported
  failFirst t.inputs (fun o => decide (4 ≤ o.op ∧ o.hdr.efmt ≠ fmt) && !(decide (5 ≤ o.op) && efQa o.hdr.efmt)) .hdrUnsupported
  failFirst t.all (fun o => match o.op with
    | 2 => decide (rows < e0 + fld (ws.getD 13 0) 63 32) || decide (rows < e0) || decide (t.e.hdr.shape.2 ≠ 2)
    | 3 => decide (128 < t.f)
    | 4 => decide (o.hdr.shape.1 ≠ rows ∨ 128 < t.fe)
    | 5 => decide (128 < t.h ∨ o.hdr.shape.2 < 2 * t.f + t.fe + 1 ∨ 512 < o.hdr.shape.2)
    | 6 => decide (128 < t.fo ∨ o.hdr.shape.2 < t.h + 1 ∨ 512 < o.hdr.shape.2)
    | _ => !t.out.layoutOk true) .hdrMismatch
  (if fbit (ws.getD 12 0) 5 then failFirst t.inputs (fun o => o.hdr.strictBad) .hdrMismatch else .ok ())
  m1.s.checkBodies ctx t.all
  let (es, m2) ← m1.operand r ctx t.e
  let n := edgeCount ws rows
  let bad (i : Nat) : Bool :=
    let (a, b) := es.edge i
    decide (a < 0 ∨ (t.v : Int) ≤ a ∨ b < 0 ∨ (t.v : Int) ≤ b)
  match ((List.range n).map (e0 + ·)).find? bad with
  | some i => .error (.engine, 2, t.e.va + BitVec.ofNat 64 (32 + t.e.hdr.elemAt i 0 / 8))
  | none => return (withCount ws rows, m2)

/-- JEDGE_START: the Junction Engine takes the JEDGE whose turn it is. -/
def execJedgeStart (u : Nat) (s : State) : Out :=
  let c := s.cluster u
  match (if c.me.isSome then none else s.turnOf u) with
  | none => .next s
  | some (n, j) =>
    if !j.edge ∨ (Table.find? c.je n).isSome then .next s
    else
      let r := Reader.cluster u
      let (run, s1) := s.startJob r j 8 (s.jedgeFieldsOk j.vcore.launch) (fun ws ts m => m.jedgeChecks r j.ctx ws ts)
      .next ((s1.jobStarted j).setCluster u { c with je := Table.insert c.je n run })

/-! ### Messages of edges (R372) -/

/-- A zero of a format. -/
def zeroVal : FVal := .fin false 0 0
/-- One. -/
def oneVal : FVal := .fin false 1 0

/-- One layer: a weight tile times a vector, each element from +0; a position that nothing fills contributes an exact zero. -/
def layer (w : Oprd) (nbv : Nat) (vec : List (Option FVal)) : List Nat × Sticky :=
  let n := vec.length
  let out := (List.range w.hdr.shape.1).map (fun j =>
    let scale (k : Nat) : Option Nat := if efQa w.hdr.efmt then some (w.groupScale j k) else none
    sumBlocks .f32 nbv scale (fun k => match vec.getD k none with
      | some v => kProduct (w.values nbv j k) [v]
      | none => .zero 0) 0 (up n 16) n 0)
  (out.map Prod.fst, allBits out)

/-- act(x). -/
def jAct (act x : Nat) : Nat × Sticky := match Fmt.f32.decode x with
  | .nan _ => (x, 0)
  | v =>
    if act = 1 then (relu x, 0)
    else if act = 2 ∧ v.lt zeroVal then
      let y := mulE v (.fin false 1 (-3))
      deliver .f32 .rne false y
    else (x, 0)

/-- The operands of a job but its edge list, read. -/
structure JOprds where
  x : Oprd
  ef : Option Oprd
  wa : Oprd
  wb : Option Oprd
  deriving DecidableEq, Repr

/-- Row r of a feature tile as values. A feature tile's K axis is its row axis, so logical (r, f) is at (m, k) = (f, r). -/
def featureRow (o : Oprd) (nbv r n : Nat) : List FVal := (List.range n).map (fun f => (o.values nbv f r).headD zeroVal)

/-- m_e of the edge i with source a and destination b. -/
def edgeMessage (t : JTiles) (o : JOprds) (nbv act : Nat) (i a b : Nat) : List Nat × Sticky :=
  let da := t.wa.hdr.shape.2
  let feats := featureRow o.x nbv a t.f ++ featureRow o.x nbv b t.f ++ (match o.ef with | some e => featureRow e nbv i t.fe | none => [])
  let filled (n : Nat) (l : List FVal) : List (Option FVal) := l.map some ++ List.replicate (n - 1 - l.length) none ++ [some oneVal]
  let u := filled da feats
  let (h, g) := layer o.wa nbv u
  match o.wb, t.wb with
  | some wb, some ob =>
    let fx := (efFmt t.x.hdr.efmt).getD .bf16
    let hidden := h.map (fun y =>
      let (z, g1) := jAct act y
      let (q, g2) := cvtFmt .f32 fx .rne false z
      (q, g1 ||| g2))
    let vec := hidden.map (fun p => inputVal fx nbv p.1)
    let (m, g3) := layer wb nbv (filled ob.hdr.shape.2 vec)
    (m, g ||| allBits hidden ||| g3)
  | _, _ =>
    let out := h.map (jAct act)
    (out.map Prod.fst, g ||| allBits out)

/-! ### Reductions (R373, 04 R90) -/

/-- The virtual address of element (d, q) of the aggregate. -/
def JTiles.at_ (t : JTiles) (d q : Nat) : Word := t.g.va + BitVec.ofNat 64 (32 + t.out.bitAt d q / 8)

/-- The aggregate's element as it stands. -/
def State.aggregate (s : State) (ctx : Nat) (t : JTiles) (d q : Nat) : JRes Nat := do
  let va := t.at_ d q
  let a ← s.reach ctx 7 pR va
  let b ← s.reach ctx 7 pR (va + 3)
  let first := min 4 (65536 - va.toNat % 65536)
  return ofBytes (s.bytes a first ++ s.bytes (b + 1 - (4 - first)) (4 - first))

/-- An FP32 pattern written as the aggregate's element. -/
def Eng.putAggregate (m : Eng) (ctx : Nat) (t : JTiles) (d q v : Nat) : JRes Eng := m.write ctx 7 (t.at_ d q) (bytesOf 4 v)

/-- A message reduced into row d, element by element from q on; `fresh` says that no edge has reached the row. -/
def Eng.reduceRow (ctx : Nat) (t : JTiles) (red : Nat) (fresh : Bool) (d : Nat) : List Nat → Nat → Sticky → Eng → JRes (Sticky × Eng)
  | [], _, g, m => .ok (g, m)
  | v :: rest, q, g, m => do
    let old ← (if fresh then .ok 0 else m.s.aggregate ctx t d q)
    let (y, g1) := if fresh then (v, 0) else if red = 1 then fminmax .f32 true old v else fadd .f32 .rne false old v
    let m1 ← m.putAggregate ctx t d q y
    Eng.reduceRow ctx t red fresh d rest (q + 1) (g ||| g1) m1

/-- Edges one after another, with each vertex's running count. -/
def Eng.edges (ctx nbv act red : Nat) (t : JTiles) (es : Oprd) (o : JOprds) :
    List Nat → Table Nat → Sticky → Eng → JRes (Table Nat × Sticky × Eng)
  | [], degs, g, m => .ok (degs, g, m)
  | i :: rest, degs, g, m => do
    let (a, b) := es.edge i
    let d := b.toNat
    let (v, g1) := edgeMessage t o nbv act i a.toNat d
    let (g2, m1) ← Eng.reduceRow ctx t red (decide (Table.get 0 degs d = 0)) d v 0 (g ||| g1) m
    Eng.edges ctx nbv act red t es o rest (Table.set 0 degs d (Table.get 0 degs d + 1)) g2 m1

/-- The tiles and operands of a running job, read in its phase. -/
def Eng.jOperands (m : Eng) (r : Reader) (ctx : Nat) (ws : List Word) : JRes (JTiles × Oprd × JOprds × Eng) := do
  let used := [true, true, jFeat ws, true, jTwo ws, true]
  let (t, m1) ← m.jHeaders r ctx ws used
  let (es, m2) ← m1.operand r ctx t.e
  let (x, m3) ← m2.operand r ctx t.x
  let (ef, m4) ← (match t.ef with
    | some o => do
      let (p, n) ← m3.operand r ctx o
      return (some p, n)
    | none => .ok (none, m3))
  let (wa, m5) ← m4.operand r ctx t.wa
  let (wb, m6) ← (match t.wb with
    | some o => do
      let (p, n) ← m5.operand r ctx o
      return (some p, n)
    | none => .ok (none, m5))
  return (t, es, { x, ef, wa, wb }, m6)

/-- Edges of an edge-tile. -/
def edgeTile : Nat := 256

/-- The aggregate's address and the bytes it may take. -/
def Running.aggregate (run : Running) : Word × Nat :=
  let c := granuleCap run.words [true, true, true, true, true, true] 5
  (c.addr, min (c.top - c.addr.toNat) (2 ^ 32 + 32))

/-- Whether the aggregate lies in a page that is being moved, so that its writes are held (13 R228). -/
def State.aggregateHeld (s : State) (run : Running) : Bool := s.rangeMoving run.job.ctx run.aggregate.1 run.aggregate.2
/-- The moves note it. -/
def State.noteAggregate (s : State) (run : Running) : State := s.noteRange run.job.ctx run.aggregate.1 run.aggregate.2

/-- EDGE_TILE_BOUNDARY: the JEDGE whose turn it is does its next edge-tile. A failure leaves the aggregate as it stood before the
tile. -/
def execEdgeTileBoundary (u : Nat) (s : State) : Out :=
  let c := s.cluster u
  match (if c.me.isSome then none else s.turnOf u) with
  | none => .next s
  | some (n, j) => match Table.find? c.je n with
    | none => .next s
    | some run =>
      if !j.edge then .next s
      else if s.aggregateHeld run then .next (s.noteAggregate run)
      else
        let ws := run.words
        let r := Reader.cluster u
        let count := min edgeTile (edgeStop ws - run.next)
        let work : JRes (Table Nat × Sticky × Eng) := do
          let (t, es, o, m) ← Eng.jOperands { s, w := run.view } r j.ctx ws
          Eng.edges j.ctx j.nbv (w12 ws 2 1) (w12 ws 4 3) t es o ((List.range count).map (run.next + ·)) run.degs run.flags m
        match work with
        | .error f => .next (s.setCluster u { c with last := n, je := Table.insert c.je n { run with fail := some f } })
        | .ok (degs, g, m) =>
          let done : Running := { run with view := m.w, done := run.done + count, next := run.next + count, degs, flags := g }
          .next (m.s.setCluster u { c with last := n, je := Table.insert c.je n done })

/-! ### The end (R373) -/

/-- A row completed: a mean is multiplied by its reciprocal, a row that no edge has reached becomes +0. -/
def Eng.finishRow (ctx : Nat) (t : JTiles) (red deg d : Nat) : List Nat → Sticky → Eng → JRes (Sticky × Eng)
  | [], g, m => .ok (g, m)
  | q :: rest, g, m =>
    if deg = 0 then do
      let m1 ← m.putAggregate ctx t d q 0
      Eng.finishRow ctx t red deg d rest g m1
    else if red = 2 then do
      let old ← m.s.aggregate ctx t d q
      let (rcp, g1) := deliver .f32 .rne false (divE oneVal (FVal.ofInt deg))
      let (y, g2) := fmul .f32 .rne false old rcp
      let m1 ← m.putAggregate ctx t d q y
      Eng.finishRow ctx t red deg d rest (g ||| g1 ||| g2) m1
    else .ok (g, m)

/-- Every row completed, then the header. -/
def Eng.finishRows (ctx : Nat) (t : JTiles) (red : Nat) (degs : Table Nat) : List Nat → Sticky → Eng → JRes (Sticky × Eng)
  | [], g, m => do
    let m1 ← m.write ctx 7 t.g.va (t.out.words.flatMap (fun w => bytesOf 8 w.toNat))
    return (g, m1)
  | d :: rest, g, m => do
    let (g1, m1) ← Eng.finishRow ctx t red (Table.get 0 degs d) d (List.range t.fo) g m
    Eng.finishRows ctx t red degs rest g1 m1

/-- JEDGE_END: a JEDGE that has nothing more to do completes the aggregate, unless it failed or was cancelled. -/
def execJedgeEnd (u : Nat) (s : State) : Out :=
  let c := s.cluster u
  match List.find? (fun p => p.2.over) c.je with
  | none => .next s
  | some (n, run) =>
    let j := run.job
    let idle (s : State) : State := s.setCluster u { c with queue := c.queue.filter (fun x => !x.same j), je := Table.erase c.je n }
    match run.fail with
    | some f => .next ((idle s).endJob j run.words run.trusted (.failed f) run.done run.flags)
    | none =>
      if j.cancelled then .next ((idle s).endJob j run.words true .cancelled run.done run.flags)
      else if s.aggregateHeld run then .next (s.noteAggregate run)
      else
        let work : JRes (Sticky × Eng) := do
          let (t, m) ← Eng.jHeaders { s, w := run.view } (.cluster u) j.ctx run.words
            [true, true, jFeat run.words, true, jTwo run.words, true]
          Eng.finishRows j.ctx t (w12 run.words 4 3) run.degs (List.range t.v) run.flags m
        match work with
        | .error f => .next ((idle s).endJob j run.words true (.failed f) run.done run.flags)
        | .ok (g, m) => .next ((idle m.s).endJob j run.words true .done run.done g)

end Sys2Proof.Machine
end

