-- ==== Sys2Proof/Machine/LinkEvents.lean ====
section
/-! DEFINITION. What happens on the links: the state machine of 14 R231, flits that arrive (R233), routes (R234-R235), the loss of a
package (R237) or of a die (R238), the time base (R239-R241). -/

namespace Sys2Proof.Machine

/-- The die a link attaches to (R231). -/
def linkDie (n : Nat) : Nat := if n = 16 then 0 else if n = 17 then 7 else n / 2

/-- Whether a link carries flits. -/
def Link.carries (l : Link) : Bool := decide (l.state = .up ∨ l.state = .degraded)

/-- A saturating count of 16 bits (R232). -/
def satAdd16 (a : BitVec 16) (n : Nat) : BitVec 16 := BitVec.ofNat 16 (min 65535 (a.toNat + n))

/-- A link begins to train: one more attempt, no lane in use; its traffic is held. -/
def Link.train (l : Link) : Link := { l with state := .training, lanes := 0, trains := satAdd16 l.trains 1, fails := 0 }

/-! ### The package's time source (R239-R241) -/

/-- What a link's peer says of the root, where the link carries traffic and the peer follows another package; a distance that no system
reaches is of a root that is gone. -/
def State.rootHeard (s : State) (n : Nat) : Option (Nat × Nat × Nat) :=
  let l := s.link n
  match (if l.carries then l.root else none) with
  | some r => if r = s.pkg ∨ 2 ^ 18 ≤ l.rootHops + 1 then none else some (r.toNat, l.rootHops + 1, n)
  | none => none

/-- Whether a source is better than another: a lower root, or the same one nearer (R239, R241). -/
def nearerRoot (a b : Nat × Nat × Nat) : Bool := decide (a.1 < b.1) || (decide (a.1 = b.1) && decide (a.2.1 < b.2.1))

/-- The best source that the links know: root, hops, link. -/
def State.bestSource (s : State) : Option (Nat × Nat × Nat) :=
  ((List.range 18).filterMap s.rootHeard).foldl (fun b x => match b with
    | none => some x
    | some y => if nearerRoot x y then some x else some y) none

/-- A package without any path to the root clears SYNC and runs free (R240); one that has another path follows that. -/
def State.resource (s : State) : State :=
  if s.tbRoot then s
  else match s.bestSource with
    | none => { s with tbSync := false, tbRootOf := none }
    | some (r, h, n) => { s with
        tbRootOf := some (BitVec.ofNat 18 r), tbHops := BitVec.ofNat 24 h, tbSrc := BitVec.ofNat 5 n,
        tbSync := s.tbSync && decide (s.tbRootOf = some (BitVec.ofNat 18 r)) }

/-! ### The states of a link (R231) -/

/-- LINK_ENABLE: the Plinth enables a link that is DOWN. The time without an acknowledgement counts from here. -/
def execLinkEnable (n : Nat) (s : State) : Out :=
  let l := s.link n
  if l.state = .down then .next (s.setLink n { l.train with ackTime := s.time }) else .next s

/-- The lanes that a link runs on when so many have trained: 8, or the next lower of 4 and 2, or none. -/
def lanesUsed (k : Nat) : Nat := if 8 ≤ k then 8 else if 4 ≤ k then 4 else if 2 ≤ k then 2 else 0

/-- Lanes set in a mask. -/
def laneCount (m : BitVec 8) : Nat := ((List.range 8).filter (fun i => m.getLsbD i)).length

/-- LINK_TRAINING_DONE: the lanes that trained, the peer's id and link number. Traffic that the training held goes on. -/
def execLinkTrainingDone (n : Nat) (lanes : BitVec 8) (peer : BitVec 18) (plink : BitVec 5) (s : State) : Out :=
  let l := s.link n
  let k := lanesUsed (laneCount lanes)
  if l.state ≠ .training then .next s
  else if k = 0 then .next (s.setLink n { l with state := .down, lanes := 0, root := none }).resource
  else .next (s.setLink n ({ l with state := if k = 8 then .up else .degraded, lanes := k, peer, plink } : Link).release)

/-- LANE_FAILURE: a link that carries traffic trains again. A lane that fails in TRAINING fails the attempt: another begins, and after the
third failure the link is DOWN (log entry 29). -/
def execLaneFailure (n _lane : Nat) (s : State) : Out :=
  let l := s.link n
  if l.carries then .next (s.setLink n l.train).resource
  else if l.state ≠ .training then .next s
  else if 3 ≤ l.fails + 1 then .next (s.setLink n { l with state := .down, lanes := 0, fails := 0, root := none }).resource
  else .next (s.setLink n { l with fails := l.fails + 1, trains := satAdd16 l.trains 1 })

/-- LINK_RETRAIN: the Plinth asks a DEGRADED link to train again. -/
def execLinkRetrain (n : Nat) (s : State) : Out :=
  let l := s.link n
  if l.state = .degraded then .next (s.setLink n l.train).resource else .next s

/-- Ticks without an acknowledgement after which a link is LOST: 100 µs. -/
def ackLimit : Nat := 100000

/-- LINK_ACK_TIMEOUT. -/
def execLinkAckTimeout (n : Nat) (s : State) : Out :=
  let l := s.link n
  if (l.carries || decide (l.state = .training)) && decide (ackLimit ≤ (s.time - l.ackTime).toNat) then
    .next (s.setLink n { l with state := .lost, lanes := 0, lostAt := s.time, root := none }).resource
  else .next s

/-! ### Messages on a link (09 R157, 14 R233) -/

/-- A message as a link carries it: its header and payload. -/
structure WireMsg where
  target : Nat
  hidx : Nat
  kind : Nat
  ctx : Nat
  tags : BitVec 8
  sender : Nat
  launch : Nat
  low : List Word
  high : List Word
  ext : Nat
  deriving DecidableEq, Repr

/-- The message of a slot and, where its TAGS are not zero or it is an MCST, of its extension. -/
def wireMsg (x : BitVec 640) (ext : Option (BitVec 640)) : WireMsg :=
  let h0 := slotWord x 0
  let h1 := slotWord x 1
  let words (y : BitVec 640) : List Word := (List.range 8).map (fun i => slotWord y (i + 2))
  { target := fld h0 30 0, hidx := fld h0 43 32, kind := fld h0 47 44, ctx := fld h0 55 48, tags := BitVec.ofNat 8 (fld h0 63 56),
    sender := fld h1 30 0, launch := fld h1 63 32, low := words x, high := (ext.map words).getD (List.replicate 8 0),
    ext := (ext.map (fun y => fld (slotWord y 1) 30 0)).getD 0 }

/-- The payload registers of a message: each with its upper half and its tag. -/
def WireMsg.regs (m : WireMsg) : List XReg :=
  (m.low.zip m.high).zipIdx.map (fun p => { val := p.1.2 ++ p.1.1, tag := m.tags.getLsbD p.2 })

/-- A flit's sequence number. -/
def flitSeq (f : BitVec 2048) : BitVec 12 := (f >>> 16).setWidth 12
/-- The last number its sender has received in order. -/
def flitAck (f : BitVec 2048) : BitVec 12 := (f >>> 32).setWidth 12
/-- Whether its CRC is right. -/
def flitGood (f : BitVec 2048) : Bool :=
  decide (((f >>> 1984).setWidth 32 : BitVec 32) = crc32c (bytesOf 248 (f.toNat % 2 ^ 1984)))

/-- The messages of a list of slots; a slot that waits for its extension comes first in the result. -/
def joinSlots : List (BitVec 640) → List (BitVec 640) → List WireMsg × List (BitVec 640)
  | half, [] => ([], half)
  | half, x :: t =>
    let m := wireMsg x none
    if m.kind = kindExt then
      match half with
      | y :: _ => let (l, h) := joinSlots [] t; (wireMsg y (some x) :: l, h)
      | [] => joinSlots [] t
    else if m.tags = 0 ∧ m.kind ≠ kindMcst then let (l, h) := joinSlots half t; (m :: l, h)
    else joinSlots [x] t

/-- Whether slots carry a message to a package. -/
def slotsTo (pkg : Nat) : List (BitVec 640) → Bool
  | x :: _ => decide ((wireMsg x none).target / 8192 = pkg)
  | [] => false

/-- Whether a flit carries a message to a package. -/
def flitTo (pkg : Nat) (f : BitVec 2048) : Bool := slotsTo pkg (flitSlots f)

/-- A message comes back (R237): to a sender of this package as a dead letter, to another package as a message of kind 3. -/
def State.bounce (s : State) (die : Nat) (maybe : Bool) (m : WireMsg) : State :=
  let pkg := m.target / 8192
  if m.kind = 3 then s
  else if m.sender / 8192 = s.pkg.toNat then
    s.returned m.ctx pkg m.low (BitVec.ofNat 64 m.target) (BitVec.ofNat 64 m.hidx) maybe (BitVec.ofNat 64 m.sender) (some m.launch)
  else (s.sendWire die false (m.sender / 8192) (wireSlots m.sender m.target m.ctx m.launch 3 m.hidx m.regs 0)).getD s

/-- The messages of slots come back in order. -/
def State.bounceAll (s : State) (die : Nat) (maybe : Bool) (xs : List (BitVec 640)) : State :=
  ((joinSlots [] xs).1).foldl (fun s m => s.bounce die maybe m) s

/-- What a link owes of some packages' messages comes back: what it has sent, once, may have been received; what it holds was not. A link
that still carries traffic keeps what it has sent, to be acknowledged. -/
def State.returnFlits (s : State) (n : Nat) (to? : List (BitVec 640) → Bool) : State :=
  let l := s.link n
  let gone (f : BitVec 2048) : Bool := to? (flitSlots f)
  let due := l.sent.filter (fun f => gone f && decide (flitSeq f ∉ l.back))
  let held := (l.carryHold ++ l.holding).filter to?
  let s1 := s.setLink n { l with sent := if l.carries then l.sent else l.sent.filter (fun f => !gone f),
                                 back := if l.carries then l.back ++ due.map flitSeq else l.back,
                                 holding := l.holding.filter (fun x => !to? x), carryHold := l.carryHold.filter (fun x => !to? x) }
  (s1.bounceAll (linkDie n) true (due.flatMap flitSlots)).bounceAll (linkDie n) false held.flatten

/-- What a link has delivered and its destination has not acknowledged comes back, where it is for some packages. -/
def State.returnFar (s : State) (p : Far → Bool) : State :=
  (s.far.filter p).foldl (fun s f => s.bounceAll (linkDie f.link) true f.slots) { s with far := s.far.filter (fun f => !p f) }

/-- LINK_DISABLE: a LOST link is DOWN. What it still holds comes back, and its numbers start again. -/
def execLinkDisable (n : Nat) (s : State) : Out :=
  if (s.link n).state ≠ .lost then .next s
  else
    let s1 := (s.returnFlits n (fun _ => true)).returnFar (fun f => decide (f.link = n))
    .next (s1.setLink n { s1.link n with state := .down, lanes := 0, seqTx := 0, seqRx := 0, half := [], back := [] })

/-! ### Arrival of a flit -/

/-- The virtual core of a launch that stands, or last stood, on a core of this package. -/
def State.vcoreAt (s : State) (l k : Nat) : Option VCore := match s.launch? l with
  | none => none
  | some x =>
    let on (g : Nat) : Bool :=
      let r := x.group g
      r.bound && s.isLocal r && decide (r.die % 8 = coreDie k) && decide (r.ox ≤ coreX k) && decide (coreX k < r.ox + 2 ^ x.lgw) &&
        decide (r.oy ≤ coreY k) && decide (coreY k < r.oy + 2 ^ x.lgh)
    let there (g : Nat) : Bool := decide ((x.group g).state = .resident ∨ (x.group g).state = .unbinding)
    let gs := (List.range x.count).filter on
    match (List.find? there gs).orElse (fun _ => gs.head?) with
    | some g =>
      let r := x.group g
      let n := x.w / 2 ^ x.lgw
      some ⟨l, g % n * 2 ^ x.lgw + (coreX k - r.ox), g / n * 2 ^ x.lgh + (coreY k - r.oy)⟩
    | none => none

/-- The kind of a message that fires or fills IB; a FIRE stays on its core. -/
def msgKind (n : Nat) : Option MKind := if n = kindFire then none else MKind.ofCode n

/-- The body of a message from another package, but for replies and event operations. The layouts are those of `Body.wire` (log entry 6). -/
def State.wireBody (s : State) (m : WireMsg) : Option Body :=
  let w (i : Nat) : Word := m.low.getD i 0
  match msgKind m.kind with
  | some kind => some (.msg { kind, hidx := m.hidx, regs := m.regs, sender := BitVec.ofNat 31 m.sender, ctx := m.ctx, launch := m.launch,
                              born := s.time, href := none })
  | none => match m.kind with
    | 5 =>
      let op : Option RemOp := match fld (w 0) 7 0 with
        | 0 => some .get | 1 => some .put | 2 => some .add | 3 => some .cas | _ => none
      op.map (fun o => .remote o (fld (w 0) 47 16) (fld (w 0) 15 8) (w 1) (w 2)
        (if fld (w 0) 63 48 = 0 then none else some (fld (w 0) 63 48 - 1)))
    | 6 => some (.join (w 0).toNat m.hidx)
    | 7 => some (.mcst m.ext (vecOfWords (m.low ++ m.high)) m.hidx)
    | 8 => some (.carry (BitVec.ofNat 8 m.hidx) (w 0))
    | _ => none

/-- The answer to what this package has asked of a context's home comes: 7 a waiter is woken, 8 what a test found, 9 a SIGNAL has been
applied. One that nobody awaits any more has no effect. -/
def State.homeAnswers (s : State) (ctx : Nat) (e : BitVec 16) (op token : Nat) (v : Word) : State :=
  match (s.ctx ctx).away.find? (fun a => decide (a.token = token)) with
  | none => s
  | some a =>
    let s1 := s.modCtx ctx (fun x => { x with away := x.away.erase a })
    match op, a.who with
    | 7, w => s1.wakeWaiter ctx e w
    | 8, .core k => match (s1.core k).run with
      | .waiting (.eventHost _ _ _ d) sp => ((s1.freshPhase k).finishPut k d v sp).getD s
      | _ => s1
    | 9, .queue q => s1.completePacket q (s1.headPacket q)
    | _, _ => s1

/-- An event operation of another package: for a context whose home this is 1 set, 2 clear, 3 wait, 4 test, each behind the sender's earlier
ones; else the home's answer. -/
def State.wireEvent (s : State) (m : WireMsg) : State :=
  let w := m.low.getD 0 0
  let e : BitVec 16 := w.setWidth 16
  let op := fld w 63 16
  let token := (m.low.getD 1 0).toNat
  let src := BitVec.ofNat 31 m.sender
  let who : Waiter := .remote src token
  if 7 ≤ op then s.homeAnswers m.ctx e op token (m.low.getD 2 0)
  else if !(s.ctx m.ctx).active ∨ !(s.ctx m.ctx).home then s
  else match op with
    | 1 | 2 => { s with evops := s.evops ++ [{ src, ctx := m.ctx, set := decide (op = 1), event := e, launch := some m.launch,
                                                reply := if token = 0 then none else some (src, token) }] }
    | 3 =>
      let (set, s1) := (s.drainEvents src m.ctx).joinEvent m.ctx e who
      if set then s1.wakeWaiter m.ctx e who else s1
    | 4 =>
      let s1 := s.drainEvents src m.ctx
      if (s1.ctx m.ctx).hostHolds e then (s1.eventRecord m.ctx e 4 (some who)).2
      else s1.tellAway m.ctx e src token 8 (bit ((s1.ctx m.ctx).event e).set)
    | _ => s

/-- A message that a link of die `die` brings: on towards another package, or into this one. -/
def State.wireIn (s : State) (die : Nat) (carry : Bool) (m : WireMsg) : State :=
  if m.target / 8192 ≠ s.pkg.toNat then
    (s.sendWire die carry (m.target / 8192) (wireSlots m.target m.sender m.ctx m.launch m.kind m.hidx m.regs m.ext)).getD (s.bounce die false m)
  else if m.kind = 3 then
    s.returned m.ctx (m.sender / 8192) m.low (BitVec.ofNat 64 m.sender) (BitVec.ofNat 64 m.hidx) true (BitVec.ofNat 64 m.target)
      (some m.launch)
  else if m.kind = kindEvent then s.wireEvent m
  else if m.kind = kindRemote ∧ fld (m.low.getD 0 0) 7 0 = 4 then
    s.replyTo 0 (s.coord 0) m.ctx (fld (m.low.getD 0 0) 63 48 - 1) (m.low.getD 1 0) (fbit (m.low.getD 0 0) 8)
  else match s.wireBody m with
    | none => s
    | some b =>
      match s.vcoreAt m.launch (m.target % 8192) with
      | some dst => { s with flights := s.flights ++ [{ src := BitVec.ofNat 31 m.sender, ctx := m.ctx, dst, body := b }] }
      | none =>
        let (p, h, x3) := b.letter
        s.emptyHandler m.ctx p (BitVec.ofNat 64 m.target) h (BitVec.ofNat 64 m.target) x3 none

/-- The flits that an acknowledgement of `ack` settles, and those that are left. -/
def settled (ack : BitVec 12) (l : List (BitVec 2048)) : List (BitVec 2048) × List (BitVec 2048) :=
  match l.findIdx? (fun f => decide (flitSeq f = ack)) with
  | some i => l.splitAt (i + 1)
  | none => ([], l)

/-- Flits of link n that its peer has: messages of this package that go on to another one are still to be acknowledged there, unless they have
come back already (R235, R237). -/
def State.passedOn (s : State) (n : Nat) (fs : List (BitVec 2048)) : State :=
  let l := s.link n
  let own (f : BitVec 2048) : Bool := match flitSlots f with
    | x :: _ =>
      let m := wireMsg x none
      decide (m.sender / 8192 = s.pkg.toNat) && decide (m.target / 8192 ≠ l.peer.toNat) && decide (flitSeq f ∉ l.back)
    | [] => false
  { s with far := s.far ++ (fs.filter own).map (fun f =>
      { pkg := match flitSlots f with | x :: _ => (wireMsg x none).target / 8192 | [] => 0, link := n, slots := flitSlots f }) }

/-- Drop the first n entries for a package. -/
def dropFar (pkg : Nat) : Nat → List Far → List Far
  | 0, l => l
  | _, [] => []
  | n + 1, f :: t => if f.pkg = pkg then dropFar pkg n t else f :: dropFar pkg (n + 1) t

/-- Destinations over several links acknowledge messages in the order in which they were sent: which, and how many, is a free value
(Config.farAck). -/
def State.hearFar (s : State) : State :=
  if s.far.isEmpty then s
  else { s with far := dropFar (Config.farAck s.free).1 (Config.farAck s.free).2 s.far, free := s.free + 1 }

/-- Messages for a package that a link has not had acknowledged by the destination (R235). -/
def State.owes (s : State) (n pkg : Nat) : Bool :=
  ((s.link n).sent.any (flitTo pkg) || ((s.link n).holding ++ (s.link n).carryHold).any (slotsTo pkg)) ||
  s.far.any (fun f => decide (f.pkg = pkg) && decide (f.link = n))

/-- The links by which this package sends to another. -/
def State.routes (s : State) (pkg : Nat) : List Nat := (List.range 8).filterMap (fun d => s.routeOf d pkg)

/-- Write the entry of a package id into every die's table. -/
def State.setRoutes (s : State) (pkg : Nat) (e : BitVec 8) : State :=
  (List.range 8).foldl (fun s d => s.setDie d { s.die d with routes := Table.set 0x80 (s.die d).routes pkg e }) s

/-- A change of route that nothing holds up any more is made, and the traffic held for it goes on in order (R235). -/
def State.reroute (s : State) (pkg : Nat) : State := match Table.find? s.rerouting pkg with
  | none => s
  | some r =>
    if (s.routes pkg).any (fun n => s.owes n pkg) then s
    else
      let s1 := ({ s with rerouting := Table.erase s.rerouting pkg } : State).setRoutes pkg r.entry
      r.held.foldl (fun s h => (s.sendWire h.die h.carry pkg h.slots).getD (s.bounceAll h.die false h.slots)) s1

/-- Changes of route that nothing holds up any more are made. -/
def State.rerouteAll (s : State) : State := (s.rerouting.map Prod.fst).foldl State.reroute s

/-- FLIT_RECEIVE: a flit whose CRC is wrong leaves nothing (the replay is asked for); one out of order is discarded. Its
acknowledgement counts in either order. -/
def execFlitReceive (n : Nat) (flit : BitVec 2048) (s : State) : Out :=
  let l := s.link n
  if !l.carries || !flitGood flit then .next s
  else
    let (gone, sent) := settled (flitAck flit) l.sent
    let l1 := { l with sent, back := l.back.filter (fun q => q ∉ gone.map flitSeq), ackTime := if gone.isEmpty then l.ackTime else s.time }
    let s0 := (((s.passedOn n gone).setLink n l1).hearFar).rerouteAll
    if flitSeq flit ≠ l.seqRx + 1 then .next s0
    else
      let carry := flit.getLsbD 0
      let (ms, half) := joinSlots (if carry then [] else l.half) (flitSlots flit)
      let s1 := s0.setLink n { s0.link n with seqRx := flitSeq flit, half := if carry then l.half else half }
      .next (ms.foldl (fun s m => s.wireIn (linkDie n) carry m) s1)

/-- FLIT_REPLAY: the peer asks for a flit again; it and every flit after it go again from the retry buffer, and are counted (R232). -/
def execFlitReplay (n : Nat) (seq : BitVec 12) (s : State) : Out :=
  let l := s.link n
  if !l.carries then .next s
  else match l.sent.findIdx? (fun f => decide (flitSeq f = seq)) with
    | some i => .next (s.setLink n { l with retry := satAdd16 l.retry (l.sent.length - i) })
    | none => .next s

/-! ### The loss of a package (R237) -/

/-- Whether a core waits for the reply of a remote operation at an owner that is lost; the lost id. -/
def State.waitsOnLost (s : State) (k : Nat) : Option Nat :=
  match (s.core k).run, (s.core k).again with
  | .waiting (.remote _ none) _, some (.rget f) => match s.target k f.a with | .ok (v, _) => s.ownerLost k v | .error _ => none
  | .waiting (.remote _ none) _, some (.rcas f) => match s.target k f.a with | .ok (v, _) => s.ownerLost k v | .error _ => none
  | _, _ => none

/-- A core's remote operation at a lost owner raises PEER_LOST; the context is told once. -/
def State.failRemote (s : State) (k : Nat) : State := match s.waitsOnLost k with
  | none => s
  | some p =>
    let ctx := s.ctxOf k
    let s1 := if p ∈ (s.ctx ctx).told then s
      else (s.peerEvent ctx p (s.coordW k) none (s.core k).sendLaunch).poison ctx (fun sc => decide (sc = .sys))
    s1.takeFault k .peerLost (BitVec.ofNat 64 p) (s1.core k).unitAt .read

/-- The remote operations that wait on lost owners fail. -/
def State.failRemotes (s : State) : State := (s.cores.map Prod.fst).foldl (fun s k => s.failRemote k) s

/-- A core that waits for an event of a home on a lost package raises PEER_LOST, as one whose home die is lost does (R238; log entry 24). -/
def State.failAway (s : State) (pkg : Nat) : State :=
  s.ctxs.foldl (fun s p =>
    p.2.away.foldl (fun s a => match a.who with
      | .core k => if Config.homeOf p.1 = pkg then s.takeFault k .peerLost (a.event.setWidth 64) (s.core k).unitAt .read else s
      | _ => s) s) s

/-- A package is lost to this one: its messages that are not acknowledged come back. -/
def State.peerLoss (s : State) (pkg : Nat) : State :=
  if pkg ∈ s.lostPkgs ∨ !(s.routes pkg).isEmpty then s
  else
    let held := ((Table.find? s.rerouting pkg).map Reroute.held).getD []
    let s1 : State := { s with lostPkgs := pkg :: s.lostPkgs, rerouting := Table.erase s.rerouting pkg }
    let s2 := s1.returnFar (fun f => decide (f.pkg = pkg))
    let s3 := (List.range 18).foldl (fun s n => s.returnFlits n (slotsTo pkg)) s2
    let s4 := held.foldl (fun s h => s.bounceAll h.die false h.slots) s3
    (s4.failRemotes.failAway pkg)

/-- The time that the Plinth has to find another route: 1 ms (R237). -/
def rerouteTime : Nat := 1000000

/-- Whether the links that a package id's entries name have been LOST for as long as the Plinth looks for another route; an entry without a
route names none. -/
def State.overdue (s : State) (pkg : Nat) : Bool := (List.range 8).all (fun d =>
  let e := Table.get 0x80 (s.die d).routes pkg
  let l := s.link (e &&& 0x1F).toNat
  e.getLsbD 7 || e.getLsbD 6 || decide (l.state ≠ .lost) || decide (rerouteTime ≤ (s.time - l.lostAt).toNat))

/-- PEER_LOSS: no route is left, and none was found within 1 ms. -/
def execPeerLoss (pkg : Nat) (s : State) : Out := if s.overdue pkg then .next (s.peerLoss pkg) else .next s

/-- ROUTE_CHANGE: the Plinth writes the entry of a package id into every die's table, bit 5 staying zero. Until the old route owes nothing, new
traffic is held and the old entry stands (R235); what a LOST link owes comes back. An entry that becomes UNREACH makes the id lost. -/
def execRouteChange (pkg : Nat) (entry : BitVec 8) (s : State) : Out :=
  let e := entry &&& 0xDF
  if e.getLsbD 7 then .next ((s.setRoutes pkg e).peerLoss pkg)
  else
    let s1 := (List.range 18).foldl (fun s n => if (s.link n).state = .lost then
      (s.returnFlits n (slotsTo pkg)).returnFar (fun f => decide (f.link = n ∧ f.pkg = pkg)) else s) s
    let held := ((Table.find? s1.rerouting pkg).map Reroute.held).getD []
    let s2 : State := { s1 with
      lostPkgs := s1.lostPkgs.filter (fun p => decide (p ≠ pkg)), rerouting := Table.insert s1.rerouting pkg { entry := e, held },
      ctxs := s1.ctxs.map (fun p => (p.1, { p.2 with told := p.2.told.filter (fun q => decide (q ≠ pkg)) })) }
    .next (s2.reroute pkg)

/-! ### The loss of a die (R238) -/

/-- The groups of a launch that are bound to die `d` are RETIRED, and its packet writes a record and sets no event. -/
def State.dieLaunch (d : Nat) (s : State) (l : Nat) : State := match s.launch? l with
  | none => s
  | some x =>
    let on (r : Group) : Bool := decide (r.state = .resident ∨ r.state = .unbinding) && decide (r.die = s.globalDie d)
    if !x.groups.any (fun g => on g.2) then s
    else (s.setLaunch l { x with done := none, groups := x.groups.map (fun g =>
        (g.1, if on g.2 then { g.2 with state := .retired, granted := false, lost := true } else g.2)) }).errorRecord x.ctx 4
      [BitVec.ofNat 64 l]

/-- The messages of a lost core's inbox come back as R237 gives: the core had received them. -/
def State.inboxBack (s : State) (ctx : Nat) (at_ : Word) : List InMsg → State
  | [] => s
  | m :: t => (s.returned ctx s.pkg.toNat (lows m.msg.regs) at_ (BitVec.ofNat 64 m.msg.hidx) true at_ (some m.msg.launch)).inboxBack ctx at_ t

/-- What the lay-by holds for groups of a lost die comes back too. -/
def State.layBack (s : State) (ctx : Nat) : State :=
  let gone := (s.ctx ctx).lay.filter (fun e => s.diedAt e.dst)
  gone.foldl (fun s e => s.toRetired ctx e.dst e.body (e.src.setWidth 64))
    (if gone.isEmpty then s else s.modCtx ctx (fun x => { x with lay := x.lay.filter (fun e => !s.diedAt e.dst), layRead := x.layRead + BitVec.ofNat 64 gone.length, layFull := false }))

/-- Core `k` of a lost die is gone with what it ran. A stop of the world that it had asked for ends. -/
def State.loseCore (s : State) (k : Nat) : State :=
  match (s.core k).ctx with
  | none => s.setCore k Core.fresh
  | some ctx =>
    let s1 := (s.undoFiring k).leaveSvc k
    let s2 := (s1.dropAll ctx ((s1.core k).holders.flatMap Firing.refs)).inboxBack ctx (s.coordW k) (s1.core k).inbox
    let s3 := (s2.setCore k Core.fresh).modCtx ctx (fun x => { x with events := x.events.map (fun e =>
      (e.1, { e.2 with waiters := e.2.waiters.filter (fun w => decide (w ≠ .core k)) })) })
    if (s3.ctx ctx).stopper = some k then s3.wakeWorld ctx else s3

/-- A context learns that die `d` is lost: DIE_LOST, and its counters of wider scope are poisoned (10 R176). -/
def State.dieLost (d : Nat) (s : State) (ctx : Nat) : State :=
  (s.ctxEvent ctx (plainEvent (eventRegs 0x41 (BitVec.ofNat 64 (s.pkg.toNat * 8192 + d * 1024)) 0 0 false none s.time) none)).poison ctx
    (fun sc => decide (sc ≠ .die))

/-- Whether a core that survives waits in a scan of a group that is lost (10 R178). -/
def State.scanLost (s : State) (k : Nat) : Bool := match (s.core k).launch.bind s.launch? with
  | some x => (x.group (s.core k).group).lost
  | none => false

/-- An event wait at a home that is lost, and a scan of which a participant is, raise PEER_LOST. -/
def State.failEvent (s : State) (k : Nat) : State :=
  let ctx := s.ctxOf k
  let fail (e : BitVec 16) : State :=
    if s.homeLost ctx e then
      (s.takeFault k .peerLost (e.setWidth 64) (s.core k).unitAt .read).modCtx ctx (fun x => { x with events := x.events.map (fun v =>
        (v.1, { v.2 with waiters := v.2.waiters.filter (fun w => decide (w ≠ .core k)) })) })
    else s
  match (s.core k).run with
  | .waiting (.event e false) _ => fail e
  | .waiting (.eventHost e _ _ _) _ => fail e
  | .waiting (.scan ..) _ => if s.scanLost k then s.takeFault k .peerLost 0 (s.core k).unitAt .read else s
  | _ => s

/-- DIE_LOSS. -/
def execDieLoss (d : Nat) (s : State) : Out :=
  if (s.die d).lost then .next s
  else
    let told := distinct (s.cores.filterMap (fun p => p.2.ctx))
    let s1 := s.setDie d { s.die d with lost := true, binds := [] }
    let s2 := (s1.launches.map Prod.fst).foldl (State.dieLaunch d) s1
    let s3 := ((s2.cores.map Prod.fst).filter (fun k => decide (coreDie k = d))).foldl State.loseCore s2
    let s4 : State := { s3 with
      clusters := s3.clusters.filter (fun p => decide (p.1 / 128 ≠ d)), engines := s3.engines.filter (fun p => decide (p.1 / 4 ≠ d)),
      ctxs := s3.ctxs.map (fun p => (p.1, { p.2 with scans := p.2.scans.filter (fun t => match s3.launch? t.launch with
        | some x => !(x.group t.group).lost
        | none => true) })) }
    let s5 := told.foldl (State.dieLost d) ((s4.ctxs.map Prod.fst).foldl State.layBack s4)
    .next (((s5.cores.map Prod.fst).foldl State.failEvent s5).failRemotes)

/-! ### The time base (R239-R241) -/

/-- A flit of the time protocol: on the carry channel, no slot, the sender's count in bytes 8 to 15 (the spec gives it no layout: log
entry 6). -/
def timeFlit (seq ack : Nat) (count : Word) : BitVec 2048 :=
  let b := flitBody true seq ack [] + count.toNat * 2 ^ 64
  BitVec.ofNat 2048 (b + (crc32c (bytesOf 248 b)).toNat * 2 ^ 1984)

/-- A time flit of this package on link n. -/
def State.sendTime (s : State) (n : Nat) : State :=
  let l := s.link n
  s.setLink n { l with sent := l.sent ++ [timeFlit (l.seqTx + 1).toNat l.seqRx.toNat s.time], seqTx := l.seqTx + 1 }

/-- TIME_FLIT_EXCHANGE over a link: this package's count goes out; the peer's count comes, with the round trip in ticks, the root that the peer
follows and its distance. ROOTSEL takes effect here: of the roots that it names or hears of, a package takes the lowest, and of the links
that lead there the nearest. The offset to the source is measured where this link is it; the count is slewed by it, never stepped. -/
def execTimeFlitExchange (n : Nat) (count : Word) (rtt : Nat) (peerRoot : Option (BitVec 18)) (hops : Nat) (s : State) : Out :=
  if !(s.link n).carries then .next s
  else
    let s1 := s.sendTime n
    let s2 := s1.setLink n { s1.link n with root := peerRoot, rootHops := hops }
    let lower : Bool := match s2.bestSource with | some (r, _, _) => decide (r < s.pkg.toNat) | none => false
    if s.rootsel && !lower then
      .next { s2 with tbRoot := true, tbSync := true, tbHops := 0, tbOffs := 0, tbLeft := 0, tbRootOf := some s.pkg }
    else
      let s3 : State := (if s2.tbRoot then { s2 with tbRoot := false, tbSync := false, tbRootOf := none } else s2).resource
      if s3.tbRootOf.isSome ∧ s3.tbSrc.toNat = n then
        let off : Int := (count.toNat : Int) + rtt / 2 - s.time.toNat
        .next { s3 with tbOffs := BitVec.ofInt 32 off, tbLeft := off, tbSync := decide (-8 ≤ off) && decide (off ≤ 8) }
      else .next s3

/-- ROOTSEL_WRITE: it takes effect at the next exchange of time flits. -/
def execRootselWrite (w : Word) (s : State) : Out := .next { s with rootsel := w.getLsbD 0 }

end Sys2Proof.Machine
end

