-- ==== Sys2Proof/Machine/LocalStore.lean ====
section
/-! DEFINITION. Group 0x7: the core's own local store, MCST, circular buffers, control words of ports (17 R308-R310, R319-R322). -/

namespace Sys2Proof

/-- The handle number of an operand. -/
def Opnd.hnum : Opnd → Nat
  | .ring h _ => h.val
  | _ => 0

/-- The count of a handle operand. -/
def Opnd.hcount : Opnd → Nat
  | .ring _ c => if c.val = 0 then 32 else c.val
  | _ => 1

end Sys2Proof

namespace Sys2Proof.Machine

/-- The capability that names local-store offsets; x0 stands for the core's own store (R308). -/
def State.localCap (s : State) (k : Nat) (o : Opnd) : XReg := if o = .x 0 then capFor 0 (2 ^ 20) (pR + pW + pL) else s.cap k o

/-- The offset of a local access, checked (R308, R301). -/
def State.localAt (s : State) (k : Nat) (o : Opnd) (off : BitVec 20) (need size al : Nat) : Res Nat := do
  let c := s.localCap k o
  let a := c.addr + (s.core k).widened off
  liftCap (checkCap c need [a] size)
  alignCheck al [a]
  return a.toNat

/-- LSLD. -/
def execLsld (f : FM) (s : State) : Out :=
  s.runSeq s.cur f.sp [] [f.d] (fun s => do
    let k := s.cur
    let w := f.width.bytes
    let a ← s.localAt k f.a f.off (pR + pL) w w
    let (bs, r) := (s.vs k).lsLoad a w
    (s.modVs k (fun _ => r)).put k f.d (BitVec.ofNat 64 (extended f.ext w (ofBytes bs))))

/-- LSST. -/
def execLsst (f : FM) (s : State) : Out :=
  s.runSeq s.cur f.sp [f.d] [] (fun s => do
    let k := s.cur
    let w := f.width.bytes
    let a ← s.localAt k f.a f.off (pW + pL) w w
    let (v, s1) ← s.storeData k f.d
    return s1.modVs k (fun r => r.lsStore a (bytesOf w v.toNat)))

/-- LSLDV. -/
def execLsldv (f : FML) (s : State) : Out :=
  s.runSeq s.cur f.sp [] [f.d] (fun s => do
    let k := s.cur
    let a ← s.localAt k f.a f.off (pR + pL) 128 8
    let (bs, r) := (s.vs k).lsLoad a 128
    (s.modVs k (fun _ => r)).loadVec k f.d (BitVec.ofNat 1024 (ofBytes bs)))

/-- LSSTV. -/
def execLsstv (f : FML) (s : State) : Out :=
  s.runSeq s.cur f.sp [f.d] [] (fun s => do
    let k := s.cur
    let a ← s.localAt k f.a f.off (pW + pL) 128 8
    let (v, s1) ← s.storeData k f.d
    return s1.modVs k (fun r => r.lsStore a (bytesOf 128 v.toNat)))

/-- MCST (R319). -/
def execMcst (f : FR) (s : State) : Out :=
  s.runSeq s.cur f.sp [] [] (fun s => do
    let k := s.cur
    let (a, _) ← s.targetCap k f.a
    let spec := fld a 15 0
    faultIf (!s.subgroupHere k spec) .capBounds a
    let off := targetOff a
    faultIf (decide (off % 8 ≠ 0)) .align (BitVec.ofNat 64 off)
    let data := match f.b with | .v i => (s.vs k).getV i.val | _ => 0
    s.enter k [.mcst (BitVec.ofNat 16 spec) off data (targetJidx a)])

/-! ### Circular buffers (R320-R321) -/

/-- The ring of a handle, once it is set and, where a count is used, the count fits (03 R54). -/
def State.ringOf (s : State) (k h n : Nat) : Res Ring := match Table.find? (s.vs k).h h with
  | none => fault .capTag 0
  | some g => if g.n < n then fault .capBounds 0 else .ok g

/-- CBINIT. -/
def execCbinit (f : FR) (s : State) : Out :=
  s.runSeq s.cur f.sp [f.a, f.b] [] (fun s => do
    let k := s.cur
    let (base, s1) ← s.src k f.a
    let (geo, s2) ← s1.src k f.b
    let n := fld geo 8 0
    let lsz := fld geo 14 12
    let bytes := n * 2 ^ lsz + up n 8
    let good := decide (n ∈ [2, 4, 8, 16, 32, 64, 128, 256]) && decide (lsz = 3 ∨ lsz = 7) && decide (fld geo 11 9 = 0) &&
      decide (fld geo 63 15 = 0) && decide (base.toNat % 2 ^ lsz = 0) && decide (base.toNat + bytes ≤ lsSize)
    faultIf (!good) .capBounds base
    return s2.modVs k (fun r =>
      (r.lsWrite (base.toNat + n * 2 ^ lsz) (List.replicate (up n 8) 0)).setRing f.d.hnum
        { base := base.toNat, n, lsz, p := 0, c := 0, p0 := 0, c0 := 0 }))
where
  /-- Division rounded up. -/
  up (a b : Nat) : Nat := (a + b - 1) / b

/-- CBADVP. -/
def execCbadvp (f : FR) (s : State) : Out :=
  s.runSeq s.cur f.sp [] [] (fun s => do
    let k := s.cur
    let n := f.d.hcount
    let g ← s.ringOf k f.d.hnum n
    if g.room < n then redo s .handle
    else return s.modVs k (fun r => r.setRing f.d.hnum { g with p := g.p + BitVec.ofNat 32 n }))

/-- CBADVC. -/
def execCbadvc (f : FR) (s : State) : Out :=
  s.runSeq s.cur f.sp [] [] (fun s => do
    let k := s.cur
    let n := f.d.hcount
    let g ← s.ringOf k f.d.hnum n
    if g.filled < n then redo s .handle
    else return s.modVs k (fun r => r.setRing f.d.hnum { g with c := g.c + BitVec.ofNat 32 n }))

/-- CBCNT. -/
def execCbcnt (f : FR) (s : State) : Out :=
  s.runSeq s.cur f.sp [] [f.d] (fun s => do
    let k := s.cur
    let g ← s.ringOf k f.a.hnum 0
    s.put k f.d (BitVec.ofNat 64 (g.filled % 65536 + g.room % 65536 * 2 ^ 16 + (g.n - 1) * 2 ^ 32 + g.lsz * 2 ^ 41)))

/-! ### Control words (R322) -/

/-- QCTL. -/
def execQctl (f : FR) (s : State) : Out :=
  s.runSeq s.cur f.sp [f.a] [] (fun s => do
    let k := s.cur
    let (w, s1) ← s.src k f.a
    match f.d with
    | .ring h c =>
      let g ← s1.ringOf k h.val (countOf c)
      faultIf (!cwOk w) .stream 0
      s1.writeRing k h.val (countOf c) (bytesOf (2 ^ g.lsz) w.toNat) true
    | .port i =>
      faultIf (!cwOk w) .stream 0
      s1.sendUnit k i.val { data := w.setWidth 1024, wide := false, ctl := true }
    | _ => return s1)

/-- What stands at a source: how many units, whether the head is a control word, whether it is a vector. -/
def State.headOf (s : State) (k : Nat) (o : Opnd) : Res (Nat × Bool × Bool) := match o with
  | .ring h c => do
    let g ← s.ringOf k h.val (countOf c)
    let m := decide (0 < g.filled) && (s.vs k).marked g g.c
    return (g.filled, m, decide (0 < g.filled) && !m && decide (g.lsz = 7))
  | .port i =>
    if i.val = 0 then .ok ((s.core k).ibNow.length, s.ctlAt k o, false)
    else .ok (((s.core k).units i.val).length, s.ctlAt k o, (((s.core k).units i.val).head?.map PUnit.wide).getD false)
  | _ => .ok (0, false, false)

/-- QTEST. -/
def execQtest (f : FR) (s : State) : Out :=
  s.runSeq s.cur f.sp [] [f.d] (fun s => do
    let k := s.cur
    let (n, ctl, wide) ← s.headOf k f.a
    (s.named k f.a).put k f.d (BitVec.ofNat 64 ((decide (0 < n)).toNat + 2 * ctl.toNat + 4 * wide.toNat + 256 * min n 255)))

/-- The word at the head of a source. -/
def State.headWord (s : State) (k : Nat) : Opnd → Word
  | .ring h _ => match Table.find? (s.vs k).h h.val with
    | some g => (s.vs k).slotWord g g.c
    | none => 0
  | .port i =>
    if i.val = 0 then ((s.core k).ibNow.head?.map IbUnit.data).getD 0
    else (((s.core k).units i.val).head?.map (fun u => (u.data.setWidth 64 : Word))).getD 0
  | _ => 0

/-- Dequeue the head of a source. -/
def State.dropHead (s : State) (k : Nat) : Opnd → State
  | .ring h _ => match Table.find? (s.vs k).h h.val with
    | some g => s.modVs k (fun r => r.setRing h.val { g with c := g.c + 1 })
    | none => s
  | .port i => s.modCore k (fun c => if i.val = 0 then c.popIb 1 else c.popUnit i.val)
  | _ => s

/-- QDRAIN, one unit at a time. -/
def execQdrain (f : FR) (s : State) : Out :=
  s.runElement s.cur f.sp false [] [] (fun s => do
    let k := s.cur
    let (n, ctl, _) ← s.headOf k f.a
    let s1 := s.named k f.a
    if n = 0 then redo s (match f.a with | .ring .. => .handle | _ => .port)
    else if !ctl then return (s1.dropHead k f.a, false)
    else
      let w := s.headWord k f.a
      faultIf (!cwOk w) .stream 0
      return (((s1.dropHead k f.a).setCap k f.d (XReg.plain w)).shiftL k w, true))

end Sys2Proof.Machine
end

