-- ==== Sys2Proof/Machine/Crypto.lean ====
section
/-! DEFINITION. The published functions that boot names and does not restate (01 R25, 23 R427): SHA-512 of FIPS 180-4 and the verification of an
ECDSA signature on P-521 of FIPS 186-5. PRESUMED (log entry 32): they are written from those standards. -/

namespace Sys2Proof.Machine

/-! ### SHA-512 (FIPS 180-4) -/

/-- The first forty constants K of FIPS 180-4. -/
def sha512K1 : List Word :=
  [0x428A2F98D728AE22, 0x7137449123EF65CD, 0xB5C0FBCFEC4D3B2F, 0xE9B5DBA58189DBBC, 0x3956C25BF348B538, 0x59F111F1B605D019,
  0x923F82A4AF194F9B, 0xAB1C5ED5DA6D8118, 0xD807AA98A3030242, 0x12835B0145706FBE, 0x243185BE4EE4B28C, 0x550C7DC3D5FFB4E2,
  0x72BE5D74F27B896F, 0x80DEB1FE3B1696B1, 0x9BDC06A725C71235, 0xC19BF174CF692694, 0xE49B69C19EF14AD2, 0xEFBE4786384F25E3,
  0x0FC19DC68B8CD5B5, 0x240CA1CC77AC9C65, 0x2DE92C6F592B0275, 0x4A7484AA6EA6E483, 0x5CB0A9DCBD41FBD4, 0x76F988DA831153B5,
  0x983E5152EE66DFAB, 0xA831C66D2DB43210, 0xB00327C898FB213F, 0xBF597FC7BEEF0EE4, 0xC6E00BF33DA88FC2, 0xD5A79147930AA725,
  0x06CA6351E003826F, 0x142929670A0E6E70, 0x27B70A8546D22FFC, 0x2E1B21385C26C926, 0x4D2C6DFC5AC42AED, 0x53380D139D95B3DF,
  0x650A73548BAF63DE, 0x766A0ABB3C77B2A8, 0x81C2C92E47EDAEE6, 0x92722C851482353B]
/-- The other forty. -/
def sha512K2 : List Word :=
  [0xA2BFE8A14CF10364, 0xA81A664BBC423001, 0xC24B8B70D0F89791, 0xC76C51A30654BE30, 0xD192E819D6EF5218, 0xD69906245565A910,
  0xF40E35855771202A, 0x106AA07032BBD1B8, 0x19A4C116B8D2D0C8, 0x1E376C085141AB53, 0x2748774CDF8EEB99, 0x34B0BCB5E19B48A8,
  0x391C0CB3C5C95A63, 0x4ED8AA4AE3418ACB, 0x5B9CCA4F7763E373, 0x682E6FF3D6B2B8A3, 0x748F82EE5DEFB2FC, 0x78A5636F43172F60,
  0x84C87814A1F0AB72, 0x8CC702081A6439EC, 0x90BEFFFA23631E28, 0xA4506CEBDE82BDE9, 0xBEF9A3F7B2C67915, 0xC67178F2E372532B,
  0xCA273ECEEA26619C, 0xD186B8C721C0C207, 0xEADA7DD6CDE0EB1E, 0xF57D4F7FEE6ED178, 0x06F067AA72176FBA, 0x0A637DC5A2C898A6,
  0x113F9804BEF90DAE, 0x1B710B35131C471B, 0x28DB77F523047D84, 0x32CAAB7B40C72493, 0x3C9EBE0A15C9BEBC, 0x431D67C49C100D4C,
  0x4CC5D4BECB3E42B6, 0x597F299CFC657E2A, 0x5FCB6FAB3AD6FAEC, 0x6C44198C4A475817]
/-- The initial hash value. -/
def sha512Start : List Word :=
  [0x6A09E667F3BCC908, 0xBB67AE8584CAA73B, 0x3C6EF372FE94F82B, 0xA54FF53A5F1D36F1, 0x510E527FADE682D1, 0x9B05688C2B3E6C1F,
  0x1F83D9ABFB41BD6B, 0x5BE0CD19137E2179]

/-- Rotate right. -/
def rotr (n : Nat) (x : Word) : Word := x.rotateRight n

/-- The words W of a block, newest first, from its sixteen; the argument counts those to come. -/
def sha512Schedule : Nat → List Word → List Word
  | 0, w => w
  | n + 1, w =>
    let at_ (i : Nat) : Word := w.getD i 0
    let s0 := rotr 1 (at_ 14) ^^^ rotr 8 (at_ 14) ^^^ (at_ 14 >>> 7)
    let s1 := rotr 19 (at_ 1) ^^^ rotr 61 (at_ 1) ^^^ (at_ 1 >>> 6)
    sha512Schedule n ((s1 + at_ 6 + s0 + at_ 15) :: w)

/-- One round on the working variables a to h. -/
def sha512Round (v : List Word) (kw : Word × Word) : List Word := match v with
  | [a, b, c, d, e, f, g, h] =>
    let t1 := h + (rotr 14 e ^^^ rotr 18 e ^^^ rotr 41 e) + ((e &&& f) ^^^ (~~~e &&& g)) + kw.1 + kw.2
    let t2 := (rotr 28 a ^^^ rotr 34 a ^^^ rotr 39 a) + ((a &&& b) ^^^ (a &&& c) ^^^ (b &&& c))
    [t1 + t2, a, b, c, d + t1, e, f, g]
  | v => v

/-- One block of sixteen words onto a hash value. -/
def sha512Block (h : List Word) (block : List Word) : List Word :=
  let w := (sha512Schedule 64 block.reverse).reverse
  (h.zip (((sha512K1 ++ sha512K2).zip w).foldl sha512Round h)).map (fun p => p.1 + p.2)

/-- A number from bytes, the first highest. -/
def ofBytesBig (l : List Byte) : Nat := l.foldl (fun n b => 256 * n + b.toNat) 0

/-- n bytes of a number, the highest first. -/
def bytesBig : Nat → Nat → List Byte
  | 0, _ => []
  | n + 1, v => BitVec.ofNat 8 (v / 2 ^ (8 * n)) :: bytesBig n v

/-- The blocks of a padded message; the first argument bounds their number. -/
def sha512Blocks : Nat → List Byte → List (List Word)
  | 0, _ => []
  | n + 1, l =>
    if l.isEmpty then []
    else (List.range 16).map (fun i => BitVec.ofNat 64 (ofBytesBig ((l.drop (8 * i)).take 8))) :: sha512Blocks n (l.drop 128)

/-- A message with its padding: a bit 1, zeros, its length in bits in sixteen bytes. -/
def sha512Pad (l : List Byte) : List Byte :=
  l ++ [0x80] ++ List.replicate ((239 - l.length % 128) % 128) 0 ++ bytesBig 16 (8 * l.length)

/-- SHA-512 of a byte string: its 64 bytes as a number, the first byte highest. -/
def sha512 (l : List Byte) : BitVec 512 :=
  let m := sha512Pad l
  BitVec.ofNat 512 (((sha512Blocks (m.length / 128) m).foldl sha512Block sha512Start).foldl (fun n w => 2 ^ 64 * n + w.toNat) 0)

/-! ### ECDSA on P-521 (FIPS 186-5) -/

/-- The field's prime. -/
def p521 : Nat := 2 ^ 521 - 1
/-- The order of the base point. -/
def p521Order : Nat :=
  0x1FFFFFFFFFFFFFFFFFFFFFFFFFFFFFFFFFFFFFFFFFFFFFFFFFFFFFFFFFFFFFFFFFA51868783BF2F966B7FCC0148F709A5D03BB5C9B8899C47AEBB6FB71E91386409
/-- The base point. -/
def p521Base : Nat × Nat :=
  (0x0C6858E06B70404E9CD9E3ECB662395B4429C648139053FB521F828AF606B4D3DBAA14B5E77EFE75928FE1DC127A2FFA8DE3348B3C1856A429BF97E7E31C2E5BD66,
   0x11839296A789A3BC0045C8A5FB42C7D1BD998F54449579B446817AFBD17273E662C97EE72995EF42640C550B9013FAD0761353C7086A272C24088BE94769FD16650)

/-- x^e mod m; the first argument bounds the bits of e. -/
def powMod (m : Nat) : Nat → Nat → Nat → Nat
  | 0, _, _ => 1
  | n + 1, x, e => if e % 2 = 1 then x * powMod m n (x * x % m) (e / 2) % m else powMod m n (x * x % m) (e / 2)
/-- The inverse of x modulo a prime of at most 521 bits. -/
def invMod (m x : Nat) : Nat := powMod m 521 (x % m) (m - 2)

/-- The sum of two points of the curve y² = x³ − 3x + b; none is the point at infinity. -/
def p521Add : Option (Nat × Nat) → Option (Nat × Nat) → Option (Nat × Nat)
  | none, b => b
  | a, none => a
  | some (x, y), some (u, v) =>
    if x = u ∧ (y + v) % p521 = 0 then none
    else
      let l := (if x = u then (3 * x * x + p521 - 3) * invMod p521 (2 * y) else (v + p521 - y) * invMod p521 (u + p521 - x)) % p521
      let z := (l * l + 2 * p521 - x - u) % p521
      some (z, (l * (x + p521 - z) + p521 - y) % p521)

/-- A multiple of a point; the first argument bounds the bits of the factor. -/
def p521Mul : Nat → Nat → Option (Nat × Nat) → Option (Nat × Nat)
  | 0, _, _ => none
  | n + 1, e, a =>
    let r := p521Mul n (e / 2) (p521Add a a)
    if e % 2 = 1 then p521Add a r else r

/-- Whether r, s, 66 bytes each, the highest first, is a signature of a digest under a public key. -/
def ecdsaOk (key : Nat × Nat) (digest : BitVec 512) (sig : List Byte) : Bool :=
  let r := ofBytesBig (sig.take 66)
  let s := ofBytesBig (sig.drop 66)
  let w := invMod p521Order s
  decide (0 < r ∧ r < p521Order ∧ 0 < s ∧ s < p521Order) &&
  (match p521Add (p521Mul 521 (digest.toNat * w % p521Order) (some p521Base)) (p521Mul 521 (r * w % p521Order) (some key)) with
    | some (x, _) => decide (x % p521Order = r)
    | none => false)

end Sys2Proof.Machine
end

