-- ==== Sys2Proof/Machine/Management.lean ====
section
/-! DEFINITION. The host's registers over CXL.io and its writes over CXL.mem (00 R4, 06 R108-R109, R118, R122, R129), soft errors and machine
checks (01 R21, 22 R424, 23 R435), boot, provisioning and attestation (23 R427-R431), gauges as the host sets them (R432-R433), thermal
limits (R436). -/

namespace Sys2Proof.Machine

/-! ### Features, gauges (06 R129, 23 R432-R433) -/

/-- A write of FEATOFF: while every context is FREE its bits 5:1 are taken; at any other time bit 63 is set. -/
def State.writeFeatoff (s : State) (w : Word) : State :=
  if s.ctxs.all (fun p => decide (p.2.state = .free)) then { s with featoff := w &&& 0x3E }
  else { s with featoff := s.featoff ||| 0x8000000000000000 }

/-- FEATOFF_WRITE. -/
def execFeatoffWrite (w : Word) (s : State) : Out := .next (s.writeFeatoff w)

/-- GAUGE_SOURCE_SET: a source of 9-15 leaves the unit as it is. -/
def execGaugeSourceSet (ctx u : Nat) (src : BitVec 4) (s : State) : Out :=
  if 9 ≤ src.toNat then .next s else .next (s.gaugeWrite ctx (0x100 + 8 * u) (src.setWidth 64))

/-- GAUGE_CLEAR. -/
def execGaugeClear (ctx u : Nat) (s : State) : Out :=
  .next (s.modCtx ctx (fun x => { x with gauges := Table.set Gauge.reset x.gauges u (x.gauge u).clear }))

/-! ### Boot and the provisioning mailbox (23 R427-R430) -/

/-- Byte a of the flash. -/
def State.flashByte (s : State) (a : Nat) : Byte :=
  (Table.get none s.mgmt.flash a).getD (if s.mgmt.erased then Config.erasedFlash else Config.shippedFlash a)

/-- n bytes of the flash. -/
def State.flashBytes (s : State) (a n : Nat) : List Byte := (List.range n).map (fun i => s.flashByte (a + i))

/-- What the boot ROM finds wrong with the image in the flash: REASON, or none (R427-R428). The signature is over the SHA-512 of header and image
with SIG zero. -/
def State.imageFault (s : State) : Option Nat :=
  let head := s.flashBytes 0 256
  let ilen := ofBytes (s.flashBytes 8 4)
  let signed := head.take 12 ++ List.replicate 132 0 ++ head.drop 144 ++ s.flashBytes 256 ilen
  if ofBytes (head.take 4) ≠ 0x50464D38 then some 1
  else if !ecdsaOk Config.imageKey (sha512 signed) ((head.drop 12).take 132) then some 2
  else if ofBytes ((head.drop 4).take 4) < Config.rollbackMin.toNat then some 3
  else none

/-- FVER of the image in the flash. -/
def State.imageVersion (s : State) : BitVec 32 := BitVec.ofNat 32 (ofBytes (s.flashBytes 4 4))

/-- POWER_ON: the boot ROM reads the image; every die checks it, die 0 first. -/
def execPowerOn (s : State) : Out :=
  if s.mgmt.boot ≠ .rom then .next s
  else match s.imageFault with
    | some r => .next { s with mgmt := { s.mgmt with boot := .fail, reason := BitVec.ofNat 8 r, die := 0, fver := s.imageVersion } }
    | none => .next { s with mgmt := { s.mgmt with
        boot := .init, reason := 0, fver := s.imageVersion,
        digest := some (sha512 (s.flashBytes 0 (256 + ofBytes (s.flashBytes 8 4)))) } }

/-- BOOT_INIT_DONE: READY, with the package id that the Plinth sets (01 R9); the dies whose memory test found an uncorrectable error are lost. -/
def execBootInitDone (bad : BitVec 8) (s : State) : Out :=
  if s.mgmt.boot ≠ .init then .next s
  else
    let ds := (List.range 8).filter (fun d => bad.getLsbD d)
    let s1 := ds.foldl (fun s d => s.setDie d { s.die d with lost := true }) s
    .next { s1 with pkg := Config.bootPkg, mgmt := { s1.mgmt with
      boot := .ready, reason := if ds.isEmpty then s1.mgmt.reason else 4, die := if ds.isEmpty then s1.mgmt.die else BitVec.ofNat 3 (ds.headD 0) } }

/-- Whether the mailbox accepts commands: in BOOTFAIL, and in READY while every context is FREE. -/
def State.provisions (s : State) : Bool := match s.mgmt.boot with
  | .fail => true
  | .ready => s.ctxs.all (fun p => decide (p.2.state = .free))
  | _ => false

/-- A command of the mailbox has ended with a STATUS; GO reads 0. -/
def State.provEnd (s : State) (op status : Nat) : State :=
  { s with mgmt := { s.mgmt with pcmd := BitVec.ofNat 64 (op % 16 + status * 2 ^ 16) } }

/-- ERASE. -/
def State.provErase (s : State) : State :=
  if !s.provisions then s.provEnd 1 2
  else ({ s with mgmt := { s.mgmt with flash := [], erased := true } } : State).provEnd 1 0

/-- WRITE. -/
def State.provWrite (s : State) : State :=
  let n := s.mgmt.parg1.toNat
  if !s.provisions ∨ 4096 < n then s.provEnd 2 2
  else ({ s with mgmt := { s.mgmt with
    flash := (List.range n).foldl (fun t i => Table.set none t (s.mgmt.parg0.toNat + i) (some (Table.get 0 s.mgmt.window i))) s.mgmt.flash } } : State).provEnd 2 0

/-- VERIFY: the checks of the boot ROM, without running the image. -/
def State.provVerify (s : State) : State :=
  if !s.provisions then s.provEnd 3 2
  else match s.imageFault with
    | none => s.provEnd 3 0
    | some r => ({ s with mgmt := { s.mgmt with reason := BitVec.ofNat 8 r, die := 0, fver := s.imageVersion } } : State).provEnd 3 2

/-- RESET: the module is as after reset, and boot starts again at ROM; the flash keeps what it holds. -/
def State.provReset (s : State) : State :=
  if !s.provisions then s.provEnd 4 2
  else { State.reset with cur := s.cur, agenda := s.agenda, free := s.free,
                          mgmt := { Mgmt.reset with flash := s.mgmt.flash, erased := s.mgmt.erased } }

/-- PROV_ERASE. -/
def execProvErase (s : State) : Out := .next s.provErase
/-- PROV_WRITE. -/
def execProvWrite (s : State) : Out := .next s.provWrite
/-- PROV_VERIFY. -/
def execProvVerify (s : State) : Out := .next s.provVerify
/-- PROV_RESET. -/
def execProvReset (s : State) : Out := .next s.provReset

/-- PCMD is written (R430): with GO, a command runs to its end. -/
def State.writePcmd (s : State) (w : Word) : State :=
  if !fbit w 31 then { s with mgmt := { s.mgmt with pcmd := BitVec.ofNat 64 (fld w 3 0 + fld s.mgmt.pcmd 23 16 * 2 ^ 16) } }
  else match fld w 3 0 with
    | 1 => s.provErase
    | 2 => s.provWrite
    | 3 => s.provVerify
    | 4 => s.provReset
    | op => s.provEnd op 2

/-! ### Attestation (23 R431) -/

/-- Measurement block i as SPDM carries it: its index, the DMTF specification, its length, the value's type, length and bytes. -/
def State.measurement (s : State) (i : Nat) : List Byte :=
  let v : List Byte := match i with
    | 1 => bytesBig 64 (s.mgmt.digest.getD 0).toNat
    | 2 => bytesOf 4 s.mgmt.fver.toNat ++ bytesOf 4 Config.rollbackMin.toNat
    | _ => bytesOf 8 s.featoff.toNat
  [BitVec.ofNat 8 i, 1] ++ bytesOf 2 (v.length + 3) ++ [Config.measureType i] ++ bytesOf 2 v.length ++ v

/-- The measurement blocks that a GET_MEASUREMENTS names by its second parameter: none for 0, every one for 255. -/
def measured (req : List Byte) : List Nat := match (req.getD 3 0).toNat with
  | 0 => []
  | 255 => [1, 2, 3]
  | n => [n]

/-- What an SPDM request is answered with, by the code of its response. PRESUMED (log entry 32): the bytes are those of SPDM 1.3. -/
def State.spdmAnswer (s : State) (code : Nat) (seen : List (List Byte)) : List Byte :=
  let head (v : Byte) (a b : Byte) : List Byte := [v, BitVec.ofNat 8 code, a, b]
  let param (i : Nat) : Byte := Config.spdmParam s.free seen i
  match code with
  | 0x04 => head 0x10 0 0 ++ [0, 1, 0x00, 0x13]
  | 0x60 =>
    let l := measured (seen.headD [])
    let blocks := l.flatMap s.measurement
    head 0x13 (if l.isEmpty then 3 else 0) (param 1) ++ [BitVec.ofNat 8 l.length] ++ bytesOf 3 blocks.length ++ blocks ++ Config.spdmTail s.free seen
  | _ => head 0x13 (param 0) (param 1) ++ Config.spdmTail s.free seen

/-- An SPDM request on the DOE mailbox is answered, or refused with an ERROR; in BOOTFAIL it is not (R428). -/
def State.spdm (s : State) (code : Nat) (req : List Byte) : State :=
  if s.mgmt.boot = .fail then s
  else
    let seen := req :: s.mgmt.spdm
    let wrong := match measured req with | [n] => decide (code = 0x60 ∧ 3 < n) | _ => false
    { s with free := s.free + 1, mgmt := { s.mgmt with
      spdm := seen
      spdmRsp := (match Config.spdmError seen with
        | some (e, d) => [0x13, 0x7F, e, d]
        | none => if wrong then [0x13, 0x7F, 0x01, 0] else s.spdmAnswer code seen) } }

/-- GET_VERSION. -/
def execGetVersion (req : List Byte) (s : State) : Out := .next (s.spdm 0x04 req)
/-- GET_CAPABILITIES. -/
def execGetCapabilities (req : List Byte) (s : State) : Out := .next (s.spdm 0x61 req)
/-- NEGOTIATE_ALGORITHMS. -/
def execNegotiateAlgorithms (req : List Byte) (s : State) : Out := .next (s.spdm 0x63 req)
/-- GET_DIGESTS. -/
def execGetDigests (req : List Byte) (s : State) : Out := .next (s.spdm 0x01 req)
/-- GET_CERTIFICATE. -/
def execGetCertificate (req : List Byte) (s : State) : Out := .next (s.spdm 0x02 req)
/-- CHALLENGE. -/
def execChallenge (req : List Byte) (s : State) : Out := .next (s.spdm 0x03 req)
/-- GET_MEASUREMENTS. -/
def execGetMeasurements (req : List Byte) (s : State) : Out := .next (s.spdm 0x60 req)

/-! ### The register space (06 R122) -/

/-- The offset of a link's status register, of a die's soft-error register, and so on: whether `off` is one of n doublewords at `base`. -/
def slotOff (base n off : Nat) : Option Nat := if base ≤ off ∧ off < base + 8 * n ∧ off % 8 = 0 then some ((off - base) / 8) else none

/-- The state numbers of a queue (06 R108). -/
def QState.code : QState → Nat
  | .disabled => 0
  | .idle => 1
  | .running => 2
  | .waiting => 3
  | .error => 4

/-- Write QCFG. A LOG2N or a CTX other than the one held, outside DISABLED, or a LOG2N out of range, sets CMDERR and keeps the old value. -/
def State.writeQcfg (s : State) (q : Nat) (w : Word) : State :=
  let x := s.queue q
  let n : BitVec 5 := w.setWidth 5
  let c := BitVec.ofNat 8 (fld w 15 8)
  let off := decide (x.state = .disabled)
  let bad := (!off && (decide (n ≠ x.log2n) || decide (c ≠ x.ctx))) || decide (n.toNat < 6 ∨ 16 < n.toNat)
  let s1 := s.setQueue q { x with log2n := if off ∧ 6 ≤ n.toNat ∧ n.toNat ≤ 16 then n else x.log2n, ctx := if off then c else x.ctx,
                                  cmderr := x.cmderr || bad }
  if fbit w 16 ∧ off then s1.enableQueue q else if !fbit w 16 ∧ !off then s1.disableQueue q else s1

/-- Write a register of queue q's block (06 R108); those of a lost die are gone (14 R238). -/
def State.writeQueue (s : State) (q byte : Nat) (w : Word) : State :=
  let x := s.queue q
  if (s.die (q / 256)).lost then s
  else match byte with
    | 0x00 => if x.state = .disabled then s.setQueue q { x with base := w } else s.setQueue q { x with cmderr := true }
    | 0x08 => s.writeQcfg q w
    | 0x18 => s.setQueue q { x with cmderr := x.cmderr && !fbit w 3 }
    | 0x20 => s.queueCommand q (fld w 1 0)
    | _ => s

/-- Write CCMD (06 R118): with GO the command runs; one that waits keeps GO. No command is accepted before READY. -/
def State.writeCcmd (s : State) (w : Word) : State :=
  let op := fld w 3 0
  let ctx := fld w 15 8
  if s.mgmt.boot ≠ .ready then s
  else if fbit w 31 then
    if fbit s.ccmd 31 then { s with ccmd := (s.ccmd &&& ~~~0xFF0000#64) ||| 0x10000 }
    else ({ s with ccmd := BitVec.ofNat 64 (op + ctx * 2 ^ 8 + 2 ^ 16 + 2 ^ 31) } : State).runCommand op ctx
  else if fbit s.ccmd 31 then s
  else { s with ccmd := BitVec.ofNat 64 (op + ctx * 2 ^ 8 + fld s.ccmd 23 16 * 2 ^ 16) }

/-- Write a doubleword of the provisioning window. -/
def State.writeWindow (s : State) (a : Nat) (w : Word) : State :=
  { s with mgmt := { s.mgmt with
    window := (bytesOf 8 w.toNat).zipIdx.foldl (fun t p => Table.set 0 t (a + p.2) p.1) s.mgmt.window } }

/-- The registers of boot and provisioning. -/
def State.writeBoot (s : State) (off : Nat) (w : Word) : State :=
  if off = 0x24008 then s.writePcmd w
  else if off = 0x24010 then { s with mgmt := { s.mgmt with parg0 := w } }
  else if off = 0x24018 then { s with mgmt := { s.mgmt with parg1 := w } }
  else if 0x25000 ≤ off ∧ off < 0x26000 then s.writeWindow (off - 0x25000) w
  else s

/-- The context-control registers. -/
def State.writeControl (s : State) (off : Nat) (w : Word) : State :=
  if off = 0x20000 then s.writeCcmd w
  else if off = 0x20048 then s.modCtx (fld s.ccmd 15 8) (fun x => { x with cdrop := x.cdrop &&& ~~~w })
  else match slotOff 0x20008 8 off with
    | some i => { s with carg := Table.set 0 s.carg i w }
    | none => s

/-- The registers of links, of the time base, of soft errors. A one clears the bit of a W1C field under it. -/
def State.writeStatus (s : State) (off : Nat) (w : Word) : State :=
  if off = 0x22108 then { s with rootsel := w.getLsbD 0 }
  else match slotOff 0x22000 18 off, slotOff 0x23000 8 off with
    | some n, _ => s.setLink n { s.link n with
        retry := (s.link n).retry &&& ~~~((w >>> 32).setWidth 16), trains := (s.link n).trains &&& ~~~((w >>> 48).setWidth 16) }
    | _, some d => s.setDie d { s.die d with soft := (s.die d).soft &&& ~~~w }
    | _, _ => s

/-- A gauge unit as the host writes it: as a CSR write, but a source of 9-15 is ignored (23 R432-R433). -/
def State.writeGauge (s : State) (off : Nat) (w : Word) : State :=
  let a := off - 0x40000
  let o := a % 64 / 8
  if o = 0 then (if 9 ≤ fld w 3 0 then s else s.gaugeWrite (a / 1024) (0x100 + 8 * (a / 64 % 16)) w)
  else if o = 5 then s.gaugeWrite (a / 1024) (0x105 + 8 * (a / 64 % 16)) w
  else s

/-- A host write of an aligned doubleword of the register space. Offsets without a register ignore it; in BOOTFAIL only boot and provisioning
answer (23 R428). -/
def State.writeRegister (s : State) (off : Nat) (w : Word) : State :=
  if off % 8 ≠ 0 then s
  else if 0x24000 ≤ off ∧ off < 0x26000 then s.writeBoot off w
  else if s.mgmt.boot = .fail then s
  else if off < 0x20000 then s.writeQueue (off / 64) (off % 64) w
  else if off < 0x21000 then s.writeControl off w
  else if off = 0x21000 then s.writeFeatoff w
  else if off < 0x24000 then s.writeStatus off w
  else if 0x40000 ≤ off ∧ off < 0x80000 then s.writeGauge off w
  else s

/-- REGISTER_WRITE. -/
def execRegisterWrite (off : Nat) (w : Word) (s : State) : Out := .next (s.writeRegister off w)

/-- What the host reads of queue q's block (06 R108); all ones where the die is lost (14 R238). -/
def State.readQueue (s : State) (q byte : Nat) : Word :=
  let x := s.queue q
  if (s.die (q / 256)).lost then 0xFFFFFFFFFFFFFFFF
  else match byte with
    | 0x00 => x.base
    | 0x08 => BitVec.ofNat 64 (x.log2n.toNat + x.ctx.toNat * 2 ^ 8 + x.en.toNat * 2 ^ 16)
    | 0x10 => x.rptr.setWidth 64
    | 0x18 => BitVec.ofNat 64 (x.state.code + x.cmderr.toNat * 8 + (if x.state = .error then x.err.toNat else 0) * 2 ^ 8 + x.tag.toNat * 2 ^ 32)
    | _ => 0

/-- The state numbers of a link (14 R232). -/
def LState.code : LState → Nat
  | .down => 0
  | .training => 1
  | .up => 2
  | .degraded => 3
  | .lost => 4

/-- A link's status register (14 R232). -/
def Link.status (l : Link) : Word :=
  BitVec.ofNat 64 (l.state.code + l.lanes * 2 ^ 3 + l.peer.toNat * 2 ^ 8 + l.plink.toNat * 2 ^ 26 + l.retry.toNat * 2 ^ 32 + l.trains.toNat * 2 ^ 48)

/-- The time base's status register (14 R240). -/
def State.timeStatus (s : State) : Word :=
  BitVec.ofNat 64 (s.tbSync.toNat + s.tbRoot.toNat * 2 + s.tbSrc.toNat * 2 ^ 2 + s.tbHops.toNat * 2 ^ 8 + s.tbOffs.toNat * 2 ^ 32)

/-- The state numbers of boot (23 R429). -/
def Boot.code : Boot → Nat
  | .rom => 0
  | .init => 1
  | .ready => 2
  | .fail => 7

/-- The boot-status register (23 R430). -/
def Mgmt.status (m : Mgmt) : Word :=
  BitVec.ofNat 64 (m.boot.code + m.reason.toNat * 2 ^ 8 + m.die.toNat * 2 ^ 16 + m.fver.toNat * 2 ^ 32)

/-- What the host reads of a register (06 R122). -/
def State.readRegister (s : State) (off : Nat) : Word :=
  if off % 8 ≠ 0 then 0
  else if off = 0x24000 then s.mgmt.status
  else if off = 0x24008 then s.mgmt.pcmd
  else if off = 0x24010 then s.mgmt.parg0
  else if off = 0x24018 then s.mgmt.parg1
  else if 0x25000 ≤ off ∧ off < 0x26000 then
    BitVec.ofNat 64 (ofBytes ((List.range 8).map (fun i => Table.get 0 s.mgmt.window (off - 0x25000 + i))))
  else if s.mgmt.boot = .fail then 0
  else if off < 0x20000 then s.readQueue (off / 64) (off % 64)
  else if off = 0x20000 then s.ccmd
  else if off = 0x20048 then (s.ctx (fld s.ccmd 15 8)).cdrop
  else if off = 0x21000 then s.featoff
  else if off = 0x22100 then s.timeStatus
  else if off = 0x22108 then bit s.rootsel
  else if 0x40000 ≤ off ∧ off < 0x80000 then
    (((s.ctx ((off - 0x40000) / 1024)).gauge (off / 64 % 16)).read (off % 64 / 8)).getD 0
  else match slotOff 0x20008 8 off, slotOff 0x22000 18 off, slotOff 0x23000 8 off with
    | some i, _, _ => Table.get 0 s.carg i
    | _, some n, _ => (s.link n).status
    | _, _, some d => (s.die d).soft
    | _, _, _ => 0

/-! ### CXL.mem (06 R109, 17 R305) -/

/-- The bytes of a write that meet bytes 0-3 of queue q's slot in the doorbell window change QWPTR. -/
def State.bellWrite (s : State) (pa : Nat) (bs : List Byte) (q : Nat) : State :=
  let at_ (i : Nat) : Option Byte := if pa ≤ memTop + 32 * q + i then bs[memTop + 32 * q + i - pa]? else none
  if (s.die (q / 256)).lost ∨ !(List.range 4).any (fun i => (at_ i).isSome) then s
  else s.doorbell q (BitVec.ofNat 32 (ofBytes ((bytesOf 4 (s.queue q).wptr.toNat).zipIdx.map (fun p => (at_ p.2).getD p.1))))

/-- A byte that the host reads over CXL.mem in the doorbell window: bytes 0-3 of a queue's slot give QWPTR "as written", the others, and the
slots of a lost die, zero. -/
def State.bellByte (s : State) (i : Nat) : Byte :=
  let q := i / 32
  if (s.die (q / 256)).lost then 0xFF
  else if i % 32 < 4 then (bytesOf 4 (s.queue q).wptr.toNat).getD (i % 32) 0 else 0

/-- What a read of n bytes over CXL.mem answers: HBM, then the doorbell window; none outside the device's range. -/
def State.cxlRead (s : State) (pa n : Nat) : Option (List Byte) :=
  if memTop + 65536 < pa + n then none
  else some ((List.range n).map (fun i => if pa + i < memTop then s.byte (pa + i) else s.bellByte (pa + i - memTop)))

/-- CXL_MEM_WRITE: bytes in HBM, whose granules lose their tags, or in the doorbell window. A lost die's stacks take nothing, and in
BOOTFAIL the device does not answer. -/
def execCxlMemWrite (pa : Nat) (bytes : List Byte) (s : State) : Out :=
  if memTop + 65536 < pa + bytes.length then .fault .noSuchAddress
  else if s.mgmt.boot = .fail then .next s
  else
    let low := bytes.take (memTop - pa)
    let s1 := if low.isEmpty ∨ s.lostMemory pa then s
      else s.copied.foldl (fun t f => if f < pa + low.length ∧ pa < f + 65536 then t.fenceCode f (f + 65536) else t) (s.write pa low)
    let first := (pa - memTop) / 32
    let last := (pa + bytes.length - memTop + 31) / 32
    .next ((List.range (last - first)).foldl (fun s i => s.bellWrite pa bytes (first + i)) s1)

/-! ### Soft errors and machine checks (01 R21, 11 R201, 22 R424, 23 R435) -/

/-- Count an error in the 16-bit field at bit `at_` of a die's soft-error register, and log it. -/
def Die.count (x : Die) (at_ : Nat) (pa now : Word) : Die :=
  { x with soft := if fld x.soft (at_ + 15) at_ = 65535 then x.soft else x.soft + (1#64 <<< at_), log := x.log ++ [(pa, now)] }

/-- CORRECTABLE_ERROR: counted, logged with reason SOFT; the data are corrected. -/
def execCorrectableError (die : Nat) (kind : ErrSite) (pa : Word) (s : State) : Out :=
  let at_ := match kind with | .sram => 0 | .hbmA => 16 | .hbmB => 32
  .next (s.setDie die ((s.die die).count at_ pa s.time))

/-- A command fails for a read that met the error. -/
def Running.check (r : Running) : Running := { r with fail := some (r.fail.getD (.mcheck, 0, r.job.descVa)) }

/-- What an uncorrectable error does where it was met. DESIGN CHOICE (log entry 33): the event of an error that an engine met has in x2 the
coordinate of the core that issued the command, as R9 gives an engine none. -/
def State.errorAt (s : State) : UncSite → State
  | .access c va => s.takeFault c .mcheck va (s.core c).unitAt .read
  | .tiles c n => match (s.core c).held with
    | none => s
    | some h =>
      let s1 := (s.modCore c (fun x => { x with held := some { h with tiles := Table.erase h.tiles n } })).writeOut c
      s1.checkEvent h.owner.ctx (s.coordW c) (BitVec.ofNat 64 (0xFFFFFFFFFFFFFF00 + n)) (h.owner.who.map VCore.launch)
  | .cast c => match (s.core c).ctx with
    | none => s
    | some ctx =>
      let x := s.core c
      let s1 := if x.launch.isNone ∨ x.barred ∨ x.run ≠ .idle then s
        else (s.modCtx ctx (fun y => { y with shadows := y.shadows ++ [(x.here, x.shadow)] })).modCore c (fun y =>
          { y with barred := true, ready := y.ready.filter Firing.svc, matched := y.matched.filter Firing.svc,
                   aborted := y.aborted.filter (fun a => a.firing.svc), inbox := [] })
      (s1.checkEvent ctx (s.coordW c) 0 (s.core c).launch).haltCtx ctx 5
  | .layby ctx => if (s.ctx ctx).active then s.checkEvent ctx 0 0 none else s
  | .engine u =>
    let x := s.cluster u
    match x.me, x.je with
    | some r, _ => (s.setCluster u { x with me := some r.check }).checkEvent r.job.ctx (s.coordW r.job.core) 0 (some r.job.vcore.launch)
    | none, (n, r) :: _ =>
      (s.setCluster u { x with je := Table.insert x.je n r.check }).checkEvent r.job.ctx (s.coordW r.job.core) 0 (some r.job.vcore.launch)
    | none, [] => s
  | .copyEngine e => match (s.engine e).run with
    | none => s
    | some r =>
      (s.setEngine e { s.engine e with run := some { r with fail := some (r.fail.getD (.mcheck, 0, r.cmd.descVa)) } }).checkEvent r.cmd.ctx
        (s.coordW r.cmd.core) 0 (some r.cmd.vcore.launch)
  | .idle => s

/-- The physical address of an uncorrectable error's record: the access's, where its page is known, else a free value. -/
def State.errorPa (s : State) : UncSite → Word
  | .access c va => ((s.vaToPa (s.ctxOf c) .read va).map (BitVec.ofNat 64)).getD (Config.errorAddress s.free)
  | _ => Config.errorAddress s.free

/-- UNCORRECTABLE_ERROR: counted and logged, a machine-check event to the die's Plinth, and its effect where it was met. -/
def execUncorrectableError (die : Nat) (site : UncSite) (s : State) : Out :=
  let x := (s.die die).count 48 (s.errorPa site) s.time
  .next (({ s with free := s.free + 1 } : State).setDie die { x with checks := x.checks ++ [s.time] } |>.errorAt site)

/-! ### Thermal limits (23 R436) -/

/-- The clock of the dies of a mask changes. -/
def State.setClocks (s : State) (dies : BitVec 8) (f : Nat → Nat) : State :=
  ((List.range 8).filter (fun d => dies.getLsbD d)).foldl (fun s d => s.setDie d { s.die d with mhz := f (s.die d).mhz }) s

/-- THERMAL_THROTTLE: one step of 100 MHz down, to 800 MHz at the lowest. -/
def execThermalThrottle (dies : BitVec 8) (s : State) : Out := .next (s.setClocks dies (fun m => max 800 (m - 100)))

/-- THERMAL_RECOVER: one step up, to 1.5 GHz at the highest (01 R13). -/
def execThermalRecover (dies : BitVec 8) (s : State) : Out := .next (s.setClocks dies (fun m => min 1500 (m + 100)))

/-- THERMAL_SHUTDOWN: every context is stopped as by DESTROY, and the host is told. -/
def execThermalShutdown (s : State) : Out :=
  let s1 := (s.ctxs.map Prod.fst).foldl (fun s n => (s.destroyCtx n).2) s
  .next { s1 with notices := s1.notices ++ [s.time], mgmt := { s1.mgmt with stopped := true } }

end Sys2Proof.Machine
end

