-- ==== Sys2Proof/Machine/System.lean ====
section
/-! DEFINITION. Group 0x0: prefixes, NOP, traps, CSR access, fences, stopping the world, WAITT, HALT (15 R256-R260, 16 R275,
20 R383-R395), and the unassigned opcodes (15 R255). -/

namespace Sys2Proof.Machine

/-- A prefix of core `k`'s next word: it joins the prefixes that stand before it, and control goes to the next word (R260). -/
def State.takePrefix (s : State) (k : Nat) (f : Pfx → Pfx) : State :=
  s.modCore k (fun c =>
    let p : Pfx := c.pfx.getD { ximm := none, ord := none, first := c.pc }
    { c with pfx := some (f p), pc := c.pc + 8, again := none, latch := [] })

/-- XIMM (15 R256). -/
def execXimm (payload : BitVec 32) (s : State) : Out := .next (s.takePrefix s.cur (fun p => { p with ximm := some payload }))

/-- ORD (15 R257). -/
def execOrd (o : Order) (s : State) : Out := .next (s.takePrefix s.cur (fun p => { p with ord := some o }))

/-- NOP (16 R275). -/
def execNop (f : FR) (s : State) : Out := s.runSeq s.cur f.sp [] [] (fun s => .ok s)

/-- TRAP (20 R384). -/
def execTrap (f : FI) (s : State) : Out :=
  s.runJump s.cur f.sp [] (fun s => do
    let c := s.core s.cur
    let code := f.imm.toNat % 256
    faultIf c.vs.csr.trapActive .illegal 0
    faultIf (decide (c.vs.csr.tvec = 0)) .trapd (BitVec.ofNat 64 code)
    let s1 ← s.enterTrap s.cur 0 code (c.fallThrough f.sp)
    return (s1, (s1.core s.cur).pc))

/-- TRAPD: the carried fault, at this word's address (20 R387). As 22 R419 delivers them, PHASE_OVERFLOW commits the firing early, LAYBY_FULL is an
event alone, and the firing goes on after both. -/
def execTrapd (f : FI) (s : State) : Out :=
  let k := s.cur
  let code := (FCode.ofCode f.imm.toNat).getD .illegal
  s.runWord k f.sp (decide (code = .phaseOverflow ∨ code = .laybyFull)) false .fetch [] [] (fun s => match code with
    | .phaseOverflow => do return (← (s.commit k).publishNow k none, none)
    | .laybyFull =>
      let c := s.core k
      .ok (s.ctxEvent (s.ctxOf k) (plainEvent (eventRegs code.code (s.coordW k) 0 c.unitAt c.committed none s.time) (c.firing.bind Firing.launch)), none)
    | _ => fault code 0)

/-- BRK (20 R385). -/
def execBrk (f : FI) (s : State) : Out :=
  s.runJump s.cur f.sp [] (fun s => do
    let tag := f.imm.toNat % 65536
    let s1 ← s.breakTrap s.cur 1 tag ((s.core s.cur).fallThrough f.sp) (BitVec.ofNat 64 tag)
    return (s1, (s1.core s.cur).pc))

/-- ERET (20 R386). -/
def execEret (f : FR) (s : State) : Out :=
  s.runJump s.cur f.sp [] (fun s => do
    let s1 ← s.leaveTrap s.cur
    return (s1, (s1.core s.cur).pc))

/-- CSRR (20 R388). -/
def execCsrr (f : FI) (s : State) : Out :=
  s.runSeq s.cur f.sp [f.a] [f.d] (fun s => s.csrOp s.cur f.imm.toNat f.d f.a none)
/-- CSRW (20 R388). -/
def execCsrw (f : FI) (s : State) : Out :=
  s.runSeq s.cur f.sp [f.a] [f.d] (fun s => s.csrOp s.cur f.imm.toNat f.d f.a (some (fun _ v => v)))
/-- CSRS (20 R388). -/
def execCsrs (f : FI) (s : State) : Out :=
  s.runSeq s.cur f.sp [f.a] [f.d] (fun s => s.csrOp s.cur f.imm.toNat f.d f.a (some (fun o v => o ||| v)))
/-- CSRC (20 R388). -/
def execCsrc (f : FI) (s : State) : Out :=
  s.runSeq s.cur f.sp [f.a] [f.d] (fun s => s.csrOp s.cur f.imm.toNat f.d f.a (some (fun o v => o &&& ~~~v)))

/-- The checks of FENCE.CODE and PTSYNC that need no length (20 R392). -/
def fenceRights (c : XReg) : Res Unit := do
  faultIf (!c.tag) .capTag c.addr
  faultIf (c.sealed || decide (c.perms &&& pG = 0) || decide (c.perms &&& (pR + pW + pX) = 0)) .capPerm c.addr

/-- The checks of FENCE.CODE and PTSYNC on a range (20 R392). -/
def fenceCheck (c : XReg) (len : Word) : Res Unit := do
  fenceRights c
  faultIf (decide (c.addr.toNat < c.base) || decide (c.top < c.addr.toNat + len.toNat)) .capBounds c.addr

/-- The older versions that fetches of a context's addresses [lo, lo + len) may find are dropped (20 R392). -/
def State.fenceRange (s : State) (ctx lo len : Nat) : State :=
  if len = 0 ∨ !s.hist.any Version.code then s
  else
    let first := lo / 65536
    (List.range ((lo + len - 1) / 65536 + 1 - first)).foldl (fun s i =>
      let page := (first + i) * 65536
      let a := max lo page
      let n := min (lo + len) (page + 65536) - a
      match s.vaToPa ctx .fetch (BitVec.ofNat 64 a) with
      | some pa => s.fenceCode pa (pa + n)
      | none => s) s

/-- FENCE.CODE (20 R392). -/
def execFenceCode (f : FR) (s : State) : Out :=
  s.runSeq s.cur f.sp [f.b] [] (fun s => do
    let k := s.cur
    let c := s.cap k f.a
    let (len, s1) ← before (fenceRights c) (s.src k f.b)
    fenceCheck c len
    let s2 ← s1.publishNow k none
    return s2.fenceRange (s2.ctxOf k) c.addr.toNat len.toNat)

/-- PTSYNC (20 R393). -/
def execPtsync (f : FR) (s : State) : Out :=
  s.runSeq s.cur f.sp [f.b] [] (fun s => do
    let k := s.cur
    let c := s.cap k f.a
    let (len, s1) ← before (fenceRights c) (s.src k f.b)
    fenceCheck c len
    let s2 ← s1.publishNow k none
    return if len = 0 then s2 else s2.dropTlb (s2.ctxOf k) c.addr.toNat (c.addr.toNat + len.toNat))

/-- Ask every core of a context but `k` to stop (05 R102-R103). -/
def State.askStop (s : State) (ctx k : Nat) : State :=
  ({ s with cores := s.cores.map (fun p =>
      if p.2.ctx = some ctx ∧ p.1 ≠ k then (p.1, p.2.request .stopw s.cycle) else p) } : State).stopAtWaits
    ((s.cores.filter (fun p => decide (p.2.ctx = some ctx) && decide (p.1 ≠ k))).map Prod.fst)

/-- STOPW (20 R394, 05 R102): where another firing's STOPW is in progress this one stops here, to be executed again; otherwise it
waits for WORLD_STOPPED. -/
def execStopw (f : FR) (s : State) : Out :=
  s.runSeq s.cur f.sp [] [] (fun s => do
    let k := s.cur
    let ctx := s.ctxOf k
    let s1 ← s.publishNow k none
    match (s1.ctx ctx).stopper with
    | some j =>
      if j = k ∧ (s1.ctx ctx).state = .stopped then return s1 else .error (.wait .world s1)
    | none => .error (.wait .world ((s1.modCtx ctx (fun x => { x with stopper := some k })).askStop ctx k)))

/-- RESUMEW (20 R394). -/
def execResumew (f : FR) (s : State) : Out :=
  s.runSeq s.cur f.sp [] [] (fun s => do
    let k := s.cur
    let ctx := s.ctxOf k
    let s1 ← s.publishNow k none
    return if (s1.ctx ctx).state = .stopped then s1.wakeWorld ctx else s1)

/-- WAITT (20 R395). -/
def execWaitt (f : FR) (s : State) : Out :=
  s.runSeq s.cur f.sp [f.a] [] (fun s => do
    let (t, s1) ← s.waitSrc s.cur f.a
    let s2 ← s1.publishNow s.cur none
    if t.toNat ≤ s2.time.toNat then return s2 else .error (.wait (.stamp t) s2))

/-- HALT: as END, with a record on the host queue after the firing's messages (16 R275). -/
def execHalt (_f : FR) (s : State) : Out :=
  s.runEnd s.cur (fun s => do
    let k := s.cur
    let c := s.core k
    let rec_ : List Word := [0xFF ||| (s.coordW k <<< 8), c.unitAt, s.time] ++ (List.range 5).map (fun i => (c.vs.getX (i + 1)).addr)
    let s1 ← (s.modCore k (fun c => { c with buffer := c.closed, hq := [] })).enter k [.hostq rec_]
    s1.publishNow k none)

/-- A word of an opcode that the map does not assign: ILLEGAL at its address (15 R255). -/
def execUnassignedOpcode (_w : Word) (s : State) : Out :=
  .next (s.takeFault s.cur .illegal 0 (s.core s.cur).unitAt .read)

end Sys2Proof.Machine
end

