-- ==== Sys2Proof/Machine/VectorFloat.lean ====
section
/-! DEFINITION. Group 0xA: floating-point lanes (18 R335-R339). -/

namespace Sys2Proof.Machine

/-- The format of an instruction's TYPE; group 0xA accepts no others. -/
def VMod.fmt (m : VMod) : Fmt := (Fmt.ofVTy m.ty).getD .f32

/-- VFADD. -/
def execVfadd (f : FV) (s : State) : Out := s.binary f (fadd (VMod.fmt f.md) f.md.rm f.md.sat)
/-- VFSUB. -/
def execVfsub (f : FV) (s : State) : Out := s.binary f (fsub (VMod.fmt f.md) f.md.rm f.md.sat)
/-- VFMUL. -/
def execVfmul (f : FV) (s : State) : Out := s.binary f (fmul (VMod.fmt f.md) f.md.rm f.md.sat)
/-- VFMA. -/
def execVfma (f : FV) (s : State) : Out := s.ternary f (ffma (VMod.fmt f.md) f.md.rm f.md.sat false)
/-- VFNMA. -/
def execVfnma (f : FV) (s : State) : Out := s.ternary f (ffma (VMod.fmt f.md) f.md.rm f.md.sat true)
/-- VFDIV. -/
def execVfdiv (f : FV) (s : State) : Out := s.binary f (fdiv (VMod.fmt f.md) f.md.rm f.md.sat)
/-- VFSQRT. -/
def execVfsqrt (f : FV) (s : State) : Out := s.unary f (fsqrt (VMod.fmt f.md) f.md.rm f.md.sat)
/-- VFRSQ. -/
def execVfrsq (f : FV) (s : State) : Out := s.unary f (frsq f.md.sat)
/-- VFRCP. -/
def execVfrcp (f : FV) (s : State) : Out := s.unary f (frcp f.md.sat)
/-- VFMIN. -/
def execVfmin (f : FV) (s : State) : Out := s.binary f (fminmax (VMod.fmt f.md) false)
/-- VFMAX. -/
def execVfmax (f : FV) (s : State) : Out := s.binary f (fminmax (VMod.fmt f.md) true)
/-- VFABS. -/
def execVfabs (f : FV) (s : State) : Out := s.unary f (fsign (VMod.fmt f.md) false)
/-- VFNEG. -/
def execVfneg (f : FV) (s : State) : Out := s.unary f (fsign (VMod.fmt f.md) true)
/-- VFCMP: the predicate is XMOD 38:36 (R337). -/
def execVfcmp (f : FV) (s : State) : Out :=
  s.binary f (fun a b =>
    let (t, g) := fcmp (VMod.fmt f.md) (f.md.xmod.toNat % 8) a b
    (if t then 2 ^ f.md.ty.width - 1 else 0, g))
/-- VFCLASS. -/
def execVfclass (f : FV) (s : State) : Out := s.unary f (fun a => (fclass (VMod.fmt f.md) a, 0))

end Sys2Proof.Machine
end

