-- ==== Sys2Proof/Machine/VectorInt.lean ====
section
/-! DEFINITION. Group 0x9: integer lanes and lane moves (18 R332-R334). -/

namespace Sys2Proof.Machine

/-- An integer operation on signed lanes, or unsigned ones under .U (R332). -/
def State.intLanes (s : State) (f : FV) (op : Nat → Int → Int → Int) : Out :=
  let w := f.md.ty.width
  let u := xmod0 f.md
  s.binary f (fun a b => (laneOut f.md.sat u w (op w (laneInt u w a) (laneInt u w b)), 0))
/-- An operation on the bits of lanes. -/
def State.bitLanes (s : State) (f : FV) (op : Nat → Nat → Nat → Nat) : Out :=
  let w := f.md.ty.width
  s.binary f (fun a b => (op w a b % 2 ^ w, 0))
/-- All ones of width w where a condition holds. -/
def ones (w : Nat) (b : Bool) : Nat := if b then 2 ^ w - 1 else 0

/-- VADD. -/
def execVadd (f : FV) (s : State) : Out := s.intLanes f (fun _ a b => a + b)
/-- VSUB. -/
def execVsub (f : FV) (s : State) : Out := s.intLanes f (fun _ a b => a - b)
/-- VMUL. -/
def execVmul (f : FV) (s : State) : Out := s.intLanes f (fun _ a b => a * b)
/-- VMULH. -/
def execVmulh (f : FV) (s : State) : Out := s.intLanes f (fun w a b => a * b / 2 ^ w)
/-- VAND. -/
def execVand (f : FV) (s : State) : Out := s.bitLanes f (fun _ a b => a &&& b)
/-- VOR. -/
def execVor (f : FV) (s : State) : Out := s.bitLanes f (fun _ a b => a ||| b)
/-- VXOR. -/
def execVxor (f : FV) (s : State) : Out := s.bitLanes f (fun _ a b => a ^^^ b)
/-- VSHL. -/
def execVshl (f : FV) (s : State) : Out := s.bitLanes f (fun w a b => a * 2 ^ (b % w))
/-- VSHR. -/
def execVshr (f : FV) (s : State) : Out := s.bitLanes f (fun w a b => a / 2 ^ (b % w))
/-- VSHRA. -/
def execVshra (f : FV) (s : State) : Out := s.bitLanes f (fun w a b => narrow w (laneInt false w a / 2 ^ (b % w)))
/-- VMIN. -/
def execVmin (f : FV) (s : State) : Out := s.intLanes f (fun _ a b => if b < a then b else a)
/-- VMAX. -/
def execVmax (f : FV) (s : State) : Out := s.intLanes f (fun _ a b => if a < b then b else a)
/-- VCMPEQ. -/
def execVcmpeq (f : FV) (s : State) : Out := s.bitLanes f (fun w a b => ones w (decide (a = b)))
/-- VCMPLT. -/
def execVcmplt (f : FV) (s : State) : Out :=
  let u := xmod0 f.md
  s.bitLanes f (fun w a b => ones w (decide (laneInt u w a < laneInt u w b)))
/-- VABS. -/
def execVabs (f : FV) (s : State) : Out :=
  let w := f.md.ty.width
  s.unary f (fun a => (laneOut f.md.sat false w (laneInt false w a).natAbs, 0))

/-- VSEL: the selector is y0, and every lane is written (R334). -/
def execVsel (f : FV) (s : State) : Out :=
  s.runVector f [f.a, f.b] (fun s => do
    let k := s.cur
    let w := f.md.ty.width
    let (a, s1) ← s.vsrc k w f.a
    let (b, s2) ← s1.vsrc k w f.b
    s2.vput k f.d w false (ofLanes w (((lanesOf a w).zip (lanesOf b w)).mapIdx (fun i p =>
      if s.included k w true i then p.1 else p.2))))

/-- VDOT4 (R333): the mask of result lane i is y0 bit i. -/
def execVdot4 (f : FV) (s : State) : Out :=
  s.runVector f [f.a, f.b] (fun s => do
    let k := s.cur
    let u := xmod0 f.md
    let (a, s1) ← s.vsrc k 8 f.a
    let (b, s2) ← s1.vsrc k 8 f.b
    let (d, s3) ← s2.vsrc k 32 f.d
    let byte (v : Vec) (j : Nat) : Int := laneInt u 8 (laneAt v 8 j)
    s3.vput k f.d 32 f.md.m (ofLanes 32 ((lanesOf d 32).mapIdx (fun i x =>
      laneOut f.md.sat u 32 ((List.range 4).foldl (fun t j => t + byte a (4 * i + j) * byte b (4 * i + j)) (laneInt u 32 x))))))

/-- VSPLAT. The special LANE, which reads as the lane's own index (03 R57), gives each lane its index. -/
def execVsplat (f : FV) (s : State) : Out :=
  s.runVector f [] (fun s => do
    let k := s.cur
    let w := f.md.ty.width
    let (x, s1) ← s.src k f.a
    s1.vput k f.d w f.md.m (if f.a = .lane then ofLanes w (List.range (1024 / w)) else splat w x.toNat))

/-- VMOVX. -/
def execVmovx (f : FV) (s : State) : Out :=
  s.runVector f [f.a] (fun s => do
    let k := s.cur
    let w := f.md.ty.width
    let (a, s1) ← s.vsrc k w f.a
    let (b, s2) ← s1.src k (s.issued k f.b)
    s2.put k f.d (w64 (laneInt (!xmod0 f.md) w (laneAt a w (b.toNat % (1024 / w))))))

/-- VINS: the other lanes of D are unchanged. -/
def execVins (f : FV) (s : State) : Out :=
  s.runVector f [] (fun s => do
    let k := s.cur
    let w := f.md.ty.width
    let (a, s1) ← s.src k f.a
    let (b, s2) ← s1.src k (s.issued k f.b)
    let (d, s3) ← s2.vsrc k w f.d
    s3.vput k f.d w false (ofLanes w ((lanesOf d w).mapIdx (fun i x => if i = b.toNat % (1024 / w) then a.toNat % 2 ^ w else x))))

end Sys2Proof.Machine
end

