-- ==== Sys2Proof/Machine/Dispatch.lean ====
section
/-! DEFINITION. One arm per instruction: each is one call of that instruction's meaning. -/

namespace Sys2Proof.Machine

/-- The effect of one instruction or event. -/
def exec (i : Instr) (s : State) : Host.Outcome State Fault Refusal :=
  match i with
  | .ximm payload => Sys2Proof.Machine.execXimm payload s
  | .ord o => Sys2Proof.Machine.execOrd o s
  | .nop f => Sys2Proof.Machine.execNop f s
  | .trap f => Sys2Proof.Machine.execTrap f s
  | .trapd f => Sys2Proof.Machine.execTrapd f s
  | .brk f => Sys2Proof.Machine.execBrk f s
  | .eret f => Sys2Proof.Machine.execEret f s
  | .csrr f => Sys2Proof.Machine.execCsrr f s
  | .csrw f => Sys2Proof.Machine.execCsrw f s
  | .csrs f => Sys2Proof.Machine.execCsrs f s
  | .csrc f => Sys2Proof.Machine.execCsrc f s
  | .fenceCode f => Sys2Proof.Machine.execFenceCode f s
  | .ptsync f => Sys2Proof.Machine.execPtsync f s
  | .stopw f => Sys2Proof.Machine.execStopw f s
  | .resumew f => Sys2Proof.Machine.execResumew f s
  | .waitt f => Sys2Proof.Machine.execWaitt f s
  | .halt f => Sys2Proof.Machine.execHalt f s
  | .add f => Sys2Proof.Machine.execAdd f s
  | .sub f => Sys2Proof.Machine.execSub f s
  | .mul f => Sys2Proof.Machine.execMul f s
  | .mulh f => Sys2Proof.Machine.execMulh f s
  | .mulhu f => Sys2Proof.Machine.execMulhu f s
  | .div f => Sys2Proof.Machine.execDiv f s
  | .divu f => Sys2Proof.Machine.execDivu f s
  | .rem f => Sys2Proof.Machine.execRem f s
  | .remu f => Sys2Proof.Machine.execRemu f s
  | .and f => Sys2Proof.Machine.execAnd f s
  | .or f => Sys2Proof.Machine.execOr f s
  | .xor f => Sys2Proof.Machine.execXor f s
  | .andn f => Sys2Proof.Machine.execAndn f s
  | .orn f => Sys2Proof.Machine.execOrn f s
  | .shl f => Sys2Proof.Machine.execShl f s
  | .shr f => Sys2Proof.Machine.execShr f s
  | .shra f => Sys2Proof.Machine.execShra f s
  | .rol f => Sys2Proof.Machine.execRol f s
  | .ror f => Sys2Proof.Machine.execRor f s
  | .min f => Sys2Proof.Machine.execMin f s
  | .max f => Sys2Proof.Machine.execMax f s
  | .minu f => Sys2Proof.Machine.execMinu f s
  | .maxu f => Sys2Proof.Machine.execMaxu f s
  | .cmpeq f => Sys2Proof.Machine.execCmpeq f s
  | .cmpne f => Sys2Proof.Machine.execCmpne f s
  | .cmplt f => Sys2Proof.Machine.execCmplt f s
  | .cmpltu f => Sys2Proof.Machine.execCmpltu f s
  | .sel f => Sys2Proof.Machine.execSel f s
  | .clz f => Sys2Proof.Machine.execClz f s
  | .ctz f => Sys2Proof.Machine.execCtz f s
  | .popc f => Sys2Proof.Machine.execPopc f s
  | .brev f => Sys2Proof.Machine.execBrev f s
  | .bswap f => Sys2Proof.Machine.execBswap f s
  | .ext f => Sys2Proof.Machine.execExt f s
  | .ins f => Sys2Proof.Machine.execIns f s
  | .mov f => Sys2Proof.Machine.execMov f s
  | .addi f => Sys2Proof.Machine.execAddi f s
  | .andi f => Sys2Proof.Machine.execAndi f s
  | .ori f => Sys2Proof.Machine.execOri f s
  | .xori f => Sys2Proof.Machine.execXori f s
  | .shli f => Sys2Proof.Machine.execShli f s
  | .shri f => Sys2Proof.Machine.execShri f s
  | .shrai f => Sys2Proof.Machine.execShrai f s
  | .cmplti f => Sys2Proof.Machine.execCmplti f s
  | .movi f => Sys2Proof.Machine.execMovi f s
  | .movhi f => Sys2Proof.Machine.execMovhi f s
  | .cgeta f => Sys2Proof.Machine.execCgeta f s
  | .cseta f => Sys2Proof.Machine.execCseta f s
  | .cinc f => Sys2Proof.Machine.execCinc f s
  | .csetb f => Sys2Proof.Machine.execCsetb f s
  | .cgetb f => Sys2Proof.Machine.execCgetb f s
  | .cgetl f => Sys2Proof.Machine.execCgetl f s
  | .candp f => Sys2Proof.Machine.execCandp f s
  | .cgetp f => Sys2Proof.Machine.execCgetp f s
  | .ctag f => Sys2Proof.Machine.execCtag f s
  | .cclr f => Sys2Proof.Machine.execCclr f s
  | .csub f => Sys2Proof.Machine.execCsub f s
  | .clscap f => Sys2Proof.Machine.execClscap f s
  | .cseal f => Sys2Proof.Machine.execCseal f s
  | .cunseal f => Sys2Proof.Machine.execCunseal f s
  | .beq f => Sys2Proof.Machine.execBeq f s
  | .bne f => Sys2Proof.Machine.execBne f s
  | .blt f => Sys2Proof.Machine.execBlt f s
  | .bge f => Sys2Proof.Machine.execBge f s
  | .bltu f => Sys2Proof.Machine.execBltu f s
  | .bgeu f => Sys2Proof.Machine.execBgeu f s
  | .bk f => Sys2Proof.Machine.execBk f s
  | .bnk f => Sys2Proof.Machine.execBnk f s
  | .jmp f => Sys2Proof.Machine.execJmp f s
  | .jal f => Sys2Proof.Machine.execJal f s
  | .jr f => Sys2Proof.Machine.execJr f s
  | .loop f => Sys2Proof.Machine.execLoop f s
  | .send f => Sys2Proof.Machine.execSend f s
  | .sendm f => Sys2Proof.Machine.execSendm f s
  | .recv f => Sys2Proof.Machine.execRecv f s
  | .fire f => Sys2Proof.Machine.execFire f s
  | .endFiring f => Sys2Proof.Machine.execEndFiring f s
  | .yieldFiring f => Sys2Proof.Machine.execYieldFiring f s
  | .migrate f => Sys2Proof.Machine.execMigrate f s
  | .evset f => Sys2Proof.Machine.execEvset f s
  | .evclr f => Sys2Proof.Machine.execEvclr f s
  | .evwait f => Sys2Proof.Machine.execEvwait f s
  | .evtest f => Sys2Proof.Machine.execEvtest f s
  | .join f => Sys2Proof.Machine.execJoin f s
  | .jinit f => Sys2Proof.Machine.execJinit f s
  | .htset f => Sys2Proof.Machine.execHtset f s
  | .htget f => Sys2Proof.Machine.execHtget f s
  | .hostq f => Sys2Proof.Machine.execHostq f s
  | .ld f => Sys2Proof.Machine.execLd f s
  | .st f => Sys2Proof.Machine.execSt f s
  | .ldv f => Sys2Proof.Machine.execLdv f s
  | .stv f => Sys2Proof.Machine.execStv f s
  | .ldvs f => Sys2Proof.Machine.execLdvs f s
  | .stvs f => Sys2Proof.Machine.execStvs f s
  | .ldvx f => Sys2Proof.Machine.execLdvx f s
  | .stvx f => Sys2Proof.Machine.execStvx f s
  | .pref f => Sys2Proof.Machine.execPref f s
  | .ldc f => Sys2Proof.Machine.execLdc f s
  | .stc f => Sys2Proof.Machine.execStc f s
  | .lsld f => Sys2Proof.Machine.execLsld f s
  | .lsst f => Sys2Proof.Machine.execLsst f s
  | .lsldv f => Sys2Proof.Machine.execLsldv f s
  | .lsstv f => Sys2Proof.Machine.execLsstv f s
  | .mcst f => Sys2Proof.Machine.execMcst f s
  | .cbinit f => Sys2Proof.Machine.execCbinit f s
  | .cbadvp f => Sys2Proof.Machine.execCbadvp f s
  | .cbadvc f => Sys2Proof.Machine.execCbadvc f s
  | .cbcnt f => Sys2Proof.Machine.execCbcnt f s
  | .qctl f => Sys2Proof.Machine.execQctl f s
  | .qtest f => Sys2Proof.Machine.execQtest f s
  | .qdrain f => Sys2Proof.Machine.execQdrain f s
  | .aadd f => Sys2Proof.Machine.execAadd f s
  | .aand f => Sys2Proof.Machine.execAand f s
  | .aor f => Sys2Proof.Machine.execAor f s
  | .axor f => Sys2Proof.Machine.execAxor f s
  | .amin f => Sys2Proof.Machine.execAmin f s
  | .amax f => Sys2Proof.Machine.execAmax f s
  | .aminu f => Sys2Proof.Machine.execAminu f s
  | .amaxu f => Sys2Proof.Machine.execAmaxu f s
  | .aswp f => Sys2Proof.Machine.execAswp f s
  | .acas f => Sys2Proof.Machine.execAcas f s
  | .afadd f => Sys2Proof.Machine.execAfadd f s
  | .afmin f => Sys2Proof.Machine.execAfmin f s
  | .afmax f => Sys2Proof.Machine.execAfmax f s
  | .rget f => Sys2Proof.Machine.execRget f s
  | .rput f => Sys2Proof.Machine.execRput f s
  | .radd f => Sys2Proof.Machine.execRadd f s
  | .rcas f => Sys2Proof.Machine.execRcas f s
  | .vadd f => Sys2Proof.Machine.execVadd f s
  | .vsub f => Sys2Proof.Machine.execVsub f s
  | .vmul f => Sys2Proof.Machine.execVmul f s
  | .vmulh f => Sys2Proof.Machine.execVmulh f s
  | .vand f => Sys2Proof.Machine.execVand f s
  | .vor f => Sys2Proof.Machine.execVor f s
  | .vxor f => Sys2Proof.Machine.execVxor f s
  | .vshl f => Sys2Proof.Machine.execVshl f s
  | .vshr f => Sys2Proof.Machine.execVshr f s
  | .vshra f => Sys2Proof.Machine.execVshra f s
  | .vmin f => Sys2Proof.Machine.execVmin f s
  | .vmax f => Sys2Proof.Machine.execVmax f s
  | .vcmpeq f => Sys2Proof.Machine.execVcmpeq f s
  | .vcmplt f => Sys2Proof.Machine.execVcmplt f s
  | .vsel f => Sys2Proof.Machine.execVsel f s
  | .vabs f => Sys2Proof.Machine.execVabs f s
  | .vdot4 f => Sys2Proof.Machine.execVdot4 f s
  | .vsplat f => Sys2Proof.Machine.execVsplat f s
  | .vmovx f => Sys2Proof.Machine.execVmovx f s
  | .vins f => Sys2Proof.Machine.execVins f s
  | .vfadd f => Sys2Proof.Machine.execVfadd f s
  | .vfsub f => Sys2Proof.Machine.execVfsub f s
  | .vfmul f => Sys2Proof.Machine.execVfmul f s
  | .vfma f => Sys2Proof.Machine.execVfma f s
  | .vfnma f => Sys2Proof.Machine.execVfnma f s
  | .vfdiv f => Sys2Proof.Machine.execVfdiv f s
  | .vfsqrt f => Sys2Proof.Machine.execVfsqrt f s
  | .vfrsq f => Sys2Proof.Machine.execVfrsq f s
  | .vfrcp f => Sys2Proof.Machine.execVfrcp f s
  | .vfmin f => Sys2Proof.Machine.execVfmin f s
  | .vfmax f => Sys2Proof.Machine.execVfmax f s
  | .vfabs f => Sys2Proof.Machine.execVfabs f s
  | .vfneg f => Sys2Proof.Machine.execVfneg f s
  | .vfcmp f => Sys2Proof.Machine.execVfcmp f s
  | .vfclass f => Sys2Proof.Machine.execVfclass f s
  | .vcvt f => Sys2Proof.Machine.execVcvt f s
  | .vperm f => Sys2Proof.Machine.execVperm f s
  | .vrot f => Sys2Proof.Machine.execVrot f s
  | .vbcast f => Sys2Proof.Machine.execVbcast f s
  | .vredadd f => Sys2Proof.Machine.execVredadd f s
  | .vredmax f => Sys2Proof.Machine.execVredmax f s
  | .vredmin f => Sys2Proof.Machine.execVredmin f s
  | .vscanadd f => Sys2Proof.Machine.execVscanadd f s
  | .vpack f => Sys2Proof.Machine.execVpack f s
  | .vunpk f => Sys2Proof.Machine.execVunpk f s
  | .vcmpr f => Sys2Proof.Machine.execVcmpr f s
  | .vexpd f => Sys2Proof.Machine.execVexpd f s
  | .vlanem f => Sys2Proof.Machine.execVlanem f s
  | .tcfg f => Sys2Proof.Machine.execTcfg f s
  | .thdr f => Sys2Proof.Machine.execThdr f s
  | .tzero f => Sys2Proof.Machine.execTzero f s
  | .tld f => Sys2Proof.Machine.execTld f s
  | .tst f => Sys2Proof.Machine.execTst f s
  | .trowg f => Sys2Proof.Machine.execTrowg f s
  | .trowp f => Sys2Proof.Machine.execTrowp f s
  | .tcolg f => Sys2Proof.Machine.execTcolg f s
  | .tcolp f => Sys2Proof.Machine.execTcolp f s
  | .tmma f => Sys2Proof.Machine.execTmma f s
  | .tadd f => Sys2Proof.Machine.execTadd f s
  | .tscl f => Sys2Proof.Machine.execTscl f s
  | .ttrn f => Sys2Proof.Machine.execTtrn f s
  | .tchk f => Sys2Proof.Machine.execTchk f s
  | .mjob f => Sys2Proof.Machine.execMjob f s
  | .mwait f => Sys2Proof.Machine.execMwait f s
  | .mpoll f => Sys2Proof.Machine.execMpoll f s
  | .mcancel f => Sys2Proof.Machine.execMcancel f s
  | .jedge f => Sys2Proof.Machine.execJedge f s
  | .jwait f => Sys2Proof.Machine.execJwait f s
  | .scan f => Sys2Proof.Machine.execScan f s
  | .scanw f => Sys2Proof.Machine.execScanw f s
  | .carrys f => Sys2Proof.Machine.execCarrys f s
  | .carryr f => Sys2Proof.Machine.execCarryr f s
  | .copy f => Sys2Proof.Machine.execCopy f s
  | .copy2d f => Sys2Proof.Machine.execCopy2d f s
  | .cwait f => Sys2Proof.Machine.execCwait f s
  | .cpoll f => Sys2Proof.Machine.execCpoll f s
  | .spec f => Sys2Proof.Machine.execSpec f s
  | .hrel f => Sys2Proof.Machine.execHrel f s
  | .hhold f => Sys2Proof.Machine.execHhold f s
  | .hcall f => Sys2Proof.Machine.execHcall f s
  | .hinfo f => Sys2Proof.Machine.execHinfo f s
  | .tfill f => Sys2Proof.Machine.execTfill f s
  | .unassignedOpcode w => Sys2Proof.Machine.execUnassignedOpcode w s
  | .create ctx => Sys2Proof.Machine.execCreate ctx s
  | .commit ctx => Sys2Proof.Machine.execCommit ctx s
  | .resume ctx => Sys2Proof.Machine.execResume ctx s
  | .destroy ctx => Sys2Proof.Machine.execDestroy ctx s
  | .setmode ctx => Sys2Proof.Machine.execSetmode ctx s
  | .setfault ctx => Sys2Proof.Machine.execSetfault ctx s
  | .answer ctx => Sys2Proof.Machine.execAnswer ctx s
  | .codecopy ctx => Sys2Proof.Machine.execCodecopy ctx s
  | .preempt ctx => Sys2Proof.Machine.execPreempt ctx s
  | .promote ctx => Sys2Proof.Machine.execPromote ctx s
  | .contextScrub ctx => Sys2Proof.Machine.execContextScrub ctx s
  | .queueEnable q => Sys2Proof.Machine.execQueueEnable q s
  | .queueDisable q => Sys2Proof.Machine.execQueueDisable q s
  | .qcmdSkip q => Sys2Proof.Machine.execQcmdSkip q s
  | .qcmdReset q => Sys2Proof.Machine.execQcmdReset q s
  | .doorbellWrite q wptr => Sys2Proof.Machine.execDoorbellWrite q wptr s
  | .launch q => Sys2Proof.Machine.execLaunch q s
  | .timedLaunch q => Sys2Proof.Machine.execTimedLaunch q s
  | .load q => Sys2Proof.Machine.execLoad q s
  | .unload q => Sys2Proof.Machine.execUnload q s
  | .signal q => Sys2Proof.Machine.execSignal q s
  | .waitPacket q => Sys2Proof.Machine.execWaitPacket q s
  | .copyPacket q => Sys2Proof.Machine.execCopyPacket q s
  | .queueWake q => Sys2Proof.Machine.execQueueWake q s
  | .waitTimeout q => Sys2Proof.Machine.execWaitTimeout q s
  | .timedLaunchStart l => Sys2Proof.Machine.execTimedLaunchStart l s
  | .kernelCodeFree ctx kid => Sys2Proof.Machine.execKernelCodeFree ctx kid s
  | .bind die slot l g ox oy => Sys2Proof.Machine.execBind die slot l g ox oy s
  | .unbind die slot => Sys2Proof.Machine.execUnbind die slot s
  | .retire die slot => Sys2Proof.Machine.execRetire die slot s
  | .castWrite c => Sys2Proof.Machine.execCastWrite c s
  | .quantumExpiry l => Sys2Proof.Machine.execQuantumExpiry l s
  | .launchQuiescence l => Sys2Proof.Machine.execLaunchQuiescence l s
  | .messageArrival n => Sys2Proof.Machine.execMessageArrival n s
  | .streamMessageArrival n => Sys2Proof.Machine.execStreamMessageArrival n s
  | .joinDecrementArrival n => Sys2Proof.Machine.execJoinDecrementArrival n s
  | .remoteOperationArrival n => Sys2Proof.Machine.execRemoteOperationArrival n s
  | .mcstArrival n => Sys2Proof.Machine.execMcstArrival n s
  | .carryArrival n => Sys2Proof.Machine.execCarryArrival n s
  | .wakeArrival n => Sys2Proof.Machine.execWakeArrival n s
  | .lateReplyRedirect c => Sys2Proof.Machine.execLateReplyRedirect c s
  | .laybyReturn c => Sys2Proof.Machine.execLaybyReturn c s
  | .schedulerPick c => Sys2Proof.Machine.execSchedulerPick c s
  | .preemptionAbort c => Sys2Proof.Machine.execPreemptionAbort c s
  | .waymarkExpiry c => Sys2Proof.Machine.execWaymarkExpiry c s
  | .migrateDepart c => Sys2Proof.Machine.execMigrateDepart c s
  | .boundaryRelease c => Sys2Proof.Machine.execBoundaryRelease c s
  | .worldStopped ctx => Sys2Proof.Machine.execWorldStopped ctx s
  | .eventSetAtHome n => Sys2Proof.Machine.execEventSetAtHome n s
  | .eventClearAtHome n => Sys2Proof.Machine.execEventClearAtHome n s
  | .eventWake c => Sys2Proof.Machine.execEventWake c s
  | .jobWaitEnd c => Sys2Proof.Machine.execJobWaitEnd c s
  | .copyWaitEnd c => Sys2Proof.Machine.execCopyWaitEnd c s
  | .carryTake c => Sys2Proof.Machine.execCarryTake c s
  | .timedRelease c => Sys2Proof.Machine.execTimedRelease c s
  | .scanComplete c => Sys2Proof.Machine.execScanComplete c s
  | .remoteReply c => Sys2Proof.Machine.execRemoteReply c s
  | .portWaitEnd c => Sys2Proof.Machine.execPortWaitEnd c s
  | .handleWaitEnd c => Sys2Proof.Machine.execHandleWaitEnd c s
  | .faultActorFire ctx c => Sys2Proof.Machine.execFaultActorFire ctx c s
  | .tlbMissService c => Sys2Proof.Machine.execTlbMissService c s
  | .pageService c => Sys2Proof.Machine.execPageService c s
  | .promotion ctx va => Sys2Proof.Machine.execPromotion ctx va s
  | .promotionAbandon ctx va => Sys2Proof.Machine.execPromotionAbandon ctx va s
  | .pageMigration ctx va stack => Sys2Proof.Machine.execPageMigration ctx va stack s
  | .meJobStart u => Sys2Proof.Machine.execMeJobStart u s
  | .meJobEnd u => Sys2Proof.Machine.execMeJobEnd u s
  | .jedgeStart u => Sys2Proof.Machine.execJedgeStart u s
  | .edgeTileBoundary u => Sys2Proof.Machine.execEdgeTileBoundary u s
  | .jedgeEnd u => Sys2Proof.Machine.execJedgeEnd u s
  | .copyCommandStart e => Sys2Proof.Machine.execCopyCommandStart e s
  | .copyCommandEnd e => Sys2Proof.Machine.execCopyCommandEnd e s
  | .ringRcountPoll ctx r => Sys2Proof.Machine.execRingRcountPoll ctx r s
  | .linkEnable n => Sys2Proof.Machine.execLinkEnable n s
  | .linkTrainingDone n lanes peer plink => Sys2Proof.Machine.execLinkTrainingDone n lanes peer plink s
  | .laneFailure n lane => Sys2Proof.Machine.execLaneFailure n lane s
  | .linkRetrain n => Sys2Proof.Machine.execLinkRetrain n s
  | .linkAckTimeout n => Sys2Proof.Machine.execLinkAckTimeout n s
  | .linkDisable n => Sys2Proof.Machine.execLinkDisable n s
  | .flitReceive n flit => Sys2Proof.Machine.execFlitReceive n flit s
  | .flitReplay n seq => Sys2Proof.Machine.execFlitReplay n seq s
  | .routeChange pkg entry => Sys2Proof.Machine.execRouteChange pkg entry s
  | .peerLoss pkg => Sys2Proof.Machine.execPeerLoss pkg s
  | .dieLoss die => Sys2Proof.Machine.execDieLoss die s
  | .timeFlitExchange n count rtt peerRoot hops => Sys2Proof.Machine.execTimeFlitExchange n count rtt peerRoot hops s
  | .rootselWrite w => Sys2Proof.Machine.execRootselWrite w s
  | .featoffWrite w => Sys2Proof.Machine.execFeatoffWrite w s
  | .gaugeSourceSet ctx u src => Sys2Proof.Machine.execGaugeSourceSet ctx u src s
  | .gaugeClear ctx u => Sys2Proof.Machine.execGaugeClear ctx u s
  | .registerWrite off w => Sys2Proof.Machine.execRegisterWrite off w s
  | .correctableError die kind pa => Sys2Proof.Machine.execCorrectableError die kind pa s
  | .uncorrectableError die site => Sys2Proof.Machine.execUncorrectableError die site s
  | .powerOn => Sys2Proof.Machine.execPowerOn s
  | .bootInitDone bad => Sys2Proof.Machine.execBootInitDone bad s
  | .provErase => Sys2Proof.Machine.execProvErase s
  | .provWrite => Sys2Proof.Machine.execProvWrite s
  | .provVerify => Sys2Proof.Machine.execProvVerify s
  | .provReset => Sys2Proof.Machine.execProvReset s
  | .getVersion req => Sys2Proof.Machine.execGetVersion req s
  | .getCapabilities req => Sys2Proof.Machine.execGetCapabilities req s
  | .negotiateAlgorithms req => Sys2Proof.Machine.execNegotiateAlgorithms req s
  | .getDigests req => Sys2Proof.Machine.execGetDigests req s
  | .getCertificate req => Sys2Proof.Machine.execGetCertificate req s
  | .challenge req => Sys2Proof.Machine.execChallenge req s
  | .getMeasurements req => Sys2Proof.Machine.execGetMeasurements req s
  | .thermalThrottle dies => Sys2Proof.Machine.execThermalThrottle dies s
  | .thermalRecover dies => Sys2Proof.Machine.execThermalRecover dies s
  | .thermalShutdown => Sys2Proof.Machine.execThermalShutdown s
  | .cxlMemWrite pa bytes => Sys2Proof.Machine.execCxlMemWrite pa bytes s

end Sys2Proof.Machine
end

