-- ==== Sys2Proof/Machine/Step.lean ====
section
/-! DEFINITION. One step of the package. The schedule is the environment's and stands in the state (`agenda`, log entry 1): the turn
of a core, an event, or time that passes. With no turn listed it is the turn of core `cur`. -/

namespace Sys2Proof.Machine

/-- The turn of core `k`: a core that runs a firing fetches and executes its next instruction; any other core does nothing. -/
def coreTurn (s : State) (k : Nat) : Host.Outcome State Fault Refusal :=
  let s1 : State := { s with cur := k }
  if (s1.core k).run = .running then
    match s1.fetchInstr k with
    | .ok (i, s2) => exec i s2
    | .error s2 => .next s2
  else .next s1

/-- One step. -/
def step (s : State) : Host.Outcome State Fault Refusal :=
  match s.agenda with
  | [] => coreTurn s s.cur
  | t :: rest =>
    let s1 : State := { s with agenda := rest }
    match t with
    | .core k => coreTurn s1 k
    | .event i => if (encode i).isSome then .next s1 else exec i s1
    | .time ticks cycles => .next (s1.passTime ticks cycles)

/-- The state whose next step executes the instruction of `nbits` bits that reads `w`, as the first of a firing of core 0. -/
def State.withFetchWord (s : State) (nbits w : Nat) : State :=
  { s.placeWord 0 (w % 2 ^ nbits % 2 ^ 64) with cur := 0, agenda := [] }

end Sys2Proof.Machine
end

