-- ==== Sys2Proof/Safety.lean ====
section
/-! DEFINITION. The terms in which claims about runs are stated: when a step goes on, when a word may take its effect, what a word that
has taken its effect leaves, what an instruction may change, and the invariant of the package. -/

namespace Sys2Proof.Machine

/-- The step of a state answers a next state. -/
def Goes (s : State) : Prop := ∃ t, step s = .next t

/-- The canonical form of physical memory and of its tags (17 R305): addresses rising, nothing listed that an unlisted address
reads as. -/
def State.memOk (s : State) : Prop := Memory.wf s.mem = true ∧ Table.wf false s.tags = true

/-- A word of core `k` may take its effect: LQ and SQ stand as R63-R64 ask, the words it falls through to lie within PCC (16 R293), and
its live mask `m`, if it has one, has been fetched, which leaves `s1` (15 R243). `empty` says that it is a boundary. -/
def State.Clear (s : State) (k : Nat) (sp falls empty : Bool) (srcs dsts : List Opnd) (m : Word) (s1 : State) : Prop :=
  (s.core k).queuesBad (sp || empty) srcs dsts = false ∧ (s.core k).placement sp falls = none ∧ s.maskOf k sp none = .ok (m, s1)

/-- What a word of core `k` leaves once its effect is made: control at `dest`, through the safe point of a word with SP (15 R243). -/
def State.finished (t : State) (k : Nat) (sp : Bool) (m dest : Word) : State :=
  if sp then t.safePoint k m dest false else t.advance k dest

/-- The step of core `cur` in state s: what a word that falls through, with its effect made in `t`, leaves. -/
def State.after (s t : State) (sp : Bool) (m : Word) : State := t.finished s.cur sp m ((s.core s.cur).fallThrough sp)

/-- Every byte of memory reads as before, with its tag. -/
def State.sameMemory (s t : State) : Prop := (∀ a, t.byte a = s.byte a) ∧ (∀ g, t.tagAt g = s.tagAt g)

/-- Nothing but core `k` has changed. -/
def State.onlyCore (s t : State) (k : Nat) : Prop := (∀ j, j ≠ k → t.core j = s.core j) ∧ t = { s with cores := t.cores }

/-- The firing of core `cur` meets a fault: the outcome of a word that raises it (22 R419). -/
def State.faults (s : State) (code : FCode) (addr : Word) (acc : Access) : State :=
  s.takeFault s.cur code addr (s.core s.cur).unitAt acc

/-- Operands whose reading changes nothing: registers, literals, k registers and the specials (16 R272). -/
def quiet : Opnd → Bool
  | .port _ => false
  | .ring .. => false
  | _ => true

end Sys2Proof.Machine
end

