-- ==== Sys2Proof/Certificates/Slice0/Obligations.lean ====
section
/-! DEFINITION. The statements about the model. Each is a claim that a rule of the spec makes of the machine, in the terms of
Safety.lean; the helper definitions under Sys2Proof.Claims are tables and conditions that several clauses share. -/

open Sys2Proof Sys2Proof.Machine

/-! ### Integer arithmetic (16 R271-R284) -/

/-- The two-source forms of 16 R277 and EXT (R281), each with its result as the table there gives it. -/
def Sys2Proof.Claims.twoSource : List ((FR → Instr) × (Word → Word → Word)) :=
  [(.add, fun a b => BitVec.ofNat 64 (a.toNat + b.toNat)),
   (.sub, fun a b => BitVec.ofInt 64 ((a.toNat : Int) - b.toNat)),
   (.mul, fun a b => BitVec.ofNat 64 (a.toNat * b.toNat)),
   (.mulh, fun a b => BitVec.ofInt 64 (a.toInt * b.toInt / 2 ^ 64)),
   (.mulhu, fun a b => BitVec.ofNat 64 (a.toNat * b.toNat / 2 ^ 64)),
   (.and, fun a b => a &&& b),
   (.or, fun a b => a ||| b),
   (.xor, fun a b => a ^^^ b),
   (.andn, fun a b => a &&& ~~~b),
   (.orn, fun a b => a ||| ~~~b),
   (.shl, fun a b => BitVec.ofNat 64 (a.toNat * 2 ^ (b.toNat % 64))),
   (.shr, fun a b => BitVec.ofNat 64 (a.toNat / 2 ^ (b.toNat % 64))),
   (.shra, fun a b => BitVec.ofInt 64 (a.toInt / 2 ^ (b.toNat % 64))),
   (.rol, fun a b => BitVec.ofNat 64 (a.toNat * 2 ^ (b.toNat % 64)) ||| BitVec.ofNat 64 (a.toNat / 2 ^ (64 - b.toNat % 64))),
   (.ror, fun a b => BitVec.ofNat 64 (a.toNat / 2 ^ (b.toNat % 64)) ||| BitVec.ofNat 64 (a.toNat * 2 ^ (64 - b.toNat % 64))),
   (.min, fun a b => if a.toInt < b.toInt then a else b),
   (.max, fun a b => if b.toInt < a.toInt then a else b),
   (.minu, fun a b => if a.toNat < b.toNat then a else b),
   (.maxu, fun a b => if b.toNat < a.toNat then a else b),
   (.cmpeq, fun a b => if a = b then 1 else 0),
   (.cmpne, fun a b => if a = b then 0 else 1),
   (.cmplt, fun a b => if a.toInt < b.toInt then 1 else 0),
   (.cmpltu, fun a b => if a.toNat < b.toNat then 1 else 0),
   (.ext, fun a f =>
     let p := f.toNat % 64
     let len := min (f.toNat / 64 % 128) (64 - p)
     let u := a.toNat / 2 ^ p % 2 ^ len
     BitVec.ofNat 64 (if f.getLsbD 13 ∧ 0 < len ∧ 2 ^ (len - 1) ≤ u then u + 2 ^ 64 - 2 ^ len else u))]

/-- Two-source integer forms: where the word may take its effect, its sources can be read in field order and its destination can take the
result of 16 R277 (or of R281 for EXT), the word completes with exactly that result put. -/
def Sys2Proof.Claims.TwoSourceIntegerResult : Prop :=
  ∀ p ∈ Sys2Proof.Claims.twoSource, ∀ (f : FR) (s s1 s2 s3 s4 : State) (m a b : Word),
    s.Clear s.cur f.sp true false [f.a, f.b] [f.d] m s1 →
    s1.src s.cur f.a = .ok (a, s2) → s2.src s.cur (s1.issued s.cur f.b) = .ok (b, s3) → s3.put s.cur f.d (p.2 a b) = .ok s4 →
    exec (p.1 f) s = .next (s.after s4 f.sp m)

/-- Division: the quotient truncated and the remainder with the dividend's sign, −2^63 by −1 without a fault; a zero divisor raises DIVZERO
with data address 0 and none of the effects (16 R278, R273). -/
def Sys2Proof.Claims.DivisionResultAndDivzero : Prop :=
  ∀ p ∈ ([(.div, fun a b => BitVec.ofInt 64 (if a.toInt = -2 ^ 63 ∧ b.toInt = -1 then -2 ^ 63 else a.toInt.tdiv b.toInt)),
          (.rem, fun a b => BitVec.ofInt 64 (if a.toInt = -2 ^ 63 ∧ b.toInt = -1 then 0
            else a.toInt - a.toInt.tdiv b.toInt * b.toInt)),
          (.divu, fun a b => BitVec.ofNat 64 (a.toNat / b.toNat)),
          (.remu, fun a b => BitVec.ofNat 64 (a.toNat - a.toNat / b.toNat * b.toNat))] :
        List ((FR → Instr) × (Word → Word → Word))),
    ∀ (f : FR) (s s1 s2 s3 : State) (m a b : Word),
      s.Clear s.cur f.sp true false [f.a, f.b] [f.d] m s1 →
      s1.src s.cur f.a = .ok (a, s2) → s2.src s.cur (s1.issued s.cur f.b) = .ok (b, s3) →
      (b = 0 → exec (p.1 f) s = .next (s.faults .divzero 0 .read)) ∧
      (∀ s4, b ≠ 0 → s3.put s.cur f.d (p.2 a b) = .ok s4 → exec (p.1 f) s = .next (s.after s4 f.sp m))

/-- Single-source forms and SEL and INS: CLZ, CTZ, POPC, BREV, BSWAP and MOV put a result that the table of 16 R280 fixes bit by bit; SEL
reads all three sources and puts one of two (R279); INS replaces a field of the old value of D, which it reads last (R281). -/
def Sys2Proof.Claims.OneSourceSelectInsert : Prop :=
  (∀ (f : FR) (s s1 s2 : State) (m a : Word),
    s.Clear s.cur f.sp true false [f.a] [f.d] m s1 → s1.src s.cur f.a = .ok (a, s2) →
    (∀ n s3, n ≤ 64 → (∀ i, 64 - n ≤ i → i < 64 → a.getLsbD i = false) → (n < 64 → a.getLsbD (63 - n) = true) →
      s2.put s.cur f.d (BitVec.ofNat 64 n) = .ok s3 → exec (.clz f) s = .next (s.after s3 f.sp m)) ∧
    (∀ n s3, n ≤ 64 → (∀ i, i < n → a.getLsbD i = false) → (n < 64 → a.getLsbD n = true) →
      s2.put s.cur f.d (BitVec.ofNat 64 n) = .ok s3 → exec (.ctz f) s = .next (s.after s3 f.sp m)) ∧
    (∀ s3, s2.put s.cur f.d (BitVec.ofNat 64 ((List.range 64).countP (fun i => a.getLsbD i))) = .ok s3 →
      exec (.popc f) s = .next (s.after s3 f.sp m)) ∧
    (∀ r s3, (∀ i, i < 64 → r.getLsbD i = a.getLsbD (63 - i)) → s2.put s.cur f.d r = .ok s3 →
      exec (.brev f) s = .next (s.after s3 f.sp m)) ∧
    (∀ r s3, (∀ i j, i < 8 → j < 8 → r.getLsbD (8 * i + j) = a.getLsbD (8 * (7 - i) + j)) → s2.put s.cur f.d r = .ok s3 →
      exec (.bswap f) s = .next (s.after s3 f.sp m)) ∧
    (∀ s3, s2.put s.cur f.d a = .ok s3 → exec (.mov f) s = .next (s.after s3 f.sp m))) ∧
  (∀ (f : FRC) (s s1 s2 s3 s4 s5 : State) (m a b c : Word),
    s.Clear s.cur f.sp true false [f.a, f.b, f.c] [f.d] m s1 → s1.src s.cur f.a = .ok (a, s2) → s2.src s.cur (s1.issued s.cur f.b) = .ok (b, s3) →
    s3.src s.cur (s1.issued s.cur f.c) = .ok (c, s4) → s4.put s.cur f.d (if c = 0 then b else a) = .ok s5 →
    exec (.sel f) s = .next (s.after s5 f.sp m)) ∧
  (∀ (f : FR) (s s1 s2 s3 s4 s5 : State) (m a b old : Word),
    s.Clear s.cur f.sp true false [f.a, f.b] [f.d] m s1 → s1.src s.cur f.a = .ok (a, s2) → s2.src s.cur (s1.issued s.cur f.b) = .ok (b, s3) →
    s3.src s.cur f.d = .ok (old, s4) →
    (let p := b.toNat % 64
     let len := min (b.toNat / 64 % 128) (64 - p)
     let mask := BitVec.ofNat 64 ((2 ^ len - 1) * 2 ^ p)
     s4.put s.cur f.d ((old &&& ~~~mask) ||| (BitVec.ofNat 64 (a.toNat * 2 ^ p) &&& mask)) = .ok s5) →
    exec (.ins f) s = .next (s.after s5 f.sp m))

/-- Immediate forms (16 R283): the immediate is IMM20 or the 52 bits that a pending XIMM forms, sign-extended (15 R256); a shift by an
immediate outside 0-63 is ILLEGAL. -/
def Sys2Proof.Claims.ImmediateIntegerResult : Prop :=
  ∀ (f : FI) (s s1 s2 : State) (m a : Word), s.Clear s.cur f.sp true false [f.a] [f.d] m s1 → s1.src s.cur f.a = .ok (a, s2) →
    let imm : Int := match ((s1.core s.cur).pfx.bind Pfx.ximm) with
      | some x => (x ++ f.imm : BitVec 52).toInt
      | none => f.imm.toInt
    let i : Word := BitVec.ofInt 64 imm
    (∀ p ∈ ([(.addi, BitVec.ofNat 64 (a.toNat + i.toNat)), (.andi, a &&& i), (.ori, a ||| i), (.xori, a ^^^ i),
        (.cmplti, if a.toInt < imm then 1 else 0), (.movi, i), (.movhi, BitVec.ofInt 64 (imm % 2 ^ 32 * 2 ^ 32))] :
        List ((FI → Instr) × Word)),
      ∀ s3, s2.put s.cur f.d p.2 = .ok s3 → exec (p.1 f) s = .next (s.after s3 f.sp m)) ∧
    (∀ p ∈ ([(.shli, BitVec.ofNat 64 (a.toNat * 2 ^ i.toNat)), (.shri, BitVec.ofNat 64 (a.toNat / 2 ^ i.toNat)),
        (.shrai, BitVec.ofInt 64 (a.toInt / 2 ^ i.toNat))] : List ((FI → Instr) × Word)),
      (0 ≤ imm → imm < 64 → ∀ s3, s2.put s.cur f.d p.2 = .ok s3 → exec (p.1 f) s = .next (s.after s3 f.sp m)) ∧
      ((imm < 0 ∨ 64 ≤ imm) → exec (p.1 f) s = .next (s.faults .illegal 0 .read)))

/-- Reading a source (16 R271, 03 R42, R53, R56-R57): registers, literals, k registers and specials give their value and change nothing;
LQ and SQ give bits 63:0 of their oldest entry and lose it. A k register named by a word that reads several sources is sampled as the word
issues. -/
def Sys2Proof.Claims.SourceValues : Prop :=
  ∀ (s : State) (k : Nat),
    (∀ i : Fin 128, s.src k (.x i) = .ok (((s.core k).vs.getX i.val).val.setWidth 64, s)) ∧
    (∀ i : Fin 16, s.src k (.y i) = .ok (Table.get 0 (s.core k).vs.y i.val, s)) ∧
    (s.src k (.l 0) = .ok ((s.core k).vs.l0, s) ∧ s.src k (.l 1) = .ok ((s.core k).vs.l1, s) ∧
      s.src k (.l 2) = .ok ((s.core k).vs.l2, s) ∧ s.src k (.l 3) = .ok ((s.core k).vs.l3, s)) ∧
    (∀ i : BitVec 9, s.src k (.imm i) = .ok (BitVec.ofInt 64 i.toInt, s)) ∧
    (∀ i : Fin 16, s.src k (.k i) = .ok ((if s.kreg k i.val then 1 else 0), s) ∧
      s.issued k (.k i) = .imm (if s.kreg k i.val then 1 else 0)) ∧
    (∀ o : Opnd, (∀ i, o ≠ .k i) → s.issued k o = o) ∧
    s.src k .gtb = .ok (s.time, s) ∧
    s.src k .core = .ok (BitVec.ofNat 64 ((s.pkg.toNat * 8192 + k) % 2 ^ 31), s) ∧
    (∀ v t, (s.core k).lq = v :: t →
      s.src k (.port 5) = .ok (v.setWidth 64, s.modCore k (fun c => { c with lq := t }))) ∧
    (s.core k).vs.getX 0 = ⟨0, false⟩

/-- A virtual core whose l file has been shifted by one (03 R50). -/
def Sys2Proof.Claims.shifted (r : VState) (v : Word) : VState := { r with l0 := v, l1 := r.l0, l2 := r.l1, l3 := r.l2 }

/-- Put (16 R272): class 2 writes l0 alone; x loses its tag and x0 discards; every other destination also shifts the l file by one; SQ takes
a vector, and while it is full the write waits. Nothing else of the machine changes, and no byte of memory. -/
def Sys2Proof.Claims.PutWritesDestinationAndFileShift : Prop :=
  ∀ (s t : State) (k : Nat) (v : Word),
    (∀ i : Fin 128, s.put k (.x i) v = .ok t → s.onlyCore t k ∧ s.sameMemory t ∧
      ∃ vs : VState, t.core k = { s.core k with vs } ∧ vs = { Sys2Proof.Claims.shifted (s.core k).vs v with x := vs.x } ∧
        (Table.wf XReg.zero (s.core k).vs.x = true →
          ∀ j, vs.getX j = if j = i.val ∧ j ≠ 0 then ⟨v.setWidth 128, false⟩ else (s.core k).vs.getX j)) ∧
    (∀ i : Fin 16, s.put k (.y i) v = .ok t → s.onlyCore t k ∧ s.sameMemory t ∧
      ∃ vs : VState, t.core k = { s.core k with vs } ∧ vs = { Sys2Proof.Claims.shifted (s.core k).vs v with y := vs.y } ∧
        (Table.wf 0 (s.core k).vs.y = true → ∀ j, vs.getY j = if j = i.val then v else (s.core k).vs.getY j)) ∧
    (∀ i : Fin 4, s.put k (.l i) v = .ok t → s.onlyCore t k ∧ s.sameMemory t ∧
      t.core k = { s.core k with vs := { (s.core k).vs with l0 := v } }) ∧
    (s.put k .sink v = .ok t → s.onlyCore t k ∧ s.sameMemory t ∧
      t.core k = { s.core k with vs := Sys2Proof.Claims.shifted (s.core k).vs v }) ∧
    (s.put k (.port 6) v = .ok t → s.onlyCore t k ∧ s.sameMemory t ∧
      t.core k = { s.core k with sq := (s.core k).sq ++ [v.setWidth 1024], vs := Sys2Proof.Claims.shifted (s.core k).vs v }) ∧
    (16 ≤ (s.core k).sq.length → s.put k (.port 6) v = .error (.wait .port s))

/-- The frame of a word without SP (16 R293, 15 R260): past its effect `t` it changes nothing but the program counter, the pending prefix and
what the core had fetched; control goes to the next word, 8 bytes on. -/
def Obligations.PlainWordFrame : Prop :=
  ∀ (s t : State) (m : Word),
    t.onlyCore (s.after t false m) s.cur ∧ t.sameMemory (s.after t false m) ∧
    (s.after t false m).core s.cur = { t.core s.cur with pc := (s.core s.cur).pc + 8, pfx := none, again := none, latch := [] }


/-! ### Capabilities (03 R45-R48, 16 R285-R292) -/

/-- A 20-bit field, or the 52 bits that a pending XIMM makes of it, as a signed number (15 R256). -/
def Sys2Proof.Claims.wide (s : State) (imm : BitVec 20) : Int := match ((s.core s.cur).pfx.bind Pfx.ximm) with
  | some x => (x ++ imm : BitVec 52).toInt
  | none => imm.toInt

/-- The getters (16 R286, 03 R46): each reads Cap(A), tagged or not, and puts one doubleword; none faults. Base and top are decoded from
the capability's own fields; a malformed capability has base 1 and top 0. -/
def Sys2Proof.Claims.CapabilityGetters : Prop :=
  ∀ (f : FR) (s s1 s2 : State) (m : Word), s.Clear s.cur f.sp true false [] [f.d] m s1 →
    let c := s.cap s.cur f.a
    let e : Nat := c.val.toNat / 2 ^ 64 % 64
    let bl : Nat := c.val.toNat / 2 ^ 70 % 2 ^ 21
    let ab : Nat := c.val.toNat / 2 ^ 91 % 2 ^ 21
    let anchor : Nat := c.val.toNat % 2 ^ 64 / 2 ^ e * 2 ^ e
    let base : Int := (anchor : Int) - bl * 2 ^ e
    let top : Int := (anchor : Int) + ab * 2 ^ e
    let bounds : Int × Int := if e = 63 ∧ bl = 0 ∧ ab = 0 then (0, 2 ^ 64)
      else if 42 < e ∨ base < 0 ∨ 2 ^ 64 < top then (1, 0) else (base, top)
    ∀ p ∈ ([(.cgeta, BitVec.ofNat 64 c.val.toNat), (.cgetb, BitVec.ofInt 64 bounds.1),
        (.cgetl, if bounds.2 - bounds.1 = 2 ^ 64 then BitVec.ofNat 64 (2 ^ 64 - 1) else BitVec.ofInt 64 (max 0 (bounds.2 - bounds.1))),
        (.cgetp, BitVec.ofNat 64 (c.val.toNat / 2 ^ 112)), (.ctag, if c.tag then 1 else 0),
        (.csub, BitVec.ofInt 64 ((c.val.toNat : Int) - (s.cap s.cur f.b).val.toNat))] : List ((FR → Instr) × Word)),
      s1.put s.cur f.d p.2 = .ok s2 → exec (p.1 f) s = .next (s.after s2 f.sp m)

/-- Writing a register as a capability (16 R285, 03 R42): the x register takes value and tag, x0 discards, no l register changes, nothing
else of the machine changes. -/
def Sys2Proof.Claims.CapabilityRegisterWrite : Prop :=
  ∀ (s : State) (k : Nat) (i : Fin 128) (c : XReg),
    let t := s.setCap k (.x i) c
    s.onlyCore t k ∧ s.sameMemory t ∧
    ∃ x, t.core k = { s.core k with vs := { (s.core k).vs with x } } ∧
      (Table.wf XReg.zero (s.core k).vs.x = true →
        ∀ j, (t.core k).vs.getX j = if j = i.val ∧ j ≠ 0 then c else (s.core k).vs.getX j)

/-- A capability moved to another address (03 R47): a full-range one keeps tag and fields; another keeps its tag exactly while the granule of
the new address lies from base to top with both distances below 2^21 granules, and then its bounds, permissions and type; else plain data. -/
def Sys2Proof.Claims.moved (c r : XReg) (na : Word) : Prop :=
  let g := 2 ^ c.exp
  let an := na.toNat / g * g
  r.addr = na ∧
  (r.tag = true ↔ c.tag = true ∧ (c.full = true ∨
    (c.base ≤ an ∧ an ≤ c.top ∧ an - c.base < 2 ^ 21 * g ∧ c.top - an < 2 ^ 21 * g))) ∧
  (r.tag = true → r.base = c.base ∧ r.top = c.top ∧ r.exp = c.exp ∧ r.perms = c.perms ∧ r.sealed = c.sealed ∧ r.otype = c.otype) ∧
  (r.tag = false → r.hi = 0)

/-- CSETA, CINC and CCLR (16 R287): a sealed tagged capability raises CAP_PERM with its ADDR; else the address changes as R47 says, CCLR's
result losing the tag. The result goes to an x register alone. -/
def Sys2Proof.Claims.CapabilityAddressChange : Prop :=
  (∀ (f : FR) (s s1 s2 : State) (m b : Word), s.Clear s.cur f.sp true false [f.b] [] m s1 → s1.src s.cur f.b = .ok (b, s2) →
    let c := s.cap s.cur f.a
    (c.tag = true ∧ c.sealed = true → exec (.cseta f) s = .next (s.faults .capPerm c.addr .read)) ∧
    (¬(c.tag = true ∧ c.sealed = true) → ∃ r, exec (.cseta f) s = .next (s.after (s2.setCap s.cur f.d r) f.sp m) ∧
      Sys2Proof.Claims.moved c r b)) ∧
  (∀ (f : FI) (s s1 : State) (m : Word), s.Clear s.cur f.sp true false [] [] m s1 →
    let c := s.cap s.cur f.a
    (c.tag = true ∧ c.sealed = true → exec (.cinc f) s = .next (s.faults .capPerm c.addr .read)) ∧
    (¬(c.tag = true ∧ c.sealed = true) → ∃ r, exec (.cinc f) s = .next (s.after (s1.setCap s.cur f.d r) f.sp m) ∧
      Sys2Proof.Claims.moved c r (BitVec.ofInt 64 (c.addr.toNat + Sys2Proof.Claims.wide s f.imm)))) ∧
  (∀ (f : FR) (s s1 : State) (m : Word), s.Clear s.cur f.sp true false [] [] m s1 →
    let c := s.cap s.cur f.a
    (c.tag = true ∧ c.sealed = true → exec (.cclr f) s = .next (s.faults .capPerm c.addr .read)) ∧
    (¬(c.tag = true ∧ c.sealed = true) →
      exec (.cclr f) s = .next (s.after (s1.setCap s.cur f.d ⟨c.addr.setWidth 128, false⟩) f.sp m)))

/-- CSETB, CANDP and CLSCAP (16 R288-R290, R292): faults tag before permissions before bounds, each with its data address; the result is
tagged and unsealed, its bounds those asked for, rounded outward by the least exponent, and never wider than the source's; its permissions
never more. CLSCAP from x0 reaches the core's own local store. -/
def Sys2Proof.Claims.CapabilityNarrowing : Prop :=
  ∀ (f : FR) (s s1 s2 : State) (m b : Word), s.Clear s.cur f.sp true false [f.b] [] m s1 → s1.src s.cur f.b = .ok (b, s2) →
    let c := s.cap s.cur f.a
    let result (i : Instr) (p : XReg → Prop) : Prop :=
      ∃ r, exec i s = .next (s.after (s2.setCap s.cur f.d r) f.sp m) ∧ r.tag = true ∧ r.sealed = false ∧ p r
    let rounded (lo len e : Nat) : Prop := (∀ n, n < e → 2 ^ 21 ≤ (lo + len + 2 ^ n - 1) / 2 ^ n - lo / 2 ^ n) ∧
      (lo + len + 2 ^ e - 1) / 2 ^ e - lo / 2 ^ e < 2 ^ 21
    (∀ i ∈ [Instr.csetb f, .candp f],
      (c.tag = false → exec i s = .next (s.faults .capTag c.addr .read)) ∧
      (c.tag = true → c.sealed = true → exec i s = .next (s.faults .capPerm c.addr .read))) ∧
    (c.tag = true → c.sealed = false → ∀ e, rounded c.addr.toNat b.toNat e →
      let lo := c.addr.toNat / 2 ^ e * 2 ^ e
      let hi := (c.addr.toNat + b.toNat + 2 ^ e - 1) / 2 ^ e * 2 ^ e
      if 42 < e ∨ lo < c.base ∨ c.top < hi then exec (.csetb f) s = .next (s.faults .capBounds c.addr .read)
      else result (.csetb f) (fun r => r.addr = c.addr ∧ r.base = lo ∧ r.top = hi ∧ r.perms = c.perms ∧ r.otype = c.otype)) ∧
    (c.tag = true → c.sealed = false → result (.candp f) (fun r =>
      r.addr = c.addr ∧ r.base = c.base ∧ r.top = c.top ∧ r.perms = c.perms &&& (b.toNat % 128) ∧ r.otype = c.otype)) ∧
    (let off := b.toNat % 2 ^ 20
     let len := b.toNat / 2 ^ 20 % 2 ^ 21
     let own := f.a = .x 0
     (¬own → c.tag = false → exec (.clscap f) s = .next (s.faults .capTag c.addr .read)) ∧
     (¬own → c.tag = true → c.sealed = true ∨ c.perms.testBit 4 = false →
       exec (.clscap f) s = .next (s.faults .capPerm c.addr .read)) ∧
     ((own ∨ (c.tag = true ∧ c.sealed = false ∧ c.perms.testBit 4 = true)) →
       if 2 ^ 20 < off + len ∨ (¬own ∧ (off < c.base ∨ c.top < off + len)) then
         exec (.clscap f) s = .next (s.faults .capBounds (BitVec.ofNat 64 off) .read)
       else result (.clscap f) (fun r => r.addr = BitVec.ofNat 64 off ∧ r.base = off ∧ r.top = off + len ∧
         r.perms = if own then 0b10011 else c.perms)))

/-- CSEAL and CUNSEAL (16 R291): the checks kind by kind, A before the key; CSEAL writes Cap(A) sealed under the key's type, CUNSEAL writes
it unsealed with type 0, address, bounds and permissions kept. -/
def Sys2Proof.Claims.CapabilitySealing : Prop :=
  ∀ (opens : Bool) (f : FR) (s s1 : State) (m : Word), s.Clear s.cur f.sp true false [] [] m s1 →
    let i := if opens then Instr.cunseal f else Instr.cseal f
    let a := s.cap s.cur f.a
    let b := s.cap s.cur f.b
    let h := HRef.of b.addr
    let t := ((s.ctx (s.ctxOf s.cur)).handle (b.addr.toNat % 4096)).ktype
    let bad := fun (code : FCode) (w : Word) => exec i s = .next (s.faults code w .read)
    if a.tag = false then bad .capTag a.addr
    else if b.tag = false then bad .capTag b.addr
    else if a.sealed ≠ opens then bad .capPerm a.addr
    else if b.sealed = true ∨ b.perms ≠ 0b1000000 ∨ t = 0 then bad .capPerm b.addr
    else if opens = true ∧ a.otype ≠ t.toNat then bad .capPerm a.addr
    else if s.handlePasses s.cur h = false then bad .handleStale b.addr
    else ∃ r, exec i s = .next (s.after (s1.setCap s.cur f.d r) f.sp m) ∧ r.tag = true ∧ r.addr = a.addr ∧ r.base = a.base ∧
      r.top = a.top ∧ r.perms = a.perms ∧ r.sealed = !opens ∧ r.otype = if opens then 0 else t.toNat

/-! ### Branches and jumps (16 R293-R298) -/

/-- Where a branch of the current core ends: at `dest`, if a word there lies within PCC, else in CAP_BOUNDS (16 R293). -/
def Sys2Proof.Claims.goesTo (s t : State) (sp : Bool) (m dest : Word) : Out :=
  if (s.core s.cur).pcc.base ≤ dest.toNat ∧ dest.toNat + 8 ≤ (s.core s.cur).pcc.top then .next (t.finished s.cur sp m dest)
  else .next (s.faults .capBounds dest .fetch)

/-- The branches (16 R293-R295): a taken branch goes to its own address plus eight times the displacement, another past its word and live
mask; a place outside PCC raises CAP_BOUNDS there. No register changes. -/
def Sys2Proof.Claims.BranchTargets : Prop :=
  ∀ (f : FC) (s s1 : State) (m : Word),
    let pc := (s.core s.cur).pc
    let target := BitVec.ofInt 64 (pc.toNat + 8 * Sys2Proof.Claims.wide s f.disp)
    let past := pc + (if f.sp then 16 else 8)
    (∀ p ∈ ([(.beq, fun a b => decide (a.toNat = b.toNat)), (.bne, fun a b => decide (a.toNat ≠ b.toNat)),
        (.blt, fun a b => decide (a.toInt < b.toInt)), (.bge, fun a b => decide (a.toInt ≥ b.toInt)),
        (.bltu, fun a b => decide (a.toNat < b.toNat)), (.bgeu, fun a b => decide (a.toNat ≥ b.toNat))] :
        List ((FC → Instr) × (Word → Word → Bool))),
      ∀ (s2 s3 : State) (a b : Word), s.Clear s.cur f.sp false false [f.a, f.b] [] m s1 →
        s1.src s.cur f.a = .ok (a, s2) → s2.src s.cur f.b = .ok (b, s3) →
        exec (p.1 f) s = Sys2Proof.Claims.goesTo s s3 f.sp m (if p.2 a b then target else past)) ∧
    (s.Clear s.cur f.sp false false [] [] m s1 →
      (∀ n : Fin 16, f.a = .k n →
        exec (.bk f) s = Sys2Proof.Claims.goesTo s s1 f.sp m (if s1.kreg s.cur n.val then target else past) ∧
        exec (.bnk f) s = Sys2Proof.Claims.goesTo s s1 f.sp m (if s1.kreg s.cur n.val then past else target)) ∧
      exec (.jmp f) s = Sys2Proof.Claims.goesTo s s1 f.sp m target)

/-- LOOP, JAL and JR (16 R296-R298): the count less one is written, and LOOP branches while it is not zero; JAL and JR write the return
address as a capability derived from the old PCC into an x register, or alone into a y register, and pass it to the l file; JR checks its
target tag, permissions, bounds, then alignment, and PCC becomes the target. -/
def Sys2Proof.Claims.LoopAndLinkJumps : Prop :=
  ∀ (s s1 : State) (m : Word),
    let pc := (s.core s.cur).pc
    let link (t : State) (d : Opnd) (ret : Word) : State :=
      (match d with
        | .y i => t.modVs s.cur (fun r => r.setY i.val ret)
        | d => t.setCap s.cur d ((s.core s.cur).pcc.move ret)).modVs s.cur (fun r => Sys2Proof.Claims.shifted r ret)
    (∀ f : FC,
      let target := BitVec.ofInt 64 (pc.toNat + 8 * Sys2Proof.Claims.wide s f.disp)
      let past := pc + (if f.sp then 16 else 8)
      (∀ (s2 : State) (a : Word), s.Clear s.cur f.sp false false [f.a] [] m s1 → s1.src s.cur f.a = .ok (a, s2) →
        let n := BitVec.ofInt 64 ((a.toNat : Int) - 1)
        let t := match f.a with
          | .y i => s2.modVs s.cur (fun r => r.setY i.val n)
          | d => s2.setCap s.cur d ⟨n.setWidth 128, false⟩
        exec (.loop f) s = Sys2Proof.Claims.goesTo s t f.sp m (if n = 0 then past else target)) ∧
      (s.Clear s.cur f.sp false false [] [] m s1 →
        exec (.jal f) s = Sys2Proof.Claims.goesTo s (link s1 f.a past) f.sp m target)) ∧
    (∀ f : FR, s.Clear s.cur f.sp false false [] [] m s1 →
      let c := s.cap s.cur f.a
      let bad := fun code => exec (.jr f) s = .next (s.faults code c.addr .fetch)
      if c.tag = false then bad .capTag
      else if c.sealed = true ∨ c.perms.testBit 2 = false ∨ c.perms.testBit 5 = false ∨ c.perms.testBit 4 = true then bad .capPerm
      else if c.addr.toNat < c.base ∨ c.top < c.addr.toNat + 8 then bad .capBounds
      else if c.addr.toNat % 8 ≠ 0 then bad .align
      else exec (.jr f) s = .next ((link (s1.modCore s.cur (fun k => { k with pcc := c })) f.d (pc + (if f.sp then 16 else 8))).finished
        s.cur f.sp m c.addr))


/-! ### Prefixes, traps, CSRs, fences (15 R256-R260, 16 R275, 20 R383-R395) -/

/-- XIMM and ORD (15 R256-R257, R260): the prefix joins the unit of the next word, 8 bytes on, whose first address is kept; nothing else
changes. NOP has no effect. -/
def Obligations.PrefixesAndNop : Prop :=
  (∀ (s : State) (p : BitVec 32) (o : Order),
    let c := s.core s.cur
    let first := match c.pfx with | some q => q.first | none => c.pc
    let next (x : Option (BitVec 32)) (d : Option Order) : State :=
      s.setCore s.cur { c with pfx := some { ximm := x, ord := d, first }, pc := BitVec.ofNat 64 (c.pc.toNat + 8), again := none,
                               latch := [] }
    exec (.ximm p) s = .next (next (some p) (c.pfx.bind Pfx.ord)) ∧
    exec (.ord o) s = .next (next (c.pfx.bind Pfx.ximm) (some o))) ∧
  (∀ (f : FR) (s s1 : State) (m : Word), s.Clear s.cur f.sp true false [] [] m s1 → exec (.nop f) s = .next (s.after s1 f.sp m))

/-- The state in which a trap handler's first word runs (20 R384): the return capability and the cause in the trap CSRs, PCC over the words
of TVEC's entry, the firing's running reference on it; the l file and every other register as before. -/
def Sys2Proof.Claims.trapped (s : State) (k : Nat) (ret : Word) (cause code : Nat) : State :=
  let r := HRef.of (s.core k).vs.csr.tvec
  let e := (s.ctx (s.ctxOf k)).handle r.index
  let link := (s.core k).pcc.move ret
  (s.takeRef k r).modCore k (fun c => { c with
    vs := { c.vs with csr := { c.vs.csr with
      epcl := link.addr, epch := link.hi,
      estat := BitVec.ofNat 64 (1 + (if link.tag then 2 else 0) + 256 * cause + 65536 * code) } },
    pcc := codeCap e.codeva e.words.toNat, pc := e.codeva, pfx := none, again := none, latch := [] })

/-- TRAP, BRK and a breakpoint's trap (20 R384-R385): TRAP while a trap is handled is ILLEGAL, without TVEC raises TRAPD with its code; BRK
in either case raises BRK with its tag; a stale TVEC raises HANDLE_STALE; else control enters TVEC's code at its first word. -/
def Sys2Proof.Claims.TrapEntry : Prop :=
  ∀ (f : FI) (s s1 : State) (m : Word), s.Clear s.cur f.sp false false [] [] m s1 →
    let csr := (s.core s.cur).vs.csr
    let ret := (s.core s.cur).pc + (if f.sp then 16 else 8)
    let e := (s1.ctx (s1.ctxOf s.cur)).handle (HRef.of csr.tvec).index
    let code := f.imm.toNat % 256
    let tag := f.imm.toNat % 65536
    (csr.estat.getLsbD 0 = true → exec (.trap f) s = .next (s.faults .illegal 0 .fetch)) ∧
    (csr.estat.getLsbD 0 = false → csr.tvec = 0 → exec (.trap f) s = .next (s.faults .trapd (BitVec.ofNat 64 code) .fetch)) ∧
    (csr.estat.getLsbD 0 = true ∨ csr.tvec = 0 → exec (.brk f) s = .next (s.faults .brk (BitVec.ofNat 64 tag) .fetch)) ∧
    (csr.estat.getLsbD 0 = false → csr.tvec ≠ 0 →
      if s1.handlePasses s.cur (HRef.of csr.tvec) = false then
        exec (.trap f) s = .next (s.faults .handleStale csr.tvec .fetch) ∧ exec (.brk f) s = .next (s.faults .handleStale csr.tvec .fetch)
      else
        exec (.trap f) s = .next ((Sys2Proof.Claims.trapped s1 s.cur ret 0 code).finished s.cur f.sp m e.codeva) ∧
        exec (.brk f) s = .next ((Sys2Proof.Claims.trapped s1 s.cur ret 1 tag).finished s.cur f.sp m e.codeva)) ∧
    (∀ (va : Word) (n : Nat), va.toNat + 8 * n ≤ 2 ^ 64 → n < 2 ^ 18 →
      (codeCap va n).tag = true ∧ (codeCap va n).base = va.toNat ∧ (codeCap va n).top = va.toNat + 8 * n ∧
      (codeCap va n).perms = 0b100100)

/-- ERET (20 R386): outside a trap ILLEGAL; an untagged return capability CAP_TAG; a return address outside it CAP_BOUNDS, unaligned ALIGN;
else PCC is the return capability, control goes to EPCL, ACTIVE is clear, and SKIP is set exactly after a breakpoint match. -/
def Sys2Proof.Claims.TrapReturn : Prop :=
  ∀ (f : FR) (s s1 : State) (m : Word), s.Clear s.cur f.sp false false [] [] m s1 →
    let csr := (s.core s.cur).vs.csr
    let cap := XReg.ofWords csr.epcl csr.epch true
    let bad := fun (code : FCode) (a : Word) => exec (.eret f) s = .next (s.faults code a .fetch)
    if csr.estat.getLsbD 0 = false then bad .illegal 0
    else if csr.estat.getLsbD 1 = false then bad .capTag csr.epcl
    else if csr.epcl.toNat < cap.base ∨ cap.top < csr.epcl.toNat + 8 then bad .capBounds csr.epcl
    else if csr.epcl.toNat % 8 ≠ 0 then bad .align csr.epcl
    else ∃ estat : Word,
      exec (.eret f) s = .next ((s1.modCore s.cur (fun c => { c with
        vs := { c.vs with csr := { c.vs.csr with estat } }, pcc := cap, pc := csr.epcl, pfx := none, again := none,
        latch := [] })).finished s.cur f.sp m csr.epcl) ∧
      estat.getLsbD 0 = false ∧ (estat.getLsbD 2 = true ↔ csr.estat.toNat / 256 % 4 = 2) ∧
      ∀ i, i ≠ 0 → i ≠ 2 → estat.getLsbD i = csr.estat.getLsbD i

/-- TRAPD raises the fault that it carries, at its own address with data address 0, a code outside 0x01-0x19 raises ILLEGAL (20 R387); as 22
R419 delivers them, 0x0F commits the firing early and publishes, 0x13 is an event alone, and the firing goes on. A word of an unassigned opcode
raises ILLEGAL (15 R255). -/
def Obligations.CarriedFaults : Prop :=
  (∀ (f : FI) (s s1 : State) (m : Word), s.Clear s.cur f.sp false false [] [] m s1 →
    (∀ p ∈ ([(0x01, .illegal), (0x02, .prefixBad), (0x03, .capTag), (0x04, .capPerm), (0x05, .capBounds), (0x06, .page),
        (0x07, .pageLoop), (0x08, .align), (0x09, .hdrCheck), (0x0A, .hdrMismatch), (0x0B, .hdrUnsupported), (0x0C, .tileUnconf),
        (0x0D, .handleStale), (0x0E, .specFull), (0x10, .divzero), (0x11, .trapd), (0x12, .peerLost),
        (0x14, .brk), (0x15, .soft), (0x16, .stream), (0x17, .engine), (0x18, .nbvUnsupported), (0x19, .mcheck)] : List (Nat × FCode)),
      f.imm.toNat = p.1 → exec (.trapd f) s = .next (s.faults p.2 0 .fetch)) ∧
    (f.imm.toNat = 0 ∨ 0x19 < f.imm.toNat → exec (.trapd f) s = .next (s.faults .illegal 0 .fetch))) ∧
  (∀ (f : FI) (s s1 : State) (m : Word), s.Clear s.cur f.sp true false [] [] m s1 →
    (f.imm.toNat = 0x0F → ∀ s2, (s1.commit s.cur).boundary s.cur none = some s2 → exec (.trapd f) s = .next (s.after s2 f.sp m)) ∧
    (f.imm.toNat = 0x13 → ∃ e : CtxEvent, e.fault = false ∧ e.regs.take 4 = [0x13, s1.coordW s.cur, 0, (s.core s.cur).unitAt] ∧
      exec (.trapd f) s = .next (s.after (s1.ctxEvent (s.ctxOf s.cur) e) f.sp m))) ∧
  (∀ (w : Word) (s : State), exec (.unassignedOpcode w) s = .next (s.faults .illegal 0 .read))

/-- Replacing the CSRs of core `k`. -/
def Sys2Proof.Claims.withCsr (s : State) (k : Nat) (f : Csrs → Csrs) : State :=
  s.setCore k { s.core k with vs := { (s.core k).vs with csr := f (s.core k).vs.csr } }

/-- CSRR, CSRW, CSRS and CSRC (20 R388-R390): each puts the old value; the writing forms store the new value with its reserved bits clear;
a number outside the map, and a write of a read-only CSR, is ILLEGAL; NBV takes 2, or 1 where the feature is on, and refuses any other value
with its own fault (04 R92). -/
def Obligations.CsrAccess : Prop :=
  ∀ (f : FI) (s s1 : State) (m : Word), s.Clear s.cur f.sp true false [f.a] [f.d] m s1 →
    let n := f.imm.toNat
    let csr := (s1.core s.cur).vs.csr
    let forms : List ((FI → Instr) × (Word → Word → Word)) := [(.csrw, fun _ v => v), (.csrs, fun o v => o ||| v), (.csrc, fun o v => o &&& ~~~v)]
    (∀ p ∈ ([(0x000, csr.fstat), (0x001, csr.nbv), (0x002, s1.features), (0x008, (s1.core s.cur).mode), (0x010, csr.lshash),
        (0x011, csr.lsstat), (0x012, csr.lsbad), (0x018, csr.qctlh), (0x019, csr.alarm), (0x020, csr.tvec), (0x021, csr.epcl),
        (0x022, csr.epch), (0x023, csr.estat), (0x038, csr.chstat), (0x039, csr.chfuel), (0x040, csr.carry), (0x041, csr.scanst),
        (0x048, csr.jobctr), (0x049, csr.jobwin), (0x04A, csr.cpctr), (0x04B, csr.cpwin), (0x030, s1.tdirty s.cur), (0x031, s1.tstate s.cur),
        (0x060, s1.ldimOf s.cur), (0x061, s1.gshapeOf s.cur), (0x062, s1.gindexOf s.cur), (0x063, s1.quantumOf s.cur)] :
        List (Nat × Word)),
      n = p.1 → ∀ s2, s1.put s.cur f.d p.2 = .ok s2 → exec (.csrr f) s = .next (s.after s2 f.sp m)) ∧
    (∀ p ∈ ([(0x000, 0x3F, csr.fstat, fun w c => { c with fstat := w }), (0x010, 0x3FF, csr.lshash, fun w c => { c with lshash := w }),
        (0x011, 1, csr.lsstat, fun w c => { c with lsstat := w }), (0x018, 0x1FFF, csr.qctlh, fun w c => { c with qctlh := w }),
        (0x019, -1, csr.alarm, fun w c => { c with alarm := w }), (0x020, -1, csr.tvec, fun w c => { c with tvec := w }),
        (0x039, 0xFFFFFFFF, csr.chfuel, fun w c => { c with chfuel := w }), (0x040, -1, csr.carry, fun w c => { c with carry := w })] :
        List (Nat × Word × Word × (Word → Csrs → Csrs))),
      n = p.1 → ∀ i ∈ forms, ∀ (v : Word) (s2 s3 : State), s1.src s.cur f.a = .ok (v, s2) →
        (Sys2Proof.Claims.withCsr s2 s.cur (p.2.2.2 (i.2 p.2.2.1 v &&& p.2.1))).put s.cur f.d p.2.2.1 = .ok s3 →
        exec (i.1 f) s = .next (s.after s3 f.sp m)) ∧
    (n = 0x001 → ∀ i ∈ forms, ∀ (v : Word) (s2 : State), s1.src s.cur f.a = .ok (v, s2) →
      let w := BitVec.ofNat 64 ((i.2 csr.nbv v).toNat % 16)
      if w = 2 ∨ (w = 1 ∧ hasNbv1 s2.features = true) then
        ∀ s3, (Sys2Proof.Claims.withCsr s2 s.cur (fun c => { c with nbv := w })).put s.cur f.d csr.nbv = .ok s3 →
          exec (i.1 f) s = .next (s.after s3 f.sp m)
      else exec (i.1 f) s = .next (s.faults .nbvUnsupported w .read)) ∧
    (∀ j : Fin 8, n = 0x070 + j.val → ∀ i ∈ forms, ∀ (v : Word) (s2 s3 : State), s1.src s.cur f.a = .ok (v, s2) →
      let old := Table.get 0 csr.brka j.val
      (Sys2Proof.Claims.withCsr s2 s.cur (fun c => { c with brka := Table.set 0 c.brka j.val (i.2 old v &&& 0x00FFFFFFFFFFFFF9) })).put
        s.cur f.d old = .ok s3 → exec (i.1 f) s = .next (s.after s3 f.sp m)) ∧
    (n ∈ [0x002, 0x008, 0x012, 0x021, 0x022, 0x023, 0x030, 0x031, 0x038, 0x041, 0x048, 0x049, 0x04A, 0x04B, 0x060, 0x061, 0x062, 0x063] →
      ∀ i ∈ forms, exec (i.1 f) s = .next (s.faults .illegal 0 .read)) ∧
    ((0x002 < n ∧ n < 0x008 ∨ 0x008 < n ∧ n < 0x010 ∨ 0x012 < n ∧ n < 0x018 ∨ 0x019 < n ∧ n < 0x020 ∨ 0x023 < n ∧ n < 0x030 ∨
        0x031 < n ∧ n < 0x038 ∨ 0x039 < n ∧ n < 0x040 ∨ 0x041 < n ∧ n < 0x048 ∨ 0x04B < n ∧ n < 0x060 ∨ 0x063 < n ∧ n < 0x070 ∨
        0x077 < n ∧ n < 0x100 ∨ 0x17F < n) →
      exec (.csrr f) s = .next (s.faults .illegal 0 .read) ∧ ∀ i ∈ forms, exec (i.1 f) s = .next (s.faults .illegal 0 .read))

/-- The checks of FENCE.CODE and PTSYNC on their range (20 R392-R393). -/
def Sys2Proof.Claims.rangeFault (c : XReg) (len : Word) : Option FCode :=
  if c.tag = false then some .capTag
  else if c.sealed = true ∨ c.perms.testBit 5 = false ∨ (c.perms.testBit 0 = false ∧ c.perms.testBit 1 = false ∧ c.perms.testBit 2 = false)
    then some .capPerm
  else if c.addr.toNat < c.base ∨ c.top < c.addr.toNat + len.toNat then some .capBounds else none

/-- FENCE.CODE and PTSYNC (20 R392-R393): the same checks, in order, then a boundary; after FENCE.CODE a fetch of any address of the range
finds the newest word alone; after PTSYNC no TLB of the package translates an address of the range for the context. Memory is as the
boundary left it. -/
def Sys2Proof.Claims.FenceAndTranslationSync : Prop :=
  ∀ (f : FR) (s s1 s2 : State) (m len : Word), s.Clear s.cur f.sp true false [f.b] [] m s1 → s1.src s.cur f.b = .ok (len, s2) →
    let c := s.cap s.cur f.a
    match Sys2Proof.Claims.rangeFault c len with
    | some x => exec (.fenceCode f) s = .next (s.faults x c.addr .read) ∧ exec (.ptsync f) s = .next (s.faults x c.addr .read)
    | none => ∀ s3, s2.boundary s.cur none = some s3 →
      (∃ t, exec (.fenceCode f) s = .next (s.after t f.sp m) ∧ t = { s3 with hist := t.hist } ∧
        ∀ (a : Word) (pa : Nat), c.addr.toNat ≤ a.toNat → a.toNat < c.addr.toNat + len.toNat →
          s3.vaToPa (s3.ctxOf s.cur) .fetch a = some pa → ∀ v ∈ t.hist, v.granule = pa / 16 → v.code = false) ∧
      (∃ t, exec (.ptsync f) s = .next (s.after t f.sp m) ∧ t = { s3 with cores := t.cores, clusters := t.clusters } ∧
        (∀ j, t.core j = { s3.core j with tlb := (t.core j).tlb, latch := (t.core j).latch }) ∧
        (∀ u, t.cluster u = { s3.cluster u with tlb := (t.cluster u).tlb }) ∧
        (len ≠ 0 → ∀ (j : Nat) (e : TlbEntry), e ∈ (t.core j).tlb ∨ e ∈ (t.cluster j).tlb → e.ctx = s3.ctxOf s.cur →
          ¬(e.page * 2 ^ pageLog e.size < c.addr.toNat + len.toNat ∧ c.addr.toNat < (e.page + 1) * 2 ^ pageLog e.size)))

/-- STOPW, RESUMEW and WAITT (20 R394-R395, 05 R102): each makes a boundary. A STOPW of the stopping firing of a STOPPED context, a RESUMEW
and a WAITT whose stamp has come complete; RESUMEW returns a STOPPED context to LIVE, and the firings that it stopped go on; a first STOPW
and a WAITT for a later stamp wait. -/
def Sys2Proof.Claims.StopWorldAndWait : Prop :=
  ∀ (f : FR) (s s1 : State) (m : Word),
    (s.Clear s.cur f.sp true false [] [] m s1 → ∀ s2, s1.boundary s.cur none = some s2 →
      let n := s.ctxOf s.cur
      let x := s2.ctx n
      (x.stopper = some s.cur → x.state = .stopped → exec (.stopw f) s = .next (s.after s2 f.sp m)) ∧
      (x.stopper = none → exec (.stopw f) s = .next (((s2.setCtx n { x with stopper := some s.cur }).askStop n s.cur).modCore s.cur
        (fun c => { c with run := .waiting .world f.sp, waitFrom := s2.cycle, mask := m }))) ∧
      (x.state ≠ .stopped → exec (.resumew f) s = .next (s.after s2 f.sp m)) ∧
      (x.state = .stopped → ∃ t, exec (.resumew f) s = .next (s.after t f.sp m) ∧ (t.ctx n).state = .live ∧ (t.ctx n).stopper = none ∧
        ∀ j, (t.core j).ctx = some n → (∀ sp, (t.core j).run ≠ .waiting .world sp) ∧
          ∀ p, (t.core j).preempt = some p → p.reason ≠ .stopw)) ∧
    (s.Clear s.cur f.sp true false [f.a] [] m s1 → ∀ (w : Word) (s2 s3 : State), s1.waitSrc s.cur f.a = .ok (w, s2) →
      s2.boundary s.cur none = some s3 →
      (w.toNat ≤ s3.time.toNat → exec (.waitt f) s = .next (s.after s3 f.sp m)) ∧
      (s3.time.toNat < w.toNat → (s3.core s.cur).preempt = none →
        exec (.waitt f) s = .next (s3.modCore s.cur (fun c => { c with run := .waiting (.stamp w) f.sp, waitFrom := s3.cycle, mask := m }))))


/-! ### The phase buffer, boundaries, safe points, the end of a firing (02 R29, 03 R67-R68, 09 R154-R165, 17 R302, 21 R405) -/

/-- Entering the phase buffer (17 R302, 02 R29, 15 R258): entries that fit 256 stand after those before them; others commit the firing early
and are entered after a boundary. Under ORD the boundaries of R258 stand around the entry, which .REL and .AR publish at once. -/
def Sys2Proof.Claims.PhaseBufferEntry : Prop :=
  (∀ (s : State) (k : Nat) (es : List Entry),
    let c := s.core k
    let need := (es.map Entry.cost).sum
    ((c.buffer.map Entry.cost).sum + need ≤ 256 → s.enter k es = .ok (s.setCore k { c with buffer := c.buffer ++ es })) ∧
    (256 < (c.buffer.map Entry.cost).sum + need → ∀ s1, (s.setCore k { c with committed := true }).boundary k none = some s1 →
      s.enter k es = .ok (s1.setCore k { s1.core k with buffer := es })) ∧
    (c.pfx.bind Pfx.ord = none → s.enterOrdered k es = s.enter k es) ∧
    (∀ o, c.pfx.bind Pfx.ord = some o → ∀ s1 s2 s3,
      (o.str = .acq → s.enter k es = .ok s1 → s1.boundary k (some o.scope) = some s2 → s.enterOrdered k es = .ok s2) ∧
      (o.str = .rel → s.boundary k (some o.scope) = some s1 → s1.publishOnce k es = .ok s2 → s.enterOrdered k es = .ok s2) ∧
      (o.str = .ar → s.boundary k (some o.scope) = some s1 → s1.publishOnce k es = .ok s2 →
        s2.boundary k (some o.scope) = some s3 → s.enterOrdered k es = .ok s3))) ∧
  (∀ (va : Word) (pa : Nat) (bs : List Byte) (tag : Option Bool),
    (0 < bs.length → bs.length ≤ 16 → Entry.cost (.store va pa bs tag) = 1) ∧ (bs.length = 128 → Entry.cost (.store va pa bs tag) = 8)) ∧
  (∀ va pa w op v c d m x r l n j t e z, Entry.cost (.atomic va pa w op v c) = 1 ∧ Entry.cost (.send d m) = 4 ∧
    Entry.cost (.sendm x m) = 4 ∧ Entry.cost (.fire r l) = 4 ∧ Entry.cost (.mcst x n z j) = 9 ∧ Entry.cost (.join d n j) = 1 ∧
    Entry.cost (.remote d t n w c e) = 1)

/-- A safe point without a pending request (03 R67-R68, 15 R243): past the boundary the l file is zero, control is at the next address with no
prefix, and the firing would be replayed from there with the x, y and v registers that the live mask names. -/
def Sys2Proof.Claims.SafePointGoesOn : Prop :=
  ∀ (s s1 : State) (k : Nat) (m next : Word), s.boundary k none = some s1 →
    (s1.core k).preempt = none → (s1.ctx (s1.ctxOf k)).state ≠ .halted →
    ∃ c : Core, s.safePoint k m next false = s1.setCore k c ∧ c.pc = next ∧ c.pfx = none ∧ c.run = .running ∧
      c.firing = (s1.core k).firing ∧ c.buffer = (s1.core k).buffer ∧
      c.vs = { (s1.core k).vs with l0 := 0, l1 := 0, l2 := 0, l3 := 0 } ∧
      ∃ r, c.point.resume = some r ∧ r.pc = next ∧ r.pcc = (s1.core k).pcc ∧ r.mask = m ∧
        (∀ i, Table.get XReg.zero r.x i = if i < 96 ∧ m.getLsbD (i / 4) = true then Table.get XReg.zero (s1.core k).vs.x i else XReg.zero) ∧
        (∀ i, Table.get 0 r.y i = if m.getLsbD (32 + i) = true then Table.get 0 (s1.core k).vs.y i else 0) ∧
        (∀ i, Table.get 0 r.v i = if m.getLsbD (48 + i / 4) = true then Table.get 0 (s1.core k).vs.v i else 0)

/-- A boundary of core `k` that is not held (21 R405, 03 R67): its phase buffer and open host-queue record are empty afterwards, what the
phase had dequeued is released, and a new phase begins. A boundary of an empty buffer publishes nothing. -/
def Sys2Proof.Claims.BoundaryBeginsPhase : Prop :=
  (∀ (s t : State) (k : Nat) (scope : Option OScope), s.boundary k scope = some t →
    (t.core k).buffer = [] ∧ (t.core k).hq = [] ∧ (t.core k).taken = [] ∧ (t.core k).takenIb = [] ∧ (t.core k).light = [] ∧
    (t.core k).view = { start := t.stamp, bytes := [], tags := [] }) ∧
  (∀ (s : State) (k : Nat) (scope : Option OScope), (s.core k).buffer = [] → (s.core k).hq = [] → (s.core k).light = [] →
    ∃ t, s.boundary k scope = some t ∧ s.sameMemory t ∧ t.flights = s.flights)

/-- END, HALT, YIELD and MIGRATE (16 R275, 17 R316, 09 R165): END and HALT make the boundary and end the firing, HALT posting its record;
YIELD makes its safe point and suspends the firing there; MIGRATE checks its target, makes a boundary and waits for its departure. LQ or
SQ not empty is ILLEGAL. A suspended or ended firing leaves the core idle. -/
def Obligations.EndOfFiring : Prop :=
  (∀ (f : FR) (s : State),
    let c := s.core s.cur
    ((c.lq ≠ [] ∨ c.sq ≠ []) →
      exec (.endFiring f) s = .next (s.faults .illegal 0 .read) ∧ exec (.halt f) s = .next (s.faults .illegal 0 .read) ∧
      exec (.yieldFiring f) s = .next (s.faults .illegal 0 .read) ∧ exec (.migrate f) s = .next (s.faults .illegal 0 .read)) ∧
    (c.lq = [] → c.sq = [] →
      (∀ s1, s.boundary s.cur none = some s1 → exec (.endFiring f) s = .next (s1.endFiring s.cur)) ∧
      (let halted : List Word := [BitVec.ofNat 64 (0xFF + 256 * (s.pkg.toNat * 8192 + s.cur)), c.unitAt, s.time] ++
          (List.range 5).map (fun i => (c.vs.getX (i + 1)).addr)
       let t := s.setCore s.cur { c with buffer := c.closed, hq := [] }
       s.pkg.toNat * 8192 + s.cur < 2 ^ 31 → ∀ s1 s2, t.enter s.cur [.hostq halted] = .ok s1 → s1.boundary s.cur none = some s2 →
         exec (.halt f) s = .next (s2.endFiring s.cur)) ∧
      (∀ (m : Word) (s1 : State), s.Clear s.cur true true true [] [] m s1 →
        exec (.yieldFiring f) s = .next (s1.safePoint s.cur m (BitVec.ofNat 64 (c.pc.toNat + 16)) true)))) ∧
  (∀ (s s1 : State) (k : Nat) (m next : Word) (f : Firing), s.boundary k none = some s1 → (s1.core k).firing = some f →
    (s1.core k).preempt = none →
    ∃ t, s.safePoint k m next true = t ∧ (t.core k).firing = none ∧ (t.core k).run = .idle ∧
      ∃ g, g ∈ (t.core k).ready ∧ g.code = f.code ∧ g.inputs = f.inputs ∧
        ∃ r, g.resume = some r ∧ r.pc = next ∧ r.mask = m)

/-- END, HALT and YIELD complete (16 R275, 17 R316, 09 R165): with LQ and SQ empty and a publication that is not held, END ends the firing; so
does HALT, whose record of eight doublewords is published behind the firing's other entries; YIELD suspends it, READY to go on past its live
mask. The core then runs nothing. -/
def Obligations.EndingInstructionsComplete : Prop :=
  ∀ (f : FR) (s s1 : State) (fr : Firing),
    let k := s.cur
    let c := s.core k
    let rests (t : State) : Prop := (t.core k).firing = none ∧ (t.core k).run = .idle ∧ (t.core k).buffer = [] ∧ (t.core k).hq = []
    c.lq = [] → c.sq = [] →
    (s.boundary k none = some s1 → (s1.core k).firing = some fr → ∃ t, exec (.endFiring f) s = .next t ∧ rests t) ∧
    (let halted : Entry := .hostq ([BitVec.ofNat 64 (0xFF + 256 * (s.pkg.toNat * 8192 + k)), c.unitAt, s.time] ++
        (List.range 5).map (fun i => (c.vs.getX (i + 1)).addr))
     s.pkg.toNat * 8192 + k < 2 ^ 31 → (c.closed.map Entry.cost).sum + 4 ≤ 256 →
       (s.setCore k { c with buffer := c.closed ++ [halted], hq := [] }).boundary k none = some s1 → (s1.core k).firing = some fr →
       ∃ t, exec (.halt f) s = .next t ∧ rests t) ∧
    (∀ (m : Word) (s0 : State), s.Clear k true true true [] [] m s0 → s0.boundary k none = some s1 → (s1.core k).firing = some fr →
      (s1.core k).preempt = none → ∃ t, exec (.yieldFiring f) s = .next t ∧ rests t ∧ ∃ g ∈ (t.core k).ready,
        g.code = fr.code ∧ g.inputs = fr.inputs ∧ ∃ r, g.resume = some r ∧ r.pc = BitVec.ofNat 64 (c.pc.toNat + 16) ∧ r.mask = m)

/-! ### Messages, joins, events, the handler table (17 R299-R318, 10 R172-R175, 09 R166-R168) -/

/-- What is wrong with Cap(A) as a message target of core `cur` (17 R299-R300); every such fault reports its ADDR. A firing without a launch
reaches no core (05 R462). -/
def Sys2Proof.Claims.targetFault (s : State) (c : XReg) (readsXY : Bool) : Option FCode :=
  if c.tag = false then some .capTag
  else if c.sealed = true ∨ c.perms.testBit 3 = false then some .capPerm
  else if c.addr.toNat < c.base ∨ c.top < c.addr.toNat + 1 ∨ (s.core s.cur).sendLaunch = none ∨
      (readsXY = true ∧ ((s.ldimOf s.cur).toNat % 2 ^ 16 ≤ c.addr.toNat % 2 ^ 12 ∨
        (s.ldimOf s.cur).toNat / 2 ^ 16 % 2 ^ 16 ≤ c.addr.toNat / 2 ^ 16 % 2 ^ 12)) then some .capBounds
  else none

/-- The virtual core that a target names, in a launch (17 R299). -/
def Sys2Proof.Claims.targetCore (c : XReg) (launch : Nat) : VCore :=
  ⟨launch, c.addr.toNat % 2 ^ 12, c.addr.toNat / 2 ^ 16 % 2 ^ 12⟩

/-- The eight registers from x register b, with their tags. -/
def Sys2Proof.Claims.eight (s : State) (b : Nat) : List XReg := (List.range 8).map (fun j => (s.core s.cur).vs.getX (b + j))

/-- SEND, SEND.S, SENDM, MIGRATE, JOIN and HOSTQ (17 R299-R300, R312-R318, 10 R174): the target's checks in order, a wrong subgroup its own
CAP_BOUNDS; else one entry with the message, its payload with tags, handler index, sender and context, enters the phase buffer. -/
def Obligations.MessagesEnterBuffer : Prop :=
  ∀ (s s1 : State) (m : Word) (a b : Fin 128),
    let c := s.cap s.cur (.x a)
    let msg (kind : MKind) (hidx launch : Nat) : Msg :=
      { kind, hidx, regs := Sys2Proof.Claims.eight s b.val, sender := BitVec.ofNat 31 (s.pkg.toNat * 8192 + s.cur),
        ctx := s.ctxOf s.cur, launch, born := 0, href := none }
    let hidx := c.addr.toNat / 2 ^ 32 % 2 ^ 12
    (∀ f : FRS, f.a = .x a → f.b = .x b → s.Clear s.cur f.sp true false [] [] m s1 → match Sys2Proof.Claims.targetFault s c true with
      | some x => exec (.send f) s = .next (s.faults x c.addr .read)
      | none => ∀ l t, (s.core s.cur).sendLaunch = some l →
        s1.enterOrdered s.cur [.send (Sys2Proof.Claims.targetCore c l) (if f.stream then msg .stream 0 l else msg .handler hidx l)] = .ok t →
        exec (.send f) s = .next (s.after t f.sp m)) ∧
    (∀ f : FRC, f.a = .x a → f.b = .x b → s.Clear s.cur f.sp true false [f.c] [] m s1 → match Sys2Proof.Claims.targetFault s c false with
      | some x => exec (.sendm f) s = .next (s.faults x c.addr .read)
      | none => ∀ w s2, s1.src s.cur f.c = .ok (w, s2) →
        let spec := w.toNat % 2 ^ 16
        let lw := spec % 8
        let lh := spec / 8 % 8
        let x := spec / 64 % 32
        let y := spec / 2048
        let g := (s.core s.cur).gshape.toNat
        if (s.core s.cur).svc = false ∧ lw ≤ 5 ∧ lh ≤ 5 ∧ x % 2 ^ lw = 0 ∧ y % 2 ^ lh = 0 ∧ x + 2 ^ lw ≤ 2 ^ (g % 8) ∧
            y + 2 ^ lh ≤ 2 ^ (g / 16 % 8) then
          ∀ l t, (s.core s.cur).sendLaunch = some l → s2.enter s.cur [.sendm (BitVec.ofNat 16 spec) (msg .handler hidx l)] = .ok t →
            exec (.sendm f) s = .next (s.after t f.sp m)
        else exec (.sendm f) s = .next (s.faults .capBounds (BitVec.ofNat 64 spec) .read)) ∧
    (∀ f : FR, f.a = .x a → (s.core s.cur).lq = [] → (s.core s.cur).sq = [] → match Sys2Proof.Claims.targetFault s c true with
      | some x => exec (.migrate f) s = .next (s.faults x c.addr .read)
      | none => ∀ s2, s.boundary s.cur none = some s2 →
        exec (.migrate f) s = .next (s2.setCore s.cur { s2.core s.cur with run := .waiting .migrate false, waitFrom := s2.cycle })) ∧
    (∀ f : FJoin, f.a = .x a → s.Clear s.cur f.sp true false [] [] m s1 → match Sys2Proof.Claims.targetFault s c true with
      | some x => exec (.join f) s = .next (s.faults x c.addr .read)
      | none => ∀ l t, (s.core s.cur).sendLaunch = some l →
        s1.enter s.cur [.join (Sys2Proof.Claims.targetCore c l) (f.n.toNat + 1) f.j.toNat] = .ok t →
        exec (.join f) s = .next (s.after t f.sp m)) ∧
    (∀ f : FR, f.a = .x a → s.Clear s.cur f.sp true false [] [] m s1 → ∀ t,
      s1.enter s.cur [.hostq ((List.range 8).map (fun j => ((s.core s.cur).vs.getX (a.val + j)).addr))] = .ok t →
      exec (.hostq f) s = .next (s.after t f.sp m))

/-- RECV (17 R314): the next reserved message after those already read, in input order, fills eight registers with its payload, join and
handle inputs passed over, and its sender's coordinate enters the l file; with none left the registers are zero and the l file takes all
ones. Nothing is consumed but the position. -/
def Obligations.RecvTakesNextInput : Prop :=
  ∀ (f : FR) (s s1 : State) (m : Word) (d : Fin 128) (fr : Firing), f.d = .x d → s.Clear s.cur f.sp true false [] [] m s1 →
    (s.core s.cur).firing = some fr →
    let from_ := match fr.inputs with | .msg _ :: _ => max fr.recv 1 | _ => fr.recv
    let out (recv : Nat) (regs : List XReg) (w : Word) : Out := .next (s.after (s1.setCore s.cur { s1.core s.cur with
      firing := some { fr with recv }, vs := Sys2Proof.Claims.shifted ((s.core s.cur).vs.setBlock d.val regs) w }) f.sp m)
    (∀ pre id post im, fr.inputs = pre ++ .msg id :: post → from_ ≤ pre.length → (∀ i ∈ pre.drop from_, ∀ n, i ≠ .msg n) →
      (s.core s.cur).inbox.find? (fun x => decide (x.id = id)) = some im → im.msg.regs.length = 8 →
      exec (.recv f) s = out (pre.length + 1) im.msg.regs (im.msg.sender.setWidth 64)) ∧
    ((∀ i ∈ fr.inputs.drop from_, ∀ n, i ≠ .msg n) →
      exec (.recv f) s = out fr.inputs.length (List.replicate 8 XReg.zero) (BitVec.ofNat 64 (2 ^ 64 - 1))) ∧
    (∀ (r : VState) (regs : List XReg) (j : Nat), Table.wf XReg.zero r.x = true → regs.length = 8 → (r.setBlock d.val regs).getX j =
      if j ≠ 0 ∧ d.val ≤ j ∧ j < d.val + 8 then regs.getD (j - d.val) XReg.zero else r.getX j)

/-- FIRE, JINIT, HTSET and HTGET (17 R315, R317, 10 R175): FIRE checks its code handle in order and takes a provisional reference; JINIT and
HTSET enter the buffer; HTGET gives the firing's own latest HTSET, else the entry as the phase found it; an index of 4,096 or more is
CAP_BOUNDS with the index. -/
def Obligations.FireJoinInitHandlerTable : Prop :=
  ∀ (s s1 : State) (m : Word),
    (∀ (f : FR) (b : Fin 128), f.b = .x b → s.Clear s.cur f.sp true false [] [] m s1 →
      let c := s.cap s.cur f.a
      let r := HRef.of c.addr
      let n := s.ctxOf s.cur
      let e := (s.ctx n).handle r.index
      let bad := fun code => exec (.fire f) s = .next (s.faults code c.addr .read)
      if c.tag = false then bad .capTag
      else if c.sealed = true ∨ c.perms.testBit 6 = false then bad .capPerm
      else if c.addr.toNat < c.base ∨ c.top < c.addr.toNat + 1 then bad .capBounds
      else if s.handlePasses s.cur r = false then bad .handleStale
      else if e.running = 0xFFFF then bad .specFull
      else ∀ t, (s1.setCtx n ((s1.ctx n).setHandle r.index { e with running := e.running + 1 })).enter s.cur
          [.fire r (Sys2Proof.Claims.eight s b.val)] = .ok t → exec (.fire f) s = .next (s.after t f.sp m)) ∧
    (∀ (f : FJinit) (w : Word) (s2 t : State), s.Clear s.cur f.sp true false [f.a] [] m s1 → s1.src s.cur f.a = .ok (w, s2) →
      s2.enter s.cur [.jinit f.j.toNat f.scope (BitVec.ofNat 24 w.toNat) ((s.ctx (s.ctxOf s.cur)).kernelAt (s.core s.cur).pc)] = .ok t →
      exec (.jinit f) s = .next (s.after t f.sp m)) ∧
    (∀ (f : FR) (i w : Word) (s2 s3 : State), s.Clear s.cur f.sp true false [f.a, f.b] [] m s1 → s1.src s.cur f.a = .ok (i, s2) →
      s2.src s.cur (s1.issued s.cur f.b) = .ok (w, s3) →
      (4096 ≤ i.toNat → exec (.htset f) s = .next (s.faults .capBounds i .read)) ∧
      (∀ t, i.toNat < 4096 → s3.enter s.cur [.htset i.toNat w] = .ok t → exec (.htset f) s = .next (s.after t f.sp m))) ∧
    (∀ (f : FR) (i : Word) (s2 : State), s.Clear s.cur f.sp true false [f.a] [f.d] m s1 → s1.src s.cur f.a = .ok (i, s2) →
      let c := s2.core s.cur
      let x := s2.ctx (s2.ctxOf s.cur)
      let old (o : Nat × Word × Nat) : Prop := o.1 = i.toNat ∧ c.view.start ≤ o.2.2
      let puts (v : Word) : Prop := ∀ t, s2.put s.cur f.d v = .ok t → exec (.htget f) s = .next (s.after t f.sp m)
      (4096 ≤ i.toNat → exec (.htget f) s = .next (s.faults .capBounds i .read)) ∧
      (i.toNat < 4096 →
        (∀ pre w post, c.buffer = pre ++ .htset i.toNat w :: post → (∀ v, .htset i.toNat v ∉ post) → puts (w &&& 0x0FFFFFFFFFFF0001)) ∧
        ((∀ v, .htset i.toNat v ∉ c.buffer) →
          ((∀ o ∈ x.oldHandlers, ¬old o) → puts (Table.get 0 x.handlers i.toNat)) ∧
          (∀ pre o post, x.oldHandlers = pre ++ o :: post → old o → (∀ p ∈ post, ¬old p) → puts o.2.1))))

/-- EVSET, EVCLR, EVWAIT and EVTEST (20 R391, 09 R166-R167): set and clear take one entry of the buffer; wait and test make a boundary, after
which the core's own earlier operations have reached a home in this package; a wait completes where the event is set, and otherwise joins its
wait list; a test puts 1 or 0. A home on another package is asked, and an EVWAIT waits for its answer. The home die's loss raises PEER_LOST. -/
def Sys2Proof.Claims.EventInstructions : Prop :=
  ∀ (f : FR) (s s1 : State) (m : Word),
    let n := s.ctxOf s.cur
    (s.Clear s.cur f.sp true false [f.a] [] m s1 → ∀ (w : Word) (s2 : State), s1.src s.cur f.a = .ok (w, s2) →
      ∀ t, (s2.enter s.cur [.event true (BitVec.ofNat 16 w.toNat)] = .ok t → exec (.evset f) s = .next (s.after t f.sp m)) ∧
        (s2.enter s.cur [.event false (BitVec.ofNat 16 w.toNat)] = .ok t → exec (.evclr f) s = .next (s.after t f.sp m))) ∧
    (s.Clear s.cur f.sp true false [f.a] [] m s1 → ∀ (w : Word) (s2 : State), s1.waitSrc s.cur f.a = .ok (w, s2) →
      let e : BitVec 16 := BitVec.ofNat 16 w.toNat
      (s1.homeLost n e = true → exec (.evwait f) s = .next (s.faults .peerLost (BitVec.ofNat 64 (w.toNat % 2 ^ 16)) .read)) ∧
      (s1.homeLost n e = false → ∀ s3, s2.boundary s.cur none = some s3 → (s3.ctx n).home = true → (s1.core s.cur).ticket = none →
        let s4 := s3.drainEvents (s3.coord s.cur) n
        (s4.ctx n).hostHolds e = false →
        (((s4.ctx n).event e).set = true → exec (.evwait f) s = .next (s.after (s4.setCore s.cur { (s4.core s.cur) with
          view := { start := s4.stamp, bytes := [], tags := [] } }) f.sp m)) ∧
        (((s4.ctx n).event e).set = false → 
          (let s5 := s4.setCtx n ((s4.ctx n).setEvent e { ((s4.ctx n).event e) with waiters := ((s4.ctx n).event e).waiters ++ [.core s.cur] })
           let s6 := s5.settleEvent n e
           let c : Core := { (s6.core s.cur) with run := .waiting (.event e false) f.sp, waitFrom := s6.cycle, mask := m }
           exec (.evwait f) s = .next ((s6.setCore s.cur c).stopAtWait s.cur)))) ∧
      (s1.homeLost n e = false → ∀ s3, s2.boundary s.cur none = some s3 → (s3.ctx n).home = false → (s1.core s.cur).ticket = none →
        ∀ s4, s3.askHome (coreDie s.cur) n (s3.coord s.cur) (s3.core s.cur).sendLaunch 3 e (.core s.cur) = some s4 →
          let c : Core := { (s4.core s.cur) with run := .waiting (.event e false) f.sp, waitFrom := s4.cycle, mask := m }
          exec (.evwait f) s = .next ((s4.setCore s.cur c).stopAtWait s.cur))) ∧
    (s.Clear s.cur f.sp true false [f.a] [f.d] m s1 → ∀ (w : Word) (s2 : State), s1.src s.cur f.a = .ok (w, s2) →
      let e : BitVec 16 := BitVec.ofNat 16 w.toNat
      (s1.homeLost n e = true → exec (.evtest f) s = .next (s.faults .peerLost (BitVec.ofNat 64 (w.toNat % 2 ^ 16)) .read)) ∧
      (s1.homeLost n e = false → ∀ s3, s2.boundary s.cur none = some s3 → (s3.ctx n).home = true →
        let s4 := s3.drainEvents (s3.coord s.cur) n
        (s4.ctx n).hostHolds e = false → ∀ t, (s4.setCore s.cur { (s4.core s.cur) with
            view := { start := s4.stamp, bytes := [], tags := [] } }).put s.cur f.d (if ((s4.ctx n).event e).set then 1 else 0) = .ok t →
          exec (.evtest f) s = .next (s.after t f.sp m)))


/-! ### Global memory (17 R301-R307, 21 R405-R407) -/

/-- What is wrong with an access of `size` bytes at `a` that needs the permission bits `need` and an alignment of `al` (03 R48, 17 R301). -/
def Sys2Proof.Claims.accessFault (c : XReg) (need : List Nat) (a : Word) (size al : Nat) : Option FCode :=
  if c.tag = false then some .capTag
  else if c.sealed = true ∨ (need.any fun b => c.perms.testBit b = false) = true ∨ c.perms.testBit 4 = c.perms.testBit 5 then some .capPerm
  else if a.toNat < c.base ∨ c.top < a.toNat + size then some .capBounds
  else if a.toNat % al ≠ 0 then some .align
  else none

/-- The least of a list of addresses. -/
def Sys2Proof.Claims.least (as : List Word) : Word := BitVec.ofNat 64 ((as.map BitVec.toNat).min?.getD 0)

/-- The same for the lanes of a strided or indexed access: each kind on every lane before the next kind, at the lowest address that fails
(17 R301). -/
def Sys2Proof.Claims.lanesFault (c : XReg) (need : List Nat) (as : List Word) (eb : Nat) : Option (FCode × Word) :=
  if c.tag = false then some (.capTag, Sys2Proof.Claims.least as)
  else if c.sealed = true ∨ (need.any fun b => c.perms.testBit b = false) = true ∨ c.perms.testBit 4 = c.perms.testBit 5 then
    some (.capPerm, Sys2Proof.Claims.least as)
  else match as.filter (fun a => a.toNat < c.base ∨ c.top < a.toNat + eb) with
    | a :: t => some (.capBounds, Sys2Proof.Claims.least (a :: t))
    | [] => match as.filter (fun a => a.toNat % eb ≠ 0) with
      | a :: t => some (.align, Sys2Proof.Claims.least (a :: t))
      | [] => none

/-- The lane addresses of a strided or an indexed form (17 R307): lane i at base + i × stride, or at base + its index × the lane's bytes. -/
def Sys2Proof.Claims.laneAddresses (c : XReg) (eb : Nat) (off : Word ⊕ Vec) : List Word :=
  (List.range (128 / eb)).map (fun i => BitVec.ofInt 64 ((c.addr.toNat : Int) + match off with
    | .inl stride => i * stride.toInt
    | .inr v => (v.extractLsb' (8 * eb * i) (8 * eb)).toInt * eb))

/-- LD, LDV, LDC, LDVS, LDVX and PREF (17 R303-R307): the checks in the order of R301 and where the first failure is reported; otherwise the
address is translated and the bytes that the phase sees there are delivered, zero- or sign-extended, to LQ or to the register. PREF never
faults and changes no register, and no memory unless the host serves its miss. A full LQ makes a load wait. `lead`, `fresh` and `trail` are the boundaries of a pending ORD, and nothing without one. -/
def Obligations.LoadResults : Prop :=
  ∀ (s s1 : State) (m : Word),
    (∀ f : FM, s.Clear s.cur f.sp true false [] [f.d] m s1 →
      let c := s.cap s.cur f.a
      let a := BitVec.ofInt 64 (c.addr.toNat + Sys2Proof.Claims.wide s f.off)
      let w := f.width.bytes
      match Sys2Proof.Claims.accessFault c [0, 5] a w w with
      | some x => exec (.ld f) s = .next (s.faults x a .read)
      | none => ∀ pa s2 s3 s5 s6, s1.translate s.cur .read a = .ok (pa, s2) → s2.lead s.cur = .ok s3 →
        let r := (s3.fresh s.cur).loadBytes s.cur pa w
        let n := ofBytes r.1
        let v : Nat := if f.ext = true ∧ 2 ^ (8 * w - 1) ≤ n then n + 2 ^ 64 - 2 ^ (8 * w) else n
        (if f.d = .port 5 then (r.2.core s.cur).lq.length < 16 ∧
            s5 = r.2.setCore s.cur { r.2.core s.cur with lq := (r.2.core s.cur).lq ++ [BitVec.ofNat 1024 v] }
          else (∀ i, f.d ≠ .port i) ∧ r.2.put s.cur f.d (BitVec.ofNat 64 v) = .ok s5) →
        s5.trail s.cur = .ok s6 → exec (.ld f) s = .next (s.after s6 f.sp m)) ∧
    (∀ f : FMV, s.Clear s.cur f.sp true false [] [f.d] m s1 →
      let c := s.cap s.cur f.a
      let a := BitVec.ofInt 64 (c.addr.toNat + Sys2Proof.Claims.wide s f.off)
      match Sys2Proof.Claims.accessFault c [0, 5] a 128 8 with
      | some x => exec (.ldv f) s = .next (s.faults x a .read)
      | none => ∀ ps s2 s3 s5 s6, s1.translateSpan s.cur .read a 128 = .ok (ps, s2) → s2.lead s.cur = .ok s3 →
        let r := State.loadSpan s.cur ps (s3.fresh s.cur)
        r.2.loadVec s.cur f.d (BitVec.ofNat 1024 (ofBytes r.1)) = .ok s5 → s5.trail s.cur = .ok s6 → exec (.ldv f) s = .next (s.after s6 f.sp m)) ∧
    (∀ f : FMV, s.Clear s.cur f.sp true false [] [] m s1 →
      let c := s.cap s.cur f.a
      let a := BitVec.ofInt 64 (c.addr.toNat + Sys2Proof.Claims.wide s f.off)
      (match Sys2Proof.Claims.accessFault c [0, 5] a 16 16 with
      | some x => exec (.ldc f) s = .next (s.faults x a .read)
      | none => ∀ pa s2 s3 s6, s1.translate s.cur .read a = .ok (pa, s2) → s2.lead s.cur = .ok s3 →
        let r := (s3.fresh s.cur).loadCap s.cur pa
        (r.2.2.setCap s.cur f.d (if r.2.1 then ⟨r.1, true⟩ else ⟨(r.1.setWidth 64).setWidth 128, false⟩)).trail s.cur = .ok s6 →
          exec (.ldc f) s = .next (s.after s6 f.sp m)) ∧
      (∃ t, exec (.pref f) s = .next (s.after t f.sp m) ∧ ((s.core s.cur).tlbfill = false → s.sameMemory t) ∧
        ∀ j, t.core j = { s.core j with tlb := (t.core j).tlb, view := (t.core j).view })) ∧
    (∀ (v : Vec) (i : Fin 32), s.loadVec s.cur (.v i) v = .ok (s.modVs s.cur (fun r => r.setV i.val v)) ∧
      ((s.core s.cur).lq.length < 16 → s.loadVec s.cur (.port 5) v =
        .ok (s.setCore s.cur { s.core s.cur with lq := (s.core s.cur).lq ++ [v] })) ∧
      (16 ≤ (s.core s.cur).lq.length → s.loadVec s.cur (.port 5) v = .error (.wait .port s))) ∧
    (∀ (ix : Bool) (f : FRL), s.Clear s.cur f.sp true false [] [f.d] m s1 →
      let i := if ix then Instr.ldvx f else Instr.ldvs f
      let c := s.cap s.cur f.a
      let eb := f.lw.bytes
      ∀ off s2, (if ix then ∃ n, f.b = .v n ∧ off = .inr ((s.core s.cur).vs.getV n.val) ∧ s2 = s1
          else ∃ w, s1.src s.cur f.b = .ok (w, s2) ∧ off = .inl w) →
        let as := Sys2Proof.Claims.laneAddresses c eb off
        match Sys2Proof.Claims.lanesFault c [0, 5] as eb with
        | some x => exec i s = .next (s.faults x.1 x.2 .read)
        | none => ∀ ps s3 s4 s5 s6, s2.checkedLanes s.cur .read 0b100001 f as = .ok (ps, s3) → s3.lead s.cur = .ok s4 →
          let r := State.loadLanes s.cur eb ps (s4.fresh s.cur)
          r.2.loadVec s.cur f.d (BitVec.ofNat 1024 (ofBytes r.1)) = .ok s5 → s5.trail s.cur = .ok s6 → exec i s = .next (s.after s6 f.sp m))

/-- ST, STV, STC, STVS and STVX (17 R301-R307): the same checks for a write; otherwise the bytes of the data enter the phase buffer at the
translated address, STVS and STVX one entry per lane in lane order, STC with its tag. Memory itself changes only at a boundary. -/
def Obligations.StoreEntries : Prop :=
  ∀ (s s1 : State) (m : Word),
    (∀ f : FM, s.Clear s.cur f.sp true false [f.d] [] m s1 →
      let c := s.cap s.cur f.a
      let a := BitVec.ofInt 64 (c.addr.toNat + Sys2Proof.Claims.wide s f.off)
      let w := f.width.bytes
      match Sys2Proof.Claims.accessFault c [1, 5] a w w with
      | some x => exec (.st f) s = .next (s.faults x a .write)
      | none => ∀ pa v s2 s3 t, s1.translate s.cur .write a = .ok (pa, s2) → s2.storeData s.cur f.d = .ok (v, s3) →
        s3.enterOrdered s.cur [.store a pa ((List.range w).map (fun i => BitVec.ofNat 8 (v.toNat / 2 ^ (8 * i)))) none] = .ok t →
        exec (.st f) s = .next (s.after t f.sp m)) ∧
    (∀ f : FMV, s.Clear s.cur f.sp true false [f.d] [] m s1 →
      let c := s.cap s.cur f.a
      let a := BitVec.ofInt 64 (c.addr.toNat + Sys2Proof.Claims.wide s f.off)
      match Sys2Proof.Claims.accessFault c [1, 5] a 128 8 with
      | some x => exec (.stv f) s = .next (s.faults x a .write)
      | none => ∀ ps v s2 s3 t, s1.translateSpan s.cur .write a 128 = .ok (ps, s2) → s2.storeData s.cur f.d = .ok (v, s3) →
        s3.enterOrdered s.cur (storeSpan ps ((List.range 128).map (fun i => BitVec.ofNat 8 (v.toNat / 2 ^ (8 * i))))) = .ok t →
        exec (.stv f) s = .next (s.after t f.sp m)) ∧
    (∀ f : FMV, s.Clear s.cur f.sp true false [] [] m s1 →
      let c := s.cap s.cur f.a
      let a := BitVec.ofInt 64 (c.addr.toNat + Sys2Proof.Claims.wide s f.off)
      match Sys2Proof.Claims.accessFault c [1, 5] a 16 16 with
      | some x => exec (.stc f) s = .next (s.faults x a .write)
      | none => ∀ pa s2 t, s1.translate s.cur .write a = .ok (pa, s2) →
        let d := s.cap s.cur f.d
        s2.enterOrdered s.cur [.store a pa ((List.range 16).map (fun i => BitVec.ofNat 8 (d.val.toNat / 2 ^ (8 * i)))) (some d.tag)] = .ok t →
        exec (.stc f) s = .next (s.after t f.sp m)) ∧
    (∀ (ix : Bool) (f : FRL), s.Clear s.cur f.sp true false [f.d] [] m s1 →
      let i := if ix then Instr.stvx f else Instr.stvs f
      let c := s.cap s.cur f.a
      let eb := f.lw.bytes
      ∀ off s2, (if ix then ∃ n, f.b = .v n ∧ off = .inr ((s.core s.cur).vs.getV n.val) ∧ s2 = s1
          else ∃ w, s1.src s.cur f.b = .ok (w, s2) ∧ off = .inl w) →
        let as := Sys2Proof.Claims.laneAddresses c eb off
        match Sys2Proof.Claims.lanesFault c [1, 5] as eb with
        | some x => exec i s = .next (s.faults x.1 x.2 .write)
        | none => ∀ ps v s3 s4 t, s2.checkedLanes s.cur .write 0b100010 f as = .ok (ps, s3) → s3.storeData s.cur f.d = .ok (v, s4) →
          s4.enterOrdered s.cur (ps.mapIdx (fun i p => .store p.1 p.2
            ((List.range eb).map (fun j => BitVec.ofNat 8 (v.toNat / 2 ^ (8 * (eb * i + j))))) none)) = .ok t →
          exec i s = .next (s.after t f.sp m))

/-- What a load sees (21 R406-R407, P1, P2): where no older version is visible and the phase has fixed nothing, the bytes of memory under the
core's own stores; the core's own latest store always; and every later load of the same bytes in the phase the same value, whatever is
published meanwhile. A load changes no byte of memory and no tag. -/
def Sys2Proof.Claims.LoadsSeeThePhase : Prop :=
  (∀ (s : State) (k a n : Nat), (s.core k).view.bytes = [] →
    (∀ v ∈ s.hist, v.visible (.core k) (s.core k).view = false) →
    (s.loadBytes k a n).1 = overlay (s.core k).buffer a ((List.range n).map (fun i => s.byte (a + i)))) ∧
  (∀ (s : State) (k a : Nat) (va : Word) (pre : List Entry) (bs : List Byte) (tag : Option Bool),
    (s.core k).buffer = pre ++ [.store va a bs tag] → (s.loadBytes k a bs.length).1 = bs) ∧
  (∀ (s s' : State) (k a n : Nat), (s'.core k).view = (((s.loadBytes k a n).2).core k).view → (s'.core k).buffer = (s.core k).buffer →
    (s'.loadBytes k a n).1 = (s.loadBytes k a n).1) ∧
  (∀ (s : State) (k a n : Nat), s.sameMemory (s.loadBytes k a n).2 ∧ ((s.loadBytes k a n).2.core k).buffer = (s.core k).buffer ∧
    ((s.loadBytes k a n).2.core k).vs = (s.core k).vs)

/-- Publication (17 R305, 21 R405, P3): bytes published at an address stand there afterwards, every other byte reads as before, and exactly
the granules touched take the publication's tag; a boundary of a buffer that holds stores alone leaves each byte as the last store of it. -/
def Sys2Proof.Claims.PublicationWritesMemory : Prop :=
  (∀ (s : State) (narrow : Option (Nat × OScope)) (tag : Bool) (a : Nat) (bs : List Byte), s.memOk →
    let t := s.publish narrow tag a bs
    t.memOk ∧ (∀ x, t.byte x = if a ≤ x ∧ x < a + bs.length then bs.getD (x - a) 0 else s.byte x) ∧
    (∀ g, t.tagAt g = if 0 < bs.length ∧ a < 16 * g + 16 ∧ 16 * g < a + bs.length then tag else s.tagAt g)) ∧
  (∀ (s t : State) (k : Nat), s.memOk → (s.core k).hq = [] → (s.core k).light = [] →
    (∀ e ∈ (s.core k).buffer, ∃ va pa bs tag, e = .store va pa bs tag) → s.boundary k none = some t →
    ∀ x, [t.byte x] = overlay (s.core k).buffer x [s.byte x])

/-! ### The local store, rings, control words (17 R308-R310, R319-R322) -/

/-- The report of an access of n bytes at offset a of a local store of 262,144 bytes (17 R309). -/
def Sys2Proof.Claims.reported (c : Csrs) (a n : Nat) : Csrs :=
  if a + n ≤ 262144 then c
  else { c with lsstat := c.lsstat ||| 1, lsbad := if c.lsstat.getLsbD 0 then c.lsbad else BitVec.ofNat 64 (max a 262144) }

/-- The local store after bytes are written at offset a (17 R308-R309, 05 R104). -/
def Sys2Proof.Claims.lsWritten (r t : VState) (a : Nat) (bs : List Byte) : Prop :=
  t = { r with ls := t.ls, lsdirty := t.lsdirty, csr := Sys2Proof.Claims.reported r.csr a bs.length } ∧
  (Table.wf 0 r.ls = true → ∀ x, x < 262144 → Table.get 0 t.ls x = if a ≤ x ∧ x < a + bs.length then bs.getD (x - a) 0 else Table.get 0 r.ls x) ∧
  (∀ j, j < 64 → (t.lsdirty.getLsbD j = true ↔ r.lsdirty.getLsbD j = true ∨
    ∃ x, a ≤ x ∧ x < a + bs.length ∧ x < 262144 ∧ x / 4096 = j))

/-- LSLD, LSST, LSLDV and LSSTV (17 R308-R309): checked as a load or store with PL in place of PG, x0 standing for the core's own store;
bytes beyond the store read as zero and are dropped, with the report; a write takes effect at once and marks its regions. Memory does not
change. -/
def Obligations.LocalStoreAccess : Prop :=
  ∀ (s s1 : State) (m : Word),
    let own (o : Opnd) : XReg := if o = .x 0 then capFor 0 (2 ^ 20) 0b10011 else s.cap s.cur o
    let r := (s.core s.cur).vs
    let held (a n : Nat) : List Byte := (List.range n).map (fun i => if a + i < 262144 then Table.get 0 r.ls (a + i) else 0)
    let read (a n : Nat) : State := s1.setCore s.cur { s1.core s.cur with vs := { r with csr := Sys2Proof.Claims.reported r.csr a n } }
    (∀ f : FM,
      let a := BitVec.ofInt 64 ((own f.a).addr.toNat + Sys2Proof.Claims.wide s f.off)
      let w := f.width.bytes
      (s.Clear s.cur f.sp true false [] [f.d] m s1 → match Sys2Proof.Claims.accessFault (own f.a) [0, 4] a w w with
        | some x => exec (.lsld f) s = .next (s.faults x a .read)
        | none =>
          let n := ofBytes (held a.toNat w)
          let v : Nat := if f.ext = true ∧ 2 ^ (8 * w - 1) ≤ n then n + 2 ^ 64 - 2 ^ (8 * w) else n
          ∀ t, (read a.toNat w).put s.cur f.d (BitVec.ofNat 64 v) = .ok t → exec (.lsld f) s = .next (s.after t f.sp m)) ∧
      (s.Clear s.cur f.sp true false [f.d] [] m s1 → match Sys2Proof.Claims.accessFault (own f.a) [1, 4] a w w with
        | some x => exec (.lsst f) s = .next (s.faults x a .read)
        | none => ∀ v s2, s1.storeData s.cur f.d = .ok (v, s2) →
          ∃ vs, exec (.lsst f) s = .next (s.after (s2.setCore s.cur { s2.core s.cur with vs }) f.sp m) ∧
            Sys2Proof.Claims.lsWritten (s2.core s.cur).vs vs a.toNat ((List.range w).map (fun i => BitVec.ofNat 8 (v.toNat / 2 ^ (8 * i)))))) ∧
    (∀ f : FML,
      let a := BitVec.ofInt 64 ((own f.a).addr.toNat + Sys2Proof.Claims.wide s f.off)
      (s.Clear s.cur f.sp true false [] [f.d] m s1 → match Sys2Proof.Claims.accessFault (own f.a) [0, 4] a 128 8 with
        | some x => exec (.lsldv f) s = .next (s.faults x a .read)
        | none => ∀ t, (read a.toNat 128).loadVec s.cur f.d (BitVec.ofNat 1024 (ofBytes (held a.toNat 128))) = .ok t →
          exec (.lsldv f) s = .next (s.after t f.sp m)) ∧
      (s.Clear s.cur f.sp true false [f.d] [] m s1 → match Sys2Proof.Claims.accessFault (own f.a) [1, 4] a 128 8 with
        | some x => exec (.lsstv f) s = .next (s.faults x a .read)
        | none => ∀ v s2, s1.storeData s.cur f.d = .ok (v, s2) →
          ∃ vs, exec (.lsstv f) s = .next (s.after (s2.setCore s.cur { s2.core s.cur with vs }) f.sp m) ∧
            Sys2Proof.Claims.lsWritten (s2.core s.cur).vs vs a.toNat ((List.range 128).map (fun i => BitVec.ofNat 8 (v.toNat / 2 ^ (8 * i))))))

/-- MCST, CBINIT, CBADVP, CBADVC and CBCNT (17 R319-R321): MCST's checks in order, then one entry with the vector; CBINIT refuses a geometry
that breaks its table, else sets both pointers to zero and clears the mark map; the advances wait for slots, then move one pointer; CBCNT
counts filled and free slots. -/
def Sys2Proof.Claims.McstAndRings : Prop :=
  ∀ (f : FR) (s s1 : State) (m : Word),
    let r := (s.core s.cur).vs
    (∀ b : Fin 32, f.b = .v b → s.Clear s.cur f.sp true false [] [] m s1 →
      let c := s.cap s.cur f.a
      let a := c.addr.toNat
      let spec := a % 2 ^ 16
      let lw := spec % 8
      let lh := spec / 8 % 8
      let x := spec / 64 % 32
      let y := spec / 2048
      let g := (s.core s.cur).gshape.toNat
      match Sys2Proof.Claims.targetFault s c false with
      | some x => exec (.mcst f) s = .next (s.faults x c.addr .read)
      | none =>
        if ¬((s.core s.cur).svc = false ∧ lw ≤ 5 ∧ lh ≤ 5 ∧ x % 2 ^ lw = 0 ∧ y % 2 ^ lh = 0 ∧ x + 2 ^ lw ≤ 2 ^ (g % 8) ∧
            y + 2 ^ lh ≤ 2 ^ (g / 16 % 8)) then exec (.mcst f) s = .next (s.faults .capBounds c.addr .read)
        else if a / 2 ^ 32 % 2 ^ 18 % 8 ≠ 0 then exec (.mcst f) s = .next (s.faults .align (BitVec.ofNat 64 (a / 2 ^ 32 % 2 ^ 18)) .read)
        else ∀ t, s1.enter s.cur [.mcst (BitVec.ofNat 16 spec) (a / 2 ^ 32 % 2 ^ 18) (r.getV b.val) (a / 2 ^ 50 % 64)] = .ok t →
          exec (.mcst f) s = .next (s.after t f.sp m)) ∧
    (∀ (h : Fin 16) (n : Fin 32), f.d = .ring h n →
      (∀ base geo s2 s3, s.Clear s.cur f.sp true false [f.a, f.b] [] m s1 → s1.src s.cur f.a = .ok (base, s2) → s2.src s.cur f.b = .ok (geo, s3) →
        let slots := geo.toNat % 512
        let lsz := geo.toNat / 4096
        if slots ∈ [2, 4, 8, 16, 32, 64, 128, 256] ∧ geo.toNat / 512 % 8 = 0 ∧ (lsz = 3 ∨ lsz = 7) ∧ base.toNat % 2 ^ lsz = 0 ∧
            base.toNat + slots * 2 ^ lsz + (slots + 7) / 8 ≤ 262144 then
          ∃ vs, exec (.cbinit f) s = .next (s.after (s3.setCore s.cur { s3.core s.cur with vs }) f.sp m) ∧
            vs = { (s3.core s.cur).vs with ls := vs.ls, lsdirty := vs.lsdirty, h := vs.h } ∧
            Table.find? vs.h h.val = some { base := base.toNat, n := slots, lsz, p := 0, c := 0, p0 := 0, c0 := 0 } ∧
            (Table.wf 0 (s3.core s.cur).vs.ls = true → ∀ x, Table.get 0 vs.ls x =
              if base.toNat + slots * 2 ^ lsz ≤ x ∧ x < base.toNat + slots * 2 ^ lsz + (slots + 7) / 8 then 0
              else Table.get 0 (s3.core s.cur).vs.ls x)
        else exec (.cbinit f) s = .next (s.faults .capBounds base .read)) ∧
      (s.Clear s.cur f.sp true false [] [] m s1 → match Table.find? r.h h.val with
        | none => exec (.cbadvp f) s = .next (s.faults .capTag 0 .read) ∧ exec (.cbadvc f) s = .next (s.faults .capTag 0 .read)
        | some g =>
          let c := if n.val = 0 then 32 else n.val
          let moved (g : Ring) : State := s1.setCore s.cur { s1.core s.cur with vs := { r with h := Table.insert r.h h.val g } }
          if g.n < c then
            exec (.cbadvp f) s = .next (s.faults .capBounds 0 .read) ∧ exec (.cbadvc f) s = .next (s.faults .capBounds 0 .read)
          else
            (c ≤ g.n - (g.p - g.c0).toNat →
              exec (.cbadvp f) s = .next (s.after (moved { g with p := g.p + BitVec.ofNat 32 c }) f.sp m)) ∧
            (g.n - (g.p - g.c0).toNat < c → ∃ t, exec (.cbadvp f) s = .next t ∧ (t.core s.cur).run = .waiting .handle false) ∧
            (c ≤ (g.p - g.c).toNat →
              exec (.cbadvc f) s = .next (s.after (moved { g with c := g.c + BitVec.ofNat 32 c }) f.sp m)) ∧
            ((g.p - g.c).toNat < c → ∃ t, exec (.cbadvc f) s = .next t ∧ (t.core s.cur).run = .waiting .handle false))) ∧
    (∀ (h : Fin 16) (n : Fin 32), f.a = .ring h n → s.Clear s.cur f.sp true false [] [f.d] m s1 → match Table.find? r.h h.val with
      | none => exec (.cbcnt f) s = .next (s.faults .capTag 0 .read)
      | some g => 2 ≤ g.n → g.n ≤ 256 → (g.p - g.c).toNat ≤ g.n → ∀ t,
        s1.put s.cur f.d (BitVec.ofNat 64 ((g.p - g.c).toNat + 2 ^ 16 * (g.n - (g.p - g.c0).toNat) + 2 ^ 32 * (g.n - 1) + 2 ^ 41 * g.lsz)) =
          .ok t → exec (.cbcnt f) s = .next (s.after t f.sp m))

/-- What stands at a source of control words: how many units, whether the head is a control word, whether it is a vector, the head's first
doubleword, and the state once the head has been dequeued (17 R322, R321, 03 R58-R61). -/
def Sys2Proof.Claims.headAt (s : State) (k : Nat) (o : Opnd) : Nat × Bool × Bool × Word × State := match o with
  | .port i =>
    if i.val = 0 then
      let u := (s.core k).ibNow
      (u.length, (u.head?.map IbUnit.ctl).getD false, false, (u.head?.map IbUnit.data).getD 0, s.setCore k ((s.core k).popIb 1))
    else
      let u := (s.core k).units i.val
      (u.length, (u.head?.map Machine.PUnit.ctl).getD false, (u.head?.map Machine.PUnit.wide).getD false,
        (u.head?.map (fun u => (u.data.setWidth 64 : Word))).getD 0, s.setCore k ((s.core k).popUnit i.val))
  | .ring h _ => match Table.find? (s.core k).vs.h h.val with
    | some g =>
      let r := (s.core k).vs
      let n := (g.p - g.c).toNat
      let ctl := decide (0 < n) && r.marked g g.c
      (n, ctl, decide (0 < n) && !ctl && decide (g.lsz = 7), r.slotWord g g.c,
        s.setCore k { s.core k with vs := { r with h := Table.insert r.h h.val { g with c := g.c + 1 } } })
    | none => (0, false, false, 0, s)
  | _ => (0, false, false, 0, s)

/-- Whether a source can be named: a port, IB, or a handle that CBINIT has set and whose slots the count does not exceed (03 R54). -/
def Sys2Proof.Claims.sourceOk (s : State) (k : Nat) (o : Opnd) : Prop := match o with
  | .port _ => True
  | .ring h c => ∃ g, Table.find? (s.core k).vs.h h.val = some g ∧ (if c.val = 0 then 32 else c.val) ≤ g.n
  | _ => False

/-- QCTL, QTEST and QDRAIN (17 R322, 03 R65): a control word is sent where its kind is known, else STREAM; a test puts what stands at the
source and dequeues nothing; a drain discards units one by one, then takes the control word. -/
def Sys2Proof.Claims.ControlWords : Prop :=
  ∀ (f : FR) (s s1 : State) (m : Word),
    let known (w : Word) : Prop := w.toNat / 2 ^ 56 = 1 ∨ 128 ≤ w.toNat / 2 ^ 56
    (∀ (i : Fin 8) (w : Word) (s2 : State), f.d = .port i → s.Clear s.cur f.sp true false [f.a] [] m s1 → s1.src s.cur f.a = .ok (w, s2) →
      (¬known w → exec (.qctl f) s = .next (s.faults .stream 0 .read)) ∧
      (∀ t, known w → s2.sendUnit s.cur i.val { data := BitVec.ofNat 1024 w.toNat, wide := false, ctl := true } = .ok t →
        exec (.qctl f) s = .next (s.after t f.sp m))) ∧
    (∀ (h : Fin 16) (n : Fin 32) (w : Word) (s2 : State) (g : Ring), f.d = .ring h n → s.Clear s.cur f.sp true false [f.a] [] m s1 →
      s1.src s.cur f.a = .ok (w, s2) → Table.find? (s2.core s.cur).vs.h h.val = some g → (if n.val = 0 then 32 else n.val) ≤ g.n →
      (¬known w → exec (.qctl f) s = .next (s.faults .stream 0 .read)) ∧
      (∀ t, known w → s2.writeRing s.cur h.val (if n.val = 0 then 32 else n.val)
          ((List.range (2 ^ g.lsz)).map (fun i => BitVec.ofNat 8 (w.toNat / 2 ^ (8 * i)))) true = .ok t →
        exec (.qctl f) s = .next (s.after t f.sp m))) ∧
    (s.Clear s.cur f.sp true false [] [f.d] m s1 → Sys2Proof.Claims.sourceOk s1 s.cur f.a →
      let (n, ctl, wide, _, _) := Sys2Proof.Claims.headAt s1 s.cur f.a
      let v := (if n = 0 then 0 else 1) + (if ctl then 2 else 0) + (if wide then 4 else 0) + 256 * min n 255
      ∀ t, (s1.setCore s.cur { s1.core s.cur with stream := f.a }).put s.cur f.d (BitVec.ofNat 64 v) = .ok t →
        exec (.qtest f) s = .next (s.after t f.sp m)) ∧
    (s.Clear s.cur f.sp true false [] [] m s1 → Sys2Proof.Claims.sourceOk s1 s.cur f.a →
      let (n, ctl, _, w, s2) := Sys2Proof.Claims.headAt (s1.setCore s.cur { s1.core s.cur with stream := f.a }) s.cur f.a
      (n = 0 → ∃ t wt, exec (.qdrain f) s = .next t ∧ (t.core s.cur).run = .waiting wt false) ∧
      (0 < n → ctl = false → exec (.qdrain f) s = .next s2) ∧
      (0 < n → ctl = true → known w → (f.sp = false ∨ ((s2.core s.cur).lq = [] ∧ (s2.core s.cur).sq = [])) →
        exec (.qdrain f) s = .next (s.after ((s2.setCap s.cur f.d ⟨w.setWidth 128, false⟩).modVs s.cur
          (fun r => Sys2Proof.Claims.shifted r w)) f.sp m)) ∧
      (0 < n → ctl = true → ¬known w → exec (.qdrain f) s = .next (s.faults .stream 0 .read)))

/-! ### Atomics and remote operations (17 R323-R325) -/

/-- The new value of an atomic on w-byte values (17 R324); the floating-point ones are the operations of 04 R91. -/
def Sys2Proof.Claims.atomics : List ((FA → Instr) × AtomOp × (Nat → Nat → Nat → Nat → Nat)) :=
  let sg (w n : Nat) : Int := if n < 2 ^ (8 * w - 1) then n else (n : Int) - 2 ^ (8 * w)
  let fmt (w : Nat) : Fmt := if w = 4 then .f32 else .f64
  [(.aadd, .add, fun w a b _ => (a + b) % 2 ^ (8 * w)), (.aand, .and, fun _ a b _ => a &&& b), (.aor, .or, fun _ a b _ => a ||| b),
   (.axor, .xor, fun _ a b _ => a ^^^ b), (.amin, .min, fun w a b _ => if sg w a ≤ sg w b then a else b),
   (.amax, .max, fun w a b _ => if sg w b ≤ sg w a then a else b), (.aminu, .minu, fun _ a b _ => if a ≤ b then a else b),
   (.amaxu, .maxu, fun _ a b _ => if b ≤ a then a else b), (.aswp, .swp, fun _ _ b _ => b),
   (.acas, .cas, fun _ a b c => if a = c then b else a), (.afadd, .fadd, fun w a b _ => (fadd (fmt w) .rne false a b).1),
   (.afmin, .fmin, fun w a b _ => (fminmax (fmt w) false a b).1), (.afmax, .fmax, fun w a b _ => (fminmax (fmt w) true a b).1)]

/-- The global atomics (17 R324): checked for reading and writing, then aligned; a posted form takes one entry; a value-returning form makes
a boundary, replaces the w bytes by the new value, clearing the granule's tag, and puts the old value zero-extended. Changing memory
commits the firing early. -/
def Sys2Proof.Claims.GlobalAtomics : Prop :=
  (∀ p ∈ Sys2Proof.Claims.atomics, ∀ (f : FA) (s s1 s2 s3 : State) (m b c : Word), s.Clear s.cur f.sp true false [f.b, f.c] [f.d] m s1 →
    s1.src s.cur f.b = .ok (b, s2) → s2.src s.cur f.c = .ok (c, s3) →
    let x := s.cap s.cur f.a
    let w := if f.dbl then 8 else 4
    match Sys2Proof.Claims.accessFault x [0, 1, 5] x.addr w w with
    | some e => exec (p.1 f) s = .next (s.faults e x.addr .write)
    | none => ∀ pa s5, s3.translate s.cur .write x.addr = .ok (pa, s5) →
      (∀ t, f.post = true → s5.enterOrdered s.cur [.atomic x.addr pa w p.2.1 b c] = .ok t → exec (p.1 f) s = .next (s.after t f.sp m)) ∧
      (∀ s6 s8 s9, f.post = false → s5.boundary s.cur (s5.core s.cur).scope = some s6 → s6.isHeld s.cur [.atomic x.addr pa w p.2.1 b c] = false →
        let old := ofBytes (s6.bytes pa w)
        let new := p.2.2 w old (b.toNat % 2 ^ (8 * w)) (c.toNat % 2 ^ (8 * w))
        let narrow := match (s6.core s.cur).scope with
          | some .clu => some (s.cur, OScope.clu)
          | some .die => some (s.cur, OScope.die)
          | _ => none
        let s7 := s6.publish narrow false pa ((List.range w).map (fun i => BitVec.ofNat 8 (new / 2 ^ (8 * i))))
        (if new = old then s7 else s7.setCore s.cur { s7.core s.cur with committed := true }).put s.cur f.d (BitVec.ofNat 64 old) = .ok s8 →
        s8.trail s.cur = .ok s9 → exec (p.1 f) s = .next (s.after s9 f.sp m))) ∧
  (∀ p ∈ Sys2Proof.Claims.atomics, ∀ (s : State) (k : Nat) (va : Word) (pa w : Nat) (b c : Word), w = 4 ∨ w = 8 →
    s.applyEntry k none (.atomic va pa w p.2.1 b c) = s.publish none false pa ((List.range w).map (fun i => BitVec.ofNat 8
      (p.2.2 w (ofBytes (s.bytes pa w)) (b.toNat % 2 ^ (8 * w)) (c.toNat % 2 ^ (8 * w)) / 2 ^ (8 * i)))))

/-- RPUT, RADD, RGET and RCAS (17 R325): the target's checks, then the offset's alignment; the posted forms take one entry; the others make
a boundary, send their request and wait for its reply; an owner on a lost package raises PEER_LOST. -/
def Sys2Proof.Claims.RemoteOperations : Prop :=
  ∀ (f : FA) (s s1 s2 : State) (m b : Word),
    let c := s.cap s.cur f.a
    let w := if f.dbl then 8 else 4
    let off := c.addr.toNat / 2 ^ 32 % 2 ^ 18
    (∀ p ∈ ([(.rput, .put), (.radd, .add)] : List ((FA → Instr) × RemOp)), s.Clear s.cur f.sp true false [f.b] [] m s1 →
      s1.src s.cur f.b = .ok (b, s2) →
      (∀ x, Sys2Proof.Claims.targetFault s c true = some x → exec (p.1 f) s = .next (s.faults x c.addr .read)) ∧
      (Sys2Proof.Claims.targetFault s c true = none → off % w ≠ 0 → exec (p.1 f) s = .next (s.faults .align (BitVec.ofNat 64 off) .read)) ∧
      (Sys2Proof.Claims.targetFault s c true = none → off % w = 0 → ∀ l t, (s.core s.cur).sendLaunch = some l →
        s2.enterOrdered s.cur [.remote (Sys2Proof.Claims.targetCore c l) p.2 off w b 0] = .ok t → exec (p.1 f) s = .next (s.after t f.sp m))) ∧
    (∀ p ∈ ([(.rget, .get), (.rcas, .cas)] : List ((FA → Instr) × RemOp)), ∀ (s3 : State) (x : Word),
      s.Clear s.cur f.sp true false [f.b, f.c] [f.d] m s1 → s1.src s.cur f.b = .ok (b, s2) → s2.src s.cur f.c = .ok (x, s3) →
      (∀ y, Sys2Proof.Claims.targetFault s c true = some y → exec (p.1 f) s = .next (s.faults y c.addr .read)) ∧
      (Sys2Proof.Claims.targetFault s c true = none → off % w ≠ 0 → exec (p.1 f) s = .next (s.faults .align (BitVec.ofNat 64 off) .read)) ∧
      (Sys2Proof.Claims.targetFault s c true = none → off % w = 0 → ∀ l, (s.core s.cur).sendLaunch = some l →
        (∀ q, s3.ownerLost s.cur (Sys2Proof.Claims.targetCore c l) = some q →
          exec (p.1 f) s = .next (s.faults .peerLost (BitVec.ofNat 64 q) .read)) ∧
        (s3.ownerLost s.cur (Sys2Proof.Claims.targetCore c l) = none → ∀ s4, s3.boundary s.cur (s3.core s.cur).scope = some s4 →
          let s5 := s4.sendBody s.cur (s4.ctxOf s.cur) (Sys2Proof.Claims.targetCore c l) (.remote p.2 off w b x (some s.cur))
          exec (p.1 f) s = .next (s5.setCore s.cur { s5.core s.cur with run := .waiting (.remote f.d none) f.sp, waitFrom := s5.cycle, mask := m }))))

/-! ### Vector instructions (18 R326-R346, 04 R70-R88) -/

/-- Whether lane i of width w takes part: with .M its bit of y0 must be set, one bit governing two 16-bit or four 8-bit lanes (03 R51). -/
def Sys2Proof.Claims.takesPart (s : State) (m : Bool) (w i : Nat) : Prop :=
  m = true → ((s.core s.cur).vs.getY 0).getLsbD (if w = 16 then i / 2 else if w = 8 then i / 4 else i) = true

/-- A vector instruction with the V sources `vs` may take its effect in state s1: the handles it names are set and wide enough, it is clear
to run, and under .S the streamed sources have been named and no control word heads one of them (18 R329-R330). -/
def Sys2Proof.Claims.vectorStarts (s s1 : State) (f : FV) (vs : List Opnd) (m : Word) : Prop :=
  (s1.core s.cur).vs.ringFault (vs ++ [f.d]) = none ∧
  if f.md.s then
    (s.core s.cur).queuesBad false [f.a, f.b] [f.d] = false ∧ (s.core s.cur).placement f.sp true = none ∧
    ∃ s0, s.maskOf s.cur f.sp none = .ok (m, s0) ∧
      s1 = (vs.filter Opnd.streamed).foldl (fun t o => t.setCore s.cur { (t.core s.cur) with stream := o }) s0 ∧
      s1.streamEnds s.cur (vs.filter Opnd.streamed) = .ok false
  else s.Clear s.cur f.sp true false [f.a, f.b] [f.d] m s1

/-- What it leaves once its effect is made in t. Under .S the word stays for its next element; with SP, a request that is pending there is
taken between the two, at the word's own address (18 R330). -/
def Sys2Proof.Claims.vectorLeaves (s t : State) (f : FV) (m : Word) : State :=
  if f.md.s then
    if f.sp = true ∧ (t.core s.cur).lq = [] ∧ (t.core s.cur).sq = [] ∧ t.mustStop s.cur = true then
      t.safePoint s.cur m (s.core s.cur).unitAt false
    else t
  else s.after t f.sp m

/-- The value of a lane of w bits. -/
def Sys2Proof.Claims.lane (u : Bool) (w x : Nat) : Int := if u then x else (BitVec.ofNat w x).toInt
/-- An exact integer in a lane of w bits: mod 2^w, or clamped under .SAT (18 R332). -/
def Sys2Proof.Claims.laneOf (sat u : Bool) (w : Nat) (x : Int) : Nat :=
  let lo : Int := if u then 0 else -2 ^ (w - 1)
  let hi : Int := if u then 2 ^ w - 1 else 2 ^ (w - 1) - 1
  ((if sat then max lo (min x hi) else x) % 2 ^ w).toNat

/-- The instructions that work lane by lane on two sources, with the result of a lane and the bits of FSTAT that it raises; `none` where the
TYPE is not one that the instruction accepts (18 R326, R332, R335-R337). -/
def Sys2Proof.Claims.twoLanes : List ((FV → Instr) × (VMod → Nat → Nat → Option (Nat × Sticky))) :=
  let int (op : Nat → Int → Int → Int) (d : VMod) (a b : Nat) : Option (Nat × Sticky) :=
    let u := d.xmod.getLsbD 0
    some (Sys2Proof.Claims.laneOf d.sat u d.ty.width (op d.ty.width (Sys2Proof.Claims.lane u d.ty.width a) (Sys2Proof.Claims.lane u d.ty.width b)), 0)
  let bits (op : Nat → Nat → Nat → Nat) (d : VMod) (a b : Nat) : Option (Nat × Sticky) := some (op d.ty.width a b, 0)
  let float (op : Fmt → VMod → Nat → Nat → Nat × Sticky) (d : VMod) (a b : Nat) : Option (Nat × Sticky) :=
    (Fmt.ofVTy d.ty).map (fun t => op t d a b)
  [(.vadd, int fun _ a b => a + b),
   (.vsub, int fun _ a b => a - b),
   (.vmul, int fun _ a b => a * b),
   (.vmulh, int fun w a b => a * b / 2 ^ w),
   (.vmin, int fun _ a b => min a b),
   (.vmax, int fun _ a b => max a b),
   (.vand, bits fun _ a b => a &&& b),
   (.vor, bits fun _ a b => a ||| b),
   (.vxor, bits fun _ a b => a ^^^ b),
   (.vshl, bits fun w a b => a * 2 ^ (b % w) % 2 ^ w),
   (.vshr, bits fun w a b => a / 2 ^ (b % w)),
   (.vshra, bits fun w a b => (Sys2Proof.Claims.lane false w a / 2 ^ (b % w) % 2 ^ w).toNat),
   (.vcmpeq, bits fun w a b => if a = b then 2 ^ w - 1 else 0),
   (.vcmplt, fun d a b => some (if Sys2Proof.Claims.lane (d.xmod.getLsbD 0) d.ty.width a < Sys2Proof.Claims.lane (d.xmod.getLsbD 0) d.ty.width b
      then 2 ^ d.ty.width - 1 else 0, 0)),
   (.vfadd, float fun t d => fadd t d.rm d.sat),
   (.vfsub, float fun t d => fsub t d.rm d.sat),
   (.vfmul, float fun t d => fmul t d.rm d.sat),
   (.vfdiv, float fun t d => fdiv t d.rm d.sat),
   (.vfmin, float fun t _ => fminmax t false),
   (.vfmax, float fun t _ => fminmax t true),
   (.vfcmp, float fun t d a b => (if (fcmp t (d.xmod.toNat % 8) a b).1 then 2 ^ d.ty.width - 1 else 0, (fcmp t (d.xmod.toNat % 8) a b).2))]

/-- Two-source lane forms: both sources are read in field order, each lane that takes part gives the result of its own two lanes, VPut
writes those lanes alone, and FSTAT gathers what they raise (18 R328-R332, R335-R337). -/
def Obligations.VectorTwoSourceLanes : Prop :=
  ∀ p ∈ Sys2Proof.Claims.twoLanes, ∀ (f : FV) (s s1 s2 s3 s4 : State) (m : Word) (a b r : Vec) (g : Sticky),
    let w := f.md.ty.width
    Sys2Proof.Claims.vectorStarts s s1 f [f.a, f.b] m → s1.vsrc s.cur w f.a = .ok (a, s2) → s2.vsrc s.cur w f.b = .ok (b, s3) →
    (∀ i, i < 1024 / w → Sys2Proof.Claims.takesPart s f.md.m w i →
      (p.2 f.md (laneAt a w i) (laneAt b w i)).map Prod.fst = some (laneAt r w i)) →
    (∀ j, g.getLsbD j = true ↔ ∃ i, i < 1024 / w ∧ Sys2Proof.Claims.takesPart s f.md.m w i ∧
      ∃ x, p.2 f.md (laneAt a w i) (laneAt b w i) = some x ∧ x.2.getLsbD j = true) →
    s3.vput s.cur f.d w f.md.m r = .ok s4 →
    exec (p.1 f) s = .next (Sys2Proof.Claims.vectorLeaves s (s4.raise s.cur g) f m)

/-- The instructions that work lane by lane on one source. -/
def Sys2Proof.Claims.oneLane : List ((FV → Instr) × (VMod → Nat → Option (Nat × Sticky))) :=
  let float (op : Fmt → VMod → Nat → Nat × Sticky) (d : VMod) (a : Nat) : Option (Nat × Sticky) := (Fmt.ofVTy d.ty).map (fun t => op t d a)
  [(.vabs, fun d a => some (Sys2Proof.Claims.laneOf d.sat false d.ty.width (Sys2Proof.Claims.lane false d.ty.width a).natAbs, 0)),
   (.vfsqrt, float fun t d => fsqrt t d.rm d.sat),
   (.vfrsq, fun d a => if d.ty = .f32 then some (frsq d.sat a) else none),
   (.vfrcp, fun d a => if d.ty = .f32 then some (frcp d.sat a) else none),
   (.vfabs, float fun t _ => fsign t false),
   (.vfneg, float fun t _ => fsign t true),
   (.vfclass, float fun t _ a => (fclass t a, 0))]

/-- One-source lane forms, VFMA and VFNMA (which also read D, last, and put one rounded result), VSEL (every lane written, chosen by y0) and
VDOT4 (32-bit lanes of four byte products, each with its own y0 bit), as 18 R332-R336 give them. -/
def Obligations.VectorLaneForms : Prop :=
  ∀ (f : FV) (s s1 s2 : State) (m : Word) (a r : Vec) (g : Sticky),
    let w := f.md.ty.width
    let k := s.cur
    let part := Sys2Proof.Claims.takesPart s f.md.m
    let done (i : Instr) (t : State) : Prop := exec i s = .next (Sys2Proof.Claims.vectorLeaves s t f m)
    (∀ p ∈ Sys2Proof.Claims.oneLane, Sys2Proof.Claims.vectorStarts s s1 f [f.a] m → s1.vsrc k w f.a = .ok (a, s2) →
      (∀ i, i < 1024 / w → part w i → (p.2 f.md (laneAt a w i)).map Prod.fst = some (laneAt r w i)) →
      (∀ j, g.getLsbD j = true ↔ ∃ i, i < 1024 / w ∧ part w i ∧ ∃ x, p.2 f.md (laneAt a w i) = some x ∧ x.2.getLsbD j = true) →
      ∀ s3, s2.vput k f.d w f.md.m r = .ok s3 → done (p.1 f) (s3.raise k g)) ∧
    (∀ (b : Vec) (s3 : State), Sys2Proof.Claims.vectorStarts s s1 f [f.a, f.b] m → s1.vsrc k w f.a = .ok (a, s2) →
      s2.vsrc k w f.b = .ok (b, s3) →
      (∀ (neg : Bool) (t : Fmt) (d : Vec) (s4 s5 : State), Fmt.ofVTy f.md.ty = some t → s3.vsrc k w f.d = .ok (d, s4) →
        let x (i : Nat) := ffma t f.md.rm f.md.sat neg (laneAt a w i) (laneAt b w i) (laneAt d w i)
        (∀ i, i < 1024 / w → part w i → laneAt r w i = (x i).1) →
        (∀ j, g.getLsbD j = true ↔ ∃ i, i < 1024 / w ∧ part w i ∧ (x i).2.getLsbD j = true) →
        s4.vput k f.d w f.md.m r = .ok s5 → done (if neg then .vfnma f else .vfma f) (s5.raise k g)) ∧
      (∀ s4, (∀ i, i < 1024 / w → laneAt r w i = laneAt (if ((s.core k).vs.getY 0).getLsbD
            (if w = 16 then i / 2 else if w = 8 then i / 4 else i) then a else b) w i) →
        s3.vput k f.d w false r = .ok s4 → done (.vsel f) s4)) ∧
    (∀ (b d : Vec) (s3 s4 s5 : State), Sys2Proof.Claims.vectorStarts s s1 f [f.a, f.b] m → s1.vsrc k 8 f.a = .ok (a, s2) →
      s2.vsrc k 8 f.b = .ok (b, s3) → s3.vsrc k 32 f.d = .ok (d, s4) →
      (let u := f.md.xmod.getLsbD 0
       let term (i j : Nat) : Int := Sys2Proof.Claims.lane u 8 (laneAt a 8 (4 * i + j)) * Sys2Proof.Claims.lane u 8 (laneAt b 8 (4 * i + j))
       ∀ i, i < 32 → part 32 i → laneAt r 32 i =
        Sys2Proof.Claims.laneOf f.md.sat u 32 (Sys2Proof.Claims.lane u 32 (laneAt d 32 i) + term i 0 + term i 1 + term i 2 + term i 3)) →
      s4.vput k f.d 32 f.md.m r = .ok s5 → done (.vdot4 f) s5)

/-- VSPLAT, VMOVX, VINS, the permutations VPERM, VROT and VBCAST, VPACK and VUNPK, VCMPR and VEXPD, VLANEM and VCVT (18 R334, R340-R346): which
lane, of which source, each lane of the result is; .SAT bears on a conversion to a type that is not wider (04 R82). -/
def Obligations.VectorMovesAndConversions : Prop :=
  ∀ (f : FV) (s s1 s2 : State) (m : Word) (r : Vec),
    let w := f.md.ty.width
    let n := 1024 / w
    let k := s.cur
    let part := Sys2Proof.Claims.takesPart s
    let done (i : Instr) (t : State) : Prop := exec i s = .next (Sys2Proof.Claims.vectorLeaves s t f m)
    (∀ (x : Word), Sys2Proof.Claims.vectorStarts s s1 f [] m → s1.src k f.a = .ok (x, s2) →
      (∀ s3, f.a ≠ .lane → (∀ i, i < n → laneAt r w i = x.toNat % 2 ^ w) → s2.vput k f.d w f.md.m r = .ok s3 → done (.vsplat f) s3) ∧
      (∀ (b : Word) (d : Vec) (s3 s4 s5 : State), s2.src k (s1.issued k f.b) = .ok (b, s3) → s3.vsrc k w f.d = .ok (d, s4) →
        (∀ i, i < n → laneAt r w i = if i = b.toNat % n then x.toNat % 2 ^ w else laneAt d w i) →
        s4.vput k f.d w false r = .ok s5 → done (.vins f) s5)) ∧
    (∀ (a : Vec), Sys2Proof.Claims.vectorStarts s s1 f [f.a] m → s1.vsrc k w f.a = .ok (a, s2) →
      (∀ (b : Word) (s3 : State), s2.src k (s1.issued k f.b) = .ok (b, s3) →
        (∀ s4, s3.put k f.d (BitVec.ofInt 64 (Sys2Proof.Claims.lane (!f.md.xmod.getLsbD 0) w (laneAt a w (b.toNat % n)))) = .ok s4 →
          done (.vmovx f) s4) ∧
        (∀ s4, (∀ i, i < n → laneAt r w i = laneAt a w (((i : Int) + b.toInt) % n).toNat) → s3.vput k f.d w f.md.m r = .ok s4 →
          done (.vrot f) s4) ∧
        (∀ s4, (∀ i, i < n → laneAt r w i = laneAt a w (b.toNat % n)) → s3.vput k f.d w f.md.m r = .ok s4 → done (.vbcast f) s4)) ∧
      (∀ s3, (∀ i, i < 1024 / (2 * w) → laneAt r (2 * w) i = (Sys2Proof.Claims.lane (f.md.xmod.getLsbD 0) w
          (laneAt a w (if f.md.xmod.getLsbD 1 then i + 1024 / (2 * w) else i)) % 2 ^ (2 * w)).toNat) → w ≤ 32 →
        s2.vput k f.d (2 * w) f.md.m r = .ok s3 → done (.vunpk f) s3) ∧
      (let kept := (List.range n).filter (fun i => ((s.core k).vs.getY 0).getLsbD (if w = 16 then i / 2 else if w = 8 then i / 4 else i))
       (∀ s3, (∀ i, i < n → laneAt r w i = match kept[i]? with | some j => laneAt a w j | none => 0) →
        s2.vput k f.d w false r = .ok s3 → done (.vcmpr f) s3) ∧
       (∀ s3, (∀ i, i < n → laneAt r w i = match kept.idxOf? i with | some j => laneAt a w j | none => 0) →
        s2.vput k f.d w false r = .ok s3 → done (.vexpd f) s3)) ∧
      (∀ (x : Word) (s3 : State), (∀ b, b < 64 → (x.getLsbD b = true ↔
          ∃ i, i < n ∧ laneAt a w i ≠ 0 ∧ b = (if w = 16 then i / 2 else if w = 8 then i / 4 else i))) →
        s2.put k f.d x = .ok s3 → done (.vlanem f) s3)) ∧
    (∀ (a b : Vec) (s3 s4 : State), Sys2Proof.Claims.vectorStarts s s1 f [f.a, f.b] m → s1.vsrc k w f.a = .ok (a, s2) →
      s2.vsrc k w f.b = .ok (b, s3) →
      ((∀ i, i < n → laneAt r w i = laneAt a w (laneAt b w i % n)) → s3.vput k f.d w f.md.m r = .ok s4 → done (.vperm f) s4) ∧
      ((∀ i, i < 2 * n → laneAt r (w / 2) i = Sys2Proof.Claims.laneOf f.md.sat false (w / 2)
          (Sys2Proof.Claims.lane false w (if i < n then laneAt a w i else laneAt b w (i - n)))) → 16 ≤ w →
        s3.vput k f.d (w / 2) f.md.m r = .ok s4 → done (.vpack f) s4)) ∧
    (∀ (a : Vec) (src : VTy) (g : Sticky) (s3 : State), f.md.srcTy = some src → Sys2Proof.Claims.vectorStarts s s1 f [f.a] m →
      s1.vsrc k src.width f.a = .ok (a, s2) →
      (let conv (x : Nat) : Nat × Sticky := match Fmt.ofVTy src, Fmt.ofVTy f.md.ty with
         | some x', some y => cvtFloat y f.md.rm (f.md.sat && decide (w ≤ src.width)) (x'.decode x)
         | some x', none => cvtToInt true w f.md.rm f.md.sat (x'.decode x)
         | none, some y => cvtFromInt y f.md.rm f.md.sat (Sys2Proof.Claims.lane false src.width x)
         | none, none => (Sys2Proof.Claims.laneOf (f.md.sat && decide (w ≤ src.width)) false w (Sys2Proof.Claims.lane false src.width x), 0)
       (∀ i, i < n → part f.md.m w i → laneAt r w i = if i < 1024 / src.width then (conv (laneAt a src.width i)).1 else 0) ∧
       (∀ j, g.getLsbD j = true ↔ ∃ i, i < n ∧ i < 1024 / src.width ∧ part f.md.m w i ∧ (conv (laneAt a src.width i)).2.getLsbD j = true)) →
      s2.vput k f.d w f.md.m r = .ok s3 → done (.vcvt f) (s3.raise k g))

/-- A tree over 2^h lanes from lane i on (04 R87): a lane that takes no part is passed over; a node of two operands gives their
result and raises its bits. -/
def Sys2Proof.Claims.tree (op : Nat → Nat → Nat × Sticky) (x : Nat → Option Nat) : Nat → Nat → Option Nat × Sticky
  | 0, i => (x i, 0)
  | h + 1, i =>
    let a := Sys2Proof.Claims.tree op x h (2 * i)
    let b := Sys2Proof.Claims.tree op x h (2 * i + 1)
    match a.1, b.1 with
    | some y, some z => (some (op y z).1, a.2 ||| b.2 ||| (op y z).2)
    | some y, none => (some y, a.2 ||| b.2)
    | none, z => (z, a.2 ||| b.2)

/-- A value that a tree passed on, as it is delivered (04 R71): a NaN is the canonical one, with NV for a signalling one. -/
def Sys2Proof.Claims.delivered (ty : VTy) (y : Nat) : Nat × Sticky := match Fmt.ofVTy ty with
  | none => (y, 0)
  | some t => match t.decode y with
    | .nan sig => (t.nan, if sig then fNV else 0)
    | _ => (y, 0)

/-- VREDADD, VREDMAX and VREDMIN (18 R342, 04 R87): the pairwise tree over the lanes that take part, its identity where none does, put as a
scalar; VSCANADD writes its lanes: each lane that takes part has the sum of those up to it, or under .EX the sum of the nearest below it that
takes part, in integer types and through the tree of R87 in float types. A NaN that the tree passed on is delivered as the canonical one. -/
def Sys2Proof.Claims.VectorReductionsAndScan : Prop :=
  ∀ (f : FV) (s s1 s2 : State) (m : Word) (a : Vec),
    let ty := f.md.ty
    let w := ty.width
    let n := 1024 / w
    let k := s.cur
    let u := f.md.xmod.getLsbD 0
    Sys2Proof.Claims.vectorStarts s s1 f [f.a] m → s1.vsrc k w f.a = .ok (a, s2) →
    let x (i : Nat) : Option Nat := if f.md.m = true ∧ ((s.core k).vs.getY 0).getLsbD (if w = 16 then i / 2 else if w = 8 then i / 4 else i) = false
      then none else some (laneAt a w i)
    let sum (y z : Nat) : Nat × Sticky := match Fmt.ofVTy ty with
      | some t => fadd t f.md.rm false y z
      | none => ((y + z) % 2 ^ w, 0)
    let pick (mx : Bool) (y z : Nat) : Nat × Sticky := match Fmt.ofVTy ty with
      | some t => fminmax t mx y z
      | none => (if (Sys2Proof.Claims.lane u w y < Sys2Proof.Claims.lane u w z) = (mx = true) then z else y, 0)
    let unit (mx : Option Bool) : Nat := match mx, Fmt.ofVTy ty with
      | none, some _ => 2 ^ (w - 1)
      | none, none => 0
      | some b, some t => t.inf b
      | some true, none => if u then 0 else 2 ^ (w - 1)
      | some false, none => if u then 2 ^ w - 1 else 2 ^ (w - 1) - 1
    let result (un : Bool) (y : Nat) : Word := if (Fmt.ofVTy ty).isSome then BitVec.ofNat 64 y else BitVec.ofInt 64 (Sys2Proof.Claims.lane un w y)
    (∀ p ∈ ([(.vredadd, false, sum, unit none), (.vredmax, u, pick true, unit (some true)), (.vredmin, u, pick false, unit (some false))] :
        List ((FV → Instr) × Bool × (Nat → Nat → Nat × Sticky) × Nat)), ∀ s3,
      let t := Sys2Proof.Claims.tree p.2.2.1 x (Nat.log2 n) 0
      let y := Sys2Proof.Claims.delivered ty (t.1.getD p.2.2.2)
      s2.put k f.d (result p.2.1 y.1) = .ok s3 →
      exec (p.1 f) s = .next (Sys2Proof.Claims.vectorLeaves s (s3.raise k (t.2 ||| y.2)) f m)) ∧
    (∀ (r : Vec) (s3 : State), Fmt.ofVTy ty = none →
      (∀ i, i < n → Sys2Proof.Claims.takesPart s f.md.m w i → laneAt r w i =
        ((List.range (if u then i else i + 1)).map (fun j => (x j).getD 0)).sum % 2 ^ w) →
      s2.vput k f.d w f.md.m r = .ok s3 → exec (.vscanadd f) s = .next (Sys2Proof.Claims.vectorLeaves s s3 f m)) ∧
    (∀ (r : Vec) (g : Sticky) (s3 : State) (t : Fmt), Fmt.ofVTy ty = some t →
      let tree := brentKung sum (Nat.log2 n) ((List.range n).map x)
      let incl (j : Nat) : Option Nat := if (x j).isSome then tree.1.getD j none else none
      let value (i : Nat) : Option Nat := if u then some ((((List.range i).filterMap incl).getLast?).getD (2 ^ (w - 1))) else incl i
      (∀ i y, i < n → (x i).isSome → value i = some y → laneAt r w i = (Sys2Proof.Claims.delivered ty y).1) →
      (∀ j, g.getLsbD j = true ↔ tree.2.getLsbD j = true ∨
        ∃ i y, i < n ∧ (x i).isSome ∧ value i = some y ∧ (Sys2Proof.Claims.delivered ty y).2.getLsbD j = true) →
      s2.vput k f.d w f.md.m r = .ok s3 → exec (.vscanadd f) s = .next (Sys2Proof.Claims.vectorLeaves s (s3.raise k g) f m))

/-- The end of a stream (18 R330): a vector instruction with .S that finds a well-formed control word at the head of a streamed source takes
nothing from any source and goes on to the next word; a malformed one raises STREAM and consumes nothing. -/
def Sys2Proof.Claims.StreamEndsAtControlWord : Prop :=
  ∀ p ∈ Sys2Proof.Claims.twoLanes, ∀ (f : FV) (s s0 : State) (m : Word), f.md.s = true →
    (s0.core s.cur).vs.ringFault [f.a, f.b, f.d] = none →
    (s.core s.cur).queuesBad false [f.a, f.b] [f.d] = false → (s.core s.cur).placement f.sp true = none →
    s.maskOf s.cur f.sp none = .ok (m, s0) →
    let st := [f.a, f.b].filter Opnd.streamed
    let s1 := st.foldl (fun t o => t.setCore s.cur { (t.core s.cur) with stream := o }) s0
    ∀ pre o post, st = pre ++ o :: post → (∀ q ∈ pre, s1.ctlAt s.cur q = false) → s1.ctlAt s.cur o = true →
      let kind := (s1.headAt s.cur o).toNat / 2 ^ 56
      (kind = 1 ∨ 128 ≤ kind → ((f.sp = false ∨ (s.core s.cur).lq = [] ∧ (s.core s.cur).sq = []) →
        exec (p.1 f) s = .next (s.after s1 f.sp m))) ∧
      (kind ≠ 1 → kind < 128 → exec (p.1 f) s = .next (s.faults .stream 0 .read))


/-! ### Rounding and special values (04 R70-R78, 18 R335) -/

/-- The value of a bit pattern that is a finite number of the format (04 R70). -/
def Sys2Proof.Claims.value (t : Fmt) (x : Nat) : Option Rat :=
  let e := x / 2 ^ t.fb % 2 ^ t.eb
  let f := x % 2 ^ t.fb
  let sign : Rat := if x / 2 ^ (t.eb + t.fb) % 2 = 1 then -1 else 1
  if e = 2 ^ t.eb - 1 then none
  else if e = 0 then some (sign * f * 2 ^ (t.emin - t.fb))
  else some (sign * (2 ^ t.fb + f) * 2 ^ ((e : Int) - t.bias - t.fb))

/-- The pattern r is the exact value x ≠ 0 rounded to a number of the format by a mode (04 R77). -/
def Sys2Proof.Claims.roundedTo (t : Fmt) (rm : RM) (x : Rat) (r : Nat) : Prop :=
  r < 2 ^ t.width ∧ (r / 2 ^ (t.eb + t.fb) = if x < 0 then 1 else 0) ∧
  ∃ v, Sys2Proof.Claims.value t r = some v ∧ ∀ p q, p < 2 ^ t.width → Sys2Proof.Claims.value t p = some q → match rm with
    | .rne => (v - x).abs ≤ (q - x).abs ∧ ((v - x).abs = (q - x).abs → q ≠ v → r % 2 = 0)
    | .rtz => v.abs ≤ x.abs ∧ (q.abs ≤ x.abs → q.abs ≤ v.abs)
    | .rup => x ≤ v ∧ (x ≤ q → v ≤ q)
    | .rdn => v ≤ x ∧ (q ≤ x → q ≤ v)

/-- The result and the bits of a rounded operation whose exact value is x ≠ 0: rounded by the mode, NX set exactly where that changes x, UF
only for a tiny inexact result; or, beyond every finite number, the overflow table of 04 R78 with OF and NX. -/
def Sys2Proof.Claims.rounds (t : Fmt) (rm : RM) (sat : Bool) (x : Rat) (y : Nat × Sticky) : Prop :=
  let neg := decide (x < 0)
  (y.2 &&& fOF = 0 →
    Sys2Proof.Claims.roundedTo t rm x y.1 ∧ y.2 &&& ~~~(fNX ||| fUF) = 0 ∧ (y.2 &&& fNX ≠ 0 ↔ Sys2Proof.Claims.value t y.1 ≠ some x) ∧
    (y.2 &&& fUF ≠ 0 → y.2 &&& fNX ≠ 0 ∧ x.abs < 2 ^ t.emin) ∧
    (y.2 &&& fNX ≠ 0 → (∀ v, Sys2Proof.Claims.value t y.1 = some v → v.abs < 2 ^ t.emin) → y.2 &&& fUF ≠ 0)) ∧
  (y.2 &&& fOF ≠ 0 →
    y.2 = fOF ||| fNX ∧ (∀ p q, p < 2 ^ t.width → Sys2Proof.Claims.value t p = some q → q.abs < x.abs) ∧
    y.1 = if sat then t.max neg else match rm with
      | .rne => t.inf neg
      | .rtz => t.max neg
      | .rup => if neg then t.max true else t.inf false
      | .rdn => if neg then t.inf true else t.max false)

/-- Finite operands: every sum, difference, product, quotient, fused product-sum and square root of VFADD to VFSQRT, and every conversion to a
float type, is its exact value rounded once (18 R335, R340, 04 R77-R78, R82). -/
def Obligations.FloatResultsRoundOnce : Prop :=
  ∀ (t : Fmt) (rm : RM) (sat : Bool) (a b d : Nat) (x y z : Rat), t ∈ [.f16, .bf16, .f32, .f64] →
    a < 2 ^ t.width → b < 2 ^ t.width → d < 2 ^ t.width →
    Sys2Proof.Claims.value t a = some x → Sys2Proof.Claims.value t b = some y → Sys2Proof.Claims.value t d = some z →
    let rounds := Sys2Proof.Claims.rounds t rm sat
    (x + y ≠ 0 → rounds (x + y) (fadd t rm sat a b)) ∧ (x - y ≠ 0 → rounds (x - y) (fsub t rm sat a b)) ∧
    (x * y ≠ 0 → rounds (x * y) (fmul t rm sat a b)) ∧ (x ≠ 0 → y ≠ 0 → rounds (x / y) (fdiv t rm sat a b)) ∧
    (x * y + z ≠ 0 → rounds (x * y + z) (ffma t rm sat false a b d)) ∧ (z - x * y ≠ 0 → rounds (z - x * y) (ffma t rm sat true a b d)) ∧
    (0 < x → ∃ v, Sys2Proof.Claims.value t (fsqrt t rm sat a).1 = some v ∧ 0 < v ∧
      (fsqrt t rm sat a).2 = (if v * v = x then 0 else fNX) ∧
      ∀ p q, p < 2 ^ t.width → Sys2Proof.Claims.value t p = some q → 0 ≤ q → match rm with
        | .rne => (v < q → 4 * x ≤ (v + q) * (v + q)) ∧ (q < v → (v + q) * (v + q) ≤ 4 * x)
        | .rup => x ≤ v * v ∧ (x ≤ q * q → v ≤ q)
        | _ => v * v ≤ x ∧ (q * q ≤ x → q ≤ v)) ∧
    (∀ (i : Int), i ≠ 0 → rounds i (cvtFromInt t rm sat i)) ∧
    (∀ (u : Fmt), u ∈ [.f16, .bf16, .f32, .f64] → x ≠ 0 → Sys2Proof.Claims.rounds u rm sat x (cvtFmt t u rm sat a))

/-- Special operands (18 R335, 04 R71, R78): a NaN gives the canonical NaN with NV where an operand signals; the invalid combinations
give it with NV; a finite non-zero value over zero is an infinity with DZ; an infinite result keeps its sign, or under .SAT is ±max with OF and
NX; zero results have the sign the rule gives. -/
def Obligations.FloatSpecialValues : Prop :=
  ∀ (t : Fmt) (rm : RM) (sat : Bool) (a b : Nat), t ∈ [.f16, .bf16, .f32, .f64] → a < 2 ^ t.width → b < 2 ^ t.width →
    let top := 2 ^ (t.eb + t.fb)
    let nan (x : Nat) : Prop := t.inf false < x % top
    let snan (x : Nat) : Prop := nan x ∧ x % 2 ^ t.fb < 2 ^ (t.fb - 1)
    let inf (x : Nat) : Prop := x % top = t.inf false
    let zero (x : Nat) : Prop := x % top = 0
    let finite (x : Nat) : Prop := x % top < t.inf false
    let signs : Nat := if a / top = b / top then 0 else top
    let opp (x : Nat) : Nat := if x < top then x + top else x - top
    let infinite (x : Nat) (g : Sticky) : Nat × Sticky := if sat then (x - 1, g ||| fOF ||| fNX) else (x, g)
    let nv : Sticky := fNV
    let ops : List (Nat × Sticky) := [fadd t rm sat a b, fsub t rm sat a b, fmul t rm sat a b, fdiv t rm sat a b]
    ((nan a ∨ nan b) → ∀ y ∈ ops, y.1 = t.nan ∧ (y.2 = nv ↔ snan a ∨ snan b) ∧ (y.2 = nv ∨ y.2 = 0)) ∧
    (nan a → (fsqrt t rm sat a).1 = t.nan ∧ ((fsqrt t rm sat a).2 = nv ↔ snan a) ∧ ((fsqrt t rm sat a).2 = nv ∨ (fsqrt t rm sat a).2 = 0)) ∧
    (inf a → inf b → fadd t rm sat a b = (if a = b then infinite a 0 else (t.nan, nv)) ∧
      fsub t rm sat a b = (if a = b then (t.nan, nv) else infinite a 0) ∧ fmul t rm sat a b = infinite (signs + t.inf false) 0 ∧
      fdiv t rm sat a b = (t.nan, nv)) ∧
    (inf a → finite b → fadd t rm sat a b = infinite a 0 ∧ fsub t rm sat a b = infinite a 0 ∧ fdiv t rm sat a b = infinite (signs + t.inf false) 0 ∧
      (zero b → fmul t rm sat a b = (t.nan, nv)) ∧ (¬zero b → fmul t rm sat a b = infinite (signs + t.inf false) 0)) ∧
    (finite a → inf b → fadd t rm sat a b = infinite b 0 ∧ fsub t rm sat a b = infinite (opp b) 0 ∧ fdiv t rm sat a b = (signs, 0) ∧
      (zero a → fmul t rm sat a b = (t.nan, nv)) ∧ (¬zero a → fmul t rm sat a b = infinite (signs + t.inf false) 0)) ∧
    (finite a → zero b → (zero a → fdiv t rm sat a b = (t.nan, nv)) ∧
      (¬zero a → fdiv t rm sat a b = infinite (signs + t.inf false) fDZ)) ∧
    (finite a → finite b → (zero a ∨ zero b) → fmul t rm sat a b = (signs, 0)) ∧
    (zero a → finite b → ¬zero b → fdiv t rm sat a b = (signs, 0)) ∧
    (finite a → finite b → (a = opp b → fadd t rm sat a b = (if rm = .rdn then top else 0, 0)) ∧
      (a = b → fsub t rm sat a b = (if rm = .rdn then top else 0, 0)) ∧ (zero a → a = b → fadd t rm sat a b = (a, 0))) ∧
    (zero a → fsqrt t rm sat a = (a, 0)) ∧ (inf a → a < top → fsqrt t rm sat a = infinite a 0) ∧
    (top < a → ¬nan a → fsqrt t rm sat a = (t.nan, nv))


/-! ### Tile registers (19 R347-R357, 11 R180-R200) -/

/-- Bits of an element by its EFMT (11 R180). -/
def Sys2Proof.Claims.elemBits (e : Nat) : Nat := [8, 64, 32, 16, 16, 8, 8, 32, 16, 8, 8, 4, 4, 8, 4].getD e 8
/-- What a tile register can hold (11 R197). -/
def Sys2Proof.Claims.fits (e swz rows cols : Nat) : Prop :=
  1 ≤ e ∧ e ≤ 12 ∧ swz ≤ 2 ∧ 1 ≤ rows ∧ 1 ≤ cols ∧
  if swz = 2 then cols ≤ 16 ∧ rows * Sys2Proof.Claims.elemBits e ≤ 512 else rows ≤ 16 ∧ cols * Sys2Proof.Claims.elemBits e ≤ 512
/-- The bit of a register's body at which element (i, j) begins: row-major, row-major with its eight-byte units permuted, column-major
(11 R184). -/
def Sys2Proof.Claims.place (t : Tile) (i j : Nat) : Nat :=
  let b := Sys2Proof.Claims.elemBits t.efmt
  if t.swz = 2 then 512 * j + b * i
  else if t.swz = 1 then 512 * i + 64 * ((b * j / 64) ^^^ (i % 8)) + b * j % 64
  else 512 * i + b * j
/-- Element (i, j) of a register. -/
def Sys2Proof.Claims.element (t : Tile) (i j : Nat) : Nat := t.body.toNat / 2 ^ Sys2Proof.Claims.place t i j % 2 ^ Sys2Proof.Claims.elemBits t.efmt
/-- An integer element read as signed where its format is. -/
def Sys2Proof.Claims.signedElement (e x : Nat) : Int :=
  if e ∈ [7, 8, 9, 11] then (BitVec.ofNat (Sys2Proof.Claims.elemBits e) x).toInt else x
/-- Tile register n of the core, where it is configured with something that it can hold. -/
def Sys2Proof.Claims.holds (s : State) (n : Nat) (t : Tile) : Prop :=
  Table.find? (s.core s.cur).vs.t n = some t ∧ Sys2Proof.Claims.fits t.efmt t.swz t.rows t.cols
/-- The core with tile register n holding t. -/
def Sys2Proof.Claims.withTile (s : State) (n : Nat) (t : Tile) : State :=
  s.setCore s.cur { (s.core s.cur) with vs := { (s.core s.cur).vs with t := Table.insert (s.core s.cur).vs.t n t } }

/-- TCFG, THDR, TZERO, TROWG, TCOLG, TROWP and TCOLP (19 R349-R352). -/
def Sys2Proof.Claims.TileRegisterForms : Prop :=
  ∀ (f : FR) (s s1 : State) (m : Word),
    let s0 := s.bringTiles s.cur
    let k := s0.cur
    let reg (o : Opnd) : Option Tile := Table.find? (s0.core k).vs.t o.tnum
    let bad (i : Instr) (code : FCode) (o : Opnd) : Prop := exec i s = .next (s0.faults code (BitVec.ofNat 64 (2 ^ 64 - 256 + o.tnum)) .read)
    (s0.Clear k f.sp true false [f.a] [] m s1 → ∀ (c : Word) (s2 : State), s1.src k f.a = .ok (c, s2) →
      let e := c.toNat % 64
      let swz := c.toNat / 2 ^ 8 % 4
      let rows := c.toNat / 2 ^ 16 % 2 ^ 16
      let cols := c.toNat / 2 ^ 32 % 2 ^ 16
      (e = 0 → exec (.tcfg f) s = .next (s0.after (s2.setCore k { (s2.core k) with vs := { (s2.core k).vs with
        t := Table.erase (s2.core k).vs.t f.d.tnum } }) f.sp m)) ∧
      (e ≠ 0 → Sys2Proof.Claims.fits e swz rows cols → c.toNat / 2 ^ 6 % 4 = 0 → c.toNat / 2 ^ 10 % 64 = 0 → c.toNat < 2 ^ 48 →
        exec (.tcfg f) s = .next (s0.after (Sys2Proof.Claims.withTile s2 f.d.tnum ⟨e, swz, rows, cols, 0, .dirty⟩) f.sp m)) ∧
      (e ≠ 0 → ¬(Sys2Proof.Claims.fits e swz rows cols ∧ c.toNat / 2 ^ 6 % 4 = 0 ∧ c.toNat / 2 ^ 10 % 64 = 0 ∧ c.toNat < 2 ^ 48) →
        bad (.tcfg f) .hdrUnsupported f.d)) ∧
    (s0.Clear k f.sp true false [f.b] [f.d] m s1 → ∀ (i : Word) (s2 s3 : State), s1.src k f.b = .ok (i, s2) →
      let h : List Word := match reg f.a with
        | none => [0x1A7, 0, 0]
        | some t => [BitVec.ofNat 64 (0x1A7 + t.efmt * 2 ^ 12 + t.swz * 2 ^ 26 + t.rows * 2 ^ 32 + t.cols * 2 ^ 48),
            BitVec.ofNat 64 (64 + if t.state = .dirty then 2 ^ 50 else 0), BitVec.ofNat 64 (1024 * 2 ^ 32)]
      let w := h ++ [BitVec.ofNat 64 (hchk (h ++ [0]) * 2 ^ 48)]
      (∀ t, reg f.a = some t → Sys2Proof.Claims.fits t.efmt t.swz t.rows t.cols) →
      s2.put k f.d (w.getD (i.toNat % 4) 0) = .ok s3 → exec (.thdr f) s = .next (s0.after s3 f.sp m)) ∧
    (s0.Clear k f.sp true false [] [] m s1 →
      (reg f.d = none → bad (.tzero f) .tileUnconf f.d) ∧
      (∀ t, Sys2Proof.Claims.holds s0 f.d.tnum t →
        exec (.tzero f) s = .next (s0.after (Sys2Proof.Claims.withTile s1 f.d.tnum { t with body := 0, state := .dirty }) f.sp m))) ∧
    (∀ row : Bool, s0.Clear k f.sp true false [f.b] [f.d] m s1 → (s1.core k).vs.ringFault [f.d] = none →
      let i := if row then Instr.trowg f else Instr.tcolg f
      ∀ (x : Word) (s2 : State), s1.src k f.b = .ok (x, s2) →
        (reg f.a = none → bad i .tileUnconf f.a) ∧
        (∀ t, Sys2Proof.Claims.holds s0 f.a.tnum t → let n := if row then t.cols else t.rows
          ((if row then t.rows else t.cols) ≤ x.toNat → bad i .hdrMismatch f.a) ∧
          (x.toNat < (if row then t.rows else t.cols) → ∀ (v : Vec) (s3 : State), v.toNat < 2 ^ (Sys2Proof.Claims.elemBits t.efmt * n) →
            (∀ j, j < n → laneAt v (Sys2Proof.Claims.elemBits t.efmt) j =
              if row then Sys2Proof.Claims.element t x.toNat j else Sys2Proof.Claims.element t j x.toNat) →
            s2.vput k f.d 32 false v = .ok s3 → exec i s = .next (s0.after s3 f.sp m)))) ∧
    (∀ row : Bool, s0.Clear k f.sp true false [f.a, f.b] [] m s1 → (s1.core k).vs.ringFault [f.a] = none →
      let i := if row then Instr.trowp f else Instr.tcolp f
      ∀ (v : Vec) (x : Word) (s2 s3 : State), s1.vsrc k 32 f.a = .ok (v, s2) → s2.src k (s1.issued k f.b) = .ok (x, s3) →
        (reg f.d = none → bad i .tileUnconf f.d) ∧
        (∀ t, Sys2Proof.Claims.holds s0 f.d.tnum t → let n := if row then t.cols else t.rows
          let b := Sys2Proof.Claims.elemBits t.efmt
          let at_ (j : Nat) : Nat := if row then Sys2Proof.Claims.place t x.toNat j else Sys2Proof.Claims.place t j x.toNat
          ((if row then t.rows else t.cols) ≤ x.toNat → bad i .hdrMismatch f.d) ∧
          (x.toNat < (if row then t.rows else t.cols) → ∃ u : Tile,
            exec i s = .next (s0.after (Sys2Proof.Claims.withTile s3 f.d.tnum u) f.sp m) ∧ u = { t with body := u.body, state := .dirty } ∧
            (∀ j q, j < n → q < b → u.body.getLsbD (at_ j + q) = v.getLsbD (b * j + q)) ∧
            (∀ p, (∀ j, j < n → p < at_ j ∨ at_ j + b ≤ p) → u.body.getLsbD p = t.body.getLsbD p))))

/-- The float format of an EFMT. -/
def Sys2Proof.Claims.formatOf (e : Nat) : Option Fmt :=
  ([none, some .f64, some .f32, some .bf16, some .f16, some .e4m3, some .e5m2] : List (Option Fmt)).getD e none

/-- The EFMT of a product of two registers, or none where TMMA has none (11 R190). -/
def Sys2Proof.Claims.productOf (a b : Nat) : Option Nat :=
  if a = b ∧ (a = 2 ∨ a = 3 ∨ a = 4) then some 2 else if a ∈ [5, 6] ∧ b ∈ [5, 6] then some 2 else if a = 1 ∧ b = 1 then some 1
  else if a ∈ [9, 10, 11, 12] ∧ b ∈ [9, 10, 11, 12] then some 7 else none

/-- One element of a product over K (04 R85): integers exactly, mod 2^32; floating point one block of sixteen at a time. -/
def Sys2Proof.Claims.dot (ea eb er nbv n acc : Nat) (a b : Nat → Nat) : Nat × Sticky :=
  match Sys2Proof.Claims.formatOf ea, Sys2Proof.Claims.formatOf eb, Sys2Proof.Claims.formatOf er with
  | some fa, some fb, some fr =>
    (List.range ((n + 15) / 16)).foldl (fun r blk =>
      let y := addBlock fr nbv r.1 none ((List.range (min 16 (n - 16 * blk))).map (fun j =>
        Term.prod (mulE (inputVal fa nbv (a (16 * blk + j))) (inputVal fb nbv (b (16 * blk + j))))))
      (y.1, r.2 ||| y.2)) (acc, 0)
  | _, _, _ =>
    ((((acc : Int) + ((List.range n).map (fun j => Sys2Proof.Claims.signedElement ea (a j) * Sys2Proof.Claims.signedElement eb (b j))).sum)
      % 2 ^ 32).toNat, 0)

/-- TMMA, TADD, TSCL and TTRN (19 R355-R356): the formats and shapes they accept, each element of the result and the bits that FSTAT gathers. -/
def Sys2Proof.Claims.TileArithmetic : Prop :=
  ∀ (f : FR) (s s1 : State) (m : Word),
    let s0 := s.bringTiles s.cur
    let k := s0.cur
    let bad (i : Instr) (code : FCode) (o : Opnd) : Prop := exec i s = .next (s0.faults code (BitVec.ofNat 64 (2 ^ 64 - 256 + o.tnum)) .read)
    let result (i : Instr) (s2 : State) (u0 : Tile) (g : Nat → Nat → Nat × Sticky) : Prop := ∃ (u : Tile) (x : Sticky),
      exec i s = .next (s0.after ((Sys2Proof.Claims.withTile s2 f.d.tnum u).raise k x) f.sp m) ∧
      u = { u0 with body := u.body, state := .dirty } ∧
      (∀ i j, i < u0.rows → j < u0.cols → Sys2Proof.Claims.element u i j = (g i j).1) ∧
      (∀ q, x.getLsbD q = true ↔ ∃ i j, i < u0.rows ∧ j < u0.cols ∧ (g i j).2.getLsbD q = true) ∧
      (∀ p, (∀ i j, i < u0.rows → j < u0.cols → p < Sys2Proof.Claims.place u i j ∨
        Sys2Proof.Claims.place u i j + Sys2Proof.Claims.elemBits u.efmt ≤ p) → u.body.getLsbD p = u0.body.getLsbD p)
    ∀ ta td : Tile, Sys2Proof.Claims.holds s0 f.a.tnum ta → Sys2Proof.Claims.holds s0 f.d.tnum td →
    let fresh (rows cols : Nat) : Tile := ⟨ta.efmt, td.swz, rows, cols, 0, .dirty⟩
    (∀ tb : Tile, Sys2Proof.Claims.holds s0 f.b.tnum tb → s0.Clear k f.sp true false [] [] m s1 →
      (∀ e, Sys2Proof.Claims.productOf ta.efmt tb.efmt = some e → (ta.efmt = 1 → s0.featoff.getLsbD 3 = false) →
        (ta.cols ≠ tb.rows → bad (.tmma f) .hdrMismatch f.b) ∧
        (ta.cols = tb.rows → ¬(td.efmt = e ∧ td.rows = ta.rows ∧ td.cols = tb.cols) → bad (.tmma f) .hdrMismatch f.d) ∧
        (ta.cols = tb.rows → td.efmt = e → td.rows = ta.rows → td.cols = tb.cols →
          result (.tmma f) s1 td (fun i j => Sys2Proof.Claims.dot ta.efmt tb.efmt e ((s0.core k).vs.csr.nbv.toNat % 16) ta.cols
            (Sys2Proof.Claims.element td i j) (fun x => Sys2Proof.Claims.element ta i x) (fun x => Sys2Proof.Claims.element tb x j)))) ∧
      (ta.efmt ∉ [1, 2, 3, 4, 7, 8, 9] → bad (.tadd f) .hdrUnsupported f.a) ∧
      (ta.efmt ∈ [1, 2, 3, 4, 7, 8, 9] → tb.efmt ≠ ta.efmt → bad (.tadd f) .hdrUnsupported f.b) ∧
      (ta.efmt ∈ [1, 2, 3, 4, 7, 8, 9] → tb.efmt = ta.efmt → (tb.rows ≠ ta.rows ∨ tb.cols ≠ ta.cols) → bad (.tadd f) .hdrMismatch f.b) ∧
      (ta.efmt ∈ [1, 2, 3, 4, 7, 8, 9] → tb.efmt = ta.efmt → tb.rows = ta.rows → tb.cols = ta.cols →
        (¬Sys2Proof.Claims.fits ta.efmt td.swz ta.rows ta.cols → bad (.tadd f) .hdrMismatch f.d) ∧
        (Sys2Proof.Claims.fits ta.efmt td.swz ta.rows ta.cols → result (.tadd f) s1 (fresh ta.rows ta.cols) (fun i j =>
          let x := Sys2Proof.Claims.element ta i j
          let y := Sys2Proof.Claims.element tb i j
          match Sys2Proof.Claims.formatOf ta.efmt with
          | some t => fadd t .rne false x y
          | none => ((x + y) % 2 ^ Sys2Proof.Claims.elemBits ta.efmt, 0))))) ∧
    (s0.Clear k f.sp true false [f.b] [] m s1 → ∀ (b : Word) (s2 : State), s1.src k f.b = .ok (b, s2) → ta.efmt ∈ [1, 2, 3, 4, 7, 8, 9] →
      (¬Sys2Proof.Claims.fits ta.efmt td.swz ta.rows ta.cols → bad (.tscl f) .hdrMismatch f.d) ∧
      (Sys2Proof.Claims.fits ta.efmt td.swz ta.rows ta.cols → result (.tscl f) s2 (fresh ta.rows ta.cols) (fun i j =>
        let w := Sys2Proof.Claims.elemBits ta.efmt
        let x := Sys2Proof.Claims.element ta i j
        let y := b.toNat % 2 ^ w
        match Sys2Proof.Claims.formatOf ta.efmt with
        | some t => fmul t .rne false x y
        | none => ((Sys2Proof.Claims.signedElement ta.efmt x * Sys2Proof.Claims.signedElement ta.efmt y % 2 ^ w).toNat, 0)))) ∧
    (s0.Clear k f.sp true false [] [] m s1 →
      (ta.efmt ∉ [1, 2, 3, 4, 7, 8, 9] → bad (.ttrn f) .hdrUnsupported f.a) ∧
      (ta.efmt ∈ [1, 2, 3, 4, 7, 8, 9] → ¬Sys2Proof.Claims.fits ta.efmt td.swz ta.cols ta.rows → bad (.ttrn f) .hdrMismatch f.d) ∧
      (ta.efmt ∈ [1, 2, 3, 4, 7, 8, 9] → Sys2Proof.Claims.fits ta.efmt td.swz ta.cols ta.rows →
        result (.ttrn f) s1 (fresh ta.cols ta.rows) (fun i j => (Sys2Proof.Claims.element ta j i, 0))))

/-- One block of sixteen products under NBV 2 (04 R85-R86): finite products are summed exactly, and the sum is added to a finite accumulator
with one rounding, RNE. -/
def Obligations.MatrixBlockRoundsOnce : Prop :=
  ∀ (t u v : Fmt) (acc : Nat) (x : Rat) (l : List (Nat × Nat × Rat × Rat)), t ∈ [.f32, .f64] → u ∈ [.f16, .bf16, .f32, .f64] →
    v ∈ [.f16, .bf16, .f32, .f64] → l.length ≤ 16 → acc < 2 ^ t.width → Sys2Proof.Claims.value t acc = some x →
    (∀ p ∈ l, p.1 < 2 ^ u.width ∧ p.2.1 < 2 ^ v.width ∧ Sys2Proof.Claims.value u p.1 = some p.2.2.1 ∧
      Sys2Proof.Claims.value v p.2.1 = some p.2.2.2) →
    let sum := x + (l.map (fun p => p.2.2.1 * p.2.2.2)).sum
    sum ≠ 0 → Sys2Proof.Claims.rounds t .rne false sum
      (addBlock t 2 acc none (l.map (fun p => Term.prod (mulE (inputVal u 2 p.1) (inputVal v 2 p.2.1)))))

/-- TLD, TST and TCHK (19 R353-R354, R357): the checks in the order of 11 R192, each with the address that it reports; then TLD's register
holds the memory tile's logical elements and no other bit, and TST writes each element, the two header fields and nothing else. TCHK puts the
code of the first failure in a role and raises nothing for it. -/
def Obligations.TileMemoryForms : Prop :=
  ∀ (s s1 : State) (m : Word),
    let s0 := s.bringTiles s.cur
    let k := s0.cur
    let reg (o : Opnd) : Option Tile := Table.find? (s0.core k).vs.t o.tnum
    let name (o : Opnd) : Word := BitVec.ofNat 64 (2 ^ 64 - 256 + o.tnum)
    let space (c : XReg) : Nat := if c.perms.testBit 4 then 4 else 5
    (∀ f : FRT, s0.Clear k f.sp true false [] [] m s1 →
      let c := s1.cap k f.a
      match Sys2Proof.Claims.accessFault c [0, space c] c.addr 32 32 with
      | some x => exec (.tld f) s = .next (s0.faults x c.addr .read)
      | none => ∀ mt s2, s1.tileAt k f.a 1 [.read] = .ok (mt, s2) →
        let (h, s3) := s2.tileHeader k mt
        let wants : List (Bool × FCode × Word) :=
          [(h.good, .hdrCheck, c.addr), (h.efmt != 0, .tileUnconf, c.addr), ((reg f.d).isSome, .tileUnconf, name f.d),
           (h.roleOk .mem true s0.features, .hdrUnsupported, c.addr),
           (regFits h.efmt ((reg f.d).map Tile.swz |>.getD 0) h.shape.1 h.shape.2, .hdrMismatch, name f.d),
           (!(f.strict && h.swz != 0 && !h.filled), .hdrMismatch, c.addr)]
        (∀ p ∈ wants.find? (fun p => !p.1), exec (.tld f) s = .next (s0.faults p.2.1 p.2.2 .read)) ∧
        ((∀ p ∈ wants, p.1 = true) → ∀ td mt' s4, reg f.d = some td →
          s3.tileSpan k mt 1 [.read] (c.addr.toNat + 32) h.bodylen = .ok (mt', s4) →
          let l := State.tileElems k mt' h (positions h.shape.1 h.shape.2) s4
          ∃ u : Tile, exec (.tld f) s = .next (s0.after (Sys2Proof.Claims.withTile (l.2.tileReport k mt' h.allBytes) f.d.tnum u) f.sp m) ∧
            u = ⟨h.efmt, td.swz, h.shape.1, h.shape.2, u.body, .dirty⟩ ∧
            (∀ i j, i < u.rows → j < u.cols → Sys2Proof.Claims.element u i j = elemOf l.1 i j % 2 ^ Sys2Proof.Claims.elemBits u.efmt) ∧
            (∀ p, (∀ i j, i < u.rows → j < u.cols → p < Sys2Proof.Claims.place u i j ∨
              Sys2Proof.Claims.place u i j + Sys2Proof.Claims.elemBits u.efmt ≤ p) → u.body.getLsbD p = false))) ∧
    (∀ f : FR, s0.Clear k f.sp true false [] [] m s1 →
      let c := s1.cap k f.b
      match Sys2Proof.Claims.accessFault c [0, 1, space c] c.addr 32 32 with
      | some x => exec (.tst f) s = .next (s0.faults x c.addr .write)
      | none => ∀ mt s2, s1.tileAt k f.b 3 [.read, .write] = .ok (mt, s2) →
        let (h, s3) := s2.tileHeader k mt
        let same : Bool := match reg f.a with
          | some t => h.efmt == t.efmt && h.shape == (t.rows, t.cols)
          | none => false
        let wants : List (Bool × FCode × Word) :=
          [(h.good, .hdrCheck, c.addr), ((reg f.a).isSome, .tileUnconf, name f.a), (h.efmt != 0, .tileUnconf, c.addr),
           (h.roleOk .mem true s0.features, .hdrUnsupported, c.addr), (same, .hdrMismatch, c.addr)]
        (∀ p ∈ wants.find? (fun p => !p.1), (∀ t, reg f.a = some t → Sys2Proof.Claims.fits t.efmt t.swz t.rows t.cols) →
          exec (.tst f) s = .next (s0.faults p.2.1 p.2.2 .write)) ∧
        ((∀ p ∈ wants, p.1 = true) → ∀ t mt' s4, Sys2Proof.Claims.holds s0 f.a.tnum t →
          s3.tileSpan k mt 3 [.read, .write] (c.addr.toNat + 32) h.bodylen = .ok (mt', s4) →
          ∃ (img : Table Byte) (s5 : State), s4.sameMemory s5 ∧ s4.onlyCore s5 k ∧
            s5.core k = { s4.core k with view := (s5.core k).view } ∧
            (∀ i j q, i < t.rows → j < t.cols → q < Sys2Proof.Claims.elemBits t.efmt →
              let o := 256 + h.elemAt i j + q
              (Table.get 0 img (o / 8)).getLsbD (o % 8) = (Sys2Proof.Claims.element t i j).testBit q) ∧
            (let w := ({ h with filled := true, dirty := false } : Hdr).words
             (∀ q, q < 8 → Table.get 0 img (8 + q) = ((w.getD 1 0).extractLsb' (8 * q) 8)) ∧
             (∀ q, 6 ≤ q → q < 8 → Table.get 0 img (24 + q) = ((w.getD 3 0).extractLsb' (8 * q) 8))) ∧
            (∀ o, (Table.find? img o).isSome = true → (8 ≤ o ∧ o < 16) ∨ o = 30 ∨ o = 31 ∨
              ∃ i j, i < t.rows ∧ j < t.cols ∧ ∃ q, q < Sys2Proof.Claims.elemBits t.efmt ∧ o = 32 + (h.elemAt i j + q) / 8) ∧
            (mt'.ls = false → ∀ u, s5.enter k (mt'.entries none (runsOf img)) = .ok u → exec (.tst f) s = .next (s0.after u f.sp m)) ∧
            (mt'.ls = true → exec (.tst f) s = .next (s0.after ((s5.setCore k { (s5.core k) with
              vs := img.foldl (fun r p => r.lsWrite (c.addr.toNat + p.1) [p.2]) (s5.core k).vs }).tileReport k mt' (img.map Prod.fst)) f.sp m)))) ∧
    (∀ f : FR,
      let role (b : Word) : Option (TRole × Bool × Bool) := ([(.reg, true, false), (.mem, true, false), (.left, true, false), (.right, false, false),
        (.feature, false, false), (.weight, true, false), (.edges, true, false), (.fill, true, false), (.mem, true, true),
        (.fill, false, false)] : List (TRole × Bool × Bool))[b.toNat]?
      (∀ n, f.a = .v n → s0.Clear k f.sp true false [f.b] [f.d] m s1 → ∀ b s2 s3, s1.src k f.b = .ok (b, s2) →
        let code : Nat := match reg f.a with
          | none => 0x0C
          | some t => match role b with
            | none => 0x0B
            | some (r, kc, st) => if t.hdr.roleOk r kc s0.features && !(st && t.swz != 0) then 0 else 0x0B
        (∀ t, reg f.a = some t → t.efmt ≠ 0) →
        s2.put k f.d (BitVec.ofNat 64 code) = .ok s3 → exec (.tchk f) s = .next (s0.after s3 f.sp m)) ∧
      (∀ n, f.a = .x n → s.Clear s.cur f.sp true false [f.b] [f.d] m s1 →
        let c := s1.cap s.cur f.a
        match Sys2Proof.Claims.accessFault c [0, space c] c.addr 32 32 with
        | some x => exec (.tchk f) s = .next (s.faults x c.addr .read)
        | none => ∀ mt s2 b s3, s1.tileAt s.cur f.a 1 [.read] = .ok (mt, s2) → s2.src s.cur f.b = .ok (b, s3) →
          let (h, s4) := s3.tileHeader s.cur mt
          let code : Nat := match role b with
            | none => 0x0B
            | some (r, kc, st) =>
              if !h.good then 0x09 else if h.efmt = 0 then 0x0C else if !h.roleOk r kc s.features then 0x0B
              else if st && h.swz != 0 && !h.filled then 0x0A
              else if ∀ p ∈ h.parts kc, c.base ≤ (c.addr + BitVec.ofNat 64 p.1).toNat ∧ (c.addr + BitVec.ofNat 64 p.1).toNat + p.2 ≤ c.top then 0
              else 0x05
          ∀ t, s4.put s.cur f.d (BitVec.ofNat 64 code) = .ok t → exec (.tchk f) s = .next (s.after t f.sp m)))


/-! ### Engine commands (19 R359-R369, 20 R396-R401) -/

/-- Nibble m mod 16 of a window CSR. -/
def Sys2Proof.Claims.nib (w : Word) (m : Nat) : Nat := w.toNat / 2 ^ (4 * (m % 16)) % 16
/-- The state of a command id: its nibble while the id is one of the latest sixteen, else 0 (19 R361). -/
def Sys2Proof.Claims.idState (c : Csrs) (copy : Bool) (id : Nat) : Nat :=
  let next := if copy then c.cpctr else c.jobctr
  let win := if copy then c.cpwin else c.jobwin
  let back := (next.toNat % 2 ^ 16 + 2 ^ 16 - id % 2 ^ 16) % 2 ^ 16
  if 1 ≤ back ∧ back ≤ 16 then Sys2Proof.Claims.nib win id else 0

/-- MJOB, JEDGE, COPY, COPY2D and TFILL at issue (19 R360, 20 R396): the descriptor's checks; a nibble still HELD is published first, one QUEUED
or RUNNING waited for; then one entry of the buffer, the nibble HELD, the counter on by one mod 2^16, and the id put to D. -/
def Sys2Proof.Claims.EngineCommandsIssue : Prop :=
  ∀ x ∈ ([(.mjob, 64, false, 0), (.jedge, 128, false, 0), (.copy, 64, true, 3), (.copy2d, 64, true, 4), (.tfill, 64, true, 5)] :
      List ((FR → Instr) × Nat × Bool × Nat)),
    ∀ (f : FR) (s s1 : State) (m : Word),
    let size := x.2.1
    let copy := x.2.2.1
    let i := x.1 f
    let k := s.cur
    s.Clear k f.sp true false (if copy then [f.b] else []) [f.d] m s1 →
    let c := s.cap k f.a
    match Sys2Proof.Claims.accessFault c [0, 5] c.addr size size with
    | some y => exec i s = .next (s.faults y c.addr .read)
    | none => ∀ pa s2 s3, s1.translate k .read c.addr = .ok (pa, s2) →
      let csr (t : State) : Csrs := (t.core k).vs.csr
      let ctr (t : State) : Nat := (if copy then (csr t).cpctr else (csr t).jobctr).toNat % 2 ^ 16
      let st (t : State) : Nat := Sys2Proof.Claims.nib (if copy then (csr t).cpwin else (csr t).jobwin) (ctr t)
      (if st s2 = 1 then s2.boundary k none = some s3 else s3 = s2) →
      let id := ctr s3
      ((st s3 = 2 ∨ st s3 = 3) → ∃ t, exec i s = .next t ∧ (t.core k).run = .waiting (.window copy id) false) ∧
      (st s3 ≠ 2 → st s3 ≠ 3 → ∀ (e : Word) (s4 s5 s6 : State) (w : Word),
        (if copy then s3.src k f.b = .ok (e, s4) else s4 = s3) →
        s4.enter k [if copy then .copy x.2.2.2 pa c.addr id (if e.getLsbD 16 then some (BitVec.ofNat 16 e.toNat) else none) (st s4)
          else .job (size == 128) pa c.addr id ((csr s3).nbv.toNat % 16) false (st s3)] = .ok s5 →
        (∀ j, j < 16 → Sys2Proof.Claims.nib w j =
          if j = id % 16 then 1 else Sys2Proof.Claims.nib (if copy then (csr s5).cpwin else (csr s5).jobwin) j) →
        (Sys2Proof.Claims.withCsr s5 k (fun r =>
            if copy then { r with cpwin := w, cpctr := BitVec.ofNat 64 ((id + 1) % 2 ^ 16) }
            else { r with jobwin := w, jobctr := BitVec.ofNat 64 ((id + 1) % 2 ^ 16) })).put k f.d (BitVec.ofNat 64 id) = .ok s6 →
        exec i s = .next (s.after s6 f.sp m))

/-- MWAIT, JWAIT and CWAIT make a boundary, then end at once with a new phase unless the id is QUEUED or RUNNING, for whose end they wait; MPOLL
and CPOLL put the state and make no boundary; MCANCEL voids a HELD command, takes a QUEUED one from its queue, tells a RUNNING one to stop, and
does nothing else (19 R368-R369, 20 R401). -/
def Sys2Proof.Claims.EngineWaitsAndCancels : Prop :=
  ∀ (f : FR) (s s1 : State) (m : Word),
    let k := s.cur
    (∀ x ∈ ([(.mwait, false), (.jwait, false), (.cwait, true)] : List ((FR → Instr) × Bool)),
      s.Clear k f.sp true false [f.a] [] m s1 → ∀ (w : Word) (s2 s3 : State), s1.waitSrc k f.a = .ok (w, s2) → s2.boundary k none = some s3 →
      let id := w.toNat % 2 ^ 16
      let st := Sys2Proof.Claims.idState (s3.core k).vs.csr x.2 id
      (st ≠ 2 → st ≠ 3 → exec (x.1 f) s =
        .next (s.after (s3.setCore k { (s3.core k) with view := { start := s3.stamp, bytes := [], tags := [] } }) f.sp m)) ∧
      ((st = 2 ∨ st = 3) → exec (x.1 f) s = .next ((s3.setCore k { (s3.core k) with
        run := .waiting (if x.2 then .copy id else .job id) f.sp, waitFrom := s3.cycle, mask := m }).stopAtWait k))) ∧
    (∀ x ∈ ([(.mpoll, false), (.cpoll, true)] : List ((FR → Instr) × Bool)),
      s.Clear k f.sp true false [f.a] [f.d] m s1 → ∀ (w : Word) (s2 s3 : State), s1.src k f.a = .ok (w, s2) →
      s2.put k f.d (BitVec.ofNat 64 (Sys2Proof.Claims.idState (s2.core k).vs.csr x.2 (w.toNat % 2 ^ 16))) = .ok s3 →
      exec (x.1 f) s = .next (s.after s3 f.sp m)) ∧
    (s.Clear k f.sp true false [f.a] [] m s1 → ∀ (w : Word) (s2 : State), s1.src k f.a = .ok (w, s2) →
      let id := w.toNat % 2 ^ 16
      let st := Sys2Proof.Claims.idState (s2.core k).vs.csr false id
      let own (j : Job) : Prop := j.id = id ∧ j.ctx = s2.ctxOf k ∧ j.core = k ∧ j.svc = false
      (st ∉ [1, 2, 3] → exec (.mcancel f) s = .next (s.after s2 f.sp m)) ∧
      (st = 1 → ∃ es, exec (.mcancel f) s = .next (s.after (s2.setCore k { (s2.core k) with buffer := es }) f.sp m) ∧
        es = (s2.core k).buffer.map (fun e => match e with
          | .job edge pa va i nbv v was => .job edge pa va i nbv (v || i == id) was
          | e => e)) ∧
      (st = 2 → (s2.core k).svc = false → ∃ t, exec (.mcancel f) s = .next (s.after t f.sp m) ∧ (t.core k).buffer = (s2.core k).buffer ∧
        (∀ u, ∀ j ∈ (t.cluster u).queue, ¬own j) ∧
        (∀ u, ∀ j ∈ (s2.cluster u).queue, ¬own j → j ∈ (t.cluster u).queue)) ∧
      (st = 3 → (s2.core k).svc = false → ∃ t, exec (.mcancel f) s = .next (s.after t f.sp m) ∧ t = { s2 with clusters := t.clusters } ∧
        ∀ u, (∀ r ∈ (t.cluster u).me, own r.job → r.job.cancelled = true) ∧ (∀ r ∈ (t.cluster u).je, own r.2.job → r.2.job.cancelled = true)))

/-! ### Scans and carries (19 R375-R380) -/

/-- Whether a specifier names a subgroup of core k's group, and the element that the core is in it (17 R300, 19 R376). -/
def Sys2Proof.Claims.element? (s : State) (k spec : Nat) : Option Nat :=
  let c := s.core k
  let w := 2 ^ (spec % 8)
  let h := 2 ^ (spec / 8 % 8)
  let gw := 2 ^ (c.gshape.toNat % 8)
  let gh := 2 ^ (c.gshape.toNat / 16 % 8)
  let x := c.here.vx % gw
  let y := c.here.vy % gh
  let x0 := spec / 64 % 32
  let y0 := spec / 2048 % 32
  if spec % 8 ≤ 5 ∧ spec / 8 % 8 ≤ 5 ∧ x0 % w = 0 ∧ y0 % h = 0 ∧ x0 + w ≤ gw ∧ y0 + h ≤ gh ∧ x0 ≤ x ∧ x < x0 + w ∧ y0 ≤ y ∧ y < y0 + h
  then some ((y - y0) * w + (x - x0)) else none

/-- SCAN, SCANW, CARRYS and CARRYR on the core (19 R375-R380): a scan checks its subgroup, makes a boundary, leaves its contribution with the
scan in progress and waits for its result; CARRYS checks its target and enters the buffer; CARRYR makes a boundary and waits for its tag. Without
the feature both carries are ILLEGAL. -/
def Obligations.ScansAndCarries : Prop :=
  (∀ (wide : Bool) (f : FSC) (s s1 s2 s3 : State) (m : Word) (v : Vec) (spec : BitVec 16),
    let k := s.cur
    let i := if wide then Instr.scanw f else Instr.scan f
    (s.core k).kept = none → (s.core k).svc = false →
    s.Clear k f.sp true false (if wide then [f.b] else [f.a, f.b]) [f.d] m s1 →
    (if wide then s1.vsrc k f.ty.width f.a = .ok (v, s2) else ∃ w : Word, s1.src k f.a = .ok (w, s2) ∧ v = w.setWidth 1024) →
    (if f.sg then ∃ w : Word, s2.src k (s1.issued k f.b) = .ok (w, s3) ∧ spec = BitVec.ofNat 16 w.toNat
      else s3 = s2 ∧ spec.toNat = (s.core k).gshape.toNat % 8 + 8 * ((s.core k).gshape.toNat / 16 % 8)) →
    (s.core k).gshape.toNat % 8 ≤ 5 → (s.core k).gshape.toNat / 16 % 8 ≤ 5 →
    match Sys2Proof.Claims.element? s k spec.toNat with
    | none => exec i s = .next (s.faults .capBounds (BitVec.ofNat 64 spec.toNat) .read)
    | some e => ∀ s4, s3.boundary k none = some s4 →
      let c := s4.core k
      let old : Vec := match f.d with | .v n => (s.core k).vs.getV n.val | _ => 0
      let carry : Vec := if wide then old else (s.core k).vs.csr.carry.setWidth 1024
      let p : Contribution := { elem := e, ty := f.ty, ex := f.ex, ci := f.ci, sg := f.sg, op := f.op, wide, value := v, carry }
      let mine (t : ScanSt) : Prop := t.launch = c.sendLaunch.getD 0 ∧ t.group = c.group ∧ t.spec = spec
      let x := s4.ctx (s4.ctxOf k)
      let waits (l : List ScanSt) : Prop := exec i s = .next (((s4.setCtx (s4.ctxOf k) { x with scans := l }).setCore k { c with
        run := .waiting (.scan spec f.d wide) f.sp, waitFrom := s4.cycle, mask := m }).stopAtWait k)
      let total := 2 ^ (spec.toNat % 8) * 2 ^ (spec.toNat / 8 % 8)
      let fresh : ScanSt := ⟨c.sendLaunch.getD 0, c.group, spec, total, [p], []⟩
      ((∀ t ∈ x.scans, ¬mine t) → waits (x.scans ++ [fresh])) ∧
      (∀ pre t post, x.scans = pre ++ t :: post → (∀ u ∈ pre ++ post, ¬mine u) → mine t → t.parts.length < t.total →
        (∀ q ∈ t.parts, q.elem ≠ e) → waits (pre ++ ⟨t.launch, t.group, t.spec, t.total, t.parts ++ [p], t.taken⟩ :: post))) ∧
  (∀ (f : FR) (s s1 s2 : State) (m : Word),
    let k := s.cur
    let off := s1.featoff.getLsbD 4
    (∀ (v t : Word) (s3 : State), s.Clear k f.sp true false [f.a, f.b] [] m s1 → s1.src k f.a = .ok (v, s2) → s2.src k (s1.issued k f.b) = .ok (t, s3) →
      let x := t.toNat % 2 ^ 12
      let y := t.toNat / 2 ^ 16 % 2 ^ 12
      let d := (s.ldimOf k).toNat
      (off = true → exec (.carrys f) s = .next (s.faults .illegal 0 .read)) ∧
      (off = false → ((s.core k).sendLaunch = none ∨ d % 2 ^ 16 ≤ x ∨ d / 2 ^ 16 % 2 ^ 16 ≤ y) →
        exec (.carrys f) s = .next (s.faults .capBounds t .read)) ∧
      (off = false → x < d % 2 ^ 16 → y < d / 2 ^ 16 % 2 ^ 16 → ∀ l s4, (s.core k).sendLaunch = some l →
        s3.enter k [.carry ⟨l, x, y⟩ (BitVec.ofNat 8 (t.toNat / 2 ^ 32)) v] = .ok s4 → exec (.carrys f) s = .next (s.after s4 f.sp m))) ∧
    (∀ (t : Word) (s3 : State), s.Clear k f.sp true false [f.a] [f.d] m s1 → s1.waitSrc k f.a = .ok (t, s2) → s2.boundary k none = some s3 →
      (off = true → exec (.carryr f) s = .next (s.faults .illegal 0 .read)) ∧
      (off = false → exec (.carryr f) s = .next ((s3.setCore k { (s3.core k) with
        run := .waiting (.carry (BitVec.ofNat 8 t.toNat) f.d) f.sp, waitFrom := s3.cycle, mask := m }).stopAtWait k))))

/-! ### Specialisation and handles (12 R203-R217, 20 R402-R404) -/

/-- What is wrong with a register as a code handle. -/
def Sys2Proof.Claims.handleFault (c : XReg) : Option FCode :=
  if c.tag = false then some .capTag
  else if c.sealed = true ∨ c.perms.testBit 6 = false then some .capPerm
  else if c.addr.toNat < c.base ∨ c.top < c.addr.toNat + 1 then some .capBounds else none

/-- HREL, HHOLD, HCALL and HINFO (20 R403-R404, 12 R207-R209, R216): the checks in order, with the handle as the data address; HREL and HHOLD
enter the buffer, HHOLD with a provisional reference at once, unless those on their way would take OWNERS past its field; HCALL takes a running reference and enters the entry's code with a link;
HINFO puts the entry's state, flags, counts and length. -/
def Sys2Proof.Claims.HandleInstructions : Prop :=
  ∀ (f : FR) (s s1 : State) (m : Word),
    let k := s.cur
    let c := s.cap k f.a
    let r := HRef.of c.addr
    let n := s.ctxOf k
    let e := (s.ctx n).handle r.index
    let cur : Bool := e.state == .live && e.gen == r.gen && e.check == r.check
    let bad (i : Instr) (code : FCode) : Prop := exec i s = .next (s.faults code c.addr .read)
    (s.Clear k f.sp true false [] [] m s1 → match Sys2Proof.Claims.handleFault c with
      | some x => bad (.hrel f) x ∧ bad (.hhold f) x
      | none =>
        if e.state ≠ .free ∧ e.residual = false then bad (.hrel f) .capPerm ∧ bad (.hhold f) .capPerm
        else if cur = false then bad (.hrel f) .handleStale ∧ bad (.hhold f) .handleStale
        else
          (∀ s2, s1.enter k [.hrel r] = .ok s2 → exec (.hrel f) s = .next (s.after s2 f.sp m)) ∧
          (if 0xFFFF ≤ e.owners.toNat + s1.holdsDue n r.index ∨ e.running = 0xFFFF then bad (.hhold f) .specFull
           else ∀ s2, (s1.setCtx n ((s1.ctx n).setHandle r.index { e with running := e.running + 1 })).enter k [.hhold r] = .ok s2 →
            exec (.hhold f) s = .next (s.after s2 f.sp m))) ∧
    (s.Clear k f.sp false false [] [] m s1 →
      let bad := fun (code : FCode) (a : Word) => exec (.hcall f) s = .next (s.faults code a .fetch)
      match Sys2Proof.Claims.handleFault c with
      | some x => bad x c.addr
      | none =>
        if cur = false ∧ r ∉ (s.core k).refs then bad .handleStale c.addr
        else if (∀ q ∈ (s.core k).refs, q.index ≠ r.index) ∧ e.running = 0xFFFF then bad .specFull c.addr
        else if e.codeva.toNat % 8 ≠ 0 then bad .align e.codeva
        else
          let ret := (s.core k).pc + (if f.sp then 16 else 8)
          let t := s1.takeRef k r
          exec (.hcall f) s = .next ((((t.setCap k f.d ((s.core k).pcc.move ret)).modCore k
            (fun c => { c with pcc := codeCap e.codeva e.words.toNat })).modVs k (fun v => Sys2Proof.Claims.shifted v ret)).finished
              k f.sp m e.codeva)) ∧
    (s.Clear k f.sp true false [] [f.d] m s1 → match Sys2Proof.Claims.handleFault c with
      | some x => bad (.hinfo f) x
      | none => ∀ w s2,
        w = BitVec.ofNat 64 ((match e.state with | .free => 0 | .building => 1 | .live => 2 | .retiring => 3) + (if e.residual then 4 else 0) +
          (if e.host then 8 else 0) + (if cur then 16 else 0) + e.stat.toNat * 32 + e.owners.toNat * 2 ^ 16 + e.running.toNat * 2 ^ 32 +
          min e.words.toNat 65535 * 2 ^ 48) →
        s1.put k f.d w = .ok s2 → exec (.hinfo f) s = .next (s.after s2 f.sp m)) ∧
    (∀ (t : State), (s.core k).firing ≠ none → (∀ q ∈ (s.core k).refs, q.index ≠ r.index) → e.running ≠ 0xFFFF → t = s.takeRef k r →
      ((t.ctx n).handle r.index).running = e.running + 1 ∧ r ∈ (t.core k).refs)

/-- SPEC (20 R402, 12 R205, R210-R217): the checks in order; a full table is SPEC_FULL; the lowest free entry takes the next check value; under
SPECMODE 0 the chisel runs on the handle's code with the argument block that the phase sees, and the residual's entry is LIVE with one owner
reference, what it has from its parent and from the kernel at its root, its handle in D and CHSTAT written; under SPECMODE 1 a service record asks the host, and the firing waits. -/
def Sys2Proof.Claims.SpecMakesResidual : Prop :=
  ∀ (f : FR) (s s1 : State) (m : Word) (d : Fin 128), f.d = .x d → s.Clear s.cur f.sp true false [] [] m s1 →
    let k := s.cur
    let c := s.cap k f.a
    let b := s.cap k f.b
    let r := HRef.of c.addr
    let n := s1.ctxOf k
    let x := s1.ctx n
    let e := x.handle r.index
    let cur : Bool := e.state == .live && e.gen == r.gen && e.check == r.check
    let code := s1.entryCode n r.index
    let regs := earlyRegs code
    let bad := fun (fc : FCode) (a : Word) => exec (.spec f) s = .next (s.faults fc a .read)
    match Sys2Proof.Claims.handleFault c with
    | some y => bad y c.addr
    | none =>
      if b.tag = false then bad .capTag b.addr
      else if b.sealed = true ∨ b.perms.testBit 0 = false ∨ b.perms.testBit 5 = false ∨ b.perms.testBit 4 = true then bad .capPerm b.addr
      else if regs ≠ [] ∧ (b.addr.toNat < b.base ∨ b.top < b.addr.toNat + 8 * regs.length) then bad .capBounds b.addr
      else if cur = false then bad .handleStale c.addr
      else if ∀ i, i < 4096 → (x.handle i).state ≠ .free then bad .specFull c.addr
      else ∀ i, i < 4096 → (x.handle i).state = .free → (∀ j, j < i → (x.handle j).state ≠ .free) →
        let fuel := (s1.core k).vs.csr.chfuel.toNat % 2 ^ 32
        ((s1.core k).specmode = true → ∀ s2, s1.boundary k none = some s2 → ∃ t,
          exec (.spec f) s = .next t ∧ (t.core k).run = .waiting (.spec ((s2.ctx n).sv.next % 2 ^ 32)) f.sp ∧
          Table.find? (t.ctx n).asks ((s2.ctx n).sv.next % 2 ^ 32) = some (.spec k i code) ∧
          ((t.ctx n).handle i).state = .building ∧ ((t.ctx n).handle i).check = x.checkSeq) ∧
        ((s1.core k).specmode = false → ∀ args s2, s1.loadArgs k b.addr regs.length = .ok (args, s2) →
          let out := chisel code (regs.zip args) fuel s2.features
          let y := s2.ctx n
          ∀ va s3, ((s2.setCtx n { y with
              handles := Table.insert (Table.insert y.handles i { (y.handle i) with state := .building, check := y.checkSeq }) i
                { (y.handle i) with state := .building, check := y.checkSeq, parent := BitVec.ofNat 12 r.index, ktype := (y.handle r.index).ktype,
                                    root := y.rootOf r.index },
              checkSeq := if y.checkSeq = -1 then 1 else y.checkSeq + 1 }).install n false false true out.1) = some (va, s3) →
            ∃ t h w, exec (.spec f) s = .next (s.after t f.sp m) ∧
              h.state = .live ∧ h.residual = true ∧ h.host = false ∧ h.codeva = va ∧ h.words.toNat = out.1.length % 2 ^ 32 ∧ h.owners = 1 ∧
              h.running = 0 ∧ h.parent.toNat = r.index % 2 ^ 12 ∧ h.check = y.checkSeq ∧ h.root = y.rootOf r.index ∧
              h.ktype = (y.handle r.index).ktype ∧ (t.ctx n).handle i = h ∧
              ((t.core k).vs.getX d.val = if d = 0 then ⟨0, false⟩ else (⟨i, h.gen, h.check⟩ : HRef).cap) ∧
              (t.core k).vs.csr.chstat = w ∧ w.getLsbD 0 = out.2.1 ∧ w.getLsbD 1 = out.2.2.1 ∧ w.getLsbD 2 = false ∧
              (out.1.length < 2 ^ 16 → w.toNat / 2 ^ 16 % 2 ^ 16 = out.1.length) ∧ w.toNat / 2 ^ 32 = out.2.2.2 % 2 ^ 32 ∧
              (⟨i, h.gen, h.check⟩ : HRef) ∈ (t.core k).made)


/-! ### The host's commands on contexts (06 R118-R121, 05 R94-R101) -/

/-- The outcome of a host command: its STATUS in CCMD, GO clear, and the rest of the state as `t` has it (06 R118). -/
def Sys2Proof.Claims.commanded (t : State) (op ctx status : Nat) : Out :=
  .next { t with ccmd := BitVec.ofNat 64 (op % 16 + ctx % 256 * 2 ^ 8 + status * 2 ^ 16) }

/-- The context-control arguments, and what CREATE demands of them (06 R119). -/
def Sys2Proof.Claims.createOk (s : State) : Prop :=
  let a (i : Nat) : Nat := (Table.get 0 s.carg i).toNat
  let f (p n : Nat) : Nat := a 2 / 2 ^ p % 2 ^ n
  a 0 % 0x100000 = 0 ∧ 16 ≤ f 0 6 ∧ f 0 6 ≤ 30 ∧ f 0 6 ≤ f 8 6 ∧ f 8 6 ≤ 30 ∧ 6 ≤ f 16 4 ∧ 6 ≤ f 24 4 ∧ 6 ≤ f 32 4 ∧ 6 ≤ f 40 4 ∧ 20 ≤ f 48 6 ∧ f 48 6 ≤ 40

/-- CREATE, COMMIT, RESUME, DESTROY, SETMODE, SETFAULT, PREEMPT and PROMOTE (06 R118-R119, 05 R94-R103, 13 R227): the status of each refusal, and
what the accepted command does to the context; nothing of any other context changes. Before READY a command is not accepted. -/
def Sys2Proof.Claims.ContextCommands : Prop :=
  (∀ (ctx : Nat) (s : State), s.mgmt.boot ≠ .ready →
    ∀ i ∈ [Instr.create ctx, .commit ctx, .resume ctx, .destroy ctx, .setmode ctx, .setfault ctx, .answer ctx, .codecopy ctx, .preempt ctx,
      .promote ctx], exec i s = .next s) ∧
  (∀ (ctx : Nat) (s : State), s.mgmt.boot = .ready →
    let x := s.ctx ctx
    let a (i : Nat) : Word := Table.get 0 s.carg i
    let refused (i : Instr) (op status : Nat) : Prop := exec i s = Sys2Proof.Claims.commanded s op ctx status
    let done (i : Instr) (op : Nat) (t : State) : Prop := exec i s = Sys2Proof.Claims.commanded t op ctx 0 ∧ ∀ n, n ≠ ctx → t.ctx n = s.ctx n
    let active := x.state = .live ∨ x.state = .stopped ∨ x.state = .halted
    let settable := x.state = .building ∨ active
    (x.state ≠ .free → refused (.create ctx) 1 2) ∧
    (x.state = .free → ¬Sys2Proof.Claims.createOk s → refused (.create ctx) 1 4) ∧
    (x.state = .free → Sys2Proof.Claims.createOk s → ∃ t, done (.create ctx) 1 t ∧ t = { s with ctxs := t.ctxs } ∧
      (let y := t.ctx ctx
       let f (p n : Nat) : Nat := (a 2).toNat / 2 ^ p % 2 ^ n
       y.state = .building ∧ y.root = a 0 ∧ y.layBase = a 1 ∧ y.layLog = f 0 6 ∧ y.layMax = f 8 6 ∧ y.dl.base = a 3 ∧ y.dl.log = f 16 4 ∧
       y.hq.base = a 4 ∧ y.hq.log = f 24 4 ∧ y.eq.base = a 5 ∧ y.eq.log = f 32 4 ∧ y.sv.base = a 6 ∧ y.sv.log = f 40 4 ∧
       y.castBase = a 7 ∧ y.castLog = f 48 6 ∧ y.home = (a 2).getLsbD 63 ∧ y.handles = [] ∧ y.handlers = [] ∧ y.scans = [] ∧
       (∀ r ∈ [y.dl, y.hq, y.eq, y.sv], r.wcount = 0 ∧ r.rcount = 0 ∧ r.waiting = []))) ∧
    (x.state ≠ .building → refused (.commit ctx) 2 2) ∧
    (x.state = .building → s.regionsOk ctx = false → refused (.commit ctx) 2 3) ∧
    (x.state = .building → s.regionsOk ctx = true → ∃ t, done (.commit ctx) 2 t ∧ t = { s with ctxs := t.ctxs } ∧
      t.ctx ctx = { x with state := .live, handles := [], checkSeq := 1 }) ∧
    (x.state ≠ .halted → refused (.resume ctx) 3 2) ∧
    (x.state = .halted → x.dl.waiting = [] → (x.faultActor.isSome ∨ ∀ e ∈ x.pending, e.fault = true) →
      ∃ t, done (.resume ctx) 3 t ∧ (t.ctx ctx).state = .live ∧ (t.ctx ctx).haltCause = 0) ∧
    (¬active → refused (.destroy ctx) 4 2) ∧
    (active → ∃ t, done (.destroy ctx) 4 t ∧ (t.ctx ctx).state = .draining ∧
      (∀ q, ((t.queue q).ctx.toNat = ctx → (t.queue q).state = .disabled ∨ (t.queue q).state = .error ∧ (t.queue q).err = 9)) ∧
      (∀ k, (s.core k).ctx = some ctx → (s.core k).run = .running → (s.core k).preempt = none → Table.find? s.cores k ≠ none →
        (t.core k).preempt = some ⟨.destroy, s.cycle, false, false⟩)) ∧
    (¬settable → refused (.setmode ctx) 5 2 ∧ refused (.setfault ctx) 6 2) ∧
    (settable → (2 ^ 8 ≤ (a 0).toNat ∨ (a 0).toNat / 4 % 4 = 3) → refused (.setmode ctx) 5 4) ∧
    (settable → (a 0).toNat < 2 ^ 8 → (a 0).toNat / 4 % 4 ≠ 3 → ∃ t, done (.setmode ctx) 5 t ∧ (t.ctx ctx).modemap = a 0 ∧
      ((x.evovf = true ∨ (a 0).getLsbD 6 = false) → t = { s with ctxs := t.ctxs } ∧ t.ctx ctx = { x with modemap := a 0 })) ∧
    (settable → 2 ^ 13 ≤ (a 0).toNat → refused (.setfault ctx) 6 4) ∧
    (settable → (a 0).toNat < 2 ^ 13 → ∃ t, done (.setfault ctx) 6 t ∧ t = { s with ctxs := t.ctxs } ∧
      t.ctx ctx = { x with faultIdx := BitVec.ofNat 12 (a 0).toNat, faultV := (a 0).getLsbD 12 }) ∧
    (x.state ≠ .live → refused (.preempt ctx) 9 2) ∧
    (x.state = .live → let l := (a 0).toNat % 2 ^ 32
      let g := (a 1).toNat % 2 ^ 24
      (∀ y, s.launch? l = some y → ¬(y.ctx = ctx ∧ g < y.count ∧ (y.group g).state = .resident) → refused (.preempt ctx) 9 4) ∧
      (s.launch? l = none → refused (.preempt ctx) 9 4) ∧
      (∀ y, s.launch? l = some y → y.ctx = ctx → g < y.count → (y.group g).state = .resident → s.isLocal (y.group g) = true →
        ∃ t z, exec (.preempt ctx) s = Sys2Proof.Claims.commanded t 9 ctx 0 ∧ t.launch? l = some z ∧ (z.group g).state = .unbinding)) ∧
    (¬(active ∧ x.promote = true) → refused (.promote ctx) 10 2) ∧
    (active → x.promote = true → (a 0).toNat % 0x200000 ≠ 0 → refused (.promote ctx) 10 4) ∧
    (active → x.promote = true → (a 0).toNat % 0x200000 = 0 → ∃ t, done (.promote ctx) 10 t ∧ t = { s with ctxs := t.ctxs } ∧
      t.ctx ctx = { x with offers := x.offers ++ [a 0] }))

/-- ANSWER, CODECOPY and CONTEXT_SCRUB (06 R121, 13 R229, 05 R96): an answer in a context that is not active has status 2, one to no open
record 4; the answers to TLBMISS, PAGE, LAYBY and EVENT have their effects and close the record; CODECOPY gives a shared code page a private
copy with the same bytes; the scrub of a draining context whose cores are idle leaves no trace of it and its id FREE. -/
def Sys2Proof.Claims.AnswersAndScrub : Prop :=
  (∀ (ctx : Nat) (s : State), s.mgmt.boot = .ready →
    let x := s.ctx ctx
    let a (i : Nat) : Word := Table.get 0 s.carg i
    let seq := (a 0).toNat % 2 ^ 32
    let status := (a 0).toNat / 2 ^ 32 % 2 ^ 8
    let active := x.state = .live ∨ x.state = .stopped ∨ x.state = .halted
    let ended (t : State) (status : Nat) : Prop := exec (.answer ctx) s = Sys2Proof.Claims.commanded t 7 ctx status
    let closed (t : State) : Prop := (t.ctx ctx).asks = Table.erase x.asks seq
    (¬active → ended s 2 ∧ exec (.codecopy ctx) s = Sys2Proof.Claims.commanded s 8 ctx 2) ∧
    (active → Table.find? x.asks seq = none → ended s 4) ∧
    (∀ c va acc sp, active → Table.find? x.asks seq = some (.tlb c) → (s.core c).run = .waiting (.tlb va acc) sp → status = 0 →
      ∀ l, leafOf ((a 2).toNat % 4) (a 1) = some l → (a 2).toNat % 4 < 3 → l.admits acc = true → ∃ t, ended t 0 ∧ closed t ∧
        (t.core c).run = .running ∧ s.sameMemory t) ∧
    (∀ e op who, active → Table.find? x.asks seq = some (.event e op who) → (∀ q, who ≠ some (.queue q)) → status = 0 → op = 1 ∨ op = 2 → (x.event e).spilled = false →
      (x.event e).waiters.length ≤ 8 → s.eventsOf (e.toNat % 8) < 4096 → ∃ t, ended t 0 ∧ closed t ∧ s.sameMemory t ∧ ((t.ctx ctx).event e).set = decide (op = 1)) ∧
    (active → Table.find? x.asks seq = some .layby →
      (status = 1 → ∃ t, ended t 0 ∧ closed t ∧ t = { s with ctxs := t.ctxs }) ∧
      (let log := (a 2).toNat
       ((1 < status ∨ status = 0 ∧ (log ≤ x.layLog ∨ 30 < log ∨ (a 1).toNat % 2 ^ log ≠ 0)) → ended s 4) ∧
       (status = 0 → x.layLog < log → log ≤ 30 → (a 1).toNat % 2 ^ log = 0 → ∃ t, ended t 0 ∧ closed t ∧ (t.ctx ctx).layBase = a 1 ∧
        (t.ctx ctx).layLog = log ∧ (t.ctx ctx).layFull = false ∧ (t.ctx ctx).lay = x.lay))) ∧
    (∀ at_ l, active → (a 0).toNat < 2 ^ 56 → s.tableWalk ctx (a 0) = .leaf at_ l → l.size = 0 → l.px = true → l.shr = true →
      (a 0).toNat % 65536 = 0 → ∀ new s1, s.takeFrame 65536 0 memTop = some (new, s1) → l.frame % 65536 = 0 → new % 65536 = 0 → new ≠ l.frame →
      (at_ + 8 ≤ new ∨ new + 65536 ≤ at_) →
      ∃ t, exec (.codecopy ctx) s = Sys2Proof.Claims.commanded t 8 ctx 0 ∧ (s.memOk → ∀ j, j < 65536 → t.byte (new + j) = s.byte (l.frame + j)) ∧
        ∀ k, ∀ e ∈ (t.core k).tlb, e.ctx = ctx →
          ¬(e.page * 2 ^ pageLog e.size < (a 0).toNat + 65536 ∧ (a 0).toNat < (e.page + 1) * 2 ^ pageLog e.size))) ∧
  (∀ (ctx : Nat) (s : State),
    ((s.ctx ctx).state ≠ .draining → exec (.contextScrub ctx) s = .next s) ∧
    ((s.ctx ctx).state = .draining → (∀ p ∈ s.cores, p.2.ctx = some ctx → p.2.run = .idle) → ∃ t, exec (.contextScrub ctx) s = .next t ∧
      (t.ctx ctx).state = .free ∧ (t.ctx ctx).handles = [] ∧ (t.ctx ctx).kernels = [] ∧ (t.ctx ctx).lay = [] ∧
      (∀ n, n ≠ ctx → t.ctx n = s.ctx n) ∧ (∀ p ∈ t.cores, p.2.ctx ≠ some ctx ∧ ∀ e ∈ p.2.tlb, e.ctx ≠ ctx) ∧
      (∀ f ∈ t.flights, f.ctx ≠ ctx) ∧ (∀ p ∈ t.launches, p.2.ctx ≠ ctx) ∧
      (∀ p ∈ t.clusters, (∀ j ∈ p.2.queue, j.ctx ≠ ctx) ∧ (∀ e ∈ p.2.tlb, e.ctx ≠ ctx)) ∧ (∀ p ∈ t.engines, ∀ c ∈ p.2.queue, c.ctx ≠ ctx)))


/-! ### Queues and their packets (06 R107-R117, 09 R167) -/

/-- Bits lo + n - 1 : lo of a doubleword. -/
def Sys2Proof.Claims.bits (w : Word) (lo n : Nat) : Nat := w.toNat / 2 ^ lo % 2 ^ n

/-- Doubleword i of the head packet of queue q (06 R109, R111). -/
def Sys2Proof.Claims.packet (s : State) (q i : Nat) : Word :=
  s.word ((s.queue q).base.toNat + 64 * ((s.queue q).rptr.toNat % 2 ^ (s.queue q).log2n.toNat) + 8 * i)

/-- Queue q runs, a packet that QWPTR covers stands at its head, in memory that is there, and its context is there to take it (06 R107, R109, 14 R238). -/
def Sys2Proof.Claims.runs (s : State) (q : Nat) : Prop :=
  let x := s.queue q
  x.state = .running ∧ (s.die (q / 256)).lost = false ∧ s.lostMemory (s.packetAt q) = false ∧ ((s.ctx x.ctx.toNat).state = .live ∨ (s.ctx x.ctx.toNat).state = .stopped ∨
    (s.ctx x.ctx.toNat).state = .halted) ∧ 1 ≤ (x.wptr - x.rptr).toNat ∧ (x.wptr - x.rptr).toNat ≤ 2 ^ x.log2n.toNat

/-- The head packet is of a kind, its D0 is well formed, and no BARRIER keeps it (06 R111). -/
def Sys2Proof.Claims.heads (s : State) (q kind : Nat) : Prop :=
  let d := Sys2Proof.Claims.packet s q 0
  Sys2Proof.Claims.runs s q ∧ Sys2Proof.Claims.bits d 0 8 = kind ∧ Sys2Proof.Claims.bits d 10 6 = 0 ∧ (d.getLsbD 8 = true → (s.queue q).pending = [])

/-- A queue after its head packet was taken (06 R107). -/
def Sys2Proof.Claims.tookPacket (s t : State) (q : Nat) : Prop :=
  let x := s.queue q
  (t.queue q).rptr = x.rptr + 1 ∧ (t.queue q).state = (if x.rptr + 1 = x.wptr then .idle else .running) ∧ (t.queue q).wptr = x.wptr ∧
    (t.queue q).err = x.err ∧ ∀ p, p ≠ q → (t.queue p).state = (s.queue p).state ∧ (t.queue p).rptr = (s.queue p).rptr

/-- A queue whose head packet is refused with a code (06 R116). -/
def Sys2Proof.Claims.refusedPacket (s : State) (q code : Nat) (o : Out) : Prop :=
  let d := Sys2Proof.Claims.packet s q 0
  ∃ t, o = .next t ∧ (t.queue q).state = .error ∧ (t.queue q).err.toNat = code ∧ (t.queue q).rptr = (s.queue q).rptr ∧
    (t.queue q).tag.toNat = Sys2Proof.Claims.bits d 32 32 ∧ t.launches = s.launches

/-- An event whose home stands here, on a die that is there, and which the host does not hold (09 R167, 06 R121). -/
def Sys2Proof.Claims.eventHere (s : State) (ctx : Nat) (e : BitVec 16) : Prop :=
  (s.ctx ctx).home = true ∧ s.homeLost ctx e = false ∧ (s.ctx ctx).hostHolds e = false

/-- The completion event of the head packet, if it asks for one, is set (06 R113). -/
def Sys2Proof.Claims.doneSet (s t : State) (q : Nat) : Prop :=
  let d := Sys2Proof.Claims.packet s q 0
  let c := (s.queue q).ctx.toNat
  let e := BitVec.ofNat 16 (Sys2Proof.Claims.bits d 16 16)
  d.getLsbD 9 = true → Sys2Proof.Claims.eventHere s c e → ((t.ctx c).event e).set = true

/-- Only queue q has changed, and it is y. -/
def Sys2Proof.Claims.onlyQueue (s t : State) (q : Nat) (y : Queue) : Prop :=
  t.queue q = y ∧ (∀ p, p ≠ q → t.queue p = s.queue p) ∧ t = { s with queues := t.queues }

/-- The events of a queue's registers (06 R107-R109): a write of EN, of QCMD and of QWPTR moves it as the state table says; a write that the
table does not list sets CMDERR, or is a pointer alone; a pointer that overruns the ring is an ERROR with code 6 and the head packet's TAG, in
WAITING as in RUNNING. -/
def Sys2Proof.Claims.QueueRegisterEvents : Prop :=
  (∀ (q : Nat) (s : State), let x := s.queue q
    let only (i : Instr) (y : Queue) : Prop := ∃ t, exec i s = .next t ∧ Sys2Proof.Claims.onlyQueue s t q y
    let aligned : Prop := x.base.toNat % (64 * 2 ^ x.log2n.toNat) = 0
    (x.state = .disabled → (s.ctx x.ctx.toNat).state = .live → aligned → only (.queueEnable q) { x with en := true, state := .idle }) ∧
    (x.state = .disabled → ¬((s.ctx x.ctx.toNat).state = .live ∧ aligned) → only (.queueEnable q) { x with cmderr := true }) ∧
    (x.state ≠ .disabled → exec (.queueEnable q) s = .next s) ∧
    (∃ t, exec (.queueDisable q) s = .next t ∧ t.queue q = { x with en := false, state := .disabled, err := 0, onEvent := false, woken := false } ∧
      (∀ p, p ≠ q → t.queue p = s.queue p) ∧ t = { s with queues := t.queues, ctxs := t.ctxs } ∧
      (∀ e, Waiter.queue q ∉ ((t.ctx x.ctx.toNat).event e).waiters) ∧ (∀ a ∈ (t.ctx x.ctx.toNat).away, a.who ≠ .queue q) ∧ ∀ c, c ≠ x.ctx.toNat → t.ctx c = s.ctx c) ∧
    (x.state ≠ .error → only (.qcmdSkip q) { x with cmderr := true } ∧ only (.qcmdReset q) { x with cmderr := true }) ∧
    (x.state = .error → only (.qcmdReset q) { x with state := .idle, rptr := x.wptr, err := 0 }) ∧
    (x.state = .error → x.rptr + 1 = x.wptr → only (.qcmdSkip q) { x with state := .idle, rptr := x.rptr + 1, err := 0 }) ∧
    (x.state = .error → x.rptr + 1 ≠ x.wptr → (x.wptr - (x.rptr + 1)).toNat ≤ 2 ^ x.log2n.toNat →
      only (.qcmdSkip q) { x with state := .running, rptr := x.rptr + 1, err := 0 }) ∧
    (∀ w, x.state = .disabled ∨ x.state = .error → only (.doorbellWrite q w) { x with wptr := w }) ∧
    (∀ w, x.state = .waiting → (w - x.rptr).toNat ≤ 2 ^ x.log2n.toNat → only (.doorbellWrite q w) { x with wptr := w }) ∧
    (∀ w, x.state = .idle ∨ x.state = .running → w = x.rptr → only (.doorbellWrite q w) { x with wptr := w, state := .idle }) ∧
    (∀ w, x.state = .idle ∨ x.state = .running → w ≠ x.rptr → (w - x.rptr).toNat ≤ 2 ^ x.log2n.toNat →
      only (.doorbellWrite q w) { x with wptr := w, state := .running }) ∧
    (∀ w, x.state = .idle ∨ x.state = .running ∨ x.state = .waiting → 2 ^ x.log2n.toNat < (w - x.rptr).toNat →
      ∃ t, exec (.doorbellWrite q w) s = .next t ∧ (t.queue q).state = .error ∧ (t.queue q).err = 6 ∧ (t.queue q).wptr = w ∧
        (t.queue q).rptr = x.rptr ∧ (t.queue q).tag.toNat = Sys2Proof.Claims.bits (Sys2Proof.Claims.packet s q 0) 32 32))

/-- The fields of a LAUNCH or a TIMED-LAUNCH as 06 R112, 08 R140 and R143 admit them. -/
def Sys2Proof.Claims.launchOk (d : Nat → Word) (timed : Prop) : Prop :=
  let f := fun (i lo n : Nat) => Sys2Proof.Claims.bits (d i) lo n
  f 1 50 14 = 0 ∧ f 2 13 3 = 0 ∧ f 2 29 3 = 0 ∧ f 2 35 5 = 0 ∧ f 2 43 21 = 0 ∧ f 2 32 3 ≤ 5 ∧ f 2 40 3 ≤ 5 ∧ f 2 0 13 + 1 ≤ 4096 ∧
    f 2 16 13 + 1 ≤ 4096 ∧ (f 2 0 13 + 1) % 2 ^ f 2 32 3 = 0 ∧ (f 2 16 13 + 1) % 2 ^ f 2 40 3 = 0 ∧
    (f 4 32 32 = 0 ∨ 100 ≤ f 4 32 32 ∧ f 4 32 32 ≤ 100000) ∧ (timed ∨ d 5 = 0) ∧ d 6 = 0 ∧ d 7 = 0

/-- LAUNCH and TIMED-LAUNCH (06 R112-R117, 08 R140, R143): bad fields are refused with code 2, a kernel that is not loaded for the queue with
3, an actor that it has not with 2, an argument block that does not translate with 8; a launch that is taken is live, with the packet's
fields, under the next number. A packet of no kind is refused with code 1, one with reserved bits in D0 with code 2, one with BARRIER waits
for the queue's launches. -/
def Sys2Proof.Claims.LaunchPackets : Prop :=
  (∀ (q : Nat) (s : State) (i : Instr), i ∈ [Instr.launch q, .timedLaunch q, .load q, .unload q, .signal q, .waitPacket q, .copyPacket q] →
    Sys2Proof.Claims.runs s q →
    let d := Sys2Proof.Claims.packet s q 0
    let kind := Sys2Proof.Claims.bits d 0 8
    let mine := [Instr.launch q, .timedLaunch q, .load q, .unload q, .signal q, .waitPacket q, .copyPacket q].idxOf i + 1
    (kind = 0 ∨ 7 < kind → Sys2Proof.Claims.refusedPacket s q 1 (exec i s)) ∧
    (1 ≤ kind → kind ≤ 7 → kind ≠ mine → exec i s = .next s) ∧
    (kind = mine → Sys2Proof.Claims.bits d 10 6 ≠ 0 → Sys2Proof.Claims.refusedPacket s q 2 (exec i s)) ∧
    (kind = mine → Sys2Proof.Claims.bits d 10 6 = 0 → d.getLsbD 8 = true → (s.queue q).pending ≠ [] → ∃ t, exec i s = .next t ∧
      Sys2Proof.Claims.onlyQueue s t q { s.queue q with state := .waiting, onEvent := false, woken := false, since := s.time })) ∧
  (∀ (q : Nat) (s : State) (timed : Bool), Sys2Proof.Claims.heads s q (if timed then 2 else 1) →
    let x := s.queue q
    let c := x.ctx.toNat
    let d := Sys2Proof.Claims.packet s q
    let f := fun (i lo n : Nat) => Sys2Proof.Claims.bits (d i) lo n
    let o := exec (if timed then .timedLaunch q else .launch q) s
    let kn := (s.ctx c).kernel (f 1 0 32)
    let mine := kn.state = .loaded ∧ q ∈ kn.refs
    let readable := f 4 0 32 = 0 ∨ (s.vaToPa c .read (d 3)).isSome = true
    (¬Sys2Proof.Claims.launchOk d (timed = true) → Sys2Proof.Claims.refusedPacket s q 2 o) ∧
    (Sys2Proof.Claims.launchOk d (timed = true) → ¬mine → Sys2Proof.Claims.refusedPacket s q 3 o) ∧
    (Sys2Proof.Claims.launchOk d (timed = true) → mine → kn.actors.length ≤ f 1 32 16 → Sys2Proof.Claims.refusedPacket s q 2 o) ∧
    (Sys2Proof.Claims.launchOk d (timed = true) → mine → f 1 32 16 < kn.actors.length → ¬readable → Sys2Proof.Claims.refusedPacket s q 8 o) ∧
    (Sys2Proof.Claims.launchOk d (timed = true) → mine → f 1 32 16 < kn.actors.length → readable → (s.ctx c).state = .live →
      ∃ t y, o = .next t ∧ Sys2Proof.Claims.tookPacket s t q ∧ t.nextLaunch = s.nextLaunch + 1 ∧ (t.queue q).pending = x.pending ++ [s.nextLaunch.toNat] ∧
        t.launch? s.nextLaunch.toNat = some y ∧ y.ctx = c ∧ y.queue = q ∧ y.kernel = f 1 0 32 ∧ y.entry = f 1 32 16 ∧ y.prio = f 1 48 2 ∧
        y.w = f 2 0 13 + 1 ∧ y.h = f 2 16 13 + 1 ∧ y.lgw = f 2 32 3 ∧ y.lgh = f 2 40 3 ∧ y.argVa = d 3 ∧ y.argLen = f 4 0 32 ∧
        y.quantum = (if f 4 32 32 = 0 then 200 else f 4 32 32) ∧ y.start = d 5 ∧ y.live = true ∧ y.cast = none ∧ y.taken = [] ∧
        y.done = (if (d 0).getLsbD 9 then some (BitVec.ofNat 16 (f 0 16 16)) else none) ∧
        (∀ g, (y.group g).state = .pending ∧ (y.group g).bound = false) ∧ y.released = decide ((d 5).toNat ≤ s.time.toNat)) ∧
    (Sys2Proof.Claims.launchOk d (timed = true) → mine → f 1 32 16 < kn.actors.length → readable → (s.ctx c).state ≠ .live → o = .next s))

/-- LOAD, UNLOAD, SIGNAL, WAIT, COPY and the end of a queue's waiting (06 R107, R112-R116, 07 R134, R139, 09 R167): each packet's checks with
their codes, its effect, its completion event, and the queue's place behind it. -/
def Sys2Proof.Claims.QueuePackets : Prop :=
  (∀ (q : Nat) (s : State), Sys2Proof.Claims.heads s q 3 →
    let x := s.queue q
    let c := x.ctx.toNat
    let d := Sys2Proof.Claims.packet s q
    let kid := Sys2Proof.Claims.bits (d 1) 0 32
    let kn := (s.ctx c).kernel kid
    let o := exec (.load q) s
    let ok := kid ≠ 0 ∧ Sys2Proof.Claims.bits (d 1) 32 32 = 0 ∧ d 4 = 0 ∧ d 5 = 0 ∧ d 6 = 0 ∧ d 7 = 0
    let same := q ∉ kn.refs ∧ kn.cbase = d 2 ∧ kn.clen = d 3
    let pages := (d 3).toNat / 65536 + 2
    (¬ok → Sys2Proof.Claims.refusedPacket s q 2 o) ∧
    (ok → kn.state = .loaded → ¬same → Sys2Proof.Claims.refusedPacket s q 4 o) ∧
    let room (s : State) : Prop := (s.ctx c).sv.waiting = [] ∧ (s.ctx c).sv.room = true
    (ok → kn.state = .loaded → same → room s → ∃ t, o = .next t ∧ Sys2Proof.Claims.tookPacket s t q ∧ Sys2Proof.Claims.doneSet s t q ∧
      (t.ctx c).kernel kid = { kn with refs := kn.refs ++ [q] } ∧ (t.ctx c).sv.next = (s.ctx c).sv.next + 1) ∧
    (ok → (kn.state = .loaded ∧ same ∧ ¬room s) ∨ kn.state = .retiring → o = .next s) ∧
    (ok → kn.state = .absent → 2 ^ 32 ≤ (d 3).toNat → Sys2Proof.Claims.refusedPacket s q 5 o) ∧
    (ok → kn.state = .absent → (d 3).toNat < 2 ^ 32 → s.readVa c pages (d 2) (d 3).toNat = none → Sys2Proof.Claims.refusedPacket s q 8 o) ∧
    (∀ b, ok → kn.state = .absent → (d 3).toNat < 2 ^ 32 → s.readVa c pages (d 2) (d 3).toNat = some b →
      s.installKernel c q kid (d 2) b = none → Sys2Proof.Claims.refusedPacket s q 5 o) ∧
    (∀ b va len s1, ok → kn.state = .absent → (d 3).toNat < 2 ^ 32 → s.readVa c pages (d 2) (d 3).toNat = some b →
      s.installKernel c q kid (d 2) b = some (va, len, s1) → room s1 →
      ∃ t, o = .next t ∧ Sys2Proof.Claims.tookPacket s t q ∧ ((t.ctx c).kernel kid).state = .loaded ∧ ((t.ctx c).kernel kid).refs = [q] ∧
        ((t.ctx c).kernel kid).cbase = d 2 ∧ ((t.ctx c).kernel kid).data = va ∧ ((t.ctx c).kernel kid).dataLen = len)) ∧
  (∀ (q : Nat) (s : State), Sys2Proof.Claims.heads s q 4 →
    let x := s.queue q
    let c := x.ctx.toNat
    let d := Sys2Proof.Claims.packet s q
    let kid := Sys2Proof.Claims.bits (d 1) 0 32
    let kn := (s.ctx c).kernel kid
    let o := exec (.unload q) s
    let ok := Sys2Proof.Claims.bits (d 1) 32 32 = 0 ∧ ∀ i ∈ [2, 3, 4, 5, 6, 7], d i = 0
    let mine := kn.state = .loaded ∧ q ∈ kn.refs
    (¬ok → Sys2Proof.Claims.refusedPacket s q 2 o) ∧
    (ok → ¬mine → Sys2Proof.Claims.refusedPacket s q 3 o) ∧
    (ok → mine → x.pending ≠ [] → o = .next s) ∧
    (ok → mine → x.pending = [] → ∃ t, o = .next t ∧ Sys2Proof.Claims.tookPacket s t q ∧ Sys2Proof.Claims.doneSet s t q ∧
      let kn' := (t.ctx c).kernel kid
      kn'.refs = kn.refs.filter (fun r => decide (r ≠ q)) ∧ kn'.state = (if kn'.refs = [] then .retiring else .loaded))) ∧
  (∀ (q : Nat) (s : State), Sys2Proof.Claims.heads s q 5 →
    let c := (s.queue q).ctx.toNat
    let d := Sys2Proof.Claims.packet s q
    let e := BitVec.ofNat 16 (Sys2Proof.Claims.bits (d 1) 0 16)
    let o := exec (.signal q) s
    let ok := Sys2Proof.Claims.bits (d 1) 17 47 = 0 ∧ ∀ i ∈ [2, 3, 4, 5, 6, 7], d i = 0
    (¬ok → Sys2Proof.Claims.refusedPacket s q 2 o) ∧
    (ok → (s.ctx c).waits (.queue q) = true → o = .next s) ∧
    (ok → (s.ctx c).waits (.queue q) = false → (s.ctx c).home = true → (s.homeLost c e = true ∨ (s.ctx c).hostHolds e = false) →
      ∃ t, o = .next t ∧ Sys2Proof.Claims.tookPacket s t q ∧ ((s.ctx c).evovf = false → Sys2Proof.Claims.doneSet s t q) ∧
        (Sys2Proof.Claims.eventHere s c e → (d 0).getLsbD 9 = false → ((t.ctx c).event e).set = !(d 1).getLsbD 16)) ∧
    (ok → (s.ctx c).waits (.queue q) = false → (s.ctx c).home = true → s.homeLost c e = false → (s.ctx c).hostHolds e = true →
      ∃ t, o = .next t ∧ t.queue q = s.queue q ∧ (t.ctx c).waits (.queue q) = true ∧ (t.ctx c).event e = (s.ctx c).event e)) ∧
  (∀ (q : Nat) (s : State), Sys2Proof.Claims.heads s q 6 →
    let c := (s.queue q).ctx.toNat
    let d := Sys2Proof.Claims.packet s q
    let e := BitVec.ofNat 16 (Sys2Proof.Claims.bits (d 1) 0 16)
    let o := exec (.waitPacket q) s
    let ok := Sys2Proof.Claims.bits (d 1) 17 47 = 0 ∧ ∀ i ∈ [3, 4, 5, 6, 7], d i = 0
    (¬ok → Sys2Proof.Claims.refusedPacket s q 2 o) ∧
    (ok → Sys2Proof.Claims.eventHere s c e → ((s.ctx c).event e).set = true → ∃ t, o = .next t ∧ Sys2Proof.Claims.tookPacket s t q ∧
      ((d 0).getLsbD 9 = false → ((t.ctx c).event e).set = !(d 1).getLsbD 16)) ∧
    (ok → Sys2Proof.Claims.eventHere s c e → ((s.ctx c).event e).set = false → (s.ctx c).evovf = false → ∃ t, o = .next t ∧
      t.queue q = { s.queue q with state := .waiting, onEvent := true, woken := false, since := s.time } ∧
      ((t.ctx c).event e).waiters = ((s.ctx c).event e).waiters ++ [.queue q] ∧ ((t.ctx c).event e).set = false) ∧
    (ok → (s.ctx c).home = false → ∃ t, o = .next t ∧ (∀ p, p ≠ q → t.queue p = s.queue p) ∧
      t.queue q = { s.queue q with state := .waiting, onEvent := true, woken := false, since := s.time })) ∧
  (∀ (q : Nat) (s : State), Sys2Proof.Claims.heads s q 7 →
    let c := (s.queue q).ctx.toNat
    let d := Sys2Proof.Claims.packet s q
    let n := (d 3).toNat
    let o := exec (.copyPacket q) s
    let ok := ∀ i ∈ [4, 5, 6, 7], d i = 0
    (¬ok → Sys2Proof.Claims.refusedPacket s q 2 o) ∧
    (ok → n = 0 → ∃ t, o = .next t ∧ Sys2Proof.Claims.tookPacket s t q ∧ Sys2Proof.Claims.doneSet s t q ∧ s.sameMemory t) ∧
    (ok → n ≠ 0 → s.plinthPa c .read (d 1) = none ∨ s.plinthPa c .write (d 2) = none → Sys2Proof.Claims.refusedPacket s q 8 o) ∧
    (∀ a b, ok → 0 < n → s.plinthPa c .read (d 1) = some a → s.plinthPa c .write (d 2) = some b → s.rangeMoving c (d 2) n = false → s.memOk →
      (d 1).toNat % 65536 + n ≤ 65536 → (d 2).toNat % 65536 + n ≤ 65536 → (a + n ≤ b ∨ b + n ≤ a) → (s.ctx c).evovf = false →
      ∃ t, o = .next t ∧ Sys2Proof.Claims.tookPacket s t q ∧ Sys2Proof.Claims.doneSet s t q ∧
        (∀ j, j < n → t.byte (b + j) = s.byte (a + j)) ∧ (∀ p, p < b ∨ b + n ≤ p → t.byte p = s.byte p) ∧
        ∀ g, t.tagAt g = if b < 16 * g + 16 ∧ 16 * g < b + n then false else s.tagAt g)) ∧
  (∀ (q : Nat) (s : State), let x := s.queue q
    let c := x.ctx.toNat
    let d := Sys2Proof.Claims.packet s q
    let e := BitVec.ofNat 16 (Sys2Proof.Claims.bits (d 1) 0 16)
    let covered := 1 ≤ (x.wptr - x.rptr).toNat ∧ (x.wptr - x.rptr).toNat ≤ 2 ^ x.log2n.toNat
    (x.state = .waiting → x.onEvent = true → x.woken = true → covered → ∃ t, exec (.queueWake q) s = .next t ∧
      Sys2Proof.Claims.tookPacket s t q ∧
      (Sys2Proof.Claims.eventHere s c e → (d 0).getLsbD 9 = false → (d 1).getLsbD 16 = true → ((t.ctx c).event e).set = false)) ∧
    (x.state = .waiting → x.onEvent = false → x.pending = [] → covered → ∃ t, exec (.queueWake q) s = .next t ∧
      Sys2Proof.Claims.onlyQueue s t q { x with state := .running }) ∧
    (x.state = .waiting → x.onEvent = false → x.pending ≠ [] → exec (.queueWake q) s = .next s) ∧
    (x.state = .waiting → x.onEvent = true → x.woken = false → d 2 ≠ 0 → x.since.toNat + (d 2).toNat ≤ s.time.toNat →
      Sys2Proof.Claims.refusedPacket s q 7 (exec (.waitTimeout q) s)) ∧
    (x.state = .waiting → x.onEvent = true → (d 2 = 0 ∨ s.time.toNat < x.since.toNat + (d 2).toNat) → exec (.waitTimeout q) s = .next s))


/-! ### Groups and launches (07 R139, 08 R143-R152, 06 R113) -/

/-- The cores of the w × h rectangle at (ox, oy) of die d, with their offsets in it, row by row (08 R136, 01 R9). -/
def Sys2Proof.Claims.rectangle (d ox oy w h : Nat) : List (Nat × Nat × Nat) :=
  (List.range h).flatMap (fun j => (List.range w).map (fun i => (d * 1024 + (ox + i) * 32 + (oy + j), i, j)))

/-- TIMED_LAUNCH_START, KERNEL_CODE_FREE, BIND, UNBIND and RETIRE (06 R113, 07 R139, 08 R143-R149): a held launch is released at its stamp and not
before; a retiring kernel that no firing holds is ABSENT; a bind sets its record and the coordinate CSRs of every core of the rectangle, and
at the first bind gives each the entry firing; a misplaced record halts the context; an unbind, for a group of a better class that waits, asks every core to stop; a retire leaves cores
that serve nothing. -/
def Sys2Proof.Claims.BindRecords : Prop :=
  (∀ (l : Nat) (s : State) (x : Launch), s.launch? l = some x →
    (x.live = true → x.start.toNat ≤ s.time.toNat → ∃ t, exec (.timedLaunchStart l) s = .next t ∧ t = { s with launches := t.launches } ∧
      t.launch? l = some { x with released := true } ∧ ∀ n, n ≠ l → t.launch? n = s.launch? n) ∧
    (s.time.toNat < x.start.toNat → exec (.timedLaunchStart l) s = .next s)) ∧
  (∀ (c kid : Nat) (s : State), let kn := (s.ctx c).kernel kid
    (kn.state ≠ .retiring ∨ s.codeHeld c kid kn = true → exec (.kernelCodeFree c kid) s = .next s) ∧
    (kn.state = .retiring → s.codeHeld c kid kn = false → ∃ t, exec (.kernelCodeFree c kid) s = .next t ∧ ((t.ctx c).kernel kid).state = .absent ∧
      (∀ k, (s.core k).ctx ≠ some c → t.core k = { s.core k with tlb := (t.core k).tlb, latch := (t.core k).latch }) ∧
      (∀ k, (s.core k).ctx = some c → (t.core k).firing = (s.core k).firing ∧
        ∀ f ∈ (t.core k).ready ++ (t.core k).matched, f.ofKernel kid = false ∨ f.started = true) ∧
      ∀ k, k ≠ kid → (t.ctx c).kernel k = (s.ctx c).kernel k)) ∧
  (∀ (die slot l g ox oy : Nat) (s : State) (x : Launch), s.launch? l = some x → (s.ctx x.ctx).sched = false → s.wantsSlot l g x = true →
    let d := die % 8
    let w := 2 ^ x.lgw
    let h := 2 ^ x.lgh
    let o := exec (.bind die slot l g ox oy) s
    let aligned := ox % w = 0 ∧ oy % h = 0 ∧ ox + w ≤ 32 ∧ oy + h ≤ 32
    let clear := ∀ p ∈ (s.die d).binds, p.2.op = 0 ∨ ¬(p.2.rect.1 < ox + w ∧ ox < p.2.rect.1 + p.2.rect.2.2.1 ∧ p.2.rect.2.1 < oy + h ∧
      oy < p.2.rect.2.1 + p.2.rect.2.2.2)
    (∀ cast, die / 8 = s.pkg.toNat → s.castPlace x = some cast → ¬(aligned ∧ clear) → ∃ t, o = .next t ∧ (t.ctx x.ctx).state = .halted ∧
      (t.ctx x.ctx).haltCause = 4 ∧ (∀ k, (t.core k).launch = (s.core k).launch ∧ (t.core k).vs = (s.core k).vs) ∧ t.launches = s.launches ∧
      t.dies = s.dies) ∧
    (∀ cast, die / 8 = s.pkg.toNat → s.castPlace x = some cast → aligned → clear → (s.bindAt d slot).op = 0 → slot < 1024 →
      (s.die d).lost = false → (∀ p ∈ Sys2Proof.Claims.rectangle d ox oy w h, (s.core p.1).ctx = none) → ∃ t z, o = .next t ∧
        t.launch? l = some z ∧ (z.group g).state = .resident ∧ (z.group g).bound = true ∧ (z.group g).slot = slot ∧
        z.cast = some cast ∧
        (let b := t.bindAt d slot
         b.b0.toNat = l % 2 ^ 32 + g % 2 ^ 24 * 2 ^ 32 + x.ctx % 256 * 2 ^ 56 ∧ b.rect = (ox, oy, 2 ^ (x.lgw % 8), 2 ^ (x.lgh % 8)) ∧ b.op = 1 ∧
         Sys2Proof.Claims.bits b.b1 16 2 = x.prio % 4 ∧ Sys2Proof.Claims.bits b.b1 32 32 = x.quantum % 2 ^ 32 ∧
         b.b2 = BitVec.ofNat 64 (cast + g * 2 ^ (x.lgw + x.lgh) * 0x60000) ∧ b.b3 = x.start) ∧
        z.taken = x.taken ∧
        (∀ p ∈ Sys2Proof.Claims.rectangle d ox oy w h, let y := t.core p.1
          let per := x.w / w
          y.ctx = some x.ctx ∧ y.launch = some l ∧ y.group = g ∧ y.run = .idle ∧ y.ldim = BitVec.ofNat 64 (x.w + x.h * 2 ^ 16) ∧
          y.gshape = BitVec.ofNat 64 (x.lgw + x.lgh * 2 ^ 4) ∧ y.gindex = BitVec.ofNat 64 (g + x.count * 2 ^ 32) ∧
          y.quantum = BitVec.ofNat 64 x.quantum ∧
          y.gcoord = BitVec.ofNat 64 (g % per * w + p.2.1 + (g / per * h + p.2.2) * 2 ^ 16) ∧
          ((x.group g).bound = false → (y.vs.getX 127).val = 0x000800000000003F0000000000000000#128 ∧ (y.vs.getX 127).tag = true ∧
            (∃ f ∈ y.ready ++ y.matched, f.code = .actor ⟨x.kernel, x.entry⟩ ∧ f.cls = x.prio ∧ f.inputs = [] ∧
              f.regs = List.replicate 9 XReg.zero ++ [s.argCap (some l)])))) ∧
    (die / 8 ≠ s.pkg.toNat → ∃ t z, o = .next t ∧ t.launch? l = some z ∧ (z.group g).state = .resident ∧ (z.group g).die = die ∧
      ((s.ctx x.ctx).lay.all (fun e => decide (e.dst.launch ≠ l)) = true → t.cores = s.cores))) ∧
  (∀ (die slot l g : Nat) (s : State) (x : Launch), s.groupAt die slot = some (l, g) → s.launch? l = some x →
    let gr := x.group g
    let o := exec (.unbind die slot) s
    let live := (s.ctx x.ctx).state ≠ .stopped
    (gr.state = .unbinding → s.isLocal gr = true → o = .next s) ∧
    (gr.state = .unbinding → s.isLocal gr = false → ∃ t z, o = .next t ∧ t.launch? l = some z ∧ (z.group g).state = .swapped ∧
      t.cores = s.cores) ∧
    (gr.state = .resident → s.takerOf x = none ∨ ¬live → o = .next s) ∧
    (∀ k, gr.state = .resident → s.takerOf x = some k → live → ∃ t z, o = .next t ∧ t.launch? l = some z ∧ (z.group g).state = .unbinding ∧
      z.taken = x.taken ++ [k] ∧ (s.isLocal gr = true → (t.bindAt (gr.die % 8) gr.slot).op = 2 ∧
        ∀ k ∈ x.cores l g, (s.core k).run = .running → (s.core k).preempt = none →
          (t.core k).preempt = some ⟨.better, s.cycle, false, false⟩))) ∧
  (∀ (die slot : Nat) (s : State), let b := s.bindAt (die % 8) slot
    let r := b.rect
    let ks := Sys2Proof.Claims.rectangle (die % 8) r.1 r.2.1 r.2.2.1 r.2.2.2
    (die / 8 ≠ s.pkg.toNat ∨ b.op ≠ 3 → exec (.retire die slot) s = .next s) ∧
    (die / 8 = s.pkg.toNat → b.op = 3 → (∀ p ∈ ks, (s.core p.1).svc = false) → ∃ t, exec (.retire die slot) s = .next t ∧
      (t.bindAt (die % 8) slot).op = 0 ∧ ∀ p ∈ ks, let y := t.core p.1
        y.launch = none ∧ y.run = .idle ∧ y.firing = none ∧ y.vs = VState.fresh ∧ y.inbox = [] ∧
        (∀ e ∈ y.tlb, some e.ctx ≠ (s.core p.1).ctx)))

/-- CAST_WRITE, QUANTUM_EXPIRY and LAUNCH_QUIESCENCE (05 R104, 08 R149-R152): a stopped core whose engine work has ended is cast and serves
nothing, the last one making its group SWAPPED, and a stopped core of a RESIDENT group is cast where it stands; at a quantum's end the first S eligible groups from the rotation pointer are granted the slots that the launch holds;
a quiescent launch retires every group and completes. -/
def Sys2Proof.Claims.RotationAndQuiescence : Prop :=
  (∀ (c ctx l : Nat) (s : State) (x : Launch), (s.core c).ctx = some ctx → (s.core c).launch = some l → s.launch? l = some x →
    let g := (s.core c).group
    let y := s.core c
    let o := exec (.castWrite c) s
    let last := ∀ k ∈ x.cores l g, k = c ∨ (s.core k).launch ≠ some l
    (s.ctx ctx).svcDirty = false → ∀ cast, s.castOf c = some cast →
    ((x.group g).state = .unbinding → y.run ≠ .idle ∨ s.engineBusy c = true → o = .next s) ∧
    ((x.group g).state = .unbinding → y.run = .idle → s.engineBusy c = false → ∃ t z, o = .next t ∧ (t.core c).launch = none ∧
      (t.core c).vs = VState.fresh ∧ (t.core c).inbox = [] ∧ t.launch? l = some z ∧
      (last → (z.group g).state = .swapped ∧ (t.bindAt ((x.group g).die % 8) (x.group g).slot).op = 0) ∧
      (¬last → (z.group g).state = .unbinding ∧ t.dies = s.dies) ∧
      ∀ k, k ≠ c → (t.core k).run = (s.core k).run ∧ (t.core k).ctx = (s.core k).ctx ∧ (t.core k).launch = (s.core k).launch) ∧
    ((x.group g).state = .resident → y.run ≠ .idle ∨ y.preempt.any Preempt.taken = false ∨ y.barred = true → o = .next s) ∧
    ((x.group g).state = .resident → y.run = .idle → y.preempt.any Preempt.taken = true → y.barred = false → ∃ t, o = .next t ∧
      t.launches = s.launches ∧ t.dies = s.dies ∧ (t.core c).lazy = some cast ∧ (t.core c).ready = y.ready ∧ (t.core c).inbox = y.inbox ∧
      (t.core c).preempt = y.preempt ∧ (y.svc = false → (t.core c).vs = { y.vs with t := [] }) ∧
      ∀ k, k ≠ c → (t.core k).vs = (s.core k).vs ∧ (t.core k).run = (s.core k).run)) ∧
  (∀ (l : Nat) (s : State) (x : Launch), s.launch? l = some x →
    let gs := List.range x.count
    let due := x.live = true ∧ (s.ctx x.ctx).state = .live ∧ x.since.toNat + x.quantum * 1000 ≤ s.time.toNat ∧
      (∀ g ∈ gs, (x.group g).state ≠ .unbinding) ∧ s.awaits l x = false ∧ s.slotsOf x ≠ 0
    let picked := ((gs.map (fun i => (x.rot + i) % x.count)).filter (fun g => s.eligible l g x)).take (s.slotsOf x)
    (¬due → exec (.quantumExpiry l) s = .next s) ∧
    (due → (s.ctx x.ctx).sched = false → ∃ t z, exec (.quantumExpiry l) s = .next t ∧ t.launch? l = some z ∧
      z.rot = (match picked.getLast? with | some g => (g + 1) % x.count | none => x.rot) ∧ z.since = s.time ∧
      (∀ g ∈ gs, (z.group g).granted = decide (g ∈ picked)) ∧
      (∀ g ∈ gs, g ∈ picked ∨ (x.group g).state ≠ .resident → (z.group g).state = (x.group g).state) ∧
      let fresh := picked.filter (fun g => decide ((x.group g).state ≠ .resident))
      let resident := gs.filter (fun g => decide ((x.group g).state = .resident))
      let gone := gs.filter (fun g => decide ((x.group g).state = .resident) && decide ((z.group g).state ≠ .resident))
      gone.length = min (fresh.length - (s.slotsOf x - resident.length)) (resident.filter (fun g => decide (g ∉ picked))).length ∧
      ∀ g ∈ gone, (z.group g).state = .unbinding)) ∧
  (∀ (l : Nat) (s : State) (x : Launch), s.launch? l = some x →
    (x.live = false ∨ (s.ctx x.ctx).state = .draining ∨ s.quiescent l x = false → exec (.launchQuiescence l) s = .next s) ∧
    (x.live = true → (s.ctx x.ctx).state ≠ .draining → s.quiescent l x = true → ∃ t z, exec (.launchQuiescence l) s = .next t ∧
      t.launch? l = some z ∧ z.live = false ∧ (∀ g, g < x.count → (z.group g).state = .retired) ∧ l ∉ (t.queue x.queue).pending ∧
      (∀ n ∈ (s.queue x.queue).pending, n ≠ l → n ∈ (t.queue x.queue).pending) ∧
      ∀ e, x.done = some e → Sys2Proof.Claims.eventHere s x.ctx e → ((t.ctx x.ctx).event e).set = true))


/-! ### What arrives at a core (05 R96, R100, 09 R156-R162, R169, 10 R173-R176, 17 R319, R325, 19 R366, R379, 03 R61) -/

/-- Publication i is next of its sender to its virtual core, which core `k` runs, and its context takes it. -/
def Sys2Proof.Claims.arrives (s : State) (i : Nat) (f : Flight) (k : Nat) : Prop :=
  s.flights[i]? = some f ∧ s.oldestFlight i f = true ∧ s.place f.dst = .here k ∧
    ((s.ctx f.ctx).state = .live ∨ (s.ctx f.ctx).state = .stopped ∨ (s.ctx f.ctx).state = .halted)

/-- A context has one new event to deliver: EMPTY_HANDLER, met at a coordinate, for `what` (05 R99). -/
def Sys2Proof.Claims.emptied (s t : State) (ctx : Nat) (coord what : Word) : Prop :=
  ∃ e, (t.ctx ctx).pending = (s.ctx ctx).pending ++ [e] ∧ e.regs.take 3 = [0x40, coord, what] ∧ e.fault = false

/-- What an inbox holds, but for what its firings have reserved. -/
def Sys2Proof.Claims.inbox (c : Core) : List (Nat × Msg × Option Binding) := c.inbox.map (fun m => (m.id, m.msg, m.bound))

/-- Join counter j of a core's virtual core. -/
def Sys2Proof.Claims.joinOf (s : State) (k j : Nat) : Join := Table.get Join.idle (s.core k).home.joins j

/-- What a decrement of m from `src` does to counter j of core `k` (10 R173, R175). -/
def Sys2Proof.Claims.decremented (s t : State) (k : Nat) (f : Flight) (m j : Nat) : Prop :=
  let jn := Sys2Proof.Claims.joinOf s k j
  let ctx := s.ctxOf k
  (jn.state = .armed → m < jn.count.toNat → Sys2Proof.Claims.joinOf t k j = { jn with count := jn.count - BitVec.ofNat 24 m }) ∧
  (jn.state = .armed → jn.count.toNat ≤ m → (s.ctx ctx).joinBound jn j = true →
    let past := decide (jn.count.toNat < m)
    ∃ b, Sys2Proof.Claims.joinOf t k j = { jn with count := 0, state := .fired, exceeded := past, last := f.src, taken := b }) ∧
  (jn.state = .armed → jn.count.toNat ≤ m → jn.taken = false → (s.ctx ctx).joinBound jn j = false →
    Sys2Proof.Claims.joinOf t k j = Join.idle ∧ ∃ e ∈ (t.ctx ctx).pending, e.regs.take 3 = [0x40, s.coordW k, BitVec.ofNat 64 (0x1000 + j)]) ∧
  (jn.state ≠ .armed → Sys2Proof.Claims.emptied s t ctx (s.coordW k) (BitVec.ofNat 64 (0x1000 + j)) ∧
    Sys2Proof.Claims.joinOf t k j = jn)

/-- MESSAGE_ARRIVAL, WAKE_ARRIVAL and STREAM_MESSAGE_ARRIVAL (09 R156-R162, 05 R96, R100, 03 R61): a message bound to an actor enters the inbox,
or the lay-by where the inbox is full, where earlier ones wait there, or where its group has no cores; one without an actor is a dead letter
with an EMPTY_HANDLER event; a FIRE's makes a firing of its handle's code; a stream's doublewords enter IB; a context that drains drops and counts what arrives. The one message that an
actor's only input asks for makes its firing. -/
def Sys2Proof.Claims.MessagesArrive : Prop :=
  (∀ (i k : Nat) (s : State) (f : Flight) (m : Msg) (o : Out), f.body = .msg m → m.kind ≠ .stream →
    o = exec (if m.kind = .completion then .wakeArrival i else .messageArrival i) s →
    (m.kind ≠ .fire → Sys2Proof.Claims.arrives s i f k → (s.ctx f.ctx).bindMsg m = none → ∃ t, o = .next t ∧ t.flights = s.flights.eraseIdx i ∧
      Sys2Proof.Claims.emptied s t f.ctx (s.coordW k) (BitVec.ofNat 64 m.hidx) ∧ t.cores = s.cores) ∧
    (∀ b, m.kind ≠ .fire → Sys2Proof.Claims.arrives s i f k → (s.ctx f.ctx).bindMsg m = some b → (s.core k).inbox.length < 64 →
      (s.core k).barred = false →
      ((s.ctx f.ctx).lay.all (fun e => decide (e.dst ≠ f.dst))) = true → ∃ t, o = .next t ∧ t.flights = s.flights.eraseIdx i ∧
        Sys2Proof.Claims.inbox (t.core k) = Sys2Proof.Claims.inbox (s.core k) ++ [((s.core k).nextMsg, m, some b)] ∧
        (t.core k).nextMsg = (s.core k).nextMsg + 1 ∧ (t.core k).run = (s.core k).run ∧
        ∀ kid kn a, (s.ctx f.ctx).kernels = [(kid, kn)] → kn.state = .loaded → kn.actors = [a] → a.inputs = [⟨.message, 1, 0⟩] → b = ⟨kid, 0⟩ →
          (s.core k).ctx = some f.ctx → m.kind ≠ .completion → (∀ y ∈ (s.core k).inbox, y.reserved = true) → (s.core k).nextMsg ∉ (s.core k).inbox.map InMsg.id →
          ∃ g, (t.core k).ready ++ (t.core k).matched = (s.core k).ready ++ (s.core k).matched ++ [g] ∧ g.code = .actor b ∧
            g.inputs = [.msg (s.core k).nextMsg] ∧ g.cls = s.coreClass k ∧
            g.regs = m.regs ++ List.replicate (8 - m.regs.length) XReg.zero ++ [XReg.plain (m.sender.setWidth 64), s.argCap (s.core k).launch]) ∧
    (∀ b, m.kind ≠ .fire → Sys2Proof.Claims.arrives s i f k → (s.ctx f.ctx).bindMsg m = some b →
      (64 ≤ (s.core k).inbox.length ∨ (s.core k).barred = true ∨ ∃ e ∈ (s.ctx f.ctx).lay, e.dst = f.dst) → (s.ctx f.ctx).lay.length < 2 ^ (s.ctx f.ctx).layLog / 256 →
      ∃ t, o = .next t ∧ t.flights = s.flights.eraseIdx i ∧ t.cores = s.cores ∧
        (t.ctx f.ctx).lay = (s.ctx f.ctx).lay ++ [{ dst := f.dst, target := (s.coord k).toNat, src := f.src, body := f.body, bound := some b }]) ∧
    (m.kind = .fire → Sys2Proof.Claims.arrives s i f k → (s.core k).inbox.length < 64 → (s.core k).barred = false → (s.core k).ctx = some f.ctx →
      ((s.ctx f.ctx).lay.all (fun e => decide (e.dst ≠ f.dst))) = true → ∃ t g, o = .next t ∧ t.flights = s.flights.eraseIdx i ∧
        (t.core k).ready ++ (t.core k).matched = (s.core k).ready ++ (s.core k).matched ++ [g] ∧ g.inputs = [.msg (s.core k).nextMsg] ∧
        (∀ h, m.href = some h → g.code = .handle h) ∧ g.regs = m.regs ++ [XReg.plain (m.sender.setWidth 64), s.argCap (s.core k).launch]) ∧
    (∀ b, m.kind ≠ .fire → s.flights[i]? = some f → s.oldestFlight i f = true → s.place f.dst = .waiting → (s.ctx f.ctx).state = .live →
      (s.ctx f.ctx).bindMsg m = some b → (s.ctx f.ctx).lay.length < 2 ^ (s.ctx f.ctx).layLog / 256 →
      ∃ t, o = .next t ∧ t.flights = s.flights.eraseIdx i ∧ t.cores = s.cores ∧
        (t.ctx f.ctx).lay = (s.ctx f.ctx).lay ++ [{ dst := f.dst, target := 0, src := f.src, body := f.body, bound := some b }]) ∧
    (s.flights[i]? = some f → s.oldestFlight i f = true → (s.ctx f.ctx).state = .draining → ∃ t, o = .next t ∧
      t.flights = s.flights.eraseIdx i ∧ t.cores = s.cores ∧ (t.ctx f.ctx).cdrop = (s.ctx f.ctx).cdrop + 1)) ∧
  (∀ (i k : Nat) (s : State) (f : Flight) (m : Msg), f.body = .msg m → m.kind = .stream → Sys2Proof.Claims.arrives s i f k →
    ∃ t, exec (.streamMessageArrival i) s = .next t ∧ t.flights = s.flights.eraseIdx i ∧ (∀ j, j ≠ k → t.core j = s.core j) ∧
      t.core k = { s.core k with ib := (s.core k).ib ++ (m.regs.take 8).map (fun r => { data := r.addr, ctl := false }) }) ∧
  (∀ (c : Nat) (s : State) (ctx l : Nat) (msgs : List (Msg × Binding)), (s.core c).ctx = some ctx → (s.core c).launch = some l →
    (s.core c).barred = false →
    let g := (s.core c).gcoord
    let v : VCore := ⟨l, Sys2Proof.Claims.bits g 0 12, Sys2Proof.Claims.bits g 16 12⟩
    let mine := (s.ctx ctx).lay.filter (fun e => decide (e.dst = v))
    mine.map (fun e => (e.body, e.bound)) = msgs.map (fun p => (Body.msg p.1, some p.2)) →
    (∀ p ∈ msgs, p.1.kind ≠ .stream ∧ p.1.kind ≠ .fire ∧ ∃ a, ((s.ctx ctx).kernel p.2.kernel).actor? p.2.actor = some a ∧ a.accepts p.1.kind = true) →
    (s.core c).inbox.length + msgs.length ≤ 64 → ∃ t, exec (.laybyReturn c) s = .next t ∧
      (t.ctx ctx).lay = (s.ctx ctx).lay.filter (fun e => decide (e.dst ≠ v)) ∧
      (t.ctx ctx).layRead = (s.ctx ctx).layRead + BitVec.ofNat 64 msgs.length ∧
      (t.core c).inbox.map (fun m => (m.msg, m.bound)) = (s.core c).inbox.map (fun m => (m.msg, m.bound)) ++ msgs.map (fun p => (p.1, some p.2)) ∧
      ∀ j, j ≠ c → t.core j = s.core j)

/-- JOIN_DECREMENT_ARRIVAL, REMOTE_OPERATION_ARRIVAL, MCST_ARRIVAL and CARRY_ARRIVAL (10 R173-R175, 17 R319, R325, 19 R379): a decrement lowers
an armed counter, which fires at zero; an operation acts on the owner's local store at once and its reply carries what stood there; a
multicast writes 128 bytes and counts one decrement; a carry enters the mailbox while fewer than 16 stand there. -/
def Sys2Proof.Claims.BodiesArrive : Prop :=
  (∀ (i k : Nat) (s : State) (f : Flight) (m j : Nat), f.body = .join m j → Sys2Proof.Claims.arrives s i f k → (s.core k).ctx = some f.ctx →
    ∃ t, exec (.joinDecrementArrival i) s = .next t ∧ t.flights = s.flights.eraseIdx i ∧ Sys2Proof.Claims.decremented s t k f m j ∧
      (t.core k).run = (s.core k).run) ∧
  (∀ (i k : Nat) (s : State) (f : Flight) (op : RemOp) (off w : Nat) (b c : Word) (reply : Option Nat), f.body = .remote op off w b c reply →
    Sys2Proof.Claims.arrives s i f k → w = 4 ∨ w = 8 → off + w ≤ 262144 → f.src.toNat / 8192 = s.pkg.toNat →
    let old := (s.core k).home.lsNat off w
    let new := match op with
      | .get => old
      | .put => b.toNat % 2 ^ (8 * w)
      | .add => (old + b.toNat) % 2 ^ (8 * w)
      | .cas => if old = c.toNat % 2 ^ (8 * w) then b.toNat % 2 ^ (8 * w) else old
    ∃ t, exec (.remoteOperationArrival i) s = .next t ∧ t.flights = s.flights.eraseIdx i ∧ (t.core k).home.lsNat off w = new ∧
      (∀ a, a < off ∨ off + w ≤ a → (t.core k).home.lsByte a = (s.core k).home.lsByte a) ∧
      (∀ n d sp, reply = some n → (s.core n).run = .waiting (.remote d none) sp →
        (t.core n).run = .waiting (.remote d (some (BitVec.ofNat 64 old))) sp) ∧
      (∀ n, n ≠ k → reply ≠ some n → t.core n = s.core n)) ∧
  (∀ (i k : Nat) (s : State) (f : Flight) (off j : Nat) (d : Vec), f.body = .mcst off d j → Sys2Proof.Claims.arrives s i f k →
    (s.core k).ctx = some f.ctx → off + 128 ≤ 262144 →
    ∃ t, exec (.mcstArrival i) s = .next t ∧ t.flights = s.flights.eraseIdx i ∧ Sys2Proof.Claims.decremented s t k f 1 j ∧
      (∀ n, n < 128 → (t.core k).home.lsByte (off + n) = BitVec.ofNat 8 (d.toNat / 2 ^ (8 * n))) ∧
      (∀ a, a < off ∨ off + 128 ≤ a → (t.core k).home.lsByte a = (s.core k).home.lsByte a)) ∧
  (∀ (i k : Nat) (s : State) (f : Flight) (tag : BitVec 8) (v : Word), f.body = .carry tag v → Sys2Proof.Claims.arrives s i f k →
    ((s.core k).mailbox.length < 16 → ∃ t, exec (.carryArrival i) s = .next t ∧ t.flights = s.flights.eraseIdx i ∧
      t.core k = { s.core k with mailbox := (s.core k).mailbox ++ [(tag, v)] } ∧ ∀ j, j ≠ k → t.core j = s.core j) ∧
    (16 ≤ (s.core k).mailbox.length → exec (.carryArrival i) s = .next s))

/-- MIGRATE_DEPART, LATE_REPLY_REDIRECT and WAYMARK_EXPIRY (02 R31, 09 R169): once nothing that the core has published is unacknowledged, the migration message
leaves with the firing's x registers, a waymark with the firing's identity stands for 4,096 cycles at the old core, and the firing is ended; a late reply lowers what a waymark is owed; a waymark that is owed
nothing is taken away at its time. -/
def Sys2Proof.Claims.MigrationLeaves : Prop :=
  (∀ (c : Nat) (s : State) (f : FR) (sp : Bool) (dst : VCore) (a : Word) (g : Firing), (s.core c).run = .waiting .migrate sp →
    (s.core c).again = some (.migrate f) → s.target c f.a = .ok (dst, a) → (s.core c).firing = some g → g.svc = false →
    (s.ctx (s.ctxOf c)).layFull = false → (s.place dst = .waiting ∨ ∃ k, s.place dst = .here k) →
    (s.owesAck c = true → exec (.migrateDepart c) s = .next s) ∧
    (s.owesAck c = false → dst ≠ (s.core c).here → (s.core c).waymarks.length < 8 → (s.core c).launch.isSome = true → ∃ t m, exec (.migrateDepart c) s = .next t ∧
      t.flights = s.flights ++ [{ src := s.coord c, ctx := s.ctxOf c, dst, body := .msg m }] ∧ m.kind = .migration ∧ m.regs = (s.vs c).block 1 ∧
      m.hidx = targetHidx a ∧ m.sender = s.coord c ∧ m.born = s.time ∧ (t.core c).run = .idle ∧ (t.core c).firing = none ∧
      (∃ n, (t.core c).waymarks = (s.core c).waymarks ++
        [{ code := g.code, launch := g.launch, start := g.start, target := dst, expiry := s.cycle + 4096, owed := n }])) ∧
    (dst ≠ (s.core c).here → 8 ≤ (s.core c).waymarks.length → exec (.migrateDepart c) s = .next s)) ∧
  (∀ (c : Nat) (s : State) (a b : List Waymark) (w : Waymark), (s.core c).waymarks = a ++ w :: b →
    ((∀ x ∈ a, x.owed = 0) → w.owed ≠ 0 → ∃ t, exec (.lateReplyRedirect c) s = .next t ∧ s.onlyCore t c ∧
      t.core c = { s.core c with waymarks := a ++ { w with owed := w.owed - 1 } :: b }) ∧
    ((∀ x ∈ a, x.owed ≠ 0 ∨ s.cycle < x.expiry) → w.owed = 0 → w.expiry ≤ s.cycle → ∃ t, exec (.waymarkExpiry c) s = .next t ∧
      s.onlyCore t c ∧ t.core c = { s.core c with waymarks := a ++ b })) ∧
  (∀ (c : Nat) (s : State), ((∀ w ∈ (s.core c).waymarks, w.owed = 0) → exec (.lateReplyRedirect c) s = .next s) ∧
    ((∀ w ∈ (s.core c).waymarks, w.owed ≠ 0 ∨ s.cycle < w.expiry) → exec (.waymarkExpiry c) s = .next s))


/-! ### Firings start, stop and go on (05 R102-R103, 09 R154-R168, 10 R179, 17 R325, 19 R368, R376-R380, 20 R401) -/

/-- SCHEDULER_PICK (09 R160-R163, 03 R42, R68): of the firings that may run, the first of the best class starts: at its code with x1-x10 as
given and the other registers but the keep registers zero, x9 being this core's coordinate where no message gives it, or where its safe point left it; every other ready firing is passed over, and rises
a class at its 64th time; so a READY firing of a RESIDENT group of a LIVE context starts, where none is better; a firing whose kernel is gone is lost with an EMPTY_HANDLER event. A core that is not free picks nothing. -/
def Obligations.SchedulerPicks : Prop :=
  ∀ (c ctx : Nat) (s : State), (s.core c).ctx = some ctx →
    ((s.core c).run ≠ .idle ∨ (s.core c).preempt.isSome = true ∨ (s.core c).barred = true → exec (.schedulerPick c) s = .next s) ∧
    (∀ (l : Nat) (x : Launch) (a b : List Firing) (f : Firing) (kb : Binding) (act : Actor) (va : Word) (n : Nat),
      (s.core c).run = .idle → (s.core c).preempt = none → (s.core c).barred = false → (s.ctx ctx).state = .live → (s.core c).launch = some l →
      s.launch? l = some x → (x.group (s.core c).group).state = .resident → (s.core c).ready = a ++ f :: b → (∀ g ∈ a, f.cls < g.cls) →
      (∀ g ∈ b ++ (s.core c).matched, f.cls ≤ g.cls) → f.cls ≤ x.prio → f.cls ≤ 3 → f.svc = false → f.resume = none → f.code = .actor kb →
      f.launch = some l → (x.released = true ∨ f.inputs ≠ []) → ((s.ctx ctx).kernel kb.kernel).state = .loaded →
      ((s.ctx ctx).kernel kb.kernel).actor? kb.actor = some act → ((s.ctx ctx).kernel kb.kernel).places.getD act.func (0, 0) = (va, n) →
      ∃ t, exec (.schedulerPick c) s = .next t ∧ (t.core c).run = .running ∧ (t.core c).pc = va ∧ (t.core c).pcc = codeCap va n ∧
        (t.core c).buffer = [] ∧ ∃ g, (t.core c).firing = some g ∧ g.code = f.code ∧ g.inputs = f.inputs ∧ g.launch = some l) ∧
    ((s.core c).run = .idle → (s.core c).preempt = none → (s.core c).barred = false →
      let s1 := if (s.core c).launch.isSome then s.joinsFired c else s
      let ready := (s1.core c).ready
      ((∀ f ∈ ready, s1.mayRun c ctx f = false ∨ 3 < f.cls) → exec (.schedulerPick c) s = .next s1) ∧
      (∀ (a b : List Firing) (f : Firing), ready = a ++ f :: b → s1.mayRun c ctx f = true → f.cls ≤ 3 →
        (∀ g ∈ a, s1.mayRun c ctx g = true → f.cls < g.cls) → (∀ g ∈ b, s1.mayRun c ctx g = true → f.cls ≤ g.cls) →
        let passed (g : Firing) : Firing := if 64 ≤ g.passes + 1 then { g with cls := g.cls - 1, passes := 0 } else { g with passes := g.passes + 1 }
        let queue (t : State) : Prop := (t.core c).ready ++ (t.core c).matched = (a ++ b).map passed ++ (s1.core c).matched
        let old := (s1.core c).vs
        let here := f.started = false ∧ ((∃ b w, f.code = .light b w) ∨ ∃ h n i, f.inputs = .slots h n :: i)
        (∀ va pcc, f.svc = false → f.resume = none → s1.entryOf ctx f.code f.started = some (va, pcc) → f.regs.length = 10 → ∃ t g,
          exec (.schedulerPick c) s = .next t ∧ queue t ∧ (t.core c).run = .running ∧ (t.core c).pc = va ∧ (t.core c).pcc = pcc ∧
          (t.core c).firing = some g ∧ g = { f with start := BitVec.ofNat 64 s.cycle, started := true, regs := g.regs } ∧
          (t.core c).buffer = [] ∧ (t.core c).view = f.replay.getD ⟨s1.stamp, [], []⟩ ∧ (t.core c).pfx = none ∧
          (let v := t.vs c
           (∀ n, 1 ≤ n → n < 96 → n ≠ 9 ∨ ¬here → v.getX n = (f.regs[n - 1]?).getD XReg.zero) ∧ (here → v.getX 9 = XReg.plain (s.coordW c)) ∧ (∀ n, 96 ≤ n → v.getX n = old.getX n) ∧ v.y = [] ∧
           v.l0 = 0 ∧ v.l1 = 0 ∧ v.l2 = 0 ∧ v.l3 = 0 ∧ v.csr = { old.csr with epcl := 0, epch := 0, estat := 0 } ∧ v.v = old.v ∧ v.h = old.h ∧
           v.ls = old.ls)) ∧
        (∀ r, f.svc = false → f.resume = some r → (∀ p ∈ r.x, p.1 < 96) → ∃ t, exec (.schedulerPick c) s = .next t ∧ queue t ∧
          (t.core c).run = .running ∧ (t.core c).pc = r.pc ∧ (t.core c).pcc = r.pcc ∧ (t.core c).buffer = [] ∧
          (let v := t.vs c
           (∀ n, 1 ≤ n → n < 96 → v.getX n = Table.get XReg.zero r.x n) ∧ (∀ n, 96 ≤ n → v.getX n = old.getX n) ∧ v.y = r.y ∧ v.v = r.v ∧
           (∀ u, r.t = some u → v.t = u) ∧ (f.replay.isSome = true → r.t = none → v.t = old.t) ∧ v.csr = { old.csr with epcl := r.epcl, epch := r.epch, estat := r.estat } ∧ v.l0 = 0)) ∧
        (∀ va pcc, f.svc = true → f.resume = none → s1.entryOf ctx f.code f.started = some (va, pcc) → ∃ t,
          exec (.schedulerPick c) s = .next t ∧ queue t ∧ (t.core c).run = .running ∧ (t.core c).pc = va ∧ (t.core c).parked = some old ∧
          (t.vs c).ls = (s1.ctx ctx).service.ls) ∧
        (f.svc = false → f.resume = none → s1.entryOf ctx f.code f.started = none → (s.core c).launch.isSome = true → ∃ t,
          exec (.schedulerPick c) s = .next t ∧ (t.core c).run = .idle ∧ ∀ m ∈ (t.core c).inbox, Input.msg m.id ∉ f.inputs)))

/-- PREEMPTION_ABORT, BOUNDARY_RELEASE and WORLD_STOPPED (05 R102-R103, 09 R154): a request that has waited 75,000 cycles aborts its firing, to be
replayed or, under DESTROY, ended; what a boundary still holds is published in order as what it waits for comes, and its firing goes on behind the
last of it; STOPW completes once every core and engine of the context stands still and every publication is acknowledged, and the context is STOPPED. -/
def Sys2Proof.Claims.RequestsAndHeldWork : Prop :=
  (∀ (c : Nat) (s : State) (p : Preempt) (f : Firing), (s.core c).preempt = some p → (s.core c).firing = some f →
    ((s.core c).run = .idle ∨ p.taken = true ∨ (s.core c).committed = true ∨ s.cycle < p.cycle + 75000 → exec (.preemptionAbort c) s = .next s) ∧
    ((s.core c).run = .running → p.taken = false → (s.core c).committed = false → p.cycle + 75000 ≤ s.cycle → f.svc = false → ∃ t,
      exec (.preemptionAbort c) s = .next t ∧ (t.core c).run = .idle ∧ (t.core c).firing = none ∧ (t.core c).buffer = [] ∧
      (p.reason ≠ .destroy → (t.core c).preempt = some { p with taken := true } ∧ t.flights.length = s.flights.length ∧
        ∃ g ∈ (t.core c).ready ++ (t.core c).matched, g.code = f.code ∧ g.inputs = f.inputs ∧ g.regs = f.regs ∧ 
          g.resume = (s.core c).point.resume.map (fun r => { r with t := if (s.core c).hasTiles then none else r.t }) ∧
          g.recv = (s.core c).point.recv))) ∧
  (∀ (c : Nat) (s : State),
    let s1 := s.refollow c
    let x := s1.core c
    let parks := (∃ sp, (s.core c).run = .waiting .boundary sp) ∨ ∃ mask next y, (s.core c).run = .waiting (.safe mask next) y
    (¬parks → exec (.boundaryRelease c) s = .next s) ∧
    (parks → s1.isHeld c x.buffer = true → ∃ t gone, exec (.boundaryRelease c) s = .next t ∧ (t.core c).run = (s.core c).run ∧
      (t.core c).pc = (s.core c).pc ∧ inOrder x.buffer = gone ++ inOrder (t.core c).buffer) ∧
    (∀ sp, s1.isHeld c x.buffer = false → (s.core c).run = .waiting .boundary sp → ∃ t, exec (.boundaryRelease c) s = .next t ∧
      s.onlyCore t c ∧ t.core c = { s.core c with run := .running, buffer := x.buffer }) ∧
    (∀ mask next y, s1.isHeld c x.buffer = false → (s.core c).run = .waiting (.safe mask next) y →
      exec (.boundaryRelease c) s = .next (s1.safePoint c mask next y))) ∧
  (∀ (ctx k : Nat) (s : State) (sp : Bool), (s.ctx ctx).stopper = some k → (s.core k).run = .waiting .world sp → (s.ctx ctx).state = .live →
    let still := (∀ p ∈ s.cores, p.2.ctx ≠ some ctx ∨ p.2.run = .idle ∨ ∃ q, p.2.run = .waiting .world q) ∧
      (∀ p ∈ s.clusters, ∀ r, p.2.me = some r → r.job.ctx ≠ ctx) ∧ (∀ p ∈ s.engines, ∀ r, p.2.run = some r → r.cmd.ctx ≠ ctx) ∧
      s.travels ctx = false
    (¬still → exec (.worldStopped ctx) s = .next s) ∧
    (still → sp = false → ∃ t, exec (.worldStopped ctx) s = .next t ∧ (t.ctx ctx).state = .stopped ∧ (t.ctx ctx).pausedAt = s.time ∧
      (t.core k).run = .running ∧ (t.core k).pc = (s.core k).pc + 8 ∧ (∀ f, (s.core k).firing = some f → (t.core k).firing = some { f with stopping := true }) ∧
      ∀ j, j ≠ k → t.core j = s.core j) ∧
    (still → sp = true → (s.core k).ctx = some ctx → (s.core k).closed = [] → (s.core k).preempt = none → ∃ t,
      exec (.worldStopped ctx) s = .next t ∧ (t.ctx ctx).state = .stopped ∧ (t.core k).run = .running ∧ (t.core k).pc = (s.core k).pc + 16))

/-- The state in which a core's phase begins anew (21 R405). -/
def Sys2Proof.Claims.newPhase (s : State) (k : Nat) : State := s.setCore k { s.core k with view := ⟨s.stamp, [], []⟩ }

/-- A wait that ends with a value for a destination: put and the word done; the fault of the put; or no change while the destination has no
room. -/
def Sys2Proof.Claims.waitPuts (s s1 : State) (k : Nat) (d : Opnd) (v : Word) (sp : Bool) (o : Out) : Prop :=
  (∀ s2, s1.put k d v = .ok s2 → o = .next (s2.finishWord k sp)) ∧
  (∀ f a, s1.put k d v = .error (.fault f a) → o = .next (s1.takeFault k f a (s1.core k).unitAt .read)) ∧
  (∀ w s2, s1.put k d v = .error (.wait w s2) → o = .next s)

/-- Waits end (09 R154, R168, 10 R179, 17 R321, R325, 19 R368, R380, 20 R401, 03 R58): a word that waited completes, through its safe point if it
has SP, once its event is set, its job or copy command has left QUEUED and RUNNING, its stamp is reached, its carry or its reply is there; one
that waited for a port, a ring or its id's window is executed again; until then nothing changes. -/
def Sys2Proof.Claims.WaitsEnd : Prop :=
  (∀ (k : Nat) (s : State), let c := s.core k
    (∃ t, s.finishWord k false = t ∧ s.onlyCore t k ∧ t.core k = { c with run := .running, kept := none, ticket := none, mask := 0, pc := c.pc + 8, pfx := none, again := none, latch := [] }) ∧
    s.finishWord k true =
      (s.setCore k { c with run := .running, kept := none, ticket := none, mask := 0 }).safePoint k c.mask (c.pc + 16) false) ∧
  (∀ (k : Nat) (s : State) (sp : Bool), let c := s.core k
    let done (i : Instr) : Prop := exec i s = .next ((Sys2Proof.Claims.newPhase s k).finishWord k sp)
    let stays (i : Instr) : Prop := exec i s = .next s
    let busy (win : Word) (id : Nat) : Prop := win.toNat / 2 ^ (4 * (id % 16)) % 16 = 2 ∨ win.toNat / 2 ^ (4 * (id % 16)) % 16 = 3
    (∀ e w, c.run = .waiting (.event e w) sp → (w = true → done (.eventWake k)) ∧ (w = false → stays (.eventWake k))) ∧
    (∀ e q b d, c.run = .waiting (.eventHost e q b d) sp → stays (.eventWake k)) ∧
    (∀ id, c.run = .waiting (.job id) sp → (s.idBusy k false id = false → done (.jobWaitEnd k)) ∧ (s.idBusy k false id = true → stays (.jobWaitEnd k)) ∧
      stays (.copyWaitEnd k)) ∧
    (∀ id, c.run = .waiting (.copy id) sp → (s.idBusy k true id = false → done (.copyWaitEnd k)) ∧ (s.idBusy k true id = true → stays (.copyWaitEnd k)) ∧
      stays (.jobWaitEnd k)) ∧
    (∀ copy id, c.run = .waiting (.window copy id) sp →
      let win := if copy then c.vs.csr.cpwin else c.vs.csr.jobwin
      let i := if copy then Instr.copyWaitEnd k else .jobWaitEnd k
      (busy win id → stays i) ∧ (¬busy win id → ∃ t, exec i s = .next t ∧ s.onlyCore t k ∧ t.core k = { c with run := .running })) ∧
    (∀ x, c.run = .waiting (.stamp x) sp → (x.toNat ≤ s.time.toNat → done (.timedRelease k)) ∧ (s.time.toNat < x.toNat → stays (.timedRelease k))) ∧
    (∀ tag d, c.run = .waiting (.carry tag d) sp →
      ((∀ p ∈ c.mailbox, p.1 ≠ tag) → stays (.carryTake k)) ∧
      (∀ a b v, c.mailbox = a ++ (tag, v) :: b → (∀ p ∈ a, p.1 ≠ tag) →
        Sys2Proof.Claims.waitPuts s (Sys2Proof.Claims.newPhase (s.setCore k { c with mailbox := a ++ b, carries := c.carries ++ [(tag, v)] }) k) k d v sp
          (exec (.carryTake k) s))) ∧
    (∀ d v, c.run = .waiting (.remote d (some v)) sp →
      Sys2Proof.Claims.waitPuts s (if c.acquiring then Sys2Proof.Claims.newPhase s k else s) k d v sp (exec (.remoteReply k) s)) ∧
    (∀ d, c.run = .waiting (.remote d none) sp → stays (.remoteReply k)) ∧
    (c.run = .waiting .port sp → ∃ t, exec (.portWaitEnd k) s = .next t ∧ s.onlyCore t k ∧ t.core k = { c with run := .running }) ∧
    (c.run = .waiting .handle sp → ∃ t, exec (.handleWaitEnd k) s = .next t ∧ s.onlyCore t k ∧ t.core k = { c with run := .running }))

/-- EVENT_SET_AT_HOME and EVENT_CLEAR_AT_HOME (09 R166-R167, 14 R238): the oldest operation of its core sets or clears the event at its home; a set
wakes every waiter, firings and queues, and leaves none on the list; an operation for another package's home, or of a context that is gone,
only leaves; one whose home die is lost is a dead letter with PEER_LOST. -/
def Sys2Proof.Claims.EventsAtHome : Prop :=
  ∀ (i : Nat) (s : State) (o : EvOp), s.evops[i]? = some o →
    let x := s.ctx o.ctx
    let active := x.state = .live ∨ x.state = .stopped ∨ x.state = .halted
    let r := exec (if o.set then .eventSetAtHome i else .eventClearAtHome i) s
    let gone (t : State) : Prop := r = .next t ∧ t.evops = s.evops.eraseIdx i
    let v := x.event o.event
    (exec (if o.set then .eventClearAtHome i else .eventSetAtHome i) s = .next s) ∧
    (s.oldestEvOp i o = false → r = .next s) ∧
    (s.oldestEvOp i o = true → ¬(active ∧ x.home = true) → ∃ t, gone t ∧ t = { s with evops := t.evops }) ∧
    (s.oldestEvOp i o = true → active → Sys2Proof.Claims.eventHere s o.ctx o.event → ∃ t, gone t ∧ ((t.ctx o.ctx).event o.event).set = o.set ∧
      (o.set = true → ((t.ctx o.ctx).event o.event).waiters = [] ∧
        (∀ k w sp, Waiter.core k ∈ v.waiters → (s.core k).run = .waiting (.event o.event w) sp → (t.core k).run = .waiting (.event o.event true) sp) ∧
        (∀ q, Waiter.queue q ∈ v.waiters → (t.queue q).woken = true) ∧
        (∀ k, Waiter.core k ∉ v.waiters → t.core k = s.core k) ∧ ∀ q, Waiter.queue q ∉ v.waiters → t.queue q = s.queue q) ∧
      (o.set = false → t.cores = s.cores ∧ t.queues = s.queues)) ∧
    (s.oldestEvOp i o = true → active → x.home = true → s.homeLost o.ctx o.event = true → ∃ t e rest, gone t ∧
      (t.ctx o.ctx).pending = x.pending ++ e :: rest ∧ e.regs.take 3 = [0x12, o.src.setWidth 64, o.event.setWidth 64] ∧ (t.ctx o.ctx).events = x.events)

/-- SCAN_COMPLETE (19 R376-R378): a complete scan whose participants agree gives the waiting firing its element of the result, in an x or a y
register, and commits it early; participants that disagree fault with ENGINE. For integers under SUM the element is the sum of the contributions up to
it, without its own under .EX, on top of the carry under .CI. -/
def Obligations.ScanCompletes : Prop :=
  (∀ (c e : Nat) (s : State) (spec : BitVec 16) (d : Opnd) (a b : List ScanSt) (t : ScanSt), let x := s.core c
    let ctx := s.ctxOf c
    let mine (u : ScanSt) : Prop := u.launch = x.sendLaunch.getD 0 ∧ u.group = x.scanGroup ∧ u.spec = spec ∧ u.parts.length = u.total ∧ u.owes e = true
    x.run = .waiting (.scan spec d false) false → x.ctx = some ctx → x.elementOf spec = some e → (s.ctx ctx).scans = a ++ t :: b → (∀ u ∈ a, ¬mine u) →
    mine t → Table.find? s.cores c ≠ none →
    (t.agree = true → ∀ p, t.part 0 = some p →
      let v := scanWord p.ty (t.result e).1
      ((∃ n, d = .x n) ∨ ∃ n, d = .y n) → ∃ u, exec (.scanComplete c) s = .next u ∧ (u.core c).run = .running ∧ (u.core c).pc = x.pc + 8 ∧
        (u.core c).committed = true ∧ (u.vs c).csr.scanst.toNat = (t.result e).2.toNat % 32 ∧
        (∀ n, d = .x n → (u.vs c).getX n.val = (if n.val = 0 then XReg.zero else XReg.plain v)) ∧ (∀ n, d = .y n → (u.vs c).getY n.val = v)) ∧
    (t.agree = false → (∀ p ∈ s.cores, p.1 = c ∨ p.2.ctx ≠ some ctx ∨ ∀ y z w sp, p.2.run ≠ .waiting (.scan y z w) sp) → ∀ f, x.firing = some f → f.svc = false →
      ∃ u, exec (.scanComplete c) s = .next u ∧ (u.core c).run = .idle ∧ ∃ ev ∈ (u.ctx ctx).pending, ev.regs.headD 0 = 0x17)) ∧
  (∀ (t : ScanSt) (e n : Nat) (p : Contribution), t.total = 2 ^ n → e < t.total → t.part 0 = some p → (∀ j, j < t.total → (t.part j).isSome = true) →
    p.ty ∈ [.i8, .i16, .i32, .i64] → p.op = .sum →
    let w := p.ty.width
    let at_ (j : Nat) : Int := ((((t.part j).map (fun q => q.value.toNat)).getD 0 % 2 ^ w : Nat) : Int)
    let upTo := (List.range (if p.ex then e else e + 1)).map at_
    let x : Int := (if p.ci then ((p.carry.toNat % 2 ^ w : Nat) : Int) else 0) + upTo.sum
    scanWord p.ty (t.result e).1 = BitVec.ofInt 64 (x.bmod (2 ^ w)))


/-! ### Misses, page faults, events and pages that move (05 R99-R101, 06 R120-R121, 13 R222-R228, R464, 22 R420) -/

/-- An aborted firing `a` of core `c` has been Ended by PAGE: it awaits no service any more, and its context has the event. -/
def Sys2Proof.Claims.endedByPage (s t : State) (c : Nat) (pre post : List Aborted) (a : Aborted) : Prop :=
  (t.core c).aborted = pre ++ post ∧
    (a.firing.svc = false → ∃ e ∈ (t.ctx (s.ctxOf c)).pending, e.regs.take 4 = [0x06, s.coordW c, a.va, a.addr])

/-- An aborted firing has returned to its core, to be replayed. -/
def Sys2Proof.Claims.replays (s t : State) (c : Nat) (pre post : List Aborted) (a : Aborted) : Prop :=
  (t.core c).aborted = pre ++ post ∧ (t.core c).ready ++ (t.core c).matched = (s.core c).ready ++ a.firing :: (s.core c).matched

/-- TLB_MISS_SERVICE, PAGE_SERVICE, FAULT_ACTOR_FIRE and RING_RCOUNT_POLL (05 R99-R101, R462, 06 R120-R121, 13 R222-R224, R464, 22 R420): a walk that
admits the access fills the TLBs and the access goes on, another raises PAGE, under TLBFILL the host is asked; a demand entry gets a zeroed frame
and the firing is replayed, and every other is Ended; the next event of a context goes to the error queue or starts the fault actor, without which the context halts;
a full ring's RCOUNT is read again and its waiting records follow while there is room. -/
def Sys2Proof.Claims.MissesAndEventsServed : Prop :=
  (∀ (c : Nat) (s : State) (va : Word) (acc : Access) (sp : Bool), (s.core c).run = .waiting (.tlb va acc) sp →
    let x := s.core c
    let ctx := s.ctxOf c
    let o := exec (.tlbMissService c) s
    let raises := o = .next ((s.setCore c { x with run := .running }).takeFault c .page va x.unitAt acc)
    (x.tlbfill = true → (∃ p ∈ (s.ctx ctx).asks, p.2 = .tlb c) → o = .next s) ∧
    (x.tlbfill = true → (∀ p ∈ (s.ctx ctx).asks, p.2 ≠ .tlb c) → ∃ t, o = .next t ∧ t.cores = s.cores ∧
      ∃ seq, Table.find? (t.ctx ctx).asks seq = some (.tlb c)) ∧
    (∀ at_ l, x.tlbfill = false → s.walk ctx va = .leaf at_ l → l.admits acc = true → ∃ t, o = .next t ∧ (t.core c).run = .running ∧
      s.sameMemory t ∧ (t.core c).pc = x.pc ∧
      ∃ u, t.lookup c ctx acc va = some (l.frame + va.toNat % 2 ^ pageLog l.size, u)) ∧
    (∀ at_ l, x.tlbfill = false → s.walk ctx va = .leaf at_ l → l.admits acc = false → raises) ∧
    (x.tlbfill = false → (∀ at_ l, s.walk ctx va ≠ .leaf at_ l) → raises)) ∧
  (∀ (c : Nat) (s : State) (pre post : List Aborted) (a : Aborted), (s.core c).aborted = pre ++ a :: post → a.seq = none → (∀ b ∈ pre, b.seq ≠ none) →
    let ctx := s.ctxOf c
    let o := exec (.pageService c) s
    let ends : Prop := ∃ t, o = .next t ∧ Sys2Proof.Claims.endedByPage s t c pre post a
    (a.refused = true ∨ 2 ^ 56 ≤ a.va.toNat ∨ (s.ctx ctx).state = .draining → ends) ∧
    (a.refused = false → a.va.toNat < 2 ^ 56 → (s.ctx ctx).state ≠ .draining →
      ((∀ at_ lv e, s.tableWalk ctx a.va ≠ .demand at_ lv e) → ends) ∧
      (∀ at_ lv e, s.tableWalk ctx a.va = .demand at_ lv e →
        let n := 2 ^ pageLog lv
        let rights := match a.acc with | .read => e.getLsbD 2 | .write => e.getLsbD 3 | .fetch => e.getLsbD 4
        (rights = false → ends) ∧
        (∀ fr s1, rights = true → s.takeFrame n 0 memTop = some (fr, s1) → (at_ + 8 ≤ fr ∨ fr + n ≤ at_) → ∃ t, o = .next t ∧
          Sys2Proof.Claims.replays s t c pre post a ∧
          leafOf lv (t.word at_) = some ⟨lv, fr, e.getLsbD 2, e.getLsbD 3, e.getLsbD 4, false, 0⟩ ∧
          (t.word at_).toNat / 2 ^ 56 = e.toNat / 2 ^ 56 ∧ (∀ j, j < n → t.byte (fr + j) = 0) ∧
          (∀ p, (p < at_ ∨ at_ + 8 ≤ p) → (p < fr ∨ fr + n ≤ p) → t.byte p = s.byte p) ∧
          ∀ k, ∀ y ∈ (t.core k).tlb, y.ctx = ctx → ¬(y.page * 2 ^ pageLog y.size < (a.va.toNat / n + 1) * n ∧
            a.va.toNat / n * n < (y.page + 1) * 2 ^ pageLog y.size))))) ∧
  (∀ (ctx c : Nat) (s : State) (e : CtxEvent) (rest : List CtxEvent), (s.ctx ctx).pending = e :: rest →
    let x := s.ctx ctx
    let o := exec (.faultActorFire ctx c) s
    let open_ := x.state = .live ∨ x.state = .stopped
    (¬open_ → o = .next s) ∧
    (open_ → e.fault = true → ∃ t, o = .next t ∧ (t.ctx ctx).pending = rest ∧ t.cores = s.cores ∧ (t.ctx ctx).state = x.state) ∧
    (open_ → e.fault = false → x.faultActor = none → ∃ t, o = .next t ∧ (t.ctx ctx).state = .halted ∧ (t.ctx ctx).haltCause = 2 ∧
      (t.ctx ctx).pending = x.pending ∧ ∀ k, (t.core k).vs = (s.core k).vs ∧ (t.core k).ctx = (s.core k).ctx) ∧
    (∀ b, open_ → e.fault = false → x.faultActor = some b → (x.state = .stopped ∨ s.serving ctx = true ∨ s.canServe ctx c = false) → o = .next s) ∧
    (∀ b, x.state = .live → e.fault = false → x.faultActor = some b → s.serving ctx = false → s.canServe ctx c = true → ∃ t f, o = .next t ∧
      (t.ctx ctx).pending = rest ∧ (t.core c).ctx = some ctx ∧ (t.core c).ready ++ (t.core c).matched = (s.core c).ready ++ (s.core c).matched ++ [f] ∧
      f.code = .actor b ∧ f.svc = true ∧ f.cls = 0 ∧ f.launch = e.launch ∧
      f.regs = (e.regs ++ List.replicate (8 - e.regs.length) 0).map XReg.plain ++ [XReg.zero, s.argCap e.launch])) ∧
  (∀ (ctx : Nat) (r : RingKind) (s : State), let x := s.ctx ctx
    let full := (x.ring r).room = false ∨ (x.ring r).waiting ≠ []
    (x.state = .free ∨ x.state = .building ∨ ¬full ∨ r = .deadLetter ∧ x.state = .halted → exec (.ringRcountPoll ctx r) s = .next s) ∧
    (∀ pa, x.state ≠ .free → x.state ≠ .building → full → ¬(r = .deadLetter ∧ x.state = .halted) → (x.ring r).log ≤ 15 →
      s.vaToPa ctx .read ((x.ring r).base + 8) = some pa → ∃ t w, exec (.ringRcountPoll ctx r) s = .next t ∧ t.cores = s.cores ∧
        (let y := (t.ctx ctx).ring r
         y.rcount = s.word pa ∧ (x.ring r).waiting = w ++ y.waiting ∧ y.wcount = (x.ring r).wcount + BitVec.ofNat 64 w.length ∧
         y.base = (x.ring r).base ∧ ((x.ring r).wcount - s.word pa).toNat + w.length ≤ max (((x.ring r).wcount - s.word pa).toNat) (2 ^ (x.ring r).log))))

/-- PROMOTION, PROMOTION_ABANDON and PAGE_MIGRATION (13 R227-R228): a candidate's leaves are marked and a frame of its stack taken; at the end the
2 MiB frame holds the 32 pages' bytes and one leaf of level 1 maps them; a promotion that has held a publication for 10 microseconds is given up;
a page that migrates keeps its bytes in a frame of the other stack. -/
def Sys2Proof.Claims.PagesMove : Prop :=
  (∀ (ctx : Nat) (va : Word) (s : State), s.move? ctx va = none →
    let x := s.ctx ctx
    let o := exec (.promotion ctx va) s
    let asked := x.active = true ∧ va.toNat % 0x200000 = 0 ∧ (x.promote = true → va ∈ x.offers)
    let none_ := 2 ^ 56 ≤ va.toNat ∨ s.leaves32 ctx va = none ∨ ∃ l, s.leaves32 ctx va = some l ∧ candidate l = false
    (¬asked → o = .next s) ∧
    (asked → va ∉ x.offers → none_ → o = .next s) ∧
    (asked → va ∈ x.offers → none_ → ∃ t, o = .next t ∧ (t.ctx ctx).offers = x.offers.erase va ∧ t.moving = s.moving) ∧
    (∀ l new s1, asked → va.toNat < 2 ^ 56 → s.leaves32 ctx va = some l → candidate l = true →
      (let st := ((l.map (fun p => p.2.2.frame)).headD 0) / 0xC00000000
       s.takeFrame 0x200000 (st * 0xC00000000) ((st + 1) * 0xC00000000) = some (new, s1)) → ∃ t, o = .next t ∧
      t.moving = s.moving ++ [{ ctx, va, piece := 65536, old := l.map (fun p => p.2.2.frame), new, promo := true, held := none }] ∧
      t.ctxs = s.ctxs ∧ t.cores = s.cores ∧ ∀ p, (∀ q ∈ l, p < q.1 ∨ q.1 + 8 ≤ p) → t.byte p = s.byte p)) ∧
  (∀ (ctx : Nat) (va : Word) (s : State) (m : Move) (l : List (Nat × Word × Leaf)) (at1 : Nat), s.move? ctx va = some m → m.promo = true →
    s.leaves32 ctx va = some l → s.entryFrom va 1 3 (s.ctx ctx).root.toNat = some at1 → (∀ p ∈ l, p.2.2.pst = 1) →
    l.map (fun p => p.2.2.frame) = m.old → ∃ t, exec (.promotion ctx va) s = .next t ∧ t.moving = s.moving.erase m ∧
      (t.ctx ctx).offers = (s.ctx ctx).offers.erase va ∧
      (va ∉ (s.ctx ctx).offers → s.memOk → m.new % 0x200000 = 0 → m.new < memTop → (∀ f ∈ m.old, f + 65536 ≤ m.new ∨ m.new + 0x200000 ≤ f) →
        (at1 + 8 ≤ m.new ∨ m.new + 0x200000 ≤ at1) →
        (∀ i j, i < 32 → j < 65536 → t.byte (m.new + 65536 * i + j) = s.byte (m.old.getD i 0 + j)) ∧
        (∃ y ∈ l, leafOf 1 (t.word at1) = some ⟨1, m.new, y.2.2.pr, y.2.2.pw, y.2.2.px, false, 0⟩) ∧
        (∀ p, (p < at1 ∨ at1 + 8 ≤ p) → (p < m.new ∨ m.new + 0x200000 ≤ p) → t.byte p = s.byte p))) ∧
  (∀ (ctx : Nat) (va : Word) (s : State) (m : Move), s.move? ctx va = some m → m.promo = true →
    (∀ t0, m.held = some t0 → t0.toNat + 10000 ≤ s.time.toNat → ∃ t, exec (.promotionAbandon ctx va) s = .next t ∧ t.moving = s.moving.erase m ∧
      t.cores = s.cores ∧ (t.ctx ctx).offers = (s.ctx ctx).offers.erase va) ∧
    ((m.held = none ∨ ∃ t0, m.held = some t0 ∧ s.time.toNat < t0.toNat + 10000) → exec (.promotionAbandon ctx va) s = .next s)) ∧
  (∀ (ctx stack : Nat) (va : Word) (s : State) (at_ : Nat) (l : Leaf) (new : Nat) (s1 : State), s.move? ctx va = none →
    s.tableWalk ctx va = .leaf at_ l → (s.ctx ctx).active = true → va.toNat % 2 ^ pageLog l.size = 0 → l.pst = 0 → l.frame / 0xC00000000 ≠ stack →
    stack < 16 → s.inCasts l.frame (2 ^ pageLog l.size) = false →
    s.takeFrame (2 ^ pageLog l.size) (stack * 0xC00000000) ((stack + 1) * 0xC00000000) = some (new, s1) →
    ∃ t, exec (.pageMigration ctx va stack) s = .next t ∧ t.cores = s.cores ∧
      t.moving = s.moving ++ [{ ctx, va, piece := 2 ^ pageLog l.size, old := [l.frame], new, promo := false, held := none }] ∧
      (l.shr = false → ∀ p, (p < at_ ∨ at_ + 8 ≤ p) → t.byte p = s.byte p)) ∧
  (∀ (ctx stack : Nat) (va : Word) (s : State) (m : Move) (at_ : Nat) (l : Leaf), s.move? ctx va = some m → m.promo = false →
    s.tableWalk ctx va = .leaf at_ l → l.pst = 2 → m.old = [l.frame] → m.piece = 2 ^ pageLog l.size → s.memOk →
    (l.frame + m.piece ≤ m.new ∨ m.new + m.piece ≤ l.frame) → (∀ q ∈ s.mappers ctx va at_ l, q.2.2.1 + 8 ≤ m.new ∨ m.new + m.piece ≤ q.2.2.1) → m.new % m.piece = 0 → m.new < memTop →
    ∃ t, exec (.pageMigration ctx va stack) s = .next t ∧ t.moving = s.moving.erase m ∧
      (l.shr = false → leafOf l.size (t.word at_) = some { l with frame := m.new, pst := 0 }) ∧
      (∀ j, j < m.piece → t.byte (m.new + j) = s.byte (l.frame + j)) ∧
      (l.shr = false → ∀ p, (p < at_ ∨ at_ + 8 ≤ p) → (p < m.new ∨ m.new + m.piece ≤ p) → t.byte p = s.byte p))


/-! ### Commands of the engines: their starts and their ends (19 R361-R367, R370-R374, 20 R396-R400) -/

/-- A job or copy id of core k takes a state, where core k still runs its launch's own virtual core (19 R361). -/
def Sys2Proof.Claims.idBecomes (s t : State) (copy : Bool) (core : Nat) (svc : Bool) (id v : Nat) : Prop :=
  svc = false → (s.core core).parked = none →
    Sys2Proof.Claims.nib (if copy then (t.core core).vs.csr.cpwin else (t.core core).vs.csr.jobwin) id = v

/-- How a command's record leaves it (19 R366, 20 R400, 22 R423): as the wake that the descriptor asks for, as a dead letter and an event for the
fault actor where it failed and no wake may carry it, else not at all. -/
def Sys2Proof.Claims.concluded (s t : State) (core ctx : Nat) (v : VCore) (wake : Bool × Nat × Nat × Nat) (trusted bad : Bool)
    (head addr count x5 : Word) : Prop :=
  let regs := [head, addr, count, BitVec.ofNat 64 (v.vx + v.vy * 2 ^ 16), x5, s.time, 0, 0]
  let dst : VCore := ⟨v.launch, wake.2.1, wake.2.2.1⟩
  (trusted = true → wake.1 = true → ∀ k, s.place dst = .here k → t.flights = s.flights ++
    [⟨s.coord core, ctx, dst, .msg ⟨.completion, wake.2.2.2, regs.map XReg.plain, s.coord core, ctx, v.launch, s.time, none⟩⟩]) ∧
  (trusted = true → wake.1 = false → bad = false → t.flights = s.flights ∧ (t.ctx ctx).pending = (s.ctx ctx).pending) ∧
  ((trusted = false ∨ wake.1 = false ∧ bad = true) → t.flights = s.flights ∧ ∃ e : CtxEvent, (t.ctx ctx).pending = (s.ctx ctx).pending ++ [e] ∧
    e.regs.take 3 = [BitVec.ofNat 64 (Sys2Proof.Claims.bits head 24 8), s.coordW core, addr])

/-- A record leaves without a dead letter. -/
def Sys2Proof.Claims.noLetter (s : State) (v : VCore) (wake : Bool × Nat × Nat × Nat) (trusted bad : Bool) : Prop :=
  trusted = true ∧ (bad = true → wake.1 = true) ∧ (wake.1 = true → ∃ k, s.place ⟨v.launch, wake.2.1, wake.2.2.1⟩ = .here k)

/-- x1 of a record (19 R366). -/
def Sys2Proof.Claims.recordWord (id kind status operand : Nat) (flags : Sticky) : Word :=
  BitVec.ofNat 64 (id % 2 ^ 16 + kind * 2 ^ 16 + status * 2 ^ 24 + operand * 2 ^ 32 + flags.toNat * 2 ^ 36)

/-- The doublewords of a descriptor in memory, where no other version of them is to be seen. -/
def Sys2Proof.Claims.descriptor (s : State) (r : Reader) (pa n : Nat) (ws : List Word) : Prop :=
  (∀ v ∈ s.hist, v.visible r s.newView = false) → ws = (List.range n).map (fun i => s.word (pa + 8 * i))

/-- The commands of a context start: it is LIVE, and no STOPW has asked it to stop (05 R95, R102). -/
def Sys2Proof.Claims.goes (s : State) (ctx : Nat) : Prop := (s.ctx ctx).state = .live ∧ (s.ctx ctx).stopper = none

/-- The command of a cluster whose turn it is (19 R367): j is the first that may run of its core, and no core between the one last served and j's
has one. -/
def Sys2Proof.Claims.turn (s : State) (u : Nat) (j : Job) : Prop :=
  let c := s.cluster u
  let far (x : Job) : Nat := (clusterNo x.core + 15 - c.last % 8) % 8
  Sys2Proof.Claims.goes s j.ctx ∧
  (∃ a b, c.queue = a ++ j :: b ∧ ∀ x ∈ a, clusterNo x.core = clusterNo j.core → ¬Sys2Proof.Claims.goes s x.ctx) ∧
  ∀ x ∈ c.queue, Sys2Proof.Claims.goes s x.ctx → clusterNo x.core ≠ clusterNo j.core → far j < far x

/-- COPY_COMMAND_START, ME_JOB_START and JEDGE_START (19 R363, R367, 20 R396-R398): an idle engine takes the first command whose context goes on,
or the job whose turn it is, reads its descriptor and checks it; the id is RUNNING. A descriptor in a lost die's stack is MCHECK; a field that must be
zero and is not, ENGINE with operand 1; then, of a COPY, the capabilities. -/
def Sys2Proof.Claims.EngineCommandsStart : Prop :=
  (∀ (e : Nat) (s : State), let c := s.engine e
    ((c.run.isSome = true ∨ ∀ x ∈ c.queue, ¬Sys2Proof.Claims.goes s x.ctx) → exec (.copyCommandStart e) s = .next s) ∧
    (∀ (a b : List CopyCmd) (x : CopyCmd), c.run = none → c.queue = a ++ x :: b → (∀ y ∈ a, ¬Sys2Proof.Claims.goes s y.ctx) →
      Sys2Proof.Claims.goes s x.ctx → ∃ t r, exec (.copyCommandStart e) s = .next t ∧ t.engine e = ⟨a ++ b, some r⟩ ∧ r.cmd = x ∧ s.sameMemory t ∧
        Sys2Proof.Claims.idBecomes s t true x.core x.svc x.id 3 ∧
        (s.lostMemory x.desc = true → r.fail = some (.mcheck, 1, x.descVa) ∧ r.trusted = false) ∧
        (s.lostMemory x.desc = false → Sys2Proof.Claims.descriptor s (.die (e / 4)) x.desc 8 r.words ∧
          let w (i lo n : Nat) : Nat := Sys2Proof.Claims.bits (r.words.getD i 0) lo n
          let ok := w 4 48 16 = 0 ∧ w 6 37 27 = 0 ∧ w 7 10 54 = 0 ∧ (x.kind ≠ 4 → w 4 32 16 = 0 ∧ w 5 32 32 = 0) ∧
            (if x.kind = 5 then w 4 0 32 = 0 ∧ 1 ≤ w 7 0 6 ∧ w 7 0 6 ≤ 12 else w 7 0 6 = 0 ∧ w 7 9 1 = 0) ∧
            ∀ l, s.launch? x.vcore.launch = some l → w 6 0 12 < l.w ∧ w 6 12 12 < l.h
          (s.launch? x.vcore.launch ≠ none → ¬ok → r.fail = some (.engine, 1, 0) ∧ r.trusted = false) ∧
          ((∀ v ∈ s.hist, v.visible (.die (e / 4)) s.newView = false) → s.launch? x.vcore.launch ≠ none → ok → x.kind = 3 → 0 < w 4 0 32 →
            x.desc % 16 = 0 → r.trusted = true ∧
            let cap (i : Nat) : XReg := ⟨r.words.getD (2 * i + 1) 0 ++ r.words.getD (2 * i) 0, s.tagAt (x.desc / 16 + i)⟩
            r.fail = match Sys2Proof.Claims.accessFault (cap 0) [0, 5] (cap 0).addr (w 4 0 32) 1,
                Sys2Proof.Claims.accessFault (cap 1) [1, 5] (cap 1).addr (w 4 0 32) 1 with
              | some y, _ => some (y, 2, (cap 0).addr)
              | none, some y => some (y, 3, (cap 1).addr)
              | none, none => none)))) ∧
  (∀ (u : Nat) (s : State) (j : Job), let c := s.cluster u
    (c.me.isSome = true → exec (.meJobStart u) s = .next s ∧ exec (.jedgeStart u) s = .next s) ∧
    (c.me = none → Sys2Proof.Claims.turn s u j → (j.edge = true → s.edgePaused c j = false) →
      ∀ x, Table.find? c.je (clusterNo j.core) = x → (j.edge = true → x = none) →
      let n := clusterNo j.core
      let i := if j.edge then Instr.jedgeStart u else .meJobStart u
      exec (if j.edge then .meJobStart u else .jedgeStart u) s = .next s ∧
      ∃ t r, exec i s = .next t ∧ r.job = j ∧ r.done = 0 ∧ r.degs = [] ∧ s.sameMemory t ∧
        t.cluster u = (if j.edge then { c with je := Table.insert c.je n r } else { c with queue := c.queue.erase j, last := n, me := some r }) ∧
        Sys2Proof.Claims.idBecomes s t false j.core j.svc j.id 3 ∧
        (s.lostMemory j.desc = true → r.fail = some (.mcheck, 1, j.descVa) ∧ r.trusted = false) ∧
        (s.lostMemory j.desc = false → j.edge = false → Sys2Proof.Claims.descriptor s (.cluster u) j.desc 8 r.words ∧
          let w (i lo n : Nat) : Nat := Sys2Proof.Claims.bits (r.words.getD i 0) lo n
          ∀ l, s.launch? j.vcore.launch = some l →
          ¬(w 6 56 8 = 0 ∧ w 7 18 46 = 0 ∧ w 7 4 2 ≤ 1 ∧ w 7 6 6 ∈ [0, 2, 3, 4, 5, 6, 9] ∧ w 7 15 3 ≤ 2 ∧ w 4 26 13 % 16 = 0 ∧ w 6 24 20 % 32 = 0 ∧
            w 6 0 12 < l.w ∧ w 6 12 12 < l.h) → r.fail = some (.engine, 1, 0) ∧ r.trusted = false) ∧
        (s.lostMemory j.desc = false → j.edge = true → ∀ l, s.launch? j.vcore.launch = some l → ∀ ws,
          ws = (List.range 16).map (fun i => s.word (j.desc + 8 * i)) → (∀ v ∈ s.hist, v.visible (.cluster u) s.newView = false) →
          let w (i lo n : Nat) : Nat := Sys2Proof.Claims.bits (ws.getD i 0) lo n
          (w 12 1 2 = 3 ∨ w 12 3 2 = 3 ∨ w 12 7 1 ≠ 0 ∨ w 12 44 20 ≠ 0 ∨ ws.getD 14 0 ≠ 0 ∨ ws.getD 15 0 ≠ 0 ∨ l.w ≤ w 12 20 12 ∨ l.h ≤ w 12 32 12) →
            r.fail = some (.engine, 1, 0) ∧ r.trusted = false)))

/-- COPY_COMMAND_END (20 R398, R400): the command leaves its engine with its record. A command that failed at its start has written nothing
and sets no event; a COPY within one source page and one destination page has moved its bytes as they stood and written no other, and sets its
event. -/
def Sys2Proof.Claims.CopyCommandsEnd : Prop :=
  ∀ (e : Nat) (s : State), let c := s.engine e
    (c.run = none → exec (.copyCommandEnd e) s = .next s) ∧
    (∀ r, c.run = some r → (s.ctx r.cmd.ctx).state = .live →
      let x := r.cmd
      let w (i lo n : Nat) : Nat := Sys2Proof.Claims.bits (r.words.getD i 0) lo n
      let wake : Bool × Nat × Nat × Nat := (w 6 36 1 == 1, w 6 0 12, w 6 12 12, w 6 24 12)
      let ended (t : State) (nibble : Nat) : Prop :=
        exec (.copyCommandEnd e) s = .next t ∧ t.engine e = { c with run := none } ∧
        Sys2Proof.Claims.idBecomes s t true x.core x.svc x.id nibble
      (∀ f, r.fail = some f → ∃ t, ended t 5 ∧ (Sys2Proof.Claims.noLetter s x.vcore wake r.trusted true → s.sameMemory t) ∧ t.evops = s.evops ∧
        Sys2Proof.Claims.concluded s t x.core x.ctx x.vcore wake r.trusted true (Sys2Proof.Claims.recordWord x.id x.kind f.1.code f.2.1 0) f.2.2 0
          (r.words.getD 2 0)) ∧
      (r.fail = none → x.kind = 3 → s.rangeMoving x.ctx (r.words.getD 2 0) (w 4 0 32) = false → ∀ pa pb,
        let a := r.words.getD 0 0
        let b := r.words.getD 2 0
        let n := w 4 0 32
        0 < n → a.toNat % 65536 + n ≤ 65536 → b.toNat % 65536 + n ≤ 65536 → s.vaToPa x.ctx .read a = some pa → s.vaToPa x.ctx .write b = some pb →
        s.lostMemory pa = false → s.lostMemory pb = false → (∀ v ∈ s.hist, v.visible (.die (e / 4)) r.view = false) →
        (∀ i, i < n → Table.find? r.view.bytes (pa + i) = none) → Sys2Proof.Claims.noLetter s x.vcore wake true false →
        ∃ t, ended t 4 ∧ (∀ i, i < n → t.byte (pb + i) = s.byte (pa + i)) ∧ (∀ p, p < pb ∨ pb + n ≤ p → t.byte p = s.byte p) ∧
          (∀ i, i < n → t.tagAt ((pb + i) / 16) = false) ∧
          (∀ ev, x.event = some ev → (s.ctx x.ctx).home = true → s.homeLost x.ctx ev = false → ∃ o : EvOp, t.evops = s.evops ++ [o] ∧ o.ctx = x.ctx ∧ o.set = true ∧ o.event = ev) ∧
          (x.event = none → t.evops = s.evops ∧
            Sys2Proof.Claims.concluded s t x.core x.ctx x.vcore wake true false (Sys2Proof.Claims.recordWord x.id 3 0 0 0) 0 (BitVec.ofNat 64 n) b)))

/-- A sum of products over n indices from k0 in blocks of sixteen (04 R85, R93). -/
def Sys2Proof.Claims.blocks (fr : Fmt) (nbv : Nat) (scale : Nat → Option Nat) (k0 n acc : Nat) (p : Nat → Term) : Nat × Sticky :=
  (List.range ((n + 15) / 16)).foldl (fun r q =>
    let y := addBlock fr nbv r.1 (scale (k0 + 16 * q)) ((List.range (min 16 (n - 16 * q))).map (fun j => p (k0 + 16 * q + j)))
    (y.1, r.2 ||| y.2)) (acc, 0)

/-- One element of an MJOB (19 R364): the K indices from k0 on of row i of A times column j of B, onto acc. -/
def Sys2Proof.Claims.jobElement (a b : Oprd) (fmt : AFmt) (nbv k0 n i j acc : Nat) : Nat × Sticky :=
  let int (x : Oprd) (m k : Nat) : Int := ((x.codes m k).map (efInt x.hdr.efmt)).sum
  let scale (k : Nat) : Option Nat := if efQa a.hdr.efmt then some (a.groupScale i k) else if efQa b.hdr.efmt then some (b.groupScale j k) else none
  let float (t : Fmt) : Nat × Sticky :=
    Sys2Proof.Claims.blocks t nbv scale k0 n acc (fun k => kProduct (a.values nbv i k) (b.values nbv j k))
  match fmt with
  | .i32 => ((((acc : Int) + ((List.range n).map (fun k => int a i (k0 + k) * int b j (k0 + k))).sum) % 2 ^ 32).toNat, 0)
  | .f32 => float .f32
  | .f64 => float .f64

/-- ME_JOB_END (19 R364-R366, R369): a job that failed leaves its slot and memory; one that did not accumulates its block into its slot, whose
other elements stay, and with DRAIN writes the tile to its target's local store: without OFMT and scales, the header's fields and each
element of the slot. The engine is idle, the id DONE, FAILED or CANCELLED, and the record leaves. -/
def Obligations.MatrixJobsEnd : Prop :=
  ∀ (u : Nat) (s : State), let c := s.cluster u
    (c.me = none → exec (.meJobEnd u) s = .next s) ∧
    (∀ r, c.me = some r → (s.ctx r.job.ctx).state = .live →
      let j := r.job
      let w (i lo n : Nat) : Nat := Sys2Proof.Claims.bits (r.words.getD i 0) lo n
      let wake : Bool × Nat × Nat × Nat := (w 7 3 1 == 1, w 6 0 12, w 6 12 12, w 6 44 12)
      let slot := Table.find? c.slots (w 4 52 4)
      let ended (t : State) (nibble : Nat) (trusted bad : Bool) (head addr count : Word) : Prop :=
        exec (.meJobEnd u) s = .next t ∧ (t.cluster u).me = none ∧ (t.cluster u).queue = c.queue ∧
        (Sys2Proof.Claims.noLetter s j.vcore wake trusted bad → s.sameMemory t) ∧
        Sys2Proof.Claims.idBecomes s t false j.core j.svc j.id nibble ∧
        (j.edge = false → w 7 1 1 = 0 → Sys2Proof.Claims.concluded s t j.core j.ctx j.vcore wake trusted bad head addr count (BitVec.ofNat 64 (w 6 24 20)))
      (∀ f, r.fail = some f → j.cancelled = false → ∃ t, ended t 5 r.trusted true (Sys2Proof.Claims.recordWord j.id 1 f.1.code f.2.1 0) f.2.2 0 ∧
        (t.cluster u).slots = c.slots ∧ ∀ k, (t.core k).vs.ls = (s.core k).vs.ls) ∧
      (r.fail = none → ∀ oa ob m1 a m2 b m3,
        (⟨s, r.view⟩ : Eng).mjobHeaders (.cluster u) j.ctx r.words [true, true, true, true] = .ok ([oa, ob], m1) →
        m1.operand (.cluster u) j.ctx oa = .ok (a, m2) → m2.operand (.cluster u) j.ctx ob = .ok (b, m3) →
        let float (e : Nat) : Bool := e ∈ [2, 3, 4, 5, 6, 13, 14]
        let fmt : AFmt := if oa.hdr.efmt = 1 then .f64 else if float oa.hdr.efmt ∨ float ob.hdr.efmt then .f32 else .i32
        let kl := if w 4 39 13 = 0 then oa.hdr.shape.2 - w 4 26 13 else w 4 39 13
        let old (m n : Nat) : Nat := match slot with
          | some x => if w 7 0 1 = 1 ∨ x.ctx ≠ j.ctx then 0 else (Table.get 0 x.elems (16 * m + n)).toNat
          | none => 0
        let inBlock (m n : Nat) : Prop := m ≤ w 4 56 4 ∧ n ≤ w 4 60 4
        (productEfmt oa.hdr.efmt ob.hdr.efmt).isSome = true → w 4 26 13 % 16 = 0 →
        (j.cancelled = true → ∃ t x done g, ended t 6 true false (Sys2Proof.Claims.recordWord j.id 1 0xFF 0 g) 0 (BitVec.ofNat 64 done) ∧
          Table.find? (t.cluster u).slots (w 4 52 4) = some x ∧ x.ctx = j.ctx ∧ x.fmt = fmt ∧
          (∀ k, (t.core k).vs.ls = (s.core k).vs.ls) ∧ done ≤ (kl + 15) / 16 ∧
          ∀ m n, m < 16 → n < 16 → (¬inBlock m n → (Table.get 0 x.elems (16 * m + n)).toNat = old m n) ∧
            (inBlock m n → (Table.get 0 x.elems (16 * m + n)).toNat = (Sys2Proof.Claims.jobElement a b fmt j.nbv (w 4 26 13)
              (min kl (16 * done)) (w 4 0 13 + m) (w 4 13 13 + n) (old m n)).1)) ∧
        (j.cancelled = false → ∃ t x g, ended t 4 true false (Sys2Proof.Claims.recordWord j.id 1 0 0 g) 0 (BitVec.ofNat 64 ((kl + 15) / 16)) ∧
          Table.find? (t.cluster u).slots (w 4 52 4) = some x ∧ x.ctx = j.ctx ∧ x.fmt = fmt ∧
          (∀ m n, m < 16 → n < 16 → (¬inBlock m n → (Table.get 0 x.elems (16 * m + n)).toNat = old m n) ∧
            (inBlock m n → (Table.get 0 x.elems (16 * m + n)).toNat = (Sys2Proof.Claims.jobElement a b fmt j.nbv (w 4 26 13) kl
              (w 4 0 13 + m) (w 4 13 13 + n) (old m n)).1)) ∧
          (∀ m n, m < 16 → n < 16 → w 7 1 1 = 0 → inBlock m n → (Sys2Proof.Claims.jobElement a b fmt j.nbv (w 4 26 13) kl
            (w 4 0 13 + m) (w 4 13 13 + n) (old m n)).2 &&& ~~~g = 0) ∧
          (w 7 1 1 = 0 → ∀ k, (t.core k).vs.ls = (s.core k).vs.ls) ∧
          (w 7 1 1 = 1 → w 7 6 6 = 0 → w 7 15 3 = 0 → oa.hdr.slay ∈ [0, 4, 5] → ob.hdr.slay ∈ [0, 4, 5] → j.vcore.launch ≠ noLaunch →
            ∀ k, s.place ⟨j.vcore.launch, w 6 0 12, w 6 12 12⟩ = .here k → (s.core k).parked = none → w 6 24 20 + 32 + 1024 ≤ 2 ^ 18 →
            let at_ (o : Nat) : Nat := (Table.get 0 (t.core k).vs.ls (w 6 24 20 + o)).toNat
            let word (o n : Nat) : Nat := ((List.range n).map (fun q => at_ (o + q) * 2 ^ (8 * q))).sum
            let size := if fmt = .f64 then 8 else 4
            word 0 4 / 2 ^ 12 % 64 = (match fmt with | .f64 => 1 | .f32 => 2 | .i32 => 7) ∧ word 4 2 = w 4 56 4 + 1 ∧ word 6 2 = w 4 60 4 + 1 ∧
            ∀ m n, m ≤ w 4 56 4 → n ≤ w 4 60 4 → m < 16 → n < 16 →
              word (32 + m * (size * (w 4 60 4 + 1)) + size * n) size = (Table.get 0 x.elems (16 * m + n)).toNat))))

/-- act(x) of a Junction Engine (19 R372). -/
def Sys2Proof.Claims.act (a x : Nat) : Nat :=
  let v := Fmt.f32.decode x
  if v.isNan then x
  else if a = 1 then (if v.isNeg then 0 else x)
  else if a = 2 ∧ v.lt (.fin false 0 0) = true then (deliver .f32 .rne false (mulE v (.fin false 1 (-3)))).1
  else x

/-- One layer (19 R372): element j of a weight tile times a vector of n values, from +0; a position without a value contributes an exact zero. -/
def Sys2Proof.Claims.layerOf (w : Oprd) (nbv n j : Nat) (vec : Nat → Option FVal) : Nat :=
  (Sys2Proof.Claims.blocks .f32 nbv (fun k => if efQa w.hdr.efmt then some (w.groupScale j k) else none) 0 n 0
    (fun k => match vec k with | some v => kProduct (w.values nbv j k) [v] | none => .zero 0)).1

/-- m_e of the edge i from a to b (19 R372): the features of a, of b and of the edge, exact zeros, and a last 1, through one layer
or two. -/
def Sys2Proof.Claims.message (t : JTiles) (o : JOprds) (nbv act i a b q : Nat) : Nat :=
  let f := t.x.hdr.shape.2
  let fe := match t.ef with | some e => e.hdr.shape.2 | none => 0
  let da := t.wa.hdr.shape.2
  let first (l : List FVal) : Option FVal := some (l.headD (.fin false 0 0))
  let u (k : Nat) : Option FVal :=
    if k < f then first (o.x.values nbv k a)
    else if k < 2 * f then first (o.x.values nbv (k - f) b)
    else if k < 2 * f + fe then (match o.ef with | some e => first (e.values nbv (k - 2 * f) i) | none => none)
    else if k = da - 1 then some (.fin false 1 0) else none
  let h (j : Nat) : Nat := Sys2Proof.Claims.act act (Sys2Proof.Claims.layerOf o.wa nbv da j u)
  match o.wb, t.wb with
  | some wb, some ob =>
    let fx := (Sys2Proof.Claims.formatOf t.x.hdr.efmt).getD .bf16
    let n := ob.hdr.shape.2
    Sys2Proof.Claims.layerOf wb nbv n q (fun k =>
      if k < t.wa.hdr.shape.1 then some (inputVal fx nbv (cvtFmt .f32 fx .rne false (h k)).1)
      else if k = n - 1 then some (.fin false 1 0) else none)
  | _, _ => h q

/-- A row's element after more messages (04 R90, 19 R373): the first that reaches the row stands, the others are added, or the greater taken. -/
def Sys2Proof.Claims.reduced (red : Nat) (fresh : Bool) (old : Nat) (l : List Nat) : Nat :=
  (l.foldl (fun acc x => match acc with
    | none => some x
    | some y => some (if red = 1 then (fminmax .f32 true y x).1 else (fadd .f32 .rne false y x).1)) (if fresh then none else some old)).getD old

/-- n bytes at a virtual address lie at pa for reads and for writes, and no write to them changes that: the page tables lie elsewhere. -/
def Sys2Proof.Claims.steady (s : State) (ctx : Nat) (va : Word) (pa n : Nat) : Prop :=
  ∀ v : State, v = { s with mem := v.mem, tags := v.tags, hist := v.hist, stamp := v.stamp, free := v.free } →
    (∀ p, p < pa ∨ pa + n ≤ p → v.byte p = s.byte p) → v.vaToPa ctx .read va = some pa ∧ v.vaToPa ctx .write va = some pa

/-- EDGE_TILE_BOUNDARY and JEDGE_END (19 R366-R367, R371-R374): the JEDGE whose turn it is reduces the messages of its next 256 edges, or of those
left, into the rows that they reach, counts them, and writes nothing else; one with nothing more to do completes the aggregate: a mean by the
reciprocal of its count, +0 where no edge came, then the header, and leaves; one that failed or was cancelled leaves without that. -/
def Obligations.JunctionJobs : Prop :=
  (∀ (u : Nat) (s : State) (j : Job) (r : Running), let c := s.cluster u
    let n := clusterNo j.core
    (c.me.isSome = true → exec (.edgeTileBoundary u) s = .next s) ∧
    (c.me = none → Sys2Proof.Claims.turn s u j → j.edge = true → s.edgePaused c j = false → Table.find? c.je n = some r → r.job.id = j.id →
      r.job.ctx = j.ctx → r.job.svc = j.svc → r.job.core = j.core → r.fail = none → r.job.cancelled = false → s.aggregateHeld r = false →
      let w (i lo n : Nat) : Nat := Sys2Proof.Claims.bits (r.words.getD i 0) lo n
      let stop := w 13 0 32 + w 13 32 32
      r.next < stop →
      let count := min 256 (stop - r.next)
      (∃ t x, exec (.edgeTileBoundary u) s = .next t ∧ t.cluster u = { c with last := n, je := Table.insert c.je n x } ∧ x.job = r.job ∧
        x.words = r.words ∧ (x.fail.isSome = true → s.sameMemory t ∧ x.next = r.next ∧ x.done = r.done)) ∧
      (∀ y es o m, Eng.jOperands ⟨s, r.view⟩ (.cluster u) j.ctx r.words = .ok (y, es, o, m) → ∀ pa,
        let base := y.g.va.toNat
        let rows := y.x.hdr.shape.1
        let cols := (match y.wb with | some b => b.hdr.shape.1 | none => y.wa.hdr.shape.1)
        y.out.layoutOk true = true → (y.out.spar = 0 ∧ y.out.swz ≤ 3) → base % 65536 + 32 + y.out.bodylen ≤ 65536 →
        Sys2Proof.Claims.steady s j.ctx y.g.va pa (32 + y.out.bodylen) → s.lostMemory pa = false →
        2 * y.f + y.fe + 1 ≤ y.wa.hdr.shape.2 → (∀ z, y.wb = some z → y.h + 1 ≤ z.hdr.shape.2) →
        (∀ i, i < count → 0 ≤ (es.edge (r.next + i)).1 ∧ (es.edge (r.next + i)).1 < rows ∧ 0 ≤ (es.edge (r.next + i)).2 ∧
          (es.edge (r.next + i)).2 < rows) →
        let at_ (d q : Nat) : Nat := pa + 32 + y.out.bitAt d q / 8
        let element (v : State) (d q : Nat) : Nat := ((List.range 4).map (fun i => (v.byte (at_ d q + i)).toNat * 2 ^ (8 * i))).sum
        let here (d : Nat) : List Nat := ((List.range count).map (r.next + ·)).filter (fun i => (es.edge i).2 = d)
        ∃ t x, exec (.edgeTileBoundary u) s = .next t ∧ Table.find? (t.cluster u).je n = some x ∧ x.fail = none ∧ x.next = r.next + count ∧
          x.done = r.done + count ∧ (∀ d, d < rows → Table.get 0 x.degs d = Table.get 0 r.degs d + (here d).length) ∧
          (∀ d q, d < rows → q < cols → element t d q = Sys2Proof.Claims.reduced (w 12 3 2) (Table.get 0 r.degs d == 0) (element s d q)
            ((here d).map (fun i => Sys2Proof.Claims.message y o j.nbv (w 12 1 2) i (es.edge i).1.toNat d q))) ∧
          (∀ p, (∀ d q, d < rows → q < cols → p < at_ d q ∨ at_ d q + 4 ≤ p) → t.byte p = s.byte p)))) ∧
  (∀ (u : Nat) (s : State), let c := s.cluster u
    ((∀ p ∈ c.je, p.2.fail = none ∧ p.2.job.cancelled = false ∧
      p.2.next < Sys2Proof.Claims.bits (p.2.words.getD 13 0) 0 32 + Sys2Proof.Claims.bits (p.2.words.getD 13 0) 32 32) →
      exec (.jedgeEnd u) s = .next s) ∧
    (∀ n r, c.je = [(n, r)] → (s.ctx r.job.ctx).state = .live →
      let j := r.job
      let w (i lo n : Nat) : Nat := Sys2Proof.Claims.bits (r.words.getD i 0) lo n
      let wake : Bool × Nat × Nat × Nat := (w 12 6 1 == 1, w 12 20 12, w 12 32 12, w 12 8 12)
      let ended (t : State) (nibble : Nat) (trusted bad : Bool) (head addr : Word) : Prop :=
        exec (.jedgeEnd u) s = .next t ∧ (t.cluster u).je = [] ∧ (∀ x ∈ (t.cluster u).queue, x.same j = false ∧ x ∈ c.queue) ∧
        Sys2Proof.Claims.idBecomes s t false j.core j.svc j.id nibble ∧
        (j.edge = true → Sys2Proof.Claims.concluded s t j.core j.ctx j.vcore wake trusted bad head addr (BitVec.ofNat 64 r.done) (r.words.getD 10 0))
      (∀ f, r.fail = some f → ∃ t, ended t 5 r.trusted true (Sys2Proof.Claims.recordWord j.id 2 f.1.code f.2.1 r.flags) f.2.2 ∧
        (Sys2Proof.Claims.noLetter s j.vcore wake r.trusted true → s.sameMemory t)) ∧
      (r.fail = none → j.cancelled = true → ∃ t, ended t 6 true false (Sys2Proof.Claims.recordWord j.id 2 0xFF 0 r.flags) 0 ∧
        (Sys2Proof.Claims.noLetter s j.vcore wake true false → s.sameMemory t)) ∧
      (r.fail = none → j.cancelled = false → s.aggregateHeld r = false → w 13 0 32 + w 13 32 32 ≤ r.next → ∀ y m,
        Eng.jHeaders ⟨s, r.view⟩ (.cluster u) j.ctx r.words
          [true, true, r.words.getD 4 0 != 0 || r.words.getD 5 0 != 0, true, (r.words.getD 12 0).getLsbD 0, true] = .ok (y, m) → ∀ pa,
        let rows := y.x.hdr.shape.1
        let cols := (match y.wb with | some b => b.hdr.shape.1 | none => y.wa.hdr.shape.1)
        y.out.layoutOk true = true → (y.out.spar = 0 ∧ y.out.swz ≤ 3) → y.g.va.toNat % 65536 + 32 + y.out.bodylen ≤ 65536 →
        Sys2Proof.Claims.steady s j.ctx y.g.va pa (32 + y.out.bodylen) → s.lostMemory pa = false →
        Sys2Proof.Claims.noLetter s j.vcore wake true false →
        let at_ (d q : Nat) : Nat := pa + 32 + y.out.bitAt d q / 8
        let element (v : State) (d q : Nat) : Nat := ((List.range 4).map (fun i => (v.byte (at_ d q + i)).toNat * 2 ^ (8 * i))).sum
        ∃ t g, ended t 4 true false (Sys2Proof.Claims.recordWord j.id 2 0 0 g) 0 ∧
          (∀ d q, d < rows → q < cols → element t d q =
            if Table.get 0 r.degs d = 0 then 0
            else if w 12 3 2 = 2 then (fmul .f32 .rne false (element s d q)
              (deliver .f32 .rne false (divE (.fin false 1 0) (FVal.ofInt (Table.get (0 : Nat) r.degs d : Nat)))).1).1
            else element s d q) ∧
          ((List.range 4).map fun i => t.word (pa + 8 * i)) = Hdr.words
              { y.g.hdr with efmt := 2, rows := rows, cols := cols, filled := true, trans := false, dirty := false } ∧
          (∀ p, (p < pa ∨ pa + 32 ≤ p) → (∀ d q, d < rows → q < cols → p < at_ d q ∨ at_ d q + 4 ≤ p) → t.byte p = s.byte p))))


/-! ### Links, routes, losses and the time base (14 R231-R241) -/

/-- Only link n has changed, and is now l. -/
def Sys2Proof.Claims.onlyLink (s t : State) (n : Nat) (l : Link) : Prop :=
  t = { s with links := t.links } ∧ t.link n = l ∧ ∀ m, m ≠ n → t.link m = s.link m

/-- As `onlyLink`, but the package may have lost its path to the root of time, or follow another link to it; it stays in step only where it was
and some link still leads to the same root (14 R240). -/
def Sys2Proof.Claims.linkAndSource (s t : State) (n : Nat) (l : Link) : Prop :=
  t = { s with links := t.links, tbSync := t.tbSync, tbRootOf := t.tbRootOf, tbHops := t.tbHops, tbSrc := t.tbSrc } ∧ t.link n = l ∧
    (∀ m, m ≠ n → t.link m = s.link m) ∧ (s.tbRoot = true → t.tbSync = s.tbSync) ∧
    (s.tbRoot = false → t.tbSync = true → s.tbSync = true ∧ ∃ m r, m < 18 ∧ (t.link m).carries = true ∧ (t.link m).root = some r ∧ s.tbRootOf = some r)

/-- LINK_ENABLE, LINK_TRAINING_DONE, LANE_FAILURE, LINK_RETRAIN, LINK_ACK_TIMEOUT and LINK_DISABLE (14 R231-R232, R236-R237, R240): a link moves
between its states on these events and on no other; training counts an attempt, and a third failed one ends it; 8, 4 to 7, or 2 or 3 lanes that
train give a link of 8, 4 or 2 lanes that sends what it held, a carry flit first and then in turn with the others, each channel in order; without
an acknowledgement for 100 µs it is LOST. -/
def Obligations.LinkStates : Prop :=
  (∀ (n : Nat) (s : State), let l := s.link n
    let more : BitVec 16 := BitVec.ofNat 16 (min 65535 (l.trains.toNat + 1))
    let trains : Link := { l with state := .training, lanes := 0, trains := more, fails := 0 }
    let carries := l.state = .up ∨ l.state = .degraded
    let becomes (i : Instr) (x : Link) : Prop := ∃ t, exec i s = .next t ∧ Sys2Proof.Claims.onlyLink s t n x
    let leaves (i : Instr) (x : Link) : Prop := ∃ t, exec i s = .next t ∧ Sys2Proof.Claims.linkAndSource s t n x
    (l.state = .down → becomes (.linkEnable n) { trains with ackTime := s.time }) ∧ (l.state ≠ .down → exec (.linkEnable n) s = .next s) ∧
    (∀ (lanes : BitVec 8) (peer : BitVec 18) (plink : BitVec 5), let k := ((List.range 8).filter (fun i => lanes.getLsbD i)).length
      let i := Instr.linkTrainingDone n lanes peer plink
      let up (st : LState) (m : Nat) : Link := ({ l with state := st, lanes := m, peer := peer, plink := plink } : Link).release
      (l.state ≠ .training → exec i s = .next s) ∧
      (l.state = .training → 2 ≤ k → becomes i (if k = 8 then up .up 8 else if 4 ≤ k then up .degraded 4 else up .degraded 2)) ∧
      (l.state = .training → k < 2 → leaves i { l with state := .down, lanes := 0, root := none })) ∧
    (∀ lane, (carries → leaves (.laneFailure n lane) trains) ∧ (¬carries → l.state ≠ .training → exec (.laneFailure n lane) s = .next s) ∧
      (l.state = .training → l.fails < 2 → becomes (.laneFailure n lane) { l with fails := l.fails + 1, trains := more }) ∧
      (l.state = .training → 2 ≤ l.fails → leaves (.laneFailure n lane) { l with state := .down, lanes := 0, fails := 0, root := none })) ∧
    (l.state = .degraded → leaves (.linkRetrain n) trains) ∧ (l.state ≠ .degraded → exec (.linkRetrain n) s = .next s) ∧
    (let late := (carries ∨ l.state = .training) ∧ 100000 ≤ (s.time - l.ackTime).toNat
     (¬late → exec (.linkAckTimeout n) s = .next s) ∧
     (late → leaves (.linkAckTimeout n) { l with state := .lost, lanes := 0, lostAt := s.time, root := none })) ∧
    (l.state ≠ .lost → exec (.linkDisable n) s = .next s) ∧
    (l.state = .lost → (∃ t, exec (.linkDisable n) s = .next t ∧ (t.link n).state = .down ∧ (t.link n).lanes = 0 ∧ (t.link n).sent = [] ∧
        (t.link n).holding = [] ∧ (t.link n).carryHold = []) ∧
      (l.sent = [] → l.holding = [] → l.carryHold = [] → (∀ f ∈ s.far, f.link ≠ n) →
        becomes (.linkDisable n) { l with state := .down, lanes := 0, seqTx := 0, seqRx := 0, half := [], back := [] }))) ∧
  (∀ l : Link, let q := channels l.carryHold l.holding
    (q.filter Prod.fst).map Prod.snd = l.carryHold ∧ (q.filter (fun p => !p.1)).map Prod.snd = l.holding ∧
    (∀ i, i < l.carryHold.length → i < l.holding.length → (q[2 * i]?).map Prod.fst = some true ∧ (q[2 * i + 1]?).map Prod.fst = some false) ∧
    ∃ new, l.release = { l with holding := [], carryHold := [], sent := l.sent ++ new, seqTx := l.seqTx + BitVec.ofNat 12 q.length } ∧
      new.length = q.length ∧
      ∀ i p, q[i]? = some p → new[i]? = some (mkFlit p.1 (l.seqTx + BitVec.ofNat 12 (i + 1)).toNat l.seqRx.toNat p.2))

/-- FLIT_RECEIVE and FLIT_REPLAY (14 R232-R235, 09 R157): a flit with a wrong CRC, or on a link that carries none, leaves nothing; one out of order is
discarded but for its acknowledgement, which alone restarts the link's clock; the next in order delivers its message, as its sender made it, to the core that it names; a replay is
counted. A flit holds its number, its acknowledgement, its slots and its CRC where R233 puts them. -/
def Obligations.FlitsArrive : Prop :=
  (∀ (carry : Bool) (seq ack : Nat) (slots : List (BitVec 640)), slots.length ≤ 3 → seq < 4096 → ack < 4096 →
    let f := (mkFlit carry seq ack slots).toNat
    f % 2 = carry.toNat ∧ f / 2 % 4 = slots.length ∧ f / 2 ^ 16 % 2 ^ 12 = seq ∧ f / 2 ^ 32 % 2 ^ 12 = ack ∧
    (∀ i, i < slots.length → f / 2 ^ (64 + 640 * i) % 2 ^ 640 = (slots.getD i 0).toNat) ∧
    f / 2 ^ 1984 = (crc32c ((List.range 248).map (fun i => BitVec.ofNat 8 (f / 2 ^ (8 * i))))).toNat) ∧
  (∀ (n : Nat) (f : BitVec 2048) (s : State), let l := s.link n
    let carries := l.state = .up ∨ l.state = .degraded
    let good := f.toNat / 2 ^ 1984 % 2 ^ 32 = (crc32c ((List.range 248).map (fun i => BitVec.ofNat 8 (f.toNat / 2 ^ (8 * i))))).toNat
    let seq := f.toNat / 2 ^ 16 % 2 ^ 12
    (¬carries ∨ ¬good → exec (.flitReceive n f) s = .next s) ∧
    (carries → good → seq ≠ (l.seqRx.toNat + 1) % 4096 → s.rerouting = [] → ∃ t x, exec (.flitReceive n f) s = .next t ∧
      t = { s with links := t.links, far := t.far, free := t.free } ∧ t.link n = x ∧ (∀ m, m ≠ n → t.link m = s.link m) ∧
      x = { l with sent := x.sent, back := x.back, ackTime := x.ackTime } ∧
      let acks (g : BitVec 2048) : Prop := g.toNat / 2 ^ 16 % 2 ^ 12 = f.toNat / 2 ^ 32 % 2 ^ 12
      ((∀ g ∈ l.sent, ¬acks g) → x.sent = l.sent ∧ x.ackTime = l.ackTime) ∧
      (∀ a g b, l.sent = a ++ g :: b → acks g → (∀ y ∈ a, ¬acks y) → x.sent = b ∧ x.ackTime = s.time)) ∧
    (carries → good → seq = (l.seqRx.toNat + 1) % 4096 → l.half = [] → s.rerouting = [] →
      ∀ (target sender hidx ctx launch : Nat) (regs : List XReg) (carry : Bool) (ack : Nat) (dst : VCore), regs.length = 8 → target < 2 ^ 31 →
        sender < 2 ^ 31 → hidx < 2 ^ 12 → ctx < 2 ^ 8 → launch < 2 ^ 32 → ack < 4096 → target / 8192 = s.pkg.toNat →
        f = mkFlit carry seq ack (wireSlots target sender ctx launch 0 hidx regs 0) →
        s.vcoreAt launch (target % 8192) = some dst → ∃ t, exec (.flitReceive n f) s = .next t ∧ (t.link n).seqRx.toNat = seq ∧
          t.flights = s.flights ++ [⟨BitVec.ofNat 31 sender, ctx, dst,
            .msg ⟨.handler, hidx, if regs.any XReg.tag then regs else regs.map (fun r => XReg.plain r.addr), BitVec.ofNat 31 sender, ctx, launch, s.time, none⟩⟩] ∧
          t.cores = s.cores ∧ t.ctxs = s.ctxs ∧ s.sameMemory t)) ∧
  (∀ (n : Nat) (seq : BitVec 12) (s : State), let l := s.link n
    let is (f : BitVec 2048) : Prop := f.toNat / 2 ^ 16 % 2 ^ 12 = seq.toNat
    ((¬(l.state = .up ∨ l.state = .degraded) ∨ ∀ f ∈ l.sent, ¬is f) → exec (.flitReplay n seq) s = .next s) ∧
    (∀ a f b, (l.state = .up ∨ l.state = .degraded) → l.sent = a ++ f :: b → is f → (∀ g ∈ a, ¬is g) → ∃ t, exec (.flitReplay n seq) s = .next t ∧
      Sys2Proof.Claims.onlyLink s t n { l with retry := BitVec.ofNat 16 (min 65535 (l.retry.toNat + b.length + 1)) }))

/-- ROUTE_CHANGE, PEER_LOSS and DIE_LOSS (14 R234-R238, 10 R176): a new entry stands in every die's table once the old route owes nothing, and new
traffic is held until then; one with UNREACH makes the id lost, and so does a loss for which no route was found within 1 ms: a message that a LOST link holds for it comes back as a dead letter with an event
PEER_LOST, once for its context. A lost die keeps no core, no group and no bind, and every context with cores on the package is told. -/
def Obligations.RoutesAndLosses : Prop :=
  (∀ (pkg : Nat) (entry : BitVec 8) (s : State), let e := entry &&& 0xDF
    let o := exec (.routeChange pkg entry) s
    let routes (t : State) (d : Nat) : BitVec 8 := Table.get 0x80 (t.die d).routes pkg
    let noneLost := ∀ n, n < 18 → (s.link n).state ≠ .lost
    let held := ((Table.find? s.rerouting pkg).map Reroute.held).getD []
    (entry.getLsbD 7 = false → noneLost → (∃ n ∈ s.routes pkg, s.owes n pkg = true) → ∃ t, o = .next t ∧ t.dies = s.dies ∧ t.links = s.links ∧
      Table.find? t.rerouting pkg = some { entry := e, held }) ∧
    (entry.getLsbD 7 = false → noneLost → (∀ n ∈ s.routes pkg, s.owes n pkg = false) → ∃ t, o = .next t ∧
      (∀ d < 8, routes t d = e ∧ ∀ p, p ≠ pkg → Table.get 0x80 (t.die d).routes p = Table.get 0x80 (s.die d).routes p) ∧
      Table.find? t.rerouting pkg = none ∧ (held = [] → pkg ∉ t.lostPkgs ∧ t.cores = s.cores ∧ t.links = s.links)) ∧
    (∀ d carry x, entry.getLsbD 7 = false → noneLost → (∃ n ∈ s.routes pkg, s.owes n pkg = true) → ∃ t u, o = .next t ∧
      t.sendWire d carry pkg x = some u ∧ u.links = s.links ∧ Table.find? u.rerouting pkg = some { entry := e, held := held ++ [⟨d, carry, x⟩] }) ∧
    (entry.getLsbD 7 = true → ∃ t, o = .next t ∧ pkg ∈ t.lostPkgs ∧ ∀ d < 8, routes t d = e)) ∧
  (∀ (pkg : Nat) (s : State),
    (pkg ∈ s.lostPkgs ∨ s.overdue pkg = false ∨ (∃ d < 8, (s.routeOf d pkg).isSome = true) → exec (.peerLoss pkg) s = .next s) ∧
    (pkg ∉ s.lostPkgs → s.overdue pkg = true → (∀ d < 8, s.routeOf d pkg = none) →
      (∃ t, exec (.peerLoss pkg) s = .next t ∧ pkg ∈ t.lostPkgs) ∧
      (∀ (n sender hidx ctx launch seq : Nat) (regs : List XReg) (held : Bool) (target : Nat), n < 18 → pkg < 2 ^ 18 →
        sender < 2 ^ 31 → sender / 8192 = s.pkg.toNat → ctx < 256 → hidx < 4096 → launch < 2 ^ 32 → regs.length = 8 → target < 2 ^ 31 → target / 8192 = pkg →
        (s.link n).state = .lost →
        let x := wireSlots target sender ctx launch 0 hidx regs 0
        (s.link n).sent = (if held then [] else [mkFlit false seq 0 x]) → (s.link n).holding = (if held then [x] else []) →
        (s.link n).carryHold = [] → (s.link n).back = [] → s.far = [] → Table.find? s.rerouting pkg = none → (∀ p ∈ s.ctxs, p.2.away = []) →
        (∀ m < 18, m ≠ n → (s.link m).sent = [] ∧ (s.link m).holding = [] ∧ (s.link m).carryHold = []) → (∀ p ∈ s.cores, p.2.run = .idle) →
        pkg ∉ (s.ctx ctx).told →
        ∃ t e rest, exec (.peerLoss pkg) s = .next t ∧ (t.ctx ctx).pending = (s.ctx ctx).pending ++ e :: rest ∧
          e.regs.take 3 = [0x12, BitVec.ofNat 64 sender, BitVec.ofNat 64 pkg] ∧ pkg ∈ (t.ctx ctx).told ∧ (t.link n).sent = [] ∧ (t.link n).holding = []))) ∧
  (∀ (d : Nat) (s : State),
    ((s.die d).lost = true → exec (.dieLoss d) s = .next s) ∧
    ((s.die d).lost = false → ∃ t, exec (.dieLoss d) s = .next t ∧ (t.die d).lost = true ∧ (t.die d).binds = [] ∧
      (∀ k, k / 1024 = d → (t.core k).ctx = none ∧ (t.core k).run = .idle) ∧
      (∀ p ∈ s.cores, ∀ c, p.2.ctx = some c → ∃ e ∈ (t.ctx c).pending, e.regs.take 2 = [0x41, BitVec.ofNat 64 (s.pkg.toNat * 8192 + d * 1024)]) ∧
      (∀ l x, s.launch? l = some x → ∃ y, t.launch? l = some y ∧ ∀ g ∈ x.groups, (g.2.state = .resident ∨ g.2.state = .unbinding) → d < 8 →
        g.2.die = s.pkg.toNat * 8 + d → ∃ g' ∈ y.groups, g'.1 = g.1 ∧ g'.2.state = .retired ∧ g'.2.lost = true)))

/-- TIME_FLIT_EXCHANGE and ROOTSEL_WRITE (14 R239-R241): no exchange changes the count; this package's count goes out in a time flit, whose layout is
the model's (log entry 6); the package that ROOTSEL names is the root unless it hears of a lower one; another follows the lowest root that it hears
of, over the nearest link, with its distance and its offset, and is in step within ±8; one that hears of none clears SYNC; a write of ROOTSEL
acts at the next exchange. -/
def Obligations.TimeBase : Prop :=
  (∀ (n : Nat) (count : Word) (rtt : Nat) (root : Option (BitVec 18)) (hops : Nat) (s : State),
    let o := exec (.timeFlitExchange n count rtt root hops) s
    let l := s.link n
    let carries := l.state = .up ∨ l.state = .degraded
    let off : Int := (count.toNat : Int) + rtt / 2 - s.time.toNat
    let hears (m : Nat) (r : BitVec 18) (h : Nat) : Prop :=
      if m = n then root = some r ∧ h = hops else (s.link m).carries = true ∧ (s.link m).root = some r ∧ h = (s.link m).rootHops
    (¬carries → o = .next s) ∧
    (carries → ∃ t, o = .next t ∧ t.time = s.time ∧ t.cores = s.cores ∧ (∀ m, m ≠ n → t.link m = s.link m) ∧
      ∃ f : BitVec 2048, t.link n = { l with sent := l.sent ++ [f], seqTx := l.seqTx + 1, root := root, rootHops := hops } ∧
        f.toNat % 8 = 1 ∧ f.toNat / 2 ^ 16 % 2 ^ 12 = (l.seqTx + 1).toNat ∧ f.toNat / 2 ^ 64 % 2 ^ 64 = s.time.toNat) ∧
    (carries → s.rootsel = true → (∀ m r h, m < 18 → hears m r h → s.pkg.toNat ≤ r.toNat) → ∃ t, o = .next t ∧ t.tbRoot = true ∧ t.tbSync = true ∧
      t.tbHops = 0 ∧ t.tbOffs = 0 ∧ t.tbRootOf = some s.pkg) ∧
    (∀ r, carries → n < 18 → root = some r → r ≠ s.pkg → hops + 1 < 2 ^ 18 → (s.rootsel = true → r.toNat < s.pkg.toNat) →
      (∀ m q h, m < 18 → m ≠ n → hears m q h → q ≠ s.pkg → h + 1 < 2 ^ 18 → r.toNat < q.toNat ∨ r = q ∧ (hops < h ∨ hops = h ∧ n < m)) →
      ∃ t, o = .next t ∧ t.tbRoot = false ∧ t.tbSrc.toNat = n ∧ t.tbHops.toNat = hops + 1 ∧ t.tbRootOf = some r ∧ t.tbOffs = BitVec.ofInt 32 off ∧
        t.tbSync = decide (-8 ≤ off ∧ off ≤ 8)) ∧
    (carries → s.rootsel = false → (∀ m r h, m < 18 → hears m r h → r = s.pkg) → ∃ t, o = .next t ∧ t.tbSync = false ∧ t.tbRoot = false ∧
      t.tbRootOf = none)) ∧
  (∀ (w : Word) (s : State), exec (.rootselWrite w) s = .next { s with rootsel := w.getLsbD 0 })


/-! ### Management (00 R4, 01 R21, 06 R108-R109, R118, R122, R129, 22 R424, 23 R427-R436) -/

/-- Byte a of the flash of a module. -/
def Sys2Proof.Claims.flash (s : State) (a : Nat) : Nat :=
  match Table.get none s.mgmt.flash a with
  | some b => b.toNat
  | none => if s.mgmt.erased then Config.erasedFlash.toNat else (Config.shippedFlash a).toNat

/-- Four bytes of the flash as a number. -/
def Sys2Proof.Claims.flash4 (s : State) (a : Nat) : Nat := ((List.range 4).map (fun i => Sys2Proof.Claims.flash s (a + i) * 2 ^ (8 * i))).sum

/-- What the boot ROM finds wrong with the image in the flash (23 R427-R428): 1 its MAGIC, 2 its signature over the SHA-512 of the image with SIG
zero, 3 its version; 0 nothing. -/
def Sys2Proof.Claims.imageReason (s : State) : Nat :=
  let b (a n : Nat) : List Byte := (List.range n).map (fun i => BitVec.ofNat 8 (Sys2Proof.Claims.flash s (a + i)))
  let len := Sys2Proof.Claims.flash4 s 8
  if Sys2Proof.Claims.flash4 s 0 ≠ 0x50464D38 then 1
  else if ecdsaOk Config.imageKey (sha512 (b 0 12 ++ List.replicate 132 0 ++ b 144 (112 + len))) (b 12 132) = false then 2
  else if Sys2Proof.Claims.flash4 s 4 < Config.rollbackMin.toNat then 3
  else 0

/-- POWER_ON, BOOT_INIT_DONE, the provisioning commands and the SPDM requests (23 R427-R431): boot leaves ROM for INIT or BOOTFAIL by the checks of
the image; READY has the package id that the Plinth sets and loses the dies whose memory test failed; the mailbox accepts a command in BOOTFAIL, and in READY while every context is FREE; an
SPDM request is answered but in BOOTFAIL. -/
def Obligations.BootAndProvisioning : Prop :=
  (∀ s : State, let why := Sys2Proof.Claims.imageReason s
    let fver := BitVec.ofNat 32 (Sys2Proof.Claims.flash4 s 4)
    (s.mgmt.boot ≠ .rom → exec .powerOn s = .next s) ∧
    (s.mgmt.boot = .rom → ∃ t, exec .powerOn s = .next t ∧ t = { s with mgmt := t.mgmt } ∧ t.mgmt.boot = (if why = 0 then .init else .fail) ∧
      t.mgmt.reason.toNat = why ∧ t.mgmt.fver = fver ∧ t.mgmt.flash = s.mgmt.flash)) ∧
  (∀ (bad : BitVec 8) (s : State),
    (s.mgmt.boot ≠ .init → exec (.bootInitDone bad) s = .next s) ∧
    (s.mgmt.boot = .init → ∃ t, exec (.bootInitDone bad) s = .next t ∧ t.mgmt.boot = .ready ∧ t = { s with dies := t.dies, mgmt := t.mgmt, pkg := Config.bootPkg } ∧
      (∀ d, (t.die d).lost = ((s.die d).lost || (decide (d < 8) && bad.getLsbD d))) ∧ (bad ≠ 0 → t.mgmt.reason = 4) ∧
      (bad = 0 → t.mgmt.reason = s.mgmt.reason))) ∧
  (∀ s : State, let open_ := s.mgmt.boot = .fail ∨ s.mgmt.boot = .ready ∧ ∀ p ∈ s.ctxs, p.2.state = .free
    let status (t : State) (op st : Nat) : Prop := t.mgmt.pcmd = BitVec.ofNat 64 (op + st * 2 ^ 16) ∧ t = { s with mgmt := t.mgmt } ∧
      t.mgmt.boot = s.mgmt.boot
    (¬open_ → ∀ x ∈ ([(.provErase, 1), (.provWrite, 2), (.provVerify, 3), (.provReset, 4)] : List (Instr × Nat)), ∃ t, exec x.1 s = .next t ∧
      status t x.2 2 ∧ ∀ a, Sys2Proof.Claims.flash t a = Sys2Proof.Claims.flash s a) ∧
    (open_ → (∃ t, exec .provErase s = .next t ∧ status t 1 0 ∧ ∀ a, Sys2Proof.Claims.flash t a = Config.erasedFlash.toNat) ∧
      (4096 < s.mgmt.parg1.toNat → ∃ t, exec .provWrite s = .next t ∧ status t 2 2 ∧ t.mgmt.flash = s.mgmt.flash) ∧
      (s.mgmt.parg1.toNat ≤ 4096 → ∃ t, exec .provWrite s = .next t ∧ status t 2 0 ∧
        (∀ i, i < s.mgmt.parg1.toNat → Sys2Proof.Claims.flash t (s.mgmt.parg0.toNat + i) = (Table.get 0 s.mgmt.window i).toNat) ∧
        (∀ a, (a < s.mgmt.parg0.toNat ∨ s.mgmt.parg0.toNat + s.mgmt.parg1.toNat ≤ a) → Sys2Proof.Claims.flash t a = Sys2Proof.Claims.flash s a)) ∧
      (∃ t, exec .provVerify s = .next t ∧ status t 3 (if Sys2Proof.Claims.imageReason s = 0 then 0 else 2) ∧
        (Sys2Proof.Claims.imageReason s ≠ 0 → t.mgmt.reason.toNat = Sys2Proof.Claims.imageReason s) ∧ t.mgmt.flash = s.mgmt.flash) ∧
      (∃ t, exec .provReset s = .next t ∧ t.mgmt.boot = .rom ∧ t.mgmt.pcmd = 0 ∧ t.ctxs = [] ∧ t.cores = [] ∧ t.time = 0 ∧
        ∀ a, Sys2Proof.Claims.flash t a = Sys2Proof.Claims.flash s a))) ∧
  (∀ (req : List Byte) (s : State), ∀ i ∈ [Instr.getVersion req, .getCapabilities req, .negotiateAlgorithms req, .getDigests req, .getCertificate req,
      .challenge req, .getMeasurements req],
    (s.mgmt.boot = .fail → exec i s = .next s) ∧
    (s.mgmt.boot ≠ .fail → ∃ t, exec i s = .next t ∧ t = { s with mgmt := t.mgmt, free := t.free } ∧ t.mgmt.spdm = req :: s.mgmt.spdm ∧
      t.mgmt.boot = s.mgmt.boot))

/-- FEATOFF_WRITE, GAUGE_SOURCE_SET, GAUGE_CLEAR and REGISTER_WRITE (06 R108, R118, R122, R129, 23 R432-R435): a feature write is taken while
every context is FREE and marked with bit 63 otherwise; a gauge's source or its CLR resets MIN, MAX, N, SUM and every bin of that unit; a
register write acts as its register says, a one clears under W1C, and an offset without a register ignores it, as all do in BOOTFAIL but
boot and provisioning. -/
def Obligations.HostRegisterWrites : Prop :=
  (∀ (w : Word) (s : State),
    ((∀ p ∈ s.ctxs, p.2.state = .free) → exec (.featoffWrite w) s = .next { s with featoff := w &&& 0x3E }) ∧
    ((∃ p ∈ s.ctxs, p.2.state ≠ .free) → exec (.featoffWrite w) s = .next { s with featoff := s.featoff ||| 2 ^ 63 })) ∧
  (∀ (ctx u : Nat) (src : BitVec 4) (s : State), u < 16 →
    (9 ≤ src.toNat → exec (.gaugeSourceSet ctx u src) s = .next s) ∧
    (∀ i v, i = Instr.gaugeSourceSet ctx u src ∧ v = src ∧ src.toNat < 9 ∨ i = .gaugeClear ctx u ∧ v = ((s.ctx ctx).gauge u).src →
      ∃ t, exec i s = .next t ∧ t = { s with ctxs := t.ctxs } ∧ (t.ctx ctx).gauge u = ⟨v, 0xFFFFFFFFFFFFFFFF, 0, 0, 0, ((s.ctx ctx).gauge u).sel, []⟩ ∧
        (∀ n, n ≠ u → (t.ctx ctx).gauge n = (s.ctx ctx).gauge n) ∧ ∀ c, c ≠ ctx → t.ctx c = s.ctx c)) ∧
  (∀ (off : Nat) (w : Word) (s : State), let o := exec (.registerWrite off w) s
    (off % 8 ≠ 0 ∨ 0x80000 ≤ off → o = .next s) ∧
    (s.mgmt.boot = .fail → ¬(0x24000 ≤ off ∧ off < 0x26000) → o = .next s) ∧
    (off = 0x24010 → o = .next { s with mgmt := { s.mgmt with parg0 := w } }) ∧
    (off = 0x24018 → o = .next { s with mgmt := { s.mgmt with parg1 := w } }) ∧
    (0x25000 ≤ off → off < 0x26000 → off % 8 = 0 → ∃ t, o = .next t ∧ t = { s with mgmt := { s.mgmt with window := t.mgmt.window } } ∧
      ∀ i, Table.get 0 t.mgmt.window i =
        if off - 0x25000 ≤ i ∧ i < off - 0x25000 + 8 then BitVec.ofNat 8 (w.toNat / 2 ^ (8 * (i - (off - 0x25000)))) else Table.get 0 s.mgmt.window i) ∧
    (s.mgmt.boot ≠ .fail →
      (off = 0x21000 → o = exec (.featoffWrite w) s) ∧
      (off = 0x22108 → o = .next { s with rootsel := w.getLsbD 0 }) ∧
      (∀ i, i < 8 → off = 0x20008 + 8 * i → ∃ t, o = .next t ∧ t = { s with carg := t.carg } ∧
        ∀ j, Table.get 0 t.carg j = if j = i then w else Table.get 0 s.carg j) ∧
      (∀ n, n < 18 → off = 0x22000 + 8 * n → ∃ t, o = .next t ∧ Sys2Proof.Claims.onlyLink s t n { s.link n with
        retry := BitVec.ofNat 16 ((s.link n).retry.toNat &&& (65535 - w.toNat / 2 ^ 32 % 2 ^ 16)),
        trains := BitVec.ofNat 16 ((s.link n).trains.toNat &&& (65535 - w.toNat / 2 ^ 48 % 2 ^ 16)) }) ∧
      (∀ d, d < 8 → off = 0x23000 + 8 * d → ∃ t, o = .next t ∧ t = { s with dies := t.dies } ∧ t.die d = { s.die d with soft := (s.die d).soft &&& ~~~w } ∧
        ∀ e, e ≠ d → t.die e = s.die e) ∧
      (∀ q, q < 2048 → off = 64 * q → (s.die (q / 256)).lost = false → ∃ t, o = .next t ∧ t = { s with queues := t.queues } ∧
        t.queue q = (if (s.queue q).state = .disabled then { s.queue q with base := w } else { s.queue q with cmderr := true }) ∧
        ∀ p, p ≠ q → t.queue p = s.queue p) ∧
      (∀ q, q < 2048 → off < 0x20000 → off / 64 = q → (s.die (q / 256)).lost = true → o = .next s) ∧
      (off = 0x20000 → s.mgmt.boot ≠ .ready → o = .next s)))

/-- CXL_MEM_WRITE, CORRECTABLE_ERROR, UNCORRECTABLE_ERROR and the thermal events (00 R4, 01 R13, R21, 06 R109, 17 R305, 22 R424, 23 R435-R436): the
host's bytes stand in memory and their granules lose their tags; beyond the device's addresses it faults (the model's choice, log entry 14);
an error counts in its field, saturating, and in the log; an uncorrectable one of an access raises MCHECK on its firing; the clock moves in steps of 100 MHz between 800 and
1,500; at 60 °C every context stops as by DESTROY and the host is told. -/
def Obligations.HostMemoryErrorsAndHeat : Prop :=
  (∀ (pa : Nat) (bytes : List Byte) (s : State),
    (0xC0_0001_0000 < pa + bytes.length → exec (.cxlMemWrite pa bytes) s = .fault .noSuchAddress) ∧
    (pa + bytes.length ≤ 0xC0_0001_0000 → s.mgmt.boot = .fail → exec (.cxlMemWrite pa bytes) s = .next s) ∧
    (pa + bytes.length ≤ 0xC0_0000_0000 → s.mgmt.boot ≠ .fail → bytes ≠ [] →
      (s.lostMemory pa = true → exec (.cxlMemWrite pa bytes) s = .next s) ∧
      (s.lostMemory pa = false → ∃ t, exec (.cxlMemWrite pa bytes) s = .next t ∧ t.cores = s.cores ∧ t.queues = s.queues ∧
        (∀ i, i < bytes.length → t.byte (pa + i) = bytes.getD i 0 ∧ t.tagAt ((pa + i) / 16) = false) ∧
        (∀ a, (a < pa ∨ pa + bytes.length ≤ a) → t.byte a = s.byte a) ∧
        (∀ g, (16 * g + 16 ≤ pa ∨ pa + bytes.length ≤ 16 * g) → t.tagAt g = s.tagAt g)))) ∧
  (∀ (die : Nat) (kind : ErrSite) (pa : Word) (s : State), ∃ t, exec (.correctableError die kind pa) s = .next t ∧ t = { s with dies := t.dies } ∧
    (∀ e, e ≠ die → t.die e = s.die e) ∧
    let lo := match kind with | .sram => 0 | .hbmA => 16 | .hbmB => 32
    let x := s.die die
    t.die die = { x with soft := (t.die die).soft, log := x.log ++ [(pa, s.time)] } ∧
    ∀ n ∈ [0, 16, 32, 48], Sys2Proof.Claims.bits (t.die die).soft n 16 =
      if n = lo then min 65535 (Sys2Proof.Claims.bits x.soft n 16 + 1) else Sys2Proof.Claims.bits x.soft n 16) ∧
  (∀ (die : Nat) (site : UncSite) (s : State), ∃ t, exec (.uncorrectableError die site) s = .next t ∧
    (site = .idle → let x := s.die die
      (∃ pa, (t.die die).log = x.log ++ [(pa, s.time)]) ∧ (t.die die).checks = x.checks ++ [s.time] ∧ t.cores = s.cores ∧
      Sys2Proof.Claims.bits (t.die die).soft 48 16 = min 65535 (Sys2Proof.Claims.bits x.soft 48 16 + 1)) ∧
    (∀ k va f, site = .access k va → (s.core k).firing = some f → f.svc = false → (s.core k).ctx ≠ none → (s.core k).run = .running → (s.core k).committed = false →
      (t.core k).run ≠ .running ∧ (t.core k).firing = none)) ∧
  (∀ (dies : BitVec 8) (s : State),
    (∃ t, exec (.thermalThrottle dies) s = .next t ∧ t = { s with dies := t.dies } ∧ ∀ d, d < 8 → t.die d =
      if dies.getLsbD d then { s.die d with mhz := max 800 ((s.die d).mhz - 100) } else s.die d) ∧
    (∃ t, exec (.thermalRecover dies) s = .next t ∧ t = { s with dies := t.dies } ∧ ∀ d, d < 8 → t.die d =
      if dies.getLsbD d then { s.die d with mhz := min 1500 ((s.die d).mhz + 100) } else s.die d)) ∧
  (∀ s : State, ∃ t, exec .thermalShutdown s = .next t ∧ t.notices = s.notices ++ [s.time] ∧ t.mgmt.stopped = true ∧
    ∀ p ∈ s.ctxs, p.2.state ∈ [CState.live, .stopped, .halted] → (t.ctx p.1).state ∉ [CState.live, .stopped, .halted])


/-! ### The machine: its steps, its encodings, its reset -/

/-- A step runs the instruction that is its turn (16 R272, 13 R230, 15 R255-R260; turns: log entry 1). A core that runs a firing executes the word
that it fetches at its pc, decoded, or again the one that waited; a word that its prefixes do not fit raises PREFIX, an illegal one ILLEGAL;
any other core, and one whose context is HALTED, does nothing. The word fetched is memory's, where no older one may still be found. An event's turn runs the event; a turn of
time moves the time base and the clock, the count slewed towards its source by at most one in 10,000 (14 R239). -/
def Obligations.StepRunsDecodedInstruction : Prop :=
  (∀ (s : State) (k : Nat), (s.agenda = [] ∧ k = s.cur ∨ ∃ rest, s.agenda = .core k :: rest) →
    let s0 : State := { s with cur := k, agenda := s.agenda.tail }
    let c := s.core k
    (c.run ≠ .running ∨ s.frozen k = true → step s = .next s0) ∧
    (∀ i, c.run = .running → s.frozen k = false → c.again = some i → step s = exec i s0) ∧
    (∀ w s1, c.run = .running → s.frozen k = false → c.again = none → s0.fetchAt k c.pc = .ok (w, s1) →
      (∀ n, n < 8 → (Table.get 0 c.vs.csr.brka n).getLsbD 0 = false) → c.vs.csr.estat.getLsbD 2 = false → (s1.core k).vs = c.vs →
      (prefixFits c.pfx (opcOf w) = false → step s = .next (s1.takeFault k .prefixBad 0 c.unitAt .fetch)) ∧
      (prefixFits c.pfx (opcOf w) = true →
        (∀ i, decode w = .ok i → step s = exec i (s1.setCore k { s1.core k with again := some i })) ∧
        (decode w = .error .illegal → step s = .next (s1.takeFault k .illegal 0 c.unitAt .fetch)))) ∧
    (∀ pa s1, c.pcc.base ≤ c.pc.toNat → c.pc.toNat + 8 ≤ c.pcc.top → s0.translate k .fetch c.pc = .ok (pa, s1) →
      (∀ v ∈ s1.hist, v.code = false) → s0.fetchAt k c.pc = .ok (s1.word pa, s1))) ∧
  (∀ (s : State) (i : Instr) (rest : List Turn), s.agenda = .event i :: rest →
    (encode i = none → step s = exec i { s with agenda := rest }) ∧ ((encode i).isSome = true → step s = .next { s with agenda := rest })) ∧
  (∀ (s : State) (ticks cycles : Nat) (rest : List Turn), s.agenda = .time ticks cycles :: rest →
    ((s.tbRoot = true ∨ s.tbRootOf = none ∨ s.tbLeft = 0) →
      step s = .next { s with agenda := rest, time := s.time + BitVec.ofNat 64 ticks, cycle := s.cycle + cycles }) ∧
    ∃ t n, step s = .next t ∧ n ≤ ticks / 10000 ∧ n ≤ s.tbLeft.natAbs ∧ t.cycle = s.cycle + cycles ∧ t.cores = s.cores ∧
      t.time = s.time + BitVec.ofNat 64 (if 0 ≤ s.tbLeft then ticks + n else ticks - n))

/-- Words written out from the encoding of 15 R242-R254 and the examples of 16-20 decode to the instructions that they stand for. -/
def Obligations.SpecWordsDecode : Prop :=
  let x (n : Fin 128) : Opnd := .x n
  let v (n : Fin 32) : Opnd := .v n
  let r (d a b : Opnd) : FR := { sp := false, bm := 0, d, a, b }
  let m (ty : VTy) (sat m : Bool) (xmod : BitVec 5) : VMod := { ty, rm := .rne, sat, m, s := false, xmod }
  decode 0x0100000003001002 = .ok (.add (r (x 3) (x 1) (x 2))) ∧
  decode 0x2114000004003005 = .ok (.div { sp := false, bm := 2, d := x 4, a := x 3, b := x 5 }) ∧
  decode 0x02000003003FFFFB = .ok (.addi { sp := false, bm := 0, d := x 3, a := x 3, imm := -5 }) ∧
  decode 0x0308000500500040 = .ok (.cinc { sp := false, bm := 0, d := x 5, a := x 5, imm := 64 }) ∧
  decode 0x042400010000000A = .ok (.jal { sp := false, bm := 0, hint := false, a := x 1, b := x 0, disp := 10 }) ∧
  decode 0x0500000000014015 = .ok (.send { sp := false, bm := 0, stream := false, d := x 0, a := x 20, b := x 21 }) ∧
  decode 0x0601800400500010 = .ok (.ld { sp := false, bm := 0, width := .d, ext := false, nt := false, d := x 4, a := x 5, off := 16 }) ∧
  decode 0x0605800600A00000 = .ok (.st { sp := false, bm := 0, width := .d, ext := false, nt := false, d := x 6, a := x 10, off := 0 }) ∧
  decode 0x0710000000016604 = .ok (.mcst (r (x 0) (x 22) (v 4))) ∧
  decode 0x0900081601602603 = .ok (.vadd { sp := false, bm := 0, md := m .i8 true false 1, d := v 1, a := v 2, b := v 3 }) ∧
  decode 0x0A0E040604601602 = .ok (.vfma { sp := false, bm := 0, md := m .f32 false true 0, d := v 4, a := v 1, b := v 2 }) ∧
  decode 0x0C24000604601602 = .ok (.tmma (r (v 4) (v 1) (v 2))) ∧
  decode 0x0D0000001E018000 = .ok (.mjob (r (x 30) (x 24) (x 0))) ∧
  decode 0x0E00000003018005 = .ok (.copy (r (x 3) (x 24) (x 5))) ∧
  decode 0x0020000300000000 = .ok (.csrr { sp := false, bm := 0, d := x 3, a := x 0, imm := 0 })

/-- Decoding is right on whatever the encoder gives (15 R242-R254): every well-formed instruction that has a word is what its word decodes to,
with every operand. -/
def Obligations.DecodeOfEncode : Prop := ∀ (i : Instr) (w : Word), i.wf = true → encode i = some w → decode w = .ok i

/-- Decoding drops no bit of a word (15 R249, R254-R255): a word that decodes to an instruction is the word of that instruction, which is
well-formed; and only an event has no word. -/
def Obligations.EncodeOfDecode : Prop := ∀ (w : Word) (i : Instr), decode w = .ok i → encode i = some w ∧ i.wf = true

/-- Every step keeps the canonical form of memory and of the tags (17 R305; log entry 3): addresses rising, and no entry equal to what an unlisted
address reads as. -/
def Obligations.StepKeepsMemory : Prop := ∀ s t : State, s.memOk → step s = .next t → t.memOk

/-- The machine after reset (20 R383, 03 R42, 04 R92, 05 R95, 06 R107-R108, R118, 07 R131, 14 R231-R241, 23 R429-R436): memory with nothing
listed, so that it is in its canonical form and every byte reads as zero (log entry 3); every context FREE, every queue DISABLED, every link
DOWN, every id without a route, boot in ROM; every CSR at the value that its table gives. -/
def Obligations.ResetState : Prop :=
  let s := State.reset
  s.memOk ∧ (∀ a, s.byte a = 0 ∧ s.tagAt (a / 16) = false) ∧
  (∀ k, let c := s.core k
    (∀ n, c.vs.getX n = XReg.zero) ∧ (∀ n, c.vs.getY n = 0) ∧ (∀ n, c.vs.getV n = 0) ∧ c.vs.t = [] ∧ c.run = .idle ∧ c.ctx = none ∧
    (let r := c.vs.csr
     r.fstat = 0 ∧ r.nbv = 2 ∧ r.lshash = 0 ∧ r.lsstat = 0 ∧ r.lsbad = 0 ∧ r.qctlh = 0 ∧ r.alarm = BitVec.allOnes 64 ∧ r.tvec = 0 ∧ r.epcl = 0 ∧
       r.epch = 0 ∧ r.estat = 0 ∧ r.chstat = 0 ∧ r.chfuel = 65536 ∧ r.carry = 0 ∧ r.scanst = 0 ∧ r.jobctr = 0 ∧ r.jobwin = 0 ∧ r.cpctr = 0 ∧
       r.cpwin = 0 ∧ ∀ n, Table.get 0 r.brka n = 0) ∧
    c.ldim = 0x10001 ∧ c.gshape = 0 ∧ c.gindex = 0x100000000 ∧ c.quantum = 200 ∧ c.mode = 0) ∧
  (∀ c, (s.ctx c).state = .free ∧ ∀ u, (s.ctx c).gauge u = ⟨0, BitVec.allOnes 64, 0, 0, 0, 0, []⟩) ∧
  (∀ q, (s.queue q).state = .disabled ∧ (s.queue q).log2n = 6 ∧ (s.queue q).rptr = 0) ∧
  (∀ n, s.link n = Link.fresh ∧ (s.link n).status = 0) ∧
  (∀ d p, Table.get 0x80 (s.die d).routes p = 0x80 ∧ (s.die d).soft = 0 ∧ (s.die d).lost = false ∧ (s.die d).mhz = 1500) ∧
  s.featoff = 0 ∧ s.ccmd = 0 ∧ s.mgmt.boot = .rom ∧ s.mgmt.status = 0 ∧ s.timeStatus = 0 ∧ s.rootsel = false ∧ s.launches = [] ∧ s.flights = []

/-! ### Statements of several parts -/

/-- Groups 0x1 and 0x2 (16 R273-R285): what each scalar integer instruction puts, and when a division faults. -/
def Obligations.ScalarIntegerResults : Prop := Sys2Proof.Claims.TwoSourceIntegerResult ∧ Sys2Proof.Claims.DivisionResultAndDivzero ∧ Sys2Proof.Claims.OneSourceSelectInsert ∧ Sys2Proof.Claims.ImmediateIntegerResult

/-- What a source field gives and what a destination field takes. -/
def Obligations.OperandsReadAndWritten : Prop := Sys2Proof.Claims.SourceValues ∧ Sys2Proof.Claims.PutWritesDestinationAndFileShift

/-- Reading the fields of capabilities and writing capability registers. -/
def Obligations.CapabilityRegisters : Prop := Sys2Proof.Claims.CapabilityGetters ∧ Sys2Proof.Claims.CapabilityRegisterWrite

/-- Deriving capabilities: addresses, bounds and permissions, seals. -/
def Obligations.CapabilityDerivation : Prop := Sys2Proof.Claims.CapabilityAddressChange ∧ Sys2Proof.Claims.CapabilityNarrowing ∧ Sys2Proof.Claims.CapabilitySealing

/-- Where branches, loops and jumps go. -/
def Obligations.BranchesAndJumps : Prop := Sys2Proof.Claims.BranchTargets ∧ Sys2Proof.Claims.LoopAndLinkJumps

/-- Taking a trap and returning from it. -/
def Obligations.TrapsEnterAndReturn : Prop := Sys2Proof.Claims.TrapEntry ∧ Sys2Proof.Claims.TrapReturn

/-- FENCE.CODE, PTSYNC, STOPW, RESUMEW and WAITT. -/
def Obligations.FencesAndStopWorld : Prop := Sys2Proof.Claims.FenceAndTranslationSync ∧ Sys2Proof.Claims.StopWorldAndWait

/-- The phase buffer, safe points and boundaries. -/
def Obligations.BoundariesAndPhases : Prop := Sys2Proof.Claims.PhaseBufferEntry ∧ Sys2Proof.Claims.SafePointGoesOn ∧ Sys2Proof.Claims.BoundaryBeginsPhase

/-- Event instructions at the core, and event operations at their home. -/
def Obligations.EventsSetAndWaited : Prop := Sys2Proof.Claims.EventInstructions ∧ Sys2Proof.Claims.EventsAtHome

/-- What loads see and what a publication writes. -/
def Obligations.MemoryAndPhases : Prop := Sys2Proof.Claims.LoadsSeeThePhase ∧ Sys2Proof.Claims.PublicationWritesMemory

/-- QCTL, QTEST, QDRAIN, MCST and the rings. -/
def Obligations.ControlAndLocalMessages : Prop := Sys2Proof.Claims.ControlWords ∧ Sys2Proof.Claims.McstAndRings

/-- Global atomics and remote operations. -/
def Obligations.AtomicsAndRemotes : Prop := Sys2Proof.Claims.GlobalAtomics ∧ Sys2Proof.Claims.RemoteOperations

/-- Vector reductions, scans and stream words. -/
def Obligations.ReductionsAndStreams : Prop := Sys2Proof.Claims.VectorReductionsAndScan ∧ Sys2Proof.Claims.StreamEndsAtControlWord

/-- Tile registers and their arithmetic. -/
def Obligations.TileRegistersAndArithmetic : Prop := Sys2Proof.Claims.TileRegisterForms ∧ Sys2Proof.Claims.TileArithmetic

/-- Engine commands on the core: issue, waits, polls, cancels. -/
def Obligations.EngineCommandWords : Prop := Sys2Proof.Claims.EngineCommandsIssue ∧ Sys2Proof.Claims.EngineWaitsAndCancels

/-- Handles, and the residual code that SPEC makes. -/
def Obligations.HandlesAndResiduals : Prop := Sys2Proof.Claims.HandleInstructions ∧ Sys2Proof.Claims.SpecMakesResidual

/-- Context commands of the host, their answers, and the scrub. -/
def Obligations.ContextsCommanded : Prop := Sys2Proof.Claims.ContextCommands ∧ Sys2Proof.Claims.AnswersAndScrub

/-- Queues and their packets. -/
def Obligations.QueueEvents : Prop := Sys2Proof.Claims.QueueRegisterEvents ∧ Sys2Proof.Claims.LaunchPackets ∧ Sys2Proof.Claims.QueuePackets

/-- Binding, unbinding, retiring and rotating groups. -/
def Obligations.GroupsBoundAndRotated : Prop := Sys2Proof.Claims.BindRecords ∧ Sys2Proof.Claims.RotationAndQuiescence

/-- Messages and other bodies that arrive, and a firing that migrates. -/
def Obligations.BodiesReachTheirCores : Prop := Sys2Proof.Claims.MessagesArrive ∧ Sys2Proof.Claims.BodiesArrive ∧ Sys2Proof.Claims.MigrationLeaves

/-- Waits that end, requests and held publications. -/
def Obligations.HeldAndWaitingWork : Prop := Sys2Proof.Claims.WaitsEnd ∧ Sys2Proof.Claims.RequestsAndHeldWork

/-- Misses, pages, the fault actor, rings, promotion and migration of pages. -/
def Obligations.ServicesOfThePlinth : Prop := Sys2Proof.Claims.MissesAndEventsServed ∧ Sys2Proof.Claims.PagesMove

/-- Engine commands from their start, and the end of copies. -/
def Obligations.EngineCommandsRun : Prop := Sys2Proof.Claims.EngineCommandsStart ∧ Sys2Proof.Claims.CopyCommandsEnd
end

