-- ==== Sys2Proof/Laws/Table.lean ====
section
/-! SUPPORT. Laws of the sparse store: reading after a write, and the canonical form that every operation keeps. -/

namespace Sys2Proof.Table

variable {α β : Type}

@[simp] theorem get_nil (d : α) (k : Nat) : get d ([] : Table α) k = d := rfl
@[simp] theorem find?_nil (k : Nat) : find? ([] : Table α) k = none := rfl

theorem get_eq_find? (d : α) (t : Table α) (k : Nat) : get d t k = (find? t k).getD d := by
  induction t with
  | nil => rfl
  | cons p t ih =>
    obtain ⟨j, v⟩ := p
    simp only [get, find?]
    split <;> simp [ih]

@[simp] theorem find?_insert_same (t : Table α) (k : Nat) (v : α) : find? (insert t k v) k = some v := by
  induction t with
  | nil => simp [insert, find?]
  | cons p t ih =>
    obtain ⟨j, u⟩ := p
    simp only [insert]
    split
    · simp [find?]
    · split
      · simp [find?]
      · have : j ≠ k := fun h => by omega
        simp [find?, this, ih]

@[simp] theorem find?_insert_other (t : Table α) {i k : Nat} (v : α) (h : i ≠ k) : find? (insert t k v) i = find? t i := by
  induction t with
  | nil => simp [insert, find?, Ne.symm h]
  | cons p t ih =>
    obtain ⟨j, u⟩ := p
    simp only [insert]
    split
    · simp [find?, Ne.symm h]
    · split
      · next hk => subst hk; simp [find?, Ne.symm h]
      · simp [find?, ih]

@[simp] theorem get_insert_same (d : α) (t : Table α) (k : Nat) (v : α) : get d (insert t k v) k = v := by
  simp [get_eq_find?]

@[simp] theorem get_insert_other (d : α) (t : Table α) {i k : Nat} (v : α) (h : i ≠ k) :
    get d (insert t k v) i = get d t i := by
  simp [get_eq_find?, h]

theorem get_insert (d : α) (t : Table α) (i k : Nat) (v : α) :
    get d (insert t k v) i = if i = k then v else get d t i := by
  split
  · next h => subst h; simp
  · next h => simp [h]

section Form

/-- Every key of a table in canonical form lies above a bound. -/
def Above (n : Nat) (t : Table α) : Prop := ∀ p ∈ t, n < p.1

theorem wf_cons [DecidableEq α] {d : α} {j : Nat} {v : α} {t : Table α} :
    wf d ((j, v) :: t) = true ↔ v ≠ d ∧ Above j t ∧ wf d t = true := by
  simp [wf, Above, and_assoc]

theorem Above.mono {m n : Nat} {t : Table α} (h : Above n t) (hm : m ≤ n) : Above m t :=
  fun p hp => Nat.lt_of_le_of_lt hm (h p hp)

theorem insert_above {n k : Nat} {t : Table α} (v : α) (h : Above n t) (hk : n < k) : Above n (insert t k v) := by
  induction t with
  | nil => intro p hp; simp [insert] at hp; subst hp; exact hk
  | cons q t ih =>
    obtain ⟨j, u⟩ := q
    have hj : n < j := h (j, u) (by simp)
    have ht : Above n t := fun p hp => h p (by simp [hp])
    intro p hp
    simp only [insert] at hp
    split at hp
    · simp at hp; rcases hp with rfl | rfl | hp
      · exact hk
      · exact hj
      · exact ht p hp
    · split at hp
      · simp at hp; rcases hp with rfl | hp
        · exact hk
        · exact ht p hp
      · simp at hp; rcases hp with rfl | hp
        · exact hj
        · exact ih ht p hp

theorem erase_above {n k : Nat} {t : Table α} (h : Above n t) : Above n (erase t k) := by
  induction t with
  | nil => exact h
  | cons q t ih =>
    obtain ⟨j, u⟩ := q
    have ht : Above n t := fun p hp => h p (by simp [hp])
    intro p hp
    simp only [erase] at hp
    split at hp
    · exact ih ht p hp
    · simp at hp; rcases hp with rfl | hp
      · exact h (j, u) (by simp)
      · exact ih ht p hp

theorem wf_insert [DecidableEq α] {d : α} {t : Table α} {k : Nat} {v : α} (h : wf d t = true) (hv : v ≠ d) : wf d (insert t k v) = true := by
  induction t with
  | nil => simp [insert, wf, hv]
  | cons q t ih =>
    obtain ⟨j, u⟩ := q
    obtain ⟨hu, hj, ht⟩ := wf_cons.1 h
    simp only [insert]
    split
    · next hk =>
      refine wf_cons.2 ⟨hv, ?_, h⟩
      intro p hp; simp at hp; rcases hp with rfl | hp
      · exact hk
      · exact Nat.lt_trans hk (hj p hp)
    · split
      · next hk => subst hk; exact wf_cons.2 ⟨hv, hj, ht⟩
      · exact wf_cons.2 ⟨hu, insert_above v hj (by omega), ih ht⟩

theorem wf_erase [DecidableEq α] {d : α} {t : Table α} {k : Nat} (h : wf d t = true) : wf d (erase t k) = true := by
  induction t with
  | nil => rfl
  | cons q t ih =>
    obtain ⟨j, u⟩ := q
    obtain ⟨hu, hj, ht⟩ := wf_cons.1 h
    simp only [erase]
    split
    · exact ih ht
    · exact wf_cons.2 ⟨hu, erase_above hj, ih ht⟩

/-- A write keeps the canonical form. -/
theorem wf_set [DecidableEq α] {d : α} {t : Table α} {k : Nat} {v : α} (h : wf d t = true) : wf d (set d t k v) = true := by
  unfold set
  split
  · exact wf_erase h
  · next hv => exact wf_insert h hv

theorem wf_filter [DecidableEq α] {d : α} {t : Table α} (p : Nat × α → Bool) (h : wf d t = true) : wf d (t.filter p) = true := by
  induction t with
  | nil => rfl
  | cons q t ih =>
    obtain ⟨j, u⟩ := q
    obtain ⟨hu, hj, ht⟩ := wf_cons.1 h
    simp only [List.filter]
    split
    · exact wf_cons.2 ⟨hu, fun x hx => hj x (List.mem_of_mem_filter hx), ih ht⟩
    · exact ih ht

@[simp] theorem find?_erase_same (t : Table α) (k : Nat) : find? (erase t k) k = none := by
  induction t with
  | nil => rfl
  | cons q t ih =>
    obtain ⟨j, u⟩ := q
    simp only [erase]
    split
    · exact ih
    · next hk => simp [find?, hk, ih]

theorem find?_erase_other {t : Table α} {i k : Nat} (h : i ≠ k) : find? (erase t k) i = find? t i := by
  induction t with
  | nil => rfl
  | cons q t ih =>
    obtain ⟨j, u⟩ := q
    simp only [erase]
    split
    · next hk => subst hk; simp [find?, Ne.symm h, ih]
    · simp [find?, ih]

/-- Reading back what was written. -/
@[simp] theorem get_set_same [DecidableEq α] (d : α) (t : Table α) (k : Nat) (v : α) : get d (set d t k v) k = v := by
  unfold set
  split
  · next hv => subst hv; simp [get_eq_find?]
  · simp

/-- A write leaves every other key alone. -/
@[simp] theorem get_set_other [DecidableEq α] (d : α) (t : Table α) {i k : Nat} (v : α) (h : i ≠ k) : get d (set d t k v) i = get d t i := by
  unfold set
  split
  · simp [get_eq_find?, find?_erase_other h]
  · simp [h]

end Form

theorem find?_map (t : Table α) (f : Nat → α → β) (k : Nat) :
    find? (t.map (fun p => (p.1, f p.1 p.2))) k = (find? t k).map (f k) := by
  induction t with
  | nil => rfl
  | cons q t ih =>
    obtain ⟨j, u⟩ := q
    simp only [List.map, find?]
    split
    · next h => subst h; rfl
    · exact ih

end Sys2Proof.Table
end

