-- ==== Sys2Proof/Laws/State.lean ====
section
/-! SUPPORT. What each update of the state leaves of each field and of each view of it: one small lemma per field per update. -/

namespace Sys2Proof.Machine

/-! ### setCore -/

@[simp] theorem State.setCore_cur (s k c) : (State.setCore s k c).cur = s.cur := rfl
@[simp] theorem State.setCore_agenda (s k c) : (State.setCore s k c).agenda = s.agenda := rfl
@[simp] theorem State.setCore_free (s k c) : (State.setCore s k c).free = s.free := rfl
@[simp] theorem State.setCore_mem (s k c) : (State.setCore s k c).mem = s.mem := rfl
@[simp] theorem State.setCore_tags (s k c) : (State.setCore s k c).tags = s.tags := rfl
@[simp] theorem State.setCore_hist (s k c) : (State.setCore s k c).hist = s.hist := rfl
@[simp] theorem State.setCore_stamp (s k c) : (State.setCore s k c).stamp = s.stamp := rfl
@[simp] theorem State.setCore_clusters (s k c) : (State.setCore s k c).clusters = s.clusters := rfl
@[simp] theorem State.setCore_engines (s k c) : (State.setCore s k c).engines = s.engines := rfl
@[simp] theorem State.setCore_ctxs (s k c) : (State.setCore s k c).ctxs = s.ctxs := rfl
@[simp] theorem State.setCore_queues (s k c) : (State.setCore s k c).queues = s.queues := rfl
@[simp] theorem State.setCore_launches (s k c) : (State.setCore s k c).launches = s.launches := rfl
@[simp] theorem State.setCore_dies (s k c) : (State.setCore s k c).dies = s.dies := rfl
@[simp] theorem State.setCore_links (s k c) : (State.setCore s k c).links = s.links := rfl
@[simp] theorem State.setCore_flights (s k c) : (State.setCore s k c).flights = s.flights := rfl
@[simp] theorem State.setCore_evops (s k c) : (State.setCore s k c).evops = s.evops := rfl
@[simp] theorem State.setCore_frames (s k c) : (State.setCore s k c).frames = s.frames := rfl
@[simp] theorem State.setCore_far (s k c) : (State.setCore s k c).far = s.far := rfl
@[simp] theorem State.setCore_rerouting (s k c) : (State.setCore s k c).rerouting = s.rerouting := rfl
@[simp] theorem State.setCore_moving (s k c) : (State.setCore s k c).moving = s.moving := rfl
@[simp] theorem State.setCore_copied (s k c) : (State.setCore s k c).copied = s.copied := rfl
@[simp] theorem State.setCore_lostPkgs (s k c) : (State.setCore s k c).lostPkgs = s.lostPkgs := rfl
@[simp] theorem State.setCore_nextLaunch (s k c) : (State.setCore s k c).nextLaunch = s.nextLaunch := rfl
@[simp] theorem State.setCore_time (s k c) : (State.setCore s k c).time = s.time := rfl
@[simp] theorem State.setCore_cycle (s k c) : (State.setCore s k c).cycle = s.cycle := rfl
@[simp] theorem State.setCore_ccmd (s k c) : (State.setCore s k c).ccmd = s.ccmd := rfl
@[simp] theorem State.setCore_carg (s k c) : (State.setCore s k c).carg = s.carg := rfl
@[simp] theorem State.setCore_featoff (s k c) : (State.setCore s k c).featoff = s.featoff := rfl
@[simp] theorem State.setCore_tbSync (s k c) : (State.setCore s k c).tbSync = s.tbSync := rfl
@[simp] theorem State.setCore_tbRoot (s k c) : (State.setCore s k c).tbRoot = s.tbRoot := rfl
@[simp] theorem State.setCore_tbRootOf (s k c) : (State.setCore s k c).tbRootOf = s.tbRootOf := rfl
@[simp] theorem State.setCore_tbSrc (s k c) : (State.setCore s k c).tbSrc = s.tbSrc := rfl
@[simp] theorem State.setCore_tbHops (s k c) : (State.setCore s k c).tbHops = s.tbHops := rfl
@[simp] theorem State.setCore_tbOffs (s k c) : (State.setCore s k c).tbOffs = s.tbOffs := rfl
@[simp] theorem State.setCore_tbLeft (s k c) : (State.setCore s k c).tbLeft = s.tbLeft := rfl
@[simp] theorem State.setCore_rootsel (s k c) : (State.setCore s k c).rootsel = s.rootsel := rfl
@[simp] theorem State.setCore_pkg (s k c) : (State.setCore s k c).pkg = s.pkg := rfl
@[simp] theorem State.setCore_mgmt (s k c) : (State.setCore s k c).mgmt = s.mgmt := rfl
@[simp] theorem State.setCore_notices (s k c) : (State.setCore s k c).notices = s.notices := rfl
@[simp] theorem State.setCore_core_same (s k c) : (State.setCore s k c).core k = c := by simp [State.setCore, State.core]
@[simp] theorem State.setCore_core_other (s) {i k : Nat} (c) (h : i ≠ k) : (State.setCore s k c).core i = s.core i := by
  simp [State.setCore, State.core, h]
@[simp] theorem State.setCore_cluster (s k c i) : (State.setCore s k c).cluster i = s.cluster i := rfl
@[simp] theorem State.setCore_engine (s k c i) : (State.setCore s k c).engine i = s.engine i := rfl
@[simp] theorem State.setCore_ctx (s k c i) : (State.setCore s k c).ctx i = s.ctx i := rfl
@[simp] theorem State.setCore_queue (s k c i) : (State.setCore s k c).queue i = s.queue i := rfl
@[simp] theorem State.setCore_die (s k c i) : (State.setCore s k c).die i = s.die i := rfl
@[simp] theorem State.setCore_link (s k c i) : (State.setCore s k c).link i = s.link i := rfl
@[simp] theorem State.setCore_byte (s k c i) : (State.setCore s k c).byte i = s.byte i := rfl
@[simp] theorem State.setCore_word (s k c i) : (State.setCore s k c).word i = s.word i := rfl
@[simp] theorem State.setCore_tagAt (s k c i) : (State.setCore s k c).tagAt i = s.tagAt i := rfl
@[simp] theorem State.setCore_granule (s k c i) : (State.setCore s k c).granule i = s.granule i := rfl
@[simp] theorem State.setCore_bytes (s k c a n) : (State.setCore s k c).bytes a n = s.bytes a n := rfl

/-! ### setCluster -/

@[simp] theorem State.setCluster_cur (s k c) : (State.setCluster s k c).cur = s.cur := rfl
@[simp] theorem State.setCluster_agenda (s k c) : (State.setCluster s k c).agenda = s.agenda := rfl
@[simp] theorem State.setCluster_free (s k c) : (State.setCluster s k c).free = s.free := rfl
@[simp] theorem State.setCluster_mem (s k c) : (State.setCluster s k c).mem = s.mem := rfl
@[simp] theorem State.setCluster_tags (s k c) : (State.setCluster s k c).tags = s.tags := rfl
@[simp] theorem State.setCluster_hist (s k c) : (State.setCluster s k c).hist = s.hist := rfl
@[simp] theorem State.setCluster_stamp (s k c) : (State.setCluster s k c).stamp = s.stamp := rfl
@[simp] theorem State.setCluster_cores (s k c) : (State.setCluster s k c).cores = s.cores := rfl
@[simp] theorem State.setCluster_engines (s k c) : (State.setCluster s k c).engines = s.engines := rfl
@[simp] theorem State.setCluster_ctxs (s k c) : (State.setCluster s k c).ctxs = s.ctxs := rfl
@[simp] theorem State.setCluster_queues (s k c) : (State.setCluster s k c).queues = s.queues := rfl
@[simp] theorem State.setCluster_launches (s k c) : (State.setCluster s k c).launches = s.launches := rfl
@[simp] theorem State.setCluster_dies (s k c) : (State.setCluster s k c).dies = s.dies := rfl
@[simp] theorem State.setCluster_links (s k c) : (State.setCluster s k c).links = s.links := rfl
@[simp] theorem State.setCluster_flights (s k c) : (State.setCluster s k c).flights = s.flights := rfl
@[simp] theorem State.setCluster_evops (s k c) : (State.setCluster s k c).evops = s.evops := rfl
@[simp] theorem State.setCluster_frames (s k c) : (State.setCluster s k c).frames = s.frames := rfl
@[simp] theorem State.setCluster_far (s k c) : (State.setCluster s k c).far = s.far := rfl
@[simp] theorem State.setCluster_rerouting (s k c) : (State.setCluster s k c).rerouting = s.rerouting := rfl
@[simp] theorem State.setCluster_moving (s k c) : (State.setCluster s k c).moving = s.moving := rfl
@[simp] theorem State.setCluster_copied (s k c) : (State.setCluster s k c).copied = s.copied := rfl
@[simp] theorem State.setCluster_lostPkgs (s k c) : (State.setCluster s k c).lostPkgs = s.lostPkgs := rfl
@[simp] theorem State.setCluster_nextLaunch (s k c) : (State.setCluster s k c).nextLaunch = s.nextLaunch := rfl
@[simp] theorem State.setCluster_time (s k c) : (State.setCluster s k c).time = s.time := rfl
@[simp] theorem State.setCluster_cycle (s k c) : (State.setCluster s k c).cycle = s.cycle := rfl
@[simp] theorem State.setCluster_ccmd (s k c) : (State.setCluster s k c).ccmd = s.ccmd := rfl
@[simp] theorem State.setCluster_carg (s k c) : (State.setCluster s k c).carg = s.carg := rfl
@[simp] theorem State.setCluster_featoff (s k c) : (State.setCluster s k c).featoff = s.featoff := rfl
@[simp] theorem State.setCluster_tbSync (s k c) : (State.setCluster s k c).tbSync = s.tbSync := rfl
@[simp] theorem State.setCluster_tbRoot (s k c) : (State.setCluster s k c).tbRoot = s.tbRoot := rfl
@[simp] theorem State.setCluster_tbRootOf (s k c) : (State.setCluster s k c).tbRootOf = s.tbRootOf := rfl
@[simp] theorem State.setCluster_tbSrc (s k c) : (State.setCluster s k c).tbSrc = s.tbSrc := rfl
@[simp] theorem State.setCluster_tbHops (s k c) : (State.setCluster s k c).tbHops = s.tbHops := rfl
@[simp] theorem State.setCluster_tbOffs (s k c) : (State.setCluster s k c).tbOffs = s.tbOffs := rfl
@[simp] theorem State.setCluster_tbLeft (s k c) : (State.setCluster s k c).tbLeft = s.tbLeft := rfl
@[simp] theorem State.setCluster_rootsel (s k c) : (State.setCluster s k c).rootsel = s.rootsel := rfl
@[simp] theorem State.setCluster_pkg (s k c) : (State.setCluster s k c).pkg = s.pkg := rfl
@[simp] theorem State.setCluster_mgmt (s k c) : (State.setCluster s k c).mgmt = s.mgmt := rfl
@[simp] theorem State.setCluster_notices (s k c) : (State.setCluster s k c).notices = s.notices := rfl
@[simp] theorem State.setCluster_cluster_same (s k c) : (State.setCluster s k c).cluster k = c := by simp [State.setCluster, State.cluster]
@[simp] theorem State.setCluster_cluster_other (s) {i k : Nat} (c) (h : i ≠ k) : (State.setCluster s k c).cluster i = s.cluster i := by
  simp [State.setCluster, State.cluster, h]
@[simp] theorem State.setCluster_core (s k c i) : (State.setCluster s k c).core i = s.core i := rfl
@[simp] theorem State.setCluster_engine (s k c i) : (State.setCluster s k c).engine i = s.engine i := rfl
@[simp] theorem State.setCluster_ctx (s k c i) : (State.setCluster s k c).ctx i = s.ctx i := rfl
@[simp] theorem State.setCluster_queue (s k c i) : (State.setCluster s k c).queue i = s.queue i := rfl
@[simp] theorem State.setCluster_die (s k c i) : (State.setCluster s k c).die i = s.die i := rfl
@[simp] theorem State.setCluster_link (s k c i) : (State.setCluster s k c).link i = s.link i := rfl
@[simp] theorem State.setCluster_byte (s k c i) : (State.setCluster s k c).byte i = s.byte i := rfl
@[simp] theorem State.setCluster_word (s k c i) : (State.setCluster s k c).word i = s.word i := rfl
@[simp] theorem State.setCluster_tagAt (s k c i) : (State.setCluster s k c).tagAt i = s.tagAt i := rfl
@[simp] theorem State.setCluster_granule (s k c i) : (State.setCluster s k c).granule i = s.granule i := rfl
@[simp] theorem State.setCluster_bytes (s k c a n) : (State.setCluster s k c).bytes a n = s.bytes a n := rfl

/-! ### setEngine -/

@[simp] theorem State.setEngine_cur (s k c) : (State.setEngine s k c).cur = s.cur := rfl
@[simp] theorem State.setEngine_agenda (s k c) : (State.setEngine s k c).agenda = s.agenda := rfl
@[simp] theorem State.setEngine_free (s k c) : (State.setEngine s k c).free = s.free := rfl
@[simp] theorem State.setEngine_mem (s k c) : (State.setEngine s k c).mem = s.mem := rfl
@[simp] theorem State.setEngine_tags (s k c) : (State.setEngine s k c).tags = s.tags := rfl
@[simp] theorem State.setEngine_hist (s k c) : (State.setEngine s k c).hist = s.hist := rfl
@[simp] theorem State.setEngine_stamp (s k c) : (State.setEngine s k c).stamp = s.stamp := rfl
@[simp] theorem State.setEngine_cores (s k c) : (State.setEngine s k c).cores = s.cores := rfl
@[simp] theorem State.setEngine_clusters (s k c) : (State.setEngine s k c).clusters = s.clusters := rfl
@[simp] theorem State.setEngine_ctxs (s k c) : (State.setEngine s k c).ctxs = s.ctxs := rfl
@[simp] theorem State.setEngine_queues (s k c) : (State.setEngine s k c).queues = s.queues := rfl
@[simp] theorem State.setEngine_launches (s k c) : (State.setEngine s k c).launches = s.launches := rfl
@[simp] theorem State.setEngine_dies (s k c) : (State.setEngine s k c).dies = s.dies := rfl
@[simp] theorem State.setEngine_links (s k c) : (State.setEngine s k c).links = s.links := rfl
@[simp] theorem State.setEngine_flights (s k c) : (State.setEngine s k c).flights = s.flights := rfl
@[simp] theorem State.setEngine_evops (s k c) : (State.setEngine s k c).evops = s.evops := rfl
@[simp] theorem State.setEngine_frames (s k c) : (State.setEngine s k c).frames = s.frames := rfl
@[simp] theorem State.setEngine_far (s k c) : (State.setEngine s k c).far = s.far := rfl
@[simp] theorem State.setEngine_rerouting (s k c) : (State.setEngine s k c).rerouting = s.rerouting := rfl
@[simp] theorem State.setEngine_moving (s k c) : (State.setEngine s k c).moving = s.moving := rfl
@[simp] theorem State.setEngine_copied (s k c) : (State.setEngine s k c).copied = s.copied := rfl
@[simp] theorem State.setEngine_lostPkgs (s k c) : (State.setEngine s k c).lostPkgs = s.lostPkgs := rfl
@[simp] theorem State.setEngine_nextLaunch (s k c) : (State.setEngine s k c).nextLaunch = s.nextLaunch := rfl
@[simp] theorem State.setEngine_time (s k c) : (State.setEngine s k c).time = s.time := rfl
@[simp] theorem State.setEngine_cycle (s k c) : (State.setEngine s k c).cycle = s.cycle := rfl
@[simp] theorem State.setEngine_ccmd (s k c) : (State.setEngine s k c).ccmd = s.ccmd := rfl
@[simp] theorem State.setEngine_carg (s k c) : (State.setEngine s k c).carg = s.carg := rfl
@[simp] theorem State.setEngine_featoff (s k c) : (State.setEngine s k c).featoff = s.featoff := rfl
@[simp] theorem State.setEngine_tbSync (s k c) : (State.setEngine s k c).tbSync = s.tbSync := rfl
@[simp] theorem State.setEngine_tbRoot (s k c) : (State.setEngine s k c).tbRoot = s.tbRoot := rfl
@[simp] theorem State.setEngine_tbRootOf (s k c) : (State.setEngine s k c).tbRootOf = s.tbRootOf := rfl
@[simp] theorem State.setEngine_tbSrc (s k c) : (State.setEngine s k c).tbSrc = s.tbSrc := rfl
@[simp] theorem State.setEngine_tbHops (s k c) : (State.setEngine s k c).tbHops = s.tbHops := rfl
@[simp] theorem State.setEngine_tbOffs (s k c) : (State.setEngine s k c).tbOffs = s.tbOffs := rfl
@[simp] theorem State.setEngine_tbLeft (s k c) : (State.setEngine s k c).tbLeft = s.tbLeft := rfl
@[simp] theorem State.setEngine_rootsel (s k c) : (State.setEngine s k c).rootsel = s.rootsel := rfl
@[simp] theorem State.setEngine_pkg (s k c) : (State.setEngine s k c).pkg = s.pkg := rfl
@[simp] theorem State.setEngine_mgmt (s k c) : (State.setEngine s k c).mgmt = s.mgmt := rfl
@[simp] theorem State.setEngine_notices (s k c) : (State.setEngine s k c).notices = s.notices := rfl
@[simp] theorem State.setEngine_engine_same (s k c) : (State.setEngine s k c).engine k = c := by simp [State.setEngine, State.engine]
@[simp] theorem State.setEngine_engine_other (s) {i k : Nat} (c) (h : i ≠ k) : (State.setEngine s k c).engine i = s.engine i := by
  simp [State.setEngine, State.engine, h]
@[simp] theorem State.setEngine_core (s k c i) : (State.setEngine s k c).core i = s.core i := rfl
@[simp] theorem State.setEngine_cluster (s k c i) : (State.setEngine s k c).cluster i = s.cluster i := rfl
@[simp] theorem State.setEngine_ctx (s k c i) : (State.setEngine s k c).ctx i = s.ctx i := rfl
@[simp] theorem State.setEngine_queue (s k c i) : (State.setEngine s k c).queue i = s.queue i := rfl
@[simp] theorem State.setEngine_die (s k c i) : (State.setEngine s k c).die i = s.die i := rfl
@[simp] theorem State.setEngine_link (s k c i) : (State.setEngine s k c).link i = s.link i := rfl
@[simp] theorem State.setEngine_byte (s k c i) : (State.setEngine s k c).byte i = s.byte i := rfl
@[simp] theorem State.setEngine_word (s k c i) : (State.setEngine s k c).word i = s.word i := rfl
@[simp] theorem State.setEngine_tagAt (s k c i) : (State.setEngine s k c).tagAt i = s.tagAt i := rfl
@[simp] theorem State.setEngine_granule (s k c i) : (State.setEngine s k c).granule i = s.granule i := rfl
@[simp] theorem State.setEngine_bytes (s k c a n) : (State.setEngine s k c).bytes a n = s.bytes a n := rfl

/-! ### setCtx -/

@[simp] theorem State.setCtx_cur (s k c) : (State.setCtx s k c).cur = s.cur := rfl
@[simp] theorem State.setCtx_agenda (s k c) : (State.setCtx s k c).agenda = s.agenda := rfl
@[simp] theorem State.setCtx_free (s k c) : (State.setCtx s k c).free = s.free := rfl
@[simp] theorem State.setCtx_mem (s k c) : (State.setCtx s k c).mem = s.mem := rfl
@[simp] theorem State.setCtx_tags (s k c) : (State.setCtx s k c).tags = s.tags := rfl
@[simp] theorem State.setCtx_hist (s k c) : (State.setCtx s k c).hist = s.hist := rfl
@[simp] theorem State.setCtx_stamp (s k c) : (State.setCtx s k c).stamp = s.stamp := rfl
@[simp] theorem State.setCtx_cores (s k c) : (State.setCtx s k c).cores = s.cores := rfl
@[simp] theorem State.setCtx_clusters (s k c) : (State.setCtx s k c).clusters = s.clusters := rfl
@[simp] theorem State.setCtx_engines (s k c) : (State.setCtx s k c).engines = s.engines := rfl
@[simp] theorem State.setCtx_queues (s k c) : (State.setCtx s k c).queues = s.queues := rfl
@[simp] theorem State.setCtx_launches (s k c) : (State.setCtx s k c).launches = s.launches := rfl
@[simp] theorem State.setCtx_dies (s k c) : (State.setCtx s k c).dies = s.dies := rfl
@[simp] theorem State.setCtx_links (s k c) : (State.setCtx s k c).links = s.links := rfl
@[simp] theorem State.setCtx_flights (s k c) : (State.setCtx s k c).flights = s.flights := rfl
@[simp] theorem State.setCtx_evops (s k c) : (State.setCtx s k c).evops = s.evops := rfl
@[simp] theorem State.setCtx_frames (s k c) : (State.setCtx s k c).frames = s.frames := rfl
@[simp] theorem State.setCtx_far (s k c) : (State.setCtx s k c).far = s.far := rfl
@[simp] theorem State.setCtx_rerouting (s k c) : (State.setCtx s k c).rerouting = s.rerouting := rfl
@[simp] theorem State.setCtx_moving (s k c) : (State.setCtx s k c).moving = s.moving := rfl
@[simp] theorem State.setCtx_copied (s k c) : (State.setCtx s k c).copied = s.copied := rfl
@[simp] theorem State.setCtx_lostPkgs (s k c) : (State.setCtx s k c).lostPkgs = s.lostPkgs := rfl
@[simp] theorem State.setCtx_nextLaunch (s k c) : (State.setCtx s k c).nextLaunch = s.nextLaunch := rfl
@[simp] theorem State.setCtx_time (s k c) : (State.setCtx s k c).time = s.time := rfl
@[simp] theorem State.setCtx_cycle (s k c) : (State.setCtx s k c).cycle = s.cycle := rfl
@[simp] theorem State.setCtx_ccmd (s k c) : (State.setCtx s k c).ccmd = s.ccmd := rfl
@[simp] theorem State.setCtx_carg (s k c) : (State.setCtx s k c).carg = s.carg := rfl
@[simp] theorem State.setCtx_featoff (s k c) : (State.setCtx s k c).featoff = s.featoff := rfl
@[simp] theorem State.setCtx_tbSync (s k c) : (State.setCtx s k c).tbSync = s.tbSync := rfl
@[simp] theorem State.setCtx_tbRoot (s k c) : (State.setCtx s k c).tbRoot = s.tbRoot := rfl
@[simp] theorem State.setCtx_tbRootOf (s k c) : (State.setCtx s k c).tbRootOf = s.tbRootOf := rfl
@[simp] theorem State.setCtx_tbSrc (s k c) : (State.setCtx s k c).tbSrc = s.tbSrc := rfl
@[simp] theorem State.setCtx_tbHops (s k c) : (State.setCtx s k c).tbHops = s.tbHops := rfl
@[simp] theorem State.setCtx_tbOffs (s k c) : (State.setCtx s k c).tbOffs = s.tbOffs := rfl
@[simp] theorem State.setCtx_tbLeft (s k c) : (State.setCtx s k c).tbLeft = s.tbLeft := rfl
@[simp] theorem State.setCtx_rootsel (s k c) : (State.setCtx s k c).rootsel = s.rootsel := rfl
@[simp] theorem State.setCtx_pkg (s k c) : (State.setCtx s k c).pkg = s.pkg := rfl
@[simp] theorem State.setCtx_mgmt (s k c) : (State.setCtx s k c).mgmt = s.mgmt := rfl
@[simp] theorem State.setCtx_notices (s k c) : (State.setCtx s k c).notices = s.notices := rfl
@[simp] theorem State.setCtx_ctx_same (s k c) : (State.setCtx s k c).ctx k = c := by simp [State.setCtx, State.ctx]
@[simp] theorem State.setCtx_ctx_other (s) {i k : Nat} (c) (h : i ≠ k) : (State.setCtx s k c).ctx i = s.ctx i := by
  simp [State.setCtx, State.ctx, h]
@[simp] theorem State.setCtx_core (s k c i) : (State.setCtx s k c).core i = s.core i := rfl
@[simp] theorem State.setCtx_cluster (s k c i) : (State.setCtx s k c).cluster i = s.cluster i := rfl
@[simp] theorem State.setCtx_engine (s k c i) : (State.setCtx s k c).engine i = s.engine i := rfl
@[simp] theorem State.setCtx_queue (s k c i) : (State.setCtx s k c).queue i = s.queue i := rfl
@[simp] theorem State.setCtx_die (s k c i) : (State.setCtx s k c).die i = s.die i := rfl
@[simp] theorem State.setCtx_link (s k c i) : (State.setCtx s k c).link i = s.link i := rfl
@[simp] theorem State.setCtx_byte (s k c i) : (State.setCtx s k c).byte i = s.byte i := rfl
@[simp] theorem State.setCtx_word (s k c i) : (State.setCtx s k c).word i = s.word i := rfl
@[simp] theorem State.setCtx_tagAt (s k c i) : (State.setCtx s k c).tagAt i = s.tagAt i := rfl
@[simp] theorem State.setCtx_granule (s k c i) : (State.setCtx s k c).granule i = s.granule i := rfl
@[simp] theorem State.setCtx_bytes (s k c a n) : (State.setCtx s k c).bytes a n = s.bytes a n := rfl

/-! ### setQueue -/

@[simp] theorem State.setQueue_cur (s k c) : (State.setQueue s k c).cur = s.cur := rfl
@[simp] theorem State.setQueue_agenda (s k c) : (State.setQueue s k c).agenda = s.agenda := rfl
@[simp] theorem State.setQueue_free (s k c) : (State.setQueue s k c).free = s.free := rfl
@[simp] theorem State.setQueue_mem (s k c) : (State.setQueue s k c).mem = s.mem := rfl
@[simp] theorem State.setQueue_tags (s k c) : (State.setQueue s k c).tags = s.tags := rfl
@[simp] theorem State.setQueue_hist (s k c) : (State.setQueue s k c).hist = s.hist := rfl
@[simp] theorem State.setQueue_stamp (s k c) : (State.setQueue s k c).stamp = s.stamp := rfl
@[simp] theorem State.setQueue_cores (s k c) : (State.setQueue s k c).cores = s.cores := rfl
@[simp] theorem State.setQueue_clusters (s k c) : (State.setQueue s k c).clusters = s.clusters := rfl
@[simp] theorem State.setQueue_engines (s k c) : (State.setQueue s k c).engines = s.engines := rfl
@[simp] theorem State.setQueue_ctxs (s k c) : (State.setQueue s k c).ctxs = s.ctxs := rfl
@[simp] theorem State.setQueue_launches (s k c) : (State.setQueue s k c).launches = s.launches := rfl
@[simp] theorem State.setQueue_dies (s k c) : (State.setQueue s k c).dies = s.dies := rfl
@[simp] theorem State.setQueue_links (s k c) : (State.setQueue s k c).links = s.links := rfl
@[simp] theorem State.setQueue_flights (s k c) : (State.setQueue s k c).flights = s.flights := rfl
@[simp] theorem State.setQueue_evops (s k c) : (State.setQueue s k c).evops = s.evops := rfl
@[simp] theorem State.setQueue_frames (s k c) : (State.setQueue s k c).frames = s.frames := rfl
@[simp] theorem State.setQueue_far (s k c) : (State.setQueue s k c).far = s.far := rfl
@[simp] theorem State.setQueue_rerouting (s k c) : (State.setQueue s k c).rerouting = s.rerouting := rfl
@[simp] theorem State.setQueue_moving (s k c) : (State.setQueue s k c).moving = s.moving := rfl
@[simp] theorem State.setQueue_copied (s k c) : (State.setQueue s k c).copied = s.copied := rfl
@[simp] theorem State.setQueue_lostPkgs (s k c) : (State.setQueue s k c).lostPkgs = s.lostPkgs := rfl
@[simp] theorem State.setQueue_nextLaunch (s k c) : (State.setQueue s k c).nextLaunch = s.nextLaunch := rfl
@[simp] theorem State.setQueue_time (s k c) : (State.setQueue s k c).time = s.time := rfl
@[simp] theorem State.setQueue_cycle (s k c) : (State.setQueue s k c).cycle = s.cycle := rfl
@[simp] theorem State.setQueue_ccmd (s k c) : (State.setQueue s k c).ccmd = s.ccmd := rfl
@[simp] theorem State.setQueue_carg (s k c) : (State.setQueue s k c).carg = s.carg := rfl
@[simp] theorem State.setQueue_featoff (s k c) : (State.setQueue s k c).featoff = s.featoff := rfl
@[simp] theorem State.setQueue_tbSync (s k c) : (State.setQueue s k c).tbSync = s.tbSync := rfl
@[simp] theorem State.setQueue_tbRoot (s k c) : (State.setQueue s k c).tbRoot = s.tbRoot := rfl
@[simp] theorem State.setQueue_tbRootOf (s k c) : (State.setQueue s k c).tbRootOf = s.tbRootOf := rfl
@[simp] theorem State.setQueue_tbSrc (s k c) : (State.setQueue s k c).tbSrc = s.tbSrc := rfl
@[simp] theorem State.setQueue_tbHops (s k c) : (State.setQueue s k c).tbHops = s.tbHops := rfl
@[simp] theorem State.setQueue_tbOffs (s k c) : (State.setQueue s k c).tbOffs = s.tbOffs := rfl
@[simp] theorem State.setQueue_tbLeft (s k c) : (State.setQueue s k c).tbLeft = s.tbLeft := rfl
@[simp] theorem State.setQueue_rootsel (s k c) : (State.setQueue s k c).rootsel = s.rootsel := rfl
@[simp] theorem State.setQueue_pkg (s k c) : (State.setQueue s k c).pkg = s.pkg := rfl
@[simp] theorem State.setQueue_mgmt (s k c) : (State.setQueue s k c).mgmt = s.mgmt := rfl
@[simp] theorem State.setQueue_notices (s k c) : (State.setQueue s k c).notices = s.notices := rfl
@[simp] theorem State.setQueue_queue_same (s k c) : (State.setQueue s k c).queue k = c := by simp [State.setQueue, State.queue]
@[simp] theorem State.setQueue_queue_other (s) {i k : Nat} (c) (h : i ≠ k) : (State.setQueue s k c).queue i = s.queue i := by
  simp [State.setQueue, State.queue, h]
@[simp] theorem State.setQueue_core (s k c i) : (State.setQueue s k c).core i = s.core i := rfl
@[simp] theorem State.setQueue_cluster (s k c i) : (State.setQueue s k c).cluster i = s.cluster i := rfl
@[simp] theorem State.setQueue_engine (s k c i) : (State.setQueue s k c).engine i = s.engine i := rfl
@[simp] theorem State.setQueue_ctx (s k c i) : (State.setQueue s k c).ctx i = s.ctx i := rfl
@[simp] theorem State.setQueue_die (s k c i) : (State.setQueue s k c).die i = s.die i := rfl
@[simp] theorem State.setQueue_link (s k c i) : (State.setQueue s k c).link i = s.link i := rfl
@[simp] theorem State.setQueue_byte (s k c i) : (State.setQueue s k c).byte i = s.byte i := rfl
@[simp] theorem State.setQueue_word (s k c i) : (State.setQueue s k c).word i = s.word i := rfl
@[simp] theorem State.setQueue_tagAt (s k c i) : (State.setQueue s k c).tagAt i = s.tagAt i := rfl
@[simp] theorem State.setQueue_granule (s k c i) : (State.setQueue s k c).granule i = s.granule i := rfl
@[simp] theorem State.setQueue_bytes (s k c a n) : (State.setQueue s k c).bytes a n = s.bytes a n := rfl

/-! ### setDie -/

@[simp] theorem State.setDie_cur (s k c) : (State.setDie s k c).cur = s.cur := rfl
@[simp] theorem State.setDie_agenda (s k c) : (State.setDie s k c).agenda = s.agenda := rfl
@[simp] theorem State.setDie_free (s k c) : (State.setDie s k c).free = s.free := rfl
@[simp] theorem State.setDie_mem (s k c) : (State.setDie s k c).mem = s.mem := rfl
@[simp] theorem State.setDie_tags (s k c) : (State.setDie s k c).tags = s.tags := rfl
@[simp] theorem State.setDie_hist (s k c) : (State.setDie s k c).hist = s.hist := rfl
@[simp] theorem State.setDie_stamp (s k c) : (State.setDie s k c).stamp = s.stamp := rfl
@[simp] theorem State.setDie_cores (s k c) : (State.setDie s k c).cores = s.cores := rfl
@[simp] theorem State.setDie_clusters (s k c) : (State.setDie s k c).clusters = s.clusters := rfl
@[simp] theorem State.setDie_engines (s k c) : (State.setDie s k c).engines = s.engines := rfl
@[simp] theorem State.setDie_ctxs (s k c) : (State.setDie s k c).ctxs = s.ctxs := rfl
@[simp] theorem State.setDie_queues (s k c) : (State.setDie s k c).queues = s.queues := rfl
@[simp] theorem State.setDie_launches (s k c) : (State.setDie s k c).launches = s.launches := rfl
@[simp] theorem State.setDie_links (s k c) : (State.setDie s k c).links = s.links := rfl
@[simp] theorem State.setDie_flights (s k c) : (State.setDie s k c).flights = s.flights := rfl
@[simp] theorem State.setDie_evops (s k c) : (State.setDie s k c).evops = s.evops := rfl
@[simp] theorem State.setDie_frames (s k c) : (State.setDie s k c).frames = s.frames := rfl
@[simp] theorem State.setDie_far (s k c) : (State.setDie s k c).far = s.far := rfl
@[simp] theorem State.setDie_rerouting (s k c) : (State.setDie s k c).rerouting = s.rerouting := rfl
@[simp] theorem State.setDie_moving (s k c) : (State.setDie s k c).moving = s.moving := rfl
@[simp] theorem State.setDie_copied (s k c) : (State.setDie s k c).copied = s.copied := rfl
@[simp] theorem State.setDie_lostPkgs (s k c) : (State.setDie s k c).lostPkgs = s.lostPkgs := rfl
@[simp] theorem State.setDie_nextLaunch (s k c) : (State.setDie s k c).nextLaunch = s.nextLaunch := rfl
@[simp] theorem State.setDie_time (s k c) : (State.setDie s k c).time = s.time := rfl
@[simp] theorem State.setDie_cycle (s k c) : (State.setDie s k c).cycle = s.cycle := rfl
@[simp] theorem State.setDie_ccmd (s k c) : (State.setDie s k c).ccmd = s.ccmd := rfl
@[simp] theorem State.setDie_carg (s k c) : (State.setDie s k c).carg = s.carg := rfl
@[simp] theorem State.setDie_featoff (s k c) : (State.setDie s k c).featoff = s.featoff := rfl
@[simp] theorem State.setDie_tbSync (s k c) : (State.setDie s k c).tbSync = s.tbSync := rfl
@[simp] theorem State.setDie_tbRoot (s k c) : (State.setDie s k c).tbRoot = s.tbRoot := rfl
@[simp] theorem State.setDie_tbRootOf (s k c) : (State.setDie s k c).tbRootOf = s.tbRootOf := rfl
@[simp] theorem State.setDie_tbSrc (s k c) : (State.setDie s k c).tbSrc = s.tbSrc := rfl
@[simp] theorem State.setDie_tbHops (s k c) : (State.setDie s k c).tbHops = s.tbHops := rfl
@[simp] theorem State.setDie_tbOffs (s k c) : (State.setDie s k c).tbOffs = s.tbOffs := rfl
@[simp] theorem State.setDie_tbLeft (s k c) : (State.setDie s k c).tbLeft = s.tbLeft := rfl
@[simp] theorem State.setDie_rootsel (s k c) : (State.setDie s k c).rootsel = s.rootsel := rfl
@[simp] theorem State.setDie_pkg (s k c) : (State.setDie s k c).pkg = s.pkg := rfl
@[simp] theorem State.setDie_mgmt (s k c) : (State.setDie s k c).mgmt = s.mgmt := rfl
@[simp] theorem State.setDie_notices (s k c) : (State.setDie s k c).notices = s.notices := rfl
@[simp] theorem State.setDie_die_same (s k c) : (State.setDie s k c).die k = c := by simp [State.setDie, State.die]
@[simp] theorem State.setDie_die_other (s) {i k : Nat} (c) (h : i ≠ k) : (State.setDie s k c).die i = s.die i := by
  simp [State.setDie, State.die, h]
@[simp] theorem State.setDie_core (s k c i) : (State.setDie s k c).core i = s.core i := rfl
@[simp] theorem State.setDie_cluster (s k c i) : (State.setDie s k c).cluster i = s.cluster i := rfl
@[simp] theorem State.setDie_engine (s k c i) : (State.setDie s k c).engine i = s.engine i := rfl
@[simp] theorem State.setDie_ctx (s k c i) : (State.setDie s k c).ctx i = s.ctx i := rfl
@[simp] theorem State.setDie_queue (s k c i) : (State.setDie s k c).queue i = s.queue i := rfl
@[simp] theorem State.setDie_link (s k c i) : (State.setDie s k c).link i = s.link i := rfl
@[simp] theorem State.setDie_byte (s k c i) : (State.setDie s k c).byte i = s.byte i := rfl
@[simp] theorem State.setDie_word (s k c i) : (State.setDie s k c).word i = s.word i := rfl
@[simp] theorem State.setDie_tagAt (s k c i) : (State.setDie s k c).tagAt i = s.tagAt i := rfl
@[simp] theorem State.setDie_granule (s k c i) : (State.setDie s k c).granule i = s.granule i := rfl
@[simp] theorem State.setDie_bytes (s k c a n) : (State.setDie s k c).bytes a n = s.bytes a n := rfl

/-! ### setLink -/

@[simp] theorem State.setLink_cur (s k c) : (State.setLink s k c).cur = s.cur := rfl
@[simp] theorem State.setLink_agenda (s k c) : (State.setLink s k c).agenda = s.agenda := rfl
@[simp] theorem State.setLink_free (s k c) : (State.setLink s k c).free = s.free := rfl
@[simp] theorem State.setLink_mem (s k c) : (State.setLink s k c).mem = s.mem := rfl
@[simp] theorem State.setLink_tags (s k c) : (State.setLink s k c).tags = s.tags := rfl
@[simp] theorem State.setLink_hist (s k c) : (State.setLink s k c).hist = s.hist := rfl
@[simp] theorem State.setLink_stamp (s k c) : (State.setLink s k c).stamp = s.stamp := rfl
@[simp] theorem State.setLink_cores (s k c) : (State.setLink s k c).cores = s.cores := rfl
@[simp] theorem State.setLink_clusters (s k c) : (State.setLink s k c).clusters = s.clusters := rfl
@[simp] theorem State.setLink_engines (s k c) : (State.setLink s k c).engines = s.engines := rfl
@[simp] theorem State.setLink_ctxs (s k c) : (State.setLink s k c).ctxs = s.ctxs := rfl
@[simp] theorem State.setLink_queues (s k c) : (State.setLink s k c).queues = s.queues := rfl
@[simp] theorem State.setLink_launches (s k c) : (State.setLink s k c).launches = s.launches := rfl
@[simp] theorem State.setLink_dies (s k c) : (State.setLink s k c).dies = s.dies := rfl
@[simp] theorem State.setLink_flights (s k c) : (State.setLink s k c).flights = s.flights := rfl
@[simp] theorem State.setLink_evops (s k c) : (State.setLink s k c).evops = s.evops := rfl
@[simp] theorem State.setLink_frames (s k c) : (State.setLink s k c).frames = s.frames := rfl
@[simp] theorem State.setLink_far (s k c) : (State.setLink s k c).far = s.far := rfl
@[simp] theorem State.setLink_rerouting (s k c) : (State.setLink s k c).rerouting = s.rerouting := rfl
@[simp] theorem State.setLink_moving (s k c) : (State.setLink s k c).moving = s.moving := rfl
@[simp] theorem State.setLink_copied (s k c) : (State.setLink s k c).copied = s.copied := rfl
@[simp] theorem State.setLink_lostPkgs (s k c) : (State.setLink s k c).lostPkgs = s.lostPkgs := rfl
@[simp] theorem State.setLink_nextLaunch (s k c) : (State.setLink s k c).nextLaunch = s.nextLaunch := rfl
@[simp] theorem State.setLink_time (s k c) : (State.setLink s k c).time = s.time := rfl
@[simp] theorem State.setLink_cycle (s k c) : (State.setLink s k c).cycle = s.cycle := rfl
@[simp] theorem State.setLink_ccmd (s k c) : (State.setLink s k c).ccmd = s.ccmd := rfl
@[simp] theorem State.setLink_carg (s k c) : (State.setLink s k c).carg = s.carg := rfl
@[simp] theorem State.setLink_featoff (s k c) : (State.setLink s k c).featoff = s.featoff := rfl
@[simp] theorem State.setLink_tbSync (s k c) : (State.setLink s k c).tbSync = s.tbSync := rfl
@[simp] theorem State.setLink_tbRoot (s k c) : (State.setLink s k c).tbRoot = s.tbRoot := rfl
@[simp] theorem State.setLink_tbRootOf (s k c) : (State.setLink s k c).tbRootOf = s.tbRootOf := rfl
@[simp] theorem State.setLink_tbSrc (s k c) : (State.setLink s k c).tbSrc = s.tbSrc := rfl
@[simp] theorem State.setLink_tbHops (s k c) : (State.setLink s k c).tbHops = s.tbHops := rfl
@[simp] theorem State.setLink_tbOffs (s k c) : (State.setLink s k c).tbOffs = s.tbOffs := rfl
@[simp] theorem State.setLink_tbLeft (s k c) : (State.setLink s k c).tbLeft = s.tbLeft := rfl
@[simp] theorem State.setLink_rootsel (s k c) : (State.setLink s k c).rootsel = s.rootsel := rfl
@[simp] theorem State.setLink_pkg (s k c) : (State.setLink s k c).pkg = s.pkg := rfl
@[simp] theorem State.setLink_mgmt (s k c) : (State.setLink s k c).mgmt = s.mgmt := rfl
@[simp] theorem State.setLink_notices (s k c) : (State.setLink s k c).notices = s.notices := rfl
@[simp] theorem State.setLink_link_same (s k c) : (State.setLink s k c).link k = c := by simp [State.setLink, State.link]
@[simp] theorem State.setLink_link_other (s) {i k : Nat} (c) (h : i ≠ k) : (State.setLink s k c).link i = s.link i := by
  simp [State.setLink, State.link, h]
@[simp] theorem State.setLink_core (s k c i) : (State.setLink s k c).core i = s.core i := rfl
@[simp] theorem State.setLink_cluster (s k c i) : (State.setLink s k c).cluster i = s.cluster i := rfl
@[simp] theorem State.setLink_engine (s k c i) : (State.setLink s k c).engine i = s.engine i := rfl
@[simp] theorem State.setLink_ctx (s k c i) : (State.setLink s k c).ctx i = s.ctx i := rfl
@[simp] theorem State.setLink_queue (s k c i) : (State.setLink s k c).queue i = s.queue i := rfl
@[simp] theorem State.setLink_die (s k c i) : (State.setLink s k c).die i = s.die i := rfl
@[simp] theorem State.setLink_byte (s k c i) : (State.setLink s k c).byte i = s.byte i := rfl
@[simp] theorem State.setLink_word (s k c i) : (State.setLink s k c).word i = s.word i := rfl
@[simp] theorem State.setLink_tagAt (s k c i) : (State.setLink s k c).tagAt i = s.tagAt i := rfl
@[simp] theorem State.setLink_granule (s k c i) : (State.setLink s k c).granule i = s.granule i := rfl
@[simp] theorem State.setLink_bytes (s k c a n) : (State.setLink s k c).bytes a n = s.bytes a n := rfl

/-! ### setLaunch -/

@[simp] theorem State.setLaunch_cur (s k c) : (State.setLaunch s k c).cur = s.cur := rfl
@[simp] theorem State.setLaunch_agenda (s k c) : (State.setLaunch s k c).agenda = s.agenda := rfl
@[simp] theorem State.setLaunch_free (s k c) : (State.setLaunch s k c).free = s.free := rfl
@[simp] theorem State.setLaunch_mem (s k c) : (State.setLaunch s k c).mem = s.mem := rfl
@[simp] theorem State.setLaunch_tags (s k c) : (State.setLaunch s k c).tags = s.tags := rfl
@[simp] theorem State.setLaunch_hist (s k c) : (State.setLaunch s k c).hist = s.hist := rfl
@[simp] theorem State.setLaunch_stamp (s k c) : (State.setLaunch s k c).stamp = s.stamp := rfl
@[simp] theorem State.setLaunch_cores (s k c) : (State.setLaunch s k c).cores = s.cores := rfl
@[simp] theorem State.setLaunch_clusters (s k c) : (State.setLaunch s k c).clusters = s.clusters := rfl
@[simp] theorem State.setLaunch_engines (s k c) : (State.setLaunch s k c).engines = s.engines := rfl
@[simp] theorem State.setLaunch_ctxs (s k c) : (State.setLaunch s k c).ctxs = s.ctxs := rfl
@[simp] theorem State.setLaunch_queues (s k c) : (State.setLaunch s k c).queues = s.queues := rfl
@[simp] theorem State.setLaunch_dies (s k c) : (State.setLaunch s k c).dies = s.dies := rfl
@[simp] theorem State.setLaunch_links (s k c) : (State.setLaunch s k c).links = s.links := rfl
@[simp] theorem State.setLaunch_flights (s k c) : (State.setLaunch s k c).flights = s.flights := rfl
@[simp] theorem State.setLaunch_evops (s k c) : (State.setLaunch s k c).evops = s.evops := rfl
@[simp] theorem State.setLaunch_frames (s k c) : (State.setLaunch s k c).frames = s.frames := rfl
@[simp] theorem State.setLaunch_far (s k c) : (State.setLaunch s k c).far = s.far := rfl
@[simp] theorem State.setLaunch_rerouting (s k c) : (State.setLaunch s k c).rerouting = s.rerouting := rfl
@[simp] theorem State.setLaunch_moving (s k c) : (State.setLaunch s k c).moving = s.moving := rfl
@[simp] theorem State.setLaunch_copied (s k c) : (State.setLaunch s k c).copied = s.copied := rfl
@[simp] theorem State.setLaunch_lostPkgs (s k c) : (State.setLaunch s k c).lostPkgs = s.lostPkgs := rfl
@[simp] theorem State.setLaunch_nextLaunch (s k c) : (State.setLaunch s k c).nextLaunch = s.nextLaunch := rfl
@[simp] theorem State.setLaunch_time (s k c) : (State.setLaunch s k c).time = s.time := rfl
@[simp] theorem State.setLaunch_cycle (s k c) : (State.setLaunch s k c).cycle = s.cycle := rfl
@[simp] theorem State.setLaunch_ccmd (s k c) : (State.setLaunch s k c).ccmd = s.ccmd := rfl
@[simp] theorem State.setLaunch_carg (s k c) : (State.setLaunch s k c).carg = s.carg := rfl
@[simp] theorem State.setLaunch_featoff (s k c) : (State.setLaunch s k c).featoff = s.featoff := rfl
@[simp] theorem State.setLaunch_tbSync (s k c) : (State.setLaunch s k c).tbSync = s.tbSync := rfl
@[simp] theorem State.setLaunch_tbRoot (s k c) : (State.setLaunch s k c).tbRoot = s.tbRoot := rfl
@[simp] theorem State.setLaunch_tbRootOf (s k c) : (State.setLaunch s k c).tbRootOf = s.tbRootOf := rfl
@[simp] theorem State.setLaunch_tbSrc (s k c) : (State.setLaunch s k c).tbSrc = s.tbSrc := rfl
@[simp] theorem State.setLaunch_tbHops (s k c) : (State.setLaunch s k c).tbHops = s.tbHops := rfl
@[simp] theorem State.setLaunch_tbOffs (s k c) : (State.setLaunch s k c).tbOffs = s.tbOffs := rfl
@[simp] theorem State.setLaunch_tbLeft (s k c) : (State.setLaunch s k c).tbLeft = s.tbLeft := rfl
@[simp] theorem State.setLaunch_rootsel (s k c) : (State.setLaunch s k c).rootsel = s.rootsel := rfl
@[simp] theorem State.setLaunch_pkg (s k c) : (State.setLaunch s k c).pkg = s.pkg := rfl
@[simp] theorem State.setLaunch_mgmt (s k c) : (State.setLaunch s k c).mgmt = s.mgmt := rfl
@[simp] theorem State.setLaunch_notices (s k c) : (State.setLaunch s k c).notices = s.notices := rfl
@[simp] theorem State.setLaunch_core (s k c i) : (State.setLaunch s k c).core i = s.core i := rfl
@[simp] theorem State.setLaunch_cluster (s k c i) : (State.setLaunch s k c).cluster i = s.cluster i := rfl
@[simp] theorem State.setLaunch_engine (s k c i) : (State.setLaunch s k c).engine i = s.engine i := rfl
@[simp] theorem State.setLaunch_ctx (s k c i) : (State.setLaunch s k c).ctx i = s.ctx i := rfl
@[simp] theorem State.setLaunch_queue (s k c i) : (State.setLaunch s k c).queue i = s.queue i := rfl
@[simp] theorem State.setLaunch_die (s k c i) : (State.setLaunch s k c).die i = s.die i := rfl
@[simp] theorem State.setLaunch_link (s k c i) : (State.setLaunch s k c).link i = s.link i := rfl
@[simp] theorem State.setLaunch_byte (s k c i) : (State.setLaunch s k c).byte i = s.byte i := rfl
@[simp] theorem State.setLaunch_word (s k c i) : (State.setLaunch s k c).word i = s.word i := rfl
@[simp] theorem State.setLaunch_tagAt (s k c i) : (State.setLaunch s k c).tagAt i = s.tagAt i := rfl
@[simp] theorem State.setLaunch_granule (s k c i) : (State.setLaunch s k c).granule i = s.granule i := rfl
@[simp] theorem State.setLaunch_bytes (s k c a n) : (State.setLaunch s k c).bytes a n = s.bytes a n := rfl

/-! ### modCore -/

@[simp] theorem State.modCore_cur (s k c) : (State.modCore s k c).cur = s.cur := rfl
@[simp] theorem State.modCore_agenda (s k c) : (State.modCore s k c).agenda = s.agenda := rfl
@[simp] theorem State.modCore_free (s k c) : (State.modCore s k c).free = s.free := rfl
@[simp] theorem State.modCore_mem (s k c) : (State.modCore s k c).mem = s.mem := rfl
@[simp] theorem State.modCore_tags (s k c) : (State.modCore s k c).tags = s.tags := rfl
@[simp] theorem State.modCore_hist (s k c) : (State.modCore s k c).hist = s.hist := rfl
@[simp] theorem State.modCore_stamp (s k c) : (State.modCore s k c).stamp = s.stamp := rfl
@[simp] theorem State.modCore_clusters (s k c) : (State.modCore s k c).clusters = s.clusters := rfl
@[simp] theorem State.modCore_engines (s k c) : (State.modCore s k c).engines = s.engines := rfl
@[simp] theorem State.modCore_ctxs (s k c) : (State.modCore s k c).ctxs = s.ctxs := rfl
@[simp] theorem State.modCore_queues (s k c) : (State.modCore s k c).queues = s.queues := rfl
@[simp] theorem State.modCore_launches (s k c) : (State.modCore s k c).launches = s.launches := rfl
@[simp] theorem State.modCore_dies (s k c) : (State.modCore s k c).dies = s.dies := rfl
@[simp] theorem State.modCore_links (s k c) : (State.modCore s k c).links = s.links := rfl
@[simp] theorem State.modCore_flights (s k c) : (State.modCore s k c).flights = s.flights := rfl
@[simp] theorem State.modCore_evops (s k c) : (State.modCore s k c).evops = s.evops := rfl
@[simp] theorem State.modCore_frames (s k c) : (State.modCore s k c).frames = s.frames := rfl
@[simp] theorem State.modCore_far (s k c) : (State.modCore s k c).far = s.far := rfl
@[simp] theorem State.modCore_rerouting (s k c) : (State.modCore s k c).rerouting = s.rerouting := rfl
@[simp] theorem State.modCore_moving (s k c) : (State.modCore s k c).moving = s.moving := rfl
@[simp] theorem State.modCore_copied (s k c) : (State.modCore s k c).copied = s.copied := rfl
@[simp] theorem State.modCore_lostPkgs (s k c) : (State.modCore s k c).lostPkgs = s.lostPkgs := rfl
@[simp] theorem State.modCore_nextLaunch (s k c) : (State.modCore s k c).nextLaunch = s.nextLaunch := rfl
@[simp] theorem State.modCore_time (s k c) : (State.modCore s k c).time = s.time := rfl
@[simp] theorem State.modCore_cycle (s k c) : (State.modCore s k c).cycle = s.cycle := rfl
@[simp] theorem State.modCore_ccmd (s k c) : (State.modCore s k c).ccmd = s.ccmd := rfl
@[simp] theorem State.modCore_carg (s k c) : (State.modCore s k c).carg = s.carg := rfl
@[simp] theorem State.modCore_featoff (s k c) : (State.modCore s k c).featoff = s.featoff := rfl
@[simp] theorem State.modCore_tbSync (s k c) : (State.modCore s k c).tbSync = s.tbSync := rfl
@[simp] theorem State.modCore_tbRoot (s k c) : (State.modCore s k c).tbRoot = s.tbRoot := rfl
@[simp] theorem State.modCore_tbRootOf (s k c) : (State.modCore s k c).tbRootOf = s.tbRootOf := rfl
@[simp] theorem State.modCore_tbSrc (s k c) : (State.modCore s k c).tbSrc = s.tbSrc := rfl
@[simp] theorem State.modCore_tbHops (s k c) : (State.modCore s k c).tbHops = s.tbHops := rfl
@[simp] theorem State.modCore_tbOffs (s k c) : (State.modCore s k c).tbOffs = s.tbOffs := rfl
@[simp] theorem State.modCore_tbLeft (s k c) : (State.modCore s k c).tbLeft = s.tbLeft := rfl
@[simp] theorem State.modCore_rootsel (s k c) : (State.modCore s k c).rootsel = s.rootsel := rfl
@[simp] theorem State.modCore_pkg (s k c) : (State.modCore s k c).pkg = s.pkg := rfl
@[simp] theorem State.modCore_mgmt (s k c) : (State.modCore s k c).mgmt = s.mgmt := rfl
@[simp] theorem State.modCore_notices (s k c) : (State.modCore s k c).notices = s.notices := rfl
@[simp] theorem State.modCore_cluster (s k c i) : (State.modCore s k c).cluster i = s.cluster i := rfl
@[simp] theorem State.modCore_engine (s k c i) : (State.modCore s k c).engine i = s.engine i := rfl
@[simp] theorem State.modCore_ctx (s k c i) : (State.modCore s k c).ctx i = s.ctx i := rfl
@[simp] theorem State.modCore_queue (s k c i) : (State.modCore s k c).queue i = s.queue i := rfl
@[simp] theorem State.modCore_die (s k c i) : (State.modCore s k c).die i = s.die i := rfl
@[simp] theorem State.modCore_link (s k c i) : (State.modCore s k c).link i = s.link i := rfl
@[simp] theorem State.modCore_byte (s k c i) : (State.modCore s k c).byte i = s.byte i := rfl
@[simp] theorem State.modCore_word (s k c i) : (State.modCore s k c).word i = s.word i := rfl
@[simp] theorem State.modCore_tagAt (s k c i) : (State.modCore s k c).tagAt i = s.tagAt i := rfl
@[simp] theorem State.modCore_granule (s k c i) : (State.modCore s k c).granule i = s.granule i := rfl
@[simp] theorem State.modCore_bytes (s k c a n) : (State.modCore s k c).bytes a n = s.bytes a n := rfl

/-! ### modVs -/

@[simp] theorem State.modVs_cur (s k c) : (State.modVs s k c).cur = s.cur := rfl
@[simp] theorem State.modVs_agenda (s k c) : (State.modVs s k c).agenda = s.agenda := rfl
@[simp] theorem State.modVs_free (s k c) : (State.modVs s k c).free = s.free := rfl
@[simp] theorem State.modVs_mem (s k c) : (State.modVs s k c).mem = s.mem := rfl
@[simp] theorem State.modVs_tags (s k c) : (State.modVs s k c).tags = s.tags := rfl
@[simp] theorem State.modVs_hist (s k c) : (State.modVs s k c).hist = s.hist := rfl
@[simp] theorem State.modVs_stamp (s k c) : (State.modVs s k c).stamp = s.stamp := rfl
@[simp] theorem State.modVs_clusters (s k c) : (State.modVs s k c).clusters = s.clusters := rfl
@[simp] theorem State.modVs_engines (s k c) : (State.modVs s k c).engines = s.engines := rfl
@[simp] theorem State.modVs_ctxs (s k c) : (State.modVs s k c).ctxs = s.ctxs := rfl
@[simp] theorem State.modVs_queues (s k c) : (State.modVs s k c).queues = s.queues := rfl
@[simp] theorem State.modVs_launches (s k c) : (State.modVs s k c).launches = s.launches := rfl
@[simp] theorem State.modVs_dies (s k c) : (State.modVs s k c).dies = s.dies := rfl
@[simp] theorem State.modVs_links (s k c) : (State.modVs s k c).links = s.links := rfl
@[simp] theorem State.modVs_flights (s k c) : (State.modVs s k c).flights = s.flights := rfl
@[simp] theorem State.modVs_evops (s k c) : (State.modVs s k c).evops = s.evops := rfl
@[simp] theorem State.modVs_frames (s k c) : (State.modVs s k c).frames = s.frames := rfl
@[simp] theorem State.modVs_far (s k c) : (State.modVs s k c).far = s.far := rfl
@[simp] theorem State.modVs_rerouting (s k c) : (State.modVs s k c).rerouting = s.rerouting := rfl
@[simp] theorem State.modVs_moving (s k c) : (State.modVs s k c).moving = s.moving := rfl
@[simp] theorem State.modVs_copied (s k c) : (State.modVs s k c).copied = s.copied := rfl
@[simp] theorem State.modVs_lostPkgs (s k c) : (State.modVs s k c).lostPkgs = s.lostPkgs := rfl
@[simp] theorem State.modVs_nextLaunch (s k c) : (State.modVs s k c).nextLaunch = s.nextLaunch := rfl
@[simp] theorem State.modVs_time (s k c) : (State.modVs s k c).time = s.time := rfl
@[simp] theorem State.modVs_cycle (s k c) : (State.modVs s k c).cycle = s.cycle := rfl
@[simp] theorem State.modVs_ccmd (s k c) : (State.modVs s k c).ccmd = s.ccmd := rfl
@[simp] theorem State.modVs_carg (s k c) : (State.modVs s k c).carg = s.carg := rfl
@[simp] theorem State.modVs_featoff (s k c) : (State.modVs s k c).featoff = s.featoff := rfl
@[simp] theorem State.modVs_tbSync (s k c) : (State.modVs s k c).tbSync = s.tbSync := rfl
@[simp] theorem State.modVs_tbRoot (s k c) : (State.modVs s k c).tbRoot = s.tbRoot := rfl
@[simp] theorem State.modVs_tbRootOf (s k c) : (State.modVs s k c).tbRootOf = s.tbRootOf := rfl
@[simp] theorem State.modVs_tbSrc (s k c) : (State.modVs s k c).tbSrc = s.tbSrc := rfl
@[simp] theorem State.modVs_tbHops (s k c) : (State.modVs s k c).tbHops = s.tbHops := rfl
@[simp] theorem State.modVs_tbOffs (s k c) : (State.modVs s k c).tbOffs = s.tbOffs := rfl
@[simp] theorem State.modVs_tbLeft (s k c) : (State.modVs s k c).tbLeft = s.tbLeft := rfl
@[simp] theorem State.modVs_rootsel (s k c) : (State.modVs s k c).rootsel = s.rootsel := rfl
@[simp] theorem State.modVs_pkg (s k c) : (State.modVs s k c).pkg = s.pkg := rfl
@[simp] theorem State.modVs_mgmt (s k c) : (State.modVs s k c).mgmt = s.mgmt := rfl
@[simp] theorem State.modVs_notices (s k c) : (State.modVs s k c).notices = s.notices := rfl
@[simp] theorem State.modVs_cluster (s k c i) : (State.modVs s k c).cluster i = s.cluster i := rfl
@[simp] theorem State.modVs_engine (s k c i) : (State.modVs s k c).engine i = s.engine i := rfl
@[simp] theorem State.modVs_ctx (s k c i) : (State.modVs s k c).ctx i = s.ctx i := rfl
@[simp] theorem State.modVs_queue (s k c i) : (State.modVs s k c).queue i = s.queue i := rfl
@[simp] theorem State.modVs_die (s k c i) : (State.modVs s k c).die i = s.die i := rfl
@[simp] theorem State.modVs_link (s k c i) : (State.modVs s k c).link i = s.link i := rfl
@[simp] theorem State.modVs_byte (s k c i) : (State.modVs s k c).byte i = s.byte i := rfl
@[simp] theorem State.modVs_word (s k c i) : (State.modVs s k c).word i = s.word i := rfl
@[simp] theorem State.modVs_tagAt (s k c i) : (State.modVs s k c).tagAt i = s.tagAt i := rfl
@[simp] theorem State.modVs_granule (s k c i) : (State.modVs s k c).granule i = s.granule i := rfl
@[simp] theorem State.modVs_bytes (s k c a n) : (State.modVs s k c).bytes a n = s.bytes a n := rfl

/-! ### modCtx -/

@[simp] theorem State.modCtx_cur (s k c) : (State.modCtx s k c).cur = s.cur := rfl
@[simp] theorem State.modCtx_agenda (s k c) : (State.modCtx s k c).agenda = s.agenda := rfl
@[simp] theorem State.modCtx_free (s k c) : (State.modCtx s k c).free = s.free := rfl
@[simp] theorem State.modCtx_mem (s k c) : (State.modCtx s k c).mem = s.mem := rfl
@[simp] theorem State.modCtx_tags (s k c) : (State.modCtx s k c).tags = s.tags := rfl
@[simp] theorem State.modCtx_hist (s k c) : (State.modCtx s k c).hist = s.hist := rfl
@[simp] theorem State.modCtx_stamp (s k c) : (State.modCtx s k c).stamp = s.stamp := rfl
@[simp] theorem State.modCtx_cores (s k c) : (State.modCtx s k c).cores = s.cores := rfl
@[simp] theorem State.modCtx_clusters (s k c) : (State.modCtx s k c).clusters = s.clusters := rfl
@[simp] theorem State.modCtx_engines (s k c) : (State.modCtx s k c).engines = s.engines := rfl
@[simp] theorem State.modCtx_queues (s k c) : (State.modCtx s k c).queues = s.queues := rfl
@[simp] theorem State.modCtx_launches (s k c) : (State.modCtx s k c).launches = s.launches := rfl
@[simp] theorem State.modCtx_dies (s k c) : (State.modCtx s k c).dies = s.dies := rfl
@[simp] theorem State.modCtx_links (s k c) : (State.modCtx s k c).links = s.links := rfl
@[simp] theorem State.modCtx_flights (s k c) : (State.modCtx s k c).flights = s.flights := rfl
@[simp] theorem State.modCtx_evops (s k c) : (State.modCtx s k c).evops = s.evops := rfl
@[simp] theorem State.modCtx_frames (s k c) : (State.modCtx s k c).frames = s.frames := rfl
@[simp] theorem State.modCtx_far (s k c) : (State.modCtx s k c).far = s.far := rfl
@[simp] theorem State.modCtx_rerouting (s k c) : (State.modCtx s k c).rerouting = s.rerouting := rfl
@[simp] theorem State.modCtx_moving (s k c) : (State.modCtx s k c).moving = s.moving := rfl
@[simp] theorem State.modCtx_copied (s k c) : (State.modCtx s k c).copied = s.copied := rfl
@[simp] theorem State.modCtx_lostPkgs (s k c) : (State.modCtx s k c).lostPkgs = s.lostPkgs := rfl
@[simp] theorem State.modCtx_nextLaunch (s k c) : (State.modCtx s k c).nextLaunch = s.nextLaunch := rfl
@[simp] theorem State.modCtx_time (s k c) : (State.modCtx s k c).time = s.time := rfl
@[simp] theorem State.modCtx_cycle (s k c) : (State.modCtx s k c).cycle = s.cycle := rfl
@[simp] theorem State.modCtx_ccmd (s k c) : (State.modCtx s k c).ccmd = s.ccmd := rfl
@[simp] theorem State.modCtx_carg (s k c) : (State.modCtx s k c).carg = s.carg := rfl
@[simp] theorem State.modCtx_featoff (s k c) : (State.modCtx s k c).featoff = s.featoff := rfl
@[simp] theorem State.modCtx_tbSync (s k c) : (State.modCtx s k c).tbSync = s.tbSync := rfl
@[simp] theorem State.modCtx_tbRoot (s k c) : (State.modCtx s k c).tbRoot = s.tbRoot := rfl
@[simp] theorem State.modCtx_tbRootOf (s k c) : (State.modCtx s k c).tbRootOf = s.tbRootOf := rfl
@[simp] theorem State.modCtx_tbSrc (s k c) : (State.modCtx s k c).tbSrc = s.tbSrc := rfl
@[simp] theorem State.modCtx_tbHops (s k c) : (State.modCtx s k c).tbHops = s.tbHops := rfl
@[simp] theorem State.modCtx_tbOffs (s k c) : (State.modCtx s k c).tbOffs = s.tbOffs := rfl
@[simp] theorem State.modCtx_tbLeft (s k c) : (State.modCtx s k c).tbLeft = s.tbLeft := rfl
@[simp] theorem State.modCtx_rootsel (s k c) : (State.modCtx s k c).rootsel = s.rootsel := rfl
@[simp] theorem State.modCtx_pkg (s k c) : (State.modCtx s k c).pkg = s.pkg := rfl
@[simp] theorem State.modCtx_mgmt (s k c) : (State.modCtx s k c).mgmt = s.mgmt := rfl
@[simp] theorem State.modCtx_notices (s k c) : (State.modCtx s k c).notices = s.notices := rfl
@[simp] theorem State.modCtx_core (s k c i) : (State.modCtx s k c).core i = s.core i := rfl
@[simp] theorem State.modCtx_cluster (s k c i) : (State.modCtx s k c).cluster i = s.cluster i := rfl
@[simp] theorem State.modCtx_engine (s k c i) : (State.modCtx s k c).engine i = s.engine i := rfl
@[simp] theorem State.modCtx_queue (s k c i) : (State.modCtx s k c).queue i = s.queue i := rfl
@[simp] theorem State.modCtx_die (s k c i) : (State.modCtx s k c).die i = s.die i := rfl
@[simp] theorem State.modCtx_link (s k c i) : (State.modCtx s k c).link i = s.link i := rfl
@[simp] theorem State.modCtx_byte (s k c i) : (State.modCtx s k c).byte i = s.byte i := rfl
@[simp] theorem State.modCtx_word (s k c i) : (State.modCtx s k c).word i = s.word i := rfl
@[simp] theorem State.modCtx_tagAt (s k c i) : (State.modCtx s k c).tagAt i = s.tagAt i := rfl
@[simp] theorem State.modCtx_granule (s k c i) : (State.modCtx s k c).granule i = s.granule i := rfl
@[simp] theorem State.modCtx_bytes (s k c a n) : (State.modCtx s k c).bytes a n = s.bytes a n := rfl

@[simp] theorem State.modCore_core_same (s k f) : (State.modCore s k f).core k = f (s.core k) := by simp [State.modCore]
@[simp] theorem State.modCore_core_other (s) {i k : Nat} (f) (h : i ≠ k) : (State.modCore s k f).core i = s.core i := by
  simp [State.modCore, h]
@[simp] theorem State.modVs_core_same (s k f) : (State.modVs s k f).core k = { s.core k with vs := f (s.core k).vs } := by
  simp [State.modVs]
@[simp] theorem State.modVs_core_other (s) {i k : Nat} (f) (h : i ≠ k) : (State.modVs s k f).core i = s.core i := by
  simp [State.modVs, h]
@[simp] theorem State.modVs_vs_same (s k f) : (State.modVs s k f).vs k = f (s.vs k) := by simp [State.vs]
@[simp] theorem State.modCtx_ctx_same (s k f) : (State.modCtx s k f).ctx k = f (s.ctx k) := by simp [State.modCtx]
@[simp] theorem State.modCtx_ctx_other (s) {i k : Nat} (f) (h : i ≠ k) : (State.modCtx s k f).ctx i = s.ctx i := by
  simp [State.modCtx, h]

end Sys2Proof.Machine
end

