-- ==== Sys2Proof/Laws/Words.lean ====
section
/-! SUPPORT. What running a word answers (15 R243, 16 R293, 22 R421): one lemma for each way that its effect can end. -/

namespace Sys2Proof.Machine

variable {s s1 s2 : State} {k : Nat} {sp falls empty : Bool} {acc : Access} {srcs dsts : List Opnd} {m : Word}

theorem State.runWord_ok {body : State → Res Effect} {next : Option Word} (h : s.Clear k sp falls empty srcs dsts m s1)
    (hb : body s1 = .ok (s2, next)) :
    s.runWord k sp falls empty acc srcs dsts body = .next (s2.finished k sp m (next.getD ((s.core k).fallThrough sp))) := by
  obtain ⟨hq, hp, hm⟩ := h
  simp only [State.runWord, hq, hp, hm, hb, State.finished]
  cases sp <;> simp

theorem State.runWord_fault {body : State → Res Effect} {f : FCode} {a : Word} (h : s.Clear k sp falls empty srcs dsts m s1)
    (hb : body s1 = .error (.fault f a)) :
    s.runWord k sp falls empty acc srcs dsts body = .next (s.takeFault k f a (s.core k).unitAt acc) := by
  obtain ⟨hq, hp, hm⟩ := h
  simp [State.runWord, hq, hp, hm, hb, firstFault]

theorem State.runWord_wait {body : State → Res Effect} {w : Wait} (h : s.Clear k sp falls empty srcs dsts m s1)
    (hb : body s1 = .error (.wait w s2)) :
    s.runWord k sp falls empty acc srcs dsts body = .next ((((s1.heldBack s2 k w).withMask k m).waitOn k w (sp && !w.redo)).stopAtWait k) := by
  obtain ⟨hq, hp, hm⟩ := h
  simp [State.runWord, hq, hp, hm, hb]

theorem State.runSeq_ok {body : State → Res State} (h : s.Clear k sp true false srcs dsts m s1) (hb : body s1 = .ok s2) :
    s.runSeq k sp srcs dsts body = .next (s2.finished k sp m ((s.core k).fallThrough sp)) :=
  State.runWord_ok h (next := none) (by simp [hb])

theorem State.runSeq_fault {body : State → Res State} {f : FCode} {a : Word} (h : s.Clear k sp true false srcs dsts m s1)
    (hb : body s1 = .error (.fault f a)) :
    s.runSeq k sp srcs dsts body = .next (s.takeFault k f a (s.core k).unitAt .read) :=
  State.runWord_fault h (by simp [hb])

theorem State.runSeq_wait {body : State → Res State} {w : Wait} (h : s.Clear k sp true false srcs dsts m s1)
    (hb : body s1 = .error (.wait w s2)) :
    s.runSeq k sp srcs dsts body = .next ((((s1.heldBack s2 k w).withMask k m).waitOn k w (sp && !w.redo)).stopAtWait k) :=
  State.runWord_wait h (by simp [hb])

theorem State.runMem_ok {body : State → Res State} (h : s.Clear k sp true false srcs dsts m s1) (hb : body s1 = .ok s2) :
    s.runMem k sp acc srcs dsts body = .next (s2.finished k sp m ((s.core k).fallThrough sp)) :=
  State.runWord_ok h (next := none) (by simp [hb])

theorem State.runMem_fault {body : State → Res State} {f : FCode} {a : Word} (h : s.Clear k sp true false srcs dsts m s1)
    (hb : body s1 = .error (.fault f a)) :
    s.runMem k sp acc srcs dsts body = .next (s.takeFault k f a (s.core k).unitAt acc) :=
  State.runWord_fault h (by simp [hb])

theorem State.runJump_ok {body : State → Res (State × Word)} {next : Word} (h : s.Clear k sp false false srcs [] m s1)
    (hb : body s1 = .ok (s2, next)) : s.runJump k sp srcs body = .next (s2.finished k sp m next) :=
  State.runWord_ok h (next := some next) (by simp [hb])

theorem State.runJump_fault {body : State → Res (State × Word)} {f : FCode} {a : Word} (h : s.Clear k sp false false srcs [] m s1)
    (hb : body s1 = .error (.fault f a)) :
    s.runJump k sp srcs body = .next (s.takeFault k f a (s.core k).unitAt .fetch) :=
  State.runWord_fault h (by simp [hb])

theorem State.runEnd_ok {body : State → Res State} (hq : (s.core k).queuesBad true [] [] = false) (hb : body s = .ok s1) :
    s.runEnd k body = .next (s1.endFiring k) := by
  simp [State.runEnd, hq, hb]

theorem State.runYield_ok (h : s.Clear k true true true [] [] m s1) :
    s.runYield k = .next (s1.safePoint k m ((s.core k).fallThrough true) true) := by
  obtain ⟨hq, hp, hm⟩ := h
  simp only [Bool.or_self] at hq
  simp [State.runYield, hq, hp, hm]

/-- One element of a .S word that goes on (18 R330). -/
theorem State.runElement_step {body : State → Res (State × Bool)} {between : Bool} (h : s.Clear k sp true false srcs dsts m s1)
    (hq : (s.core k).queuesBad false srcs dsts = false) (hb : body s1 = .ok (s2, false)) (hs : (between && s2.mustStop k) = false) :
    s.runElement k sp between srcs dsts body = .next s2 := by
  obtain ⟨-, hp, hm⟩ := h
  simp only [State.runElement, hq, hp, hm, hb]
  cases between <;> simp_all

end Sys2Proof.Machine
end

