-- ==== Sys2Proof/Laws/Looks.lean ====
section
/-! SUPPORT. What looking at memory changes: translating, fetching and loading touch the TLBs, the reader's view of its phase, the
counter of free values and the gauges that sample the reads, and nothing else (13 R222, 21 R406-R407). -/

namespace Sys2Proof.Machine

/-- `t` is `s` but for TLBs, views of memory, the counter of free values and gauges. -/
structure Looks (s t : State) : Prop where
  frame : t = { s with cores := t.cores, clusters := t.clusters, ctxs := t.ctxs, free := t.free }
  core : ∀ j, t.core j = { s.core j with tlb := (t.core j).tlb, view := (t.core j).view }
  ctx : ∀ n, t.ctx n = { s.ctx n with gauges := (t.ctx n).gauges }

namespace Looks

theorem refl (s : State) : Looks s s := ⟨rfl, fun _ => rfl, fun _ => rfl⟩

theorem trans {s t u : State} (h : Looks s t) (g : Looks t u) : Looks s u := by
  refine ⟨?_, fun j => ?_, fun n => ?_⟩
  · rw [g.frame, h.frame]
  · rw [g.core j, h.core j]
  · rw [g.ctx n, h.ctx n]

variable {s t : State}

theorem cur (h : Looks s t) : t.cur = s.cur := by rw [h.frame]
theorem mem (h : Looks s t) : t.mem = s.mem := by rw [h.frame]
theorem tags (h : Looks s t) : t.tags = s.tags := by rw [h.frame]
theorem hist (h : Looks s t) : t.hist = s.hist := by rw [h.frame]
theorem launches (h : Looks s t) : t.launches = s.launches := by rw [h.frame]
theorem dies (h : Looks s t) : t.dies = s.dies := by rw [h.frame]
theorem engines (h : Looks s t) : t.engines = s.engines := by rw [h.frame]
theorem moving (h : Looks s t) : t.moving = s.moving := by rw [h.frame]
theorem time (h : Looks s t) : t.time = s.time := by rw [h.frame]
theorem featoff (h : Looks s t) : t.featoff = s.featoff := by rw [h.frame]
theorem byte (h : Looks s t) (a : Nat) : t.byte a = s.byte a := by simp [State.byte, mem h]
theorem tagAt (h : Looks s t) (g : Nat) : t.tagAt g = s.tagAt g := by simp [State.tagAt, tags h]
theorem ctx_events (h : Looks s t) (n : Nat) : (t.ctx n).events = (s.ctx n).events := by rw [h.ctx n]
theorem ctx_handlers (h : Looks s t) (n : Nat) : (t.ctx n).handlers = (s.ctx n).handlers := by rw [h.ctx n]
theorem ctx_handles (h : Looks s t) (n : Nat) : (t.ctx n).handles = (s.ctx n).handles := by rw [h.ctx n]
theorem ctx_state (h : Looks s t) (n : Nat) : (t.ctx n).state = (s.ctx n).state := by rw [h.ctx n]
theorem vs (h : Looks s t) (k : Nat) : t.vs k = s.vs k := by simp only [State.vs]; rw [h.core k]
theorem core_pfx (h : Looks s t) (k : Nat) : (t.core k).pfx = (s.core k).pfx := by rw [h.core k]
theorem core_pc (h : Looks s t) (k : Nat) : (t.core k).pc = (s.core k).pc := by rw [h.core k]
theorem core_pcc (h : Looks s t) (k : Nat) : (t.core k).pcc = (s.core k).pcc := by rw [h.core k]
theorem core_buffer (h : Looks s t) (k : Nat) : (t.core k).buffer = (s.core k).buffer := by rw [h.core k]
theorem core_ctx (h : Looks s t) (k : Nat) : (t.core k).ctx = (s.core k).ctx := by rw [h.core k]
theorem ctxOf (h : Looks s t) (k : Nat) : t.ctxOf k = s.ctxOf k := by simp [State.ctxOf, core_ctx h]
theorem cap (h : Looks s t) (k : Nat) (o : Opnd) : t.cap k o = s.cap k o := by cases o <;> simp [State.cap, vs h]
theorem widened (h : Looks s t) (k : Nat) (i : BitVec 20) : (t.core k).widened i = (s.core k).widened i := by
  simp [Core.widened, core_pfx h]
theorem lostMemory (h : Looks s t) (a : Nat) : t.lostMemory a = s.lostMemory a := by simp [State.lostMemory, State.die, dies h]
theorem memOk (h : Looks s t) (hs : s.memOk) : t.memOk := by simpa [State.memOk, mem h, tags h] using hs

end Looks

/-- A change of a core's TLB and view alone. -/
theorem State.looks_setCore (s : State) (k : Nat) (tlb : List TlbEntry) (view : View) :
    Looks s (s.setCore k { s.core k with tlb, view }) := by
  refine ⟨rfl, fun j => ?_, fun _ => rfl⟩
  by_cases h : j = k
  · subst h; simp
  · simp [h]

theorem State.looks_setCluster (s : State) (u : Nat) (c : Cluster) : Looks s (s.setCluster u c) := ⟨rfl, fun _ => rfl, fun _ => rfl⟩
theorem State.looks_free (s : State) (n : Nat) : Looks s { s with free := n } := ⟨rfl, fun _ => rfl, fun _ => rfl⟩

/-- A sample changes gauges alone (23 R432). -/
theorem State.sample_looks (s : State) (ctx src : Nat) (v : Word) : Looks s (s.sample ctx src v) := by
  simp only [State.sample]
  split
  · refine ⟨rfl, fun _ => rfl, fun n => ?_⟩
    by_cases h : n = ctx
    · subst h; simp
    · simp [h]
  · exact Looks.refl s

theorem State.readReturn_looks (s : State) (ctx : Nat) : Looks s (s.readReturn ctx) := by
  simp only [State.readReturn]
  split
  · split
    · exact (s.looks_free _).trans (State.sample_looks _ ctx 4 _)
    · exact s.looks_free _
  · exact Looks.refl s

theorem State.lookup_looks {s t : State} {k c pa : Nat} {acc : Access} {va : Word} (h : s.lookup k c acc va = some (pa, t)) :
    Looks s t := by
  simp only [State.lookup] at h
  split at h
  · cases h
    exact s.looks_setCore k _ (s.core k).view
  · split at h
    · cases h
      exact (s.looks_setCluster _ _).trans ((s.setCluster _ _).looks_setCore k _ (s.core k).view)
    · simp only [Option.map_eq_some_iff, Prod.mk.injEq] at h
      obtain ⟨_, _, _, rfl⟩ := h
      exact Looks.refl s

/-- What the success of two steps in a row says of each. -/
theorem Res.bind_ok {α β : Type} {r : Res α} {f : α → Res β} {b : β} (h : (r >>= f) = .ok b) : ∃ a, r = .ok a ∧ f a = .ok b := by
  cases r with
  | error e => cases h
  | ok a => exact ⟨a, rfl, h⟩

theorem State.find_looks {s t : State} {k pa : Nat} {acc : Access} {va : Word} (h : s.find k acc va = .ok (pa, t)) : Looks s t := by
  simp only [State.find] at h
  split at h
  · cases h
  · split at h
    · next hl => cases h; exact State.lookup_looks hl
    · cases h

theorem State.translate_looks {s t : State} {k pa : Nat} {acc : Access} {va : Word} (h : s.translate k acc va = .ok (pa, t)) :
    Looks s t := by
  obtain ⟨⟨p, u⟩, hf, h⟩ := Res.bind_ok h
  obtain ⟨_, -, h⟩ := Res.bind_ok h
  cases h
  exact State.find_looks hf

theorem State.translateSpan_looks {s t : State} {k n : Nat} {acc : Access} {va : Word} {l : List (Word × Nat × Nat)}
    (h : s.translateSpan k acc va n = .ok (l, t)) : Looks s t := by
  simp only [State.translateSpan] at h
  split at h
  · obtain ⟨⟨p, u⟩, hf, h⟩ := Res.bind_ok h
    cases h
    exact State.translate_looks hf
  · obtain ⟨⟨p, u⟩, hf, h⟩ := Res.bind_ok h
    obtain ⟨⟨q, v⟩, hg, h⟩ := Res.bind_ok h
    obtain ⟨_, -, h⟩ := Res.bind_ok h
    cases h
    exact (State.find_looks hf).trans (State.find_looks hg)

theorem State.fetchAt_looks {s t : State} {k : Nat} {a w : Word} (h : s.fetchAt k a = .ok (w, t)) : Looks s t := by
  simp only [State.fetchAt] at h
  split at h
  · cases h
  · cases ht : s.translate k .fetch a with
    | error e => simp [ht, bind, Except.bind] at h
    | ok p =>
      simp only [ht, bind, Except.bind] at h
      split at h
      · cases h; exact State.translate_looks ht
      · cases h; exact (State.translate_looks ht).trans (State.looks_free _ _)

theorem State.maskOf_looks {s t : State} {k : Nat} {sp : Bool} {p : Option (FCode × Word)} {m : Word}
    (h : s.maskOf k sp p = .ok (m, t)) : Looks s t := by
  simp only [State.maskOf] at h
  split at h
  · exact State.fetchAt_looks h
  · cases h; exact Looks.refl s

theorem State.clear_looks {s t : State} {k : Nat} {sp falls empty : Bool} {srcs dsts : List Opnd} {m : Word}
    (h : s.Clear k sp falls empty srcs dsts m t) : Looks s t := State.maskOf_looks h.2.2

theorem State.loadPiece_looks (s : State) (r : Reader) (w : View) (b : Bool) (a n : Nat) :
    Looks s (s.loadPiece r w b a n).2.2.2 := by
  simp only [State.loadPiece]
  split <;> first | exact Looks.refl s | exact s.looks_free _

theorem State.loadIn_looks (r : Reader) (f : Nat) (s : State) (w : View) (a n : Nat) :
    Looks s (State.loadIn r f s w a n).2.2 := by
  induction f generalizing s w a n with
  | zero => exact Looks.refl s
  | succ f ih =>
    simp only [State.loadIn]
    split
    · exact Looks.refl s
    · exact (State.loadPiece_looks s r w false a _).trans (ih _ _ _ _)

theorem State.loadBytes_looks (s : State) (k a n : Nat) : Looks s (s.loadBytes k a n).2 := by
  simp only [State.loadBytes]
  exact ((State.loadIn_looks _ _ s _ a n).trans (State.looks_setCore _ k (State.core _ k).tlb _)).trans (State.readReturn_looks _ _)

theorem State.loadCap_looks (s : State) (k a : Nat) : Looks s (s.loadCap k a).2.2 := by
  simp only [State.loadCap]
  exact ((State.loadPiece_looks s _ _ true a 16).trans (State.looks_setCore _ k (State.core _ k).tlb _)).trans (State.readReturn_looks _ _)

theorem State.loadSpan_looks (k : Nat) (l : List (Word × Nat × Nat)) (s : State) : Looks s (State.loadSpan k l s).2 := by
  induction l generalizing s with
  | nil => exact Looks.refl s
  | cons p t ih => exact (State.loadBytes_looks s k _ _).trans (ih _)

end Sys2Proof.Machine
end

