-- ==== Sys2Proof/Tests/Slice0.lean ====
section
/-! SUPPORT. Tests of the model: words written out from the spec's encodings (15 R242-R254), ill-formed terms that the checks of a word
refuse, and for each statement a concrete state and operands that meet its hypotheses, with what then happens. -/

namespace Sys2Proof.Tests

open Sys2Proof Sys2Proof.Machine

set_option maxRecDepth 20000
set_option Elab.async false

/-! ### The states of the tests -/

/-- The answer of an operation meets `p`. -/
def gives {α : Type} (r : Res α) (p : α → Bool) : Bool := match r with | .ok a => p a | .error _ => false

/-- The operation raises this fault at this address. -/
def raises {α : Type} (r : Res α) (f : FCode) (a : Word) : Bool := match r with
  | .error (.fault g b) => decide (g = f) && decide (b = a)
  | _ => false

/-- The operation waits so. -/
def waits {α : Type} (r : Res α) (w : Wait) : Bool := match r with | .error (.wait v _) => decide (v = w) | _ => false

/-- The outcome is a next state that meets `p`. -/
def next (o : Out) (p : State → Bool) : Bool := match o with | .next t => p t | _ => false

/-- The outcome is that next state. -/
def isNext (o : Out) (t : State) : Bool := next o (fun u => decide (u = t))

/-- The word with these operands may take its effect in `s`, its live mask being `m` and leaving `s1` (`State.Clear`, evaluated). -/
def clear (s : State) (sp falls empty : Bool) (srcs dsts : List Opnd) (p : Word → State → Bool) : Bool :=
  !(s.core s.cur).queuesBad (sp || empty) srcs dsts && decide ((s.core s.cur).placement sp falls = none) &&
    gives (s.maskOf s.cur sp none) (fun r => p r.1 r.2)

/-- `clear` says what `State.Clear` says. -/
theorem test_clear_is_Clear (s : State) (sp falls empty : Bool) (srcs dsts : List Opnd) (p : Word → State → Bool)
    (h : clear s sp falls empty srcs dsts p = true) : ∃ m s1, s.Clear s.cur sp falls empty srcs dsts m s1 ∧ p m s1 = true := by
  simp only [clear, gives, Bool.and_eq_true, Bool.not_eq_true', decide_eq_true_eq] at h
  obtain ⟨⟨hq, hp⟩, hm⟩ := h
  split at hm
  · next r hr => exact ⟨r.1, r.2, ⟨hq, hp, hr⟩, hm⟩
  · cases hm

/-- Register values of the tests. -/
def regs : VState :=
  { VState.fresh with
    x := [(1, XReg.plain 20), (2, XReg.plain 6), (3, XReg.plain (BitVec.ofInt 64 (-7))), (4, ⟨XReg.ofWords 0x41000 (capHi 63 0 0 0x7F false 0) true |>.val, true⟩)],
    y := [(1, 3)], l0 := 9 }

/-- A firing of context 1 on core 0, running at 0x10000 with a PCC that covers all of memory. -/
def core0 : Core :=
  { Core.fresh with
    ctx := some 1, firing := some (Firing.new (.actor ⟨1, 0⟩) 2 none false [] [] []), run := .running, pc := 0x10000,
    pcc := XReg.ofWords 0x10000 (capHi 63 0 0 0b100100 false 0) true, vs := regs, view := State.reset.newView,
    tlb := [⟨1, 0, 0, 1, 0x100000, true, false, true⟩, ⟨1, 0, 0, 4, 0x200000, true, true, false⟩] }

/-- One core, one live context. -/
def one : State := { State.reset with cores := [(0, core0)], ctxs := [(1, { Ctx.fresh with state := .live })] }

/-! ### Integer arithmetic, operands (16 R271-R284) -/

/-- A register word with destination x5 and sources x3 (−7) and x2 (6). -/
def fr : FR := ⟨false, 0, .x 5, .x 3, .x 2⟩

/-- Each two-source form completes with the value of its row. -/
theorem test_two_source_completes : (Sys2Proof.Claims.twoSource.all fun p =>
    clear one false true false [.x 3, .x 2] [.x 5] fun m s1 => gives (s1.src 0 (.x 3)) fun a => gives (a.2.src 0 (.x 2)) fun b =>
      gives (b.2.put 0 (.x 5) (p.2 a.1 b.1)) fun s4 => isNext (exec (p.1 fr) one) (one.after s4 false m)) = true := by decide +kernel

theorem test_add_wraps : next (exec (.add ⟨false, 0, .x 5, .x 3, .x 1⟩) one) (fun t => (t.core 0).vs.getX 5 = XReg.plain 13) = true := by
  decide +kernel

theorem test_div_truncates : next (exec (.div fr) one) (fun t => (t.core 0).vs.getX 5 = XReg.plain (BitVec.ofInt 64 (-1))) = true := by
  decide +kernel

theorem test_div_by_zero : (clear one false true false [.x 3, .imm 0] [.x 5] fun _ s1 => gives (s1.src 0 (.x 3)) fun a =>
    gives (a.2.src 0 (.imm 0)) fun b => b.1 = 0 &&
      [Instr.div, .rem, .divu, .remu].all fun i => isNext (exec (i ⟨false, 0, .x 5, .x 3, .imm 0⟩) one) (one.faults .divzero 0 .read)) = true := by
  decide +kernel

theorem test_div_most_negative : next (exec (.div ⟨false, 0, .x 5, .l 2, .imm (-1)⟩) (one.modVs 0 fun r => { r with l2 := BitVec.ofNat 64 (2 ^ 63) }))
    (fun t => (t.core 0).vs.getX 5 = XReg.plain (BitVec.ofNat 64 (2 ^ 63))) = true := by decide +kernel

theorem test_one_source_completes : (clear one false true false [.x 3] [.x 5] fun m s1 => gives (s1.src 0 (.x 3)) fun a =>
    [(Instr.clz, (0 : Word)), (.ctz, 0), (.popc, 62), (.brev, BitVec.ofNat 64 0x9FFFFFFFFFFFFFFF), (.bswap, BitVec.ofNat 64 0xF9FFFFFFFFFFFFFF),
      (.mov, BitVec.ofInt 64 (-7))].all fun p =>
      gives (a.2.put 0 (.x 5) p.2) fun t => isNext (exec (p.1 fr) one) (one.after t false m)) = true := by decide +kernel

theorem test_clz_of_zero : next (exec (.clz ⟨false, 0, .x 5, .x 0, .x 0⟩) one) (fun t => (t.core 0).vs.getX 5 = XReg.plain 64) = true := by
  decide +kernel

theorem test_sel_reads_three : (clear one false true false [.x 1, .x 2, .x 0] [.x 5] fun m s1 => gives (s1.src 0 (.x 1)) fun a =>
    gives (a.2.src 0 (.x 2)) fun b => gives (b.2.src 0 (.x 0)) fun c => gives (c.2.put 0 (.x 5) 6) fun t =>
      isNext (exec (.sel ⟨false, 0, .x 5, .x 1, .x 2, .x 0⟩) one) (one.after t false m)) = true := by decide +kernel

/-- INS of 4 bits at place 8: x2's 6 into x1's 20. -/
theorem test_ins_completes : (let s := one.modVs 0 fun r => r.setY 2 264
    clear s false true false [.x 2, .y 2] [.x 1] fun m s1 => gives (s1.src 0 (.x 2)) fun a => gives (a.2.src 0 (.y 2)) fun b =>
      gives (b.2.src 0 (.x 1)) fun o => gives (o.2.put 0 (.x 1) 0x614) fun t =>
        isNext (exec (.ins ⟨false, 0, .x 1, .x 2, .y 2⟩) s) (s.after t false m)) = true := by decide +kernel

theorem test_immediates_complete : (clear one false true false [.x 3] [.x 5] fun m s1 => gives (s1.src 0 (.x 3)) fun a =>
    [(Instr.addi, BitVec.ofInt 64 (-2)), (.andi, 1), (.ori, BitVec.ofInt 64 (-3)), (.xori, BitVec.ofInt 64 (-4)), (.cmplti, 1),
      (.movi, 5), (.movhi, BitVec.ofNat 64 (5 * 2 ^ 32)), (.shli, BitVec.ofInt 64 (-224)), (.shri, BitVec.ofNat 64 (2 ^ 59 - 1)),
      (.shrai, BitVec.ofInt 64 (-1))].all fun p =>
      gives (a.2.put 0 (.x 5) p.2) fun t => isNext (exec (p.1 ⟨false, 0, .x 5, .x 3, 5⟩) one) (one.after t false m)) = true := by decide +kernel

/-- The shift amounts 63, 64 and −1. -/
theorem test_shift_amounts : ([Instr.shli, .shri, .shrai].all fun i =>
    !isNext (exec (i ⟨false, 0, .x 5, .x 3, 63⟩) one) (one.faults .illegal 0 .read) &&
      [64, -1].all fun n => isNext (exec (i ⟨false, 0, .x 5, .x 3, n⟩) one) (one.faults .illegal 0 .read)) = true := by decide +kernel

/-- A pending XIMM makes a 52-bit immediate (15 R256). -/
theorem test_ximm_immediate : next (exec (.movi ⟨false, 0, .x 5, .x 0, 0x00001⟩) (one.modCore 0 fun c => { c with pfx := some ⟨some 0x80000000, none, 0xFFF8⟩ }))
    (fun t => (t.core 0).vs.getX 5 = XReg.plain (BitVec.ofNat 64 0xFFF8000000000001)) = true := by decide +kernel

theorem test_lq_source : gives ((one.modCore 0 fun c => { c with lq := [77, 5] }).src 0 (.port 5)) (fun r => r.1 = 77 && (r.2.core 0).lq = [5]) = true := by
  decide +kernel

theorem test_put_targets : (gives (one.put 0 (.x 5) 1) (fun t => (t.core 0).vs.l0 = 1 && (t.core 0).vs.l1 = 9) && gives (one.put 0 (.y 5) 1) (fun _ => true) &&
    gives (one.put 0 (.l 0) 1) (fun t => (t.core 0).vs.l1 = 0) && gives (one.put 0 .sink 1) (fun _ => true) && gives (one.put 0 (.port 6) 1) (fun _ => true)) = true := by
  decide +kernel

/-- x0 discards a write, which still shifts the l file. -/
theorem test_x0_discards : gives (one.put 0 (.x 0) 1) (fun t => (t.core 0).vs.getX 0 = XReg.zero && (t.core 0).vs.l0 = 1) = true := by decide +kernel

/-! ### Capabilities (16 R285-R292) -/

/-- The state with these capabilities in x6 and x7. -/
def caps (a b : XReg) : State := one.modVs 0 fun r => (r.setX 6 a).setX 7 b

/-- A capability over 0x40000 to 0x41000 at 0x40010 with these permissions, unsealed or sealed under a type. -/
def capOf (perms : Nat) (sealed : Bool) (otype : Nat) : XReg := XReg.ofWords 0x40010 (capHi 0 0x10 0xFF0 perms sealed otype) true

theorem test_getters_complete : (let s := caps (capOf 3 false 0) XReg.zero
    clear s false true false [] [.x 5] fun m s1 =>
      [(Instr.cgeta, (0x40010 : Word)), (.cgetb, 0x40000), (.cgetl, 0x1000), (.cgetp, 3), (.ctag, 1), (.csub, 0x40010)].all fun p =>
        gives (s1.put 0 (.x 5) p.2) fun t => isNext (exec (p.1 ⟨false, 0, .x 5, .x 6, .x 7⟩) s) (s.after t false m)) = true := by decide +kernel

theorem test_addresses_change : (let s := caps (capOf 3 false 0) XReg.zero
    clear s false true false [.x 1] [] fun _ s1 => gives (s1.src 0 (.x 1)) fun b => b.1 = 20 &&
      next (exec (.cseta ⟨false, 0, .x 5, .x 6, .x 1⟩) s) (fun t => !((t.core 0).vs.getX 5).tag) &&
      next (exec (.cinc ⟨false, 0, .x 5, .x 6, 0xFF0⟩) s) (fun t => ((t.core 0).vs.getX 5).tag && ((t.core 0).vs.getX 5).top = 0x41000) &&
      next (exec (.cclr ⟨false, 0, .x 5, .x 6, .x 0⟩) s) (fun t => (t.core 0).vs.getX 5 = XReg.plain 0x40010)) = true := by decide +kernel

theorem test_sealed_stays : (let s := caps (capOf 3 true 9) XReg.zero
    clear s false true false [.x 1] [] fun _ _ =>
      [exec (.cseta ⟨false, 0, .x 5, .x 6, .x 1⟩) s, exec (.cinc ⟨false, 0, .x 5, .x 6, 1⟩) s, exec (.cclr ⟨false, 0, .x 5, .x 6, .x 0⟩) s,
        exec (.csetb ⟨false, 0, .x 5, .x 6, .x 1⟩) s, exec (.candp ⟨false, 0, .x 5, .x 6, .x 1⟩) s].all
        fun o => isNext o (s.faults .capPerm 0x40010 .read)) = true := by decide +kernel

theorem test_bounds_narrow : (let s := caps (capOf 3 false 0) XReg.zero
    clear s false true false [.x 1] [] fun _ s1 => gives (s1.src 0 (.x 1)) fun b => b.1 = 20 &&
      next (exec (.csetb ⟨false, 0, .x 5, .x 6, .x 1⟩) s) (fun t => ((t.core 0).vs.getX 5).base = 0x40010 && ((t.core 0).vs.getX 5).top = 0x40024) &&
      next (exec (.candp ⟨false, 0, .x 5, .x 6, .imm 2⟩) s) (fun t => ((t.core 0).vs.getX 5).perms = 2)) = true := by decide +kernel

/-- The last length that fits, and one byte more. -/
theorem test_bounds_edge : (let s := (caps (capOf 3 false 0) XReg.zero).modVs 0 fun r => (r.setY 2 0xFF0).setY 3 0xFF1
    next (exec (.csetb ⟨false, 0, .x 5, .x 6, .y 2⟩) s) (fun t => ((t.core 0).vs.getX 5).tag) &&
      isNext (exec (.csetb ⟨false, 0, .x 5, .x 6, .y 3⟩) s) (s.faults .capBounds 0x40010 .read) &&
      isNext (exec (.csetb ⟨false, 0, .x 5, .x 0, .y 3⟩) s) (s.faults .capTag 0 .read)) = true := by decide +kernel

/-- CLSCAP from x0, and past the end of the local store; 2^20 bytes from offset 0 fit. -/
theorem test_local_capability : (let s := one.modVs 0 fun r => (r.setY 2 (BitVec.ofNat 64 (2 ^ 40))).setY 3 (BitVec.ofNat 64 (2 ^ 40 + 1))
    next (exec (.clscap ⟨false, 0, .x 5, .x 0, .y 2⟩) s) (fun t => ((t.core 0).vs.getX 5).top = 2 ^ 20 && ((t.core 0).vs.getX 5).perms = 0b10011) &&
      isNext (exec (.clscap ⟨false, 0, .x 5, .x 0, .y 3⟩) s) (s.faults .capBounds 1 .read) &&
      isNext (exec (.clscap ⟨false, 0, .x 5, .x 1, .y 2⟩) s) (s.faults .capTag 20 .read) &&
      isNext (exec (.clscap ⟨false, 0, .x 5, .x 4, .y 3⟩) s) (s.faults .capBounds 1 .read)) = true := by decide +kernel

/-- A handle of context 1 at index 5, generation 2, check 9, key type 7, over two words at 0x10000. -/
def keyed (s : State) : State := s.modCtx 1 fun x => { x with handles := [(5, { HEntry.empty with state := .live, gen := 2, check := 9, codeva := 0x10000, words := 2, ktype := 7, owners := 1 })] }

/-- The handle's value: index, generation, check (12 R203). -/
def handleWord : Word := BitVec.ofNat 64 (5 + 2 * 2 ^ 12 + 9 * 2 ^ 32)

/-- A capability of that handle: the whole range, permission 6. -/
def handleCap : XReg := XReg.ofWords handleWord (capHi 63 0 0 0b1000000 false 0) true

theorem test_seal_and_unseal : (let s := keyed (caps (capOf 3 false 0) handleCap)
    clear s false true false [] [] fun _ _ => s.handlePasses 0 (HRef.of handleWord) &&
      next (exec (.cseal ⟨false, 0, .x 5, .x 6, .x 7⟩) s) (fun t => ((t.core 0).vs.getX 5).otype = 7 && ((t.core 0).vs.getX 5).sealed &&
        next (exec (.cunseal ⟨false, 0, .x 5, .x 5, .x 7⟩) t) (fun u => (u.core 0).vs.getX 5 = capOf 3 false 0))) = true := by decide +kernel

theorem test_seal_refusals : (let f : FR := ⟨false, 0, .x 5, .x 6, .x 7⟩
    isNext (exec (.cseal f) (keyed (caps XReg.zero handleCap))) ((keyed (caps XReg.zero handleCap)).faults .capTag 0 .read) &&
      isNext (exec (.cseal f) (keyed (caps (capOf 3 false 0) XReg.zero))) ((keyed (caps (capOf 3 false 0) XReg.zero)).faults .capTag 0 .read) &&
      isNext (exec (.cunseal f) (keyed (caps (capOf 3 false 0) handleCap))) ((keyed (caps (capOf 3 false 0) handleCap)).faults .capPerm 0x40010 .read) &&
      isNext (exec (.cunseal f) (keyed (caps (capOf 3 true 8) handleCap))) ((keyed (caps (capOf 3 true 8) handleCap)).faults .capPerm 0x40010 .read) &&
      isNext (exec (.cseal f) (caps (capOf 3 false 0) handleCap)) ((caps (capOf 3 false 0) handleCap).faults .capPerm handleWord .read)) = true := by decide +kernel

/-! ### Branches (16 R293-R298) -/

theorem test_branches : (clear one false false false [.x 3, .x 2] [] fun m s1 => gives (s1.src 0 (.x 3)) fun a => gives (a.2.src 0 (.x 2)) fun b =>
    [(Instr.beq, false), (.bne, true), (.blt, true), (.bge, false), (.bltu, false), (.bgeu, true)].all fun p =>
      isNext (exec (p.1 ⟨false, 0, false, .x 3, .x 2, -2⟩) one) (b.2.finished 0 false m (if p.2 then 0xFFF0 else 0x10008))) = true := by decide +kernel

theorem test_branch_past_pcc : (let s := one.modCore 0 fun c => { c with pcc := codeCap 0x10000 1 }
    clear s false false false [.x 3, .x 2] [] fun _ _ =>
      isNext (exec (.bne ⟨false, 0, false, .x 3, .x 2, 1⟩) s) (s.faults .capBounds 0x10008 .fetch) &&
        isNext (exec (.bne ⟨false, 0, false, .x 3, .x 2, -1⟩) s) (s.faults .capBounds 0xFFF8 .fetch) &&
        next (exec (.bne ⟨false, 0, false, .x 3, .x 2, 0⟩) s) (fun t => (t.core 0).pc = 0x10000)) = true := by decide +kernel

theorem test_k_branches : (clear one false false false [] [] fun _ s1 =>
    next (exec (.bk ⟨false, 0, false, .k 15, .x 0, 3⟩) one) (fun t => (t.core 0).pc = if s1.kreg 0 15 then 0x10018 else 0x10008) &&
      next (exec (.bnk ⟨false, 0, false, .k 15, .x 0, 3⟩) one) (fun t => (t.core 0).pc = if s1.kreg 0 15 then 0x10008 else 0x10018) &&
      next (exec (.jmp ⟨false, 0, false, .x 0, .x 0, 3⟩) one) (fun t => (t.core 0).pc = 0x10018)) = true := by decide +kernel

theorem test_loop_counts : (clear one false false false [.y 1] [] fun _ s1 => gives (s1.src 0 (.y 1)) fun a => a.1 = 3 &&
    next (exec (.loop ⟨false, 0, false, .y 1, .x 0, -1⟩) one) (fun t => (t.core 0).pc = 0xFFF8 && (t.core 0).vs.getY 1 = 2)) = true := by decide +kernel

theorem test_loop_ends : next (exec (.loop ⟨false, 0, false, .y 1, .x 0, -1⟩) (one.modVs 0 fun r => r.setY 1 1)) (fun t => (t.core 0).pc = 0x10008 && (t.core 0).vs.getY 1 = 0) = true := by
  decide +kernel

theorem test_jal_links : next (exec (.jal ⟨false, 0, false, .x 5, .x 0, 10⟩) one)
    (fun t => (t.core 0).pc = 0x10050 && ((t.core 0).vs.getX 5).addr = 0x10008 && ((t.core 0).vs.getX 5).tag && (t.core 0).vs.l0 = 0x10008) = true := by decide +kernel

theorem test_jr_checks : (let at_ (c : XReg) : State := caps c XReg.zero
    let jr (c : XReg) : Out := exec (.jr ⟨false, 0, .x 5, .x 6, .x 0⟩) (at_ c)
    let code (a : Word) : XReg := XReg.ofWords a (capHi 63 0 0 0b100100 false 0) true
    next (jr (code 0x40010)) (fun t => (t.core 0).pc = 0x40010 && (t.core 0).pcc = code 0x40010) &&
      isNext (jr XReg.zero) ((at_ XReg.zero).faults .capTag 0 .fetch) &&
      isNext (jr (capOf 3 false 0)) ((at_ (capOf 3 false 0)).faults .capPerm 0x40010 .fetch) &&
      isNext (jr ((codeCap 0x40000 1).move 0x40008)) ((at_ ((codeCap 0x40000 1).move 0x40008)).faults .capBounds 0x40008 .fetch) &&
      isNext (jr (code 0x40012)) ((at_ (code 0x40012)).faults .align 0x40012 .fetch)) = true := by decide +kernel

/-! ### Prefixes, traps, CSRs, fences (15 R256-R260, 20 R383-R395) -/

/-- A register word with no operands. -/
def none_ : FR := ⟨false, 0, .x 0, .x 0, .x 0⟩

theorem test_nop_goes_on : (clear one false true false [] [] fun m s1 => isNext (exec (.nop none_) one) (one.after s1 false m)) = true := by decide +kernel

theorem test_ord_joins : next (exec (.ord ⟨.clu, .ar⟩) one) (fun t => (t.core 0).pfx = some ⟨none, some ⟨.clu, .ar⟩, 0x10000⟩ && (t.core 0).pc = 0x10008) = true := by
  decide +kernel

/-- A state whose TVEC names the handler at 0x10000 of `keyed`. -/
def armed (s : State) : State := (keyed s).modVs 0 fun r => { r with csr := { r.csr with tvec := handleWord } }

theorem test_trap_without_tvec : (clear one false false false [] [] fun _ _ => isNext (exec (.trap ⟨false, 0, .x 0, .x 0, 5⟩) one) (one.faults .trapd 5 .fetch) &&
    isNext (exec (.brk ⟨false, 0, .x 0, .x 0, 5⟩) one) (one.faults .brk 5 .fetch)) = true := by decide +kernel

theorem test_trap_enters : (clear (armed one) false false false [] [] fun m s1 => s1.handlePasses 0 (HRef.of handleWord) &&
    isNext (exec (.trap ⟨false, 0, .x 0, .x 0, 5⟩) (armed one)) ((Sys2Proof.Claims.trapped s1 0 0x10008 0 5).finished 0 false m 0x10000) &&
    isNext (exec (.brk ⟨false, 0, .x 0, .x 0, 5⟩) (armed one)) ((Sys2Proof.Claims.trapped s1 0 0x10008 1 5).finished 0 false m 0x10000)) = true := by
  decide +kernel

theorem test_trap_in_handler : (let s := (armed one).modVs 0 fun r => { r with csr := { r.csr with estat := 3 } }
    clear s false false false [] [] fun _ _ => isNext (exec (.trap ⟨false, 0, .x 0, .x 0, 5⟩) s) (s.faults .illegal 0 .fetch) &&
      isNext (exec (.brk ⟨false, 0, .x 0, .x 0, 5⟩) s) (s.faults .brk 5 .fetch)) = true := by decide +kernel

theorem test_trap_stale : (let s := one.modVs 0 fun r => { r with csr := { r.csr with tvec := handleWord } }
    clear s false false false [] [] fun _ s1 => !s1.handlePasses 0 (HRef.of handleWord) &&
      isNext (exec (.trap ⟨false, 0, .x 0, .x 0, 5⟩) s) (s.faults .handleStale handleWord .fetch)) = true := by decide +kernel

/-- A trap and its return: control comes back to the word after TRAP, ACTIVE clear. -/
theorem test_eret_returns : next (exec (.trap ⟨false, 0, .x 0, .x 0, 5⟩) (armed one)) (fun t =>
    clear t false false false [] [] fun _ _ => next (exec (.eret none_) t) fun u => (u.core 0).pc = 0x10008 && !(u.core 0).vs.csr.estat.getLsbD 0) = true := by
  decide +kernel

theorem test_eret_checks : (let at_ (epcl epch estat : Word) : State := one.modVs 0 fun r => { r with csr := { r.csr with epcl, epch, estat } }
    let hi : Word := capHi 0 0x10 0x10 0b100100 false 0
    isNext (exec (.eret none_) one) (one.faults .illegal 0 .fetch) &&
      isNext (exec (.eret none_) (at_ 0x10010 hi 1)) ((at_ 0x10010 hi 1).faults .capTag 0x10010 .fetch) &&
      isNext (exec (.eret none_) (at_ 0x10010 (capHi 0 0x10 7 0b100100 false 0) 3)) ((at_ 0x10010 (capHi 0 0x10 7 0b100100 false 0) 3).faults .capBounds 0x10010 .fetch) &&
      isNext (exec (.eret none_) (at_ 0x10012 hi 3)) ((at_ 0x10012 hi 3).faults .align 0x10012 .fetch) &&
      next (exec (.eret none_) (at_ 0x10010 hi 0x203)) (fun t => (t.core 0).vs.csr.estat = 0x206)) = true := by decide +kernel

theorem test_trapd_edges : ([(0, FCode.illegal), (1, .illegal), (2, .prefixBad), (0x19, .mcheck), (0x1A, .illegal)].all fun p =>
    isNext (exec (.trapd ⟨false, 0, .x 0, .x 0, p.1⟩) one) (one.faults p.2 0 .fetch)) = true := by decide +kernel

theorem test_csr_reads : (clear one false true false [.x 0] [.x 5] fun m s1 => [(0x000, (0 : Word)), (0x001, 2), (0x019, -1), (0x039, 65536), (0x063, 200)].all fun p =>
    gives (s1.put 0 (.x 5) p.2) fun t => isNext (exec (.csrr ⟨false, 0, .x 5, .x 0, p.1⟩) one) (one.after t false m)) = true := by decide +kernel

/-- FSTAT keeps six bits; NBV takes 2, and 1 where the feature is on (the reset's features have it); a read-only number and one outside the map. -/
theorem test_csr_writes : (clear one false true false [.x 3] [.x 5] fun m s1 => gives (s1.src 0 (.x 3)) fun v =>
    (gives ((Sys2Proof.Claims.withCsr v.2 0 (fun c => { c with fstat := 0x39 })).put 0 (.x 5) 0) fun t =>
      isNext (exec (.csrw ⟨false, 0, .x 5, .x 3, 0⟩) one) (one.after t false m)) &&
    isNext (exec (.csrw ⟨false, 0, .x 5, .x 3, 1⟩) one) (one.faults .nbvUnsupported 9 .read) &&
    [0x002, 0x012, 0x063, 0x003, 0x007, 0x009, 0x00F, 0x013, 0x017, 0x01A, 0x01F, 0x024, 0x02F, 0x032, 0x037, 0x03A, 0x03F, 0x042, 0x047, 0x04C,
        0x05F, 0x064, 0x06F, 0x078, 0x0FF, 0x180, 0xFFF].all fun n =>
      isNext (exec (.csrc ⟨false, 0, .x 5, .x 3, n⟩) one) (one.faults .illegal 0 .read)) = true := by decide +kernel

theorem test_csr_nbv : (clear one false true false [.imm 2] [.x 5] fun m s1 => gives (s1.src 0 (.imm 2)) fun v =>
    gives ((Sys2Proof.Claims.withCsr v.2 0 (fun c => { c with nbv := 2 })).put 0 (.x 5) 2) fun t =>
      isNext (exec (.csrw ⟨false, 0, .x 5, .imm 2, 1⟩) one) (one.after t false m)) = true := by decide +kernel

theorem test_csr_breakpoint : (clear one false true false [.x 3] [.x 5] fun m s1 => gives (s1.src 0 (.x 3)) fun v =>
    gives ((Sys2Proof.Claims.withCsr v.2 0 (fun c => { c with brka := [(7, 0x00FFFFFFFFFFFFF9)] })).put 0 (.x 5) 0) fun t =>
      isNext (exec (.csrw ⟨false, 0, .x 5, .x 3, 0x077⟩) one) (one.after t false m)) = true := by decide +kernel

/-- The range of x4 (0x41000 on), 20 bytes, and the checks that its length can fail. -/
theorem test_fences : (clear one false true false [.x 1] [] fun m s1 => gives (s1.src 0 (.x 1)) fun len => Sys2Proof.Claims.rangeFault (one.cap 0 (.x 4)) len.1 = none &&
    (match len.2.boundary 0 none with
      | some s3 => next (exec (.fenceCode ⟨false, 0, .x 0, .x 4, .x 1⟩) one) (fun t => t = one.after { s3 with hist := [] } false m) &&
          next (exec (.ptsync ⟨false, 0, .x 0, .x 4, .x 1⟩) one) (fun t => (t.core 0).pc = 0x10008 && (t.core 0).tlb = [⟨1, 0, 0, 1, 0x100000, true, false, true⟩])
      | none => false)) = true := by decide +kernel

theorem test_fence_checks : ([(XReg.zero, FCode.capTag, (0 : Word)), (capOf 0b100111 true 3, .capPerm, 0x40010), (capOf 0b100000 false 0, .capPerm, 0x40010),
      ((capOf 0b100111 false 0).move 0x40FF0, .capBounds, 0x40FF0)].all fun p =>
    isNext (exec (.fenceCode ⟨false, 0, .x 0, .x 6, .x 1⟩) (caps p.1 XReg.zero)) ((caps p.1 XReg.zero).faults p.2.1 p.2.2 .read) &&
      isNext (exec (.ptsync ⟨false, 0, .x 0, .x 6, .x 1⟩) (caps p.1 XReg.zero)) ((caps p.1 XReg.zero).faults p.2.1 p.2.2 .read)) = true := by decide +kernel

theorem test_stopw_waits : (clear one false true false [] [] fun _ s1 => match s1.boundary 0 none with
    | some s2 => (s2.ctx 1).stopper = none && next (exec (.stopw none_) one) fun t => (t.core 0).run = .waiting .world false && (t.ctx 1).stopper = some 0
    | none => false) = true := by decide +kernel

theorem test_stopped_world : (let s := one.modCtx 1 fun x => { x with state := .stopped, stopper := some 0 }
    clear s false true false [] [] fun m s1 => match s1.boundary 0 none with
    | some s2 => isNext (exec (.stopw none_) s) (s.after s2 false m) && next (exec (.resumew none_) s) fun t => (t.ctx 1).state = .live && (t.core 0).pc = 0x10008
    | none => false) = true := by decide +kernel

theorem test_resumew_of_live : (clear one false true false [] [] fun m s1 => match s1.boundary 0 none with
    | some s2 => isNext (exec (.resumew none_) one) (one.after s2 false m)
    | none => false) = true := by decide +kernel

/-- WAITT with time 20: for stamp 20 it completes, for 21 it waits. -/
theorem test_waitt : (let s : State := { one with time := 20 }
    clear s false true false [.x 1] [] fun m s1 => gives (s1.waitSrc 0 (.x 1)) fun w => match w.2.boundary 0 none with
    | some s3 => isNext (exec (.waitt ⟨false, 0, .x 0, .x 1, .x 0⟩) s) (s.after s3 false m) &&
        next (exec (.waitt ⟨false, 0, .x 0, .imm 21, .x 0⟩) s) (fun t => (t.core 0).run = .waiting (.stamp 21) false)
    | none => false) = true := by decide +kernel

/-! ### The phase buffer and boundaries (17 R302, 21 R405) -/

/-- A store of n bytes at 0x200000. -/
def store (n : Nat) : Entry := .store 0x40000 0x200000 (List.replicate n 7) none

/-- A buffer of 255 entries takes one more; of 256 it does not, and the firing commits. -/
theorem test_buffer_fills : (let at_ (n : Nat) : State := one.modCore 0 fun c => { c with buffer := List.replicate n (store 1) }
    gives ((at_ 255).enter 0 [store 1]) (fun t => (t.core 0).buffer.length = 256 && !(t.core 0).committed) &&
      gives ((at_ 256).enter 0 [store 1]) (fun t => (t.core 0).buffer.length = 1 && (t.core 0).committed && t.byte 0x200000 = 7)) = true := by decide +kernel

theorem test_order_boundaries : (let at_ (o : Strength) : State := one.modCore 0 fun c => { c with buffer := [store 1], pfx := some ⟨none, some ⟨.die, o⟩, 0xFFF8⟩ }
    gives ((at_ .acq).enterOrdered 0 [store 2]) (fun t => (t.core 0).buffer = []) &&
      gives ((at_ .rel).enterOrdered 0 [store 2]) (fun t => (t.core 0).buffer = [] && t.byte 0x200001 = 7) &&
      gives ((at_ .ar).enterOrdered 0 [store 2]) (fun t => (t.core 0).buffer = [])) = true := by decide +kernel

theorem test_safe_point : (match one.boundary 0 none with
    | some s1 => (s1.core 0).preempt = none && (s1.ctx 1).state = .live &&
        (let t := one.safePoint 0 (BitVec.ofNat 64 (1 + 2 ^ 33)) 0x10008 false
         (t.core 0).vs.l0 = 0 && (match (t.core 0).point.resume with | some r => r.y = [(1, 3)] && r.x.length = 3 && r.pc = 0x10008 | none => false))
    | none => false) = true := by decide +kernel

theorem test_boundary_publishes : (let s := one.modCore 0 fun c => { c with buffer := [store 2, .store 0x40001 0x200001 [9] none] }
    match s.boundary 0 none with
    | some t => (t.core 0).buffer = [] && t.byte 0x200000 = 7 && t.byte 0x200001 = 9 && t.byte 0x200002 = 0
    | none => false) = true := by decide +kernel

theorem test_end_and_halt : ((match one.boundary 0 none with | some s1 => isNext (exec (.endFiring none_) one) (s1.endFiring 0) | none => false) &&
    next (exec (.halt none_) one) (fun t => (t.core 0).firing = none) && next (exec (.migrate ⟨false, 0, .x 0, .x 4, .x 0⟩) one) (fun _ => true)) = true := by decide +kernel

theorem test_end_with_lq : (let s := one.modCore 0 fun c => { c with lq := [1] }
    [exec (.endFiring none_) s, exec (.halt none_) s, exec (.yieldFiring { none_ with sp := true }) s, exec (.migrate ⟨false, 0, .x 0, .x 4, .x 0⟩) s].all
      fun o => isNext o (s.faults .illegal 0 .read)) = true := by decide +kernel

/-- The word at 0x10008, a live mask, is all zero in an empty memory. -/
theorem test_yield_suspends : (clear one true true true [] [] fun m s1 => isNext (exec (.yieldFiring { none_ with sp := true }) one) (s1.safePoint 0 m 0x10010 true) &&
    next (exec (.yieldFiring { none_ with sp := true }) one) fun t => (t.core 0).run = .idle && (t.core 0).firing = none) = true := by decide +kernel

/-- `one` meets what END, HALT and YIELD need to complete. -/
theorem test_endings_complete : ((one.core 0).lq = [] ∧ (one.core 0).sq = [] ∧ gives (.ok (one.boundary 0 none)) (fun b => b.any fun s1 => (s1.core 0).firing.isSome && (s1.core 0).preempt.isNone) = true ∧
    ((one.core 0).closed.map Entry.cost).sum + 4 ≤ 256 ∧ (((one.modCore 0 fun c => { c with buffer := c.closed ++ [.hostq ([0xFF, 0x10000, 0] ++ (List.range 5).map fun i => (c.vs.getX (i + 1)).addr)], hq := [] }).boundary 0 none).any
      fun s1 => (s1.core 0).firing.isSome) = true ∧ clear one true true true [] [] (fun _ s0 => (s0.boundary 0 none).any fun s1 => (s1.core 0).firing.isSome) = true) = True := by decide +kernel

/-! ### Messages, joins, events, the handler table (17 R299-R318) -/

/-- Core 0 serving group 0 of launch 3, a rectangle of 2 by 2 cores, with a group of 2 by 1; x4 reaches all of it. -/
def sent : State := one.modCore 0 fun c => { c with launch := some 3, ldim := 0x20002, gshape := 1 }

/-- The message target (1, 1) with handler index 9 (17 R299): permission 3. -/
def targetCap : XReg := XReg.ofWords 0x900010001 (capHi 63 0 0 0b1000 false 0) true

/-- A state with a target in x6 and another in x7. -/
def targets (a b : XReg) : State := sent.modVs 0 fun r => (r.setX 6 a).setX 7 b

theorem test_target_checks : ([(targetCap, (none : Option FCode)), (XReg.zero, some .capTag), (capOf 3 false 0, some .capPerm), (targetCap.move 0x10002, some .capBounds),
      (targetCap.move 0x20001, some .capBounds)].all fun p => Sys2Proof.Claims.targetFault (targets p.1 XReg.zero) p.1 true = p.2 &&
    (match p.2 with
      | some x => isNext (exec (.send ⟨false, 0, false, .x 0, .x 6, .x 1⟩) (targets p.1 XReg.zero)) ((targets p.1 XReg.zero).faults x p.1.addr .read) &&
          isNext (exec (.join ⟨false, 0, 4, 63, .x 0, .x 6, .x 0⟩) (targets p.1 XReg.zero)) ((targets p.1 XReg.zero).faults x p.1.addr .read) &&
          isNext (exec (.migrate ⟨false, 0, .x 0, .x 6, .x 0⟩) (targets p.1 XReg.zero)) ((targets p.1 XReg.zero).faults x p.1.addr .read)
      | none => true)) = true := by decide +kernel

theorem test_send_enters : (let s := targets targetCap XReg.zero
    clear s false true false [] [] fun m s1 =>
      let msg (k : MKind) (h : Nat) : Msg := { kind := k, hidx := h, regs := Sys2Proof.Claims.eight s 1, sender := 0, ctx := 1, launch := 3, born := 0, href := none }
      (gives (s1.enterOrdered 0 [.send ⟨3, 1, 1⟩ (msg .handler 9)]) fun t => isNext (exec (.send ⟨false, 0, false, .x 0, .x 6, .x 1⟩) s) (s.after t false m)) &&
      (gives (s1.enterOrdered 0 [.send ⟨3, 1, 1⟩ (msg .stream 0)]) fun t => isNext (exec (.send ⟨false, 0, true, .x 0, .x 6, .x 1⟩) s) (s.after t false m)) &&
      (gives (s1.enter 0 [.join ⟨3, 1, 1⟩ 5 63]) fun t => isNext (exec (.join ⟨false, 0, 4, 63, .x 0, .x 6, .x 0⟩) s) (s.after t false m)) &&
      (gives (s1.enter 0 [.hostq ((Sys2Proof.Claims.eight s 1).map XReg.addr)]) fun t => isNext (exec (.hostq ⟨false, 0, .x 0, .x 1, .x 0⟩) s) (s.after t false m))) = true := by
  decide +kernel

/-- SENDM to the group's two cores (LW 1), and to a subgroup that is wider than the group (LW 2). -/
theorem test_sendm_subgroup : (let s := targets targetCap XReg.zero
    clear s false true false [.imm 1] [] fun m s1 => gives (s1.src 0 (.imm 1)) fun w =>
      (gives (w.2.enter 0 [.sendm 1 { kind := .handler, hidx := 9, regs := Sys2Proof.Claims.eight s 1, sender := 0, ctx := 1, launch := 3, born := 0, href := none }]) fun t =>
        isNext (exec (.sendm ⟨false, 0, .x 0, .x 6, .x 1, .imm 1⟩) s) (s.after t false m)) &&
      isNext (exec (.sendm ⟨false, 0, .x 0, .x 6, .x 1, .imm 2⟩) s) (s.faults .capBounds 2 .read) &&
      isNext (exec (.sendm ⟨false, 0, .x 0, .x 6, .x 1, .imm 0x41⟩) s) (s.faults .capBounds 0x41 .read)) = true := by decide +kernel

/-- A firing with inputs: a join, then message 4. -/
def inputs : State := one.modCore 0 fun c =>
  { c with firing := some { Firing.new (.actor ⟨1, 0⟩) 2 none false [] [] [] with inputs := [.join 2, .msg 4] },
           inbox := [⟨4, ⟨.handler, 1, List.replicate 8 (XReg.plain 8), 0x405, 1, 3, 0, none⟩, none, true⟩] }

theorem test_recv_takes_message : (clear inputs false true false [] [] fun _ _ =>
    next (exec (.recv ⟨false, 0, .x 20, .x 0, .x 0⟩) inputs) fun t => (t.core 0).vs.getX 27 = XReg.plain 8 && (t.core 0).vs.l0 = 0x405 &&
      next (exec (.recv ⟨false, 0, .x 20, .x 0, .x 0⟩) t) fun u => (u.core 0).vs.getX 27 = XReg.zero && (u.core 0).vs.l0 = -1) = true := by decide +kernel

theorem test_fire_checks : (let at_ (c : XReg) : State := keyed (targets c XReg.zero)
    let fire (c : XReg) : Out := exec (.fire ⟨false, 0, .x 0, .x 6, .x 1⟩) (at_ c)
    clear (at_ handleCap) false true false [] [] fun _ _ => next (fire handleCap) (fun t => (t.core 0).buffer.length = 1 && ((t.ctx 1).handle 5).running = 1) &&
      isNext (fire XReg.zero) ((at_ XReg.zero).faults .capTag 0 .read) && isNext (fire targetCap) ((at_ targetCap).faults .capPerm targetCap.addr .read) &&
      isNext (fire (handleCap.move 6)) ((at_ (handleCap.move 6)).faults .handleStale 6 .read)) = true := by decide +kernel

theorem test_fire_full : (let s := (keyed (targets handleCap XReg.zero)).modCtx 1 fun x => { x with handles := [(5, { (x.handle 5) with running := 0xFFFF })] }
    isNext (exec (.fire ⟨false, 0, .x 0, .x 6, .x 1⟩) s) (s.faults .specFull handleWord .read)) = true := by decide +kernel

/-- JINIT of counter 5 with 20; HTSET and HTGET of index 4095 and 4096. -/
theorem test_jinit_and_handlers : (clear one false true false [.x 1] [] fun m s1 => gives (s1.src 0 (.x 1)) fun w =>
    gives (w.2.enter 0 [.jinit 5 .die 20 ((one.ctx 1).kernelAt 0x10000)]) fun t => isNext (exec (.jinit ⟨false, 0, .die, 5, .x 0, .x 1, .x 0⟩) one) (one.after t false m)) = true := by
  decide +kernel

theorem test_handler_table : (let s := one.modVs 0 fun r => (r.setY 2 4095).setY 3 4096
    clear s false true false [.y 2, .x 1] [] fun _ _ => isNext (exec (.htset ⟨false, 0, .x 0, .y 3, .x 1⟩) s) (s.faults .capBounds 4096 .read) &&
      isNext (exec (.htget ⟨false, 0, .x 5, .y 3, .x 0⟩) s) (s.faults .capBounds 4096 .read) &&
      next (exec (.htset ⟨false, 0, .x 0, .y 2, .x 1⟩) s) fun t => (t.core 0).buffer = [.htset 4095 20] &&
        next (exec (.htget ⟨false, 0, .x 5, .y 2, .x 0⟩) t) fun u => (u.core 0).vs.getX 5 = XReg.plain 0) = true := by decide +kernel

/-- An entry that was replaced after the phase began is still found. -/
theorem test_handler_of_phase : (let s := (one.modCtx 1 fun x => { x with handlers := [(7, 1)], oldHandlers := [(7, 33, 0)] })
    next (exec (.htget ⟨false, 0, .x 5, .imm 7, .x 0⟩) s) fun u => (u.core 0).vs.getX 5 = XReg.plain 33) = true := by decide +kernel

/-- A context whose home is this package, with event 20 set and event 6 clear. -/
def events : State := one.modCtx 1 fun x => { x with home := true, events := [(20, ⟨true, [], false⟩)] }

theorem test_event_entries : (clear one false true false [.x 1] [] fun m s1 => gives (s1.src 0 (.x 1)) fun w =>
    (gives (w.2.enter 0 [.event true 20]) fun t => isNext (exec (.evset ⟨false, 0, .x 0, .x 1, .x 0⟩) one) (one.after t false m)) &&
    (gives (w.2.enter 0 [.event false 20]) fun t => isNext (exec (.evclr ⟨false, 0, .x 0, .x 1, .x 0⟩) one) (one.after t false m))) = true := by decide +kernel

theorem test_evwait : (clear events false true false [.x 1] [] fun _ s1 => !s1.homeLost 1 20 && (gives (s1.waitSrc 0 (.x 1)) fun w => (w.2.boundary 0 none).isSome) &&
    next (exec (.evwait ⟨false, 0, .x 0, .x 1, .x 0⟩) events) (fun t => (t.core 0).pc = 0x10008) &&
    next (exec (.evwait ⟨false, 0, .x 0, .x 2, .x 0⟩) events) (fun t => (t.core 0).run = .waiting (.event 6 false) false && ((t.ctx 1).event 6).waiters = [.core 0])) = true := by
  decide +kernel

theorem test_evtest : (clear events false true false [.x 1] [.x 5] fun _ _ =>
    next (exec (.evtest ⟨false, 0, .x 5, .x 1, .x 0⟩) events) (fun t => (t.core 0).vs.getX 5 = XReg.plain 1) &&
    next (exec (.evtest ⟨false, 0, .x 5, .x 2, .x 0⟩) events) (fun t => (t.core 0).vs.getX 5 = XReg.plain 0)) = true := by decide +kernel

theorem test_event_home_lost : (let s : State := { events with dies := (List.range 8).map fun d => (d, { Die.fresh with lost := true }) }
    s.homeLost 1 20 && isNext (exec (.evwait ⟨false, 0, .x 0, .x 1, .x 0⟩) s) (s.faults .peerLost 20 .read) &&
      isNext (exec (.evtest ⟨false, 0, .x 5, .x 1, .x 0⟩) s) (s.faults .peerLost 20 .read)) = true := by decide +kernel

/-! ### Global memory (17 R301-R307, 21 R405-R407) -/

/-- x6 covers 0x40000 to 0x41000 for reading and writing; memory holds 0x89 at 0x200010. -/
def memory : State := { caps (capOf 0b100011 false 0) XReg.zero with mem := [(0x200010, 0x89)], tags := [] }

theorem test_ld_bytes : (clear memory false true false [] [.x 5] fun m s1 => gives (s1.translate 0 .read 0x40010) fun p => p.1 = 0x200010 &&
    gives (p.2.lead 0) fun s3 => let r := (s3.fresh 0).loadBytes 0 p.1 1
      gives (r.2.put 0 (.x 5) (BitVec.ofInt 64 (-0x77))) fun s5 => gives (s5.trail 0) fun s6 =>
        isNext (exec (.ld ⟨false, 0, .b, true, false, .x 5, .x 6, 0⟩) memory) (memory.after s6 false m)) = true := by decide +kernel

theorem test_ld_extends : (next (exec (.ld ⟨false, 0, .b, false, false, .x 5, .x 6, 0⟩) memory) (fun t => (t.core 0).vs.getX 5 = XReg.plain 0x89) &&
    next (exec (.ld ⟨false, 0, .q, false, false, .port 5, .x 6, 0⟩) memory) (fun t => (t.core 0).lq = [0x89])) = true := by decide +kernel

/-- The checks in their order, at the last bytes that fit and past them. -/
theorem test_access_checks : (let of_ (c : XReg) (off : BitVec 20) : Out := exec (.ld ⟨false, 0, .d, false, false, .x 5, .x 6, off⟩) (caps c XReg.zero)
    let ld (c : XReg) (off : BitVec 20) (x : FCode) (a : Word) : Bool := isNext (of_ c off) ((caps c XReg.zero).faults x a .read)
    let both := capOf 0b100011 false 0
    ld XReg.zero 0 .capTag 0 && ld (capOf 0b100011 true 2) 0 .capPerm 0x40010 && ld (capOf 0b100010 false 0) 0 .capPerm 0x40010 && ld (capOf 0b110011 false 0) 0 .capPerm 0x40010 &&
      ld both 0xFE9 .capBounds 0x40FF9 && ld both (-17) .capBounds 0x3FFFF && ld both 1 .align 0x40011 && !ld both 0xFE8 .capBounds 0x40FF8) = true := by decide +kernel

theorem test_vector_loads : (clear memory false true false [] [.v 3] fun _ s1 => (gives (s1.translateSpan 0 .read 0x40010 128) fun _ => true) &&
    next (exec (.ldv ⟨false, 0, false, .v 3, .x 6, 0⟩) memory) (fun t => (t.core 0).vs.getV 3 = 0x89) &&
    next (exec (.ldvs ⟨false, 0, .i32, false, .v 3, .x 6, .imm 16⟩) memory) (fun t => (t.core 0).vs.getV 3 = 0x89) &&
    next (exec (.ldvx ⟨false, 0, .i32, false, .v 3, .x 6, .v 4⟩) memory) (fun t => laneAt ((t.core 0).vs.getV 3) 32 31 = 0x89) &&
    next (exec (.ldc ⟨false, 0, false, .x 5, .x 6, 0⟩) memory) (fun t => (t.core 0).vs.getX 5 = XReg.plain 0x89)) = true := by decide +kernel

/-- The lowest lane that fails is reported. -/
theorem test_lane_checks : (isNext (exec (.ldvs ⟨false, 0, .i32, false, .v 3, .x 6, .imm (-8)⟩) memory) (memory.faults .capBounds (BitVec.ofNat 64 (0x40010 - 248)) .read) &&
    isNext (exec (.stvs ⟨false, 0, .i32, false, .v 3, .x 6, .imm 5⟩) memory) (memory.faults .align 0x40015 .write)) = true := by decide +kernel

theorem test_pref_changes_nothing : next (exec (.pref ⟨false, 0, false, .x 0, .x 1, 0⟩) one) (fun t => (t.core 0).pc = 0x10008 && (t.core 0).vs = (one.core 0).vs) = true := by
  decide +kernel

theorem test_st_buffers : (clear memory false true false [.x 1] [] fun m s1 => gives (s1.translate 0 .write 0x40010) fun p => gives (p.2.storeData 0 (.x 1)) fun v =>
    gives (v.2.enterOrdered 0 [.store 0x40010 p.1 [20, 0] none]) fun t =>
      isNext (exec (.st ⟨false, 0, .h, false, false, .x 1, .x 6, 0⟩) memory) (memory.after t false m) && t.byte 0x200010 = 0x89) = true := by decide +kernel

theorem test_vector_stores : (clear memory false true false [.v 3] [] fun _ s1 => (gives (s1.translateSpan 0 .write 0x40010 128) fun _ => true) &&
    next (exec (.stv ⟨false, 0, false, .v 3, .x 6, 0⟩) memory) (fun t => (t.core 0).buffer.length = 1) &&
    next (exec (.stvs ⟨false, 0, .i64, false, .v 3, .x 6, .imm 16⟩) memory) (fun t => (t.core 0).buffer.length = 16) &&
    next (exec (.stvx ⟨false, 0, .i64, false, .v 3, .x 6, .v 4⟩) memory) (fun t => (t.core 0).buffer.length = 16) &&
    next (exec (.stc ⟨false, 0, false, .x 6, .x 6, 0⟩) memory) (fun t => ((t.core 0).buffer.map fun e => match e with
      | .store _ _ bs tag => (bs.length, tag)
      | _ => (0, none)) = [(16, some true)])) = true := by decide +kernel

theorem test_store_checks : (let s := caps (capOf 0b100001 false 0) XReg.zero
    isNext (exec (.st ⟨false, 0, .h, false, false, .x 1, .x 6, 0⟩) s) (s.faults .capPerm 0x40010 .write) &&
      isNext (exec (.stv ⟨false, 0, false, .v 1, .x 6, 0⟩) s) (s.faults .capPerm 0x40010 .write) &&
      isNext (exec (.stc ⟨false, 0, false, .x 1, .x 6, 0⟩) s) (s.faults .capPerm 0x40010 .write)) = true := by decide +kernel

/-- A load sees the core's own store, and the same value later in the phase though memory has changed. -/
theorem test_phase_view : (let s := memory.modCore 0 fun c => { c with buffer := [store 2] }
    (s.loadBytes 0 0x200000 2).1 = [7, 7] && (let t := (memory.loadBytes 0 0x200010 1).2
      ({ t with mem := [] }.loadBytes 0 0x200010 1).1 = [0x89])) = true := by decide +kernel

theorem test_publish : (let t := memory.publish none true 0x20000F [1, 0]
    t.byte 0x20000F = 1 && t.byte 0x200010 = 0 && t.mem = [(0x20000F, 1)] && t.tagAt 0x20000 && t.tagAt 0x20001 && !t.tagAt 0x20002 && Memory.wf t.mem) = true := by decide +kernel

/-! ### The local store, MCST, rings, control words (17 R308-R310, R319-R322) -/

/-- The last byte of the store, and an access that begins past it. -/
theorem test_local_store_edge : (let s := (caps (XReg.ofWords 0x3FFF8 (capHi 0 0x3FFF8 0x40000 0b10011 false 0) true) XReg.zero)
    clear s false true false [.x 1] [] fun _ _ => next (exec (.lsst ⟨false, 0, .d, false, false, .x 1, .x 6, 0⟩) s) (fun t =>
        (t.core 0).vs.ls = [(0x3FFF8, 20)] && (t.core 0).vs.lsdirty.getLsbD 63 && (t.core 0).vs.csr.lsstat = 0 &&
        next (exec (.lsld ⟨false, 0, .d, false, false, .x 5, .x 6, 0⟩) t) (fun u => (u.core 0).vs.getX 5 = XReg.plain 20)) &&
      next (exec (.lsst ⟨false, 0, .d, false, false, .x 1, .x 6, 8⟩) s) (fun t => (t.core 0).vs.ls = [] && (t.core 0).vs.csr.lsstat = 1 && (t.core 0).vs.csr.lsbad = 0x40000) &&
      next (exec (.lsldv ⟨false, 0, .v 3, .x 6, 8⟩) s) (fun t => (t.core 0).vs.getV 3 = 0 && (t.core 0).vs.csr.lsstat = 1)) = true := by decide +kernel

theorem test_local_store_vectors : (clear one false true false [.v 3] [] fun _ _ => next (exec (.lsstv ⟨false, 0, .v 3, .x 0, 0x80⟩) one) (fun t => (t.core 0).pc = 0x10008) &&
    next (exec (.lsldv ⟨false, 0, .v 3, .x 0, 0x80⟩) one) (fun t => (t.core 0).pc = 0x10008) &&
    isNext (exec (.lsldv ⟨false, 0, .v 3, .x 0, 0x81⟩) one) (one.faults .align 0x81 .read) && isNext (exec (.lsstv ⟨false, 0, .v 3, .x 1, 0⟩) one) (one.faults .capTag 20 .read)) = true := by
  decide +kernel

/-- MCST to subgroup 1 at offset 0x80 with counter 2; a wrong subgroup; an offset that is no multiple of 8. -/
theorem test_mcst : (let at_ (a : Word) : State := targets (targetCap.move a) XReg.zero
    let good : Word := BitVec.ofNat 64 (1 + 0x80 * 2 ^ 32 + 2 * 2 ^ 50)
    let off : Word := BitVec.ofNat 64 (1 + 0x84 * 2 ^ 32)
    clear (at_ good) false true false [] [] fun m s1 => (gives (s1.enter 0 [.mcst 1 0x80 0 2]) fun t => isNext (exec (.mcst ⟨false, 0, .x 0, .x 6, .v 4⟩) (at_ good)) ((at_ good).after t false m)) &&
      isNext (exec (.mcst ⟨false, 0, .x 0, .x 6, .v 4⟩) (at_ 2)) ((at_ 2).faults .capBounds 2 .read) &&
      isNext (exec (.mcst ⟨false, 0, .x 0, .x 6, .v 4⟩) (at_ off)) ((at_ off).faults .align 0x84 .read) &&
      isNext (exec (.mcst ⟨false, 0, .x 0, .x 6, .v 4⟩) one) (one.faults .capTag 0 .read)) = true := by decide +kernel

/-- CBINIT of four slots of 8 bytes, whose mark map is the byte after them; at the last place that holds it, and one past. -/
theorem test_cbinit : (let s := one.modVs 0 fun r => (r.setY 2 0x3004).setY 3 (262144 - 40)
    clear s false true false [.x 0, .y 2] [] fun _ s1 => gives (s1.src 0 (.y 2)) fun g => g.1 = 0x3004 &&
      next (exec (.cbinit ⟨false, 0, .ring 2 0, .x 0, .y 2⟩) s) (fun t => (t.core 0).vs.h = [(2, ⟨0, 4, 3, 0, 0, 0, 0⟩)]) &&
      next (exec (.cbinit ⟨false, 0, .ring 2 0, .y 3, .y 2⟩) s) (fun t => (t.core 0).vs.h.length = 1) &&
      isNext (exec (.cbinit ⟨false, 0, .ring 2 0, .imm 4, .y 2⟩) s) (s.faults .capBounds 4 .read) &&
      isNext (exec (.cbinit ⟨false, 0, .ring 2 0, .x 0, .imm 4⟩) s) (s.faults .capBounds 0 .read)) = true := by decide +kernel

/-- A ring of four slots with one filled. -/
def ringed : State := sent.modVs 0 fun r => { r with h := [(2, ⟨0, 4, 3, 1, 0, 0, 0⟩)], ls := [(0, 5)] }

theorem test_ring_advances : (clear ringed false true false [] [] fun _ _ =>
    next (exec (.cbadvp ⟨false, 0, .ring 2 3, .x 0, .x 0⟩) ringed) (fun t => ((t.core 0).vs.h.map fun p => p.2.p) = [4]) &&
      next (exec (.cbadvp ⟨false, 0, .ring 2 4, .x 0, .x 0⟩) ringed) (fun t => (t.core 0).run = .waiting .handle false) &&
      next (exec (.cbadvc ⟨false, 0, .ring 2 1, .x 0, .x 0⟩) ringed) (fun t => ((t.core 0).vs.h.map fun p => p.2.c) = [1]) &&
      next (exec (.cbadvc ⟨false, 0, .ring 2 2, .x 0, .x 0⟩) ringed) (fun t => (t.core 0).run = .waiting .handle false) &&
      isNext (exec (.cbadvc ⟨false, 0, .ring 2 5, .x 0, .x 0⟩) ringed) (ringed.faults .capBounds 0 .read) &&
      isNext (exec (.cbadvp ⟨false, 0, .ring 3 1, .x 0, .x 0⟩) ringed) (ringed.faults .capTag 0 .read) &&
      next (exec (.cbcnt ⟨false, 0, .x 5, .ring 2 0, .x 0⟩) ringed) (fun t => (t.core 0).vs.getX 5 = XReg.plain (BitVec.ofNat 64 (1 + 3 * 2 ^ 16 + 3 * 2 ^ 32 + 3 * 2 ^ 41)))) = true := by
  decide +kernel

/-- Port 1 holds one unit, a known control word or a plain value. -/
def ported (w : Word) (ctl : Bool) : State := sent.modCore 0 fun c => { c with ports := [(1, [⟨w.setWidth 1024, false, ctl⟩])] }

theorem test_qtest_and_qdrain : (let known : Word := BitVec.ofNat 64 (2 ^ 56 + 5)
    let drain (s : State) : Out := exec (.qdrain ⟨false, 0, .x 5, .port 1, .x 0⟩) s
    clear (ported known true) false true false [] [.x 5] fun _ _ =>
      next (exec (.qtest ⟨false, 0, .x 5, .port 1, .x 0⟩) (ported known true)) (fun t => (t.core 0).vs.getX 5 = XReg.plain 0x103) &&
      next (drain (ported known true)) (fun t => (t.core 0).vs.getX 5 = XReg.plain known && (t.core 0).pc = 0x10008) &&
      next (drain (ported 7 false)) (fun t => (t.core 0).pc = 0x10000) && isNext (drain (ported 7 true)) ((ported 7 true).faults .stream 0 .read) &&
      next (drain one) (fun t => (t.core 0).run ≠ .running)) = true := by decide +kernel

theorem test_qctl : (let s := ringed.modVs 0 fun r => (r.setY 2 (BitVec.ofNat 64 (2 ^ 56))).setY 3 (BitVec.ofNat 64 (2 ^ 57))
    clear s false true false [.y 2] [] fun _ s1 => gives (s1.src 0 (.y 2)) fun w => (gives (w.2.writeRing 0 2 1 [0, 0, 0, 0, 0, 0, 0, 1] true) fun _ => true) &&
      next (exec (.qctl ⟨false, 0, .ring 2 1, .y 2, .x 0⟩) s) (fun t => ((t.core 0).vs.h.map fun p => p.2.p) = [2]) &&
      isNext (exec (.qctl ⟨false, 0, .ring 2 1, .y 3, .x 0⟩) s) (s.faults .stream 0 .read) &&
      isNext (exec (.qctl ⟨false, 0, .port 1, .y 3, .x 0⟩) s) (s.faults .stream 0 .read)) = true := by decide +kernel

/-! ### Atomics and remote operations (17 R323-R325) -/

/-- Every atomic, posted and returning, on the doubleword 0x89 with operand 6. -/
theorem test_atomics_complete : (Sys2Proof.Claims.atomics.all fun p => clear memory false true false [.x 2, .x 0] [.x 5] fun _ s1 =>
    gives (s1.src 0 (.x 2)) fun b => gives (b.2.src 0 (.x 0)) fun c => c.1 = 0 &&
      next (exec (p.1 ⟨false, 0, true, true, .x 0, .x 0, .x 6, .x 2⟩) memory) (fun t => (t.core 0).buffer = [.atomic 0x40010 0x200010 8 p.2.1 6 0]) &&
      next (exec (p.1 ⟨false, 0, false, true, .x 0, .x 5, .x 6, .x 2⟩) memory) (fun t => (t.core 0).vs.getX 5 = XReg.plain 0x89 &&
        ofBytes (t.bytes 0x200010 8) = p.2.2 8 0x89 6 0)) = true := by decide +kernel

theorem test_atomic_checks : (let s := caps (capOf 0b100001 false 0) XReg.zero
    isNext (exec (.aadd ⟨false, 0, false, true, .x 0, .x 5, .x 6, .x 2⟩) s) (s.faults .capPerm 0x40010 .write) &&
      isNext (exec (.aadd ⟨false, 0, true, true, .x 0, .x 0, .x 0, .x 2⟩) s) (s.faults .capTag 0 .write)) = true := by decide +kernel

theorem test_remote_posted : (let s := targets (targetCap.move 0x8_0001_0001) XReg.zero
    clear s false true false [.x 2] [] fun m s1 => gives (s1.src 0 (.x 2)) fun b => [(Instr.rput, RemOp.put), (.radd, .add)].all fun p =>
      gives (b.2.enterOrdered 0 [.remote ⟨3, 1, 1⟩ p.2 8 8 6 0]) fun t => isNext (exec (p.1 ⟨false, 0, false, true, .x 0, .x 0, .x 6, .x 2⟩) s) (s.after t false m)) = true := by
  decide +kernel

theorem test_remote_align : (let s := targets (targetCap.move 0x4_0001_0001) XReg.zero
    [exec (.rput ⟨false, 0, false, true, .x 0, .x 0, .x 6, .x 2⟩) s, exec (.rget ⟨false, 0, false, true, .x 0, .x 5, .x 6, .x 0⟩) s].all fun o => isNext o (s.faults .align 4 .read)) = true := by
  decide +kernel

theorem test_remote_waits : (let s := targets (targetCap.move 0x8_0001_0001) XReg.zero
    clear s false true false [.x 0, .x 0] [.x 5] fun _ s1 => s1.ownerLost 0 ⟨3, 1, 1⟩ = none && (s1.boundary 0 none).isSome &&
      [Instr.rget, .rcas].all fun i => next (exec (i ⟨false, 0, false, true, .x 0, .x 5, .x 6, .x 0⟩) s) (fun t => (t.core 0).run = .waiting (.remote (.x 5) none) false)) = true := by
  decide +kernel

/-! ### Vector instructions (18 R326-R346) -/

/-- A vector of equal 64-bit lanes. -/
def lanes64 (x : Nat) : Vec := ofLanes 64 (List.replicate 16 x)

/-- v1 holds 1.5 or a pattern of F64, v2 holds 2.0; y0 lets lane 3 alone take part. -/
def vectors : State := one.modVs 0 fun r => { r with v := [(1, lanes64 0x3FF8000000000000), (2, lanes64 0x4000000000000000)], y := [(0, 8)] }

/-- A vector word of this type over v1 and v2 into v3, under .M. -/
def fv (ty : VTy) : FV := ⟨false, 0, ⟨ty, .rne, false, true, false, 0⟩, .v 3, .v 1, .v 2⟩

/-- The vector word may take its effect, with its sources read. -/
def vector (s : State) (f : FV) (p : Word → Vec → Vec → State → Bool) : Bool :=
  (s.core s.cur).vs.ringFault [f.a, f.b, f.d] = none && clear s f.sp true false [f.a, f.b] [f.d] fun m s1 =>
    gives (s1.vsrc s.cur f.md.ty.width f.a) fun a => gives (a.2.vsrc s.cur f.md.ty.width f.b) fun b => p m a.1 b.1 b.2

/-- Every two-source form in the type that it accepts: lane 3 has the row's result, the other lanes keep theirs. -/
theorem test_two_lanes_complete : ((Sys2Proof.Claims.twoLanes.mapIdx fun n p => (p, fv (if n < 14 then .i64 else .f64))).all fun q =>
    vector vectors q.2 fun m a b s3 => match q.1.2 q.2.md (laneAt a 64 3) (laneAt b 64 3) with
      | some x => gives (s3.vput 0 q.2.d 64 true (lanes64 x.1)) fun s4 =>
          isNext (exec (q.1.1 q.2) vectors) (vectors.after (s4.raise 0 x.2) false m)
      | none => false) = true := by decide +kernel

theorem test_vadd_lane : next (exec (.vadd (fv .i64)) vectors) (fun t => laneAt ((t.core 0).vs.getV 3) 64 3 = 0x7FF8000000000000 && laneAt ((t.core 0).vs.getV 3) 64 2 = 0) = true := by
  decide +kernel

theorem test_vadd_saturates : (let f : FV := { fv .i64 with a := .v 2, md := ⟨.i64, .rne, true, true, false, 0⟩ }
    next (exec (.vadd f) vectors) (fun t => laneAt ((t.core 0).vs.getV 3) 64 3 = 2 ^ 63 - 1)) = true := by decide +kernel

theorem test_vfadd_value : next (exec (.vfadd (fv .f64)) vectors) (fun t => laneAt ((t.core 0).vs.getV 3) 64 3 = 0x400C000000000000) = true := by decide +kernel

theorem test_vfma_value : next (exec (.vfma { fv .f64 with d := .v 2 }) vectors) (fun t => laneAt ((t.core 0).vs.getV 2) 64 3 = 0x4014000000000000) = true := by decide +kernel

theorem test_one_lane_complete : ((Sys2Proof.Claims.oneLane.mapIdx fun n p => (p, fv (if n = 0 then .i64 else if n = 2 ∨ n = 3 then .f32 else .f64))).all fun q =>
    (vectors.core 0).vs.ringFault [q.2.a, q.2.d] = none && clear vectors false true false [.v 1, .v 2] [.v 3] fun m s1 => gives (s1.vsrc 0 q.2.md.ty.width q.2.a) fun a =>
      match q.1.2 q.2.md (laneAt a.1 q.2.md.ty.width 3) with
      | some x => gives (a.2.vput 0 q.2.d q.2.md.ty.width true (ofLanes q.2.md.ty.width (List.replicate (1024 / q.2.md.ty.width) x.1))) fun s4 =>
          isNext (exec (q.1.1 q.2) vectors) (vectors.after (s4.raise 0 x.2) false m)
      | none => false) = true := by decide +kernel

theorem test_vector_moves : (vector vectors (fv .i64) fun _ _ _ _ =>
    next (exec (.vsel ⟨false, 0, ⟨.i64, .rne, false, false, false, 0⟩, .v 3, .v 1, .v 2⟩) vectors) (fun t =>
      laneAt ((t.core 0).vs.getV 3) 64 3 = 0x3FF8000000000000 && laneAt ((t.core 0).vs.getV 3) 64 4 = 0x4000000000000000) &&
    next (exec (.vsplat ⟨false, 0, ⟨.i64, .rne, false, false, false, 0⟩, .v 3, .x 1, .x 0⟩) vectors) (fun t => (t.core 0).vs.getV 3 = lanes64 20) &&
    next (exec (.vmovx ⟨false, 0, ⟨.i32, .rne, false, false, false, 0⟩, .x 5, .v 2, .imm 1⟩) vectors) (fun t => (t.core 0).vs.getX 5 = XReg.plain 0x40000000) &&
    next (exec (.vins ⟨false, 0, ⟨.i64, .rne, false, false, false, 0⟩, .v 3, .x 1, .imm 15⟩) vectors) (fun t => (t.core 0).vs.getV 3 = BitVec.ofNat 1024 (20 * 2 ^ 960)) &&
    next (exec (.vcmpr ⟨false, 0, ⟨.i64, .rne, false, false, false, 0⟩, .v 3, .v 1, .x 0⟩) vectors) (fun t => (t.core 0).vs.getV 3 = 0x3FF8000000000000) &&
    next (exec (.vexpd ⟨false, 0, ⟨.i64, .rne, false, false, false, 0⟩, .v 3, .v 1, .x 0⟩) vectors) (fun t => (t.core 0).vs.getV 3 = BitVec.ofNat 1024 (0x3FF8000000000000 * 2 ^ 192)) &&
    next (exec (.vlanem ⟨false, 0, ⟨.i32, .rne, false, false, false, 0⟩, .x 5, .v 1, .x 0⟩) vectors) (fun t => (t.core 0).vs.getX 5 = XReg.plain 0xAAAAAAAA)) = true := by decide +kernel

/-- v1 with lane i holding i. -/
def counted : State := one.modVs 0 fun r => { r with v := [(1, ofLanes 64 (List.range 16)), (2, ofLanes 64 ((List.range 16).map (15 - ·)))] }

theorem test_permutations : (let md : VMod := ⟨.i64, .rne, false, false, false, 0⟩
    next (exec (.vrot ⟨false, 0, md, .v 3, .v 1, .imm (-1)⟩) counted) (fun t => laneAt ((t.core 0).vs.getV 3) 64 0 = 15) &&
      next (exec (.vbcast ⟨false, 0, md, .v 3, .v 1, .imm 21⟩) counted) (fun t => (t.core 0).vs.getV 3 = lanes64 5) &&
      next (exec (.vperm ⟨false, 0, md, .v 3, .v 1, .v 2⟩) counted) (fun t => laneAt ((t.core 0).vs.getV 3) 64 0 = 15) &&
      next (exec (.vpack ⟨false, 0, md, .v 3, .v 1, .v 2⟩) counted) (fun t => laneAt ((t.core 0).vs.getV 3) 32 15 = 15 && laneAt ((t.core 0).vs.getV 3) 32 16 = 15) &&
      next (exec (.vunpk ⟨false, 0, { md with ty := .i32, xmod := 2 }, .v 3, .v 1, .x 0⟩) counted) (fun t => laneAt ((t.core 0).vs.getV 3) 64 0 = 8)) = true := by decide +kernel

theorem test_conversions : (next (exec (.vcvt ⟨false, 0, ⟨.f32, .rne, false, false, false, 0b10010⟩, .v 3, .v 1, .x 0⟩) vectors) (fun t => laneAt ((t.core 0).vs.getV 3) 32 0 = 0x3FC00000 && laneAt ((t.core 0).vs.getV 3) 32 16 = 0) &&
    next (exec (.vcvt ⟨false, 0, ⟨.i64, .rtz, false, false, false, 0b10010⟩, .v 3, .v 1, .x 0⟩) vectors) (fun t => laneAt ((t.core 0).vs.getV 3) 64 0 = 1 && (t.core 0).vs.csr.fstat ≠ 0) &&
    next (exec (.vcvt ⟨false, 0, ⟨.f64, .rne, false, false, false, 0b00110⟩, .v 3, .v 1, .x 0⟩) counted) (fun t => laneAt ((t.core 0).vs.getV 3) 64 3 = 0x4008000000000000)) = true := by
  decide +kernel

theorem test_vdot4 : next (exec (.vdot4 ⟨false, 0, ⟨.i8, .rne, false, false, false, 1⟩, .v 3, .v 1, .v 2⟩) (one.modVs 0 fun r => { r with v := [(1, 0x04030201), (2, 0xFF010101)] }))
    (fun t => (t.core 0).vs.getV 3 = 1026) = true := by decide +kernel

/-- Reductions of 0 to 15, of the lane that takes part, and of none. -/
theorem test_reductions : (let f (m : Bool) : FV := ⟨false, 0, ⟨.i64, .rne, false, m, false, 0⟩, .x 5, .v 1, .x 0⟩
    let at_ (y : Word) : State := counted.modVs 0 fun r => { r with y := [(0, y)] }
    let sum (y : Word) (m : Bool) (v : Word) : Bool := next (exec (.vredadd (f m)) (at_ y)) (fun t => (t.core 0).vs.getX 5 = XReg.plain v)
    clear counted false true false [.v 1, .x 0] [.x 5] fun _ _ => sum 8 false 120 && sum 8 true 3 && next (exec (.vredmax (f true)) (counted.modVs 0 fun r => { r with y := [] }))
        (fun t => (t.core 0).vs.getX 5 = XReg.plain (BitVec.ofNat 64 (2 ^ 63))) &&
      next (exec (.vredmin (f false)) counted) (fun t => (t.core 0).vs.getX 5 = XReg.plain 0) &&
      next (exec (.vscanadd { f false with d := .v 3 }) counted) (fun t => laneAt ((t.core 0).vs.getV 3) 64 15 = 120)) = true := by decide +kernel

/-- A float tree: 1.5 + 1.5 sixteen times over. -/
theorem test_float_reduction : next (exec (.vredadd ⟨false, 0, ⟨.f64, .rne, false, false, false, 0⟩, .x 5, .v 1, .x 0⟩) vectors) (fun t => (t.core 0).vs.getX 5 = XReg.plain 0x4038000000000000) = true := by
  decide +kernel

/-- A stream word at a port: an element, a well-formed control word, a malformed one. -/
theorem test_stream_words : (let f : FV := ⟨false, 0, ⟨.i64, .rne, false, false, true, 0⟩, .v 3, .port 1, .v 1⟩
    let vec : State := sent.modCore 0 fun c => { c with ports := [(1, [⟨5, true, false⟩])] }
    next (exec (.vadd f) vec) (fun t => (t.core 0).pc = 0x10000 && (t.core 0).vs.getV 3 = 5) &&
      next (exec (.vadd f) (ported (BitVec.ofNat 64 (2 ^ 56)) true)) (fun t => (t.core 0).pc = 0x10008 && (t.core 0).vs.v = []) &&
      isNext (exec (.vadd f) (ported 7 true)) ((ported 7 true).faults .stream 0 .read)) = true := by decide +kernel

/-! ### Rounding and special values (04 R70-R78) -/

/-- Operands of the rounding statement whose results are exact, inexact, tiny and beyond the range. -/
theorem test_rounding_values : (Sys2Proof.Claims.value .f16 0x3C00 = some 1 ∧ Sys2Proof.Claims.value .f16 0x1000 = some (1 / 2048) ∧ Sys2Proof.Claims.value .f16 1 = some (1 / 2 ^ 24) ∧
    Sys2Proof.Claims.value .f16 0x7BFF = some 65504 ∧ Sys2Proof.Claims.value .f16 0x7C00 = none) = True := by decide +kernel

theorem test_rounding : (fadd .f16 .rne false 0x3C00 0x1000 = (0x3C00, fNX) ∧ fadd .f16 .rup false 0x3C00 0x1000 = (0x3C01, fNX) ∧ fmul .f16 .rne false 1 0x3800 = (0, fNX ||| fUF) ∧
    fmul .f16 .rne false 0x7BFF 0x4000 = (0x7C00, fOF ||| fNX) ∧ fmul .f16 .rtz false 0x7BFF 0x4000 = (0x7BFF, fOF ||| fNX) ∧ fdiv .f32 .rne false 0x3F800000 0x40400000 = (0x3EAAAAAB, fNX) ∧
    fsqrt .f64 .rne false 0x4010000000000000 = (0x4000000000000000, 0) ∧ ffma .f16 .rne false true 0x3C00 0x3C00 0x4000 = (0x3C00, 0) ∧ cvtFromInt .f32 .rne false 16777217 = (0x4B800000, fNX)) = True := by
  decide +kernel

theorem test_special_values : (fadd .f32 .rne false 0x7F800000 0xFF800000 = (Fmt.f32.nan, fNV) ∧ fadd .f32 .rne false 0x7FC00000 0 = (Fmt.f32.nan, 0) ∧ fadd .f32 .rne false 0x7F800001 0 = (Fmt.f32.nan, fNV) ∧
    fdiv .f32 .rne false 0x3F800000 0 = (0x7F800000, fDZ) ∧ fdiv .f32 .rne false 0 0 = (Fmt.f32.nan, fNV) ∧ fmul .f32 .rne false 0x7F800000 0 = (Fmt.f32.nan, fNV) ∧
    fsub .f32 .rdn false 0x3F800000 0x3F800000 = (0x80000000, 0) ∧ fmul .f32 .rne true 0x7F800000 0x3F800000 = (0x7F7FFFFF, fOF ||| fNX) ∧ fsqrt .f32 .rne false 0xBF800000 = (Fmt.f32.nan, fNV) ∧
    fsqrt .f32 .rne false 0x80000000 = (0x80000000, 0)) = True := by decide +kernel

/-- One block: 1 + 3 × 2 × 2 in F32 from F16 operands. -/
theorem test_block : (Sys2Proof.Claims.value .f32 0x3F800000 = some 1 ∧ Sys2Proof.Claims.value .f16 0x4000 = some 2 ∧
    (addBlock .f32 2 0x3F800000 none ((List.replicate 3 (0x4000, 0x4000)).map fun p => .prod (mulE (inputVal .f16 2 p.1) (inputVal .f16 2 p.2)))).1 = 0x41500000) = True := by decide +kernel

/-! ### Tile registers (19 R347-R357) -/

/-- t0 and t1 are I32 tiles of 2 by 2 holding 1 to 4; t2 is an I8 tile of 2 by 2 holding 1 to 4, t3 an I32 tile for its products. -/
def tiles : State :=
  let body (ws : List (Nat × Nat)) : BitVec 8192 := BitVec.ofNat 8192 (ws.map fun p => p.2 * 2 ^ p.1).sum
  let w : Tile := ⟨7, 0, 2, 2, body [(0, 1), (32, 2), (512, 3), (544, 4)], .dirty⟩
  one.modVs 0 fun r => { r with t := [(0, w), (1, w), (2, ⟨9, 0, 2, 2, body [(0, 1), (8, 2), (512, 3), (520, 4)], .dirty⟩), (3, { w with body := 0 })] }

/-- Element (i, j) of tile register n. -/
def elem (s : State) (n i j : Nat) : Nat := match Table.find? (s.core 0).vs.t n with
  | some t => Sys2Proof.Claims.element t i j
  | none => 0

theorem test_tiles_held : ∃ t u, Sys2Proof.Claims.holds tiles 0 t ∧ Sys2Proof.Claims.holds tiles 2 u ∧ Sys2Proof.Claims.productOf u.efmt u.efmt = some 7 := by
  refine ⟨(Table.find? (tiles.core 0).vs.t 0).get (by decide +kernel), (Table.find? (tiles.core 0).vs.t 2).get (by decide +kernel), ⟨by decide +kernel, ?_⟩, ⟨by decide +kernel, ?_⟩, by decide +kernel⟩ <;>
    unfold Sys2Proof.Claims.fits <;> decide +kernel

theorem test_tcfg : (let at_ (c : Nat) : State := tiles.modVs 0 fun r => r.setY 2 (BitVec.ofNat 64 c)
    let tcfg (c : Nat) : Out := exec (.tcfg ⟨false, 0, .v 5, .y 2, .x 0⟩) (at_ c)
    let cfg (rows cols : Nat) : Nat := 7 + rows * 2 ^ 16 + cols * 2 ^ 32
    clear (at_ 7) false true false [.y 2] [] fun _ _ => next (tcfg (cfg 16 16)) (fun t => (t.core 0).vs.t.length = 5) && next (tcfg 0) (fun t => (t.core 0).vs.t.length = 4) &&
      [cfg 17 16, cfg 16 17, cfg 0 1, cfg 1 1 + 64, cfg 1 1 + 2 ^ 48].all fun c => isNext (tcfg c) ((at_ c).faults .hdrUnsupported (BitVec.ofNat 64 (2 ^ 64 - 251)) .read)) = true := by
  decide +kernel

theorem test_tile_reads : (clear tiles false true false [.imm 1] [.v 3] fun _ _ =>
    next (exec (.trowg ⟨false, 0, .v 3, .v 0, .imm 1⟩) tiles) (fun t => (t.core 0).vs.getV 3 = BitVec.ofNat 1024 (3 + 4 * 2 ^ 32)) &&
      next (exec (.tcolg ⟨false, 0, .v 3, .v 0, .imm 1⟩) tiles) (fun t => (t.core 0).vs.getV 3 = BitVec.ofNat 1024 (2 + 4 * 2 ^ 32)) &&
      isNext (exec (.trowg ⟨false, 0, .v 3, .v 0, .imm 2⟩) tiles) (tiles.faults .hdrMismatch (BitVec.ofNat 64 (2 ^ 64 - 256)) .read) &&
      isNext (exec (.tcolg ⟨false, 0, .v 3, .v 7, .imm 0⟩) tiles) (tiles.faults .tileUnconf (BitVec.ofNat 64 (2 ^ 64 - 249)) .read) &&
      next (exec (.thdr ⟨false, 0, .x 5, .v 7, .imm 0⟩) tiles) (fun t => (t.core 0).vs.getX 5 = XReg.plain 0x1A7) &&
      next (exec (.tzero ⟨false, 0, .v 0, .x 0, .x 0⟩) tiles) (fun t => elem t 0 1 1 = 0)) = true := by decide +kernel

theorem test_tile_writes : (let s := tiles.modVs 0 fun r => { r with v := [(1, BitVec.ofNat 1024 (8 + 9 * 2 ^ 32))] }
    next (exec (.trowp ⟨false, 0, .v 0, .v 1, .imm 1⟩) s) (fun t => elem t 0 1 0 = 8 && elem t 0 1 1 = 9 && elem t 0 0 1 = 2) &&
      next (exec (.tcolp ⟨false, 0, .v 0, .v 1, .imm 1⟩) s) (fun t => elem t 0 0 1 = 8 && elem t 0 1 1 = 9 && elem t 0 1 0 = 3) &&
      isNext (exec (.tcolp ⟨false, 0, .v 7, .v 1, .imm 1⟩) s) (s.faults .tileUnconf (BitVec.ofNat 64 (2 ^ 64 - 249)) .read)) = true := by decide +kernel

theorem test_tile_arithmetic : (clear tiles false true false [] [] fun _ _ =>
    next (exec (.tadd ⟨false, 0, .v 3, .v 0, .v 1⟩) tiles) (fun t => elem t 3 1 1 = 8) && next (exec (.ttrn ⟨false, 0, .v 3, .v 0, .x 0⟩) tiles) (fun t => elem t 3 0 1 = 3) &&
      next (exec (.tscl ⟨false, 0, .v 3, .v 0, .imm (-1)⟩) tiles) (fun t => elem t 3 1 1 = 2 ^ 32 - 4) &&
      next (exec (.tmma ⟨false, 0, .v 3, .v 2, .v 2⟩) tiles) (fun t => elem t 3 0 0 = 7 && elem t 3 1 1 = 22) &&
      isNext (exec (.tmma ⟨false, 0, .v 2, .v 2, .v 2⟩) tiles) (tiles.faults .hdrMismatch (BitVec.ofNat 64 (2 ^ 64 - 254)) .read) &&
      isNext (exec (.tadd ⟨false, 0, .v 3, .v 0, .v 2⟩) tiles) (tiles.faults .hdrUnsupported (BitVec.ofNat 64 (2 ^ 64 - 254)) .read)) = true := by decide +kernel

theorem test_tile_memory : (let s := tiles.modVs 0 fun r => r.setX 6 (capOf 0b100011 false 0)
    isNext (exec (.tld ⟨false, 0, false, .v 3, .x 6, .x 0⟩) s) (s.faults .align 0x40010 .read) &&
      isNext (exec (.tst ⟨false, 0, .x 0, .v 0, .x 6⟩) s) (s.faults .align 0x40010 .write) &&
      isNext (exec (.tchk ⟨false, 0, .x 5, .x 6, .x 0⟩) s) (s.faults .align 0x40010 .read) &&
      next (exec (.tchk ⟨false, 0, .x 5, .v 0, .x 0⟩) s) (fun t => (t.core 0).vs.getX 5 = XReg.plain 0) &&
      next (exec (.tchk ⟨false, 0, .x 5, .v 7, .x 0⟩) s) (fun t => (t.core 0).vs.getX 5 = XReg.plain 0x0C)) = true := by decide +kernel

/-- A header that TST writes of t0 into the local store, then TLD reads back into t3: an empty store's header fails its check first. -/
theorem test_tile_local : (isNext (exec (.tld ⟨false, 0, false, .v 3, .x 6, .x 0⟩) (tiles.modVs 0 fun r => r.setX 6 (capFor 0 4096 0b10011)))
    ((tiles.modVs 0 fun r => r.setX 6 (capFor 0 4096 0b10011)).faults .hdrCheck 0 .read)) = true := by decide +kernel

/-! ### Engine commands, scans, carries (19 R359-R380, 20 R396-R401) -/

/-- x6 reaches an aligned descriptor at 0x40080. -/
def described : State := caps ((capOf 0b100011 false 0).move 0x40080) XReg.zero

theorem test_commands_issue : ([(Instr.mjob, false), (.jedge, false), (.copy, true), (.copy2d, true), (.tfill, true)].all fun i =>
    clear described false true false (if i.2 then [.x 0] else []) [.x 5] fun _ s1 => gives (s1.translate 0 .read 0x40080) fun p => p.1 = 0x200080 &&
      next (exec (i.1 ⟨false, 0, .x 5, .x 6, .x 0⟩) described) (fun t => (t.core 0).buffer.length = 1 && (t.core 0).vs.getX 5 = XReg.plain 0 &&
        (if i.2 then (t.core 0).vs.csr.cpctr = 1 && (t.core 0).vs.csr.cpwin = 1 else (t.core 0).vs.csr.jobctr = 1 && (t.core 0).vs.csr.jobwin = 1))) = true := by decide +kernel

theorem test_command_checks : (let s := caps ((capOf 0b100011 false 0).move 0x40040) XReg.zero
    isNext (exec (.jedge ⟨false, 0, .x 5, .x 6, .x 0⟩) s) (s.faults .align 0x40040 .read) && isNext (exec (.mjob ⟨false, 0, .x 5, .x 1, .x 0⟩) s) (s.faults .capTag 20 .read)) = true := by
  decide +kernel

/-- The next nibble HELD by an earlier command is published; QUEUED, it is waited for. -/
theorem test_command_window : (let at_ (w : Word) : State := described.modVs 0 fun r => { r with csr := { r.csr with jobwin := w } }
    next (exec (.mjob ⟨false, 0, .x 5, .x 6, .x 0⟩) (at_ 1)) (fun t => (t.core 0).vs.csr.jobctr = 1) &&
      next (exec (.mjob ⟨false, 0, .x 5, .x 6, .x 0⟩) (at_ 2)) (fun t => (t.core 0).run = .waiting (.window false 0) false) &&
      next (exec (.mjob ⟨false, 0, .x 5, .x 6, .x 0⟩) (at_ 3)) (fun t => (t.core 0).run = .waiting (.window false 0) false)) = true := by decide +kernel

/-- Command 0 of sixteen possible: after its end, running, and out of the window. -/
theorem test_command_waits : (let at_ (ctr win : Word) : State := one.modVs 0 fun r => { r with csr := { r.csr with jobctr := ctr, jobwin := win, cpctr := ctr, cpwin := win } }
    clear (at_ 1 4) false true false [.imm 0] [] fun _ s1 => gives (s1.waitSrc 0 (.imm 0)) fun w => (w.2.boundary 0 none).isSome &&
      ([Instr.mwait, .jwait, .cwait].all fun i => next (exec (i ⟨false, 0, .x 0, .imm 0, .x 0⟩) (at_ 1 4)) (fun t => (t.core 0).pc = 0x10008)) &&
      next (exec (.mwait ⟨false, 0, .x 0, .imm 0, .x 0⟩) (at_ 1 3)) (fun t => (t.core 0).run = .waiting (.job 0) false) &&
      next (exec (.cwait ⟨false, 0, .x 0, .imm 0, .x 0⟩) (at_ 1 2)) (fun t => (t.core 0).run = .waiting (.copy 0) false) &&
      next (exec (.mwait ⟨false, 0, .x 0, .imm 0, .x 0⟩) (at_ 17 3)) (fun t => (t.core 0).pc = 0x10008) &&
      next (exec (.mpoll ⟨false, 0, .x 5, .imm 0, .x 0⟩) (at_ 16 4)) (fun t => (t.core 0).vs.getX 5 = XReg.plain 4) &&
      next (exec (.cpoll ⟨false, 0, .x 5, .imm 0, .x 0⟩) (at_ 17 4)) (fun t => (t.core 0).vs.getX 5 = XReg.plain 0)) = true := by decide +kernel

/-- MCANCEL of a held, a queued and a running command. -/
theorem test_mcancel : (let job : Job := ⟨0, false, ⟨0, 0, 0⟩, 1, 0, false, 0x200080, 0x40080, 2, 0, false⟩
    let at_ (win : Word) : State := { (one.modVs 0 fun r => { r with csr := { r.csr with jobctr := 1, jobwin := win } }) with
      clusters := [(0, { Cluster.fresh with queue := if win = 2 then [job] else [], me := if win = 3 then some ⟨job, [], ⟨0, [], []⟩, 0, 0, [], 0, none, false⟩ else none })] }
    let held : State := (at_ 1).modCore 0 fun c => { c with buffer := [.job false 0x200080 0x40080 0 2 false 0] }
    next (exec (.mcancel ⟨false, 0, .x 0, .imm 0, .x 0⟩) held) (fun t => (t.core 0).buffer = [.job false 0x200080 0x40080 0 2 true 0]) &&
      next (exec (.mcancel ⟨false, 0, .x 0, .imm 0, .x 0⟩) (at_ 2)) (fun t => (t.cluster 0).queue = []) &&
      next (exec (.mcancel ⟨false, 0, .x 0, .imm 0, .x 0⟩) (at_ 3)) (fun t => (t.cluster 0).me.map (fun r => r.job.cancelled) = some true) &&
      next (exec (.mcancel ⟨false, 0, .x 0, .imm 0, .x 0⟩) (at_ 4)) (fun t => (t.core 0).pc = 0x10008)) = true := by decide +kernel

/-- Core (0, 0) of a group of 2 by 1: a scan over the whole group, over itself, over the other core. -/
theorem test_scan_contributes : (let f (sg : Bool) (b : Opnd) : FSC := ⟨false, 0, .i64, false, false, sg, .sum, .x 5, .x 1, b⟩
    clear sent false true false [.x 1, .x 0] [.x 5] fun _ s1 => (s1.boundary 0 none).isSome && Sys2Proof.Claims.element? sent 0 1 = some 0 && Sys2Proof.Claims.element? sent 0 0x40 = none &&
      next (exec (.scan (f false (.x 0))) sent) (fun t => (t.core 0).run = .waiting (.scan 1 (.x 5) false) false && (t.ctx 1).scans.map (fun x => (x.spec, x.total, x.parts.length)) = [(1, 2, 1)]) &&
      next (exec (.scan (f true (.x 0))) sent) (fun t => (t.ctx 1).scans.map (fun x => x.total) = [1]) &&
      isNext (exec (.scan (f true (.imm 0x40))) sent) (sent.faults .capBounds 0x40 .read) &&
      next (exec (.scanw { f false (.x 0) with d := .v 3, a := .v 1 }) sent) (fun t => (t.core 0).run = .waiting (.scan 1 (.v 3) true) false)) = true := by decide +kernel

theorem test_carries : (let tgt (w : Word) : State := sent.modVs 0 fun r => r.setY 2 w
    let target : Word := 0x700010001
    clear (tgt target) false true false [.x 1, .y 2] [] fun _ _ =>
      next (exec (.carrys ⟨false, 0, .x 0, .x 1, .y 2⟩) (tgt target)) (fun t => (t.core 0).buffer = [.carry ⟨3, 1, 1⟩ 7 20]) &&
      isNext (exec (.carrys ⟨false, 0, .x 0, .x 1, .y 2⟩) (tgt 2)) ((tgt 2).faults .capBounds 2 .read) &&
      next (exec (.carryr ⟨false, 0, .x 5, .imm 7, .x 0⟩) sent) (fun t => (t.core 0).run = .waiting (.carry 7 (.x 5)) false) &&
      isNext (exec (.carryr ⟨false, 0, .x 5, .imm 7, .x 0⟩) { sent with featoff := 16 }) ({ sent with featoff := 16 }.faults .illegal 0 .read)) = true := by decide +kernel

/-! ### Specialisation and handles (12 R203-R217) -/

/-- x6 is the handle of `keyed`, here of a residual. -/
def handled (residual : Bool) : State := (caps handleCap XReg.zero).modCtx 1 fun x =>
  { x with checkSeq := 12, handles := [(5, { HEntry.empty with state := .live, residual, gen := 2, check := 9, codeva := 0x10000, words := 2, owners := 1 })] }

theorem test_handles : (let f : FR := ⟨false, 0, .x 5, .x 6, .x 0⟩
    clear (handled true) false true false [] [] fun _ _ => next (exec (.hrel { f with d := .x 0 }) (handled true)) (fun t => (t.core 0).buffer.length = 1) &&
      next (exec (.hhold { f with d := .x 0 }) (handled true)) (fun t => (t.core 0).buffer.length = 1 && ((t.ctx 1).handle 5).running = 1) &&
      isNext (exec (.hrel f) (handled false)) ((handled false).faults .capPerm handleWord .read) && isNext (exec (.hrel f) one) (one.faults .capTag 0 .read) &&
      next (exec (.hinfo f) (handled true)) (fun t => (t.core 0).vs.getX 5 = XReg.plain (BitVec.ofNat 64 (2 + 4 + 16 + 2 ^ 16 + 2 * 2 ^ 48))) &&
      next (exec (.hcall f) (handled true)) (fun t => (t.core 0).pc = 0x10000 && ((t.core 0).vs.getX 5).addr = 0x10008 && ((t.ctx 1).handle 5).running = 1)) = true := by decide +kernel

theorem test_stale_handles : (let s := (handled true).modVs 0 fun r => r.setX 6 (handleCap.move (handleWord + 1))
    let bad : FCode := .handleStale
    isNext (exec (.hcall ⟨false, 0, .x 5, .x 6, .x 0⟩) s) (s.faults bad (handleWord + 1) .fetch) && isNext (exec (.hrel ⟨false, 0, .x 0, .x 6, .x 0⟩) s) (s.faults bad (handleWord + 1) .read)) = true := by
  decide +kernel

/-- SPEC of a function without early-bound registers: the lowest free entry is 0. -/
theorem test_spec : (let s : State := { (handled false).modVs 0 (fun r => r.setX 7 (capOf 0b100001 false 0)) with
      frames := [(0x300000, 0x100000)] }.modCtx 1 fun x => { x with root := 0x300000 }
    let f : FR := ⟨false, 0, .x 5, .x 6, .x 7⟩
    earlyRegs (s.entryCode 1 5) = [] && isNext (exec (.spec { f with b := .x 0 }) s) (s.faults .capTag 0 .read) &&
      isNext (exec (.spec { f with b := .x 6 }) s) (s.faults .capPerm handleWord .read) && isNext (exec (.spec { f with a := .x 7 }) s) (s.faults .capPerm 0x40010 .read)) = true := by
  decide +kernel

/-! ### The host's commands on contexts (06 R118-R121, 05 R94-R101) -/

/-- The package ready for commands, context 1 in a state. -/
def ready (c : CState) : State := { one with mgmt := { Mgmt.reset with boot := .ready }, ctxs := [(1, { Ctx.fresh with state := c })] }

/-- Arguments that CREATE takes: a root, sizes, and a cast region of 2^20. -/
def created : State := { ready .free with carg := [(0, 0x40000000), (1, 0x140000), (2, BitVec.ofNat 64 (16 + 17 * 2 ^ 8 + 6 * 2 ^ 16 + 6 * 2 ^ 24 + 6 * 2 ^ 32 + 6 * 2 ^ 40 + 20 * 2 ^ 48))] }

theorem test_create : (next (exec (.create 1) created) (fun t => (t.ctx 1).state = .building && (t.ctx 1).root = 0x40000000 && t.ccmd = 0x101) &&
    next (exec (.create 1) { created with carg := [(0, 0x40000001)] }) (fun t => t.ccmd = 0x40101) && next (exec (.create 1) (ready .live)) (fun t => t.ccmd = 0x20101) &&
    isNext (exec (.create 1) one) one) = true := by decide +kernel

theorem test_command_statuses : ([(Instr.commit 1, CState.live, (0x20102 : Word)), (.commit 1, .building, 0x30102), (.resume 1, .live, 0x20103), (.resume 1, .halted, 0x103), (.destroy 1, .free, 0x20104),
      (.destroy 1, .live, 0x104), (.setmode 1, .free, 0x20105), (.setmode 1, .live, 0x105), (.setfault 1, .draining, 0x20106), (.setfault 1, .building, 0x106), (.answer 1, .free, 0x20107),
      (.answer 1, .live, 0x40107), (.codecopy 1, .draining, 0x20108), (.preempt 1, .stopped, 0x20109), (.preempt 1, .live, 0x40109), (.promote 1, .live, 0x2010A)].all fun p =>
    next (exec p.1 (ready p.2.1)) (fun t => t.ccmd = p.2.2)) = true := by decide +kernel

theorem test_setmode_values : (next (exec (.setmode 1) { ready .live with carg := [(0, 0xF7)] }) (fun t => (t.ctx 1).modemap = 0xF7) &&
    next (exec (.setmode 1) { ready .live with carg := [(0, 0x0C)] }) (fun t => t.ccmd = 0x40105) && next (exec (.setmode 1) { ready .live with carg := [(0, 0x100)] }) (fun t => t.ccmd = 0x40105) &&
    next (exec (.setfault 1) { ready .live with carg := [(0, 0x1FFF)] }) (fun t => (t.ctx 1).faultV && (t.ctx 1).faultIdx = 0xFFF) &&
    next (exec (.setfault 1) { ready .live with carg := [(0, 0x2000)] }) (fun t => t.ccmd = 0x40106)) = true := by decide +kernel

/-- Answers to an EVENT, a LAYBY and a TLBMISS record. -/
theorem test_answers : (let at_ (a : Ask) (carg : Table Word) : State := { (ready .live).modCtx 1 (fun x => { x with home := true, layLog := 16, layFull := true, asks := [(3, a)] }) with carg }
    let waiting (s : State) : State := s.modCore 0 fun c => { c with run := .waiting (.tlb 0x50000 .read) false }
    next (exec (.answer 1) (at_ (.event 6 1 none) [(0, 3)])) (fun t => t.ccmd = 0x107 && ((t.ctx 1).event 6).set && (t.ctx 1).asks = []) &&
      next (exec (.answer 1) (at_ .layby [(0, 3), (1, 0x20000), (2, 17)])) (fun t => t.ccmd = 0x107 && (t.ctx 1).layLog = 17 && !(t.ctx 1).layFull) &&
      next (exec (.answer 1) (at_ .layby [(0, 3), (1, 0x20000), (2, 16)])) (fun t => t.ccmd = 0x40107) &&
      next (exec (.answer 1) (at_ .layby [(0, BitVec.ofNat 64 (3 + 2 ^ 32))])) (fun t => t.ccmd = 0x107 && (t.ctx 1).asks = []) &&
      (match leafOf 0 0x400007 with
        | some l => l.admits .read && next (exec (.answer 1) (waiting (at_ (.tlb 0) [(0, 3), (1, 0x400007)]))) (fun t => (t.core 0).run = .running)
        | none => false)) = true := by decide +kernel

theorem test_scrub : (let s := (ready .draining).modCore 0 fun c => { c with run := .idle, firing := none }
    next (exec (.contextScrub 1) s) (fun t => (t.ctx 1).state = .free && (t.core 0).ctx = none && (t.core 0).tlb = []) && isNext (exec (.contextScrub 1) (ready .live)) (ready .live)) = true := by
  decide +kernel

/-! ### Queues and their packets (06 R107-R117) -/

/-- Queue 3 of context 1 with one packet at 0x500000, its doublewords as listed. -/
def queued (st : QState) (d : List Nat) : State :=
  { ((ready .live).modCtx 1 fun x => { x with home := true, kernels := [(7, { Kernel.absent with state := .loaded, actors := [⟨0, [], false, 0⟩], refs := [3] })] }) with
    queues := [(3, { Queue.reset with base := 0x500000, ctx := 1, en := true, state := st, wptr := 1 })],
    mem := ((d.zipIdx.flatMap fun p => (List.range 8).map fun j => (0x500000 + 8 * p.2 + j, BitVec.ofNat 8 (p.1 / 2 ^ (8 * j)))).filter fun c => c.2 ≠ 0) }

theorem test_queue_registers : (next (exec (.queueEnable 3) (queued .disabled [])) (fun t => (t.queue 3).state = .idle) && isNext (exec (.queueEnable 3) (queued .idle [])) (queued .idle []) &&
    next (exec (.queueEnable 4) (queued .idle [])) (fun t => (t.queue 4).cmderr) && next (exec (.queueDisable 3) (queued .running [])) (fun t => (t.queue 3).state = .disabled) &&
    next (exec (.qcmdSkip 3) (queued .running [])) (fun t => (t.queue 3).cmderr) && next (exec (.qcmdSkip 3) (queued .error [])) (fun t => (t.queue 3).state = .idle && (t.queue 3).rptr = 1) &&
    next (exec (.qcmdReset 3) (queued .error [])) (fun t => (t.queue 3).rptr = 1)) = true := by decide +kernel

/-- A ring of 64 packets: the doorbell at 0, 64, 65. -/
theorem test_doorbell : (next (exec (.doorbellWrite 3 0) (queued .running [])) (fun t => (t.queue 3).state = .idle) && next (exec (.doorbellWrite 3 64) (queued .idle [])) (fun t => (t.queue 3).state = .running) &&
    next (exec (.doorbellWrite 3 65) (queued .idle [])) (fun t => (t.queue 3).state = .error && (t.queue 3).err = 6) && next (exec (.doorbellWrite 3 9) (queued .waiting [])) (fun t => (t.queue 3).wptr = 9)) = true := by
  decide +kernel

/-- The queue runs and its head is of this kind. -/
theorem test_heads : ([1, 2, 3, 4, 5, 6, 7].all fun n => (queued .running [n]).queue 3 |> fun x => x.state = .running && (x.wptr - x.rptr).toNat = 1 && Sys2Proof.Claims.bits (Sys2Proof.Claims.packet (queued .running [n]) 3 0) 0 8 = n) = true := by
  decide +kernel

/-- LAUNCH of kernel 7, actor 0 on 2 by 2 cores in groups of 2 by 1; then each of its refusals. -/
theorem test_launch_packet : (let d (x y z : Nat) : List Nat := [1, 7 + x, 1 + 2 ^ 16 + 2 ^ 32 + y, 0, z]
    let err (l : List Nat) : BitVec 8 := match exec (.launch 3) (queued .running l) with | .next t => (t.queue 3).err | _ => 0
    next (exec (.launch 3) (queued .running (d 0 0 0))) (fun t => t.nextLaunch = 1 && (t.queue 3).pending = [0] && ((t.launch? 0).map fun y => (y.w, y.h, y.lgw, y.quantum)) = some (2, 2, 1, 200)) &&
      err (d 0 (2 ^ 13) 0) = 2 && err (d 0 0 (99 * 2 ^ 32)) = 2 && err (d 0 0 (100 * 2 ^ 32)) = 0 && err (d 0 0 (100001 * 2 ^ 32)) = 2 && err (d 1 0 0) = 3 && err (d (2 ^ 32) 0 0) = 2 && err (d 0 0 8) = 8 &&
      err [0x81] = 1 && err [1 + 2 ^ 10] = 2 && isNext (exec (.launch 3) (queued .running [5])) (queued .running [5])) = true := by decide +kernel

theorem test_packets : (let at_ (d : List Nat) : State := queued .running d
    next (exec (.load 3) (at_ [3, 2 ^ 32])) (fun t => (t.queue 3).err = 2) && next (exec (.load 3) (at_ [3, 7, 8])) (fun t => (t.queue 3).err = 4) && next (exec (.load 3) (at_ [3, 8, 0, 2 ^ 32])) (fun t => (t.queue 3).err = 5) &&
      next (exec (.load 3) (at_ [3, 8, 0, 1])) (fun t => (t.queue 3).err = 8) && next (exec (.unload 3) (at_ [4, 8])) (fun t => (t.queue 3).err = 3) &&
      next (exec (.unload 3) (at_ [4, 7])) (fun t => ((t.ctx 1).kernel 7).state = .retiring && (t.queue 3).rptr = 1) && next (exec (.signal 3) (at_ [5, 20])) (fun t => ((t.ctx 1).event 20).set) &&
      next (exec (.signal 3) (at_ [5, 2 ^ 17])) (fun t => (t.queue 3).err = 2) && next (exec (.waitPacket 3) (at_ [6, 20])) (fun t => (t.queue 3).state = .waiting && ((t.ctx 1).event 20).waiters = [.queue 3]) &&
      next (exec (.copyPacket 3) (at_ [7, 8, 8, 0])) (fun t => (t.queue 3).rptr = 1) && next (exec (.copyPacket 3) (at_ [7, 8, 8, 1])) (fun t => (t.queue 3).err = 8)) = true := by decide +kernel

theorem test_queue_wakes : (let at_ (on woken : Bool) (d : List Nat) : State := { queued .waiting d with time := 9, queues := [(3, { ((queued .waiting d).queue 3) with onEvent := on, woken })] }
    next (exec (.queueWake 3) (at_ true true [6, 20])) (fun t => (t.queue 3).rptr = 1) && next (exec (.queueWake 3) (at_ false false [])) (fun t => (t.queue 3).state = .running) &&
      next (exec (.waitTimeout 3) (at_ true false [6, 20, 9])) (fun t => (t.queue 3).err = 7) && isNext (exec (.waitTimeout 3) (at_ true false [6, 20, 10])) (at_ true false [6, 20, 10])) = true := by decide +kernel

/-! ### Groups and launches (08 R143-R152) -/

/-- Launch 3 on 4 by 1 cores in two groups of 2 by 1. -/
def launch (gs : Table Group) : Launch :=
  { ctx := 1, queue := 3, kernel := 7, entry := 0, prio := 1, w := 4, h := 1, lgw := 1, lgh := 0, argVa := 0x40000, argLen := 16, quantum := 200,
    start := 5, done := none, cast := some 0x2000000, rot := 0, slots := 1, taken := [], since := 0, released := true, live := true, groups := gs }
/-- A package with that launch, no core serving it, at a time. -/
def launched (time : Word) (gs : Table Group) : State := { queued .running [] with cores := [], launches := [(3, launch gs)], time }

theorem test_launch_start : (next (exec (.timedLaunchStart 3) (launched 5 [])) (fun t => (t.launch? 3).map (fun x => x.released) = some true) && isNext (exec (.timedLaunchStart 3) (launched 4 [])) (launched 4 [])) = true := by
  decide +kernel

/-- A first bind at (2, 0) gives both cores the entry firing; one at (1, 0) or (31, 0) is misplaced and halts the context. -/
theorem test_bind : (let s := launched 9 [(0, { Group.fresh with granted := true })]
    s.wantsSlot 3 0 (launch [(0, { Group.fresh with granted := true })]) && next (exec (.bind 0 7 3 0 2 0) s) (fun t => (t.bindAt 0 7).op = 1 && [64, 96].all fun k =>
        (t.core k).launch = some 3 && ((t.core k).ready ++ (t.core k).matched).length = 1) &&
      [1, 31].all fun ox => next (exec (.bind 0 7 3 0 ox 0) s) (fun t => (t.ctx 1).state = .halted && (t.ctx 1).haltCause = 4)) = true := by decide +kernel

/-- A group on slot 7 whose cores are idle, unbinding. -/
def bound (st : GState) (op : Nat) : State :=
  let x := launch [(0, { Group.fresh with state := st, bound := true, slot := 7, granted := decide (st = .resident) })]
  { launched 9 [] with launches := [(3, x)], dies := [(0, { Die.fresh with binds := [(7, x.record 3 0 0 0 op 0x2000000)] })], cores := [(0, Core.fresh.bound x 3 0 ⟨3, 0, 0⟩ 0), (32, Core.fresh.bound x 3 0 ⟨3, 1, 0⟩ 0)] }

theorem test_unbind_and_retire : (isNext (exec (.unbind 0 7) (bound .resident 1)) (bound .resident 1) && isNext (exec (.retire 0 7) (bound .resident 1)) (bound .resident 1) &&
    next (exec (.retire 0 7) (bound .resident 3)) (fun t => (t.bindAt 0 7).op = 0 && (t.core 32).launch = none) && isNext (exec (.retire 8 7) (bound .resident 3)) (bound .resident 3)) = true := by decide +kernel

/-- A launch of a better class wants a slot on the die. -/
theorem test_cast_write : next (exec (.castWrite 0) (bound .unbinding 2)) (fun t => (t.core 0).launch = none && ((t.launch? 3).map fun x => (x.group 0).state) = some .unbinding &&
    next (exec (.castWrite 32) t) fun u => ((u.launch? 3).map fun x => (x.group 0).state) = some .swapped && (u.bindAt 0 7).op = 0) = true := by decide +kernel

/-- The quantum of 200 µs ends at 200,000. -/
theorem test_quantum : (isNext (exec (.quantumExpiry 3) { bound .resident 1 with time := 199999 }) { bound .resident 1 with time := 199999 } &&
    next (exec (.quantumExpiry 3) { bound .resident 1 with time := 200000 }) (fun t => ((t.launch? 3).map fun x => x.since) = some 200000)) = true := by decide +kernel

theorem test_quiescence : (isNext (exec (.launchQuiescence 3) (bound .unbinding 2)) (bound .unbinding 2) && (let s := { (bound .resident 1).modCtx 1 (fun x => { x with shadows := [(⟨3, 2, 0⟩, Core.fresh.shadow)] }) with launches := [(3, { launch [(0, { Group.fresh with state := .resident, bound := true, slot := 7 }), (1, { Group.fresh with state := .swapped, bound := true })] with live := true })] }
    next (exec (.launchQuiescence 3) s) (fun t => ((t.launch? 3).map fun x => x.live) = some false))) = true := by decide +kernel

/-! ### What arrives at a core (09 R156-R169, 10 R173-R176) -/

/-- Launch 3 resident on cores 0 and 32, its one actor taking one message of handler 5, and counter 2 armed at 2; two publications fly, the second to core (1, 0). -/
def flying (b : Body) : State :=
  let s := bound .resident 1
  { (s.modCtx 1 fun x => { x with layLog := 16, handlers := [(5, BitVec.ofNat 64 (1 + 7 * 65536))], kernels := [(7, { Kernel.absent with state := .loaded, actors := [⟨0, [⟨.message, 1, 0⟩], true, 5⟩], funcs := [1], refs := [3] })] }).modCore 32
      (fun c => { c with vs := { c.vs with joins := [(2, { Join.idle with count := 2, state := .armed })], ls := [(0x100, 7)] } }) with
    flights := [⟨0, 1, ⟨3, 0, 0⟩, .carry 1 1⟩, ⟨0, 1, ⟨3, 1, 0⟩, b⟩] }

/-- A message of this kind and handler. -/
def msgOf (k : MKind) (h : Nat) : Body := .msg ⟨k, h, List.replicate 8 (XReg.plain 8), 0, 1, 3, 0, none⟩

theorem test_arrives : (let s := flying (msgOf .handler 5)
    s.oldestFlight 1 ⟨0, 1, ⟨3, 1, 0⟩, msgOf .handler 5⟩ && (match s.place ⟨3, 1, 0⟩ with | .here k => k = 32 | _ => false) && (s.ctx 1).state = .live) = true := by decide +kernel

theorem test_message_arrives : (next (exec (.messageArrival 1) (flying (msgOf .handler 5))) (fun t => t.flights.length = 1 && (t.core 32).inbox.length = 1 && ((t.core 32).ready ++ (t.core 32).matched).length = 1) &&
    next (exec (.messageArrival 1) (flying (msgOf .handler 6))) (fun t => t.flights.length = 1 && (t.core 32).inbox = [] && (t.ctx 1).pending.length = 1) &&
    next (exec (.streamMessageArrival 1) (flying (msgOf .stream 0))) (fun t => (t.core 32).ib.length = 8) &&
    isNext (exec (.wakeArrival 1) (flying (msgOf .handler 5))) (flying (msgOf .handler 5))) = true := by decide +kernel

/-- 63 messages and 64 in the inbox. -/
theorem test_inbox_full : (let at_ (n : Nat) : State := (flying (msgOf .handler 5)).modCore 32 fun c =>
      { c with inbox := (List.range n).map (fun i => ⟨i, ⟨.handler, 5, [], 0, 1, 3, 0, none⟩, some ⟨7, 0⟩, true⟩), nextMsg := n }
    next (exec (.messageArrival 1) (at_ 63)) (fun t => (t.core 32).inbox.length = 64) && next (exec (.messageArrival 1) (at_ 64)) (fun t => (t.core 32).inbox.length = 64 && (t.ctx 1).lay.length = 1)) = true := by
  decide +kernel

theorem test_bodies_arrive : (next (exec (.joinDecrementArrival 1) (flying (.join 1 2))) (fun t => ((t.core 32).vs.joins.map fun p => p.2.count) = [1]) &&
    next (exec (.joinDecrementArrival 1) (flying (.join 2 2))) (fun t => t.flights.length = 1 && (t.ctx 1).pending.length = 1) &&
    next (exec (.joinDecrementArrival 1) (flying (.join 1 3))) (fun t => (t.ctx 1).pending.length = 1) &&
    next (exec (.remoteOperationArrival 1) (flying (.remote .add 0x100 4 5 0 none))) (fun t => (t.core 32).vs.lsNat 0x100 4 = 12) &&
    next (exec (.mcstArrival 1) (flying (.mcst 0x100 9 2))) (fun t => (t.core 32).vs.lsNat 0x100 4 = 9 && ((t.core 32).vs.joins.map fun p => p.2.count) = [1]) &&
    next (exec (.carryArrival 1) (flying (.carry 7 5))) (fun t => (t.core 32).mailbox = [(7, 5)])) = true := by decide +kernel

theorem test_mailbox_full : (let at_ (n : Nat) : State := (flying (.carry 7 5)).modCore 32 fun c => { c with mailbox := List.replicate n (7, 5) }
    next (exec (.carryArrival 1) (at_ 15)) (fun t => (t.core 32).mailbox.length = 16) && isNext (exec (.carryArrival 1) (at_ 16)) (at_ 16)) = true := by decide +kernel

/-- A firing of core 0 that waits to migrate to (1, 0), and a core with waymarks. -/
def migrating (ws : List Waymark) : State := (bound .resident 1).modCore 0 fun c =>
  { c with
    run := .waiting .migrate false, firing := some (Firing.new (.actor ⟨7, 0⟩) 1 (some 3) false [] [] []),
    again := some (.migrate ⟨false, 0, .x 0, .x 6, .x 0⟩), waymarks := ws, vs := { c.vs with x := [(6, targetCap.move 0x900000001)] } }

theorem test_migration : (next (exec (.migrateDepart 0) (migrating [])) (fun t => t.flights.length = 1 && (t.core 0).run = .idle && (t.core 0).waymarks.length = 1) &&
    isNext (exec (.migrateDepart 0) (migrating (List.replicate 8 ⟨.actor ⟨7, 0⟩, some 3, 5, ⟨3, 1, 0⟩, 9, 0⟩))) (migrating (List.replicate 8 ⟨.actor ⟨7, 0⟩, some 3, 5, ⟨3, 1, 0⟩, 9, 0⟩)) &&
    next (exec (.lateReplyRedirect 0) (migrating [⟨.actor ⟨7, 0⟩, some 3, 5, ⟨3, 1, 0⟩, 9, 2⟩])) (fun t => (t.core 0).waymarks = [⟨.actor ⟨7, 0⟩, some 3, 5, ⟨3, 1, 0⟩, 9, 1⟩]) &&
    isNext (exec (.lateReplyRedirect 0) (migrating [⟨.actor ⟨7, 0⟩, some 3, 5, ⟨3, 1, 0⟩, 9, 0⟩])) (migrating [⟨.actor ⟨7, 0⟩, some 3, 5, ⟨3, 1, 0⟩, 9, 0⟩]) &&
    next (exec (.waymarkExpiry 0) (migrating [⟨.actor ⟨7, 0⟩, some 3, 5, ⟨3, 1, 0⟩, 0, 0⟩])) (fun t => (t.core 0).waymarks = []) &&
    isNext (exec (.waymarkExpiry 0) (migrating [⟨.actor ⟨7, 0⟩, some 3, 5, ⟨3, 1, 0⟩, 1, 0⟩])) (migrating [⟨.actor ⟨7, 0⟩, some 3, 5, ⟨3, 1, 0⟩, 1, 0⟩])) = true := by decide +kernel

/-! ### Firings start, stop and go on -/

/-- Core 0 with two ready firings: of class 2, then of class 1 on the code of a handle. -/
def readied (r : Option Resume) : State := (keyed (bound .resident 1)).modCore 0 fun c =>
  { c with ready := [Firing.new (.handle ⟨5, 2, 9⟩) 2 (some 3) false [XReg.plain 1] [] [], { Firing.new (.handle ⟨5, 2, 9⟩) 1 (some 3) false [XReg.plain 8] [] [⟨5, 2, 9⟩] with resume := r }] }

theorem test_pick : (next (exec (.schedulerPick 0) (readied none)) (fun t => (t.core 0).run = .running && (t.core 0).pc = 0x10000 && (t.vs 0).getX 1 = XReg.plain 8 && (t.core 0).ready.length + (t.core 0).matched.length = 1) &&
    next (exec (.schedulerPick 0) (readied (some ⟨[(9, XReg.plain 3)], [], [], some [], 0, 0, 0, 0x10008, codeCap 0x10000 2, .port 0, 0, none, none⟩))) (fun t => (t.core 0).pc = 0x10008 && (t.vs 0).getX 9 = XReg.plain 3) &&
    isNext (exec (.schedulerPick 0) one) one) = true := by decide +kernel

/-- A READY firing of a resident group of a live context whose kernel is there starts at its function. -/
theorem test_pick_completes : (let f := Firing.new (.actor ⟨7, 0⟩) 1 (some 3) false [] [] []
    let s := ((bound .resident 1).modCtx 1 fun x => { x with kernels := [(7, { Kernel.absent with state := .loaded, actors := [⟨0, [⟨.message, 1, 0⟩], true, 1⟩], funcs := [1], refs := [3], places := [(0x10000, 2)] })] }).modCore 0 fun c => { c with ready := [f] }
    ((s.core 0).run = .idle && (s.core 0).preempt.isNone && !(s.core 0).barred && (s.ctx 1).state = .live && (s.core 0).launch = some 3 && ((s.launch? 3).any fun x => (x.group (s.core 0).group).state = .resident && x.released && f.cls ≤ x.prio) &&
      (((s.ctx 1).kernel 7).actor? 0).any fun a => ((s.ctx 1).kernel 7).places.getD a.func (0, 0) = (0x10000, 2)) && ((s.ctx 1).kernel 7).state = .loaded && (s.core 0).matched = [] &&
    next (exec (.schedulerPick 0) s) fun t => (t.core 0).run = .running && (t.core 0).pc = 0x10000 && (t.core 0).pcc = codeCap 0x10000 2) = true := by decide +kernel

/-- A request of cycle 0 at cycles 74,999 and 75,000. -/
theorem test_preemption : (let at_ (n : Nat) : State := { one.modCore 0 (fun c => { c with preempt := some ⟨.quantum, 0, false, false⟩ }) with cycle := n }
    isNext (exec (.preemptionAbort 0) (at_ 74999)) (at_ 74999) && next (exec (.preemptionAbort 0) (at_ 75000)) (fun t => (t.core 0).run = .idle && (t.core 0).firing = none &&
      ((t.core 0).ready ++ (t.core 0).matched).length = 1)) = true := by decide +kernel

theorem test_held_publication : (let at_ (w : Wait) : State := one.modCore 0 fun c => { c with run := .waiting w false }
    !(at_ .boundary).isHeld 0 [] && next (exec (.boundaryRelease 0) (at_ .boundary)) (fun t => (t.core 0).run = .running) &&
      isNext (exec (.boundaryRelease 0) (at_ (.safe 0 0x10010))) ((at_ (.safe 0 0x10010)).safePoint 0 0 0x10010 false)) = true := by decide +kernel

theorem test_world_stops : (let s := (one.modCtx 1 fun x => { x with stopper := some 0 }).modCore 0 fun c => { c with run := .waiting .world false }
    let busy : State := { s with cores := s.cores ++ [(1, core0)] }
    next (exec (.worldStopped 1) s) (fun t => (t.ctx 1).state = .stopped && (t.core 0).pc = 0x10008) && isNext (exec (.worldStopped 1) busy) busy) = true := by decide +kernel

/-- Each kind of wait, ended and not ended. -/
theorem test_waits_end : (let at_ (w : Wait) : State := { (events.modCore 0 fun c => { c with run := .waiting w false, mailbox := [(7, 5)] }) with time := 20 }
    let done (i : Instr) (w : Wait) : Bool := next (exec i (at_ w)) fun t => (t.core 0).pc = 0x10008 && (t.core 0).run = .running
    let stays (i : Instr) (w : Wait) : Bool := isNext (exec i (at_ w)) (at_ w)
    done (.eventWake 0) (.event 6 true) && stays (.eventWake 0) (.event 6 false) && done (.jobWaitEnd 0) (.job 0) && done (.copyWaitEnd 0) (.copy 0) && stays (.jobWaitEnd 0) (.copy 0) &&
      done (.timedRelease 0) (.stamp 20) && stays (.timedRelease 0) (.stamp 21) && done (.carryTake 0) (.carry 7 (.x 5)) && stays (.carryTake 0) (.carry 8 (.x 5)) &&
      done (.remoteReply 0) (.remote (.x 5) (some 3)) && stays (.remoteReply 0) (.remote (.x 5) none) &&
      [(Instr.portWaitEnd 0, Wait.port), (.handleWaitEnd 0, .handle), (.jobWaitEnd 0, .window false 0), (.copyWaitEnd 0, .window true 0)].all fun p =>
        next (exec p.1 (at_ p.2)) fun t => (t.core 0).run = .running && (t.core 0).pc = 0x10000) = true := by decide +kernel

/-- A set that wakes a core, a clear, and an operation that is not the oldest of its core. -/
theorem test_events_at_home : (let s (set : Bool) : State := { (events.modCtx 1 fun x => { x with events := [(6, ⟨!set, if set then [.core 0] else [], false⟩)] }).modCore 0 (fun c => { c with run := .waiting (.event 6 false) false }) with
      evops := [⟨3, 1, set, 6, none, none⟩, ⟨3, 1, set, 6, none, none⟩] }
    next (exec (.eventSetAtHome 0) (s true)) (fun t => ((t.ctx 1).event 6).set && ((t.ctx 1).event 6).waiters = [] && (t.core 0).run = .waiting (.event 6 true) false && t.evops.length = 1) &&
      next (exec (.eventClearAtHome 0) (s false)) (fun t => !((t.ctx 1).event 6).set) && isNext (exec (.eventSetAtHome 1) (s true)) (s true)) = true := by decide +kernel

/-- A scan of one participant, 20 on nothing. -/
theorem test_scan_completes : (let f : FSC := ⟨false, 0, .i64, false, false, true, .sum, .x 5, .x 1, .x 0⟩
    next (exec (.scan f) sent) fun t => next (exec (.scanComplete 0) t) fun u => (u.core 0).run = .running && (u.core 0).pc = 0x10008 && (u.core 0).vs.getX 5 = XReg.plain 20 && (u.core 0).committed) = true := by
  decide +kernel

/-! ### Misses, faults, pages (13 R222-R228, 22 R420) -/

/-- Page tables of context 1 from 0x40000000 that map the pages 0x100000 and 0x110000 for reads and writes, and ask for 0x120000 on demand (R220, R464). -/
def tabled (s : State) : State :=
  let t := s.modCtx 1 fun x => { x with root := 0x40000000 }
  let t := ((t.writeWord 0x40000000 0x40110001).writeWord 0x40110000 0x40120001).writeWord 0x40120000 0x40130001
  ((t.writeWord (0x40130000 + 8 * 16) (leafWord 0x700000 true true false false)).writeWord (0x40130000 + 8 * 17) (leafWord 0x710000 true true false false)).writeWord
    (0x40130000 + 8 * 18) 0x800000000000000E

/-- Core 0 of context 1 with those tables waits on a TLB miss. -/
def mapped (va : Word) (acc : Access) : State := (tabled one).modCore 0 fun c => { c with run := .waiting (.tlb va acc) false }

theorem test_miss_served : (match (mapped 0x100008 .read).walk 1 0x100008 with
    | .leaf _ l => l.admits .read && next (exec (.tlbMissService 0) (mapped 0x100008 .read)) (fun t => (t.core 0).run = .running && (t.core 0).tlb.length = 3) &&
        !l.admits .fetch && next (exec (.tlbMissService 0) (mapped 0x100008 .fetch)) (fun t => (t.core 0).run = .idle)
    | _ => false) = true := by decide +kernel

theorem test_miss_without_leaf : (match (mapped 0x900000 .read).walk 1 0x900000 with
    | .leaf _ _ => false
    | _ => next (exec (.tlbMissService 0) (mapped 0x900000 .read)) (fun t => (t.core 0).firing = none)) = true := by decide +kernel

/-- A firing. -/
def firingOf : Firing := Firing.new (.actor ⟨1, 0⟩) 2 none false [] [] []

/-- A firing aborted by PAGE at a demand entry, at an address without an entry, and at one whose leaf stands by now. -/
theorem test_page_service : (let at_ (va : Word) : State := (mapped va .read).modCore 0 fun c => { c with run := .idle, firing := none, aborted := [⟨firingOf, va, .read, 0x10000, none, false⟩] }
    (match (at_ 0x120008).tableWalk 1 0x120008 with | .demand _ lv e => demandAdmits e .read && lv = 0 | _ => false) && next (exec (.pageService 0) (at_ 0x100008)) (fun t => (t.core 0).aborted = [] && (t.ctx 1).pending.length = 1) &&
      next (exec (.pageService 0) (at_ 0x900000)) (fun t => (t.core 0).aborted = [] && (t.ctx 1).pending.length = 1)) = true := by decide +kernel

/-- Which frame a demand page takes is a free value; where no frame is taken there is one. -/
theorem test_frame_taken : ∃ f s1, State.reset.takeFrame (2 ^ pageLog 0) 0 memTop = some (f, s1) ∧ s1.frames = [(f, 65536)] := ⟨_, _, rfl, rfl⟩

theorem test_fault_actor : (let s (fault : Bool) : State := one.modCtx 1 fun x => { x with pending := [⟨[0x40, 0, 0], none, fault, false⟩] }
    (s true).ctx 1 |>.faultActor |> fun a => a = none && next (exec (.faultActorFire 1 0) (s true)) (fun t => (t.ctx 1).pending = [] && (t.ctx 1).state = .live) &&
      next (exec (.faultActorFire 1 0) (s false)) (fun t => (t.ctx 1).state = .halted && (t.ctx 1).haltCause = 2)) = true := by decide +kernel

/-- A service ring of 64 records that is full; the host has read one. -/
theorem test_ring_poll : (let s := (mapped 0x100008 .read).modCtx 1 fun x => { x with sv := ⟨0x100000, 6, 64, 0, [[1]]⟩ }
    match s.vaToPa 1 .read 0x100008 with
    | some pa => next (exec (.ringRcountPoll 1 .service) (s.writeWord pa 1)) (fun t => (t.ctx 1).sv.waiting = [] && (t.ctx 1).sv.rcount = 1 && (t.ctx 1).sv.wcount = 65)
    | none => false) = true := by decide +kernel

theorem test_pages_stay : (isNext (exec (.promotion 1 0x100000) one) one && next (exec (.promotion 1 0x200000) (one.modCtx 1 fun x => { x with offers := [0x200000] })) (fun t => (t.ctx 1).offers = [] && t.moving = []) &&
    isNext (exec (.promotionAbandon 1 0x200000) { one with moving := [⟨1, 0x200000, 65536, [], 0, true, some 0⟩], time := 9999 }) { one with moving := [⟨1, 0x200000, 65536, [], 0, true, some 0⟩], time := 9999 }) = true := by
  decide +kernel

/-! ### Engines (19 R361-R374, 20 R396-R400) -/

/-- A COPY of 4 bytes from 0x100000 to 0x110000 by core 0, whose descriptor stands at physical 0x600000. -/
def copying (len : Nat) : State :=
  let s := tabled (bound .resident 1)
  let cap (a : Word) : XReg := XReg.ofWords a (capHi 63 0 0 0b100011 false 0) true
  let s := (List.range 2).foldl (fun t i => t.publish none true (0x600000 + 16 * i) (bytesOf 16 (cap (BitVec.ofNat 64 (0x100000 + 0x10000 * i))).val.toNat)) s
  let s := (s.writeWord 0x600020 (BitVec.ofNat 64 len))
  match s.vaToPa 1 .write 0x100000 with
  | some pa => { s.write pa [1, 2, 3, 4] with hist := [], engines := [(0, { queue := [⟨0, false, ⟨3, 0, 0⟩, 1, 0, 3, 0x600000, 0x40000, none⟩], run := none })] }
  | none => s

theorem test_copy_runs : next (exec (.copyCommandStart 0) (copying 4)) (fun t => ((t.engine 0).run.map fun r => (r.fail, r.trusted)) = some (none, true) && Sys2Proof.Claims.nib (t.core 0).vs.csr.cpwin 0 = 3 &&
    next (exec (.copyCommandEnd 0) t) fun u => (u.engine 0).run = none && Sys2Proof.Claims.nib (u.core 0).vs.csr.cpwin 0 = 4 && match u.vaToPa 1 .read 0x110000 with
      | some pb => (List.range 5).map (fun i => u.byte (pb + i)) = [1, 2, 3, 4, 0]
      | none => false) = true := by decide +kernel

theorem test_copy_bad : next (exec (.copyCommandStart 0) (copying (2 ^ 32))) (fun t => ((t.engine 0).run.map fun r => (r.fail, r.trusted)) = some (some (.engine, 1, 0), false) &&
    next (exec (.copyCommandEnd 0) t) fun u => Sys2Proof.Claims.nib (u.core 0).vs.csr.cpwin 0 = 5 && (u.ctx 1).pending.length = 1) = true := by decide +kernel

/-- A job, or an edge command, queued in cluster 0, whose descriptor of zeros is refused at its start and fails at its end. -/
def jobs (edge : Bool) : State := { bound .resident 1 with clusters := [(0, { Cluster.fresh with queue := [⟨0, false, ⟨3, 0, 0⟩, 1, 0, edge, 0x600000, 0x40000, 2, 0, false⟩] })] }

theorem test_jobs_start : (next (exec (.meJobStart 0) (jobs false)) (fun t => (t.cluster 0).me.isSome && (t.cluster 0).queue = [] && Sys2Proof.Claims.nib (t.core 0).vs.csr.jobwin 0 = 3 &&
      next (exec (.meJobEnd 0) t) fun u => (u.cluster 0).me = none && Sys2Proof.Claims.nib (u.core 0).vs.csr.jobwin 0 = 5) &&
    isNext (exec (.jedgeStart 0) (jobs false)) (jobs false) &&
    next (exec (.jedgeStart 0) (jobs true)) (fun t => (t.cluster 0).je.length = 1 && (t.cluster 0).queue.length = 1 &&
      next (exec (.jedgeEnd 0) t) fun u => (u.cluster 0).je = [] && (u.cluster 0).queue = [] && Sys2Proof.Claims.nib (u.core 0).vs.csr.jobwin 0 = 5) &&
    isNext (exec (.edgeTileBoundary 0) (jobs true)) (jobs true)) = true := by decide +kernel

/-! ### Links, routes, time (14 R231-R241) -/

/-- Link 3 in a state, with other fields as given. -/
def linked (st : LState) (f : Link → Link) : State := { State.reset with links := [(3, f { Link.fresh with state := st })] }

theorem test_link_states : (let id_ (l : Link) : Link := l
    let st (o : Out) (x : LState) (n : Nat) : Bool := next o fun t => (t.link 3).state = x && (t.link 3).lanes = n
    st (exec (.linkEnable 3) (linked .down id_)) .training 0 && st (exec (.linkTrainingDone 3 0xFF 1 2) (linked .training id_)) .up 8 && st (exec (.linkTrainingDone 3 0x7F 1 2) (linked .training id_)) .degraded 4 &&
      st (exec (.linkTrainingDone 3 0x0F 1 2) (linked .training id_)) .degraded 4 && st (exec (.linkTrainingDone 3 0x07 1 2) (linked .training id_)) .degraded 2 && st (exec (.linkTrainingDone 3 0x03 1 2) (linked .training id_)) .degraded 2 &&
      st (exec (.linkTrainingDone 3 0x01 1 2) (linked .training id_)) .down 0 && st (exec (.laneFailure 3 0) (linked .up id_)) .training 0 && st (exec (.linkRetrain 3) (linked .degraded id_)) .training 0 &&
      isNext (exec (.linkRetrain 3) (linked .up id_)) (linked .up id_) && isNext (exec (.linkAckTimeout 3) { linked .up id_ with time := 99999 }) { linked .up id_ with time := 99999 } &&
      st (exec (.linkAckTimeout 3) { linked .up id_ with time := 100000 }) .lost 0 && st (exec (.linkDisable 3) (linked .lost id_)) .down 0) = true := by decide +kernel

/-- A message of handler 5 from another package, to core 32 of this one. -/
def flit (seq : Nat) : BitVec 2048 := mkFlit false seq 0 (wireSlots 32 8192 1 3 0 5 (List.replicate 8 (XReg.plain 8)) 0)

/-- The next flit, one with a wrong CRC, one out of order; a CRC-32C of the nine digits that the algorithm's name is checked by. -/
theorem test_flits : (let s : State := { bound .resident 1 with links := [(3, { Link.fresh with state := .up })] }
    next (exec (.flitReceive 3 (flit 1)) s) (fun t => (t.link 3).seqRx = 1 && t.flights.map (fun f => f.dst) = [⟨3, 1, 0⟩]) && isNext (exec (.flitReceive 3 (flit 1 ^^^ 2)) s) s &&
      next (exec (.flitReceive 3 (flit 2)) s) (fun t => (t.link 3).seqRx = 0 && t.flights = []) && isNext (exec (.flitReceive 3 (flit 1)) (linked .down fun l => l)) (linked .down fun l => l) &&
      next (exec (.flitReplay 3 1) (linked .up fun l => { l with sent := [flit 1, flit 2] })) (fun t => (t.link 3).retry = 2)) = true := by decide +kernel

theorem test_crc : crc32c ([0x31, 0x32, 0x33, 0x34, 0x35, 0x36, 0x37, 0x38, 0x39]) = 0xE3069283 := by decide +kernel

theorem test_routes : (next (exec (.routeChange 9 0x02) State.reset) (fun t => Table.get 0x80 (t.die 7).routes 9 = 2 && t.lostPkgs = []) && next (exec (.routeChange 9 0x80) State.reset) (fun t => t.lostPkgs = [9]) &&
    next (exec (.peerLoss 9) State.reset) (fun t => t.lostPkgs = [9]) && isNext (exec (.peerLoss 9) { State.reset with lostPkgs := [9] }) { State.reset with lostPkgs := [9] } &&
    next (exec (.dieLoss 0) (bound .resident 1)) (fun t => (t.die 0).lost && (t.core 32).ctx = none && (t.ctx 1).pending.length = 1 && ((t.launch? 3).map fun x => (x.group 0).state) = some .retired)) = true := by
  decide +kernel

theorem test_peer_loss_letter : (let s : State := { one with cores := [], links := [(3, { Link.fresh with state := .lost, sent := [mkFlit false 1 0 (wireSlots (9 * 8192) 0 1 3 0 5 (List.replicate 8 (XReg.plain 8)) 0)] })] }
    next (exec (.peerLoss 9) s) (fun t => (t.ctx 1).told = [9] && (t.ctx 1).pending.length = 1 && (t.link 3).sent = [])) = true := by decide +kernel

theorem test_time_base : (let s : State := { linked .up (fun l => l) with time := 100 }
    next (exec (.timeFlitExchange 3 104 8 (some 5) 0) s) (fun t => t.tbSync && t.tbHops = 1 && t.time = 100) && next (exec (.timeFlitExchange 3 105 8 (some 5) 0) s) (fun t => !t.tbSync && t.tbOffs = 9) &&
      next (exec (.timeFlitExchange 3 104 8 none 0) { s with rootsel := true }) (fun t => t.tbRoot) && isNext (exec (.timeFlitExchange 3 1 1 (some 5) 0) State.reset) State.reset) = true := by decide +kernel

/-! ### Management (23 R427-R436) -/

theorem test_boot : (isNext (exec .powerOn (ready .free)) (ready .free) && (let s : State := { State.reset with mgmt := { Mgmt.reset with boot := .init } }
    next (exec (.bootInitDone 0x81) s) (fun t => t.mgmt.boot = .ready && t.mgmt.reason = 4 && (t.die 0).lost && !(t.die 1).lost && (t.die 7).lost) && isNext (exec (.bootInitDone 0) State.reset) State.reset)) = true := by
  decide +kernel

/-- An image whose MAGIC is wrong does not boot. -/
theorem test_power_on : next (exec .powerOn { State.reset with mgmt := { Mgmt.reset with flash := (List.range 4).map fun i => (i, some 0) } }) (fun t => t.mgmt.boot = .fail && t.mgmt.reason = 1) = true := by decide +kernel

theorem test_provisioning : (let s (len : Word) : State := { State.reset with mgmt := { Mgmt.reset with boot := .fail, parg0 := 16, parg1 := len, window := [(0, 7)] } }
    next (exec .provWrite (s 4096)) (fun t => t.mgmt.pcmd = 2 && Sys2Proof.Claims.flash t 16 = 7 && Sys2Proof.Claims.flash t 17 = 0) && next (exec .provWrite (s 4097)) (fun t => t.mgmt.pcmd = 0x20002 && t.mgmt.flash = []) &&
      next (exec .provWrite (ready .live)) (fun t => t.mgmt.pcmd = 0x20002) && next (exec .provErase (s 0)) (fun t => t.mgmt.erased && t.mgmt.pcmd = 1) && next (exec .provReset (s 0)) (fun t => t.mgmt.boot = .rom) &&
      isNext (exec (.getVersion [1]) (s 0)) (s 0) && next (exec (.getVersion [1]) State.reset) (fun t => t.mgmt.spdm = [[1]])) = true := by decide +kernel

theorem test_register_writes : (next (exec (.featoffWrite 0xFF) (ready .free)) (fun t => t.featoff = 0x3E) && next (exec (.featoffWrite 0xFF) (ready .live)) (fun t => t.featoff = BitVec.ofNat 64 (2 ^ 63)) &&
    isNext (exec (.gaugeSourceSet 1 15 9) one) one && next (exec (.gaugeSourceSet 1 15 8) one) (fun t => ((t.ctx 1).gauge 15).src = 8) && next (exec (.gaugeClear 1 0) one) (fun t => ((t.ctx 1).gauge 0).min = -1) &&
    next (exec (.registerWrite 0x20040 5) one) (fun t => t.carg = [(7, 5)]) && isNext (exec (.registerWrite 0x20044 5) one) one && isNext (exec (.registerWrite 0x80000 5) one) one &&
    next (exec (.registerWrite 0x22108 1) one) (fun t => t.rootsel) && next (exec (.registerWrite 0xC0 0x500000) one) (fun t => (t.queue 3).base = 0x500000) &&
    next (exec (.registerWrite 0x23000 1) { one with dies := [(0, { Die.fresh with soft := 3 })] }) (fun t => (t.die 0).soft = 2) && next (exec (.registerWrite 0x25FF8 5) State.reset) (fun t => t.mgmt.window = [(0xFF8, 5)]) &&
    next (exec (.registerWrite 0x22018 (BitVec.ofNat 64 (3 * 2 ^ 32))) (linked .up fun l => { l with retry := 5 })) (fun t => (t.link 3).retry = 4)) = true := by decide +kernel

/-- The last byte of the address range and one past it; a soft error that saturates; the clock's two ends. -/
theorem test_errors_and_heat : ((match exec (.cxlMemWrite 0xC0_0001_0000 [1]) one with | .fault .noSuchAddress => true | _ => false) && next (exec (.cxlMemWrite 0x200010 [1, 2]) { one with tags := [(0x20001, true)] }) (fun t => t.byte 0x200011 = 2 && t.tags = []) &&
    next (exec (.correctableError 0 .hbmB 5) { one with dies := [(0, { Die.fresh with soft := BitVec.ofNat 64 (65535 * 2 ^ 32) })] }) (fun t => (t.die 0).soft = BitVec.ofNat 64 (65535 * 2 ^ 32) && (t.die 0).log.length = 1) &&
    next (exec (.uncorrectableError 0 (.access 0 0x40000)) one) (fun t => (t.core 0).firing = none) && next (exec (.uncorrectableError 0 .idle) one) (fun t => (t.die 0).checks.length = 1) &&
    next (exec (.thermalThrottle 1) { one with dies := [(0, { Die.fresh with mhz := 850 })] }) (fun t => (t.die 0).mhz = 800) && next (exec (.thermalRecover 1) one) (fun t => (t.die 0).mhz = 1500) &&
    next (exec .thermalShutdown one) (fun t => t.mgmt.stopped && (t.ctx 1).state = .draining)) = true := by decide +kernel

/-! ### Steps and reset -/

/-- A core that fetches ADD x5, x1, x2 from memory and runs it; a word of an opcode that nothing has; a prefix before a word that takes none. -/
theorem test_step_runs_word : (let at_ (w : Nat) : State := { one with mem := ((List.range 8).map fun i => (0x100000 + i, BitVec.ofNat 8 (w / 2 ^ (8 * i)))).filter fun c => c.2 ≠ 0 }
    next (step (at_ 0x0100000005001002)) (fun t => (t.core 0).vs.getX 5 = XReg.plain 26 && (t.core 0).pc = 0x10008) && next (step (at_ 0x0BF0000000000000)) (fun t => (t.core 0).firing = none) &&
      next (step ((at_ 0x0044000000000000).modCore 0 fun c => { c with pfx := some ⟨some 1, none, 0xFFF8⟩ })) (fun t => (t.core 0).firing = none) &&
      gives ((at_ 0x0100000005001002).fetchAt 0 0x10000) (fun r => r.1 = 0x0100000005001002)) = true := by decide +kernel

theorem test_step_turns : (isNext (step { one with agenda := [.time 3 4] }) { one with time := 3, cycle := 4 } && isNext (step { one with agenda := [.core 9] }) { one with cur := 9 } &&
    isNext (step { one with agenda := [.event (.rootselWrite 1)] }) { one with rootsel := true } && isNext (step { one with agenda := [.event (.nop none_)] }) one) = true := by decide +kernel

theorem test_reset_memory_is_canonical : State.reset.memOk := by unfold State.memOk; decide +kernel

theorem test_memory_stays_canonical : next (exec (.endFiring none_) (one.modCore 0 fun c => { c with buffer := [store 2, .store 0x40000 0x200000 [0, 0] none] })) (fun t => t.mem = [] && Memory.wf t.mem) = true := by decide +kernel


/-! ### Words written out from the spec's encodings (15 R242-R254) -/

/-- An F-R word. -/
def rw_ (d a b : Opnd) : FR := ⟨false, 0, d, a, b⟩
/-- The modifiers of a vector word that has a type only. -/
def ty_ (t : VTy) : VMod := ⟨t, .rne, false, false, false, 0⟩

theorem test_decode_system : decode 0x000C000000000000 = .ok (.nop none_) ∧ decode 0x0044000000000000 = .ok (.halt none_) ∧ decode 0x001C000000000000 = .ok (.eret none_) ∧
    decode 0x0010000000000005 = .ok (.trap ⟨false, 0, .x 0, .x 0, 5⟩) ∧ decode 0x0020000300000000 = .ok (.csrr ⟨false, 0, .x 3, .x 0, 0⟩) ∧
    decode 0x0024000300500001 = .ok (.csrw ⟨false, 0, .x 3, .x 5, 1⟩) := by decide +kernel

theorem test_decode_integer : decode 0x0100000003001002 = .ok (.add (rw_ (.x 3) (.x 1) (.x 2))) ∧ decode 0x2114000004003005 = .ok (.div ⟨false, 2, .x 4, .x 3, .x 5⟩) ∧
    decode 0x02000003003FFFFB = .ok (.addi ⟨false, 0, .x 3, .x 3, -5⟩) := by decide +kernel

theorem test_decode_capability : decode 0x0308000500500040 = .ok (.cinc ⟨false, 0, .x 5, .x 5, 64⟩) ∧ decode 0x030C000006005007 = .ok (.csetb (rw_ (.x 6) (.x 5) (.x 7))) := by
  decide +kernel

theorem test_decode_branch : decode 0x042C0009000FFFFC = .ok (.loop ⟨false, 0, false, .x 9, .x 0, -4⟩) ∧ decode 0x0428000000001000 = .ok (.jr (rw_ (.x 0) (.x 1) (.x 0))) ∧
    decode 0x042400010000000A = .ok (.jal ⟨false, 0, false, .x 1, .x 0, 10⟩) := by decide +kernel

theorem test_decode_messages : decode 0x0500000000014015 = .ok (.send ⟨false, 0, false, .x 0, .x 20, .x 21⟩) ∧ decode 0x0510000000000000 = .ok (.endFiring none_) ∧
    decode 0x051C000000C05000 = .ok (.evset (rw_ (.x 0) (.imm 5) (.x 0))) := by decide +kernel

theorem test_decode_memory : decode 0x0601800400500010 = .ok (.ld ⟨false, 0, .d, false, false, .x 4, .x 5, 16⟩) ∧
    decode 0x0605800600A00000 = .ok (.st ⟨false, 0, .d, false, false, .x 6, .x 10, 0⟩) ∧ decode 0x0608080500500000 = .ok (.ldv ⟨false, 0, false, .port 5, .x 5, 0⟩) := by decide +kernel

theorem test_decode_local_store : decode 0x0710000000016604 = .ok (.mcst (rw_ (.x 0) (.x 22) (.v 4))) ∧ decode 0x0724000803007000 = .ok (.qctl (rw_ (.port 3) (.x 7) (.x 0))) ∧
    decode 0x0714000A40004005 = .ok (.cbinit (rw_ (.ring 2 0) (.x 4) (.x 5))) ∧ decode 0x0701800400000100 = .ok (.lsld ⟨false, 0, .d, false, false, .x 4, .x 0, 0x100⟩) := by
  decide +kernel

theorem test_decode_atomic : decode 0x0803000000007006 = .ok (.aadd ⟨false, 0, true, true, .x 0, .x 0, .x 7, .x 6⟩) ∧
    decode 0x083D000000016006 = .ok (.radd ⟨false, 0, false, true, .x 0, .x 0, .x 22, .x 6⟩) := by decide +kernel

theorem test_decode_vector : decode 0x0900800601602603 = .ok (.vadd ⟨false, 0, ty_ .i32, .v 1, .v 2, .v 3⟩) ∧ decode 0x0944800604005000 = .ok (.vsplat ⟨false, 0, ty_ .i32, .v 4, .x 5, .x 0⟩) ∧
    decode 0x8A0E000604805606 = .ok (.vfma ⟨true, 0, ty_ .f32, .v 4, .port 5, .v 6⟩) ∧ decode 0x0B01C10605604000 = .ok (.vcvt ⟨false, 0, { ty_ .bf16 with xmod := 16 }, .v 5, .v 4, .x 0⟩) ∧
    decode 0x0B12000007604000 = .ok (.vredadd ⟨false, 0, ty_ .f32, .x 7, .v 4, .x 0⟩) := by decide +kernel

theorem test_decode_tile_and_engine : decode 0x0C00000600005000 = .ok (.tcfg (rw_ (.v 0) (.x 5) (.x 0))) ∧ decode 0x0C24000604601602 = .ok (.tmma (rw_ (.v 4) (.v 1) (.v 2))) ∧
    decode 0x0D0000001E018000 = .ok (.mjob (rw_ (.x 30) (.x 24) (.x 0))) ∧ decode 0x0D1A000007006000 = .ok (.scan ⟨false, 0, .f32, false, false, false, .sum, .x 7, .x 6, .x 0⟩) ∧
    decode 0x0D20000000005006 = .ok (.carrys (rw_ (.x 0) (.x 5) (.x 6))) := by decide +kernel

theorem test_decode_copy_and_handle : decode 0x0E00000003018005 = .ok (.copy (rw_ (.x 3) (.x 24) (.x 5))) ∧ decode 0x0E1000001E014015 = .ok (.spec (rw_ (.x 30) (.x 20) (.x 21))) ∧
    decode 0x0E1400000001E000 = .ok (.hrel (rw_ (.x 0) (.x 30) (.x 0))) := by decide +kernel

/-- Words that raise PREFIX or ILLEGAL by themselves (15 R255-R258): a payload bit above 31 of XIMM, SCOPE 3 and STR 0 of ORD, a field that NOP leaves
unused, a type outside the ten, two reserved specifiers. -/
theorem test_decode_refuses : decode 0x0004000100000000 = .error .prefixBad ∧ decode 0x000800000000000F = .error .prefixBad ∧ decode 0x000C000001000000 = .error .illegal ∧
    decode 0x0902800601602603 = .error .illegal ∧ decode 0x0100000003001080 = .error .illegal ∧ decode 0x0100000003001E15 = .error .illegal ∧
    (match decode 0x0000000000000000 with | .error _ => false | .ok i => match i with | .unassignedOpcode _ => true | _ => false) = true := by decide +kernel

theorem test_table_word : decodeTableWord 64 0x0100000003001002 = some (.add (rw_ (.x 3) (.x 1) (.x 2))) ∧ decodeTableWord 64 0x000C000001000000 = none := by decide +kernel

/-! ### Ill-formed terms, each refused by the check it names -/

/-- All of these are ill-formed. -/
def bad (l : List Instr) : Bool := l.all fun i => !i.wf
/-- All of these are well-formed. -/
def good (l : List Instr) : Bool := l.all fun i => i.wf

/-- Roles S, SD, RB, X, G, B8, a link, and the two that shut out class 4. -/
theorem test_wf_scalar_roles : (good [.add (rw_ (.x 3) (.port 5) .lane), .add (rw_ (.port 7) (.x 1) (.imm 9)), .add (rw_ .sink (.k 2) (.l 3)), .ins (rw_ (.y 3) (.x 1) (.x 2))] &&
    bad [.add (rw_ (.x 3) (.port 6) (.x 2)), .add (rw_ (.x 3) (.v 1) (.x 2)), .add (rw_ (.x 3) .sink (.x 2)), .add (rw_ (.x 3) (.x 1) (.ring 1 1)),
      .add (rw_ (.port 0) (.x 1) (.x 2)), .add (rw_ (.port 5) (.x 1) (.x 2)), .add (rw_ (.l 1) (.x 1) (.x 2)), .add (rw_ (.imm 1) (.x 1) (.x 2)), .add (rw_ (.k 1) (.x 1) (.x 2)),
      .csetb (rw_ (.x 6) (.x 5) (.port 0)), .cgeta (rw_ (.port 1) (.x 5) (.x 0)), .csetb (rw_ (.y 6) (.x 5) (.x 7)), .cinc ⟨false, 0, .x 5, .y 5, 64⟩,
      .beq ⟨false, 0, false, .port 0, .x 1, 0⟩, .ins (rw_ (.l 0) (.x 1) (.x 2)), .jal ⟨false, 0, false, .l 0, .x 0, 1⟩, .jr (rw_ (.x 0) (.y 1) (.x 0)),
      .send ⟨false, 0, false, .x 0, .x 20, .x 0⟩, .send ⟨false, 0, false, .x 0, .x 20, .x 121⟩, .bk ⟨false, 0, false, .x 1, .x 0, 1⟩]) = true := by decide +kernel

/-- Roles V, VD, VA, T, K, H, Q, the queues of LD, ST, LDV and STV, TCHK's and JINIT's A. -/
theorem test_wf_other_roles : (good [.vadd ⟨false, 0, ty_ .i32, .port 6, .port 5, .imm 9⟩, .tzero (rw_ (.v 7) (.x 0) (.x 0)), .tchk (rw_ (.x 1) (.v 2) (.x 3)), .stv ⟨false, 0, false, .port 6, .x 5, 0⟩,
      .qtest (rw_ (.x 1) (.port 0) (.x 0)), .jinit ⟨false, 0, .die, 3, .x 0, .imm 4, .x 0⟩] &&
    bad [.vadd ⟨false, 0, ty_ .i32, .x 1, .v 2, .v 3⟩, .vadd ⟨false, 0, ty_ .i32, .port 5, .v 2, .v 3⟩, .vadd ⟨false, 0, ty_ .i32, .port 0, .v 2, .v 3⟩, .vadd ⟨false, 0, ty_ .i32, .v 1, .port 6, .v 3⟩,
      .vadd ⟨false, 0, ty_ .i32, .v 1, .x 2, .v 3⟩, .vadd ⟨false, 0, ty_ .i32, .imm 1, .v 2, .v 3⟩, .vfma ⟨false, 0, ty_ .f32, .port 6, .v 1, .v 2⟩, .tzero (rw_ (.v 8) (.x 0) (.x 0)),
      .tchk (rw_ (.x 1) (.v 8) (.x 3)), .cbinit (rw_ (.ring 2 1) (.x 4) (.x 5)), .cbadvp (rw_ (.port 1) (.x 0) (.x 0)), .qctl (rw_ (.port 0) (.x 7) (.x 0)), .qctl (rw_ (.port 5) (.x 7) (.x 0)),
      .qtest (rw_ (.x 1) (.port 5) (.x 0)), .ldv ⟨false, 0, false, .port 6, .x 5, 0⟩, .stv ⟨false, 0, false, .port 5, .x 5, 0⟩, .ld ⟨false, 0, .d, false, false, .port 6, .x 5, 0⟩,
      .st ⟨false, 0, .d, false, false, .port 5, .x 5, 0⟩, .jinit ⟨false, 0, .die, 3, .x 0, .k 4, .x 0⟩, .mcst (rw_ (.x 0) (.x 22) (.port 0))]) = true := by decide +kernel

/-- A field the word leaves unused; early-bound marks on a capability, on a class above 2 and on a field not read; the safe-point bit. -/
theorem test_wf_unused_marks_safe_point : (good [.add ⟨true, 3, .x 3, .y 1, .l 2⟩, .ins ⟨false, 4, .x 3, .x 1, .x 2⟩, .yieldFiring ⟨true, 0, .x 0, .x 0, .x 0⟩] &&
    bad [.clz (rw_ (.x 3) (.x 1) (.x 2)), .nop (rw_ (.x 1) (.x 0) (.x 0)), .movi ⟨false, 0, .x 3, .x 1, 5⟩, .join ⟨false, 0, 0, 1, .x 1, .x 5, .x 0⟩, .cgeta ⟨false, 1, .x 3, .x 1, .x 0⟩,
      .add ⟨false, 1, .x 3, .imm 1, .x 2⟩, .add ⟨false, 2, .x 3, .x 1, .port 0⟩, .add ⟨false, 4, .x 3, .x 1, .x 2⟩, .ld ⟨false, 1, .d, false, false, .x 4, .x 5, 16⟩,
      .eret ⟨true, 0, .x 0, .x 0, .x 0⟩, .halt ⟨true, 0, .x 0, .x 0, .x 0⟩, .endFiring ⟨true, 0, .x 0, .x 0, .x 0⟩, .migrate ⟨true, 0, .x 0, .x 1, .x 0⟩, .yieldFiring none_]) = true := by
  decide +kernel

theorem test_wf_immediates : (good [.trap ⟨false, 0, .x 0, .x 0, 255⟩, .trapd ⟨false, 0, .x 0, .x 0, 25⟩, .brk ⟨false, 0, .x 0, .x 0, 65535⟩, .csrr ⟨false, 0, .x 3, .x 0, 4095⟩] &&
    bad [.trap ⟨false, 0, .x 0, .x 0, 256⟩, .trapd ⟨false, 0, .x 0, .x 0, 0⟩, .trapd ⟨false, 0, .x 0, .x 0, 26⟩, .brk ⟨false, 0, .x 0, .x 0, 65536⟩, .csrr ⟨false, 0, .x 3, .x 0, 4096⟩]) = true := by
  decide +kernel

/-- Sign extension of a doubleword and of a store; a quad without its queue; the space of LSLD; .P with a D and on RADD. -/
theorem test_wf_memory_modifiers : (good [.ld ⟨false, 0, .w, true, true, .x 4, .x 5, 16⟩, .ld ⟨false, 0, .q, false, false, .port 5, .x 5, 16⟩, .aadd ⟨false, 0, true, true, .x 0, .x 0, .x 7, .x 6⟩] &&
    bad [.ld ⟨false, 0, .d, true, false, .x 4, .x 5, 16⟩, .st ⟨false, 0, .w, true, false, .x 4, .x 5, 16⟩, .ld ⟨false, 0, .q, false, false, .x 4, .x 5, 16⟩, .st ⟨false, 0, .q, false, false, .x 4, .x 5, 16⟩,
      .lsld ⟨false, 0, .d, false, true, .x 4, .x 0, 0⟩, .lsld ⟨false, 0, .q, false, false, .x 4, .x 0, 0⟩, .lsst ⟨false, 0, .q, false, false, .x 4, .x 0, 0⟩,
      .aadd ⟨false, 0, true, true, .x 0, .x 1, .x 7, .x 6⟩, .radd ⟨false, 0, true, true, .x 0, .x 0, .x 7, .x 6⟩, .acas ⟨false, 0, true, true, .port 1, .x 0, .x 7, .x 6⟩]) = true := by decide +kernel

/-- A word of three vector registers with these modifiers. -/
def v3 (md : VMod) : FV := ⟨false, 0, md, .v 1, .v 2, .v 3⟩
/-- A word of two. -/
def v2 (md : VMod) : FV := ⟨false, 0, md, .v 1, .v 2, .x 0⟩

theorem test_wf_vector_modifiers : (good [.vadd (v3 { ty_ .i8 with sat := true, m := true, xmod := 1 }), .vfadd (v3 { ty_ .f16 with rm := .rup, sat := true }), .vcvt (v2 { ty_ .f32 with xmod := 14 }),
      .vfcmp (v3 { ty_ .f32 with xmod := 4 }), .vadd ⟨false, 0, { ty_ .i8 with s := true }, .v 1, .port 0, .v 3⟩] &&
    bad [.vadd (v3 (ty_ .f32)), .vfadd (v3 (ty_ .i32)), .vadd (v3 { ty_ .i8 with rm := .rtz }), .vadd (v3 { ty_ .i8 with xmod := 2 }), .vand (v3 { ty_ .i8 with sat := true }), .vand (v3 { ty_ .i8 with xmod := 1 }),
      .vadd (v3 { ty_ .i8 with s := true }), .vadd ⟨false, 0, { ty_ .i8 with s := true }, .v 1, .port 5, .v 3⟩, .vsel (v3 { ty_ .i8 with m := true }), .vdot4 (v3 (ty_ .i16)), .vfsqrt (v2 { ty_ .f32 with sat := true }),
      .vfrsq (v2 (ty_ .f64)), .vcvt (v2 { ty_ .f32 with xmod := 16 }), .vcvt (v2 { ty_ .f32 with xmod := 15 }), .vcvt (v2 { ty_ .f32 with xmod := 20 }), .vfcmp (v3 { ty_ .f32 with xmod := 5 }),
      .vpack (v3 (ty_ .i8)), .vunpk (v2 (ty_ .i64)), .vunpk (v2 { ty_ .i8 with xmod := 4 }), .vredmax ⟨false, 0, { ty_ .f32 with xmod := 1 }, .x 7, .v 4, .x 0⟩,
      .vredadd ⟨false, 0, ty_ .e4m3, .x 7, .v 4, .x 0⟩, .vredadd ⟨false, 0, { ty_ .i32 with rm := .rup }, .x 7, .v 4, .x 0⟩, .vsplat ⟨false, 0, { ty_ .i32 with s := true }, .v 4, .x 5, .x 0⟩,
      .scan ⟨false, 0, .i8, false, false, false, .sum, .x 7, .x 6, .x 0⟩, .scan ⟨false, 0, .f32, false, false, false, .sum, .x 7, .x 6, .x 1⟩]) = true := by decide +kernel

/-- The numbers of the events. -/
theorem test_wf_events : (good [.create 255, .launch 2047, .retire 2097151 1023, .castWrite 8191, .meJobStart 1023, .copyCommandStart 31, .linkEnable 17, .laneFailure 17 7, .dieLoss 7, .peerLoss 262143, .gaugeSourceSet 255 15 8] &&
    bad [.create 256, .launch 2048, .retire 2097152 0, .retire 0 1024, .castWrite 8192, .meJobStart 1024, .copyCommandStart 32, .linkEnable 18, .laneFailure 17 8, .dieLoss 8, .peerLoss 262144, .gaugeSourceSet 255 16 8,
      .gaugeSourceSet 255 15 9, .pageMigration 0 0 16, .uncorrectableError 0 (.tiles 0 8), .unassignedOpcode 0x0100000000000000]) = true := by decide +kernel

/-- The digest of "abc" (FIPS 180-4's example), and the base point on its curve (FIPS 186-5, SP 800-186). -/
theorem test_sha512 : sha512 [0x61, 0x62, 0x63] =
    0xddaf35a193617abacc417349ae20413112e6fa4e89a97ea20a9eeee64b55d39a2192992a274fc1a836ba3c23a3feebbd454d4423643ce80e2a9ac94fa54ca49f := by decide +kernel

theorem test_curve : (p521Base.2 ^ 2) % p521 = (p521Base.1 ^ 3 + 3 * (p521 - p521Base.1) +
    0x0051953EB9618E1C9A1F929A21A0B68540EEA2DA725B99B315F3B8B489918EF109E156193951EC7E937B1652C0BD3BB1BF073573DF883D2C34F1EF451FD46B503F00) % p521 := by decide +kernel

end Sys2Proof.Tests
end

section
/-! SUPPORT. What publishing, reporting and matching leave of the contexts and of the cores' firings (05 R95, R101; 09 R154): no context that is
not LIVE, STOPPED or HALTED becomes one of these, no core gains or loses the firing it runs, and an idle core stays idle. -/

namespace Sys2Proof.Machine

/-! ### The relations -/

/-- From `s` to `t` the host is told nothing, and no context becomes active that was not. -/
structure Quiet (s t : State) : Prop where
  notices : t.notices = s.notices
  inactive : ∀ n, (s.ctx n).active = false → (t.ctx n).active = false

/-- The core runs a firing where it ran one, and is idle where it was. -/
structure Core.Holds (c d : Core) : Prop where
  firing : d.firing.isSome = c.firing.isSome
  idle : c.run = .idle → d.run = .idle

/-- A quiet change that takes no core's firing from it and gives none. -/
structure Calm (s t : State) : Prop extends Quiet s t where
  core : ∀ k, (s.core k).Holds (t.core k)

theorem Quiet.refl (s : State) : Quiet s s := ⟨rfl, fun _ h => h⟩

theorem Quiet.trans {s t u : State} (h : Quiet s t) (g : Quiet t u) : Quiet s u :=
  ⟨g.notices.trans h.notices, fun n hn => g.inactive n (h.inactive n hn)⟩

/-- `Quiet.trans` with the later change first: what is left of it says what the earlier one is. -/
theorem Quiet.comp {s t u : State} (g : Quiet t u) (h : Quiet s t) : Quiet s u := h.trans g

theorem Core.Holds.refl (c : Core) : c.Holds c := ⟨rfl, id⟩

theorem Core.Holds.trans {c d e : Core} (h : c.Holds d) (g : d.Holds e) : c.Holds e :=
  ⟨g.firing.trans h.firing, fun hc => g.idle (h.idle hc)⟩

theorem Calm.refl (s : State) : Calm s s := ⟨Quiet.refl s, fun _ => Core.Holds.refl _⟩

theorem Calm.trans {s t u : State} (h : Calm s t) (g : Calm t u) : Calm s u :=
  ⟨h.toQuiet.trans g.toQuiet, fun k => (h.core k).trans (g.core k)⟩

/-- A fold of changes each of which is in a reflexive and transitive relation. -/
theorem foldl_related {σ α : Type} {R : σ → σ → Prop} (refl : ∀ s, R s s) (trans : ∀ {s t u}, R s t → R t u → R s u)
    {f : σ → α → σ} (h : ∀ s a, R s (f s a)) (l : List α) (s : σ) : R s (l.foldl f s) := by
  induction l generalizing s with
  | nil => exact refl s
  | cons a l ih => exact trans (h s a) (ih (f s a))

/-- `Calm.trans` with the later change first. -/
theorem Calm.comp {s t u : State} (g : Calm t u) (h : Calm s t) : Calm s u := h.trans g

theorem Calm.foldl {α : Type} {f : State → α → State} (h : ∀ s a, Calm s (f s a)) (l : List α) (s : State) : Calm s (l.foldl f s) :=
  foldl_related Calm.refl Calm.trans h l s

theorem Quiet.foldl {α : Type} {f : State → α → State} (h : ∀ s a, Quiet s (f s a)) (l : List α) (s : State) : Quiet s (l.foldl f s) :=
  foldl_related Quiet.refl Quiet.trans h l s

/-! ### Changes of one part of the state -/

section Parts

variable (s : State)

theorem Quiet.of_ctxs {s t : State} (hn : t.notices = s.notices) (hx : t.ctxs = s.ctxs) : Quiet s t :=
  ⟨hn, fun n h => by simpa [State.ctx, hx] using h⟩

/-- Whatever else changes, a state with the same contexts, cores and notices is calm. -/
theorem Calm.of_frame {s t : State} (hn : t.notices = s.notices) (hx : t.ctxs = s.ctxs) (hc : t.cores = s.cores) : Calm s t :=
  ⟨Quiet.of_ctxs hn hx, fun k => by simpa [State.core, hc] using Core.Holds.refl (s.core k)⟩

theorem Calm.of_ctx {s t : State} (hn : t.notices = s.notices) (hc : t.cores = s.cores)
    (hx : ∀ n, (s.ctx n).active = false → (t.ctx n).active = false) : Calm s t :=
  ⟨⟨hn, hx⟩, fun k => by simpa [State.core, hc] using Core.Holds.refl (s.core k)⟩

theorem State.setCtx_calm (n : Nat) (x : Ctx) (h : (s.ctx n).active = false → x.active = false) : Calm s (s.setCtx n x) := by
  refine .of_ctx rfl rfl fun m hm => ?_
  by_cases hmn : m = n
  · subst hmn; simpa using h hm
  · simpa [hmn] using hm

theorem Ctx.active_congr {x y : Ctx} (h : y.state = x.state) : y.active = x.active := by simp [Ctx.active, h]

theorem State.modCtx_calm (n : Nat) (f : Ctx → Ctx) (h : ∀ x, (f x).state = x.state) : Calm s (s.modCtx n f) :=
  s.setCtx_calm n _ fun hx => (Ctx.active_congr (h _)).trans hx

theorem State.modCtx_quiet (n : Nat) (f : Ctx → Ctx) (h : ∀ x, (f x).state = x.state) : Quiet s (s.modCtx n f) :=
  (s.modCtx_calm n f h).toQuiet

theorem State.setCore_calm (k : Nat) (c : Core) (h : (s.core k).Holds c) : Calm s (s.setCore k c) := by
  refine ⟨.of_ctxs rfl rfl, fun j => ?_⟩
  by_cases hj : j = k
  · subst hj; simpa using h
  · simpa [hj] using Core.Holds.refl (s.core j)

theorem State.modCore_calm (k : Nat) (f : Core → Core) (h : ∀ c : Core, c.Holds (f c)) : Calm s (s.modCore k f) :=
  s.setCore_calm k _ (h _)

theorem State.modCore_quiet (k : Nat) (f : Core → Core) : Quiet s (s.modCore k f) := .of_ctxs rfl rfl

/-- What the same change of every core leaves of one. -/
theorem State.mapCores_core (g : Nat × Core → Nat × Core) (hk : ∀ p, (g p).1 = p.1) (k : Nat) :
    ({ s with cores := s.cores.map g } : State).core k = ((Table.find? s.cores k).map fun c => (g (k, c)).2).getD Core.fresh := by
  have hg : g = fun p => (p.1, (g (p.1, p.2)).2) := funext fun p => Prod.ext (hk p) rfl
  rw [State.core, Table.get_eq_find?, hg, Table.find?_map s.cores (fun i c => (g (i, c)).2)]

theorem State.mapCores_calm (g : Nat × Core → Nat × Core) (hk : ∀ p, (g p).1 = p.1) (h : ∀ p : Nat × Core, p.2.Holds (g p).2) :
    Calm s { s with cores := s.cores.map g } := by
  refine ⟨.of_ctxs rfl rfl, fun k => ?_⟩
  rw [s.mapCores_core g hk, State.core, Table.get_eq_find?]
  cases Table.find? s.cores k with
  | none => exact Core.Holds.refl _
  | some c => exact h (k, c)

end Parts

/-! ### Memory and rings -/

section Rings

variable (s : State)

theorem State.publishPiece_calm (narrow tag a bs) : Calm s (s.publishPiece narrow tag a bs) := by
  simp only [State.publishPiece]
  split <;> exact .of_frame rfl rfl rfl

theorem State.publish_calm (narrow tag a bs) : Calm s (s.publish narrow tag a bs) := by
  simp only [State.publish]
  exact Calm.foldl (f := fun t (p : Nat × List Byte) => t.publishPiece narrow tag p.1 p.2)
    (fun t p => State.publishPiece_calm t narrow tag p.1 p.2) _ s

theorem State.writeWord_calm (a : Nat) (w : Word) : Calm s (s.writeWord a w) := s.publish_calm _ _ _ _

theorem State.fenceCode_calm (lo hi : Nat) : Calm s (s.fenceCode lo hi) := .of_frame rfl rfl rfl

theorem State.widen_calm (k : Nat) : Calm s (s.widen k) := by
  simp only [State.widen]
  split
  · exact .of_frame rfl rfl rfl
  · exact .refl s

theorem State.sample_calm (ctx src : Nat) (v : Word) : Calm s (s.sample ctx src v) := by
  simp only [State.sample]
  split
  · exact s.setCtx_calm ctx _ id
  · exact .refl s

theorem State.writeVa_calm {s t : State} {ctx : Nat} {va : Word} {l : List Word} (h : s.writeVa ctx va l = some t) : Calm s t := by
  induction l generalizing s va with
  | nil => cases h; exact .refl _
  | cons w l ih =>
    simp only [State.writeVa] at h
    split at h
    · exact (State.writeWord_calm _ _ w).trans (ih h)
    · cases h

@[simp] theorem Ctx.setRing_state (c : Ctx) (k : RingKind) (x : RingSt) : (c.setRing k x).state = c.state := by cases k <;> rfl

theorem State.ringWrite_calm {s t : State} {ctx : Nat} {k : RingKind} {rec : List Word} (h : s.ringWrite ctx k rec = some t) :
    Calm s t := by
  simp only [State.ringWrite] at h
  split at h
  · cases h
  · split at h
    · cases h
    · next h1 =>
      split at h
      · cases h
      · next h2 =>
        cases h
        exact ((State.writeVa_calm h1).trans (State.writeVa_calm h2)).trans (State.modCtx_calm _ _ _ fun x => x.setRing_state k _)

/-- A change that may not be made is calm where what it gives is. -/
theorem Calm.getD {s d : State} {o : Option State} (h : ∀ t, o = some t → Calm s t) (hd : Calm s d) : Calm s (o.getD d) := by
  cases o with
  | none => exact hd
  | some t => exact h t rfl

theorem State.ringPost_calm (ctx : Nat) (k : RingKind) (rec : List Word) : Calm s (s.ringPost ctx k rec) := by
  have hold := s.modCtx_calm ctx (fun c => c.setRing k { c.ring k with waiting := (c.ring k).waiting ++ [rec] }) fun x => x.setRing_state k _
  simp only [State.ringPost]
  split
  · exact .getD (fun t h => State.ringWrite_calm h) hold
  · exact hold

theorem State.errorRecord_calm (ctx source : Nat) (d : List Word) : Calm s (s.errorRecord ctx source d) := s.ringPost_calm _ _ _

theorem State.ctxEvent_calm (ctx : Nat) (e : CtxEvent) : Calm s (s.ctxEvent ctx e) := s.modCtx_calm ctx _ fun _ => rfl

/-! ### The stop of the world, HALTED, dead letters -/

theorem State.freeWorld_calm (ctx : Nat) : Calm s (s.freeWorld ctx) := by
  simp only [State.freeWorld]
  refine (State.mapCores_calm _ _ (fun p => ?_) fun p => ?_).comp (s.modCtx_calm ctx _ fun _ => rfl)
  · split <;> rfl
  · split
    · exact ⟨by simp, fun h => by simp only [h]⟩
    · exact Core.Holds.refl _

/-- A context that was active may become LIVE again. -/
theorem State.liveAgain_calm (ctx : Nat) (h : (s.ctx ctx).active = true) : Calm s (s.liveAgain ctx) :=
  (s.setCtx_calm ctx _ fun hx => by simp [h] at hx).trans (.of_frame rfl rfl rfl)

theorem State.wakeWorld_calm (ctx : Nat) : Calm s (s.wakeWorld ctx) := by
  simp only [State.wakeWorld]
  split
  · next h => exact (s.freeWorld_calm ctx).trans (State.liveAgain_calm _ ctx (by simp [Ctx.active, h]))
  · exact s.freeWorld_calm ctx

/-- A context that was active may become HALTED. -/
theorem State.haltCtx_calm (ctx cause : Nat) : Calm s (s.haltCtx ctx cause) := by
  have halt (w : Word) (h : (s.ctx ctx).active = true) :
      Calm s (((s.freeWorld ctx).modCtx ctx (fun c => { c with state := .halted, haltCause := cause, pausedAt := w })).errorRecord
        ctx 3 [BitVec.ofNat 64 cause]) := by
    refine Calm.trans ?_ (State.errorRecord_calm _ _ _ _)
    have hf := s.freeWorld_calm ctx
    refine hf.trans (State.setCtx_calm _ ctx _ fun hx => ?_)
    have hs : ((s.freeWorld ctx).ctx ctx).state = (s.ctx ctx).state := by
      simp [State.freeWorld, State.ctx, State.modCtx, State.setCtx]
    simp [Ctx.active_congr hs, h] at hx
  simp only [State.haltCtx]
  split
  · next hl => exact halt _ (by simp [Ctx.active, hl])
  · next hl => exact halt _ (by simp [Ctx.active, hl])
  · exact .refl s

theorem State.deadLetter_calm (ctx : Nat) (payload : List Word) (target hidx reason : Word) :
    Calm s (s.deadLetter ctx payload target hidx reason).2 := by
  simp only [State.deadLetter]
  split
  · exact s.ringPost_calm _ _ _
  · exact (s.ringPost_calm _ _ _).trans (State.haltCtx_calm _ _ _)

theorem State.emptyHandler_calm (ctx : Nat) (payload : List Word) (target hidx coord x3 : Word) (launch : Option Nat) :
    Calm s (s.emptyHandler ctx payload target hidx coord x3 launch) :=
  (s.deadLetter_calm ctx payload target hidx 0x40).trans (State.ctxEvent_calm _ ctx _)

end Rings

/-! ### Pages and handles -/

section Handles

variable (s : State)

theorem State.freeFrame_calm (a : Nat) : Calm s (s.freeFrame a) := .of_frame rfl rfl rfl

theorem State.filterTlb_calm (keep : TlbEntry → Bool) : Calm s { s with
    cores := s.cores.map fun p => (p.1, { p.2 with tlb := p.2.tlb.filter keep, latch := p.2.latch.filter keep }),
    clusters := s.clusters.map fun p => (p.1, { p.2 with tlb := p.2.tlb.filter keep }) } := by
  have filtered := s.mapCores_calm (fun p => (p.1, { p.2 with tlb := p.2.tlb.filter keep, latch := p.2.latch.filter keep }))
    (fun _ => rfl) fun _ => ⟨rfl, id⟩
  exact filtered.trans (.of_frame rfl rfl rfl)

theorem State.dropTlb_calm (ctx lo hi : Nat) : Calm s (s.dropTlb ctx lo hi) := s.filterTlb_calm _

theorem State.unmapPage_calm (ctx : Nat) (va : Word) : Calm s (s.unmapPage ctx va) := by
  simp only [State.unmapPage]
  split
  · split
    · exact .refl s
    · exact (State.dropTlb_calm _ _ _ _).comp ((State.freeFrame_calm _ _).comp ((State.fenceCode_calm _ _ _).comp (s.writeWord_calm _ _)))
  · exact .refl s

theorem State.unmapPages_calm (ctx : Nat) (l : List Word) : Calm s (s.unmapPages ctx l) := by
  induction l generalizing s with
  | nil => exact .refl s
  | cons p l ih => exact (s.unmapPage_calm ctx p).trans (ih _)

theorem State.settleHandle_calm (ctx i : Nat) : Calm s (s.settleHandle ctx i) := by
  simp only [State.settleHandle]
  split
  · refine Calm.trans ?_ (State.modCtx_calm _ ctx _ fun _ => rfl)
    split
    · exact s.unmapPages_calm ctx _
    · exact .refl s
  · exact .refl s

theorem State.retireHandle_calm (ctx i : Nat) : Calm s (s.retireHandle ctx i) := by
  simp only [State.retireHandle]
  split
  · exact (State.settleHandle_calm _ ctx i).comp (s.modCtx_calm ctx _ fun _ => rfl)
  · exact .refl s

theorem State.dropRunning_calm (ctx i : Nat) : Calm s (s.dropRunning ctx i) :=
  (State.settleHandle_calm _ ctx i).comp (s.modCtx_calm ctx _ fun _ => rfl)

theorem State.dropAll_calm (ctx : Nat) (l : List HRef) : Calm s (s.dropAll ctx l) := by
  induction l generalizing s with
  | nil => exact .refl s
  | cons r l ih => exact (s.dropRunning_calm ctx r.index).trans (ih _)

theorem State.retireAll_calm (ctx : Nat) (l : List HRef) : Calm s (s.retireAll ctx l) := by
  induction l generalizing s with
  | nil => exact .refl s
  | cons r l ih => exact (ih _).comp ((State.retireHandle_calm _ ctx r.index).comp (s.modCtx_calm ctx _ fun _ => rfl))

end Handles

/-! ### Matching, counters -/

section Matching

variable (s : State)

theorem Core.setHome_holds (c : Core) (v : VState) : c.Holds (c.setHome v) := by
  simp only [Core.setHome]
  split <;> exact ⟨rfl, id⟩

theorem Core.enqueue_holds (c : Core) (f : Firing) : c.Holds (c.enqueue f) := ⟨rfl, id⟩

theorem Core.fillReady_holds (c : Core) : c.Holds c.fillReady := ⟨rfl, id⟩

theorem Core.reserve_holds (c : Core) (l : List Input) : c.Holds (c.reserve l) := (c.setHome_holds _).trans ⟨rfl, id⟩

theorem Core.matchOne_holds {c d : Core} {cls : Nat} {coord : Word} {arg : XReg} {ks : List (Nat × Kernel)}
    (h : c.matchOne cls coord arg ks = some d) : c.Holds d := by
  induction ks with
  | nil => cases h
  | cons p ks ih =>
    simp only [Core.matchOne] at h
    split at h
    · next hm =>
      cases h
      split at hm
      · obtain ⟨a, -, ha⟩ := List.exists_of_findSome?_eq_some hm
        split at ha
        · cases ha
          exact (c.reserve_holds _).trans (Core.enqueue_holds _ _)
        · cases ha
      · cases hm
    · exact ih h

theorem Core.matchAll_holds (cls : Nat) (coord : Word) (arg : XReg) (ks : List (Nat × Kernel)) (n : Nat) (c : Core) :
    c.Holds (Core.matchAll cls coord arg ks n c) := by
  induction n generalizing c with
  | zero => exact .refl c
  | succ n ih =>
    simp only [Core.matchAll]
    split
    · next h => exact (Core.matchOne_holds h).trans (ih _)
    · exact .refl c

theorem State.matchActors_calm (k : Nat) : Calm s (s.matchActors k) := by
  simp only [State.matchActors]
  split
  · exact .refl s
  · exact s.setCore_calm k _ ((Core.matchAll_holds _ _ _ _ _ _).trans (Core.fillReady_holds _))

theorem State.loseJoin_calm (k j : Nat) : Calm s (s.loseJoin k j) := by
  simp only [State.loseJoin]
  split
  · exact (s.emptyHandler_calm _ _ _ _ _ _ _).trans (State.modCore_calm _ k _ fun c => c.setHome_holds _)
  · exact .refl s

theorem State.joinsFired_calm (k : Nat) : Calm s (s.joinsFired k) :=
  (Calm.foldl (fun t j => t.loseJoin_calm k j) _ s).trans (State.matchActors_calm _ k)

theorem State.poison_calm (ctx : Nat) (covers : JScope → Bool) : Calm s (s.poison ctx covers) := by
  simp only [State.poison]
  refine Calm.comp (.foldl State.joinsFired_calm _ _) (.comp (State.modCtx_calm _ ctx _ fun _ => rfl) ?_)
  refine s.mapCores_calm _ (fun p => ?_) fun p => ?_
  · split <;> rfl
  · split <;> exact ⟨rfl, id⟩

end Matching

end Sys2Proof.Machine
end

section
/-! SUPPORT. What sending, issuing and publishing leave of contexts and firings (17 R300-R318, 21 R405-R412). -/

namespace Sys2Proof.Machine

/-! ### Sending -/

section Sending

variable (s : State)

theorem State.sendWire_calm {s t : State} {die pkg : Nat} {carry : Bool} {slots : List (BitVec 640)}
    (h : s.sendWire die carry pkg slots = some t) : Calm s t := by
  simp only [State.sendWire] at h
  split at h
  · cases h; exact .of_frame rfl rfl rfl
  · split at h
    · cases h; exact .of_frame rfl rfl rfl
    · cases h

theorem State.peerEvent_calm (ctx pkg : Nat) (coord : Word) (dl launch : Option Nat) : Calm s (s.peerEvent ctx pkg coord dl launch) := by
  simp only [State.peerEvent]
  split
  · exact .refl s
  · exact .comp (State.ctxEvent_calm _ ctx _) (s.modCtx_calm ctx _ fun _ => rfl)

theorem State.returned_calm (ctx pkg : Nat) (payload : List Word) (target hidx : Word) (maybe : Bool) (coord : Word) (launch : Option Nat) :
    Calm s (s.returned ctx pkg payload target hidx maybe coord launch) := by
  simp only [State.returned]
  split
  · exact s.deadLetter_calm _ _ _ _ _
  · exact .comp (State.poison_calm _ _ _) (.comp (State.peerEvent_calm _ _ _ _ _ _) (s.deadLetter_calm _ _ _ _ _))

theorem State.toRetired_calm (ctx : Nat) (dst : VCore) (body : Body) (sender : Word) : Calm s (s.toRetired ctx dst body sender) := by
  simp only [State.toRetired]
  split
  · exact s.returned_calm _ _ _ _ _ _ _ _
  · exact s.emptyHandler_calm _ _ _ _ _ _ _

theorem State.sendBody_calm (k ctx : Nat) (dst : VCore) (body : Body) : Calm s (s.sendBody k ctx dst body) := by
  simp only [State.sendBody]
  split
  · exact .of_frame rfl rfl rfl
  · exact .of_frame rfl rfl rfl
  · exact s.toRetired_calm _ _ _ _
  · split
    · exact .of_frame rfl rfl rfl
    · split
      · next h => exact State.sendWire_calm h
      · exact s.returned_calm _ _ _ _ _ _ _ _

theorem State.sendAll_calm (k ctx : Nat) (body : Body) (l : List VCore) : Calm s (s.sendAll k ctx body l) := by
  induction l generalizing s with
  | nil => exact .refl s
  | cons d l ih => exact (s.sendBody_calm k ctx d body).trans (ih _)

theorem State.eventLost_calm (ctx : Nat) (src : BitVec 31) (launch : Option Nat) (set : Bool) (e : BitVec 16) :
    Calm s (s.eventLost ctx src launch set e) :=
  .comp (State.poison_calm _ _ _) (.comp (State.ctxEvent_calm _ _ _) (s.deadLetter_calm _ _ _ _ _))

theorem State.postEvent_calm (die ctx : Nat) (src : BitVec 31) (launch : Option Nat) (set : Bool) (e : BitVec 16) :
    Calm s (s.postEvent die ctx src launch set e) := by
  simp only [State.postEvent]
  split
  · exact s.eventLost_calm _ _ _ _ _
  · split
    · exact .of_frame rfl rfl rfl
    · split
      · next h => exact State.sendWire_calm h
      · exact s.returned_calm _ _ _ _ _ _ _ _

theorem State.sendEvent_calm (k ctx : Nat) (set : Bool) (e : BitVec 16) : Calm s (s.sendEvent k ctx set e) := s.postEvent_calm _ _ _ _ _ _

end Sending

/-! ### Engine commands that are issued or cancelled -/

section Commands

variable (s : State)

theorem State.modWin_calm (k ctx : Nat) (svc : Bool) (f : Csrs → Csrs) : Calm s (s.modWin k ctx svc f) := by
  have running (j : Nat) : Calm s (s.modCore j fun c =>
      { c with vs := { c.vs with csr := f c.vs.csr }, point := { c.point with csr := f c.point.csr } }) :=
    s.modCore_calm j _ fun _ => ⟨rfl, id⟩
  simp only [State.modWin]
  split
  · split
    · exact running _
    · exact s.modCtx_calm ctx _ fun _ => rfl
  · split
    · exact s.modCore_calm k _ fun c => c.setHome_holds _
    · exact running k

theorem State.setJobWin_calm (k ctx : Nat) (svc : Bool) (id v : Nat) : Calm s (s.setJobWin k ctx svc id v) := s.modWin_calm _ _ _ _

theorem State.setCpWin_calm (k ctx : Nat) (svc : Bool) (id v : Nat) : Calm s (s.setCpWin k ctx svc id v) := s.modWin_calm _ _ _ _

theorem State.sendWake_calm (k ctx : Nat) (v : VCore) (vx vy hidx : Nat) (regs : List XReg) : Calm s (s.sendWake k ctx v vx vy hidx regs) :=
  s.sendBody_calm _ _ _ _

theorem State.engineLetter_calm (k ctx : Nat) (v : VCore) (regs : List XReg) (hidx status : Nat) (x3 : Word) :
    Calm s (s.engineLetter k ctx v regs hidx status x3) :=
  .comp (State.ctxEvent_calm _ _ _) (s.deadLetter_calm _ _ _ _ _)

theorem State.cancelWake_calm (k ctx : Nat) (v : VCore) (edge : Bool) (id desc : Nat) : Calm s (s.cancelWake k ctx v edge id desc) := by
  simp only [State.cancelWake]
  generalize wakeOf edge _ = w
  generalize recordRegs _ _ _ _ _ _ = regs
  split
  · exact .refl s
  · split
    · exact s.sendWake_calm _ _ _ _ _ _ _
    · exact s.engineLetter_calm _ _ _ _ _ _ _

end Commands

/-! ### Entries of a phase buffer -/

section Entries

variable (s : State)

theorem State.modVs_calm (k : Nat) (f : VState → VState) : Calm s (s.modVs k f) := s.modCore_calm k _ fun _ => ⟨rfl, id⟩

theorem State.setHandler_calm (ctx i : Nat) (w : Word) : Calm s (s.setHandler ctx i w) := by
  simp only [State.setHandler]
  split
  · exact .refl s
  · have written := s.modCtx_calm ctx (fun c => { c with
      handlers := Table.set 0 c.handlers i (w &&& handlerMask),
      oldHandlers := (i, (s.ctx ctx).handler i, s.stamp) :: c.oldHandlers }) fun _ => rfl
    exact written.trans (.of_frame rfl rfl rfl)

theorem Core.forgetJoin_holds (c : Core) (j : Nat) : c.Holds (c.forgetJoin j) := ⟨by simp [Core.forgetJoin], id⟩

theorem State.applyJinit_calm (k j : Nat) (scope : JScope) (count : BitVec 24) (kernel : Nat) :
    Calm s (s.applyJinit k j scope count kernel) := by
  simp only [State.applyJinit]
  refine Calm.comp (State.modVs_calm _ k _) (s.modCore_calm k _ fun c => ?_)
  split
  · exact .refl c
  · exact c.forgetJoin_holds j

theorem State.fireIn_calm (k : Nat) (m : Msg) (svc : Bool) : Calm s (s.fireIn k m svc) := by
  simp only [State.fireIn]
  exact s.modCore_calm k _ fun _ => ⟨rfl, id⟩

theorem State.applyFire_calm (k ctx : Nat) (r : HRef) (regs : List XReg) : Calm s (s.applyFire k ctx r regs) := by
  simp only [State.applyFire]
  split
  · exact .comp (State.fireIn_calm _ _ _ _) (.comp (State.sample_calm _ _ _ _) (s.sample_calm _ _ _))
  · exact .of_frame rfl rfl rfl

theorem State.applyEntry_hhold_calm (k : Nat) (narrow : Option (Nat × OScope)) (r : HRef) : Calm s (s.applyEntry k narrow (.hhold r)) := by
  refine Calm.comp (State.dropRunning_calm _ _ _) ?_
  split
  · exact s.modCtx_calm _ _ fun _ => rfl
  · exact .refl s

theorem State.applyEntry_hrel_calm (k : Nat) (narrow : Option (Nat × OScope)) (r : HRef) : Calm s (s.applyEntry k narrow (.hrel r)) := by
  have drop := s.modCtx_calm (s.ctxOf k)
    (fun c => c.setHandle r.index { c.handle r.index with owners := (c.handle r.index).owners - 1 }) fun _ => rfl
  simp only [State.applyEntry]
  split
  · split
    · exact drop.trans (State.retireHandle_calm _ _ _)
    · exact drop
  · exact .refl s

theorem State.applyEntry_calm (k : Nat) (narrow : Option (Nat × OScope)) (e : Entry) : Calm s (s.applyEntry k narrow e) := by
  cases e with
  | store => exact s.publish_calm _ _ _ _
  | also => exact s.publish_calm _ _ _ _
  | atomic => exact s.publish_calm _ _ _ _
  | htset => exact s.setHandler_calm _ _ _
  | jinit => exact s.applyJinit_calm _ _ _ _ _
  | hhold r => exact s.applyEntry_hhold_calm k narrow r
  | hrel r => exact s.applyEntry_hrel_calm k narrow r
  | send => exact s.sendBody_calm _ _ _ _
  | sendm => exact s.sendAll_calm _ _ _ _
  | fire => exact s.applyFire_calm _ _ _ _
  | hostq => exact .getD (fun t h => State.ringWrite_calm h) (.refl s)
  | remote => exact s.sendBody_calm _ _ _ _
  | join => exact s.sendBody_calm _ _ _ _
  | mcst => exact s.sendAll_calm _ _ _ _
  | carry => exact s.sendBody_calm _ _ _ _
  | event => exact s.sendEvent_calm _ _ _ _
  | job edge pa va id nbv voided was =>
    simp only [State.applyEntry]
    split
    · exact .comp (State.cancelWake_calm _ _ _ _ _ _ _) (s.setJobWin_calm _ _ _ _ _)
    · exact .comp (State.setJobWin_calm _ _ _ _ _ _) (.of_frame rfl rfl rfl)
  | copy => exact .comp (State.setCpWin_calm _ _ _ _ _ _) (.of_frame rfl rfl rfl)

theorem State.applyUpTo_calm (k : Nat) (narrow : Option (Nat × OScope)) (l : List Entry) : Calm s (s.applyUpTo k narrow l).1 := by
  induction l generalizing s with
  | nil => exact .refl s
  | cons e l ih =>
    simp only [State.applyUpTo]
    split
    · exact .refl s
    · exact (s.applyEntry_calm k narrow e).trans (ih _)

end Entries

/-! ### The boundary -/

section Boundary

variable (s : State)

theorem State.lightFire_calm (k : Nat) (w : Word) : Calm s (s.lightFire k w) := by
  simp only [State.lightFire]
  split
  · exact s.modCore_calm k _ fun _ => ⟨rfl, id⟩
  · exact s.emptyHandler_calm _ _ _ _ _ _ _

theorem State.lightFires_calm (k : Nat) (l : List Word) : Calm s (s.lightFires k l) := by
  induction l generalizing s with
  | nil => exact .refl s
  | cons w l ih => exact (s.lightFire_calm k w).trans (ih _)

theorem State.boundaryOver_calm {s t : State} {k : Nat} {scope : Option OScope} {buf : List Entry}
    (h : s.boundaryOver k scope buf = some t) : Calm s t := by
  simp only [State.boundaryOver] at h
  generalize hu : (if (narrowTo k scope).isNone = true then State.widen _ _ else _) = u at h
  have begun : Calm s u := by
    subst hu
    split
    · exact .comp (State.widen_calm _ k) (s.sample_calm _ _ _)
    · exact s.sample_calm _ _ _
  split at h
  · cases h
  · cases h
    have published := begun.trans (State.applyUpTo_calm _ k (narrowTo k scope) (inOrder buf))
    have fired := published.trans (State.lightFires_calm _ k (s.core k).light)
    split
    · exact fired.trans (State.modCore_calm _ k _ fun _ => ⟨rfl, id⟩)
    · exact .comp (State.matchActors_calm _ k) (.comp (State.modCore_calm _ k _ fun _ => ⟨rfl, id⟩) fired)

theorem State.boundary_calm {s t : State} {k : Nat} {scope : Option OScope} (h : s.boundary k scope = some t) : Calm s t := by
  have finish (u : State) : Calm u (u.modCore k fun c => { c with hq := [] }) := u.modCore_calm k _ fun _ => ⟨rfl, id⟩
  simp only [State.boundary] at h
  split at h
  · obtain ⟨u, hu, rfl⟩ := Option.map_eq_some_iff.1 h
    exact (State.boundaryOver_calm hu).trans (finish u)
  · obtain ⟨u, hu, h⟩ := Option.bind_eq_some_iff.1 h
    obtain ⟨v, hv, rfl⟩ := Option.map_eq_some_iff.1 h
    have early : Calm s (s.commit k) := s.modCore_calm k _ fun _ => ⟨rfl, id⟩
    exact ((early.trans (State.boundaryOver_calm hu)).trans (State.boundaryOver_calm hv)).trans (finish v)

theorem State.noteHeld_calm (buf : List Entry) : Calm s (s.noteHeld buf) := .of_frame rfl rfl rfl

theorem State.stall_calm (k : Nat) (scope : Option OScope) : Calm s (s.stall k scope) := by
  simp only [State.stall]
  refine Calm.comp (State.noteHeld_calm _ _) ?_
  split
  · exact .refl s
  · refine Calm.comp (State.modCore_calm _ k _ fun _ => ⟨rfl, id⟩) ?_
    exact .comp (State.modCore_calm _ k _ fun _ => ⟨rfl, id⟩) (s.applyUpTo_calm k _ _)

end Boundary

end Sys2Proof.Machine
end

section
/-! SUPPORT. What aborting, ending and suspending a firing leave (09 R154, 22 R419-R422), and DESTROY (05 R95). -/

namespace Sys2Proof.Machine

/-! ### Aborting and ending a firing -/

section Ending

variable (s : State)

theorem Ctx.foldl_setHandle_state (g : Ctx → Nat → HEntry) (l : List Nat) (x : Ctx) :
    (l.foldl (fun x i => x.setHandle i (g x i)) x).state = x.state := by
  induction l generalizing x with
  | nil => rfl
  | cons i l ih => exact ih _

theorem Calm.with_flights {s t : State} (h : Calm s t) (l : List Flight) : Calm s { t with flights := l } :=
  h.trans (.of_frame rfl rfl rfl)

theorem State.cancelWaits_calm (k : Nat) : Calm s (s.cancelWaits k) := by
  simp only [State.cancelWaits]
  refine Calm.with_flights (s.modCtx_calm _ _ fun x => ?_) _
  exact Ctx.foldl_setHandle_state _ _ x

theorem State.undoFiring_calm (k : Nat) : Calm s (s.undoFiring k) := by
  simp only [State.undoFiring]
  refine Calm.comp (State.modCore_calm _ k _ fun _ => ⟨rfl, id⟩) ?_
  exact .comp (State.cancelWaits_calm _ k) (.comp (State.retireAll_calm _ _ _) (s.dropAll_calm _ _))

theorem Core.dropMessages_holds (c : Core) (l : List Input) : c.Holds (c.dropMessages l) := ⟨rfl, id⟩

theorem Core.dropJoins_holds (c : Core) (l : List Input) : c.Holds (c.dropJoins l) := c.setHome_holds _

theorem State.releaseFiring_calm (k : Nat) (f : Firing) : Calm s (s.releaseFiring k f) := by
  simp only [State.releaseFiring]
  refine Calm.comp (State.matchActors_calm _ k) (.comp (State.dropAll_calm _ _ _) ?_)
  exact s.modCore_calm k _ fun c => (c.dropMessages_holds _).trans (Core.dropJoins_holds _ _)

theorem State.leaveSvc_calm (k : Nat) : Calm s (s.leaveSvc k) := by
  simp only [State.leaveSvc]
  split
  · exact s.modCore_calm k _ fun _ => ⟨rfl, id⟩
  · exact .refl s

/-- The core runs no firing. -/
structure Core.Rests (c : Core) : Prop where
  idle : c.run = .idle
  firing : c.firing = none

theorem Core.Rests.of_holds {c d : Core} (hc : c.Rests) (h : c.Holds d) : d.Rests :=
  ⟨h.idle hc.idle, by simpa [hc.firing] using h.firing⟩

theorem State.restCore_rests (k : Nat) : ((s.restCore k).core k).Rests := by
  simp only [State.restCore, State.modCore_core_same]
  exact ⟨rfl, rfl⟩

/-- What stands between a core's coming to rest and the end of `State.endFiring`. -/
theorem State.endFiring_calm {k : Nat} {f : Firing} (h : (s.core k).firing = some f) :
    Calm ((s.sample (s.ctxOf k) 7 (BitVec.ofNat 64 (s.cycle - f.start.toNat))).restCore k) (s.endFiring k) := by
  simp only [State.endFiring, h]
  refine Calm.comp (State.leaveSvc_calm _ k) ?_
  have released (t : State) : Calm t ((t.modCore k fun c => { c with carries := [] }).releaseFiring k f) :=
    .comp (State.releaseFiring_calm _ k f) (t.modCore_calm k _ fun _ => ⟨rfl, id⟩)
  split
  · exact .comp (State.wakeWorld_calm _ _) (released _)
  · exact released _

/-- An ended firing has left its core. -/
theorem State.endFiring_rests {k : Nat} (h : (s.core k).firing.isSome = true) : ((s.endFiring k).core k).Rests := by
  obtain ⟨f, hf⟩ := Option.isSome_iff_exists.1 h
  exact (State.restCore_rests _ k).of_holds ((s.endFiring_calm hf).core k)

/-- A firing that ends by a fault that poisons nothing, and is not the fault actor's, has left its core (22 R419). -/
theorem State.endByFault_rests {k : Nat} {f : Firing} {code : FCode} {addr at_ : Word} (hf : (s.core k).firing = some f)
    (hsvc : f.svc = false) (hcode : code ≠ .peerLost) : ((s.endByFault k code addr at_).core k).Rests := by
  have undone := s.undoFiring_calm k
  simp only [State.endByFault, hf, hsvc, hcode, if_false, Bool.false_eq_true]
  refine State.endFiring_rests _ ?_
  cases ht : (s.core k).trigger f with
  | none =>
    have reported := undone.trans (State.ctxEvent_calm _ (s.ctxOf k)
      { regs := eventRegs code.code ((s.undoFiring k).coordW k) addr at_ (s.core k).committed none (s.undoFiring k).time, launch := f.launch,
        fault := decide ((s.core k).faultsvc = 2), fromSvc := false })
    exact ((reported.core k).firing).trans (by simp [hf])
  | some m =>
    have written := undone.trans (State.deadLetter_calm _ (s.ctxOf k) (lows m.regs) ((s.undoFiring k).coordW k) (BitVec.ofNat 64 m.hidx)
      (BitVec.ofNat 64 code.code))
    exact (((written.trans (State.ctxEvent_calm _ (s.ctxOf k) _)).core k).firing).trans (by simp [hf])

/-- A machine check ends the firing that met it (22 R419, R424). -/
theorem State.takeFault_mcheck_rests {k : Nat} {f : Firing} {addr at_ : Word} {acc : Access} (hf : (s.core k).firing = some f)
    (hsvc : f.svc = false) : ((s.takeFault k .mcheck addr at_ acc).core k).Rests := by
  have h := s.endByFault_rests (code := .mcheck) (addr := addr) (at_ := at_) hf hsvc (by decide)
  simpa [State.takeFault, hf] using h

end Ending

/-! ### Suspending a firing -/

section Suspending

variable (s : State)

theorem State.storeService_quiet (k : Nat) : Quiet s (s.storeService k) := by
  simp only [State.storeService]
  split
  · exact .comp (State.modCore_quiet _ k _) (s.modCtx_quiet _ _ fun _ => rfl)
  · exact .refl s

theorem State.restCore_quiet (k : Nat) : Quiet s (s.restCore k) := by
  simp only [State.restCore]
  split
  · exact (s.storeService_quiet k).trans (State.modCore_quiet _ k _)
  · exact s.modCore_quiet k _

theorem State.endFiring_quiet (k : Nat) : Quiet s (s.endFiring k) := by
  cases h : (s.core k).firing with
  | none => simpa [State.endFiring, h] using Quiet.refl s
  | some f => exact ((s.sample_calm _ _ _).toQuiet.trans (State.restCore_quiet _ k)).trans (s.endFiring_calm h).toQuiet

theorem State.suspend_quiet (k : Nat) : Quiet s (s.suspend k) := by
  simp only [State.suspend]
  split
  · exact .refl s
  · exact (s.restCore_quiet k).trans (State.modCore_quiet _ k _)

theorem State.waitOn_quiet (k : Nat) (w : Wait) (sp : Bool) : Quiet s (s.waitOn k w sp) := s.modCore_quiet k _

theorem State.safePoint_quiet (k : Nat) (mask next : Word) (yield : Bool) : Quiet s (s.safePoint k mask next yield) := by
  simp only [State.safePoint]
  split
  · exact (s.stall_calm k none).toQuiet.trans (State.waitOn_quiet _ k _ _)
  · next h =>
    generalize hu : State.modCore _ k _ = u
    have resumed : Quiet s u := hu ▸ (State.boundary_calm h).toQuiet.trans (State.modCore_quiet _ k _)
    split
    · exact resumed.trans (u.endFiring_quiet k)
    · split
      · exact resumed.trans (u.suspend_quiet k)
      · exact resumed

theorem State.parkWaiter_quiet (k : Nat) (w : Wait) : Quiet s (s.parkWaiter k w) := by
  simp only [State.parkWaiter]
  split
  · exact .comp (State.modCore_quiet _ k _) (s.modCtx_quiet _ _ fun _ => rfl)
  · exact .refl s

theorem State.suspendInWait_quiet (k : Nat) (w : Wait) : Quiet s (s.suspendInWait k w) :=
  (((s.parkWaiter_quiet k w).trans (State.cancelWaits_calm _ k).toQuiet).trans (State.modCore_quiet _ k _)).trans
    (State.safePoint_quiet _ k _ _ true)

theorem State.stopAtWait_quiet (k : Nat) : Quiet s (s.stopAtWait k) := by
  simp only [State.stopAtWait]
  split
  · split
    · exact s.suspendInWait_quiet k _
    · exact .refl s
  · exact .refl s

theorem State.stopAtWaits_quiet (l : List Nat) : Quiet s (s.stopAtWaits l) := .foldl (fun t k => t.stopAtWait_quiet k) l s

end Suspending

/-! ### DESTROY (05 R95) -/

section Destroy

variable (s : State)

theorem State.modQueue_calm (q : Nat) (f : Queue → Queue) : Calm s (s.modQueue q f) := .of_frame rfl rfl rfl

theorem State.refuse_calm (q code : Nat) (tag : BitVec 32) : Calm s (s.refuse q code tag) := by
  simp only [State.refuse, State.leaveWait]
  refine Calm.comp (State.errorRecord_calm _ _ _ _) (.comp (State.modQueue_calm _ _ _) (.comp (State.modQueue_calm _ _ _) ?_))
  exact s.modCtx_calm _ _ fun _ => rfl

theorem State.queuesGone_calm (ctx : Nat) : Calm s (s.queuesGone ctx) := by
  refine Calm.foldl (fun t p => ?_) s.queues s
  split
  · exact t.refuse_calm _ _ _
  · exact .refl t

theorem Quiet.with_cores {s t : State} (h : Quiet s t) (l : Table Core) : Quiet s { t with cores := l } := h.trans (.of_ctxs rfl rfl)

theorem State.destroyCtx_quiet (ctx : Nat) : Quiet s (s.destroyCtx ctx).2 ∧ ((s.destroyCtx ctx).2.ctx ctx).active = false := by
  by_cases ha : (s.ctx ctx).active = true
  · have drained : Quiet s (s.modCtx ctx fun x => { x with state := .draining, stopper := none }) :=
      (s.setCtx_calm ctx _ fun _ => rfl).toQuiet
    have stopped : Quiet (s.modCtx ctx fun x => { x with state := .draining, stopper := none }) (s.destroyCtx ctx).2 := by
      simp only [State.destroyCtx, ha, Bool.not_true, Bool.false_eq_true, if_false]
      exact .comp (State.stopAtWaits_quiet _ _) ((State.queuesGone_calm _ ctx).toQuiet.with_cores _)
    exact ⟨drained.trans stopped, stopped.inactive ctx (by simp [Ctx.active])⟩
  · have ha : (s.ctx ctx).active = false := by simpa using ha
    simpa [State.destroyCtx, ha] using Quiet.refl s

end Destroy

end Sys2Proof.Machine
end

section
/-! SUPPORT. Which bytes and tags a write changes (17 R305), and the host's writes over CXL.mem (06 R109). -/

namespace Sys2Proof.Machine

/-! ### Publishing bytes (17 R305) -/

section Publishing

variable (s : State)

theorem writeBytes_get (m : List Host.Cell) (a : Nat) (bs : List Byte) (x : Nat) :
    Table.get Memory.default (writeBytes m a bs) x =
      if a ≤ x ∧ x < a + bs.length then bs.getD (x - a) 0 else Table.get Memory.default m x := by
  induction bs generalizing m a with
  | nil => simp [writeBytes]
  | cons b bs ih =>
    rw [writeBytes, ih, List.length_cons]
    rcases Nat.lt_trichotomy x a with hx | rfl | hx
    · simp [Nat.ne_of_lt hx, Nat.not_le.2 hx, show ¬a + 1 ≤ x by omega]
    · simp
    · obtain ⟨n, rfl⟩ : ∃ n, x = a + 1 + n := ⟨x - (a + 1), by omega⟩
      simp [show a ≤ a + 1 + n by omega, show a + 1 + n ≠ a by omega, show a + 1 + n - a = n + 1 by omega,
        show (a + 1 + n < a + (bs.length + 1)) ↔ n < bs.length by omega]

theorem State.publishPiece_byte (narrow : Option (Nat × OScope)) (tag : Bool) (a : Nat) (bs : List Byte) (x : Nat) :
    (s.publishPiece narrow tag a bs).byte x = if a ≤ x ∧ x < a + bs.length then bs.getD (x - a) 0 else s.byte x := by
  have h : (s.publishPiece narrow tag a bs).mem = writeBytes s.mem a bs := by
    simp only [State.publishPiece]
    split <;> rfl
  simp only [State.byte, h, writeBytes_get]

theorem State.publishPiece_tagAt (narrow : Option (Nat × OScope)) (tag : Bool) (a : Nat) (bs : List Byte) (g : Nat) :
    (s.publishPiece narrow tag a bs).tagAt g = if g = a / 16 then tag else s.tagAt g := by
  have h : (s.publishPiece narrow tag a bs).tags = Table.set false s.tags (a / 16) tag := by
    simp only [State.publishPiece]
    split <;> rfl
  rw [State.tagAt, h]
  split
  · next hg => subst hg; simp
  · next hg => simp [State.tagAt, hg]

/-- The pieces of a byte string, published one after another. -/
def State.publishPieces (s : State) (narrow : Option (Nat × OScope)) (tag : Bool) (l : List (Nat × List Byte)) : State :=
  l.foldl (fun s p => s.publishPiece narrow tag p.1 p.2) s

theorem State.publish_eq (narrow : Option (Nat × OScope)) (tag : Bool) (a : Nat) (bs : List Byte) :
    s.publish narrow tag a bs = s.publishPieces narrow tag (pieces bs.length a bs) := rfl

/-- The first piece is published, then the others. -/
theorem State.publishPieces_succ (narrow : Option (Nat × OScope)) (tag : Bool) (f a : Nat) {bs : List Byte} (h : bs ≠ []) :
    s.publishPieces narrow tag (pieces (f + 1) a bs) =
      (s.publishPiece narrow tag a (bs.take (16 - a % 16))).publishPieces narrow tag
        (pieces f (a + (16 - a % 16)) (bs.drop (16 - a % 16))) := by
  simp [State.publishPieces, pieces, h]

theorem State.publishPieces_nil (narrow : Option (Nat × OScope)) (tag : Bool) (f a : Nat) :
    s.publishPieces narrow tag (pieces f a []) = s := by cases f <;> simp [State.publishPieces, pieces]

theorem State.publishPieces_byte (narrow : Option (Nat × OScope)) (tag : Bool) {f a : Nat} {bs : List Byte} (hf : bs.length ≤ f) (x : Nat) :
    (s.publishPieces narrow tag (pieces f a bs)).byte x = if a ≤ x ∧ x < a + bs.length then bs.getD (x - a) 0 else s.byte x := by
  induction f generalizing s a bs with
  | zero => simp [List.eq_nil_of_length_eq_zero (Nat.le_zero.1 hf), State.publishPieces_nil]
  | succ f ih =>
    by_cases hb : bs = []
    · simp [hb, State.publishPieces_nil]
    · have hn : 0 < 16 - a % 16 := by omega
      rw [s.publishPieces_succ narrow tag f a hb]
      generalize 16 - a % 16 = n at hn
      rw [ih _ (by rw [List.length_drop]; omega), State.publishPiece_byte]
      simp only [List.length_drop, List.length_take, List.getD_eq_getElem?_getD, List.getElem?_drop, List.getElem?_take]
      by_cases hx : a + n ≤ x
      · have hin : (x < a + n + (bs.length - n)) ↔ x < a + bs.length := by omega
        simp [hx, hin, show a ≤ x by omega, show n + (x - (a + n)) = x - a by omega, show ¬x < a + min n bs.length by omega]
      · have hin : (a ≤ x ∧ x < a + min n bs.length) ↔ a ≤ x ∧ x < a + bs.length := by omega
        simp only [hx, false_and, if_false, hin]
        refine if_congr Iff.rfl ?_ rfl
        rw [if_pos (by omega)]

/-- A granule that a byte string does not touch keeps its tag. -/
theorem State.publishPieces_tagAt_outside (narrow : Option (Nat × OScope)) (tag : Bool) {f a : Nat} {bs : List Byte} {g : Nat}
    (hg : 16 * g + 16 ≤ a ∨ a + bs.length ≤ 16 * g) : (s.publishPieces narrow tag (pieces f a bs)).tagAt g = s.tagAt g := by
  induction f generalizing s a bs with
  | zero => rfl
  | succ f ih =>
    by_cases hb : bs = []
    · rw [hb, State.publishPieces_nil]
    · have hl := List.length_pos_iff.2 hb
      rw [s.publishPieces_succ narrow tag f a hb, ih _ (by rw [List.length_drop]; omega), State.publishPiece_tagAt, if_neg (by omega)]

/-- A granule that it touches takes the tag given. -/
theorem State.publishPieces_tagAt_inside (narrow : Option (Nat × OScope)) (tag : Bool) {f a : Nat} {bs : List Byte} {g : Nat}
    (hf : bs.length ≤ f) (hl : a / 16 ≤ g) (hr : 16 * g < a + bs.length) (hb : bs ≠ []) :
    (s.publishPieces narrow tag (pieces f a bs)).tagAt g = tag := by
  induction f generalizing s a bs with
  | zero => exact absurd (List.eq_nil_of_length_eq_zero (Nat.le_zero.1 hf)) hb
  | succ f ih =>
    rw [s.publishPieces_succ narrow tag f a hb]
    by_cases hg : g = a / 16
    · rw [State.publishPieces_tagAt_outside _ _ _ (by omega), State.publishPiece_tagAt, if_pos hg]
    · have hd : (bs.drop (16 - a % 16)).length = bs.length - (16 - a % 16) := List.length_drop
      have hp : 0 < (bs.drop (16 - a % 16)).length := by omega
      exact ih _ (by omega) (by omega) (by omega) (List.length_pos_iff.1 hp)

theorem State.write_byte (a : Nat) (bs : List Byte) (x : Nat) :
    (s.write a bs).byte x = if a ≤ x ∧ x < a + bs.length then bs.getD (x - a) 0 else s.byte x :=
  s.publishPieces_byte none false le_rfl x

theorem State.write_tagAt_outside {a : Nat} {bs : List Byte} {g : Nat} (hg : 16 * g + 16 ≤ a ∨ a + bs.length ≤ 16 * g) :
    (s.write a bs).tagAt g = s.tagAt g :=
  s.publishPieces_tagAt_outside none false hg

theorem State.write_tagAt_inside {a : Nat} {bs : List Byte} {g : Nat} (hl : a / 16 ≤ g) (hr : 16 * g < a + bs.length) (hb : bs ≠ []) :
    (s.write a bs).tagAt g = false :=
  s.publishPieces_tagAt_inside none false le_rfl hl hr hb

/-- `t` is `s` but for memory, its tags and what is remembered of older versions. -/
def MemoryOnly (s t : State) : Prop := t = { s with mem := t.mem, tags := t.tags, hist := t.hist, stamp := t.stamp }

theorem MemoryOnly.refl (s : State) : MemoryOnly s s := rfl

theorem MemoryOnly.trans {s t u : State} (h : MemoryOnly s t) (g : MemoryOnly t u) : MemoryOnly s u := by
  unfold MemoryOnly at *
  rw [g, h]

theorem MemoryOnly.cores {s t : State} (h : MemoryOnly s t) : t.cores = s.cores := by rw [h]

theorem MemoryOnly.queues {s t : State} (h : MemoryOnly s t) : t.queues = s.queues := by rw [h]

theorem State.publishPiece_memoryOnly (narrow : Option (Nat × OScope)) (tag : Bool) (a : Nat) (bs : List Byte) :
    MemoryOnly s (s.publishPiece narrow tag a bs) := by
  simp only [State.publishPiece]
  split <;> rfl

theorem State.write_memoryOnly (a : Nat) (bs : List Byte) : MemoryOnly s (s.write a bs) := by
  rw [State.write, State.publish_eq]
  exact foldl_related (f := fun s (p : Nat × List Byte) => State.publishPiece s none false p.1 p.2) MemoryOnly.refl MemoryOnly.trans
    (fun t p => t.publishPiece_memoryOnly none false p.1 p.2) _ s

/-- `t` is `s` but for which older versions a fetch may find. -/
def HistoryOnly (s t : State) : Prop := t = { s with hist := t.hist }

theorem HistoryOnly.refl (s : State) : HistoryOnly s s := rfl

theorem HistoryOnly.trans {s t u : State} (h : HistoryOnly s t) (g : HistoryOnly t u) : HistoryOnly s u := by
  unfold HistoryOnly at *
  rw [g, h]

theorem HistoryOnly.byte {s t : State} (h : HistoryOnly s t) (a : Nat) : t.byte a = s.byte a := by rw [h]; rfl

theorem HistoryOnly.tagAt {s t : State} (h : HistoryOnly s t) (g : Nat) : t.tagAt g = s.tagAt g := by rw [h]; rfl

theorem HistoryOnly.memoryOnly {s t : State} (h : HistoryOnly s t) : MemoryOnly s t := by
  unfold MemoryOnly
  rw [h]

end Publishing

/-! ### CXL.mem writes (06 R109) -/

section CxlMemWrite

variable (s : State)

/-- Code copies that a write of n bytes at `pa` meets are fenced. -/
def State.fenceCopies (s : State) (pa n : Nat) (t : State) : State :=
  s.copied.foldl (fun t f => if f < pa + n ∧ pa < f + 65536 then t.fenceCode f (f + 65536) else t) t

theorem State.fenceCopies_historyOnly (pa n : Nat) (t : State) : HistoryOnly t (s.fenceCopies pa n t) := by
  refine foldl_related (R := HistoryOnly) .refl .trans (fun u f => ?_) s.copied t
  split
  · rfl
  · exact .refl u

theorem exec_cxlMemWrite (pa : Nat) (bytes : List Byte) : exec (.cxlMemWrite pa bytes) s = execCxlMemWrite pa bytes s := rfl

theorem exec_cxlMemWrite_beyond {pa : Nat} {bytes : List Byte} (h : memTop + 65536 < pa + bytes.length) :
    exec (.cxlMemWrite pa bytes) s = .fault .noSuchAddress := by
  rw [exec_cxlMemWrite]
  unfold execCxlMemWrite
  rw [if_pos h]

theorem exec_cxlMemWrite_bootfail {pa : Nat} {bytes : List Byte} (h : pa + bytes.length ≤ memTop + 65536) (hb : s.mgmt.boot = .fail) :
    exec (.cxlMemWrite pa bytes) s = .next s := by
  rw [exec_cxlMemWrite]
  unfold execCxlMemWrite
  rw [if_neg (Nat.not_lt.2 h), if_pos hb]

/-- A write that lies in memory leaves the doorbell window alone. -/
theorem exec_cxlMemWrite_memory {pa : Nat} {bytes : List Byte} (h : pa + bytes.length ≤ memTop) (hb : s.mgmt.boot ≠ .fail)
    (hne : bytes ≠ []) : exec (.cxlMemWrite pa bytes) s =
      .next (if s.lostMemory pa then s else s.fenceCopies pa bytes.length (s.write pa bytes)) := by
  have hlow : bytes.take (memTop - pa) = bytes := List.take_of_length_le (by omega)
  have hdoor : (pa + bytes.length - memTop + 31) / 32 - (pa - memTop) / 32 = 0 := by omega
  rw [exec_cxlMemWrite]
  unfold execCxlMemWrite
  rw [if_neg (by omega), if_neg hb]
  simp [hlow, hdoor, hne, State.fenceCopies]

end CxlMemWrite

end Sys2Proof.Machine
end

section
/-! Soft errors, machine checks and thermal limits, and obligation O31 (01 R21, 22 R424, 23 R435-R436). -/

namespace Sys2Proof.Machine

/-! ### Soft errors and machine checks (01 R21, 22 R424, 23 R435) -/

section SoftErrors

/-- The first bits of the four counts of a die's soft-error register (23 R435). -/
def softFields : List Nat := [0, 16, 32, 48]

theorem fld_eq_bits (w : Word) (n : Nat) : fld w (n + 15) n = Sys2Proof.Claims.bits w n 16 := by
  rw [fld, Sys2Proof.Claims.bits, show n + 15 + 1 - n = 16 by omega]

/-- Two counts are one or do not meet, and each lies in its register. -/
theorem softFields_apart {f n : Nat} (hf : f ∈ softFields) (hn : n ∈ softFields) :
    f < 64 ∧ n + 16 ≤ 64 ∧ (n = f ∨ n + 16 ≤ f ∨ f + 16 ≤ n) := by
  simp only [softFields, List.mem_cons, List.not_mem_nil, or_false] at hf hn
  omega

/-- Sixteen bits of a number are those of its low 64 where they lie there. -/
theorem field_mod_word (m : Nat) {n : Nat} (hn : n + 16 ≤ 64) : m % 2 ^ 64 / 2 ^ n % 2 ^ 16 = m / 2 ^ n % 2 ^ 16 := by
  rw [show (2 : Nat) ^ 64 = 2 ^ n * 2 ^ (64 - n) by rw [← pow_add]; congr 1; omega, Nat.mod_mul_right_div_self]
  exact Nat.mod_mod_of_dvd _ (pow_dvd_pow 2 (by omega))

/-- One added to a 16-bit field that is not full goes no further than the field. -/
theorem field_add_one (m : Nat) {f n : Nat} (h : n = f ∨ n + 16 ≤ f ∨ f + 16 ≤ n) (hlt : m / 2 ^ f % 2 ^ 16 ≠ 65535) :
    (m + 2 ^ f) / 2 ^ n % 2 ^ 16 = m / 2 ^ n % 2 ^ 16 + if n = f then 1 else 0 := by
  have hdiv : (m + 2 ^ f) / 2 ^ f = m / 2 ^ f + 1 := Nat.add_div_right m (by positivity)
  rcases h with rfl | h | h
  · rw [hdiv, if_pos rfl]
    omega
  · obtain ⟨c, rfl⟩ : ∃ c, f = n + (16 + c) := ⟨f - n - 16, by omega⟩
    rw [if_neg (by omega), pow_add, Nat.add_mul_div_left _ _ (by positivity), pow_add, Nat.add_mul_mod_self_left, Nat.add_zero]
  · obtain ⟨c, rfl⟩ : ∃ c, n = f + (16 + c) := ⟨n - f - 16, by omega⟩
    rw [if_neg (by omega), Nat.add_zero, pow_add, ← Nat.div_div_eq_div_mul, ← Nat.div_div_eq_div_mul, hdiv, pow_add,
      ← Nat.div_div_eq_div_mul, ← Nat.div_div_eq_div_mul, show (m / 2 ^ f + 1) / 2 ^ 16 = m / 2 ^ f / 2 ^ 16 by omega]

theorem bits_add_one_field {w : Word} {f n : Nat} (hf : f ∈ softFields) (hn : n ∈ softFields)
    (hlt : Sys2Proof.Claims.bits w f 16 ≠ 65535) :
    Sys2Proof.Claims.bits (w + (1#64 <<< f)) n 16 = Sys2Proof.Claims.bits w n 16 + if n = f then 1 else 0 := by
  obtain ⟨hf64, hn64, hapart⟩ := softFields_apart hf hn
  have hone : (1#64 <<< f).toNat = 2 ^ f := by
    rw [BitVec.toNat_shiftLeft, BitVec.toNat_ofNat, Nat.shiftLeft_eq, Nat.one_mod_two_pow (by decide), Nat.one_mul,
      Nat.mod_eq_of_lt (Nat.pow_lt_pow_right (by decide) hf64)]
  rw [Sys2Proof.Claims.bits, BitVec.toNat_add, hone, field_mod_word _ hn64, field_add_one _ hapart hlt, Sys2Proof.Claims.bits]

/-- A count goes up by one, to 65,535 at most, and the other three stand. -/
theorem Die.count_bits (x : Die) (pa now : Word) {f n : Nat} (hf : f ∈ softFields) (hn : n ∈ softFields) :
    Sys2Proof.Claims.bits (x.count f pa now).soft n 16 =
      if n = f then min 65535 (Sys2Proof.Claims.bits x.soft n 16 + 1) else Sys2Proof.Claims.bits x.soft n 16 := by
  have hle : Sys2Proof.Claims.bits x.soft n 16 < 65536 := Nat.mod_lt _ (by decide)
  simp only [Die.count, fld_eq_bits]
  by_cases hfull : Sys2Proof.Claims.bits x.soft f 16 = 65535
  · rw [if_pos hfull]
    split
    · next h => subst h; omega
    · rfl
  · rw [if_neg hfull, bits_add_one_field hf hn hfull]
    split
    · next h => subst h; omega
    · rfl

/-- Where the errors of a place are counted (23 R435). -/
def softField : ErrSite → Nat
  | .sram => 0
  | .hbmA => 16
  | .hbmB => 32

theorem softField_mem (kind : ErrSite) : softField kind ∈ softFields := by cases kind <;> decide

variable (s : State)

theorem exec_correctableError (die : Nat) (kind : ErrSite) (pa : Word) :
    exec (.correctableError die kind pa) s = .next (s.setDie die ((s.die die).count (softField kind) pa s.time)) := by cases kind <;> rfl

/-- What UNCORRECTABLE_ERROR does to the die, before what it does where it was met. -/
def State.checked (s : State) (die : Nat) (site : UncSite) : State :=
  State.setDie { s with free := s.free + 1 } die
    { (s.die die).count 48 (s.errorPa site) s.time with checks := (s.die die).checks ++ [s.time] }

theorem exec_uncorrectableError (die : Nat) (site : UncSite) :
    exec (.uncorrectableError die site) s = .next ((s.checked die site).errorAt site) := rfl

theorem State.checked_die (die : Nat) (site : UncSite) : (s.checked die site).die die =
    { (s.die die).count 48 (s.errorPa site) s.time with checks := (s.die die).checks ++ [s.time] } := State.setDie_die_same _ _ _

end SoftErrors

/-! ### Thermal limits (23 R436) -/

section Heat

variable (s : State)

/-- `t` is `s` but for its dies. -/
def DiesOnly (s t : State) : Prop := t = { s with dies := t.dies }

theorem DiesOnly.refl (s : State) : DiesOnly s s := rfl

theorem DiesOnly.trans {s t u : State} (h : DiesOnly s t) (g : DiesOnly t u) : DiesOnly s u := by
  unfold DiesOnly at *
  rw [g, h]

theorem State.setClocks_diesOnly (dies : BitVec 8) (f : Nat → Nat) : DiesOnly s (s.setClocks dies f) := by
  simp only [State.setClocks]
  exact foldl_related (f := fun s d => State.setDie s d { s.die d with mhz := f (s.die d).mhz }) DiesOnly.refl DiesOnly.trans (fun _ _ => rfl) _ s

/-- Dies whose clock changes one after another, none of them twice. -/
theorem foldl_setDie_die (g : Die → Die) {l : List Nat} (hl : l.Nodup) (d : Nat) :
    (l.foldl (fun s d => s.setDie d (g (s.die d))) s).die d = if d ∈ l then g (s.die d) else s.die d := by
  induction l generalizing s with
  | nil => rfl
  | cons e l ih =>
    obtain ⟨he, hl⟩ := List.nodup_cons.1 hl
    rw [List.foldl_cons, ih _ hl]
    by_cases h : d = e
    · subst h; simp [he]
    · simp [h]

theorem State.setClocks_die (dies : BitVec 8) (f : Nat → Nat) {d : Nat} (hd : d < 8) : (s.setClocks dies f).die d =
    if dies.getLsbD d then { s.die d with mhz := f (s.die d).mhz } else s.die d := by
  have h := foldl_setDie_die s (fun x => { x with mhz := f x.mhz })
    (List.nodup_range.filter (fun d => dies.getLsbD d) : ((List.range 8).filter _).Nodup) d
  simpa [State.setClocks, hd] using h

/-- Contexts destroyed one after another. -/
def State.destroyAll (s : State) (l : List Nat) : State := l.foldl (fun s n => (s.destroyCtx n).2) s

theorem State.destroyAll_quiet (l : List Nat) : Quiet s (s.destroyAll l) := .foldl (fun t n => (t.destroyCtx_quiet n).1) l s

theorem State.destroyAll_inactive {l : List Nat} {n : Nat} (hn : n ∈ l) : ((s.destroyAll l).ctx n).active = false := by
  induction l generalizing s with
  | nil => cases hn
  | cons m l ih =>
    rcases List.mem_cons.1 hn with rfl | hn
    · exact (State.destroyAll_quiet _ l).inactive n (s.destroyCtx_quiet n).2
    · exact ih _ hn

theorem exec_thermalShutdown : exec .thermalShutdown s =
    .next { s.destroyAll (s.ctxs.map Prod.fst) with
      notices := (s.destroyAll (s.ctxs.map Prod.fst)).notices ++ [s.time],
      mgmt := { (s.destroyAll (s.ctxs.map Prod.fst)).mgmt with stopped := true } } := rfl

theorem Ctx.active_iff (x : Ctx) : x.active = true ↔ x.state ∈ [CState.live, .stopped, .halted] := by simp [Ctx.active]

end Heat

/-! ### The parts of the obligation -/

section Parts

variable (s : State)

theorem exec_cxlMemWrite_stored {pa : Nat} {bytes : List Byte} (h : pa + bytes.length ≤ memTop) (hb : s.mgmt.boot ≠ .fail)
    (hne : bytes ≠ []) (hl : s.lostMemory pa = false) :
    ∃ t, exec (.cxlMemWrite pa bytes) s = .next t ∧ t.cores = s.cores ∧ t.queues = s.queues ∧
      (∀ i, i < bytes.length → t.byte (pa + i) = bytes.getD i 0 ∧ t.tagAt ((pa + i) / 16) = false) ∧
      (∀ a, (a < pa ∨ pa + bytes.length ≤ a) → t.byte a = s.byte a) ∧
      (∀ g, (16 * g + 16 ≤ pa ∨ pa + bytes.length ≤ 16 * g) → t.tagAt g = s.tagAt g) := by
  have fenced := s.fenceCopies_historyOnly pa bytes.length (s.write pa bytes)
  have frame := (s.write_memoryOnly pa bytes).trans fenced.memoryOnly
  refine ⟨s.fenceCopies pa bytes.length (s.write pa bytes), ?_, frame.cores, frame.queues, fun i hi => ⟨?_, ?_⟩, fun a ha => ?_, fun g hg => ?_⟩
  · rw [exec_cxlMemWrite_memory s h hb hne, hl]
    rfl
  · rw [fenced.byte, State.write_byte, if_pos ⟨by omega, by omega⟩, Nat.add_sub_cancel_left]
  · rw [fenced.tagAt, State.write_tagAt_inside s (by omega) (by omega) hne]
  · rw [fenced.byte, State.write_byte, if_neg (by omega)]
  · rw [fenced.tagAt, State.write_tagAt_outside s hg]

theorem exec_cxlMemWrite_lost {pa : Nat} {bytes : List Byte} (h : pa + bytes.length ≤ memTop) (hb : s.mgmt.boot ≠ .fail)
    (hne : bytes ≠ []) (hl : s.lostMemory pa = true) : exec (.cxlMemWrite pa bytes) s = .next s := by
  rw [exec_cxlMemWrite_memory s h hb hne, if_pos hl]

end Parts

/-- Settles O31: a write over CXL.mem publishes its bytes piece by piece, an error counts in a field that cannot carry into the next, a machine
check ends the firing that met it, and nothing that DESTROY does of one context makes another active again. -/
theorem hostMemoryErrorsAndHeat : Obligations.HostMemoryErrorsAndHeat := by
  unfold Obligations.HostMemoryErrorsAndHeat
  refine ⟨fun pa bytes s => ⟨?_, ?_, fun h hb hne => ⟨?_, ?_⟩⟩, fun die kind pa s => ?_, fun die site s => ?_,
    fun dies s => ⟨?_, ?_⟩, fun s => ?_⟩
  · exact exec_cxlMemWrite_beyond s
  · exact exec_cxlMemWrite_bootfail s
  · exact exec_cxlMemWrite_lost s h hb hne
  · exact exec_cxlMemWrite_stored s h hb hne
  · refine ⟨_, exec_correctableError s die kind pa, rfl, fun e he => State.setDie_die_other s _ he, ?_, fun n hn => ?_⟩
    · rw [State.setDie_die_same]
      rfl
    · rw [State.setDie_die_same, Die.count_bits _ _ _ (softField_mem kind) hn]
      cases kind <;> rfl
  · refine ⟨_, exec_uncorrectableError s die site, fun hs => ?_, fun k va f hs hf hsvc _ _ _ => ?_⟩
    · subst hs
      have hd := s.checked_die die .idle
      refine ⟨⟨s.errorPa .idle, ?_⟩, ?_, rfl, ?_⟩
      · exact congrArg Die.log hd
      · exact congrArg Die.checks hd
      · have hbits := (s.die die).count_bits (s.errorPa .idle) s.time (f := 48) (n := 48) (by decide) (by decide)
        exact (congrArg (fun x => Sys2Proof.Claims.bits x.soft 48 16) hd).trans hbits
    · subst hs
      have rests := (s.checked die (.access k va)).takeFault_mcheck_rests (k := k) (addr := va)
        (at_ := ((s.checked die (.access k va)).core k).unitAt) (acc := .read) hf hsvc
      exact ⟨fun hrun => by simp [State.errorAt, rests.idle] at hrun, rests.firing⟩
  · exact ⟨_, rfl, s.setClocks_diesOnly dies _, fun d hd => s.setClocks_die dies _ hd⟩
  · exact ⟨_, rfl, s.setClocks_diesOnly dies _, fun d hd => s.setClocks_die dies _ hd⟩
  · refine ⟨_, exec_thermalShutdown s, ?_, rfl, fun p hp _ hact => ?_⟩
    · rw [(s.destroyAll_quiet _).notices]
    · have hin := s.destroyAll_inactive (List.mem_map_of_mem (f := Prod.fst) hp)
      exact Bool.false_ne_true (hin.symm.trans ((Ctx.active_iff _).2 hact))

end Sys2Proof.Machine
end

section
/-! SUPPORT. The rational numbers that finite floating-point values stand for, and the exact operations on them (04 R70, R85). -/

namespace Sys2Proof.Machine

/-- The factor that a sign bit stands for. -/
def signOf (neg : Bool) : Rat := if neg then -1 else 1

/-- The rational number that a finite value stands for. -/
def FVal.rat : FVal → Option Rat
  | .fin neg m e => some (signOf neg * m * 2 ^ e)
  | _ => none

theorem FVal.rat_fin (neg : Bool) (m : Nat) (e : Int) : (FVal.fin neg m e).rat = some (signOf neg * m * 2 ^ e) := rfl

theorem FVal.rat_eq_some {a : FVal} {x : Rat} : a.rat = some x ↔ ∃ neg m e, a = .fin neg m e ∧ signOf neg * m * 2 ^ e = x := by
  cases a <;> simp [FVal.rat]

theorem signOf_mul_signOf (a b : Bool) : signOf a * signOf b = signOf (a != b) := by
  cases a <;> cases b <;> norm_num [signOf]

@[simp] theorem abs_signOf (a : Bool) : |signOf a| = 1 := by
  cases a <;> norm_num [signOf]

theorem abs_signOf_mul (neg : Bool) {a : Rat} (ha : 0 ≤ a) (q : Int) : |signOf neg * a * 2 ^ q| = a * 2 ^ q := by
  rw [mul_assoc, abs_mul, abs_signOf, one_mul, abs_of_nonneg (by positivity)]

theorem signOf_ne_zero (a : Bool) : signOf a ≠ 0 := by
  cases a <;> norm_num [signOf]

@[simp] theorem signOf_mul_self (a : Bool) : signOf a * signOf a = 1 := by
  cases a <;> norm_num [signOf]

theorem signOf_mul_int (neg : Bool) (k : Nat) : ∃ j : Int, signOf neg * k = j :=
  ⟨if neg then -k else k, by cases neg <;> simp [signOf]⟩

theorem signOf_decide_mul_natAbs (v : Int) : signOf (decide (v < 0)) * (v.natAbs : Rat) = v := by
  rcases lt_or_ge v 0 with h | h
  · rw [decide_eq_true h, Nat.cast_natAbs, abs_of_neg h]
    simp [signOf]
  · rw [decide_eq_false (not_lt.2 h), Nat.cast_natAbs, abs_of_nonneg h]
    simp [signOf]

theorem signOf_mul_lt_zero (neg : Bool) {w : Rat} (hw : 0 < w) : signOf neg * w < 0 ↔ neg = true := by
  cases neg <;> simp [signOf, hw, hw.le]

theorem two_zpow_split (a b : Int) : (2 : Rat) ^ a = 2 ^ (a - b) * 2 ^ b := by
  rw [← zpow_add₀ two_ne_zero, sub_add_cancel]

theorem two_zpow_toNat {a : Int} (h : 0 ≤ a) : (2 : Rat) ^ a = 2 ^ a.toNat := by
  rw [← zpow_natCast, Int.toNat_of_nonneg h]

theorem signedAt_mul (neg : Bool) (m : Nat) {e c : Int} (h : c ≤ e) :
    (signedAt neg m e c : Rat) * 2 ^ c = signOf neg * m * 2 ^ e := by
  rw [two_zpow_split e c, two_zpow_toNat (sub_nonneg.2 h)]
  cases neg <;> simp [signedAt, signOf, mul_assoc]

/-- Outside E4M3 a pattern decodes to the number that R70 gives it. -/
theorem Fmt.decode_rat {f : Fmt} (hf : f ≠ .e4m3) (b : Nat) : (f.decode b).rat = Sys2Proof.Claims.value f b := by
  unfold Fmt.decode Sys2Proof.Claims.value
  by_cases hinf : b / 2 ^ f.fb % 2 ^ f.eb = 2 ^ f.eb - 1
  · by_cases hfr : b % 2 ^ f.fb = 0 <;> simp [hf, hinf, hfr, FVal.rat]
  · by_cases h0 : b / 2 ^ f.fb % 2 ^ f.eb = 0
    · rw [h0] at hinf
      simp [hf, h0, hinf, FVal.rat, signOf]
    · simp [hf, h0, hinf, FVal.rat, signOf, add_comm]

/-- NBV 2 takes its inputs as they are (04 R93). -/
theorem inputVal_two (f : Fmt) (b : Nat) : inputVal f 2 b = f.decode b := by
  unfold inputVal
  cases f.decode b <;> simp

/-- The exact result is the rational number r, and nothing was raised on the way. -/
structure Exact.Is (x : Exact) (r : Rat) : Prop where
  rat : x.val.rat = some r
  flags : x.flags = 0
  sticky : x.sticky = false

theorem mulE_is {a b : FVal} {x y : Rat} (ha : a.rat = some x) (hb : b.rat = some y) : (mulE a b).Is (x * y) := by
  obtain ⟨na, ma, ea, rfl, rfl⟩ := FVal.rat_eq_some.1 ha
  obtain ⟨nb, mb, eb, rfl, rfl⟩ := FVal.rat_eq_some.1 hb
  refine ⟨?_, rfl, rfl⟩
  rw [mulE, FVal.rat_fin, ← signOf_mul_signOf, zpow_add₀ two_ne_zero]
  push_cast
  exact congrArg some (by ring)

theorem addE_is {a b : FVal} {x y : Rat} (ha : a.rat = some x) (hb : b.rat = some y) : (addE a b).Is (x + y) := by
  obtain ⟨na, ma, ea, rfl, rfl⟩ := FVal.rat_eq_some.1 ha
  obtain ⟨nb, mb, eb, rfl, rfl⟩ := FVal.rat_eq_some.1 hb
  by_cases h : ma = 0 ∧ mb = 0
  · rw [addE, if_pos h]
    exact ⟨by simp [FVal.rat, h.1, h.2], rfl, rfl⟩
  · rw [addE, if_neg h]
    refine ⟨?_, rfl, rfl⟩
    rw [FVal.rat_fin, signOf_decide_mul_natAbs, Int.cast_add, add_mul, signedAt_mul na ma (min_le_left ea eb),
      signedAt_mul nb mb (min_le_right ea eb)]

theorem foldl_is {op : Exact → Exact → Exact} (hop : ∀ {x y a b}, x.Is a → y.Is b → (op x y).Is (a + b)) {l : List Exact} {r : List Rat}
    (h : List.Forall₂ Exact.Is l r) : ∀ {x : Exact} {a : Rat}, x.Is a → (l.foldl op x).Is (a + r.sum) := by
  induction h with
  | nil => intro x a hx; simpa using hx
  | cons hy _ ih =>
    intro x a hx
    rw [List.foldl_cons, List.sum_cons, ← add_assoc]
    exact ih (hop hx hy)

theorem Exact.Is.val_ne_inf {x : Exact} {r : Rat} (h : x.Is r) (neg : Bool) : x.val ≠ .inf neg := fun hv => by
  simpa [hv, FVal.rat] using h.rat

/-- Finite terms are summed exactly (04 R85). -/
theorem exactSum_is {l : List Exact} {r : List Rat} (h : List.Forall₂ Exact.Is l r) : (exactSum l).Is r.sum := by
  cases h with
  | nil => exact ⟨by simp [exactSum, FVal.rat], rfl, rfl⟩
  | @cons x a l r hx hl =>
    have hfold := foldl_is (op := fun s y => { addE s.val y.val with flags := (addE s.val y.val).flags ||| s.flags ||| y.flags })
      (fun hs hy => ⟨(addE_is hs.rat hy.rat).rat, by simp [(addE_is hs.rat hy.rat).flags, hs.flags, hy.flags],
        (addE_is hs.rat hy.rat).sticky⟩) hl hx
    have hinf : (x :: l).any (fun y => decide (y.val = .inf false)) = false := by
      rw [List.any_eq_false]
      intro y hy
      obtain ⟨b, hb⟩ : ∃ b, y.Is b := by
        rcases List.mem_cons.1 hy with rfl | hy
        · exact ⟨a, hx⟩
        · obtain ⟨i, hi, rfl⟩ := List.getElem_of_mem hy
          exact ⟨r[i]'(hl.length_eq ▸ hi), hl.get hi _⟩
      simpa using hb.val_ne_inf false
    rw [List.sum_cons]
    exact ⟨hfold.rat, by simp only [exactSum, hinf, Bool.false_and]; simpa [when] using hfold.flags, hfold.sticky⟩

/-- Under NBV 2 a block of finite products is added to the accumulator as one exact sum (04 R85). -/
theorem addBlock_two (f : Fmt) (acc : Nat) {l : List Exact} {r : List Rat} (h : List.Forall₂ Exact.Is l r) :
    ∃ s : FVal, s.rat = some r.sum ∧ addBlock f 2 acc none (l.map Term.prod) = roundSum f .rne false (f.decode acc) s 0 := by
  have hzero (n : Nat) : List.Forall₂ Exact.Is (List.replicate n (Term.exact (.zero 0))) (List.replicate n 0) := by
    induction n with
    | zero => exact .nil
    | succ n ih => exact .cons ⟨by simp [Term.exact, FVal.rat], rfl, rfl⟩ ih
  have hsum : (exactSum ((padBlock (l.map Term.prod)).map Term.exact)).Is r.sum := by
    have hpad := exactSum_is (List.rel_append h (hzero (16 - l.length)))
    rw [List.sum_append, List.sum_replicate, smul_zero, add_zero] at hpad
    have hmap : (padBlock (l.map Term.prod)).map Term.exact = l ++ List.replicate (16 - l.length) (Term.exact (.zero 0)) := by
      simp [padBlock, Function.comp_def, Term.exact]
    rwa [hmap]
  exact ⟨_, hsum.rat, by rw [← hsum.flags]; rfl⟩

end Sys2Proof.Machine
end

section
/-! SUPPORT. RNE as the nearest natural number, an even one where two are as near (04 R77). -/

namespace Sys2Proof.Machine

/-- n is the natural number nearest to y, and an even one where two are as near. -/
structure Nearest (y : Rat) (n : Nat) : Prop where
  dist : |n - y| ≤ 1 / 2
  tie : |n - y| = 1 / 2 → n % 2 = 0

namespace Nearest

theorem natCast (n : Nat) : Nearest n n := ⟨by norm_num, by norm_num⟩

variable {y : Rat} {n : Nat}

theorem le_of_le (h : Nearest y n) {k : Nat} (hk : (k : Rat) ≤ y) : k ≤ n := by
  by_contra hn
  have hcast : (n : Rat) + 1 ≤ k := by exact_mod_cast Nat.lt_of_not_le hn
  linarith [(abs_le.1 h.dist).1]

theorem ge_of_ge (h : Nearest y n) {k : Nat} (hk : y ≤ k) : n ≤ k := by
  by_contra hn
  have hcast : (k : Rat) + 1 ≤ n := by exact_mod_cast Nat.lt_of_not_le hn
  linarith [(abs_le.1 h.dist).2]

/-- No other integer is nearer, and only for an even n is another as near. -/
theorem int_le (h : Nearest y n) (z : Int) : |(n : Rat) - y| ≤ |z - y| ∧ (|(n : Rat) - y| = |z - y| → (z : Rat) ≠ n → n % 2 = 0) := by
  rcases eq_or_ne z n with rfl | hne
  · simp
  · have hfar : (1 : Rat) ≤ |(z : Rat) - n| := by exact_mod_cast Int.one_le_abs (sub_ne_zero.2 hne)
    have htri : |(z : Rat) - n| ≤ |z - y| + |n - y| := abs_sub_comm (n : Rat) y ▸ abs_sub_le (z : Rat) y n
    have hdist := h.dist
    exact ⟨by linarith, fun heq _ => h.tie (by linarith)⟩

/-- The same against a number that is an integer, or lies below a natural number that y reaches. -/
theorem le_of_grid (h : Nearest y n) {z : Rat} (hz : (∃ j : Int, z = j) ∨ ∃ k : Nat, z ≤ k ∧ k ≤ y) :
    |n - y| ≤ |z - y| ∧ (|n - y| = |z - y| → z ≠ n → n % 2 = 0) := by
  rcases hz with ⟨j, rfl⟩ | ⟨k, hzk, hky⟩
  · exact h.int_le j
  · have hk := h.int_le k
    rw [Int.cast_natCast, abs_of_nonpos (sub_nonpos.2 hky)] at hk
    rw [abs_of_nonpos (by linarith : z - y ≤ 0)]
    refine ⟨by linarith [hk.1], fun heq hne => hk.2 (by linarith [hk.1]) ?_⟩
    rwa [show (k : Rat) = z by linarith [hk.1]]

/-- Where the nearest multiple stays below an even bound k, so does the nearest one on each finer grid. -/
theorem lt_mul_two_pow (h : Nearest y n) {k d n' : Nat} (hk : k % 2 = 0) (hd : d ≠ 0) (hn : n < k) (h' : Nearest (y * 2 ^ d) n') :
    n' < k * 2 ^ d := by
  have hnk : (n : Rat) + 1 ≤ k := by exact_mod_cast hn
  have hlt : y < k - 1 / 2 := by
    refine lt_of_le_of_ne (by linarith [(abs_le.1 h.dist).1]) fun heq => ?_
    have hn1 : (n : Rat) + 1 = k := by linarith [(abs_le.1 h.dist).1]
    have heven := h.tie (by rw [heq, ← hn1, show (n : Rat) - (n + 1 - 1 / 2) = -(1 / 2) by ring]; norm_num)
    have hnk1 : n + 1 = k := by exact_mod_cast hn1
    omega
  obtain ⟨c, rfl⟩ := Nat.exists_eq_succ_of_ne_zero hd
  have hc : (1 : Rat) ≤ 2 ^ c := one_le_pow₀ one_le_two
  have hscale : y * 2 ^ (c + 1) < k * 2 ^ (c + 1) - 2 ^ c := by
    have := mul_lt_mul_of_pos_right hlt (by positivity : (0 : Rat) < 2 ^ (c + 1))
    rw [pow_succ] at this ⊢
    linarith
  have hn' := (abs_le.1 h'.dist).2
  rw [Nat.succ_eq_add_one] at hn' ⊢
  exact_mod_cast (by linarith : (n' : Rat) < k * 2 ^ (c + 1))

end Nearest

/-- RNE makes the quotient of a division by 2h grow as the remainder asks. -/
theorem nearest_roundsUp (neg : Bool) (n : Nat) {rest h : Nat} (hh : 0 < h) (hrest : rest < 2 * h) :
    Nearest (n + rest / (2 * h)) (n + (roundsUp .rne neg (decide (n % 2 = 1)) rest h false).toNat) := by
  have hpos : (0 : Rat) < 2 * h := by exact_mod_cast Nat.mul_pos two_pos hh
  have h0 : (0 : Rat) ≤ rest / (2 * h) := by positivity
  have h1 : (rest : Rat) / (2 * h) < 1 := (div_lt_one hpos).2 (by exact_mod_cast hrest)
  rcases lt_trichotomy rest h with hlt | rfl | hgt
  · have hhalf : (rest : Rat) / (2 * h) < 1 / 2 := by
      rw [div_lt_div_iff₀ hpos two_pos]
      have : (rest : Rat) < h := by exact_mod_cast hlt
      linarith
    rw [show roundsUp .rne neg (decide (n % 2 = 1)) rest h false = false by simp [roundsUp, hlt.ne, hlt.le]]
    have habs : |((n + false.toNat : Nat) : Rat) - (n + rest / (2 * h))| = rest / (2 * h) := by
      rw [Bool.toNat_false, add_zero, sub_add_cancel_left, abs_neg, abs_of_nonneg h0]
    exact ⟨by linarith, fun h => by linarith⟩
  · have hhalf : (rest : Rat) / (2 * rest) = 1 / 2 := by field_simp
    have hup : roundsUp .rne neg (decide (n % 2 = 1)) rest rest false = decide (n % 2 = 1) := by simp [roundsUp]
    rw [hup, hhalf]
    rcases Nat.mod_two_eq_zero_or_one n with heven | hodd
    · exact ⟨by simp [heven], by simp [heven]⟩
    · exact ⟨by norm_num [hodd], fun _ => by simp [hodd]; omega⟩
  · have hhalf : 1 / 2 < (rest : Rat) / (2 * h) := by
      rw [div_lt_div_iff₀ two_pos hpos]
      have : (h : Rat) < rest := by exact_mod_cast hgt
      linarith
    rw [show roundsUp .rne neg (decide (n % 2 = 1)) rest h false = true by simp [roundsUp, hgt]]
    have habs : |((n + true.toNat : Nat) : Rat) - (n + rest / (2 * h))| = 1 - rest / (2 * h) := by
      rw [Bool.toNat_true, Nat.cast_succ, add_sub_add_left_eq_sub, abs_of_nonneg (by linarith)]
    exact ⟨by linarith, fun h => by linarith⟩

theorem roundsUp_exact (neg : Bool) (n : Nat) {rest h : Nat} (hh : 0 < h) (hrest : rest < 2 * h) :
    ((n + (roundsUp .rne neg (decide (n % 2 = 1)) rest h false).toNat : Nat) : Rat) = n + rest / (2 * h) ↔ rest = 0 := by
  have hpos : (0 : Rat) < 2 * h := by exact_mod_cast Nat.mul_pos two_pos hh
  rw [Nat.cast_add, add_right_inj, eq_div_iff hpos.ne']
  norm_cast
  rcases Nat.eq_zero_or_pos rest with rfl | hr
  · simp [roundsUp, hh.ne]
  · cases roundsUp .rne neg (decide (n % 2 = 1)) rest h false <;> simp <;> omega

/-- RNE gives the multiple of 2^q nearest to m 2^e, and calls it inexact exactly where it is another number (04 R77). -/
theorem roundTo_nearest (neg : Bool) (m : Nat) (e q : Int) :
    Nearest (m * 2 ^ (e - q)) (roundTo .rne neg m e q false).1 ∧
      ((roundTo .rne neg m e q false).2 = true ↔ ((roundTo .rne neg m e q false).1 : Rat) ≠ m * 2 ^ (e - q)) := by
  by_cases hqe : q ≤ e
  · have hround : roundTo .rne neg m e q false = (m * 2 ^ (e - q).toNat, false) := by simp [roundTo, hqe]
    have hy : (m : Rat) * 2 ^ (e - q) = (m * 2 ^ (e - q).toNat : Nat) := by
      push_cast
      rw [two_zpow_toNat (sub_nonneg.2 hqe)]
    rw [hround, hy]
    exact ⟨.natCast _, by simp⟩
  · obtain ⟨c, hc⟩ : ∃ c : Nat, (q - e).toNat = c + 1 := Nat.exists_eq_succ_of_ne_zero (by omega)
    set rest := m % 2 ^ (c + 1) with hrest
    set n := m / 2 ^ (c + 1) with hn
    have hround : roundTo .rne neg m e q false =
        (n + (roundsUp .rne neg (decide (n % 2 = 1)) rest (2 ^ c) false).toNat, decide (rest ≠ 0)) := by
      simp [roundTo, hqe, hc, ← hrest, ← hn]
    have hy : (m : Rat) * 2 ^ (e - q) = n + rest / (2 * (2 ^ c : Nat)) := by
      have hm : (m : Rat) = n * 2 ^ (c + 1) + rest := by exact_mod_cast (Nat.div_add_mod' m (2 ^ (c + 1))).symm
      rw [← neg_sub q e, zpow_neg, two_zpow_toNat (by omega), hc, hm]
      push_cast
      rw [pow_succ']
      field_simp
    have hlt : rest < 2 * 2 ^ c := by rw [← Nat.pow_succ']; exact Nat.mod_lt _ (by positivity)
    rw [hround, hy]
    exact ⟨nearest_roundsUp neg n (by positivity) hlt,
      decide_eq_true_iff.trans (not_congr (roundsUp_exact neg n (by positivity) hlt).symm)⟩

end Sys2Proof.Machine
end

section
/-! SUPPORT. The finite numbers of a format: their patterns, and how far apart they lie at a magnitude (04 R70, R77). -/

namespace Sys2Proof.Machine

/-! ### The finite patterns of a format (04 R70) -/

/-- The exponent of the largest numbers of a format with infinities. -/
def Fmt.emax (f : Fmt) : Int := 2 ^ f.eb - 2 - f.bias

theorem Fmt.fb_pos (f : Fmt) : 0 < f.fb := by cases f <;> decide

theorem Fmt.emin_lt_emax (f : Fmt) : f.emin < f.emax := by cases f <;> decide

theorem Fmt.two_le_two_pow_eb (f : Fmt) : 2 ≤ 2 ^ f.eb := by cases f <;> decide

theorem two_pow_even {k : Nat} (h : 0 < k) : 2 ^ k % 2 = 0 := Nat.even_iff.1 ((Nat.even_pow' h.ne').2 even_two)

/-- The magnitude of the exponent field x and the fraction field r. -/
def Fmt.magnitude (f : Fmt) (x r : Nat) : Rat :=
  if x = 0 then r * 2 ^ (f.emin - f.fb) else (2 ^ f.fb + r : Nat) * 2 ^ ((x : Int) - f.bias - f.fb)

/-- The value of a pattern, from its three fields. -/
theorem Fmt.value_eq (f : Fmt) (b : Nat) : Sys2Proof.Claims.value f b =
    if b / 2 ^ f.fb % 2 ^ f.eb = 2 ^ f.eb - 1 then none
    else some (signOf (decide (b / 2 ^ (f.eb + f.fb) % 2 = 1)) * f.magnitude (b / 2 ^ f.fb % 2 ^ f.eb) (b % 2 ^ f.fb)) := by
  unfold Sys2Proof.Claims.value Fmt.magnitude
  by_cases h0 : b / 2 ^ f.fb % 2 ^ f.eb = 0
  · simp [h0, signOf]
  · simp only [if_neg h0, signOf, decide_eq_true_eq, mul_assoc, Nat.cast_add, Nat.cast_pow, Nat.cast_ofNat]

/-- The three fields of a pattern that is put together from them. -/
theorem Fmt.fields (f : Fmt) (neg : Bool) {x r : Nat} (hx : x < 2 ^ f.eb) (hr : r < 2 ^ f.fb) :
    let b := f.signBit neg + x * 2 ^ f.fb + r
    b < 2 ^ f.width ∧ b / 2 ^ (f.eb + f.fb) = neg.toNat ∧ b / 2 ^ f.fb % 2 ^ f.eb = x ∧ b % 2 ^ f.fb = r := by
  have hb : f.signBit neg + x * 2 ^ f.fb + r = r + 2 ^ f.fb * (x + 2 ^ f.eb * neg.toNat) := by
    cases neg <;> simp [Fmt.signBit, pow_add] <;> ring
  have hlow : (r + 2 ^ f.fb * (x + 2 ^ f.eb * neg.toNat)) / 2 ^ f.fb = x + 2 ^ f.eb * neg.toNat := by
    rw [Nat.add_mul_div_left _ _ (by positivity), Nat.div_eq_of_lt hr, zero_add]
  have hhigh : (r + 2 ^ f.fb * (x + 2 ^ f.eb * neg.toNat)) / 2 ^ (f.eb + f.fb) = neg.toNat := by
    rw [add_comm f.eb, pow_add, ← Nat.div_div_eq_div_mul, hlow, Nat.add_mul_div_left _ _ (by positivity), Nat.div_eq_of_lt hx, zero_add]
  dsimp only
  rw [hb]
  refine ⟨?_, hhigh, ?_, ?_⟩
  · rw [Fmt.width, add_assoc, pow_add, pow_one, ← Nat.div_lt_iff_lt_mul (by positivity), hhigh]
    exact Bool.toNat_lt neg
  · rw [hlow, Nat.add_mul_mod_self_left, Nat.mod_eq_of_lt hx]
  · rw [Nat.add_mul_mod_self_left, Nat.mod_eq_of_lt hr]

/-- n 2^q is a magnitude of the format, and q is the spacing of its numbers there. -/
structure Fmt.Spells (f : Fmt) (n : Nat) (q : Int) : Prop where
  lt : n < 2 ^ (f.fb + 1)
  normal : 2 ^ f.fb ≤ n ∨ q = f.emin - f.fb
  ge : f.emin - f.fb ≤ q
  le : q ≤ f.emax - f.fb

/-- The fields of such a magnitude. -/
theorem Fmt.Spells.fields {f : Fmt} {n : Nat} {q : Int} (h : f.Spells n q) (neg : Bool) :
    ∃ x r, x < 2 ^ f.eb - 1 ∧ r < 2 ^ f.fb ∧ f.pack neg n q = f.signBit neg + x * 2 ^ f.fb + r ∧
      f.magnitude x r = n * 2 ^ q ∧ r % 2 = n % 2 := by
  obtain ⟨hlt, hnormal, hge, hle⟩ := h
  have heb := f.two_le_two_pow_eb
  by_cases hn : n < 2 ^ f.fb
  · have hq : q = f.emin - f.fb := hnormal.resolve_left (not_le.2 hn)
    exact ⟨0, n, by omega, hn, by simp [Fmt.pack, hn], by simp [Fmt.magnitude, hq], rfl⟩
  · have hpow : (2 : Int) ^ f.eb = (2 ^ f.eb : Nat) := by push_cast; rfl
    have heven := two_pow_even f.fb_pos
    simp only [Fmt.emin, Fmt.emax] at hge hle
    rw [pow_succ] at hlt
    obtain ⟨x, hx⟩ : ∃ x : Nat, q + f.fb + f.bias = x := Int.eq_ofNat_of_zero_le (by omega)
    refine ⟨x, n - 2 ^ f.fb, by omega, by omega, by simp [Fmt.pack, hn, hx], ?_, by omega⟩
    rw [Fmt.magnitude, if_neg (by omega), Nat.add_sub_cancel' (by omega), show (x : Int) - f.bias - f.fb = q by omega]

/-- `pack` gives the pattern of such a magnitude, which is even where n is. -/
theorem Fmt.Spells.pack {f : Fmt} {n : Nat} {q : Int} (h : f.Spells n q) (neg : Bool) :
    f.pack neg n q < 2 ^ f.width ∧ f.pack neg n q / 2 ^ (f.eb + f.fb) = neg.toNat ∧
      Sys2Proof.Claims.value f (f.pack neg n q) = some (signOf neg * n * 2 ^ q) ∧ f.pack neg n q % 2 = n % 2 := by
  obtain ⟨x, r, hx, hr, hpack, hmag, hodd⟩ := h.fields neg
  obtain ⟨hwidth, hsign, hexp, hfrac⟩ := f.fields neg (by omega : x < 2 ^ f.eb) hr
  rw [← hpack] at hwidth hsign hexp hfrac
  have hneg : decide (neg.toNat % 2 = 1) = neg := by cases neg <;> rfl
  refine ⟨hwidth, hsign, ?_, ?_⟩
  · rw [Fmt.value_eq, hexp, hfrac, hsign, hneg, if_neg hx.ne, hmag, mul_assoc]
  · rw [← Nat.mod_mod_of_dvd _ (dvd_pow_self 2 f.fb_pos.ne'), hfrac, hodd]

/-- Every finite pattern spells its value. -/
theorem Fmt.value_spells {f : Fmt} {b : Nat} {v : Rat} (h : Sys2Proof.Claims.value f b = some v) :
    ∃ neg n q, f.Spells n q ∧ v = signOf neg * n * 2 ^ q := by
  have hr : b % 2 ^ f.fb < 2 ^ f.fb := Nat.mod_lt _ (by positivity)
  have hx : b / 2 ^ f.fb % 2 ^ f.eb < 2 ^ f.eb := Nat.mod_lt _ (by positivity)
  have hpow : (2 : Int) ^ f.eb = (2 ^ f.eb : Nat) := by push_cast; rfl
  have hsucc : 2 ^ (f.fb + 1) = 2 ^ f.fb * 2 := pow_succ ..
  have hrange := f.emin_lt_emax
  rw [Fmt.value_eq] at h
  generalize b % 2 ^ f.fb = r at hr h
  split at h
  next => simp at h
  next hfin =>
    refine ⟨decide (b / 2 ^ (f.eb + f.fb) % 2 = 1), ?_⟩
    generalize b / 2 ^ f.fb % 2 ^ f.eb = x at hx hfin h
    rw [← Option.some.inj h, Fmt.magnitude]
    split
    next => exact ⟨r, f.emin - f.fb, ⟨by omega, .inr rfl, le_rfl, by omega⟩, (mul_assoc ..).symm⟩
    next =>
      refine ⟨2 ^ f.fb + r, x - f.bias - f.fb, ⟨by omega, .inl (by omega), ?_, ?_⟩, (mul_assoc ..).symm⟩
      · simp only [Fmt.emin]; omega
      · simp only [Fmt.emax]; omega

theorem Fmt.value_abs_lt {f : Fmt} {b : Nat} {v : Rat} (h : Sys2Proof.Claims.value f b = some v) : |v| < 2 ^ (f.emax + 1) := by
  obtain ⟨neg, n, q, hs, rfl⟩ := Fmt.value_spells h
  rw [abs_signOf_mul neg n.cast_nonneg, two_zpow_split (f.emax + 1) q]
  have hn : (n : Rat) < 2 ^ (f.fb + 1) := by exact_mod_cast hs.lt
  have hpow : (2 : Rat) ^ (f.fb + 1) ≤ 2 ^ (f.emax + 1 - q) := by
    rw [← zpow_natCast]
    have := hs.le
    exact zpow_le_zpow_right₀ one_le_two (by push_cast; omega)
  exact mul_lt_mul_of_pos_right (hn.trans_le hpow) (by positivity)

/-! ### The spacing of a format's numbers at a magnitude (04 R77) -/

/-- The format's numbers at the magnitude y 2^q lie 2^q apart, wherever they do not overflow. -/
structure Fmt.Spaced (f : Fmt) (y : Rat) (q : Int) : Prop where
  lt : y < 2 ^ (f.fb + 1)
  normal : 2 ^ f.fb ≤ y ∨ q = f.emin - f.fb
  ge : f.emin - f.fb ≤ q

/-- The spacing at m 2^e. -/
def Fmt.spacing (f : Fmt) (m : Nat) (e : Int) : Int := Max.max (e + (Nat.log2 m : Int) - f.fb) (f.emin - f.fb)

theorem two_zpow_log2_le {m : Nat} (hm : m ≠ 0) (e : Int) : (2 : Rat) ^ (e + (Nat.log2 m : Int)) ≤ m * 2 ^ e := by
  rw [add_comm, zpow_add₀ two_ne_zero, zpow_natCast]
  exact mul_le_mul_of_nonneg_right (by exact_mod_cast Nat.log2_self_le hm) (by positivity)

theorem lt_two_zpow_log2 (m : Nat) (e : Int) : m * 2 ^ e < (2 : Rat) ^ (e + (Nat.log2 m : Int) + 1) := by
  rw [add_assoc, add_comm e, zpow_add₀ two_ne_zero]
  exact mul_lt_mul_of_pos_right (by exact_mod_cast Nat.lt_log2_self (n := m)) (by positivity)

theorem Fmt.spaced_spacing (f : Fmt) {m : Nat} (hm : m ≠ 0) (e : Int) : f.Spaced (m * 2 ^ (e - f.spacing m e)) (f.spacing m e) := by
  have hmax := le_max_left (e + (Nat.log2 m : Int) - f.fb) (f.emin - f.fb)
  refine ⟨(lt_two_zpow_log2 m _).trans_le ?_, ?_, le_max_right _ _⟩
  · rw [← zpow_natCast]
    exact zpow_le_zpow_right₀ one_le_two (by simp only [Fmt.spacing]; push_cast; omega)
  · rcases max_choice (e + (Nat.log2 m : Int) - f.fb) (f.emin - f.fb) with hq | hq
    · refine .inl (le_trans (le_of_eq ?_) (two_zpow_log2_le hm _))
      rw [← zpow_natCast, Fmt.spacing, hq]
      congr 1
      omega
    · exact .inr hq

namespace Fmt.Spaced

variable {f : Fmt} {y : Rat} {q : Int}

/-- A number of the format is a multiple of the spacing, or it lies below every magnitude that has this spacing. -/
theorem value_grid (h : f.Spaced y q) {b : Nat} {v : Rat} (hv : Sys2Proof.Claims.value f b = some v) :
    (∃ neg, ∃ k : Nat, v = signOf neg * k * 2 ^ q) ∨ (|v| < 2 ^ f.fb * 2 ^ q ∧ 2 ^ f.fb ≤ y) := by
  obtain ⟨neg, n, p, hs, rfl⟩ := Fmt.value_spells hv
  rcases le_or_gt q p with hqp | hpq
  · refine .inl ⟨neg, n * 2 ^ (p - q).toNat, ?_⟩
    push_cast
    rw [two_zpow_split p q, two_zpow_toNat (sub_nonneg.2 hqp)]
    ring
  · refine .inr ⟨?_, h.normal.resolve_right (hs.ge.trans_lt hpq).ne'⟩
    have hn : (n : Rat) < 2 ^ f.fb * 2 := by exact_mod_cast pow_succ 2 f.fb ▸ hs.lt
    have hp : (2 : Rat) * 2 ^ p ≤ 2 ^ q := by
      rw [← zpow_one_add₀ two_ne_zero]
      exact zpow_le_zpow_right₀ one_le_two (by omega)
    rw [abs_signOf_mul neg n.cast_nonneg]
    calc (n : Rat) * 2 ^ p < 2 ^ f.fb * 2 * 2 ^ p := mul_lt_mul_of_pos_right hn (by positivity)
      _ = 2 ^ f.fb * (2 * 2 ^ p) := mul_assoc ..
      _ ≤ 2 ^ f.fb * 2 ^ q := mul_le_mul_of_nonneg_left hp (by positivity)

variable {n : Nat}

/-- The nearest multiple of the spacing is the nearest number of the format. -/
theorem nearest_value (h : f.Spaced y q) (hn : Nearest y n) (neg : Bool) {b : Nat} {v : Rat} (hv : Sys2Proof.Claims.value f b = some v) :
    let x := signOf neg * y * 2 ^ q
    let r := signOf neg * n * 2 ^ q
    |r - x| ≤ |v - x| ∧ (|r - x| = |v - x| → v ≠ r → n % 2 = 0) := by
  obtain ⟨z, hz⟩ : ∃ z : Rat, v = signOf neg * z * 2 ^ q :=
    ⟨signOf neg * v / 2 ^ q, by field_simp; rw [sq, signOf_mul_self, mul_one]⟩
  have hscale (a b : Rat) : |signOf neg * a * 2 ^ q - signOf neg * b * 2 ^ q| = |a - b| * 2 ^ q := by
    rw [← sub_mul, ← mul_sub, abs_mul, abs_mul, abs_signOf, one_mul, abs_of_pos (by positivity : (0 : Rat) < 2 ^ q)]
  have hgrid : (∃ j : Int, z = j) ∨ ∃ k : Nat, z ≤ k ∧ k ≤ y := by
    rcases h.value_grid hv with ⟨g, k, hk⟩ | ⟨hlt, hy⟩
    · obtain ⟨j, hj⟩ := signOf_mul_int (neg != g) k
      have hzk : signOf neg * z = signOf g * k := mul_right_cancel₀ (by positivity) (hz.symm.trans hk)
      refine .inl ⟨j, ?_⟩
      rw [← hj, ← signOf_mul_signOf, mul_assoc, ← hzk, ← mul_assoc, signOf_mul_self, one_mul]
    · refine .inr ⟨2 ^ f.fb, ?_, by exact_mod_cast hy⟩
      rw [hz, abs_mul, abs_mul, abs_signOf, one_mul, abs_of_pos (by positivity : (0 : Rat) < 2 ^ q)] at hlt
      exact_mod_cast (le_abs_self z).trans (lt_of_mul_lt_mul_right hlt (by positivity)).le
  obtain ⟨hle, heven⟩ := hn.le_of_grid hgrid
  intro x r
  rw [hz, hscale, hscale]
  refine ⟨mul_le_mul_of_nonneg_right hle (by positivity), fun heq hne => heven (mul_right_cancel₀ (by positivity) heq) ?_⟩
  rintro rfl
  exact hne rfl

/-- A magnitude whose nearest multiple of the spacing is past the format's numbers is past them itself. -/
theorem value_lt (h : f.Spaced y q) (hn : Nearest y n) (hover : 2 ^ (f.emax + 1) ≤ (n : Rat) * 2 ^ q) {b : Nat} {v : Rat}
    (hv : Sys2Proof.Claims.value f b = some v) : |v| < y * 2 ^ q := by
  rcases h.value_grid hv with ⟨g, k, rfl⟩ | ⟨hlt, hy⟩
  · have hk := (Fmt.value_abs_lt hv).trans_le hover
    rw [abs_signOf_mul g k.cast_nonneg] at hk ⊢
    refine mul_lt_mul_of_pos_right (not_le.1 fun hyk => ?_) (by positivity)
    exact absurd (lt_of_mul_lt_mul_right hk (by positivity)) (not_lt.2 (by exact_mod_cast hn.ge_of_ge hyk))
  · exact hlt.trans_le (mul_le_mul_of_nonneg_right hy (by positivity))

end Fmt.Spaced

/-! ### A carry out of the significand -/

/-- What `roundFin` makes of the rounded multiplier: one that has a bit too many is halved at twice the spacing. -/
def Fmt.carry (f : Fmt) (n : Nat) (q : Int) : Nat × Int := if 2 ^ (f.fb + 1) ≤ n then (n / 2, q + 1) else (n, q)

theorem Fmt.Spaced.carry {f : Fmt} {y : Rat} {q : Int} {n : Nat} (h : f.Spaced y q) (hn : Nearest y n) :
    ((f.carry n q).1 : Rat) * 2 ^ (f.carry n q).2 = n * 2 ^ q ∧ (f.carry n q).1 < 2 ^ (f.fb + 1) ∧
      (2 ^ f.fb ≤ (f.carry n q).1 ∨ (f.carry n q).2 = f.emin - f.fb) ∧ f.emin - f.fb ≤ (f.carry n q).2 ∧
      (n % 2 = 0 → (f.carry n q).1 % 2 = 0) := by
  have hle : n ≤ 2 ^ (f.fb + 1) := hn.ge_of_ge (by exact_mod_cast h.lt.le)
  have hge := h.ge
  unfold Fmt.carry
  split
  next hn' =>
    have hnext : n = 2 ^ f.fb * 2 := (le_antisymm hle hn').trans (pow_succ 2 f.fb)
    have hhalf : n / 2 = 2 ^ f.fb := by rw [hnext, Nat.mul_div_cancel _ two_pos]
    refine ⟨?_, hhalf.trans_lt (Nat.pow_lt_pow_right one_lt_two (Nat.lt_succ_self _)), .inl hhalf.ge,
      hge.trans (Int.le_add_one le_rfl), fun _ => hhalf ▸ two_pow_even f.fb_pos⟩
    rw [hhalf, hnext, zpow_add_one₀ two_ne_zero]
    push_cast
    ring
  next hn' => exact ⟨rfl, not_le.1 hn', h.normal.imp_left fun hy => hn.le_of_le (by exact_mod_cast hy), hge, id⟩

end Sys2Proof.Machine
end

section
/-! The rounded result of an exact value, and obligation O18 (04 R77-R78, R85-R86). -/

namespace Sys2Proof.Machine

/-- Whether m 2^e is below the normal numbers, and stays there when it is rounded as if exponents had no lower bound. -/
def Fmt.tiny (f : Fmt) (neg : Bool) (m : Nat) (e : Int) : Bool :=
  let top : Int := e + (Nat.log2 m : Int)
  decide (top < f.emin) && decide ((roundTo .rne neg m e (top - f.fb) false).1 < 2 ^ (f.emin - top + f.fb).toNat)

/-- `roundFin` of an exact magnitude by its parts: the spacing, the nearest multiple, its carry. -/
theorem roundFin_rne {f : Fmt} (hf : f ≠ .e4m3) (sat neg : Bool) {m : Nat} (hm : m ≠ 0) (e : Int) {n : Nat} {inexact : Bool}
    (hr : roundTo .rne neg m e (f.spacing m e) false = (n, inexact)) :
    roundFin f .rne sat neg m e false =
      if f.emax < (f.carry n (f.spacing m e)).2 + f.fb ∧ 2 ^ f.fb ≤ (f.carry n (f.spacing m e)).1 then
        (if sat then f.max neg else f.inf neg, fOF ||| fNX)
      else (f.pack neg (f.carry n (f.spacing m e)).1 (f.carry n (f.spacing m e)).2,
        when inexact fNX ||| when (inexact && f.tiny neg m e) fUF) := by
  unfold roundFin
  rw [if_neg (by simp [hm])]
  unfold Fmt.spacing at hr ⊢
  simp only [hr, hf, Fmt.carry, Fmt.emax, Fmt.tiny, overflow, false_and, or_false, if_false]
  rfl

theorem Fmt.tiny_lt {f : Fmt} {neg : Bool} {m : Nat} {e : Int} (h : f.tiny neg m e = true) : (m : Rat) * 2 ^ e < 2 ^ f.emin := by
  simp only [Fmt.tiny, Bool.and_eq_true, decide_eq_true_eq] at h
  exact (lt_two_zpow_log2 m e).trans_le (zpow_le_zpow_right₀ one_le_two h.1)

/-- A magnitude that is rounded to one below the normal numbers is tiny. -/
theorem Fmt.tiny_of_lt {f : Fmt} (neg : Bool) {m : Nat} (hm : m ≠ 0) {e : Int} {n : Nat} (hn : Nearest (m * 2 ^ (e - f.spacing m e)) n)
    (hlt : (n : Rat) * 2 ^ f.spacing m e < 2 ^ f.emin) : f.tiny neg m e = true := by
  have hs := f.spaced_spacing hm e
  have hsub : n < 2 ^ f.fb := by
    have hpow : (2 : Rat) ^ f.emin ≤ 2 ^ f.fb * 2 ^ f.spacing m e := by
      rw [← zpow_natCast, ← zpow_add₀ two_ne_zero]
      have := hs.ge
      exact zpow_le_zpow_right₀ one_le_two (by omega)
    exact_mod_cast lt_of_mul_lt_mul_right (hlt.trans_le hpow) (by positivity)
  have hy : ¬ (2 : Rat) ^ f.fb ≤ m * 2 ^ (e - f.spacing m e) := fun hy => absurd (hn.le_of_le (by exact_mod_cast hy)) (not_le.2 hsub)
  have hq := hs.normal.resolve_left hy
  have htop : e + (Nat.log2 m : Int) < f.emin := by
    by_contra hge
    refine hy (le_trans ?_ (two_zpow_log2_le hm _))
    rw [← zpow_natCast, hq]
    exact zpow_le_zpow_right₀ one_le_two (by omega)
  obtain ⟨d, hd⟩ : ∃ d : Nat, f.emin - (e + (Nat.log2 m : Int)) = d := Int.eq_ofNat_of_zero_le (by omega)
  have hfine := (roundTo_nearest neg m e (e + (Nat.log2 m : Int) - f.fb)).1
  rw [show e - (e + (Nat.log2 m : Int) - f.fb) = e - f.spacing m e + d by omega, zpow_add₀ two_ne_zero, ← mul_assoc, zpow_natCast] at hfine
  have hbelow := hn.lt_mul_two_pow (two_pow_even f.fb_pos) (by omega) hsub hfine
  rw [← pow_add] at hbelow
  simp only [Fmt.tiny, Bool.and_eq_true, decide_eq_true_eq]
  exact ⟨htop, by rwa [show (f.emin - (e + (Nat.log2 m : Int)) + f.fb).toNat = f.fb + d by omega]⟩

theorem rat_abs_eq (x : Rat) : x.abs = |x| := by
  unfold Rat.abs
  split
  next h => exact (abs_of_nonneg h).symm
  next h => exact (abs_of_neg (not_le.1 h)).symm

/-- The bits of a result that did not overflow. -/
theorem roundFin_bits (inexact tiny : Bool) :
    let g := when inexact fNX ||| when (inexact && tiny) fUF
    g &&& fOF = 0 ∧ g &&& ~~~(fNX ||| fUF) = 0 ∧ (g &&& fNX ≠ 0 ↔ inexact = true) ∧
      (g &&& fUF ≠ 0 ↔ inexact = true ∧ tiny = true) := by
  cases inexact <;> cases tiny <;> decide

/-- A pattern of the nearest multiple of the spacing is what RNE asks for. -/
theorem Fmt.Spaced.roundedTo {f : Fmt} {y : Rat} {q : Int} {n : Nat} (h : f.Spaced y q) (hn : Nearest y n) (hy : 0 < y) {neg : Bool} {r : Nat}
    (hwidth : r < 2 ^ f.width) (hsign : r / 2 ^ (f.eb + f.fb) = neg.toNat)
    (hvalue : Sys2Proof.Claims.value f r = some (signOf neg * n * 2 ^ q)) (heven : n % 2 = 0 → r % 2 = 0) :
    Sys2Proof.Claims.roundedTo f .rne (signOf neg * y * 2 ^ q) r := by
  have hlt : signOf neg * y * 2 ^ q < 0 ↔ neg = true := by rw [mul_assoc]; exact signOf_mul_lt_zero neg (by positivity)
  refine ⟨hwidth, ?_, _, hvalue, fun p v _ hv => ?_⟩
  · rw [hsign]
    cases neg <;> simp [hlt]
  · obtain ⟨hle, htie⟩ := h.nearest_value hn neg hv
    simp only [rat_abs_eq]
    exact ⟨hle, fun heq hne => heven (htie heq hne)⟩

/-- A result within the format's range, from what it says of the exact value. -/
theorem rounds_of_fits {f : Fmt} (sat : Bool) {x v : Rat} {r : Nat} {inexact tiny : Bool} (hr : Sys2Proof.Claims.roundedTo f .rne x r)
    (hv : Sys2Proof.Claims.value f r = some v) (hinexact : inexact = true ↔ v ≠ x) (hlt : tiny = true → |x| < 2 ^ f.emin)
    (htiny : |v| < 2 ^ f.emin → tiny = true) :
    Sys2Proof.Claims.rounds f .rne sat x (r, when inexact fNX ||| when (inexact && tiny) fUF) := by
  obtain ⟨hof, hothers, hnx, huf⟩ := roundFin_bits inexact tiny
  refine ⟨fun _ => ⟨hr, hothers, ?_, fun h => ?_, fun h hbelow => ?_⟩, fun h => absurd hof h⟩
  · rw [hnx, hinexact, hv, ne_eq, ne_eq, Option.some_inj]
  · obtain ⟨hi, ht⟩ := huf.1 h
    exact ⟨hnx.2 hi, rat_abs_eq x ▸ hlt ht⟩
  · exact huf.2 ⟨hnx.1 h, htiny (rat_abs_eq v ▸ hbelow v hv)⟩

/-- An overflow under RNE, from what it says of the exact value. -/
theorem rounds_of_overflow {f : Fmt} (sat : Bool) {neg : Bool} {x : Rat} (hneg : x < 0 ↔ neg = true)
    (hpast : ∀ p v, Sys2Proof.Claims.value f p = some v → |v| < |x|) :
    Sys2Proof.Claims.rounds f .rne sat x (if sat then f.max neg else f.inf neg, fOF ||| fNX) := by
  refine ⟨fun h => absurd h (show ¬(fOF ||| fNX) &&& fOF = 0 by decide), fun _ => ⟨rfl, fun p v _ hv => ?_, by simp [hneg]⟩⟩
  rw [rat_abs_eq, rat_abs_eq]
  exact hpast p v hv

/-- An exact magnitude other than zero is rounded once (04 R77-R78). -/
theorem roundFin_rounds {f : Fmt} (hf : f ≠ .e4m3) (sat neg : Bool) {m : Nat} (hm : m ≠ 0) (e : Int) :
    Sys2Proof.Claims.rounds f .rne sat (signOf neg * m * 2 ^ e) (roundFin f .rne sat neg m e false) := by
  have hs := f.spaced_spacing hm e
  obtain ⟨hn, hinexact⟩ := roundTo_nearest neg m e (f.spacing m e)
  obtain ⟨⟨n, inexact⟩, hr⟩ : ∃ r, roundTo .rne neg m e (f.spacing m e) false = r := ⟨_, rfl⟩
  rw [hr] at hn hinexact
  rw [roundFin_rne hf sat neg hm e hr]
  obtain ⟨hcarry, hlt, hnormal, hge, heven⟩ := hs.carry hn
  have htiny := Fmt.tiny_of_lt neg hm hn
  have hm0 : (0 : Rat) < m := by exact_mod_cast Nat.pos_of_ne_zero hm
  have hunit : (m : Rat) * 2 ^ e = m * 2 ^ (e - f.spacing m e) * 2 ^ f.spacing m e := by rw [mul_assoc, ← two_zpow_split]
  have hx : signOf neg * m * 2 ^ e = signOf neg * (m * 2 ^ (e - f.spacing m e)) * 2 ^ f.spacing m e := by
    rw [mul_assoc, hunit, ← mul_assoc]
  generalize f.carry n (f.spacing m e) = c at hcarry hlt hnormal hge heven
  split
  next hover =>
    have hpast : 2 ^ (f.emax + 1) ≤ (n : Rat) * 2 ^ f.spacing m e := by
      rw [← hcarry, two_zpow_split _ c.2]
      refine mul_le_mul_of_nonneg_right (le_trans ?_ (by exact_mod_cast hover.2 : (2 : Rat) ^ f.fb ≤ c.1)) (by positivity)
      rw [← zpow_natCast]
      exact zpow_le_zpow_right₀ one_le_two (by omega)
    refine rounds_of_overflow sat (mul_assoc (signOf neg) m _ ▸ signOf_mul_lt_zero neg (by positivity)) fun p v hv => ?_
    rw [abs_signOf_mul neg hm0.le, hunit]
    exact hs.value_lt hn hpast hv
  next hfits =>
    have hrange := f.emin_lt_emax
    have hspells : f.Spells c.1 c.2 := ⟨hlt, hnormal, hge, by omega⟩
    obtain ⟨hwidth, hsign, hvalue, hodd⟩ := hspells.pack neg
    rw [mul_assoc, hcarry, ← mul_assoc] at hvalue
    have hrounded := hs.roundedTo hn (by positivity) hwidth hsign hvalue (fun h => hodd.trans (heven h))
    refine rounds_of_fits sat (hx ▸ hrounded) hvalue ?_ (fun ht => ?_) (fun h => htiny ?_)
    · rw [hinexact, hx, ne_eq, ne_eq, mul_left_inj' (by positivity), mul_right_inj' (signOf_ne_zero neg)]
    · rw [abs_signOf_mul neg hm0.le]
      exact Fmt.tiny_lt ht
    · rwa [abs_signOf_mul neg (by positivity)] at h

/-- A sum of two finite values other than zero is rounded once (18 R335). -/
theorem roundSum_rounds {f : Fmt} (hf : f ≠ .e4m3) (sat : Bool) {a b : FVal} {x y : Rat} (ha : a.rat = some x) (hb : b.rat = some y)
    (hne : x + y ≠ 0) : Sys2Proof.Claims.rounds f .rne sat (x + y) (roundSum f .rne sat a b 0) := by
  obtain ⟨hval, hflags, hsticky⟩ := addE_is ha hb
  obtain ⟨neg, m, e, hfin, hxy⟩ := FVal.rat_eq_some.1 hval
  have hm : m ≠ 0 := by
    rintro rfl
    exact hne (by simpa using hxy.symm)
  have hsum : roundSum f .rne sat a b 0 = roundFin f .rne sat neg m e false := by
    simp [roundSum, deliver, hfin, hflags, hsticky, FVal.isZero, hm]
  rw [hsum, ← hxy]
  exact roundFin_rounds hf sat neg hm e

/-- Settles O18: the block's products are exact, their sum is exact, and one rounding to nearest makes of it and the accumulator the result. -/
theorem matrixBlockRoundsOnce : Obligations.MatrixBlockRoundsOnce := by
  unfold Obligations.MatrixBlockRoundsOnce
  intro t u v acc x l ht hu hv _ _ hacc hl sum hsum
  have finite {f : Fmt} (hf : f ∈ [.f16, .bf16, .f32, .f64]) : f ≠ .e4m3 := by rintro rfl; simp at hf
  have hprod : List.Forall₂ Exact.Is (l.map fun p => mulE (inputVal u 2 p.1) (inputVal v 2 p.2.1)) (l.map fun p => p.2.2.1 * p.2.2.2) := by
    rw [List.forall₂_map_left_iff, List.forall₂_map_right_iff, List.forall₂_same]
    intro p hp
    obtain ⟨_, _, ha, hb⟩ := hl p hp
    rw [inputVal_two, inputVal_two]
    exact mulE_is ((Fmt.decode_rat (finite hu) _).trans ha) ((Fmt.decode_rat (finite hv) _).trans hb)
  have ht : t ≠ .e4m3 := by rintro rfl; simp at ht
  obtain ⟨s, hs, hblock⟩ := addBlock_two t acc hprod
  rw [List.map_map, Function.comp_def] at hblock
  rw [hblock]
  exact roundSum_rounds ht false ((Fmt.decode_rat ht _).trans hacc) hs hsum

end Sys2Proof.Machine
end

section
/-! An aborted firing whose end halts its context, and obligation O59 (05 R101-R102, 13 R464, 22 R419-R420). -/

namespace Sys2Proof.Machine

/-- A firing that a message started and PAGE has aborted: its service has not begun. -/
def pageAborted (stopping : Bool) (id : Nat) (va : Word) : Aborted :=
  { firing := { Firing.new (.actor ⟨0, 0⟩) 0 (some 0) false [] [.msg id] [] with started := true, stopping },
    va, acc := .read, addr := 0x1000, seq := none, refused := false }

/-- A message that a firing has reserved. -/
def reservedMsg (id : Nat) : InMsg :=
  ⟨id, { kind := .handler, hidx := 0, regs := List.replicate 8 XReg.zero, sender := 0, ctx := 1, launch := 0, born := 0, href := none }, some ⟨0, 0⟩, true⟩

/-- Context 1 is STOPPED by a STOPW of core 0 and its dead-letter ring is full. Core 0 holds two firings that PAGE has aborted: one from before
the stop, then the stopping firing itself. -/
def stoppedOverFullRing : State :=
  (State.reset.setCtx 1 { Ctx.fresh with
      state := .stopped, stopper := some 0, dl := { base := 0x10000, log := 6, wcount := 64, rcount := 0, waiting := [] } }).setCore 0
    { Core.fresh with
      ctx := some 1, launch := some 0, inbox := [reservedMsg 0, reservedMsg 1], nextMsg := 2,
      aborted := [pageAborted false 0 0x30000, pageAborted true 1 0x40000] }

/-- PAGE ends the first firing, whose dead letter finds the ring full: the context halts (05 R101) and the stop of the world ends with it, so
that the firing which still awaits its service is the stopping firing no more. -/
theorem pageService_stoppedOverFullRing : ∃ t, exec (.pageService 0) stoppedOverFullRing = .next t ∧ (t.ctx 1).state = .halted ∧
    (t.ctx 1).haltCause = 3 ∧ (t.core 0).aborted = [pageAborted false 1 0x40000] :=
  ⟨_, rfl, by decide, by decide, by decide⟩

/-- Refutes O59: an Ended firing need not leave the others that await their service as they were. Where its dead letter finds the ring full, the
context halts, and a firing that had stopped the world loses its mark. -/
theorem not_servicesOfThePlinth : ¬ Obligations.ServicesOfThePlinth := by
  unfold Obligations.ServicesOfThePlinth
  rintro ⟨⟨-, pages, -⟩, -⟩
  obtain ⟨-, served⟩ := pages 0 stoppedOverFullRing [] [pageAborted true 1 0x40000] (pageAborted false 0 0x30000) rfl rfl (by simp)
  obtain ⟨unmapped, -⟩ := served rfl (by decide) (by decide)
  have hwalk : stoppedOverFullRing.tableWalk 1 0x30000 = .none := by decide
  obtain ⟨t, ht, haborted, -⟩ := unmapped fun at_ lv e h => WalkEnd.noConfusion (hwalk.symm.trans h)
  obtain ⟨u, hu, -, -, hleft⟩ := pageService_stoppedOverFullRing
  obtain rfl : t = u := by simpa [hu] using ht.symm
  exact absurd (haborted.symm.trans hleft) (by decide)

end Sys2Proof.Machine
end

section
/-! A COPY of no bytes whose completion event has its home on a lost die, and obligation O55 (06 R112-R113, 14 R238, 05 R100). -/

namespace Sys2Proof.Machine

/-- Context 1 maps its first GiB onto the first GiB of memory, its tables at 0 and 0x1000; its dead-letter ring stands at 0x10000 and is empty.
Queue 0 runs with one packet at 0x2000, a COPY of no bytes whose completion sets event 1. Die 1, that event's home, is lost. -/
def copyOfNothing : State :=
  { State.reset with
    mem := [(0, 0x01), (1, 0x10), (0x1000, 0x0F), (0x2000, 0x07), (0x2001, 0x02), (0x2002, 0x01)]
    ctxs := [(1, { Ctx.fresh with state := .live, home := true, dl := { RingSt.none with base := 0x10000, log := 6 } })]
    queues := [(0, { Queue.reset with base := 0x2000, ctx := 1, en := true, state := .running, wptr := 1 })]
    dies := [(1, { Die.fresh with lost := true })] }

theorem copyOfNothing_heads : Sys2Proof.Claims.heads copyOfNothing 0 7 := by
  have hd : Sys2Proof.Claims.packet copyOfNothing 0 0 = 0x10207 := by decide
  refine ⟨⟨by decide, by decide, by decide, by decide, by decide, by decide⟩, ?_, ?_, ?_⟩ <;> rw [hd] <;> decide

/-- The set of the event comes back as a dead letter (14 R238), which stands in the context's memory: WCOUNT of the ring at 0x10000 is 1. -/
theorem copyPacket_copyOfNothing : ∃ t, exec (.copyPacket 0) copyOfNothing = .next t ∧ t.byte 0x10000 = 1 :=
  ⟨_, rfl, by decide⟩

/-- Refutes O55: a COPY of no bytes need not leave memory as it was. The set of its completion event, whose home die is lost, comes back as a
dead letter, and the dead-letter ring stands in memory. -/
theorem not_queueEvents : ¬ Obligations.QueueEvents := by
  unfold Obligations.QueueEvents
  rintro ⟨-, -, -, -, -, -, copy, -⟩
  obtain ⟨-, nothing, -⟩ := copy 0 copyOfNothing copyOfNothing_heads
  obtain ⟨t, ht, -, -, sameBytes, -⟩ := nothing (by decide) (by decide)
  obtain ⟨u, hu, hwcount⟩ := copyPacket_copyOfNothing
  obtain rfl : t = u := by simpa [hu] using ht.symm
  exact absurd ((sameBytes 0x10000).symm.trans hwcount) (by decide)

end Sys2Proof.Machine
end

section
/-! A RETIRING kernel whose code is freed while the world is stopped, and obligation O56 (05 R101-R102, 07 R139, 09 R160). -/

namespace Sys2Proof.Machine

/-- A firing of kernel 8 whose STOPW has stopped the world. -/
def stoppingFiring : Firing :=
  { Firing.new (.actor ⟨8, 0⟩) 0 (some 0) false [] [] [] with started := true, stopping := true }

/-- Context 1 is STOPPED by a STOPW of core 0 and its dead-letter ring is full. Kernel 7 is RETIRING, and core 0 holds a READY firing of it which
join counter 0 has started. -/
def retiringOverFullRing : State :=
  { State.reset with
    ctxs := [(1, { Ctx.fresh with
      state := .stopped, stopper := some 0, dl := { RingSt.none with base := 0x10000, log := 6, wcount := 64 }
      kernels := [(7, { Kernel.absent with state := .retiring })] })]
    cores := [(0, { Core.fresh with
      ctx := some 1, launch := some 0, run := .running, firing := some stoppingFiring
      ready := [Firing.new (.actor ⟨7, 0⟩) 0 (some 0) false [] [.join 0] []] })] }

/-- The READY firing cannot start, and its dead letter finds the ring full: the context halts (05 R101), the stop of the world ends with it, and
the firing that core 0 runs is the stopping firing no more. -/
theorem kernelCodeFree_retiringOverFullRing : ∃ t, exec (.kernelCodeFree 1 7) retiringOverFullRing = .next t ∧ (t.ctx 1).state = .halted ∧
    (t.ctx 1).haltCause = 3 ∧ (t.core 0).firing = some { stoppingFiring with stopping := false } :=
  ⟨_, rfl, by decide, by decide, by decide⟩

/-- Refutes O56: KERNEL_CODE_FREE need not leave the firings that run as they were. Where the dead letter of a firing that it ends finds the ring
full, the context halts, and a firing that had stopped the world loses its mark. -/
theorem not_groupsBoundAndRotated : ¬ Obligations.GroupsBoundAndRotated := by
  unfold Obligations.GroupsBoundAndRotated
  rintro ⟨⟨-, codeFree, -⟩, -⟩
  obtain ⟨-, freed⟩ := codeFree 1 7 retiringOverFullRing
  obtain ⟨t, ht, -, -, firings, -⟩ := freed (by decide) (by decide)
  obtain ⟨u, hu, -, -, hfiring⟩ := kernelCodeFree_retiringOverFullRing
  obtain rfl : t = u := by simpa [hu] using ht.symm
  exact absurd ((firings 0 rfl).1.symm.trans hfiring) (by decide)

end Sys2Proof.Machine
end

section
/-! DESTROY over a table of queues that is not in canonical form, and obligation O54 (05 R96, 06 R107, R116). -/

namespace Sys2Proof.Machine

/-- A queue of a context that is IDLE. -/
def idleQueueOf (ctx : BitVec 8) : Queue := { Queue.reset with ctx, en := true, state := .idle }

/-- Contexts 1 and 2 are LIVE. The table of queues lists queue 0 twice: it reads as a queue of context 2, and an entry of context 1 stands behind.
A table in canonical form (`Table.wf`) names a key once, and the writes keep that form; O54 speaks of every state and does not ask for it. -/
def queueListedTwice : State :=
  { State.reset with
    mgmt := { Mgmt.reset with boot := .ready }
    ctxs := [(1, { Ctx.fresh with state := .live }), (2, { Ctx.fresh with state := .live })]
    queues := [(0, idleQueueOf 2), (0, idleQueueOf 1)] }

/-- The entry behind names queue 0 as one of the context that goes, and the record of CTX_GONE is written for the context that it reads as. -/
theorem destroy_queueListedTwice : ∃ t, exec (.destroy 1) queueListedTwice = .next t ∧ (t.ctx 2).eq.waiting.length = 1 :=
  ⟨_, rfl, by decide⟩

/-- Refutes O54: DESTROY need not leave every other context as it was. It goes by the entries of the table of queues, and where two of them name
one queue, the queue of another context is refused and that context's error queue takes the record. -/
theorem not_contextsCommanded : ¬ Obligations.ContextsCommanded := by
  unfold Obligations.ContextsCommanded
  rintro ⟨⟨-, commands⟩, -⟩
  obtain ⟨-, -, -, -, -, -, -, -, -, destroyed, -⟩ := commands 1 queueListedTwice rfl
  obtain ⟨t, ⟨ht, others⟩, -⟩ := destroyed (.inl rfl)
  obtain ⟨u, hu, hrecord⟩ := destroy_queueListedTwice
  have hctx : u.ctx 2 = t.ctx 2 := by
    obtain rfl := Host.Outcome.next.inj (hu.symm.trans ht)
    rfl
  rw [hctx, others 2 (by decide)] at hrecord
  exact absurd hrecord (by decide)

end Sys2Proof.Machine
end

section
/-! Host writes of features, gauges and registers, and obligation O30 (06 R108, R118, R122, R129, 23 R432-R435). -/

namespace Sys2Proof.Machine

/-! ### Features (06 R129) -/

section Features

variable {s : State} (w : Word)

theorem State.writeFeatoff_free (h : ∀ p ∈ s.ctxs, p.2.state = .free) : s.writeFeatoff w = { s with featoff := w &&& 0x3E } :=
  if_pos (List.all_eq_true.2 fun p hp => decide_eq_true (h p hp))

theorem State.writeFeatoff_busy (h : ∃ p ∈ s.ctxs, p.2.state ≠ .free) : s.writeFeatoff w = { s with featoff := s.featoff ||| 2 ^ 63 } := by
  obtain ⟨p, hp, hbusy⟩ := h
  have top : (0x8000000000000000 : Word) = 2 ^ 63 := by norm_num
  rw [State.writeFeatoff, if_neg fun hall => hbusy (of_decide_eq_true (List.all_eq_true.1 hall p hp)), top]

end Features

/-! ### Gauges (23 R432-R433) -/

section Gauges

/-- Unit u of a context's gauges becomes `g`. -/
def State.putGauge (s : State) (ctx u : Nat) (g : Gauge) : State :=
  s.modCtx ctx fun x => { x with gauges := Table.set Gauge.reset x.gauges u g }

/-- A gauge unit after a reset: its source and its selector stand, every sample is gone. -/
def Gauge.resetTo (src : BitVec 4) (sel : BitVec 5) : Gauge := ⟨src, 0xFFFFFFFFFFFFFFFF, 0, 0, 0, sel, []⟩

variable (s : State) (ctx u : Nat) (g : Gauge)

@[simp] theorem State.putGauge_gauge_same : ((s.putGauge ctx u g).ctx ctx).gauge u = g := by
  simp [State.putGauge, Ctx.gauge]

@[simp] theorem State.putGauge_gauge_other {n : Nat} (h : n ≠ u) : ((s.putGauge ctx u g).ctx ctx).gauge n = (s.ctx ctx).gauge n := by
  simp [State.putGauge, Ctx.gauge, h]

@[simp] theorem State.putGauge_ctx_other {c : Nat} (h : c ≠ ctx) : (s.putGauge ctx u g).ctx c = s.ctx c :=
  State.modCtx_ctx_other s _ h

theorem State.putGauge_ctxsOnly : s.putGauge ctx u g = { s with ctxs := (s.putGauge ctx u g).ctxs } := rfl

theorem exec_gaugeClear : exec (.gaugeClear ctx u) s =
    .next (s.putGauge ctx u (.resetTo ((s.ctx ctx).gauge u).src ((s.ctx ctx).gauge u).sel)) := rfl

theorem exec_gaugeSourceSet {src : BitVec 4} (h : src.toNat < 9) : exec (.gaugeSourceSet ctx u src) s =
    .next (s.putGauge ctx u (.resetTo src ((s.ctx ctx).gauge u).sel)) := by
  have hsrc : (src.setWidth 64).setWidth 4 = src := BitVec.setWidth_setWidth_of_le src (by decide)
  simp [exec, execGaugeSourceSet, Nat.not_le.2 h, State.gaugeWrite, gaugeOf, State.putGauge, Gauge.clear, Gauge.reset, Gauge.resetTo, hsrc]

theorem exec_gaugeSourceSet_ignored {src : BitVec 4} (h : 9 ≤ src.toNat) : exec (.gaugeSourceSet ctx u src) s = .next s := if_pos h

end Gauges

/-! ### Which part of the register space an offset lies in (06 R122) -/

section Regions

variable (s : State) {off : Nat} (w : Word)

theorem exec_registerWrite : exec (.registerWrite off w) s = .next (s.writeRegister off w) := rfl

theorem State.writeRegister_unaligned (h : off % 8 ≠ 0) : s.writeRegister off w = s := if_pos h

theorem State.writeRegister_boot (ha : off % 8 = 0) (h : 0x24000 ≤ off ∧ off < 0x26000) : s.writeRegister off w = s.writeBoot off w := by
  rw [State.writeRegister, if_neg (by omega), if_pos h]

variable {s}

theorem State.writeRegister_bootfail (hb : s.mgmt.boot = .fail) (h : ¬(0x24000 ≤ off ∧ off < 0x26000)) : s.writeRegister off w = s := by
  rw [State.writeRegister, if_neg h, if_pos hb, ite_self]

theorem State.writeRegister_queue (hb : s.mgmt.boot ≠ .fail) (ha : off % 8 = 0) (h : off < 0x20000) :
    s.writeRegister off w = s.writeQueue (off / 64) (off % 64) w := by
  rw [State.writeRegister, if_neg (by omega), if_neg (by omega), if_neg hb, if_pos h]

theorem State.writeRegister_control (hb : s.mgmt.boot ≠ .fail) (ha : off % 8 = 0) (hl : 0x20000 ≤ off) (hr : off < 0x21000) :
    s.writeRegister off w = s.writeControl off w := by
  rw [State.writeRegister, if_neg (by omega), if_neg (by omega), if_neg hb, if_neg (by omega), if_pos hr]

theorem State.writeRegister_featoff (hb : s.mgmt.boot ≠ .fail) : s.writeRegister 0x21000 w = s.writeFeatoff w := by
  simp [State.writeRegister, hb]

theorem State.writeRegister_status (hb : s.mgmt.boot ≠ .fail) (ha : off % 8 = 0) (hl : 0x21000 < off) (hr : off < 0x24000) :
    s.writeRegister off w = s.writeStatus off w := by
  rw [State.writeRegister, if_neg (by omega), if_neg (by omega), if_neg hb, if_neg (by omega), if_neg (by omega), if_neg (by omega),
    if_pos hr]

variable (s)

theorem State.writeRegister_beyond (h : 0x80000 ≤ off) : s.writeRegister off w = s := by
  rw [State.writeRegister, if_neg (by omega : ¬(0x24000 ≤ off ∧ off < 0x26000)), if_neg (by omega : ¬off < 0x20000),
    if_neg (by omega : ¬off < 0x21000), if_neg (by omega : ¬off = 0x21000), if_neg (by omega : ¬off < 0x24000),
    if_neg (by omega : ¬(0x40000 ≤ off ∧ off < 0x80000)), ite_self, ite_self]

theorem slotOff_slot {base n i : Nat} (hb : base % 8 = 0) (h : i < n) : slotOff base n (base + 8 * i) = some i := by
  rw [slotOff, if_pos (by omega), Nat.add_sub_cancel_left, Nat.mul_div_cancel_left i (by decide)]

theorem slotOff_outside {base n : Nat} (h : off < base ∨ base + 8 * n ≤ off) : slotOff base n off = none := if_neg (by omega)

end Regions

/-! ### What the registers of each part do -/

section Registers

variable (s : State) (w : Word)

/-- The provisioning window is written byte by byte. -/
theorem State.writeWindow_eq (a : Nat) : s.writeWindow a w =
    { s with mgmt := { s.mgmt with window := writeBytes s.mgmt.window a (bytesOf 8 w.toNat) } } := by
  have bytewise (bs : List Byte) (n : Nat) (t : Table Byte) :
      (bs.zipIdx n).foldl (fun t p => Table.set 0 t (a + p.2) p.1) t = writeBytes t (a + n) bs := by
    induction bs generalizing n t with
    | nil => rfl
    | cons b bs ih => exact ih (n + 1) _
  rw [State.writeWindow, bytewise]
  rfl

theorem State.writeBoot_window {off : Nat} (hl : 0x25000 ≤ off) (hr : off < 0x26000) : s.writeBoot off w = s.writeWindow (off - 0x25000) w := by
  rw [State.writeBoot, if_neg (by omega), if_neg (by omega), if_neg (by omega), if_pos ⟨hl, hr⟩]

theorem bytesOf_getD {n i : Nat} (h : i < n) (v : Nat) : (bytesOf n v).getD i 0 = BitVec.ofNat 8 (v / 2 ^ (8 * i)) := by
  simp [bytesOf, h]

theorem State.writeControl_arg {i : Nat} (h : i < 8) : s.writeControl (0x20008 + 8 * i) w = { s with carg := Table.set 0 s.carg i w } := by
  rw [State.writeControl, if_neg (by omega), if_neg (by omega), slotOff_slot (by decide) h]

theorem State.writeControl_command (h : s.mgmt.boot ≠ .ready) : s.writeControl 0x20000 w = s := by
  simp [State.writeControl, State.writeCcmd, h]

theorem State.writeStatus_link {n : Nat} (h : n < 18) : s.writeStatus (0x22000 + 8 * n) w = s.setLink n { s.link n with
    retry := (s.link n).retry &&& ~~~((w >>> 32).setWidth 16), trains := (s.link n).trains &&& ~~~((w >>> 48).setWidth 16) } := by
  rw [State.writeStatus, if_neg (by omega), slotOff_slot (by decide) h]

theorem State.writeStatus_die {d : Nat} (h : d < 8) : s.writeStatus (0x23000 + 8 * d) w =
    s.setDie d { s.die d with soft := (s.die d).soft &&& ~~~w } := by
  rw [State.writeStatus, if_neg (by omega), slotOff_outside (by omega), slotOff_slot (by decide) h]

/-- A field of 16 bits under W1C, as numbers: the ones of the word's field are taken out. -/
theorem and_not_field (x : BitVec 16) (n : Nat) :
    x &&& ~~~((w >>> n).setWidth 16) = BitVec.ofNat 16 (x.toNat &&& (65535 - w.toNat / 2 ^ n % 2 ^ 16)) := by
  apply BitVec.eq_of_toNat_eq
  rw [BitVec.toNat_and, BitVec.toNat_not, BitVec.toNat_setWidth, BitVec.toNat_ushiftRight, Nat.shiftRight_eq_div_pow, BitVec.toNat_ofNat,
    Nat.mod_eq_of_lt (Nat.lt_of_le_of_lt Nat.and_le_left x.isLt)]

theorem State.writeQueue_lost {q : Nat} (byte : Nat) (h : (s.die (q / 256)).lost = true) : s.writeQueue q byte w = s := if_pos h

theorem State.writeQueue_base {q : Nat} (h : (s.die (q / 256)).lost = false) : s.writeQueue q 0 w = s.setQueue q
    (if (s.queue q).state = .disabled then { s.queue q with base := w } else { s.queue q with cmderr := true }) := by
  rw [State.writeQueue, if_neg (by simp [h])]
  exact (apply_ite (s.setQueue q) _ _ _).symm

end Registers

/-! ### The parts of the obligation -/

section Parts

variable (s : State) (w : Word)

theorem gauge_reset_by_host (ctx u : Nat) (src : BitVec 4) {i : Instr} {v : BitVec 4}
    (hi : i = Instr.gaugeSourceSet ctx u src ∧ v = src ∧ src.toNat < 9 ∨ i = .gaugeClear ctx u ∧ v = ((s.ctx ctx).gauge u).src) :
    exec i s = .next (s.putGauge ctx u (.resetTo v ((s.ctx ctx).gauge u).sel)) := by
  rcases hi with ⟨rfl, rfl, hsrc⟩ | ⟨rfl, rfl⟩
  · exact exec_gaugeSourceSet s ctx u hsrc
  · exact exec_gaugeClear s ctx u

theorem registerWrite_window {off : Nat} (ha : off % 8 = 0) (hl : 0x25000 ≤ off) (hr : off < 0x26000) :
    ∃ t, exec (.registerWrite off w) s = .next t ∧ t = { s with mgmt := { s.mgmt with window := t.mgmt.window } } ∧
      ∀ i, Table.get 0 t.mgmt.window i =
        if off - 0x25000 ≤ i ∧ i < off - 0x25000 + 8 then BitVec.ofNat 8 (w.toNat / 2 ^ (8 * (i - (off - 0x25000))))
        else Table.get 0 s.mgmt.window i := by
  refine ⟨s.writeWindow (off - 0x25000) w, ?_, rfl, fun i => ?_⟩
  · rw [exec_registerWrite, State.writeRegister_boot s w ha ⟨by omega, hr⟩, State.writeBoot_window s w hl hr]
  · have hlen : (bytesOf 8 w.toNat).length = 8 := by simp [bytesOf]
    rw [State.writeWindow_eq]
    refine (writeBytes_get s.mgmt.window _ _ i).trans ?_
    rw [hlen]
    split
    · next h => rw [bytesOf_getD (by omega)]
    · rfl

theorem registerWrite_arg (hb : s.mgmt.boot ≠ .fail) {i : Nat} (hi : i < 8) :
    ∃ t, exec (.registerWrite (0x20008 + 8 * i) w) s = .next t ∧ t = { s with carg := t.carg } ∧
      ∀ j, Table.get 0 t.carg j = if j = i then w else Table.get 0 s.carg j := by
  refine ⟨{ s with carg := Table.set 0 s.carg i w }, ?_, rfl, fun j => ?_⟩
  · rw [exec_registerWrite, State.writeRegister_control w hb (by omega) (by omega) (by omega), State.writeControl_arg s w hi]
  · by_cases h : j = i
    · simp [h]
    · simp [h]

theorem registerWrite_link (hb : s.mgmt.boot ≠ .fail) {n : Nat} (hn : n < 18) :
    ∃ t, exec (.registerWrite (0x22000 + 8 * n) w) s = .next t ∧ Sys2Proof.Claims.onlyLink s t n { s.link n with
      retry := BitVec.ofNat 16 ((s.link n).retry.toNat &&& (65535 - w.toNat / 2 ^ 32 % 2 ^ 16)),
      trains := BitVec.ofNat 16 ((s.link n).trains.toNat &&& (65535 - w.toNat / 2 ^ 48 % 2 ^ 16)) } := by
  refine ⟨_, ?_, rfl, State.setLink_link_same s n _, fun m hm => State.setLink_link_other s _ hm⟩
  rw [exec_registerWrite, State.writeRegister_status w hb (by omega) (by omega) (by omega), State.writeStatus_link s w hn, and_not_field,
    and_not_field]

theorem registerWrite_soft (hb : s.mgmt.boot ≠ .fail) {d : Nat} (hd : d < 8) :
    ∃ t, exec (.registerWrite (0x23000 + 8 * d) w) s = .next t ∧ t = { s with dies := t.dies } ∧
      t.die d = { s.die d with soft := (s.die d).soft &&& ~~~w } ∧ ∀ e, e ≠ d → t.die e = s.die e := by
  refine ⟨_, ?_, rfl, State.setDie_die_same s d _, fun e he => State.setDie_die_other s _ he⟩
  rw [exec_registerWrite, State.writeRegister_status w hb (by omega) (by omega) (by omega), State.writeStatus_die s w hd]

theorem registerWrite_base (hb : s.mgmt.boot ≠ .fail) {q : Nat} (hq : q < 2048) (hd : (s.die (q / 256)).lost = false) :
    ∃ t, exec (.registerWrite (64 * q) w) s = .next t ∧ t = { s with queues := t.queues } ∧
      t.queue q = (if (s.queue q).state = .disabled then { s.queue q with base := w } else { s.queue q with cmderr := true }) ∧
      ∀ p, p ≠ q → t.queue p = s.queue p := by
  refine ⟨_, ?_, rfl, State.setQueue_queue_same s q _, fun p hp => State.setQueue_queue_other s _ hp⟩
  rw [exec_registerWrite, State.writeRegister_queue w hb (by omega) (by omega), Nat.mul_div_cancel_left q (by decide), Nat.mul_mod_right,
    State.writeQueue_base s w hd]

/-- Of a queue's block on a die that is lost there are no registers (14 R238). -/
theorem registerWrite_lostQueue (hb : s.mgmt.boot ≠ .fail) {off : Nat} (h : off < 0x20000) (hd : (s.die (off / 64 / 256)).lost = true) :
    s.writeRegister off w = s := by
  by_cases ha : off % 8 = 0
  · rw [State.writeRegister_queue w hb ha h, State.writeQueue_lost s w _ hd]
  · exact State.writeRegister_unaligned s w ha

end Parts

/-- Settles O30: an offset lies in one part of the register space, whose registers act as their rules say; a field under W1C keeps the bits at which
the word has no one. -/
theorem hostRegisterWrites : Obligations.HostRegisterWrites := by
  unfold Obligations.HostRegisterWrites
  refine ⟨fun w s => ⟨fun h => congrArg Host.Outcome.next (State.writeFeatoff_free w h), fun h => congrArg Host.Outcome.next (State.writeFeatoff_busy w h)⟩,
    fun ctx u src s _ => ⟨exec_gaugeSourceSet_ignored s ctx u, fun i v hi => ?_⟩, fun off w s => ⟨fun h => ?_, fun hb h => ?_, ?_, ?_, ?_, fun hb => ?_⟩⟩
  · exact ⟨_, gauge_reset_by_host s ctx u src hi, s.putGauge_ctxsOnly ctx u _, s.putGauge_gauge_same ctx u _,
      fun n hn => s.putGauge_gauge_other ctx u _ hn, fun c hc => s.putGauge_ctx_other ctx u _ hc⟩
  · rcases h with h | h
    · exact congrArg Host.Outcome.next (s.writeRegister_unaligned w h)
    · exact congrArg Host.Outcome.next (s.writeRegister_beyond w h)
  · exact congrArg Host.Outcome.next (State.writeRegister_bootfail w hb h)
  · rintro rfl
    exact congrArg Host.Outcome.next (s.writeRegister_boot w (by decide) (by decide))
  · rintro rfl
    exact congrArg Host.Outcome.next (s.writeRegister_boot w (by decide) (by decide))
  · exact fun hl hr ha => registerWrite_window s w ha hl hr
  · refine ⟨?_, ?_, ?_, ?_, ?_, ?_, ?_, ?_⟩
    · rintro rfl
      exact congrArg Host.Outcome.next (State.writeRegister_featoff w hb)
    · rintro rfl
      exact congrArg Host.Outcome.next (State.writeRegister_status w hb (by decide) (by decide) (by decide))
    · rintro i hi rfl
      exact registerWrite_arg s w hb hi
    · rintro n hn rfl
      exact registerWrite_link s w hb hn
    · rintro d hd rfl
      exact registerWrite_soft s w hb hd
    · rintro q hq rfl hd
      exact registerWrite_base s w hb hq hd
    · rintro q - hoff rfl hd
      exact congrArg Host.Outcome.next (registerWrite_lostQueue s w hb hoff hd)
    · rintro rfl hr
      exact congrArg Host.Outcome.next ((State.writeRegister_control w hb (by decide) (by decide) (by decide)).trans (s.writeControl_command w hr))

end Sys2Proof.Machine
end

section
/-! A pick that brings a group's tiles into the registers, and obligation O21 (09 R163, 11 R198-R200). -/

namespace Sys2Proof.Machine

/-- A launch of one group, RESIDENT on cores 0 and 32 of die 0. -/
def residentPair : Launch :=
  { ctx := 1, queue := 0, kernel := 7, entry := 0, prio := 0, w := 2, h := 1, lgw := 1, lgh := 0, argVa := 0, argLen := 0, quantum := 200,
    start := 0, done := none, cast := some 0x20000, rot := 0, slots := 1, taken := [], since := 0, released := true, live := true,
    groups := [(0, { Group.fresh with state := .resident, bound := true, granted := true })] }

/-- A firing that a safe point has suspended, with these tile registers; none where its core had not read the cast that holds them. -/
def suspendedWith (t : Option (Table Tile)) : Firing :=
  { Firing.new (.actor ⟨7, 0⟩) 0 (some 0) false [] [] [] with
    started := true
    resume := some { x := [], y := [], v := [], t, epcl := 0, epch := 0, estat := 0, pc := 0x10008, pcc := codeCap 0x10000 2,
                     stream := .port 0, mask := 0, kept := none, ticket := none } }

/-- Core 0 was restored from the cast at 0x20000, whose tiles it has not read. The first of its two SUSPENDED firings has tiles of its own, from
before the cast; the second has run since, without a tile instruction. -/
def suspendedOverLazyTiles : State :=
  { State.reset with
    ctxs := [(1, { Ctx.fresh with state := .live })]
    launches := [(0, residentPair)]
    cores := [(0, { Core.fresh with
      ctx := some 1, launch := some 0, lazy := some 0x20000, ready := [suspendedWith (some []), suspendedWith none] })] }

/-- The first firing goes on, and the second is passed over with the group's tiles in its saved registers. -/
theorem schedulerPick_suspendedOverLazyTiles : ∃ t, exec (.schedulerPick 0) suspendedOverLazyTiles = .next t ∧
    (t.core 0).ready ++ (t.core 0).matched = [{ suspendedWith (some []) with passes := 1 }] :=
  ⟨_, rfl, by decide⟩

/-- Refutes O21: a firing that is passed over need not stand as it stood, but for its count. Where the firing that is picked keeps tiles of its
own, those of the group come into the registers first (11 R200, log entry 10), and a suspended firing that had none yet keeps them. -/
theorem not_schedulerPicks : ¬ Obligations.SchedulerPicks := by
  unfold Obligations.SchedulerPicks
  intro h
  obtain ⟨-, -, free⟩ := h 0 1 suspendedOverLazyTiles rfl
  obtain ⟨-, picks⟩ := free rfl rfl rfl
  obtain ⟨-, resumes, -⟩ := picks [] [suspendedWith none] (suspendedWith (some [])) (by decide) (by decide) (by decide) (by simp) (by decide)
  obtain ⟨t, ht, queue, -⟩ := resumes _ rfl rfl (by simp)
  obtain ⟨u, hu, hqueue⟩ := schedulerPick_suspendedOverLazyTiles
  obtain rfl : t = u := by simpa [hu] using ht.symm
  exact absurd (queue.symm.trans hqueue) (by decide)

end Sys2Proof.Machine
end

section
/-! A message without a handler that halts its context while a STOPW is in progress, and obligation O57 (05 R101-R102, 09 R160). -/

namespace Sys2Proof.Machine

/-- A message for a handler index that names no actor. -/
def unhandledMsg : Msg :=
  { kind := .handler, hidx := 0, regs := List.replicate 8 XReg.zero, sender := 32, ctx := 1, launch := 0, born := 0, href := none }

/-- That message on its way from core 32 to core 0. -/
def unhandledFlight : Flight := { src := 32, ctx := 1, dst := ⟨0, 0, 0⟩, body := .msg unhandledMsg }

/-- Context 1 is LIVE, its dead-letter ring is full, and core 32 waits in a STOPW, for which core 0 has stopped. -/
def messageOverFullRing : State :=
  { State.reset with
    ctxs := [(1, { Ctx.fresh with state := .live, stopper := some 32, dl := { RingSt.none with base := 0x10000, log := 6, wcount := 64 } })]
    launches := [(0, residentPair)]
    cores := [(0, { Core.fresh with ctx := some 1, launch := some 0, preempt := some ⟨.stopw, 0, true, false⟩ }),
      (32, { Core.fresh with ctx := some 1, launch := some 0, run := .waiting .world false })]
    flights := [unhandledFlight] }

theorem messageOverFullRing_arrives : Sys2Proof.Claims.arrives messageOverFullRing 0 unhandledFlight 0 :=
  ⟨rfl, by decide, by decide, .inl rfl⟩

/-- The message's dead letter finds the ring full: the context halts (05 R101), the stop of the world ends with it, and the STOPW of core 32 is
to be executed again. -/
theorem messageArrival_messageOverFullRing : ∃ t, exec (.messageArrival 0) messageOverFullRing = .next t ∧ (t.ctx 1).state = .halted ∧
    (t.core 32).run = .running :=
  ⟨_, rfl, by decide, by decide⟩

/-- Refutes O57: a message without an actor need not leave the cores as they were. Where its dead letter finds the ring full, the context halts,
and a core that waits to stop the world waits no more. -/
theorem not_bodiesReachTheirCores : ¬ Obligations.BodiesReachTheirCores := by
  unfold Obligations.BodiesReachTheirCores
  rintro ⟨⟨messages, -⟩, -⟩
  obtain ⟨unbound, -⟩ := messages 0 0 messageOverFullRing unhandledFlight unhandledMsg _ rfl (by decide) rfl
  obtain ⟨t, ht, -, -, hcores⟩ := unbound (by decide) messageOverFullRing_arrives (by decide)
  obtain ⟨u, hu, -, hrun⟩ := messageArrival_messageOverFullRing
  obtain rfl : u = t := Host.Outcome.next.inj (hu.symm.trans ht)
  have hcore : u.core 32 = messageOverFullRing.core 32 := by rw [State.core, hcores, State.core]
  exact absurd (hcore ▸ hrun) (by decide)

end Sys2Proof.Machine
end

section
/-! A STOPW at a safe point whose phase has read a control word, and obligation O58 (03 R66, 05 R101-R102). -/

namespace Sys2Proof.Machine

/-- Core 0 waits in a STOPW with SP, everything of context 1 stands still, and its dead-letter ring is full. The core has read a control word for
which QCTLH names no actor. A STOPW publishes before it waits, which leaves no such word; O58 speaks of every state and does not ask for that. -/
def stopOverControlWord : State :=
  { State.reset with
    ctxs := [(1, { Ctx.fresh with state := .live, stopper := some 0, dl := { RingSt.none with base := 0x10000, log := 6, wcount := 64 } })]
    cores := [(0, { Core.fresh with ctx := some 1, launch := some 0, run := .waiting .world true, light := [0] })] }

/-- The boundary of the safe point takes the control word to the empty-handler path, whose dead letter halts the context (05 R101). -/
theorem worldStopped_stopOverControlWord : ∃ t, exec (.worldStopped 1) stopOverControlWord = .next t ∧ (t.ctx 1).state = .halted :=
  ⟨_, rfl, by decide⟩

/-- Refutes O58: a STOPW with SP whose world stands still need not leave its context STOPPED. The boundary of its safe point serves the control
words that its phase has read, and a dead letter of that halts the context where the ring is full. -/
theorem not_heldAndWaitingWork : ¬ Obligations.HeldAndWaitingWork := by
  unfold Obligations.HeldAndWaitingWork
  rintro ⟨-, -, -, stops⟩
  obtain ⟨-, -, atSafePoint⟩ := stops 1 0 stopOverControlWord true rfl rfl rfl
  have still : (∀ p ∈ stopOverControlWord.cores, p.2.ctx ≠ some 1 ∨ p.2.run = .idle ∨ ∃ q, p.2.run = .waiting .world q) ∧
      (∀ p ∈ stopOverControlWord.clusters, ∀ r, p.2.me = some r → r.job.ctx ≠ 1) ∧
      (∀ p ∈ stopOverControlWord.engines, ∀ r, p.2.run = some r → r.cmd.ctx ≠ 1) ∧ stopOverControlWord.travels 1 = false := by
    refine ⟨?_, ?_, ?_, by decide⟩ <;> simp [stopOverControlWord, State.reset]
  obtain ⟨t, ht, hstopped, -⟩ := atSafePoint still rfl rfl rfl rfl
  obtain ⟨u, hu, hhalted⟩ := worldStopped_stopOverControlWord
  obtain rfl : t = u := by simpa [hu] using ht.symm
  exact absurd (hstopped.symm.trans hhalted) (by decide)

end Sys2Proof.Machine
end

section
/-! SUPPORT. Where a flit holds what (14 R233): its header, its slots, its CRC, read back from its bits. -/

namespace Sys2Proof.Machine

/-! ### Numbers of any width

Stated for every width, so that no power of two as large as a flit is ever computed. -/

section Widths

variable {v w : Nat}

theorem two_pow_eq_mul {a b c : Nat} (h : a = b + c) : 2 ^ a = 2 ^ b * 2 ^ c := h ▸ Nat.pow_add 2 b c

theorem mod_two_pow_mod (n : Nat) {a b : Nat} (h : b ≤ a) : n % 2 ^ a % 2 ^ b = n % 2 ^ b := Nat.mod_mod_of_dvd n (Nat.pow_dvd_pow 2 h)

theorem toNat_lt_two_pow (x : BitVec w) : x.toNat < 2 ^ w := x.isLt

theorem toNat_ofNat_of_lt_two_pow {n : Nat} (h : n < 2 ^ w) : (BitVec.ofNat w n).toNat = n := by
  rw [BitVec.toNat_ofNat, Nat.mod_eq_of_lt h]

/-- v bits from bit i on. -/
theorem toNat_field (x : BitVec w) (i : Nat) : ((x >>> i).setWidth v : BitVec v).toNat = x.toNat / 2 ^ i % 2 ^ v := by
  rw [BitVec.toNat_setWidth, BitVec.toNat_ushiftRight, Nat.shiftRight_eq_div_pow]

end Widths

/-! ### The CRC's place -/

/-- Bytes 0-247 depend on the bits below 2^1984 alone. -/
theorem bytesOf_mod (f : Nat) : bytesOf 248 (f % 2 ^ 1984) = bytesOf 248 f := by
  refine List.map_congr_left fun i hi => BitVec.eq_of_toNat_eq ?_
  have hle : 8 * i + 8 ≤ 1984 := by have := List.mem_range.1 hi; omega
  have hsplit : (2 : Nat) ^ 1984 = 2 ^ (8 * i) * 2 ^ (1984 - 8 * i) := two_pow_eq_mul (by omega)
  simp only [BitVec.toNat_ofNat]
  rw [hsplit, Nat.mod_mul_right_div_self, mod_two_pow_mod _ (by omega)]

/-- The bits of a flit: its first 248 bytes, then their CRC. -/
theorem flit_toNat {b : Nat} (hb : b < 2 ^ 1984) (c : BitVec 32) : (BitVec.ofNat 2048 (b + c.toNat * 2 ^ 1984)).toNat = b + c.toNat * 2 ^ 1984 := by
  have hpow : (2 : Nat) ^ 2048 = 2 ^ 64 * 2 ^ 1984 := two_pow_eq_mul rfl
  have hc := c.isLt
  refine toNat_ofNat_of_lt_two_pow ?_
  rw [hpow]
  generalize (2 : Nat) ^ 1984 = n at hb
  calc b + c.toNat * n < n + c.toNat * n := by omega
    _ = (1 + c.toNat) * n := by ring
    _ ≤ 2 ^ 64 * n := Nat.mul_le_mul_right n (by omega)

/-- A flit whose bytes 248-251 hold the CRC of its first 248 is good, and no other is (R233). -/
theorem flitGood_iff (f : BitVec 2048) : flitGood f = true ↔
    f.toNat / 2 ^ 1984 % 2 ^ 32 = (crc32c ((List.range 248).map (fun i => BitVec.ofNat 8 (f.toNat / 2 ^ (8 * i))))).toNat := by
  rw [flitGood, decide_eq_true_iff, bytesOf_mod, ← BitVec.toNat_inj, toNat_field, bytesOf]

@[simp] theorem flitSeq_toNat (f : BitVec 2048) : (flitSeq f).toNat = f.toNat / 2 ^ 16 % 2 ^ 12 := toNat_field f 16

@[simp] theorem flitAck_toNat (f : BitVec 2048) : (flitAck f).toNat = f.toNat / 2 ^ 32 % 2 ^ 12 := toNat_field f 32

/-! ### Values in a row -/

/-- Values of one width as a number, the first lowest. -/
def packed {w : Nat} : List (BitVec w) → Nat
  | [] => 0
  | x :: t => x.toNat + 2 ^ w * packed t

section Packed

variable {w : Nat}

theorem packed_lt (l : List (BitVec w)) : packed l < 2 ^ (w * l.length) := by
  induction l with
  | nil => simp [packed]
  | cons x t ih =>
    have hpow : 2 ^ (w * (t.length + 1)) = 2 ^ w * 2 ^ (w * t.length) := two_pow_eq_mul (Nat.mul_succ _ _ |>.trans (Nat.add_comm _ _))
    have hx := toNat_lt_two_pow x
    rw [packed, List.length_cons, hpow]
    calc x.toNat + 2 ^ w * packed t < 2 ^ w + 2 ^ w * packed t := Nat.add_lt_add_right hx _
      _ = 2 ^ w * (packed t + 1) := by rw [Nat.mul_add, Nat.mul_one, Nat.add_comm]
      _ ≤ 2 ^ w * 2 ^ (w * t.length) := Nat.mul_le_mul_left _ ih

/-- The value at place i. -/
theorem packed_place {l : List (BitVec w)} {i : Nat} (hi : i < l.length) : packed l / 2 ^ (w * i) % 2 ^ w = (l[i]).toNat := by
  induction l generalizing i with
  | nil => simp at hi
  | cons x t ih =>
    have hx := toNat_lt_two_pow x
    cases i with
    | zero => simp only [packed, Nat.mul_zero, Nat.pow_zero, Nat.div_one, Nat.add_mul_mod_self_left, Nat.mod_eq_of_lt hx, List.getElem_cons_zero]
    | succ i =>
      have hpow : 2 ^ (w * (i + 1)) = 2 ^ w * 2 ^ (w * i) := two_pow_eq_mul (Nat.mul_succ _ _ |>.trans (Nat.add_comm _ _))
      rw [packed, hpow, ← Nat.div_div_eq_div_mul, Nat.add_mul_div_left _ _ (pow_pos two_pos w), Nat.div_eq_of_lt hx, Nat.zero_add,
        ih (by simpa using hi), List.getElem_cons_succ]

/-- The same in a longer number, of which the values are the lowest part. -/
theorem packed_place_of_mod {l : List (BitVec w)} {i n b : Nat} (hi : i < l.length) (hb : w * i + w ≤ b) (hn : n % 2 ^ b = packed l) :
    n / 2 ^ (w * i) % 2 ^ w = (l[i]).toNat := by
  have hsplit : 2 ^ b = 2 ^ (w * i) * 2 ^ (b - w * i) := two_pow_eq_mul (by omega)
  rw [← packed_place hi, ← hn, hsplit, Nat.mod_mul_right_div_self, mod_two_pow_mod _ (by omega)]

end Packed

theorem flitBody_go_eq (slots : List (BitVec 640)) : flitBody.go slots = packed slots := by
  induction slots with
  | nil => rfl
  | cons x t ih => rw [flitBody.go, packed, ih]

/-! ### Header and slots -/

/-- The header of a flit as a number (R233). -/
def flitHeader (carry : Bool) (seq ack n : Nat) : Nat := carry.toNat + n % 4 * 2 + seq % 4096 * 2 ^ 16 + ack % 4096 * 2 ^ 32

theorem flitHeader_lt (carry : Bool) (seq ack n : Nat) : flitHeader carry seq ack n < 2 ^ 64 := by
  have := carry.toNat_le
  unfold flitHeader; omega

theorem flitBody_eq (carry : Bool) (seq ack : Nat) (slots : List (BitVec 640)) :
    flitBody carry seq ack slots = flitHeader carry seq ack slots.length + 2 ^ 64 * flitBody.go slots := rfl

/-- A header and three slots fill 248 bytes. -/
theorem header_payload_lt {h g : Nat} (hh : h < 2 ^ 64) (hg : g < 2 ^ 1920) : h + 2 ^ 64 * g < 2 ^ 1984 := by
  have hpow : (2 : Nat) ^ 1984 = 2 ^ 64 * 2 ^ 1920 := two_pow_eq_mul rfl
  rw [hpow]
  generalize (2 : Nat) ^ 1920 = n at hg
  calc h + 2 ^ 64 * g < 2 ^ 64 + 2 ^ 64 * g := by omega
    _ = 2 ^ 64 * (g + 1) := by ring
    _ ≤ 2 ^ 64 * n := Nat.mul_le_mul_left _ hg

/-- A flit of a header, what stands behind it, and the CRC of both. -/
def flitOf (h g : Nat) : BitVec 2048 := BitVec.ofNat 2048 (h + 2 ^ 64 * g + (crc32c (bytesOf 248 (h + 2 ^ 64 * g))).toNat * 2 ^ 1984)

section Parts

variable {h g : Nat} (hh : h < 2 ^ 64) (hg : g < 2 ^ 1920)
include hh hg

theorem flitOf_toNat : (flitOf h g).toNat = h + 2 ^ 64 * g + (crc32c (bytesOf 248 (h + 2 ^ 64 * g))).toNat * 2 ^ 1984 :=
  flit_toNat (header_payload_lt hh hg) _

theorem flitOf_header : (flitOf h g).toNat % 2 ^ 64 = h := by
  have hpow : (2 : Nat) ^ 1984 = 2 ^ 64 * 2 ^ 1920 := two_pow_eq_mul rfl
  rw [flitOf_toNat hh hg, hpow, Nat.mul_left_comm, Nat.add_mul_mod_self_left, Nat.add_mul_mod_self_left, Nat.mod_eq_of_lt hh]

theorem flitOf_payload : (flitOf h g).toNat / 2 ^ 64 % 2 ^ 1920 = g := by
  have hpow : (2 : Nat) ^ 1984 = 2 ^ 64 * 2 ^ 1920 := two_pow_eq_mul rfl
  rw [flitOf_toNat hh hg, hpow, Nat.mul_left_comm, Nat.add_mul_div_left _ _ (pow_pos two_pos 64), Nat.add_mul_div_left _ _ (pow_pos two_pos 64),
    Nat.div_eq_of_lt hh, Nat.zero_add, Nat.add_mul_mod_self_right, Nat.mod_eq_of_lt hg]

theorem flitOf_crc : (flitOf h g).toNat / 2 ^ 1984 =
    (crc32c ((List.range 248).map (fun i => BitVec.ofNat 8 ((flitOf h g).toNat / 2 ^ (8 * i))))).toNat := by
  have hb := header_payload_lt hh hg
  have hmod : (flitOf h g).toNat % 2 ^ 1984 = h + 2 ^ 64 * g := by
    rw [flitOf_toNat hh hg, Nat.add_mul_mod_self_right, Nat.mod_eq_of_lt hb]
  have hdiv : (flitOf h g).toNat / 2 ^ 1984 = (crc32c (bytesOf 248 (h + 2 ^ 64 * g))).toNat := by
    rw [flitOf_toNat hh hg, Nat.add_mul_div_right _ _ (pow_pos two_pos 1984), Nat.div_eq_of_lt hb, Nat.zero_add]
  rw [hdiv, ← hmod, bytesOf_mod]
  rfl

end Parts

section Slots

variable {slots : List (BitVec 640)} (hs : slots.length ≤ 3)
include hs

theorem flitBody_go_lt_payload : flitBody.go slots < 2 ^ 1920 :=
  flitBody_go_eq slots ▸ Nat.lt_of_lt_of_le (packed_lt slots) (pow_le_pow_right₀ (by decide) (by omega))

theorem mkFlit_header (carry : Bool) (seq ack : Nat) : (mkFlit carry seq ack slots).toNat % 2 ^ 64 = flitHeader carry seq ack slots.length :=
  flitOf_header (flitHeader_lt ..) (flitBody_go_lt_payload hs)

theorem mkFlit_slot (carry : Bool) (seq ack : Nat) {i : Nat} (hi : i < slots.length) :
    (mkFlit carry seq ack slots).toNat / 2 ^ (64 + 640 * i) % 2 ^ 640 = (slots[i]).toNat := by
  have hpayload : (mkFlit carry seq ack slots).toNat / 2 ^ 64 % 2 ^ 1920 = packed slots :=
    (flitOf_payload (flitHeader_lt ..) (flitBody_go_lt_payload hs)).trans (flitBody_go_eq slots)
  rw [← packed_place_of_mod hi (by omega) hpayload, Nat.pow_add, Nat.div_div_eq_div_mul]

theorem mkFlit_crc (carry : Bool) (seq ack : Nat) : (mkFlit carry seq ack slots).toNat / 2 ^ 1984 =
    (crc32c ((List.range 248).map (fun i => BitVec.ofNat 8 ((mkFlit carry seq ack slots).toNat / 2 ^ (8 * i))))).toNat :=
  flitOf_crc (flitHeader_lt ..) (flitBody_go_lt_payload hs)

/-- The slots of a flit are those that it was made of. -/
theorem flitSlots_mkFlit (carry : Bool) (seq ack : Nat) : flitSlots (mkFlit carry seq ack slots) = slots := by
  have hcount : (((mkFlit carry seq ack slots) >>> 1).setWidth 2 : BitVec 2).toNat = slots.length := by
    have hheader := mkFlit_header hs carry seq ack
    have hc := carry.toNat_le
    rw [toNat_field]
    unfold flitHeader at hheader
    omega
  rw [flitSlots, hcount]
  refine List.ext_getElem (by simp) fun i hi hi' => ?_
  refine BitVec.eq_of_toNat_eq ?_
  have hslot := mkFlit_slot hs carry seq ack hi'
  rw [← hslot, List.getElem_map, List.getElem_range, toNat_field]

end Slots

end Sys2Proof.Machine
end

section
/-! The time base and its source, and obligation O28 (14 R239-R241). -/

namespace Sys2Proof.Machine

@[simp] theorem Link.carries_eq_true (l : Link) : l.carries = true ↔ l.state = .up ∨ l.state = .degraded := by simp [Link.carries]

/-! ### The best source (R239, R241) -/

/-- The better of two sources; the first that was heard where neither is better. -/
def keepNearer (b : Option (Nat × Nat × Nat)) (x : Nat × Nat × Nat) : Option (Nat × Nat × Nat) := match b with
  | none => some x
  | some y => if nearerRoot x y then some x else some y

theorem State.bestSource_eq (s : State) : s.bestSource = ((List.range 18).filterMap s.rootHeard).foldl keepNearer none := rfl

theorem keepNearer_mem {b : Option (Nat × Nat × Nat)} {x z : Nat × Nat × Nat} (h : keepNearer b x = some z) : z = x ∨ b = some z := by
  cases b with
  | none => simpa [keepNearer, eq_comm] using h
  | some y =>
    simp only [keepNearer] at h
    split at h
    · exact .inl (by simpa [eq_comm] using h)
    · exact .inr h

/-- What is kept is one of those heard. -/
theorem foldl_keepNearer_mem {l : List (Nat × Nat × Nat)} {b : Option (Nat × Nat × Nat)} {z : Nat × Nat × Nat}
    (h : l.foldl keepNearer b = some z) : z ∈ l ∨ b = some z := by
  induction l generalizing b with
  | nil => exact .inr h
  | cons x l ih =>
    rcases ih h with hz | hz
    · exact .inl (by simp [hz])
    · rcases keepNearer_mem hz with rfl | hb
      · exact .inl (by simp)
      · exact .inr hb

/-- One that is better than all before it, and that none after it is better than, is kept. -/
theorem foldl_keepNearer_best {before after : List (Nat × Nat × Nat)} {x : Nat × Nat × Nat} (hb : ∀ y ∈ before, nearerRoot x y = true)
    (ha : ∀ y ∈ after, nearerRoot y x = false) : (before ++ x :: after).foldl keepNearer none = some x := by
  have taken : keepNearer (before.foldl keepNearer none) x = some x := by
    cases h : before.foldl keepNearer none with
    | none => rfl
    | some y =>
      have hy : y ∈ before := (foldl_keepNearer_mem h).resolve_right (by simp)
      simp [keepNearer, hb y hy]
  rw [List.foldl_append, List.foldl_cons, taken]
  clear hb taken
  induction after with
  | nil => rfl
  | cons y after ih =>
    have kept : keepNearer (some x) y = some x := by simp [keepNearer, ha y]
    rw [List.foldl_cons, kept]
    exact ih fun z hz => ha z (by simp [hz])

section Source

variable (s : State)

theorem State.rootHeard_eq_some {n : Nat} {x : Nat × Nat × Nat} : s.rootHeard n = some x ↔
    ∃ r, (s.link n).carries = true ∧ (s.link n).root = some r ∧ r ≠ s.pkg ∧ (s.link n).rootHops + 1 < 2 ^ 18 ∧
      x = (r.toNat, (s.link n).rootHops + 1, n) := by
  simp only [State.rootHeard]
  cases hc : (s.link n).carries with
  | false => simp
  | true =>
    cases hr : (s.link n).root with
    | none => simp
    | some r =>
      simp only [if_true]
      split
      · next h =>
        refine iff_of_false (by simp) ?_
        rintro ⟨q, -, hq, hne, hlt, -⟩
        exact h.elim (Option.some.inj hq ▸ hne) (Nat.not_le.2 hlt)
      · next h =>
        obtain ⟨hne, hlt⟩ := not_or.1 h
        constructor
        · rintro ⟨⟩; exact ⟨r, trivial, rfl, hne, Nat.not_le.1 hlt, rfl⟩
        · rintro ⟨q, -, ⟨⟩, -, -, rfl⟩; rfl

theorem State.bestSource_mem {x : Nat × Nat × Nat} (h : s.bestSource = some x) : ∃ n < 18, s.rootHeard n = some x := by
  have hx := (foldl_keepNearer_mem (s.bestSource_eq ▸ h)).resolve_right (by simp)
  obtain ⟨n, hn, hx⟩ := List.mem_filterMap.1 hx
  exact ⟨n, List.mem_range.1 hn, hx⟩

/-- The source that a link hears of is the best where it is better than what the links before it hear of, and nothing that a link after it
hears of is better. -/
theorem State.bestSource_eq_some {n : Nat} {x : Nat × Nat × Nat} (hn : n < 18) (hx : s.rootHeard n = some x)
    (hb : ∀ m y, m < n → s.rootHeard m = some y → nearerRoot x y = true)
    (ha : ∀ m y, n < m → m < 18 → s.rootHeard m = some y → nearerRoot y x = false) : s.bestSource = some x := by
  obtain ⟨before, after, hl⟩ := List.append_of_mem (List.mem_range.2 hn)
  have hsorted := hl ▸ List.pairwise_lt_range (n := 18)
  have hrange : ∀ m ∈ after, m < 18 := fun m hm => List.mem_range.1 (hl ▸ by simp [hm])
  obtain ⟨-, hafter, hbefore⟩ := List.pairwise_append.1 hsorted
  rw [State.bestSource_eq, hl, List.filterMap_append, List.filterMap_cons_some hx]
  refine foldl_keepNearer_best (fun y hy => ?_) fun y hy => ?_
  · obtain ⟨m, hm, hy⟩ := List.mem_filterMap.1 hy
    exact hb m y (hbefore m hm n (by simp)) hy
  · obtain ⟨m, hm, hy⟩ := List.mem_filterMap.1 hy
    exact ha m y ((List.pairwise_cons.1 hafter).1 m hm) (hrange m hm) hy

/-! ### A package looks for its source again (R240) -/

/-- Looking for a source changes nothing but what is known of it. -/
theorem State.resource_frame :
    s.resource = { s with tbSync := s.resource.tbSync, tbRootOf := s.resource.tbRootOf, tbHops := s.resource.tbHops, tbSrc := s.resource.tbSrc } := by
  rw [State.resource]
  split
  · rfl
  · split <;> rfl

theorem State.resource_of_root (h : s.tbRoot = true) : s.resource = s := by simp [State.resource, h]

theorem State.resource_of_none (h : s.tbRoot = false) (hb : s.bestSource = none) : s.resource = { s with tbSync := false, tbRootOf := none } := by
  simp [State.resource, h, hb]

theorem State.resource_of_some {r h n : Nat} (hr : s.tbRoot = false) (hb : s.bestSource = some (r, h, n)) : s.resource = { s with
    tbRootOf := some (BitVec.ofNat 18 r), tbHops := BitVec.ofNat 24 h, tbSrc := BitVec.ofNat 5 n,
    tbSync := s.tbSync && decide (s.tbRootOf = some (BitVec.ofNat 18 r)) } := by
  simp [State.resource, hr, hb]

end Source

/-! ### The time flit -/

/-- This package's count is what a time flit carries behind its header. -/
theorem timeFlit_eq_flitOf (seq ack : Nat) (count : Word) : timeFlit seq ack count = flitOf (flitHeader true seq ack 0) count.toNat := by
  have hbody : flitBody true seq ack [] + count.toNat * 2 ^ 64 = flitHeader true seq ack 0 + 2 ^ 64 * count.toNat := by
    rw [flitBody_eq, flitBody.go, Nat.mul_zero, Nat.add_zero, Nat.mul_comm]
    rfl
  simp only [timeFlit, hbody, flitOf]

theorem timeFlit_fields (seq ack : Nat) (count : Word) (hs : seq < 4096) : let f := (timeFlit seq ack count).toNat
    f % 8 = 1 ∧ f / 2 ^ 16 % 2 ^ 12 = seq ∧ f / 2 ^ 64 % 2 ^ 64 = count.toNat := by
  have hcount : count.toNat < 2 ^ 1920 := Nat.lt_of_lt_of_le (toNat_lt_two_pow count) (pow_le_pow_right₀ (by decide) (by decide))
  have hheader := flitOf_header (flitHeader_lt true seq ack 0) hcount
  have hpayload := flitOf_payload (flitHeader_lt true seq ack 0) hcount
  rw [← timeFlit_eq_flitOf] at hheader hpayload
  generalize (timeFlit seq ack count).toNat = f at hheader hpayload
  refine ⟨?_, ?_, ?_⟩
  · simp only [flitHeader, Bool.toNat_true] at hheader; omega
  · simp only [flitHeader, Bool.toNat_true] at hheader; omega
  · have hmod := congrArg (· % 2 ^ 64) hpayload
    exact ((mod_two_pow_mod _ (by decide)).symm.trans hmod).trans (Nat.mod_eq_of_lt (toNat_lt_two_pow count))

/-! ### An exchange (R239, R241) -/

/-- What the links know of the root once the peer of link n has told: the root that a link's peer follows, and its distance. -/
def State.tells (s : State) (n : Nat) (root : Option (BitVec 18)) (hops m : Nat) (r : BitVec 18) (h : Nat) : Prop :=
  if m = n then root = some r ∧ h = hops else (s.link m).carries = true ∧ (s.link m).root = some r ∧ h = (s.link m).rootHops

/-- The count has gone out on link n, and its peer has told of its root. -/
def State.exchanged (s : State) (n : Nat) (root : Option (BitVec 18)) (hops : Nat) : State :=
  (s.sendTime n).setLink n { (s.sendTime n).link n with root, rootHops := hops }

/-- A package that was the root is it no more, and follows none yet. -/
def State.noRoot (s : State) : State := if s.tbRoot then { s with tbRoot := false, tbSync := false, tbRootOf := none } else s

/-- A package that is not the root measures its offset where link n leads to its source. -/
def State.measure (s : State) (n : Nat) (off : Int) : State :=
  if s.tbRootOf.isSome ∧ s.tbSrc.toNat = n then { s with tbOffs := BitVec.ofInt 32 off, tbLeft := off, tbSync := decide (-8 ≤ off) && decide (off ≤ 8) } else s

/-- Whether the best source leads to a root that is lower than this package. -/
def State.hearsLower (s : State) : Bool := match s.bestSource with
  | some (r, _, _) => decide (r < s.pkg.toNat)
  | none => false

section Exchange

variable (s : State) (n : Nat) (root : Option (BitVec 18)) (hops : Nat)

theorem State.exchanged_link : (s.exchanged n root hops).link n = { s.link n with
    sent := (s.link n).sent ++ [timeFlit ((s.link n).seqTx + 1).toNat (s.link n).seqRx.toNat s.time], seqTx := (s.link n).seqTx + 1,
    root, rootHops := hops } := by
  simp [State.exchanged, State.sendTime]

theorem State.exchanged_link_other {m : Nat} (h : m ≠ n) : (s.exchanged n root hops).link m = s.link m := by
  simp [State.exchanged, State.sendTime, h]

theorem State.exchanged_carries (m : Nat) : ((s.exchanged n root hops).link m).carries = (s.link m).carries := by
  by_cases h : m = n
  · subst h; rw [State.exchanged_link]; rfl
  · rw [State.exchanged_link_other s n root hops h]

/-- After an exchange a link's peer names another package as the root exactly where it has told so. -/
theorem State.exchanged_rootHeard (hc : (s.link n).carries = true) {m : Nat} {x : Nat × Nat × Nat} :
    (s.exchanged n root hops).rootHeard m = some x ↔
      ∃ r h, s.tells n root hops m r h ∧ r ≠ s.pkg ∧ h + 1 < 2 ^ 18 ∧ x = (r.toNat, h + 1, m) := by
  rw [State.rootHeard_eq_some, State.exchanged_carries]
  have hpkg : (s.exchanged n root hops).pkg = s.pkg := rfl
  by_cases hm : m = n
  · subst hm
    simp only [State.exchanged_link, State.tells, hpkg, hc, if_true, true_and]
    constructor
    · rintro ⟨r, hr, hne, hh, rfl⟩; exact ⟨r, hops, ⟨hr, rfl⟩, hne, hh, rfl⟩
    · rintro ⟨r, h, ⟨hr, rfl⟩, hne, hh, rfl⟩; exact ⟨r, hr, hne, hh, rfl⟩
  · simp only [State.exchanged_link_other s n root hops hm, State.tells, hpkg, if_neg hm]
    constructor
    · rintro ⟨r, hc, hr, hne, hh, rfl⟩; exact ⟨r, _, ⟨hc, hr, rfl⟩, hne, hh, rfl⟩
    · rintro ⟨r, h, ⟨hc, hr, rfl⟩, hne, hh, rfl⟩; exact ⟨r, hc, hr, hne, hh, rfl⟩

variable (count : Word) (rtt : Nat)

theorem timeFlitExchange_idle (hc : (s.link n).carries = false) : exec (.timeFlitExchange n count rtt root hops) s = .next s := by
  simp [exec, execTimeFlitExchange, hc]

theorem timeFlitExchange_carries (hc : (s.link n).carries = true) : exec (.timeFlitExchange n count rtt root hops) s =
    if s.rootsel && !(s.exchanged n root hops).hearsLower then .next { s.exchanged n root hops with
      tbRoot := true, tbSync := true, tbHops := 0, tbOffs := 0, tbLeft := 0, tbRootOf := some s.pkg }
    else .next ((s.exchanged n root hops).noRoot.resource.measure n ((count.toNat : Int) + rtt / 2 - s.time.toNat)) := by
  have hexec : exec (.timeFlitExchange n count rtt root hops) s = execTimeFlitExchange n count rtt root hops s := rfl
  simp only [hexec, execTimeFlitExchange, hc, Bool.not_true, Bool.false_eq_true, if_false, State.measure, apply_ite Host.Outcome.next]
  rfl

end Exchange

section Follow

variable (s : State)

theorem State.noRoot_frame : s.noRoot = { s with tbRoot := false, tbSync := s.noRoot.tbSync, tbRootOf := s.noRoot.tbRootOf } := by
  rw [State.noRoot]
  split
  · rfl
  · next h => rw [← (Bool.not_eq_true _).mp h]

theorem State.noRoot_tbRoot : s.noRoot.tbRoot = false := congrArg State.tbRoot s.noRoot_frame

theorem State.noRoot_bestSource : s.noRoot.bestSource = s.bestSource := by
  rw [State.noRoot]
  split <;> rfl

theorem State.measure_frame (n : Nat) (off : Int) : s.measure n off =
    { s with tbOffs := (s.measure n off).tbOffs, tbLeft := (s.measure n off).tbLeft, tbSync := (s.measure n off).tbSync } := by
  rw [State.measure]
  split <;> rfl

/-- A package that follows the root of its best source, over this link. -/
theorem State.follow_of_some {r h n : Nat} (hb : s.bestSource = some (r, h, n)) (hn : n < 32) (off : Int) :
    s.noRoot.resource.measure n off = { s.noRoot.resource with
      tbOffs := BitVec.ofInt 32 off, tbLeft := off, tbSync := decide (-8 ≤ off) && decide (off ≤ 8) } := by
  refine if_pos ?_
  rw [State.resource_of_some _ s.noRoot_tbRoot (s.noRoot_bestSource.trans hb)]
  exact ⟨rfl, by simp [Nat.mod_eq_of_lt hn]⟩

end Follow

section Outcomes

variable {s : State} {n : Nat} {root : Option (BitVec 18)} {hops : Nat} (count : Word) (rtt : Nat)

/-- An exchange leaves what the exchange on its link leaves, but for what is known of the source. -/
theorem timeFlitExchange_frame (hc : (s.link n).carries = true) : ∃ t, exec (.timeFlitExchange n count rtt root hops) s = .next t ∧
    t = { s.exchanged n root hops with
      tbSync := t.tbSync, tbRoot := t.tbRoot, tbRootOf := t.tbRootOf, tbSrc := t.tbSrc, tbHops := t.tbHops, tbOffs := t.tbOffs, tbLeft := t.tbLeft } := by
  rw [timeFlitExchange_carries s n root hops count rtt hc]
  split
  · exact ⟨_, rfl, rfl⟩
  · refine ⟨_, rfl, ?_⟩
    rw [State.measure_frame, State.resource_frame, State.noRoot_frame]

theorem timeFlitExchange_root (hc : (s.link n).carries = true) (hsel : s.rootsel = true)
    (hlow : ∀ m r h, m < 18 → s.tells n root hops m r h → s.pkg.toNat ≤ r.toNat) :
    exec (.timeFlitExchange n count rtt root hops) s = .next { s.exchanged n root hops with
      tbRoot := true, tbSync := true, tbHops := 0, tbOffs := 0, tbLeft := 0, tbRootOf := some s.pkg } := by
  have hlower : (s.exchanged n root hops).hearsLower = false := by
    rw [State.hearsLower]
    cases hb : (s.exchanged n root hops).bestSource with
    | none => rfl
    | some x =>
      obtain ⟨m, hm, hx⟩ := State.bestSource_mem _ hb
      obtain ⟨r, h, htells, -, -, rfl⟩ := (State.exchanged_rootHeard s n root hops hc).1 hx
      exact decide_eq_false (Nat.not_lt.2 (hlow m r h hm htells))
  rw [timeFlitExchange_carries s n root hops count rtt hc, hsel, hlower]
  rfl

theorem timeFlitExchange_follow (hc : (s.link n).carries = true) (hlow : s.rootsel = true → (s.exchanged n root hops).hearsLower = true) :
    exec (.timeFlitExchange n count rtt root hops) s =
      .next ((s.exchanged n root hops).noRoot.resource.measure n ((count.toNat : Int) + rtt / 2 - s.time.toNat)) := by
  rw [timeFlitExchange_carries s n root hops count rtt hc]
  refine if_neg ?_
  cases hsel : s.rootsel with
  | false => simp
  | true => simp [hlow hsel]

/-- Link n leads to the best source where its peer tells of the lowest root, over the shortest way, and no link before it does as well. -/
theorem exchanged_bestSource (hc : (s.link n).carries = true) (hn : n < 18) {r : BitVec 18} (hr : root = some r) (hne : r ≠ s.pkg)
    (hh : hops + 1 < 2 ^ 18)
    (hbest : ∀ m q h, m < 18 → m ≠ n → s.tells n root hops m q h → q ≠ s.pkg → h + 1 < 2 ^ 18 →
      r.toNat < q.toNat ∨ r = q ∧ (hops < h ∨ hops = h ∧ n < m)) :
    (s.exchanged n root hops).bestSource = some (r.toNat, hops + 1, n) := by
  have heard := fun m x => State.exchanged_rootHeard s n root hops hc (m := m) (x := x)
  refine State.bestSource_eq_some _ hn ((heard n _).2 ⟨r, hops, by simp [State.tells, hr], hne, hh, rfl⟩) (fun m y hm hy => ?_) fun m y hm hm' hy => ?_
  · obtain ⟨q, h, htells, hq, hlt, rfl⟩ := (heard m y).1 hy
    have := hbest m q h (by omega) (by omega) htells hq hlt
    simp only [nearerRoot, Bool.or_eq_true, Bool.and_eq_true, decide_eq_true_iff, ← BitVec.toNat_inj] at this ⊢
    omega
  · obtain ⟨q, h, htells, hq, hlt, rfl⟩ := (heard m y).1 hy
    have := hbest m q h hm' (by omega) htells hq hlt
    simp only [nearerRoot, Bool.or_eq_false_iff, Bool.and_eq_false_iff, decide_eq_false_iff_not, ← BitVec.toNat_inj] at this ⊢
    omega

/-- A package that hears of a root that is not itself, from a link that is the best way there, follows it. -/
theorem timeFlitExchange_follows (hc : (s.link n).carries = true) (hn : n < 18) {r : BitVec 18} (hh : hops + 1 < 2 ^ 18)
    (hsel : s.rootsel = true → r.toNat < s.pkg.toNat) (hb : (s.exchanged n root hops).bestSource = some (r.toNat, hops + 1, n)) :
    let off : Int := (count.toNat : Int) + rtt / 2 - s.time.toNat
    ∃ t, exec (.timeFlitExchange n count rtt root hops) s = .next t ∧ t.tbRoot = false ∧ t.tbSrc.toNat = n ∧ t.tbHops.toNat = hops + 1 ∧
      t.tbRootOf = some r ∧ t.tbOffs = BitVec.ofInt 32 off ∧ t.tbSync = decide (-8 ≤ off ∧ off ≤ 8) := by
  intro off
  refine ⟨_, timeFlitExchange_follow count rtt hc fun h => ?_, ?_⟩
  · rw [State.hearsLower, hb]; exact decide_eq_true (hsel h)
  rw [State.follow_of_some _ hb (by omega), State.resource_of_some _ (State.noRoot_tbRoot _) ((State.noRoot_bestSource _).trans hb)]
  refine ⟨State.noRoot_tbRoot _, by simp; omega, by simp; omega, by simp, rfl, by simp [off, Bool.decide_and]⟩

/-- A package that no ROOTSEL names and that hears of no other runs free (R240). -/
theorem timeFlitExchange_free (hc : (s.link n).carries = true) (hsel : s.rootsel = false)
    (hnone : ∀ m r h, m < 18 → s.tells n root hops m r h → r = s.pkg) :
    ∃ t, exec (.timeFlitExchange n count rtt root hops) s = .next t ∧ t.tbSync = false ∧ t.tbRoot = false ∧ t.tbRootOf = none := by
  have hb : (s.exchanged n root hops).bestSource = none := by
    cases hb : (s.exchanged n root hops).bestSource with
    | none => rfl
    | some x =>
      obtain ⟨m, hm, hx⟩ := State.bestSource_mem _ hb
      obtain ⟨r, h, htells, hne, -, -⟩ := (State.exchanged_rootHeard s n root hops hc).1 hx
      exact absurd (hnone m r h hm htells) hne
  refine ⟨_, timeFlitExchange_follow count rtt hc (by simp [hsel]), ?_⟩
  rw [State.resource_of_none _ (State.noRoot_tbRoot _) ((State.noRoot_bestSource _).trans hb)]
  exact ⟨rfl, State.noRoot_tbRoot _, rfl⟩

end Outcomes

/-- Settles O28: an exchange goes through the best source that the links tell of; the count itself stands in no part of it. -/
theorem timeBase : Obligations.TimeBase := by
  unfold Obligations.TimeBase
  refine ⟨?_, fun _ _ => rfl⟩
  intro n count rtt root hops s o l carries off hears
  have hcarries : carries ↔ (s.link n).carries = true := (Link.carries_eq_true _).symm
  refine ⟨fun h => ?_, fun h => ?_, fun h hsel hlow => ?_, fun r h hn hr hne hh hsel hbest => ?_, fun h hsel hnone => ?_⟩
  · exact timeFlitExchange_idle s n root hops count rtt ((Bool.not_eq_true _).mp (mt hcarries.2 h))
  · obtain ⟨t, ht, hframe⟩ := timeFlitExchange_frame (root := root) (hops := hops) count rtt (hcarries.1 h)
    have hlink (m : Nat) : t.link m = (s.exchanged n root hops).link m := by rw [hframe]; rfl
    refine ⟨t, ht, by rw [hframe]; rfl, by rw [hframe]; rfl, fun m hm => ?_, _, (hlink n).trans (s.exchanged_link n root hops), ?_⟩
    · rw [hlink, s.exchanged_link_other n root hops hm]
    · exact timeFlit_fields _ _ s.time (l.seqTx + 1).isLt
  · exact ⟨_, timeFlitExchange_root count rtt (hcarries.1 h) hsel hlow, rfl, rfl, rfl, rfl, rfl⟩
  · exact timeFlitExchange_follows count rtt (hcarries.1 h) hn hh hsel (exchanged_bestSource (hcarries.1 h) hn hr hne hh hbest)
  · exact timeFlitExchange_free count rtt (hcarries.1 h) hsel hnone

end Sys2Proof.Machine
end

section
/-! SUPPORT. What records, events, poisoning and faults leave of the package (05 R99-R101, 10 R176, 22 R419-R422): its dies, links and routes stand,
its launches keep their groups, contexts lose nothing that they have heard, and no core takes up work. -/

namespace Sys2Proof.Table

variable {α : Type}

/-- A key that is found is listed. -/
theorem mem_keys_of_find? {t : Table α} {k : Nat} {v : α} (h : find? t k = some v) : k ∈ t.map Prod.fst := by
  induction t with
  | nil => cases h
  | cons q t ih =>
    simp only [find?] at h
    split at h
    · next hk => simp [hk]
    · simp [ih h]

end Sys2Proof.Table

namespace Sys2Proof.Machine

/-! ### The relations -/

/-- A core that serves no context still serves none, and an idle one is idle. -/
structure Core.Stays (c d : Core) : Prop where
  ctx : c.ctx = none → d.ctx = none
  idle : c.run = .idle → d.run = .idle

/-- A context has lost no event and no notice of a lost package. -/
structure Ctx.Hears (x y : Ctx) : Prop where
  pending : x.pending <+: y.pending
  told : ∀ p ∈ x.told, p ∈ y.told

/-- Nothing has left the package or come to it, and nothing in it has begun. -/
structure Inside (s t : State) : Prop where
  frame : t = { s with mem := t.mem, tags := t.tags, hist := t.hist, stamp := t.stamp, cores := t.cores, clusters := t.clusters, engines := t.engines,
                       ctxs := t.ctxs, launches := t.launches, flights := t.flights, frames := t.frames, copied := t.copied }
  core : ∀ k, (s.core k).Stays (t.core k)
  ctx : ∀ n, (s.ctx n).Hears (t.ctx n)
  groups : ∀ l, (t.launch? l).map Launch.groups = (s.launch? l).map Launch.groups

/-- Nor has a context heard anything. -/
structure Recorded (s t : State) : Prop extends Inside s t where
  heard : ∀ n, (t.ctx n).pending = (s.ctx n).pending ∧ (t.ctx n).told = (s.ctx n).told

theorem Core.Stays.refl (c : Core) : c.Stays c := ⟨id, id⟩

theorem Core.Stays.trans {c d e : Core} (h : c.Stays d) (g : d.Stays e) : c.Stays e := ⟨g.ctx ∘ h.ctx, g.idle ∘ h.idle⟩

theorem Ctx.Hears.refl (x : Ctx) : x.Hears x := ⟨List.prefix_rfl, fun _ h => h⟩

theorem Ctx.Hears.trans {x y z : Ctx} (h : x.Hears y) (g : y.Hears z) : x.Hears z :=
  ⟨h.pending.trans g.pending, fun p hp => g.told p (h.told p hp)⟩

/-- A change of a context that leaves these two fields. -/
theorem Ctx.Hears.of_eq {x y : Ctx} (hp : y.pending = x.pending) (ht : y.told = x.told) : x.Hears y :=
  ⟨by rw [hp], fun _ h => ht ▸ h⟩

theorem Inside.refl (s : State) : Inside s s := ⟨rfl, fun _ => .refl _, fun _ => .refl _, fun _ => rfl⟩

theorem Inside.trans {s t u : State} (h : Inside s t) (g : Inside t u) : Inside s u where
  frame := g.frame.trans (by rw [h.frame])
  core k := (h.core k).trans (g.core k)
  ctx n := (h.ctx n).trans (g.ctx n)
  groups l := (g.groups l).trans (h.groups l)

/-- `Inside.trans` with the later change first. -/
theorem Inside.comp {s t u : State} (g : Inside t u) (h : Inside s t) : Inside s u := h.trans g

theorem Inside.foldl {α : Type} {f : State → α → State} (h : ∀ s a, Inside s (f s a)) (l : List α) (s : State) : Inside s (l.foldl f s) :=
  foldl_related Inside.refl Inside.trans h l s

theorem Recorded.refl (s : State) : Recorded s s := ⟨.refl s, fun _ => ⟨rfl, rfl⟩⟩

theorem Recorded.trans {s t u : State} (h : Recorded s t) (g : Recorded t u) : Recorded s u :=
  ⟨h.toInside.trans g.toInside, fun n => ⟨(g.heard n).1.trans (h.heard n).1, (g.heard n).2.trans (h.heard n).2⟩⟩

theorem Recorded.comp {s t u : State} (g : Recorded t u) (h : Recorded s t) : Recorded s u := h.trans g

theorem Recorded.foldl {α : Type} {f : State → α → State} (h : ∀ s a, Recorded s (f s a)) (l : List α) (s : State) : Recorded s (l.foldl f s) :=
  foldl_related Recorded.refl Recorded.trans h l s

/-! ### What stands -/

section Frame

variable {s t : State} (h : Inside s t)
include h

theorem Inside.dies : t.dies = s.dies := (congrArg State.dies h.frame).trans rfl
theorem Inside.links : t.links = s.links := (congrArg State.links h.frame).trans rfl
theorem Inside.rerouting : t.rerouting = s.rerouting := (congrArg State.rerouting h.frame).trans rfl
theorem Inside.lostPkgs : t.lostPkgs = s.lostPkgs := (congrArg State.lostPkgs h.frame).trans rfl
theorem Inside.pkg : t.pkg = s.pkg := (congrArg State.pkg h.frame).trans rfl
theorem Inside.link (n : Nat) : t.link n = s.link n := by rw [State.link, State.link, h.links]

end Frame

/-! ### Changes of one part of the state -/

section Parts

variable (s : State)

/-- Contexts, cores and launches stand. -/
theorem Recorded.of_frame {s t : State}
    (hf : t = { s with mem := t.mem, tags := t.tags, hist := t.hist, stamp := t.stamp, clusters := t.clusters, engines := t.engines,
                       flights := t.flights, frames := t.frames, copied := t.copied }) : Recorded s t := by
  rw [hf]
  exact ⟨⟨rfl, fun _ => .refl _, fun _ => .refl _, fun _ => rfl⟩, fun _ => ⟨rfl, rfl⟩⟩

theorem Recorded.of_cores {s t : State} (hf : t = { s with cores := t.cores }) (hc : ∀ k, (s.core k).Stays (t.core k)) : Recorded s t := by
  rw [hf] at hc ⊢
  exact ⟨⟨rfl, hc, fun _ => .refl _, fun _ => rfl⟩, fun _ => ⟨rfl, rfl⟩⟩

theorem State.setCore_recorded (k : Nat) (c : Core) (h : (s.core k).Stays c) : Recorded s (s.setCore k c) := by
  refine .of_cores rfl fun j => ?_
  by_cases hj : j = k
  · subst hj; simpa using h
  · simpa [hj] using Core.Stays.refl (s.core j)

theorem State.modCore_recorded (k : Nat) (f : Core → Core) (h : ∀ c : Core, c.Stays (f c)) : Recorded s (s.modCore k f) :=
  s.setCore_recorded k _ (h _)

theorem State.mapCores_recorded (g : Nat × Core → Nat × Core) (hk : ∀ p, (g p).1 = p.1) (h : ∀ p : Nat × Core, p.2.Stays (g p).2) :
    Recorded s { s with cores := s.cores.map g } := by
  refine .of_cores rfl fun k => ?_
  rw [s.mapCores_core g hk, State.core, Table.get_eq_find?]
  cases Table.find? s.cores k with
  | none => exact .refl _
  | some c => exact h (k, c)

theorem State.setCtx_inside (n : Nat) (x : Ctx) (h : (s.ctx n).Hears x) : Inside s (s.setCtx n x) where
  frame := rfl
  core _ := .refl _
  ctx m := by
    by_cases hm : m = n
    · subst hm; simpa using h
    · simpa [hm] using Ctx.Hears.refl (s.ctx m)
  groups _ := rfl

theorem State.modCtx_inside (n : Nat) (f : Ctx → Ctx) (h : ∀ x : Ctx, x.Hears (f x)) : Inside s (s.modCtx n f) := s.setCtx_inside n _ (h _)

theorem State.setCtx_recorded (n : Nat) (x : Ctx) (hp : x.pending = (s.ctx n).pending) (ht : x.told = (s.ctx n).told) :
    Recorded s (s.setCtx n x) := by
  refine ⟨s.setCtx_inside n x (.of_eq hp ht), fun m => ?_⟩
  by_cases hm : m = n
  · subst hm; simp [hp, ht]
  · simp [hm]

/-- A change of a context that concerns none of what it hears. -/
theorem State.modCtx_recorded (n : Nat) (f : Ctx → Ctx) (h : ∀ x, (f x).pending = x.pending ∧ (f x).told = x.told) :
    Recorded s (s.modCtx n f) :=
  s.setCtx_recorded n _ (h _).1 (h _).2

/-- The same change of every context. -/
theorem State.mapCtxs_inside (f : Nat → Ctx → Ctx) (h : ∀ n (x : Ctx), x.Hears (f n x)) :
    Inside s { s with ctxs := s.ctxs.map fun p => (p.1, f p.1 p.2) } where
  frame := rfl
  core _ := .refl _
  ctx n := by
    rw [State.ctx, State.ctx, Table.get_eq_find?, Table.get_eq_find?, Table.find?_map]
    cases Table.find? s.ctxs n with
    | none => exact .refl _
    | some x => exact h n x
  groups _ := rfl

/-- The same change of every launch, which leaves its groups. -/
theorem State.mapLaunches_recorded (f : Launch → Launch) (h : ∀ x, (f x).groups = x.groups) :
    Recorded s { s with launches := s.launches.map fun p => (p.1, f p.2) } where
  frame := rfl
  core _ := .refl _
  ctx _ := .refl _
  groups l := by
    rw [State.launch?, State.launch?, Table.find?_map s.launches (fun _ => f)]
    cases Table.find? s.launches l with
    | none => rfl
    | some x => exact congrArg some (h x)
  heard _ := ⟨rfl, rfl⟩

end Parts

/-! ### Memory and rings -/

section Rings

variable (s : State)

theorem State.publishPiece_recorded (narrow tag a bs) : Recorded s (s.publishPiece narrow tag a bs) := by
  simp only [State.publishPiece]
  split <;> exact .of_frame rfl

theorem State.writeWord_recorded (a : Nat) (w : Word) : Recorded s (s.writeWord a w) :=
  Recorded.foldl (f := fun t (p : Nat × List Byte) => t.publishPiece none false p.1 p.2)
    (fun t p => t.publishPiece_recorded none false p.1 p.2) _ s

theorem State.writeVa_recorded {s t : State} {ctx : Nat} {va : Word} {l : List Word} (h : s.writeVa ctx va l = some t) : Recorded s t := by
  induction l generalizing s va with
  | nil => cases h; exact .refl _
  | cons w l ih =>
    simp only [State.writeVa] at h
    split at h
    · exact (State.writeWord_recorded _ _ w).trans (ih h)
    · cases h

theorem Ctx.setRing_keeps (x : Ctx) (k : RingKind) (r : RingSt) :
    (x.setRing k r).pending = x.pending ∧ (x.setRing k r).told = x.told := by
  cases k <;> exact ⟨rfl, rfl⟩

theorem State.ringWrite_recorded {s t : State} {ctx : Nat} {k : RingKind} {rec : List Word} (h : s.ringWrite ctx k rec = some t) :
    Recorded s t := by
  simp only [State.ringWrite] at h
  split at h
  · cases h
  · split at h
    · cases h
    · next hrec =>
      split at h
      · cases h
      · next hcount =>
        cases h
        exact ((State.writeVa_recorded hrec).trans (State.writeVa_recorded hcount)).trans (State.modCtx_recorded _ _ _ fun x => x.setRing_keeps k _)

theorem State.ringPost_recorded (ctx : Nat) (k : RingKind) (rec : List Word) : Recorded s (s.ringPost ctx k rec) := by
  have hold := s.modCtx_recorded ctx (fun c => c.setRing k { c.ring k with waiting := (c.ring k).waiting ++ [rec] }) fun x => x.setRing_keeps k _
  simp only [State.ringPost]
  split
  · cases hw : s.ringWrite ctx k rec with
    | none => exact hold
    | some t => exact State.ringWrite_recorded hw
  · exact hold

theorem State.errorRecord_recorded (ctx source : Nat) (d : List Word) : Recorded s (s.errorRecord ctx source d) := s.ringPost_recorded _ _ _

theorem State.sample_recorded (ctx src : Nat) (v : Word) : Recorded s (s.sample ctx src v) := by
  simp only [State.sample]
  split
  · exact s.setCtx_recorded ctx _ rfl rfl
  · exact .refl s

/-! ### The stop of the world, HALTED, dead letters, events -/

theorem State.freeWorld_recorded (ctx : Nat) : Recorded s (s.freeWorld ctx) := by
  simp only [State.freeWorld]
  refine (State.mapCores_recorded _ _ (fun p => ?_) fun p => ?_).comp (s.modCtx_recorded ctx _ fun _ => ⟨rfl, rfl⟩)
  · split <;> rfl
  · split
    · exact ⟨id, fun h => by simp only [h]⟩
    · exact .refl _

theorem State.liveAgain_recorded (ctx : Nat) : Recorded s (s.liveAgain ctx) := by
  have live := s.modCtx_recorded ctx (fun x => { x with state := .live }) fun _ => ⟨rfl, rfl⟩
  exact live.trans (State.mapLaunches_recorded _
    (fun x => if x.ctx = ctx ∧ x.live then { x with since := x.since + (s.time - (s.ctx ctx).pausedAt) } else x) fun x => by split <;> rfl)

theorem State.wakeWorld_recorded (ctx : Nat) : Recorded s (s.wakeWorld ctx) := by
  simp only [State.wakeWorld]
  split
  · exact (s.freeWorld_recorded ctx).trans (State.liveAgain_recorded _ ctx)
  · exact s.freeWorld_recorded ctx

theorem State.haltCtx_recorded (ctx cause : Nat) : Recorded s (s.haltCtx ctx cause) := by
  have halt (w : Word) : Recorded s (((s.freeWorld ctx).modCtx ctx (fun c => { c with state := .halted, haltCause := cause, pausedAt := w })).errorRecord
      ctx 3 [BitVec.ofNat 64 cause]) :=
    .comp (State.errorRecord_recorded _ _ _ _) (.comp (State.modCtx_recorded _ ctx _ fun _ => ⟨rfl, rfl⟩) (s.freeWorld_recorded ctx))
  simp only [State.haltCtx]
  split
  · exact halt _
  · exact halt _
  · exact .refl s

theorem State.deadLetter_recorded (ctx : Nat) (payload : List Word) (target hidx reason : Word) :
    Recorded s (s.deadLetter ctx payload target hidx reason).2 := by
  simp only [State.deadLetter]
  split
  · exact s.ringPost_recorded _ _ _
  · exact (s.ringPost_recorded _ _ _).trans (State.haltCtx_recorded _ _ _)

theorem State.ctxEvent_inside (ctx : Nat) (e : CtxEvent) : Inside s (s.ctxEvent ctx e) :=
  s.modCtx_inside ctx _ fun _ => ⟨List.prefix_append _ _, fun _ h => h⟩

theorem State.emptyHandler_inside (ctx : Nat) (payload : List Word) (target hidx coord x3 : Word) (launch : Option Nat) :
    Inside s (s.emptyHandler ctx payload target hidx coord x3 launch) :=
  (s.deadLetter_recorded ctx payload target hidx 0x40).toInside.trans (State.ctxEvent_inside _ ctx _)

end Rings

/-! ### Pages and handles -/

section Handles

variable (s : State)

theorem State.filterTlb_recorded (keep : TlbEntry → Bool) : Recorded s { s with
    cores := s.cores.map fun p => (p.1, { p.2 with tlb := p.2.tlb.filter keep, latch := p.2.latch.filter keep }),
    clusters := s.clusters.map fun p => (p.1, { p.2 with tlb := p.2.tlb.filter keep }) } := by
  have filtered := s.mapCores_recorded (fun p => (p.1, { p.2 with tlb := p.2.tlb.filter keep, latch := p.2.latch.filter keep }))
    (fun _ => rfl) fun _ => ⟨id, id⟩
  exact filtered.trans (.of_frame rfl)

theorem State.dropTlb_recorded (ctx lo hi : Nat) : Recorded s (s.dropTlb ctx lo hi) := s.filterTlb_recorded _

theorem State.fenceCode_recorded (lo hi : Nat) : Recorded s (s.fenceCode lo hi) := .of_frame rfl

theorem State.freeFrame_recorded (a : Nat) : Recorded s (s.freeFrame a) := .of_frame rfl

theorem State.unmapPage_recorded (ctx : Nat) (va : Word) : Recorded s (s.unmapPage ctx va) := by
  simp only [State.unmapPage]
  split
  · split
    · exact .refl s
    · exact .comp (State.dropTlb_recorded _ _ _ _) (.comp (State.freeFrame_recorded _ _) (.comp (State.fenceCode_recorded _ _ _) (s.writeWord_recorded _ _)))
  · exact .refl s

theorem State.unmapPages_recorded (ctx : Nat) (l : List Word) : Recorded s (s.unmapPages ctx l) := by
  induction l generalizing s with
  | nil => exact .refl s
  | cons p l ih => exact (s.unmapPage_recorded ctx p).trans (ih _)

theorem State.settleHandle_recorded (ctx i : Nat) : Recorded s (s.settleHandle ctx i) := by
  simp only [State.settleHandle]
  split
  · refine Recorded.trans ?_ (State.modCtx_recorded _ ctx _ fun _ => ⟨rfl, rfl⟩)
    split
    · exact s.unmapPages_recorded ctx _
    · exact .refl s
  · exact .refl s

theorem State.retireHandle_recorded (ctx i : Nat) : Recorded s (s.retireHandle ctx i) := by
  simp only [State.retireHandle]
  split
  · exact (State.settleHandle_recorded _ ctx i).comp (s.modCtx_recorded ctx _ fun _ => ⟨rfl, rfl⟩)
  · exact .refl s

theorem State.dropAll_recorded (ctx : Nat) (l : List HRef) : Recorded s (s.dropAll ctx l) := by
  induction l generalizing s with
  | nil => exact .refl s
  | cons r l ih => exact (ih _).comp ((State.settleHandle_recorded _ ctx r.index).comp (s.modCtx_recorded ctx _ fun _ => ⟨rfl, rfl⟩))

theorem State.retireAll_recorded (ctx : Nat) (l : List HRef) : Recorded s (s.retireAll ctx l) := by
  induction l generalizing s with
  | nil => exact .refl s
  | cons r l ih => exact (ih _).comp ((State.retireHandle_recorded _ ctx r.index).comp (s.modCtx_recorded ctx _ fun _ => ⟨rfl, rfl⟩))

end Handles

/-! ### Matching, counters, poisoning -/

section Matching

variable (s : State)

theorem Core.setHome_stays (c : Core) (v : VState) : c.Stays (c.setHome v) := by
  simp only [Core.setHome]
  split <;> exact ⟨id, id⟩

/-- What matches has its inputs reserved and is enqueued. -/
theorem Core.matchOne_eq {c d : Core} {cls : Nat} {coord : Word} {arg : XReg} {ks : List (Nat × Kernel)}
    (h : c.matchOne cls coord arg ks = some d) : ∃ u f, d = Core.enqueue (c.reserve u) f := by
  induction ks with
  | nil => cases h
  | cons p ks ih =>
    simp only [Core.matchOne] at h
    split at h
    · next hm =>
      cases h
      split at hm
      · obtain ⟨a, -, ha⟩ := List.exists_of_findSome?_eq_some hm
        split at ha
        · cases ha; exact ⟨_, _, rfl⟩
        · cases ha
      · cases hm
    · exact ih h

theorem Core.matchAll_stays (cls : Nat) (coord : Word) (arg : XReg) (ks : List (Nat × Kernel)) (n : Nat) (c : Core) :
    c.Stays (Core.matchAll cls coord arg ks n c) := by
  induction n generalizing c with
  | zero => exact .refl c
  | succ n ih =>
    simp only [Core.matchAll]
    split
    · next h =>
      obtain ⟨u, f, rfl⟩ := Core.matchOne_eq h
      have reserved : c.Stays (c.reserve u) := (c.setHome_stays _).trans ⟨id, id⟩
      have enqueued : (c.reserve u).Stays (Core.enqueue (c.reserve u) f) := ⟨id, id⟩
      exact (reserved.trans enqueued).trans (ih _)
    · exact .refl c

theorem State.matchActors_recorded (k : Nat) : Recorded s (s.matchActors k) := by
  simp only [State.matchActors]
  split
  · exact .refl s
  · exact s.setCore_recorded k _ ((Core.matchAll_stays _ _ _ _ _ _).trans ⟨id, id⟩)

theorem State.loseJoin_inside (k j : Nat) : Inside s (s.loseJoin k j) := by
  simp only [State.loseJoin]
  split
  · exact (s.emptyHandler_inside _ _ _ _ _ _ _).trans (State.modCore_recorded _ k _ fun c => c.setHome_stays _).toInside
  · exact .refl s

theorem State.joinsFired_inside (k : Nat) : Inside s (s.joinsFired k) :=
  (Inside.foldl (fun t j => t.loseJoin_inside k j) _ s).trans (State.matchActors_recorded _ k).toInside

theorem State.poison_inside (ctx : Nat) (covers : JScope → Bool) : Inside s (s.poison ctx covers) := by
  simp only [State.poison]
  refine Inside.comp (.foldl State.joinsFired_inside _ _) (.comp (State.modCtx_inside _ ctx _ fun _ => .of_eq rfl rfl) ?_)
  refine (s.mapCores_recorded _ (fun p => ?_) fun p => ?_).toInside
  · split <;> rfl
  · split <;> exact ⟨id, id⟩

/-! ### What comes back -/

theorem State.peerEvent_inside (ctx pkg : Nat) (coord : Word) (dl launch : Option Nat) : Inside s (s.peerEvent ctx pkg coord dl launch) := by
  simp only [State.peerEvent]
  split
  · exact .refl s
  · exact .comp (State.ctxEvent_inside _ ctx _) (s.modCtx_inside ctx _ fun _ => ⟨List.prefix_rfl, fun _ h => by simp [h]⟩)

theorem State.returned_inside (ctx pkg : Nat) (payload : List Word) (target hidx : Word) (maybe : Bool) (coord : Word) (launch : Option Nat) :
    Inside s (s.returned ctx pkg payload target hidx maybe coord launch) := by
  have letter := s.deadLetter_recorded ctx payload target hidx (0x12 ||| bit maybe)
  simp only [State.returned]
  split
  · exact letter.toInside
  · exact .comp (State.poison_inside _ _ _) (.comp (State.peerEvent_inside _ _ _ _ _ _) letter.toInside)

theorem State.toRetired_inside (ctx : Nat) (dst : VCore) (body : Body) (sender : Word) : Inside s (s.toRetired ctx dst body sender) := by
  simp only [State.toRetired]
  split
  · exact s.returned_inside _ _ _ _ _ _ _ _
  · exact s.emptyHandler_inside _ _ _ _ _ _ _

end Matching

/-! ### Firings that end by a fault (22 R419-R422) -/

section Faults

variable (s : State)

theorem Ctx.foldl_setHandle_hears (g : Ctx → Nat → HEntry) (l : List Nat) (x : Ctx) : x.Hears (l.foldl (fun x i => x.setHandle i (g x i)) x) :=
  foldl_related (f := fun x i => x.setHandle i (g x i)) Ctx.Hears.refl Ctx.Hears.trans (fun _ _ => .of_eq rfl rfl) l x

theorem State.cancelWaits_inside (k : Nat) : Inside s (s.cancelWaits k) := by
  simp only [State.cancelWaits]
  refine Inside.trans (s.modCtx_inside _ _ fun x => ?_) (Recorded.of_frame rfl).toInside
  have h := Ctx.foldl_setHandle_hears (fun x i => { x.handle i with state := .free })
    ((s.ctx (s.ctxOf k)).asks.filterMap fun a => match a.2 with | .spec j i _ => if j = k then some i else none | _ => none) x
  exact ⟨h.pending, h.told⟩

theorem State.undoFiring_inside (k : Nat) : Inside s (s.undoFiring k) := by
  simp only [State.undoFiring]
  refine Inside.comp (Recorded.toInside (State.modCore_recorded _ k _ fun _ => ⟨id, id⟩)) ?_
  exact .comp (State.cancelWaits_inside _ k) ((s.dropAll_recorded _ _).trans (State.retireAll_recorded _ _ _)).toInside

theorem State.leaveSvc_recorded (k : Nat) : Recorded s (s.leaveSvc k) := by
  simp only [State.leaveSvc]
  split
  · exact s.modCore_recorded k _ fun _ => ⟨fun _ => rfl, id⟩
  · exact .refl s

theorem State.restCore_recorded (k : Nat) : Recorded s (s.restCore k) := by
  rw [State.restCore]
  refine Recorded.comp (State.modCore_recorded _ k _ fun _ => ⟨id, fun _ => rfl⟩) ?_
  split
  · simp only [State.storeService]
    split
    · exact .comp (State.modCore_recorded _ k _ fun _ => ⟨id, id⟩) (s.modCtx_recorded _ _ fun _ => ⟨rfl, rfl⟩)
    · exact .refl s
  · exact .refl s

theorem State.releaseFiring_recorded (k : Nat) (f : Firing) : Recorded s (s.releaseFiring k f) := by
  simp only [State.releaseFiring]
  refine Recorded.comp (State.matchActors_recorded _ k) (.comp (State.dropAll_recorded _ _ _) ?_)
  refine s.modCore_recorded k _ fun c => ?_
  have dropped : c.Stays (c.dropMessages f.inputs) := ⟨id, id⟩
  exact dropped.trans (Core.setHome_stays _ _)

theorem State.endFiring_recorded (k : Nat) : Recorded s (s.endFiring k) := by
  simp only [State.endFiring]
  split
  · exact .refl s
  · next f _ =>
    refine Recorded.comp (State.leaveSvc_recorded _ k) ?_
    have released : Recorded s ((((s.sample (s.ctxOf k) 7 (BitVec.ofNat 64 (s.cycle - f.start.toNat))).restCore k).modCore k
        (fun c => { c with carries := [] })).releaseFiring k f) :=
      .comp (State.releaseFiring_recorded _ k f) (.comp (State.modCore_recorded _ k _ fun _ => ⟨id, id⟩)
        (.comp (State.restCore_recorded _ k) (s.sample_recorded _ _ _)))
    split
    · exact released.trans (State.wakeWorld_recorded _ _)
    · exact released

theorem State.endByFault_inside (k : Nat) (code : FCode) (addr at_ : Word) : Inside s (s.endByFault k code addr at_) := by
  cases hf : (s.core k).firing with
  | none => simpa [State.endByFault, hf] using Inside.refl s
  | some f =>
    have undone := s.undoFiring_inside k
    have reported (t : State) (e : CtxEvent) : Inside t (if f.svc then t else t.ctxEvent (s.ctxOf k) e) := by
      split
      · exact .refl t
      · exact t.ctxEvent_inside _ e
    have ended (t : State) : Inside t
        (if f.svc then ((if code = .peerLost then t.poison (s.ctxOf k) (fun sc => decide (sc = .sys)) else t).endFiring k).haltCtx (s.ctxOf k) 1
        else (if code = .peerLost then t.poison (s.ctxOf k) (fun sc => decide (sc = .sys)) else t).endFiring k) := by
      have poisoned : Inside t (if code = .peerLost then t.poison (s.ctxOf k) (fun sc => decide (sc = .sys)) else t) := by
        split
        · exact t.poison_inside _ _
        · exact .refl t
      have rests := poisoned.trans (State.endFiring_recorded _ k).toInside
      split
      · exact rests.trans (State.haltCtx_recorded _ _ _).toInside
      · exact rests
    simp only [State.endByFault, hf]
    cases (s.core k).trigger f with
    | none => exact .comp (ended _) (.comp (reported _ _) undone)
    | some m => exact .comp (ended _) (.comp (reported _ _) (.comp (State.deadLetter_recorded _ _ _ _ _ _).toInside undone))

theorem State.takeFault_peerLost_inside (k : Nat) (addr at_ : Word) (acc : Access) : Inside s (s.takeFault k .peerLost addr at_ acc) := by
  have h := s.endByFault_inside k .peerLost addr at_
  cases hf : (s.core k).firing with
  | none => simpa [State.takeFault, hf] using Inside.refl s
  | some f => simpa [State.takeFault, hf] using h

end Faults

end Sys2Proof.Machine
end

section
/-! What comes back from links, the states of a link, and obligation O25 (14 R231-R232, R235-R237, R240). -/

namespace Sys2Proof.Machine

/-! ### What comes back (R237) -/

/-- No die's table of routes has changed, and no package is lost or found. -/
structure SameRoads (s t : State) : Prop where
  dies : t.dies = s.dies
  lostPkgs : t.lostPkgs = s.lostPkgs

/-- From `s` to `t` messages have come back or gone on towards other packages: a link that is LOST takes none, and no change of route begins. -/
structure Returns (s t : State) : Prop extends SameRoads s t where
  lost : ∀ n, (s.link n).state = .lost → t.link n = s.link n
  settled : ∀ p, Table.find? s.rerouting p = none → Table.find? t.rerouting p = none

theorem SameRoads.refl (s : State) : SameRoads s s := ⟨rfl, rfl⟩

theorem SameRoads.trans {s t u : State} (h : SameRoads s t) (g : SameRoads t u) : SameRoads s u :=
  ⟨g.dies.trans h.dies, g.lostPkgs.trans h.lostPkgs⟩

theorem SameRoads.foldl {α : Type} {f : State → α → State} (h : ∀ s a, SameRoads s (f s a)) (l : List α) (s : State) : SameRoads s (l.foldl f s) :=
  foldl_related SameRoads.refl SameRoads.trans h l s

theorem Returns.refl (s : State) : Returns s s := ⟨.refl s, fun _ _ => rfl, fun _ => id⟩

theorem Returns.trans {s t u : State} (h : Returns s t) (g : Returns t u) : Returns s u where
  toSameRoads := h.toSameRoads.trans g.toSameRoads
  lost n hn := (g.lost n (by rw [h.lost n hn, hn])).trans (h.lost n hn)
  settled p hp := g.settled p (h.settled p hp)

theorem Returns.foldl {α : Type} {f : State → α → State} (h : ∀ s a, Returns s (f s a)) (l : List α) (s : State) : Returns s (l.foldl f s) :=
  foldl_related Returns.refl Returns.trans h l s

theorem Inside.returns {s t : State} (h : Inside s t) : Returns s t :=
  ⟨⟨h.dies, h.lostPkgs⟩, fun n _ => h.link n, fun _ hp => by rw [h.rerouting]; exact hp⟩

section Back

variable (s : State)

/-- No route leads over a LOST link (R234). -/
theorem State.routeOf_not_lost {d pkg n : Nat} (h : s.routeOf d pkg = some n) : (s.link n).state ≠ .lost := by
  simp only [State.routeOf] at h
  split at h
  · cases h
  · next hroute =>
    cases h
    exact fun hl => hroute (.inr (.inr (.inr hl)))

theorem State.sendWire_returns {t : State} {d pkg : Nat} {carry : Bool} {slots : List (BitVec 640)} (h : s.sendWire d carry pkg slots = some t) :
    Returns s t := by
  simp only [State.sendWire] at h
  split at h
  · next r hr =>
    cases h
    refine ⟨⟨rfl, rfl⟩, fun _ _ => rfl, fun p hp => ?_⟩
    have hne : p ≠ pkg := fun h => by simp [h, hr] at hp
    simpa [hne] using hp
  · split at h
    · next n hn =>
      cases h
      refine ⟨⟨rfl, rfl⟩, fun m hm => State.setLink_link_other _ _ fun h => ?_, fun _ => id⟩
      exact s.routeOf_not_lost hn (h ▸ hm)
    · cases h

theorem State.bounce_returns (d : Nat) (maybe : Bool) (m : WireMsg) : Returns s (s.bounce d maybe m) := by
  simp only [State.bounce]
  split
  · exact .refl s
  · split
    · exact (s.returned_inside _ _ _ _ _ _ _ _).returns
    · generalize hw : s.sendWire d false (m.sender / 8192) _ = w
      cases w with
      | none => exact .refl s
      | some t => exact s.sendWire_returns hw

theorem State.bounceAll_returns (d : Nat) (maybe : Bool) (xs : List (BitVec 640)) : Returns s (s.bounceAll d maybe xs) :=
  .foldl (fun t m => t.bounce_returns d maybe m) _ s

theorem State.returnFar_returns (p : Far → Bool) : Returns s (s.returnFar p) := by
  have noted : Returns s { s with far := s.far.filter fun f => !p f } := ⟨⟨rfl, rfl⟩, fun _ _ => rfl, fun _ => id⟩
  exact noted.trans (.foldl (f := fun t (f : Far) => t.bounceAll (linkDie f.link) true f.slots) (fun t f => t.bounceAll_returns _ true f.slots) _ _)

theorem State.returnFar_of_none {p : Far → Bool} (h : ∀ f ∈ s.far, p f = false) : s.returnFar p = s := by
  have hkept : s.far.filter (fun f => !p f) = s.far := List.filter_eq_self.2 fun f hf => by simp [h f hf]
  have hgone : s.far.filter p = [] := List.filter_eq_nil_iff.2 fun f hf => by simp [h f hf]
  rw [State.returnFar, hkept, hgone]
  rfl

/-- What link n keeps when what it owes of some packages' messages comes back. -/
def Link.keeping (l : Link) (to? : List (BitVec 640) → Bool) : Link :=
  { l with sent := if l.carries then l.sent else l.sent.filter (fun f => !to? (flitSlots f))
           back := if l.carries then l.back ++ (l.sent.filter (fun f => to? (flitSlots f) && decide (flitSeq f ∉ l.back))).map flitSeq else l.back
           holding := l.holding.filter (fun x => !to? x), carryHold := l.carryHold.filter (fun x => !to? x) }

theorem Link.keeping_of_empty {l : Link} {to? : List (BitVec 640) → Bool} (hs : l.sent = []) (hh : l.holding = []) (hc : l.carryHold = []) :
    l.keeping to? = l := by
  cases l
  simp_all [Link.keeping]

theorem State.returnFlits_eq (n : Nat) (to? : List (BitVec 640) → Bool) : s.returnFlits n to? =
    ((s.setLink n ((s.link n).keeping to?)).bounceAll (linkDie n) true
      (((s.link n).sent.filter (fun f => to? (flitSlots f) && decide (flitSeq f ∉ (s.link n).back))).flatMap flitSlots)).bounceAll (linkDie n) false
      (((s.link n).carryHold ++ (s.link n).holding).filter to?).flatten := rfl

theorem State.returnFlits_returns (n : Nat) (to? : List (BitVec 640) → Bool) :
    Returns (s.setLink n ((s.link n).keeping to?)) (s.returnFlits n to?) :=
  (State.bounceAll_returns _ _ _ _).trans (State.bounceAll_returns _ _ _ _)

/-- A link that owes nothing gives nothing back. -/
theorem State.returnFlits_of_none {n : Nat} {to? : List (BitVec 640) → Bool} (hs : (s.link n).sent = []) (hh : (s.link n).holding = [])
    (hc : (s.link n).carryHold = []) : s.returnFlits n to? = s.setLink n (s.link n) := by
  rw [State.returnFlits_eq, Link.keeping_of_empty hs hh hc, hs, hh, hc]
  rfl

end Back

/-! ### What was held leaves (R231, R236) -/

/-- The channels keep what is to leave: every carry flit, and every normal one, each in order. -/
theorem channels_carry (cs ns : List (List (BitVec 640))) : ((channels cs ns).filter Prod.fst).map Prod.snd = cs := by
  induction cs, ns using channels.induct with
  | case1 ns => simp [channels]
  | case2 c cs n ns ih => simp [channels, ih]
  | case3 c cs ih => simp [channels, ih]

theorem channels_normal (cs ns : List (List (BitVec 640))) : ((channels cs ns).filter fun p => !p.1).map Prod.snd = ns := by
  induction cs, ns using channels.induct with
  | case1 ns => simp [channels, List.filter_map, Function.comp_def]
  | case2 c cs n ns ih => simp [channels, ih]
  | case3 c cs ih => simp [channels, ih]

/-- While both wait they take turns, a carry flit first. -/
theorem channels_turns {cs ns : List (List (BitVec 640))} {i : Nat} (hc : i < cs.length) (hn : i < ns.length) :
    ((channels cs ns)[2 * i]?).map Prod.fst = some true ∧ ((channels cs ns)[2 * i + 1]?).map Prod.fst = some false := by
  induction cs, ns using channels.induct generalizing i with
  | case1 ns => simp at hc
  | case2 c cs n ns ih =>
    cases i with
    | zero => simp [channels]
    | succ i => simpa [channels, Nat.mul_succ] using ih (i := i) (by simpa using hc) (by simpa using hn)
  | case3 c cs ih => simp at hn

/-- The flits of messages that leave one after another, numbered from `tx + 1` on. -/
def flitsFrom (rx : BitVec 12) : BitVec 12 → List (Bool × List (BitVec 640)) → List (BitVec 2048)
  | _, [] => []
  | tx, p :: q => mkFlit p.1 (tx + 1).toNat rx.toNat p.2 :: flitsFrom rx (tx + 1) q

theorem flitsFrom_length (rx tx : BitVec 12) (q : List (Bool × List (BitVec 640))) : (flitsFrom rx tx q).length = q.length := by
  induction q generalizing tx with
  | nil => rfl
  | cons p q ih => simp [flitsFrom, ih]

theorem add_one_add_ofNat (tx : BitVec 12) (n : Nat) : tx + 1 + BitVec.ofNat 12 n = tx + BitVec.ofNat 12 (n + 1) := by
  rw [BitVec.add_assoc, BitVec.add_comm 1, BitVec.ofNat_add]
  rfl

theorem flitsFrom_getElem? {rx tx : BitVec 12} {q : List (Bool × List (BitVec 640))} {i : Nat} {p : Bool × List (BitVec 640)} (h : q[i]? = some p) :
    (flitsFrom rx tx q)[i]? = some (mkFlit p.1 (tx + BitVec.ofNat 12 (i + 1)).toNat rx.toNat p.2) := by
  induction q generalizing tx i with
  | nil => simp at h
  | cons r q ih =>
    cases i with
    | zero => obtain rfl : r = p := by simpa using h
              rfl
    | succ i =>
      rw [flitsFrom, List.getElem?_cons_succ, ih (by simpa using h), add_one_add_ofNat]

theorem Link.foldl_transmit (l : Link) (q : List (Bool × List (BitVec 640))) : q.foldl (fun l p => l.transmit p.1 p.2) l =
    { l with sent := l.sent ++ flitsFrom l.seqRx l.seqTx q, seqTx := l.seqTx + BitVec.ofNat 12 q.length } := by
  induction q generalizing l with
  | nil => simp [flitsFrom]
  | cons p q ih =>
    rw [List.foldl_cons, ih]
    simp only [Link.transmit, flitsFrom, add_one_add_ofNat, List.append_assoc, List.singleton_append, List.length_cons]

theorem Link.release_eq (l : Link) : l.release = { l with
    holding := [], carryHold := [], sent := l.sent ++ flitsFrom l.seqRx l.seqTx (channels l.carryHold l.holding),
    seqTx := l.seqTx + BitVec.ofNat 12 (channels l.carryHold l.holding).length } :=
  Link.foldl_transmit { l with carryHold := [], holding := [] } _

/-! ### The parts of the obligation -/

section Events

variable (s : State) (n : Nat)

theorem State.setLink_onlyLink (l : Link) : Sys2Proof.Claims.onlyLink s (s.setLink n l) n l :=
  ⟨rfl, by simp, fun m hm => by simp [hm]⟩

/-- A package whose link has changed looks for its source of time again, and stays in step only on a way to the root that it had. -/
theorem State.setLink_resource (l : Link) : Sys2Proof.Claims.linkAndSource s (s.setLink n l).resource n l := by
  have hlink (m : Nat) : (s.setLink n l).resource.link m = (s.setLink n l).link m := by rw [State.resource_frame]; rfl
  refine ⟨by rw [State.resource_frame]; rfl, by simp [hlink], fun m hm => by simp [hlink, hm], fun hroot => ?_, fun hroot hsync => ?_⟩
  · rw [(s.setLink n l).resource_of_root hroot]; rfl
  · cases hb : (s.setLink n l).bestSource with
    | none => simp [(s.setLink n l).resource_of_none hroot hb] at hsync
    | some x =>
      obtain ⟨m, hm, hx⟩ := State.bestSource_mem _ hb
      obtain ⟨r, hc, hr, -, -, rfl⟩ := (State.rootHeard_eq_some _).1 hx
      rw [(s.setLink n l).resource_of_some hroot hb] at hsync
      simp only [Bool.and_eq_true, decide_eq_true_iff] at hsync
      exact ⟨hsync.1, m, r, hm, by rw [hlink]; exact hc, by rw [hlink]; exact hr, by simpa using hsync.2⟩

/-- The lanes that a link runs on, where it trains. -/
theorem lanesUsed_eq {k : Nat} (hk : k ≤ 8) : lanesUsed k = if k = 8 then 8 else if 4 ≤ k then 4 else if 2 ≤ k then 2 else 0 := by
  have h8 : 8 ≤ k ↔ k = 8 := by omega
  simp only [lanesUsed, h8]

theorem laneCount_le (m : BitVec 8) : laneCount m ≤ 8 := by
  simpa [laneCount] using List.length_filter_le (fun i => m.getLsbD i) (List.range 8)

/-- A link that has trained on two lanes or more: the link that it is then, with what it held on its way. -/
theorem linkTrainingDone_up {lanes : BitVec 8} {peer : BitVec 18} {plink : BitVec 5} (ht : (s.link n).state = .training)
    (hk : 2 ≤ laneCount lanes) :
    let up (st : LState) (m : Nat) : Link := ({ s.link n with state := st, lanes := m, peer := peer, plink := plink } : Link).release
    exec (.linkTrainingDone n lanes peer plink) s =
      .next (s.setLink n (if laneCount lanes = 8 then up .up 8 else if 4 ≤ laneCount lanes then up .degraded 4 else up .degraded 2)) := by
  have hexec : exec (.linkTrainingDone n lanes peer plink) s = execLinkTrainingDone n lanes peer plink s := rfl
  simp only [hexec, execLinkTrainingDone, ht, ne_eq, not_true_eq_false, if_false, lanesUsed_eq (laneCount_le lanes)]
  split
  · rfl
  · split
    · rfl
    · rfl

theorem linkTrainingDone_down {lanes : BitVec 8} {peer : BitVec 18} {plink : BitVec 5} (ht : (s.link n).state = .training)
    (hk : laneCount lanes < 2) :
    exec (.linkTrainingDone n lanes peer plink) s = .next (s.setLink n { s.link n with state := .down, lanes := 0, root := none }).resource := by
  have hused : lanesUsed (laneCount lanes) = 0 := by
    rw [lanesUsed_eq (laneCount_le lanes), if_neg (by omega), if_neg (by omega), if_neg (by omega)]
  simp [exec, execLinkTrainingDone, ht, hused]

/-- LINK_DISABLE leaves nothing on the link. -/
theorem linkDisable_empties (h : (s.link n).state = .lost) : ∃ t, exec (.linkDisable n) s = .next t ∧ (t.link n).state = .down ∧
    (t.link n).lanes = 0 ∧ (t.link n).sent = [] ∧ (t.link n).holding = [] ∧ (t.link n).carryHold = [] := by
  have hkept : ((s.setLink n ((s.link n).keeping fun _ => true)).link n).state = .lost := by simp [Link.keeping, h]
  have back := (s.returnFlits_returns n fun _ => true).trans (State.returnFar_returns _ fun f => decide (f.link = n))
  have hlink := back.lost n hkept
  refine ⟨_, if_neg (not_not.2 h), ?_⟩
  simp [hlink, Link.keeping, Link.carries, h]

/-- Where the link owes nothing, and has delivered nothing that is not acknowledged, it is only DOWN, and its numbers start again. -/
theorem linkDisable_idle (h : (s.link n).state = .lost) (hs : (s.link n).sent = []) (hh : (s.link n).holding = [])
    (hc : (s.link n).carryHold = []) (hf : ∀ f ∈ s.far, f.link ≠ n) : ∃ t, exec (.linkDisable n) s = .next t ∧
      Sys2Proof.Claims.onlyLink s t n { s.link n with state := .down, lanes := 0, seqTx := 0, seqRx := 0, half := [], back := [] } := by
  have back : (s.returnFlits n fun _ => true).returnFar (fun f => decide (f.link = n)) = s.setLink n (s.link n) := by
    rw [s.returnFlits_of_none hs hh hc]
    exact State.returnFar_of_none _ fun f hf' => decide_eq_false (hf f hf')
  refine ⟨_, if_neg (not_not.2 h), ?_⟩
  rw [back]
  exact ⟨rfl, by simp, fun m hm => by simp [hm]⟩

end Events

/-- Settles O25: each event by the case that the link's state gives it; what is held leaves through the two channels in turn. -/
theorem linkStates : Obligations.LinkStates := by
  unfold Obligations.LinkStates
  refine ⟨?_, ?_⟩
  swap
  · intro l q
    exact ⟨channels_carry _ _, channels_normal _ _, fun i => channels_turns, _, l.release_eq, flitsFrom_length _ _ _, fun i p => flitsFrom_getElem?⟩
  intro n s l more trains carries becomes leaves
  have hcarries : carries ↔ l.carries = true := (Link.carries_eq_true l).symm
  have idle (h : l.state = .training) : ¬ l.carries = true := by simp [h]
  have late : (l.carries || decide (l.state = .training)) && decide (ackLimit ≤ (s.time - l.ackTime).toNat) ↔
      (carries ∨ l.state = .training) ∧ 100000 ≤ (s.time - l.ackTime).toNat := by
    rw [Bool.and_eq_true, Bool.or_eq_true, decide_eq_true_iff, decide_eq_true_iff, hcarries]; rfl
  have becomes_of {i : Instr} {x : Link} (h : exec i s = .next (s.setLink n x)) : becomes i x := ⟨_, h, s.setLink_onlyLink n x⟩
  have leaves_of {i : Instr} {x : Link} (h : exec i s = .next (s.setLink n x).resource) : leaves i x := ⟨_, h, s.setLink_resource n x⟩
  refine ⟨fun h => becomes_of ?_, fun h => ?_, fun lanes peer plink => ⟨fun h => ?_, fun h hk => becomes_of (linkTrainingDone_up s n h hk),
    fun h hk => leaves_of (linkTrainingDone_down s n h hk)⟩, fun lane => ⟨fun h => leaves_of ?_, fun hc h => ?_, fun h hf => becomes_of ?_, fun h hf => leaves_of ?_⟩,
    fun h => leaves_of ?_, fun h => ?_, ⟨fun h => ?_, fun h => leaves_of ?_⟩, fun h => ?_, fun h => ⟨linkDisable_empties s n h, linkDisable_idle s n h⟩⟩
  · exact if_pos h
  · exact if_neg h
  · exact if_pos h
  · exact if_pos (hcarries.1 h)
  · exact (if_neg (mt hcarries.2 hc)).trans (if_pos h)
  · exact (if_neg (idle h)).trans ((if_neg (not_not.2 h)).trans (if_neg (Nat.not_le.2 (Nat.succ_lt_succ hf))))
  · exact (if_neg (idle h)).trans ((if_neg (not_not.2 h)).trans (if_pos (Nat.succ_le_succ hf)))
  · exact if_pos h
  · exact if_neg h
  · exact if_neg (mt late.1 h)
  · exact if_pos (late.2 h)
  · exact if_pos h

end Sys2Proof.Machine
end

section
/-! SUPPORT. A message as its slots carry it, read back at the other end (09 R157, 14 R233). -/

namespace Sys2Proof.Machine

/-! ### Doublewords of a slot -/

theorem slotBits_go_eq (l : List Word) : slotBits.go l = packed l := by
  induction l with
  | nil => rfl
  | cons x t ih => rw [slotBits.go, packed, ih]

/-- Doubleword i of a slot made of ten. -/
theorem slotWord_slotBits {l : List Word} (hl : l.length = 10) {i : Nat} (hi : i < 10) : slotWord (slotBits l) i = l[i] := by
  have hpad : padTo 10 l = l := by simp [padTo, hl]
  have hlt : packed l < 2 ^ 640 := (packed_lt l).trans_eq (congrArg (2 ^ ·) (by omega))
  refine BitVec.eq_of_toNat_eq ?_
  rw [slotWord, toNat_field, slotBits, hpad, slotBits_go_eq, toNat_ofNat_of_lt_two_pow hlt, packed_place]

theorem padTo_of_length {l : List Word} {n : Nat} (h : l.length = n) : padTo n l = l := by simp [padTo, h]

/-! ### Headers (R157) -/

theorem hd0_toNat {target hidx kind ctx tags : Nat} (ht : target < 2 ^ 31) (hh : hidx < 2 ^ 12) (hk : kind < 16) (hc : ctx < 2 ^ 8) (hg : tags < 2 ^ 8) :
    (hd0 target hidx kind ctx tags).toNat = target + hidx * 2 ^ 32 + kind * 2 ^ 44 + ctx * 2 ^ 48 + tags * 2 ^ 56 := by
  rw [hd0, BitVec.toNat_ofNat]
  omega

theorem hd1_toNat {sender launch : Nat} (hs : sender < 2 ^ 31) (hl : launch < 2 ^ 32) : (hd1 sender launch).toNat = sender + launch * 2 ^ 32 := by
  rw [hd1, BitVec.toNat_ofNat]
  omega

/-! ### TAGS -/

theorem ofBits_lt (l : List Bool) : tagBits.ofBits l < 2 ^ l.length := by
  induction l with
  | nil => decide
  | cons b l ih =>
    have := b.toNat_le
    rw [tagBits.ofBits, List.length_cons, Nat.pow_succ]
    omega

theorem ofBits_testBit (l : List Bool) (i : Nat) : (tagBits.ofBits l).testBit i = l.getD i false := by
  induction l generalizing i with
  | nil => simp [tagBits.ofBits]
  | cons b l ih =>
    cases i with
    | zero => cases b <;> simp [tagBits.ofBits, Nat.testBit_zero]
    | succ i =>
      have hb : (b.toNat + 2 * tagBits.ofBits l) / 2 = tagBits.ofBits l := by
        cases b with
        | false => simp
        | true => simp only [Bool.toNat_true]; omega
      rw [tagBits.ofBits, Nat.testBit_succ, hb, ih]
      rfl

theorem tagBits_lt {regs : List XReg} (h : regs.length = 8) : tagBits regs < 2 ^ 8 := by
  simpa [tagBits, h] using ofBits_lt (regs.map XReg.tag)

theorem tagBits_testBit (regs : List XReg) (i : Nat) : (tagBits regs).testBit i = (regs.map XReg.tag).getD i false := ofBits_testBit _ _

/-- TAGS are zero where no register is tagged. -/
theorem tagBits_eq_zero {regs : List XReg} : tagBits regs = 0 ↔ regs.any XReg.tag = false := by
  rw [tagBits]
  induction regs with
  | nil => simp [tagBits.ofBits]
  | cons r regs ih => cases hr : r.tag <;> simp [tagBits.ofBits, hr, ← ih]

/-! ### Halves of a register -/

theorem zero_append_eq_setWidth (w : Word) : (0 : Word) ++ w = w.setWidth 128 := by
  refine BitVec.eq_of_getLsbD_eq fun i hi => ?_
  rw [BitVec.getLsbD_append, BitVec.getLsbD_setWidth]
  split
  · simp [hi]
  · next h => simp [BitVec.getLsbD_of_ge w i (by omega)]

theorem XReg.hi_append_addr (r : XReg) : r.hi ++ r.addr = r.val := by
  refine BitVec.eq_of_getLsbD_eq fun i hi => ?_
  rw [XReg.hi, XReg.addr, BitVec.getLsbD_append, BitVec.getLsbD_setWidth, BitVec.getLsbD_setWidth, BitVec.getLsbD_ushiftRight]
  split
  · next h => simp [h]
  · next h => simp [show 64 + (i - 64) = i by omega, show i - 64 < 64 by omega]

/-! ### Slots that join -/

theorem joinSlots_plain {x : BitVec 640} (h : (wireMsg x none).kind = kindHandler ∧ (wireMsg x none).tags = 0) :
    joinSlots [] [x] = ([wireMsg x none], []) := by
  simp [joinSlots, h, kindHandler, kindExt, kindMcst]

/-- A tagged message waits for its extension, and is whole with it. -/
theorem joinSlots_extended {x y : BitVec 640} (hx : (wireMsg x none).kind = kindHandler ∧ (wireMsg x none).tags ≠ 0)
    (hy : (wireMsg y none).kind = kindExt) : joinSlots [] [x, y] = ([wireMsg x (some y)], []) := by
  obtain ⟨hkind, htags⟩ := hx
  simp only [joinSlots, hkind, hy, htags, kindHandler, kindExt, kindMcst]
  simp

/-! ### A handler message over a link -/

/-- A handler message of eight registers, as it is read from its slots. -/
def handlerWire (target sender ctx launch hidx : Nat) (regs : List XReg) : WireMsg :=
  { target, hidx, kind := 0, ctx, tags := BitVec.ofNat 8 (tagBits regs), sender, launch, low := lows regs,
    high := if tagBits regs = 0 then List.replicate 8 0 else highs regs, ext := 0 }

section Message

variable {target sender ctx launch hidx : Nat} {regs : List XReg} (hregs : regs.length = 8) (ht : target < 2 ^ 31) (hs : sender < 2 ^ 31)
  (hh : hidx < 2 ^ 12) (hc : ctx < 2 ^ 8) (hl : launch < 2 ^ 32)

include hregs in
theorem wireSlots_handler : wireSlots target sender ctx launch 0 hidx regs 0 =
    slotBits (hd0 target hidx 0 ctx (tagBits regs) :: hd1 sender launch :: lows regs) ::
      (if tagBits regs = 0 then [] else [slotBits (hd0 target 0 kindExt ctx 0 :: hd1 0 launch :: highs regs)]) := by
  have htake : regs.take 8 = regs := List.take_of_length_le (by omega)
  simp only [wireSlots, htake, padTo_of_length (n := 8) (l := lows regs) (by simp [lows, hregs]),
    padTo_of_length (n := 8) (l := highs regs) (by simp [highs, hregs]), kindMcst]
  simp

include hregs in
theorem wireSlots_handler_length : (wireSlots target sender ctx launch 0 hidx regs 0).length ≤ 3 := by
  rw [wireSlots_handler hregs]
  split <;> simp

/-- The eight doublewords behind the header of a slot. -/
theorem slot_payload {h0 h1 : Word} {l : List Word} (hlen : l.length = 8) :
    (List.range 8).map (fun i => slotWord (slotBits (h0 :: h1 :: l)) (i + 2)) = l := by
  refine List.ext_getElem (by simp [hlen]) fun i hi hi' => ?_
  rw [List.getElem_map, List.getElem_range, slotWord_slotBits (by simp [hlen]) (by omega)]
  rfl

include hregs ht hc in
/-- An extension says that it is one, and nothing in HD1 30:0. -/
theorem extension_header (hl : launch < 2 ^ 32) : let y := slotBits (hd0 target 0 kindExt ctx 0 :: hd1 0 launch :: highs regs)
    (wireMsg y none).kind = kindExt ∧ fld (slotWord y 1) 30 0 = 0 := by
  intro y
  have hlen : (hd0 target 0 kindExt ctx 0 :: hd1 0 launch :: highs regs).length = 10 := by simp [highs, hregs]
  have h0 : slotWord y 0 = hd0 target 0 kindExt ctx 0 := slotWord_slotBits hlen (by decide)
  have h1 : slotWord y 1 = hd1 0 launch := slotWord_slotBits hlen (by decide)
  change fld (slotWord y 0) 47 44 = kindExt ∧ _
  rw [h0, h1, fld, fld, hd0_toNat ht (show 0 < 2 ^ 12 by decide) (show kindExt < 16 by decide) hc (show 0 < 2 ^ 8 by decide),
    hd1_toNat (show 0 < 2 ^ 31 by decide) hl, kindExt]
  exact ⟨by omega, by omega⟩

include hregs ht hs hh hc hl

/-- What the first slot says, with or without an extension. -/
theorem wireMsg_handler (ext : Option (BitVec 640)) :
    wireMsg (slotBits (hd0 target hidx 0 ctx (tagBits regs) :: hd1 sender launch :: lows regs)) ext =
      { target, hidx, kind := 0, ctx, tags := BitVec.ofNat 8 (tagBits regs), sender, launch, low := lows regs,
        high := (ext.map fun y => (List.range 8).map fun i => slotWord y (i + 2)).getD (List.replicate 8 0),
        ext := (ext.map fun y => fld (slotWord y 1) 30 0).getD 0 } := by
  have hg := tagBits_lt hregs
  have hlen : (hd0 target hidx 0 ctx (tagBits regs) :: hd1 sender launch :: lows regs).length = 10 := by simp [lows, hregs]
  have h0 : slotWord (slotBits (hd0 target hidx 0 ctx (tagBits regs) :: hd1 sender launch :: lows regs)) 0 = hd0 target hidx 0 ctx (tagBits regs) :=
    slotWord_slotBits hlen (by decide)
  have h1 : slotWord (slotBits (hd0 target hidx 0 ctx (tagBits regs) :: hd1 sender launch :: lows regs)) 1 = hd1 sender launch :=
    slotWord_slotBits hlen (by decide)
  simp only [wireMsg, h0, h1, slot_payload (show (lows regs).length = 8 by simp [lows, hregs]), fld,
    hd0_toNat ht hh (show 0 < 16 by decide) hc hg, hd1_toNat hs hl, WireMsg.mk.injEq, and_true]
  exact ⟨by omega, by omega, by omega, by omega, congrArg (BitVec.ofNat 8) (by omega), by omega, by omega⟩

/-- The slots of a handler message join to that message. -/
theorem joinSlots_handler : joinSlots [] (wireSlots target sender ctx launch 0 hidx regs 0) = ([handlerWire target sender ctx launch hidx regs], []) := by
  have hm := wireMsg_handler hregs ht hs hh hc hl
  rw [wireSlots_handler hregs]
  by_cases htags : tagBits regs = 0
  · have hplain : (wireMsg (slotBits (hd0 target hidx 0 ctx (tagBits regs) :: hd1 sender launch :: lows regs)) none).kind = kindHandler ∧
        (wireMsg (slotBits (hd0 target hidx 0 ctx (tagBits regs) :: hd1 sender launch :: lows regs)) none).tags = 0 := by
      rw [hm none, htags]
      exact ⟨rfl, rfl⟩
    rw [if_pos htags, joinSlots_plain hplain, hm none, handlerWire, if_pos htags]
    rfl
  · have htagged : BitVec.ofNat 8 (tagBits regs) ≠ 0 := fun h => htags (by
      have := congrArg BitVec.toNat h
      rwa [toNat_ofNat_of_lt_two_pow (tagBits_lt hregs)] at this)
    have hfirst : (wireMsg (slotBits (hd0 target hidx 0 ctx (tagBits regs) :: hd1 sender launch :: lows regs)) none).kind = kindHandler ∧
        (wireMsg (slotBits (hd0 target hidx 0 ctx (tagBits regs) :: hd1 sender launch :: lows regs)) none).tags ≠ 0 := by
      rw [hm none]
      exact ⟨rfl, htagged⟩
    obtain ⟨hext, hzero⟩ := extension_header (regs := regs) hregs ht hc hl
    rw [if_neg htags, joinSlots_extended hfirst hext, hm (some _), handlerWire, if_neg htags, Option.map_some, Option.map_some, Option.getD_some,
      Option.getD_some, slot_payload (show (highs regs).length = 8 by simp [highs, hregs]), hzero]

omit ht hs hh hc hl in
/-- Its registers, each with its upper half and its tag; the upper halves of a message without a tag are not sent. -/
theorem handlerWire_regs : (handlerWire target sender ctx launch hidx regs).regs =
    if regs.any XReg.tag then regs else regs.map fun r => XReg.plain r.addr := by
  have htag (i : Nat) (hi : i < regs.length) : (BitVec.ofNat 8 (tagBits regs)).getLsbD i = (regs[i]).tag := by
    rw [BitVec.getLsbD_ofNat, tagBits_testBit]
    simp [hi, ← hregs]
  have hlow : (lows regs).length = 8 := by simp [lows, hregs]
  cases hany : regs.any XReg.tag with
  | false =>
    have hzero := tagBits_eq_zero.2 hany
    refine List.ext_getElem (by simp [WireMsg.regs, handlerWire, hzero, lows, hregs]) fun i hi hi' => ?_
    have hi8 : i < regs.length := by simpa using hi'
    have hnot : (regs[i]).tag = false := by simpa using List.any_eq_false.1 hany _ (List.getElem_mem hi8)
    simp only [WireMsg.regs, handlerWire, hzero, if_true, List.getElem_map, List.getElem_zipIdx, List.getElem_zip, List.getElem_replicate, lows,
      Bool.false_eq_true, if_false, XReg.plain, zero_append_eq_setWidth, XReg.mk.injEq, true_and]
    simp
  | true =>
    have hne : tagBits regs ≠ 0 := fun h => by simp [tagBits_eq_zero.1 h] at hany
    refine List.ext_getElem (by simp [WireMsg.regs, handlerWire, hne, lows, highs]) fun i hi hi' => ?_
    have hi8 : i < regs.length := by simpa using hi'
    simp [WireMsg.regs, handlerWire, hne, lows, highs, htag i hi8, XReg.hi_append_addr]

end Message

end Sys2Proof.Machine
end

section
/-! Flits that arrive and that go again, and obligation O26 (14 R232-R235, 09 R157). -/

namespace Sys2Proof.Machine

/-! ### Layout (R233) -/

theorem mkFlit_layout (carry : Bool) {seq ack : Nat} {slots : List (BitVec 640)} (hs : slots.length ≤ 3) (hseq : seq < 4096) (hack : ack < 4096) :
    let f := (mkFlit carry seq ack slots).toNat
    f % 2 = carry.toNat ∧ f / 2 % 4 = slots.length ∧ f / 2 ^ 16 % 2 ^ 12 = seq ∧ f / 2 ^ 32 % 2 ^ 12 = ack := by
  have hheader := mkFlit_header hs carry seq ack
  have hc := carry.toNat_le
  generalize (mkFlit carry seq ack slots).toNat = f at hheader
  simp only [flitHeader] at hheader
  exact ⟨by omega, by omega, by omega, by omega⟩

/-! ### The first flit of a number -/

theorem findIdx?_of_first {α : Type} {p : α → Bool} {a b : List α} {g : α} (hg : p g = true) (ha : ∀ y ∈ a, p y = false) :
    (a ++ g :: b).findIdx? p = some a.length := by
  induction a with
  | nil => simp [List.findIdx?_cons, hg]
  | cons x a ih => simp [List.findIdx?_cons, ha x, ih fun y hy => ha y (by simp [hy])]

theorem settled_of_none {ack : BitVec 12} {l : List (BitVec 2048)} (h : ∀ g ∈ l, flitSeq g ≠ ack) : settled ack l = ([], l) := by
  have hnone : l.findIdx? (fun f => decide (flitSeq f = ack)) = none := List.findIdx?_eq_none_iff.2 fun g hg => decide_eq_false (h g hg)
  rw [settled, hnone]

theorem settled_of_first {ack : BitVec 12} {a b : List (BitVec 2048)} {g : BitVec 2048} (hg : flitSeq g = ack) (ha : ∀ y ∈ a, flitSeq y ≠ ack) :
    settled ack (a ++ g :: b) = (a ++ [g], b) := by
  have hfirst : (a ++ g :: b).findIdx? (fun f => decide (flitSeq f = ack)) = some a.length :=
    findIdx?_of_first (decide_eq_true hg) fun y hy => decide_eq_false (ha y hy)
  rw [settled, hfirst]
  simp [List.take_append, List.drop_append]

/-! ### Arrival -/

/-- Link l once an acknowledgement has come at a time. -/
def Link.acked (l : Link) (time : Word) (f : BitVec 2048) : Link :=
  let r := settled (flitAck f) l.sent
  { l with sent := r.2, back := l.back.filter (fun q => q ∉ r.1.map flitSeq), ackTime := if r.1.isEmpty then l.ackTime else time }

/-- The package once the acknowledgement of a flit of link n has counted. -/
def State.acked (s : State) (n : Nat) (f : BitVec 2048) : State :=
  (((s.passedOn n (settled (flitAck f) (s.link n).sent).1).setLink n ((s.link n).acked s.time f)).hearFar).rerouteAll

section Arrival

variable (s : State) (n : Nat) (f : BitVec 2048)

theorem State.hearFar_frame : s.hearFar = { s with far := s.hearFar.far, free := s.hearFar.free } := by
  rw [State.hearFar]
  split <;> rfl

/-- Where no route changes, an acknowledgement changes the link, and what is known of messages that have gone further. -/
theorem State.acked_frame (h : s.rerouting = []) : s.acked n f =
    { s.setLink n ((s.link n).acked s.time f) with far := (s.acked n f).far, free := (s.acked n f).free } := by
  have hstill : s.acked n f = ((s.passedOn n (settled (flitAck f) (s.link n).sent).1).setLink n ((s.link n).acked s.time f)).hearFar := by
    have hnone : (((s.passedOn n (settled (flitAck f) (s.link n).sent).1).setLink n ((s.link n).acked s.time f)).hearFar).rerouting = [] := by
      rw [State.hearFar_frame]; exact h
    rw [State.acked, State.rerouteAll, hnone]
    rfl
  rw [hstill, State.hearFar_frame]
  rfl

theorem flitReceive_bad (h : (s.link n).carries = false ∨ flitGood f = false) : exec (.flitReceive n f) s = .next s :=
  if_pos (by rcases h with h | h <;> simp [h])

/-- The messages that a flit of link n brings, with what stands there of one; and what still waits for its extension. -/
def State.brings (s : State) (n : Nat) (f : BitVec 2048) : List WireMsg × List (BitVec 640) :=
  joinSlots (if f.getLsbD 0 then [] else (s.link n).half) (flitSlots f)

/-- The package once it has taken a flit of link n, before its messages go on. -/
def State.received (s : State) (n : Nat) (f : BitVec 2048) : State :=
  (s.acked n f).setLink n { (s.acked n f).link n with
    seqRx := flitSeq f, half := if f.getLsbD 0 then (s.link n).half else (s.brings n f).2 }

theorem State.received_frame (h : s.rerouting = []) : s.received n f =
    { s with links := (s.received n f).links, far := (s.received n f).far, free := (s.received n f).free } := by
  have hacked := s.acked_frame n f h
  rw [State.received, hacked]
  rfl

theorem State.received_seqRx : ((s.received n f).link n).seqRx = flitSeq f := by simp [State.received]

section Good

variable (hc : (s.link n).carries = true) (hg : flitGood f = true)
include hc hg

theorem flitReceive_outOfOrder (hs : flitSeq f ≠ (s.link n).seqRx + 1) : exec (.flitReceive n f) s = .next (s.acked n f) :=
  (if_neg (by simp [hc, hg])).trans (if_pos hs)

theorem flitReceive_inOrder (hs : flitSeq f = (s.link n).seqRx + 1) : exec (.flitReceive n f) s =
    .next ((s.brings n f).1.foldl (fun s m => s.wireIn (linkDie n) (f.getLsbD 0) m) (s.received n f)) :=
  (if_neg (by simp [hc, hg])).trans (if_neg (not_not.2 hs))

end Good

/-- A handler message that arrives for a core of this package is on its way to it. -/
theorem State.wireIn_handler {die : Nat} {carry : Bool} {m : WireMsg} {dst : VCore} (ht : m.target / 8192 = s.pkg.toNat) (hk : m.kind = 0)
    (hd : s.vcoreAt m.launch (m.target % 8192) = some dst) : s.wireIn die carry m = { s with flights := s.flights ++
      [⟨BitVec.ofNat 31 m.sender, m.ctx, dst, .msg ⟨.handler, m.hidx, m.regs, BitVec.ofNat 31 m.sender, m.ctx, m.launch, s.time, none⟩⟩] } := by
  simp [State.wireIn, ht, hk, hd, kindEvent, kindRemote, State.wireBody, msgKind, kindFire, MKind.ofCode]

end Arrival

/-! ### The parts of the obligation -/

section Parts

variable {s : State} {n : Nat} {f : BitVec 2048}

/-- One out of order is discarded but for its acknowledgement, which alone restarts the link's clock. -/
theorem flitReceive_discarded (hc : (s.link n).carries = true) (hg : flitGood f = true) (hs : flitSeq f ≠ (s.link n).seqRx + 1)
    (hr : s.rerouting = []) : ∃ t x, exec (.flitReceive n f) s = .next t ∧ t = { s with links := t.links, far := t.far, free := t.free } ∧
      t.link n = x ∧ (∀ m, m ≠ n → t.link m = s.link m) ∧ x = { s.link n with sent := x.sent, back := x.back, ackTime := x.ackTime } ∧
      ((∀ g ∈ (s.link n).sent, flitSeq g ≠ flitAck f) → x.sent = (s.link n).sent ∧ x.ackTime = (s.link n).ackTime) ∧
      ∀ a g b, (s.link n).sent = a ++ g :: b → flitSeq g = flitAck f → (∀ y ∈ a, flitSeq y ≠ flitAck f) → x.sent = b ∧ x.ackTime = s.time := by
  have hframe := s.acked_frame n f hr
  have hlink (m : Nat) : (s.acked n f).link m = (s.setLink n ((s.link n).acked s.time f)).link m := by rw [hframe]; rfl
  refine ⟨_, (s.link n).acked s.time f, flitReceive_outOfOrder s n f hc hg hs, by rw [hframe]; rfl, by simp [hlink], fun m hm => by simp [hlink, hm], rfl,
    fun hnone => ?_, fun a g b hsent hack hfirst => ?_⟩
  · simp [Link.acked, settled_of_none hnone]
  · simp [Link.acked, hsent, settled_of_first hack hfirst]

/-- The next in order delivers its message, as its sender made it, to the core that it names. -/
theorem flitReceive_delivers {target sender hidx ctx launch seq ack : Nat} {regs : List XReg} {carry : Bool} {dst : VCore}
    (hc : (s.link n).carries = true) (hg : flitGood f = true) (hs : flitSeq f = (s.link n).seqRx + 1) (hhalf : (s.link n).half = [])
    (hr : s.rerouting = []) (hregs : regs.length = 8) (ht : target < 2 ^ 31) (hsender : sender < 2 ^ 31) (hh : hidx < 2 ^ 12) (hctx : ctx < 2 ^ 8)
    (hl : launch < 2 ^ 32) (hpkg : target / 8192 = s.pkg.toNat) (hf : f = mkFlit carry seq ack (wireSlots target sender ctx launch 0 hidx regs 0))
    (hdst : s.vcoreAt launch (target % 8192) = some dst) :
    ∃ t, exec (.flitReceive n f) s = .next t ∧ (t.link n).seqRx = flitSeq f ∧ t.flights = s.flights ++ [⟨BitVec.ofNat 31 sender, ctx, dst,
        .msg ⟨.handler, hidx, if regs.any XReg.tag then regs else regs.map (fun r => XReg.plain r.addr), BitVec.ofNat 31 sender, ctx, launch, s.time, none⟩⟩] ∧
      t.cores = s.cores ∧ t.ctxs = s.ctxs ∧ s.sameMemory t := by
  have hbrings : s.brings n f = ([handlerWire target sender ctx launch hidx regs], []) := by
    rw [State.brings, hhalf, ite_self, hf, flitSlots_mkFlit (wireSlots_handler_length hregs), joinSlots_handler hregs ht hsender hh hctx hl]
  have harrives := flitReceive_inOrder s n f hc hg hs
  have hframe := s.received_frame n f hr
  have hseq := s.received_seqRx n f
  rw [hbrings, List.foldl_cons, List.foldl_nil] at harrives
  generalize s.received n f = u at harrives hframe hseq
  have hthere : u.vcoreAt launch (target % 8192) = some dst := by rw [hframe]; exact hdst
  have hhere : target / 8192 = u.pkg.toNat := by rw [hframe]; exact hpkg
  rw [u.wireIn_handler hhere rfl hthere, handlerWire_regs hregs] at harrives
  refine ⟨_, harrives, hseq, ?_, ?_, ?_, fun a => ?_, fun g => ?_⟩
  · rw [hframe]; rfl
  · rw [hframe]
  · rw [hframe]
  · rw [hframe]; rfl
  · rw [hframe]; rfl

/-- A flit that the peer asks for again, and all after it, are counted. -/
theorem flitReplay_counts {seq : BitVec 12} {a b : List (BitVec 2048)} {g : BitVec 2048} (hc : (s.link n).carries = true)
    (hsent : (s.link n).sent = a ++ g :: b) (hg : flitSeq g = seq) (ha : ∀ y ∈ a, flitSeq y ≠ seq) :
    exec (.flitReplay n seq) s = .next (s.setLink n { s.link n with retry := BitVec.ofNat 16 (min 65535 ((s.link n).retry.toNat + b.length + 1)) }) := by
  have hfirst : (a ++ g :: b).findIdx? (fun f => decide (flitSeq f = seq)) = some a.length :=
    findIdx?_of_first (decide_eq_true hg) fun y hy => decide_eq_false (ha y hy)
  have hcount : (a ++ g :: b).length - a.length = b.length + 1 := by simp
  have hexec : exec (.flitReplay n seq) s = execFlitReplay n seq s := rfl
  simp only [hexec, execFlitReplay, hc, Bool.not_true, Bool.false_eq_true, if_false]
  rw [hsent, hfirst]
  simp only [hcount, satAdd16, Nat.add_assoc]

theorem flitReplay_idle {seq : BitVec 12} (h : (s.link n).carries = false ∨ ∀ g ∈ (s.link n).sent, flitSeq g ≠ seq) :
    exec (.flitReplay n seq) s = .next s := by
  have hexec : exec (.flitReplay n seq) s = execFlitReplay n seq s := rfl
  rw [hexec, execFlitReplay]
  cases hc : (s.link n).carries with
  | false => simp
  | true =>
    have hnone : (s.link n).sent.findIdx? (fun f => decide (flitSeq f = seq)) = none :=
      List.findIdx?_eq_none_iff.2 fun g hg => decide_eq_false (h.resolve_left (by simp [hc]) g hg)
    simp [hnone]

end Parts

/-- Settles O26: the flit's bits are read back part by part; an arrival is its acknowledgement, then, in order, its messages. -/
theorem flitsArrive : Obligations.FlitsArrive := by
  unfold Obligations.FlitsArrive
  refine ⟨?_, ?_, ?_⟩
  · intro carry seq ack slots hs hseq hack f
    obtain ⟨hcarry, hcount, hnumber, hacks⟩ := mkFlit_layout carry hs hseq hack
    refine ⟨hcarry, hcount, hnumber, hacks, fun i hi => ?_, mkFlit_crc hs carry seq ack⟩
    rw [List.getD_eq_getElem _ _ hi]
    exact mkFlit_slot hs carry seq ack hi
  · intro n f s l carries good seq
    have hcarries : carries ↔ (s.link n).carries = true := (Link.carries_eq_true _).symm
    have hgood : good ↔ flitGood f = true := (flitGood_iff f).symm
    have hseq : seq = (l.seqRx.toNat + 1) % 4096 ↔ flitSeq f = l.seqRx + 1 := by
      rw [← BitVec.toNat_inj, flitSeq_toNat, BitVec.toNat_add]
      rfl
    refine ⟨fun h => flitReceive_bad s n f ?_, fun hc hg hs hr => ?_, fun hc hg hs hhalf hr => ?_⟩
    · exact h.imp (fun h => (Bool.not_eq_true _).mp (mt hcarries.2 h)) fun h => (Bool.not_eq_true _).mp (mt hgood.2 h)
    · have hacks (g : BitVec 2048) : g.toNat / 2 ^ 16 % 2 ^ 12 = f.toNat / 2 ^ 32 % 2 ^ 12 ↔ flitSeq g = flitAck f := by
        rw [← BitVec.toNat_inj, flitSeq_toNat, flitAck_toNat]
      obtain ⟨t, x, ht, hframe, hx, hothers, hkeeps, hnone, hfirst⟩ := flitReceive_discarded (hcarries.1 hc) (hgood.1 hg) (mt hseq.2 hs) hr
      refine ⟨t, x, ht, hframe, hx, hothers, hkeeps, fun h => hnone fun g hg => mt (hacks g).2 (h g hg), fun a g b hl hg ha => ?_⟩
      exact hfirst a g b hl ((hacks g).1 hg) fun y hy => mt (hacks y).2 (ha y hy)
    · intro target sender hidx ctx launch regs carry ack dst hregs ht hsender hh hctx hlaunch _ hpkg hf hdst
      obtain ⟨t, ht, hnumber, hrest⟩ := flitReceive_delivers (hcarries.1 hc) (hgood.1 hg) (hseq.1 hs) hhalf hr hregs ht hsender hh hctx hlaunch hpkg hf hdst
      exact ⟨t, ht, by rw [hnumber, flitSeq_toNat], hrest⟩
  · intro n seq s l is
    have hcarries : l.state = .up ∨ l.state = .degraded ↔ (s.link n).carries = true := (Link.carries_eq_true _).symm
    have his (f : BitVec 2048) : is f ↔ flitSeq f = seq := by rw [← BitVec.toNat_inj, flitSeq_toNat]
    refine ⟨fun h => flitReplay_idle ?_, fun a f b hc hl hf ha => ⟨_, flitReplay_counts (hcarries.1 hc) hl ((his f).1 hf) fun g hg => mt (his g).2 (ha g hg),
      s.setLink_onlyLink n _⟩⟩
    exact h.imp (fun h => (Bool.not_eq_true _).mp (mt hcarries.2 h)) fun h g hg => mt (his g).2 (h g hg)

end Sys2Proof.Machine
end

section
/-! Routes that change, packages and dies that are lost, and obligation O27 (14 R234-R238, 10 R176). -/

namespace Sys2Proof.Machine

/-! ### Folds -/

/-- Changes none of which changes anything. -/
theorem foldl_of_fixed {σ α : Type} {f : σ → α → σ} {s : σ} {l : List α} (h : ∀ a ∈ l, f s a = s) : l.foldl f s = s := by
  induction l with
  | nil => rfl
  | cons a l ih =>
    rw [List.foldl_cons, h a (by simp)]
    exact ih fun b hb => h b (by simp [hb])

/-- What one of the changes brings about and none undoes. -/
theorem foldl_establishes {σ α : Type} {f : σ → α → σ} {I P : σ → Prop} {a : α} {l : List α} (ha : a ∈ l)
    (before : ∀ s, ∀ b ∈ l, b ≠ a → I s → I (f s b)) (here : ∀ s, I s → P (f s a)) (after : ∀ s, ∀ b ∈ l, P s → P (f s b)) {s : σ} (h : I s) :
    P (l.foldl f s) := by
  have kept (m : List α) (hm : ∀ b ∈ m, b ∈ l) : ∀ s, P s → P (m.foldl f s) := by
    induction m with
    | nil => exact fun _ => id
    | cons b m ih => exact fun s hs => ih (fun c hc => hm c (by simp [hc])) _ (after s b (hm b (by simp)) hs)
  suffices ∀ m : List α, a ∈ m → (∀ b ∈ m, b ∈ l) → ∀ s, I s → P (m.foldl f s) from this l ha (fun _ => id) s h
  intro m
  induction m with
  | nil => simp
  | cons b m ih =>
    intro hmem hm s hs
    have hm' : ∀ c ∈ m, c ∈ l := fun c hc => hm c (by simp [hc])
    by_cases hb : b = a
    · exact kept m hm' _ (hb ▸ here s hs)
    · exact ih (by simpa [Ne.symm hb] using hmem) hm' _ (before s b (hm b (by simp)) hb hs)

theorem mem_distinct {α : Type} [DecidableEq α] {l : List α} {a : α} (h : a ∈ l) : a ∈ distinct l := by
  induction l with
  | nil => simp at h
  | cons b l ih =>
    by_cases hb : a = b
    · simp [distinct, hb]
    · simpa [distinct, hb] using ih (by simpa [hb] using h)

/-! ### Accesses that fail (R237-R238) -/

section Fail

variable (s : State)

theorem State.failRemote_inside (k : Nat) : Inside s (s.failRemote k) := by
  simp only [State.failRemote]
  split
  · exact .refl s
  · refine Inside.trans ?_ (State.takeFault_peerLost_inside _ k _ _ _)
    split
    · exact .refl s
    · exact (s.peerEvent_inside _ _ _ _ _).trans (State.poison_inside _ _ _)

theorem State.failRemotes_inside : Inside s s.failRemotes := .foldl State.failRemote_inside _ s

theorem State.failAway_inside (pkg : Nat) : Inside s (s.failAway pkg) := by
  refine .foldl (fun s p => .foldl (fun s a => ?_) _ s) _ s
  split
  · split
    · exact s.takeFault_peerLost_inside _ _ _ _
    · exact .refl s
  · exact .refl s

theorem State.failEvent_inside (k : Nat) : Inside s (s.failEvent k) := by
  have fail (e : BitVec 16) : Inside s (if s.homeLost (s.ctxOf k) e then
      (s.takeFault k .peerLost (e.setWidth 64) (s.core k).unitAt .read).modCtx (s.ctxOf k) (fun x => { x with events := x.events.map (fun v =>
        (v.1, { v.2 with waiters := v.2.waiters.filter (fun w => decide (w ≠ .core k)) })) }) else s) := by
    split
    · exact (s.takeFault_peerLost_inside k _ _ _).trans (State.modCtx_inside _ _ _ fun _ => .of_eq rfl rfl)
    · exact .refl s
  simp only [State.failEvent]
  split
  · exact fail _
  · exact fail _
  · split
    · exact s.takeFault_peerLost_inside k _ _ _
    · exact .refl s
  · exact .refl s

end Fail

/-! ### A package is lost (R237) -/

section PeerLoss

variable (s : State) (pkg : Nat)

theorem State.routes_eq_nil : s.routes pkg = [] ↔ ∀ d < 8, s.routeOf d pkg = none := by simp [State.routes]

theorem State.peerLoss_of_known (h : pkg ∈ s.lostPkgs ∨ ∃ d < 8, (s.routeOf d pkg).isSome = true) : s.peerLoss pkg = s := by
  refine if_pos (h.imp_right fun ⟨d, hd, hr⟩ => ?_)
  have hsome : s.routes pkg ≠ [] := fun hnil => by simp [(s.routes_eq_nil pkg).1 hnil d hd] at hr
  simpa using hsome

/-- The package while what it owed to a lost one has not come back. -/
def State.losing : State := { s with lostPkgs := pkg :: s.lostPkgs, rerouting := Table.erase s.rerouting pkg }

/-- The package once what its links owed to a lost one has come back. -/
def State.linksBack : State :=
  (List.range 18).foldl (fun s n => s.returnFlits n (slotsTo pkg)) ((s.losing pkg).returnFar fun f => decide (f.pkg = pkg))

/-- The messages that a change of route holds come back. -/
def State.parkedBack (s : State) (l : List Parked) : State := l.foldl (fun s h => s.bounceAll h.die false h.slots) s

theorem State.peerLoss_of_new (hp : pkg ∉ s.lostPkgs) (hr : s.routes pkg = []) : s.peerLoss pkg =
    (((s.linksBack pkg).parkedBack (((Table.find? s.rerouting pkg).map Reroute.held).getD [])).failRemotes).failAway pkg :=
  if_neg (by simp [hp, hr])

theorem State.linksBack_sameRoads : SameRoads (s.losing pkg) (s.linksBack pkg) := by
  refine (State.returnFar_returns _ _).toSameRoads.trans (.foldl (fun s n => ?_) _ _)
  have kept : SameRoads s (s.setLink n ((s.link n).keeping (slotsTo pkg))) := ⟨rfl, rfl⟩
  exact kept.trans (s.returnFlits_returns n (slotsTo pkg)).toSameRoads

theorem State.parkedBack_nil : s.parkedBack [] = s := rfl

theorem State.parkedBack_returns (l : List Parked) : Returns s (s.parkedBack l) :=
  .foldl (fun s (h : Parked) => s.bounceAll_returns h.die false h.slots) l s

/-- Where no change of route holds traffic for the package, what the links owed is all that comes back. -/
theorem State.peerLoss_inside (hp : pkg ∉ s.lostPkgs) (hr : s.routes pkg = []) (hstill : Table.find? s.rerouting pkg = none) :
    Inside (s.linksBack pkg) (s.peerLoss pkg) := by
  rw [s.peerLoss_of_new pkg hp hr, hstill, Option.map_none, Option.getD_none, State.parkedBack_nil]
  exact (State.failRemotes_inside _).trans (State.failAway_inside _ pkg)

theorem State.peerLoss_sameRoads (hp : pkg ∉ s.lostPkgs) (hr : s.routes pkg = []) : SameRoads (s.losing pkg) (s.peerLoss pkg) := by
  rw [s.peerLoss_of_new pkg hp hr]
  have back := State.parkedBack_returns (s.linksBack pkg) (((Table.find? s.rerouting pkg).map Reroute.held).getD [])
  have fails (t : State) := (t.failRemotes_inside.trans (State.failAway_inside _ pkg)).returns.toSameRoads
  exact ((s.linksBack_sameRoads pkg).trans back.toSameRoads).trans (fails _)

/-- A package to which there is no route is lost. -/
theorem State.peerLoss_loses (hr : s.routes pkg = []) : pkg ∈ (s.peerLoss pkg).lostPkgs ∧ (s.peerLoss pkg).dies = s.dies := by
  by_cases hp : pkg ∈ s.lostPkgs
  · rw [s.peerLoss_of_known pkg (.inl hp)]
    exact ⟨hp, rfl⟩
  · have h := s.peerLoss_sameRoads pkg hp hr
    exact ⟨by simp [h.lostPkgs, State.losing], h.dies⟩

end PeerLoss

/-! ### A message comes back to its sender (R237) -/

/-- A context has heard, in an event PEER_LOST for traffic of a core, that a package is lost. -/
def Ctx.Learns (x y : Ctx) (coord : Word) (pkg : Nat) : Prop :=
  (∃ e rest, y.pending = x.pending ++ e :: rest ∧ e.regs.take 3 = [0x12, coord, BitVec.ofNat 64 pkg]) ∧ pkg ∈ y.told

theorem Ctx.Learns.hears {x y z : Ctx} {coord : Word} {pkg : Nat} (h : x.Learns y coord pkg) (g : y.Hears z) : x.Learns z coord pkg := by
  obtain ⟨⟨e, rest, hp, he⟩, ht⟩ := h
  obtain ⟨more, hmore⟩ := g.pending
  exact ⟨⟨e, rest ++ more, by simp [← hmore, hp], he⟩, g.told pkg ht⟩

/-- A record that is written before is nothing heard. -/
theorem Ctx.Learns.of_recorded {s t : State} {n : Nat} {y : Ctx} {coord : Word} {pkg : Nat} (h : Recorded s t) (g : (t.ctx n).Learns y coord pkg) :
    (s.ctx n).Learns y coord pkg := by
  obtain ⟨⟨e, rest, hp, he⟩, ht⟩ := g
  exact ⟨⟨e, rest, by rw [hp, (h.heard n).1], he⟩, ht⟩

/-- No link and no context has changed. -/
structure SameLinks (s t : State) : Prop where
  link : ∀ m, t.link m = s.link m
  ctxs : t.ctxs = s.ctxs
  pkg : t.pkg = s.pkg

theorem SameLinks.ctx {s t : State} (h : SameLinks s t) (n : Nat) : t.ctx n = s.ctx n := by rw [State.ctx, State.ctx, h.ctxs]

theorem SameLinks.trans {s t u : State} (h : SameLinks s t) (g : SameLinks t u) : SameLinks s u :=
  ⟨fun m => (g.link m).trans (h.link m), g.ctxs.trans h.ctxs, g.pkg.trans h.pkg⟩

/-- A link owes nothing. -/
structure Link.Empty (l : Link) : Prop where
  sent : l.sent = []
  holding : l.holding = []
  carryHold : l.carryHold = []

/-- A LOST link owes one message: it holds it, or it has sent it in a flit that is not acknowledged. -/
structure Link.OwesOne (l : Link) (held : Bool) (seq : Nat) (x : List (BitVec 640)) : Prop where
  lost : l.state = .lost
  sent : l.sent = if held then [] else [mkFlit false seq 0 x]
  holding : l.holding = if held then [x] else []
  carryHold : l.carryHold = []
  back : l.back = []

section Letter

variable (s : State)

theorem State.peerEvent_learns {ctx pkg : Nat} (h : pkg ∉ (s.ctx ctx).told) (coord : Word) (dl launch : Option Nat) :
    (s.ctx ctx).Learns ((s.peerEvent ctx pkg coord dl launch).ctx ctx) coord pkg := by
  rw [State.peerEvent, if_neg h, State.ctxEvent]
  simp only [State.modCtx_ctx_same]
  exact ⟨⟨_, [], rfl, rfl⟩, by simp⟩

theorem State.returned_learns {ctx pkg : Nat} (h : pkg ∉ (s.ctx ctx).told) (payload : List Word) (target hidx : Word) (maybe : Bool) (coord : Word)
    (launch : Option Nat) : (s.ctx ctx).Learns ((s.returned ctx pkg payload target hidx maybe coord launch).ctx ctx) coord pkg := by
  have letter := s.deadLetter_recorded ctx payload target hidx (0x12 ||| bit maybe)
  have hnew : pkg ∉ ((s.deadLetter ctx payload target hidx (0x12 ||| bit maybe)).2.ctx ctx).told := (letter.heard ctx).2 ▸ h
  simp only [State.returned]
  rw [if_neg hnew]
  exact .of_recorded letter ((State.peerEvent_learns _ hnew coord _ launch).hears ((State.poison_inside _ ctx fun sc => decide (sc = .sys)).ctx ctx))

theorem State.setLink_sameLinks (n : Nat) : SameLinks s (s.setLink n (s.link n)) := by
  refine ⟨fun m => ?_, rfl, rfl⟩
  by_cases hm : m = n
  · subst hm; simp
  · simp [hm]

theorem State.returnFlits_of_empty {n : Nat} (h : (s.link n).Empty) (to? : List (BitVec 640) → Bool) : SameLinks s (s.returnFlits n to?) := by
  rw [s.returnFlits_of_none h.sent h.holding h.carryHold]
  exact s.setLink_sameLinks n

section Handler

variable {pkg n sender hidx ctx launch seq target : Nat} {regs : List XReg} {held : Bool} (hregs : regs.length = 8) (ht : target < 2 ^ 31) (hs : sender < 2 ^ 31)
  (hh : hidx < 2 ^ 12) (hc : ctx < 2 ^ 8) (hl : launch < 2 ^ 32) (hto : target / 8192 = pkg) (hfrom : sender / 8192 = s.pkg.toNat)
include hregs ht hs hh hc hl hto

theorem slotsTo_handler : slotsTo pkg (wireSlots target sender ctx launch 0 hidx regs 0) = true := by
  rw [wireSlots_handler hregs]
  simp [slotsTo, wireMsg_handler hregs ht hs hh hc hl none, hto]

include hfrom

theorem State.bounceAll_handler (d : Nat) (maybe : Bool) : s.bounceAll d maybe (wireSlots target sender ctx launch 0 hidx regs 0) =
    s.returned ctx pkg (lows regs) (BitVec.ofNat 64 target) (BitVec.ofNat 64 hidx) maybe (BitVec.ofNat 64 sender) (some launch) := by
  simp [State.bounceAll, joinSlots_handler hregs ht hs hh hc hl, State.bounce, handlerWire, hto, hfrom]

/-- A LOST link gives back the one message that it owes, sent or not. -/
theorem State.returnFlits_handler (howes : (s.link n).OwesOne held seq (wireSlots target sender ctx launch 0 hidx regs 0)) :
    s.returnFlits n (slotsTo pkg) = (s.setLink n { s.link n with sent := [], holding := [] }).returned ctx pkg (lows regs) (BitVec.ofNat 64 target)
      (BitVec.ofNat 64 hidx) (!held) (BitVec.ofNat 64 sender) (some launch) := by
  obtain ⟨hlost, hsent, hheld, hcarry, hback⟩ := howes
  have hslots := slotsTo_handler hregs ht hs hh hc hl hto
  have hflit := flitSlots_mkFlit (wireSlots_handler_length (target := target) (sender := sender) (ctx := ctx) (launch := launch) (hidx := hidx) hregs)
    false seq 0
  have hdown : (s.link n).carries = false := by simp [Link.carries, hlost]
  have hbounce (l : Link) := (s.setLink n l).bounceAll_handler hregs ht hs hh hc hl hto hfrom (linkDie n)
  rw [State.returnFlits_eq]
  cases held with
  | false =>
    have hkeep : (s.link n).keeping (slotsTo pkg) = { s.link n with sent := [], holding := [] } := by
      simp [Link.keeping, hdown, hsent, hheld, hcarry, hflit, hslots]
    simp [hkeep, hsent, hheld, hcarry, hback, hflit, hslots, hbounce]
    rfl
  | true =>
    have hkeep : (s.link n).keeping (slotsTo pkg) = { s.link n with sent := [], holding := [] } := by
      simp [Link.keeping, hdown, hsent, hheld, hcarry, hslots]
    simp [hkeep, hsent, hheld, hcarry, hslots]
    exact hbounce _ false

/-- Where a LOST link owes one message for the lost package, and no link owes anything else, its sender's context hears of the loss. -/
theorem State.linksBack_letter (hn : n < 18) (howes : (s.link n).OwesOne held seq (wireSlots target sender ctx launch 0 hidx regs 0)) (hfar : s.far = [])
    (hothers : ∀ m < 18, m ≠ n → (s.link m).Empty) (htold : pkg ∉ (s.ctx ctx).told) :
    (s.ctx ctx).Learns ((s.linksBack pkg).ctx ctx) (BitVec.ofNat 64 sender) pkg ∧ ((s.linksBack pkg).link n).Empty := by
  suffices (s.ctx ctx).Learns ((s.linksBack pkg).ctx ctx) (BitVec.ofNat 64 sender) pkg ∧ ∀ m < 18, ((s.linksBack pkg).link m).Empty from
    ⟨this.1, this.2 n hn⟩
  rw [State.linksBack, State.returnFar_of_none (s.losing pkg) (by simp [State.losing, hfar])]
  refine foldl_establishes (I := SameLinks s) (P := fun t => (s.ctx ctx).Learns (t.ctx ctx) (BitVec.ofNat 64 sender) pkg ∧ ∀ m < 18, (t.link m).Empty)
    (List.mem_range.2 hn) (fun t m hm hne hsame => ?_) (fun t hsame => ?_) (fun t m hm ⟨hlearns, hempty⟩ => ?_) ⟨fun _ => rfl, rfl, rfl⟩
  · have hempty : (t.link m).Empty := by rw [hsame.link]; exact hothers m (List.mem_range.1 hm) hne
    exact hsame.trans (t.returnFlits_of_empty hempty _)
  · have hlink := hsame.link n
    rw [t.returnFlits_handler hregs ht hs hh hc hl hto (by rw [hfrom, hsame.pkg]) (hlink ▸ howes)]
    have hempty : ∀ m < 18, ((t.setLink n { t.link n with sent := [], holding := [] }).link m).Empty := fun m hm => by
      by_cases hmn : m = n
      · subst hmn
        simp only [State.setLink_link_same]
        exact ⟨rfl, rfl, hlink ▸ howes.carryHold⟩
      · rw [State.setLink_link_other _ _ hmn, hsame.link]
        exact hothers m hm hmn
    have hkept : (t.setLink n { t.link n with sent := [], holding := [] }).ctx ctx = s.ctx ctx := hsame.ctx ctx
    generalize t.setLink n { t.link n with sent := [], holding := [] } = u at hempty hkept ⊢
    rw [← hkept] at htold ⊢
    exact ⟨u.returned_learns htold _ _ _ _ _ _, fun m hm => by rw [(u.returned_inside _ _ _ _ _ _ _ _).link]; exact hempty m hm⟩
  · have hsame := t.returnFlits_of_empty (hempty m (List.mem_range.1 hm)) (slotsTo pkg)
    refine ⟨?_, fun k hk => by rw [hsame.link]; exact hempty k hk⟩
    rwa [hsame.ctx]

/-- The last route is gone: the message comes back to its sender, which hears of the loss. -/
theorem State.peerLoss_letter (hn : n < 18) (howes : (s.link n).OwesOne held seq (wireSlots target sender ctx launch 0 hidx regs 0)) (hfar : s.far = [])
    (hothers : ∀ m < 18, m ≠ n → (s.link m).Empty) (htold : pkg ∉ (s.ctx ctx).told)
    (hp : pkg ∉ s.lostPkgs) (hr : s.routes pkg = []) (hstill : Table.find? s.rerouting pkg = none) :
    (s.ctx ctx).Learns ((s.peerLoss pkg).ctx ctx) (BitVec.ofNat 64 sender) pkg ∧ ((s.peerLoss pkg).link n).Empty := by
  obtain ⟨hlearns, hempty⟩ := s.linksBack_letter hregs ht hs hh hc hl hto hfrom hn howes hfar hothers htold
  have fails := s.peerLoss_inside pkg hp hr hstill
  generalize s.peerLoss pkg = t at fails ⊢
  exact ⟨hlearns.hears (fails.ctx ctx), by rw [fails.link]; exact hempty⟩

end Handler

end Letter

/-! ### A route changes (R234-R235) -/

section Route

variable (s : State) (pkg : Nat)

theorem State.setRoutes_frame (e : BitVec 8) : s.setRoutes pkg e = { s with dies := (s.setRoutes pkg e).dies } :=
  foldl_related (R := fun s t : State => t = { s with dies := t.dies })
    (f := fun s d => s.setDie d { s.die d with routes := Table.set 0x80 (s.die d).routes pkg e })
    (fun _ => rfl) (fun h g => g.trans (by rw [h])) (fun _ _ => rfl) (List.range 8) s

/-- Every die's table has the new entry, and keeps the others. -/
theorem State.setRoutes_get (e : BitVec 8) {d : Nat} (hd : d < 8) : Table.get 0x80 ((s.setRoutes pkg e).die d).routes pkg = e ∧
    ∀ p, p ≠ pkg → Table.get 0x80 ((s.setRoutes pkg e).die d).routes p = Table.get 0x80 (s.die d).routes p := by
  refine foldl_establishes (f := fun s d => s.setDie d { s.die d with routes := Table.set 0x80 (s.die d).routes pkg e })
    (I := fun t : State => t.die d = s.die d) (P := fun t : State => Table.get 0x80 (t.die d).routes pkg = e ∧
      ∀ p, p ≠ pkg → Table.get 0x80 (t.die d).routes p = Table.get 0x80 (s.die d).routes p) (List.mem_range.2 hd) (fun t b _ hb ht => ?_) (fun t ht => ?_)
    (fun t b _ ⟨hset, hkept⟩ => ?_) rfl
  · rw [State.setDie_die_other _ _ (Ne.symm hb), ht]
  · simp +contextual [ht]
  · by_cases hb : d = b
    · subst hb
      rw [State.setDie_die_same]
      exact ⟨Table.get_set_same _ _ _ _, fun p hp => (Table.get_set_other _ _ _ hp).trans (hkept p hp)⟩
    · rw [State.setDie_die_other _ _ hb]
      exact ⟨hset, hkept⟩

/-- No route leads anywhere once the entry says UNREACH. -/
theorem State.setRoutes_unreach {e : BitVec 8} (he : e.getLsbD 7 = true) : (s.setRoutes pkg e).routes pkg = [] :=
  (State.routes_eq_nil _ pkg).2 fun d hd => if_pos (.inl (by rw [(s.setRoutes_get pkg e hd).1, he]))

/-- The package while a change of route is not made: traffic for the id is held, and the id is no longer lost. -/
def State.changing (e : BitVec 8) : State := { s with
  lostPkgs := s.lostPkgs.filter (fun p => decide (p ≠ pkg))
  rerouting := Table.insert s.rerouting pkg { entry := e, held := ((Table.find? s.rerouting pkg).map Reroute.held).getD [] }
  ctxs := s.ctxs.map (fun p => (p.1, { p.2 with told := p.2.told.filter (fun q => decide (q ≠ pkg)) })) }

/-- The package once the change is made, before the held traffic goes on. -/
def State.changed (e : BitVec 8) : State :=
  ({ s.changing pkg e with rerouting := Table.erase (s.changing pkg e).rerouting pkg } : State).setRoutes pkg e

/-- Traffic that a change of route held goes on, or comes back. -/
def State.sendHeld (h : Parked) : State := (s.sendWire h.die h.carry pkg h.slots).getD (s.bounceAll h.die false h.slots)

theorem State.sendHeld_returns (h : Parked) : Returns s (s.sendHeld pkg h) := by
  cases hw : s.sendWire h.die h.carry pkg h.slots with
  | none => simpa [State.sendHeld, hw] using s.bounceAll_returns h.die false h.slots
  | some t => simpa [State.sendHeld, hw] using s.sendWire_returns hw

theorem State.changing_find? (e : BitVec 8) : Table.find? (s.changing pkg e).rerouting pkg =
    some { entry := e, held := ((Table.find? s.rerouting pkg).map Reroute.held).getD [] } := Table.find?_insert_same _ _ _

theorem routeChange_unreach {entry : BitVec 8} (h : (entry &&& 0xDF).getLsbD 7 = true) :
    exec (.routeChange pkg entry) s = .next ((s.setRoutes pkg (entry &&& 0xDF)).peerLoss pkg) := if_pos h

section Change

variable {entry : BitVec 8} (h : (entry &&& 0xDF).getLsbD 7 = false) (hlost : ∀ n < 18, (s.link n).state ≠ .lost)
include h hlost

theorem routeChange_route : exec (.routeChange pkg entry) s = .next ((s.changing pkg (entry &&& 0xDF)).reroute pkg) := by
  have hfixed : (List.range 18).foldl (fun s n => if (s.link n).state = .lost then
      (s.returnFlits n (slotsTo pkg)).returnFar (fun f => decide (f.link = n ∧ f.pkg = pkg)) else s) s = s :=
    foldl_of_fixed fun n hn => if_neg (hlost n (List.mem_range.1 hn))
  refine (if_neg (by rw [h]; decide)).trans ?_
  rw [hfixed]
  rfl

/-- While the old route owes something, the old entry stands. -/
theorem routeChange_waits (howes : ∃ n ∈ s.routes pkg, s.owes n pkg = true) :
    exec (.routeChange pkg entry) s = .next (s.changing pkg (entry &&& 0xDF)) := by
  have hany : ((s.changing pkg (entry &&& 0xDF)).routes pkg).any (fun n => (s.changing pkg (entry &&& 0xDF)).owes n pkg) = true := List.any_eq_true.2 howes
  rw [routeChange_route s pkg h hlost, State.reroute, s.changing_find?]
  simp only [hany, if_true]

theorem routeChange_made (howes : ∀ n ∈ s.routes pkg, s.owes n pkg = false) : exec (.routeChange pkg entry) s =
    .next ((((Table.find? s.rerouting pkg).map Reroute.held).getD []).foldl (fun s h => s.sendHeld pkg h) (s.changed pkg (entry &&& 0xDF))) := by
  have hany : ((s.changing pkg (entry &&& 0xDF)).routes pkg).any (fun n => (s.changing pkg (entry &&& 0xDF)).owes n pkg) = false :=
    List.any_eq_false.2 fun n hn => Bool.eq_false_iff.1 (howes n hn)
  rw [routeChange_route s pkg h hlost, State.reroute, s.changing_find?]
  simp only [hany, Bool.false_eq_true, if_false]
  rfl

end Change

end Route

/-! ### A die is lost (R238) -/

/-- The record of a group on a die that is lost. -/
def Group.fallen (die : Nat) (r : Group) : Group :=
  if (r.state = .resident ∨ r.state = .unbinding) ∧ r.die = die then { r with state := .retired, granted := false, lost := true } else r

/-- Of a list of groups, those that stood on a die are RETIRED, their die lost. -/
def Fallen (die : Nat) (gs hs : Table Group) : Prop :=
  ∀ g ∈ gs, (g.2.state = .resident ∨ g.2.state = .unbinding) → g.2.die = die → ∃ h ∈ hs, h.1 = g.1 ∧ h.2.state = .retired ∧ h.2.lost = true

theorem fallen_map (die : Nat) (gs : Table Group) : Fallen die gs (gs.map fun g => (g.1, g.2.fallen die)) := fun g hg hs hd =>
  ⟨_, List.mem_map.2 ⟨g, hg, rfl⟩, rfl, by simp [Group.fallen, hs, hd]⟩

theorem Fallen.map {die : Nat} {gs hs : Table Group} (h : Fallen die gs hs) (die' : Nat) : Fallen die gs (hs.map fun g => (g.1, g.2.fallen die')) :=
  fun g hg hst hd => by
    obtain ⟨r, hr, hk, hret, hlost⟩ := h g hg hst hd
    exact ⟨_, List.mem_map.2 ⟨r, hr, rfl⟩, hk, by simp [Group.fallen, hret, hlost]⟩

section DieLoss

variable (s : State)

theorem map_fallen_eq_self {die : Nat} {gs : Table Group} (h : ∀ g ∈ gs, (g.2.state = .resident ∨ g.2.state = .unbinding) → g.2.die ≠ die) :
    gs.map (fun g => (g.1, g.2.fallen die)) = gs :=
  (List.map_congr_left fun g hg => by rw [Group.fallen, if_neg fun hst => h g hg hst.1 hst.2, id]).trans (List.map_id gs)

theorem State.setLaunch_launch?_same (l : Nat) (x : Launch) : (s.setLaunch l x).launch? l = some x := Table.find?_insert_same _ _ _

theorem State.setLaunch_launch?_other {l m : Nat} (h : m ≠ l) (x : Launch) : (s.setLaunch l x).launch? m = s.launch? m :=
  Table.find?_insert_other _ _ h

theorem State.dieLaunch_keeps (d l : Nat) : (s.dieLaunch d l).dies = s.dies ∧ (s.dieLaunch d l).pkg = s.pkg := by
  simp only [State.dieLaunch]
  split
  · exact ⟨rfl, rfl⟩
  · split
    · exact ⟨rfl, rfl⟩
    · have record (t : State) (ctx : Nat) (w : List Word) := (t.errorRecord_recorded ctx 4 w).toInside
      exact ⟨(record _ _ _).dies, (record _ _ _).pkg⟩

theorem State.dieLaunch_other {d l m : Nat} (h : m ≠ l) : ((s.dieLaunch d l).launch? m).map Launch.groups = (s.launch? m).map Launch.groups := by
  simp only [State.dieLaunch]
  split
  · rfl
  · split
    · rfl
    · rw [(State.errorRecord_recorded _ _ _ _).groups, s.setLaunch_launch?_other h]

theorem State.dieLaunch_same (d l : Nat) : ((s.dieLaunch d l).launch? l).map Launch.groups =
    (s.launch? l).map fun x => x.groups.map fun g => (g.1, g.2.fallen (s.globalDie d)) := by
  cases hx : s.launch? l with
  | none => simp [State.dieLaunch, hx]
  | some x =>
    simp only [State.dieLaunch, hx]
    split
    · next hnone => 
      have hstand : ∀ g ∈ x.groups, (g.2.state = .resident ∨ g.2.state = .unbinding) → g.2.die ≠ s.globalDie d := by simpa using hnone
      simp [hx, map_fallen_eq_self hstand]
    · rw [(State.errorRecord_recorded _ _ _ _).groups]
      simp [State.setLaunch_launch?_same, Group.fallen]

theorem State.inboxBack_inside (ctx : Nat) (at_ : Word) (l : List InMsg) : Inside s (s.inboxBack ctx at_ l) := by
  induction l generalizing s with
  | nil => exact .refl s
  | cons m l ih => exact (ih _).comp (s.returned_inside _ _ _ _ _ _ _ _)

theorem State.layBack_inside (ctx : Nat) : Inside s (s.layBack ctx) := by
  simp only [State.layBack]
  refine Inside.comp (.foldl (fun s e => s.toRetired_inside _ _ _ _) _ _) ?_
  split
  · exact .refl s
  · exact s.modCtx_inside _ _ fun _ => .of_eq rfl rfl

/-- What a lost core ran is undone and its messages come back: the package before the core itself is gone. -/
def State.coreBack (k ctx : Nat) : State :=
  let s1 := (s.undoFiring k).leaveSvc k
  (s1.dropAll ctx ((s1.core k).holders.flatMap Firing.refs)).inboxBack ctx (s.coordW k) (s1.core k).inbox

theorem State.coreBack_inside (k ctx : Nat) : Inside s (s.coreBack k ctx) :=
  .comp (State.inboxBack_inside _ _ _ _) <| .comp (State.dropAll_recorded _ _ _).toInside (.comp (State.leaveSvc_recorded _ k).toInside (s.undoFiring_inside k))

theorem State.loseCore_of_ctx {k ctx : Nat} (h : (s.core k).ctx = some ctx) : Inside ((s.coreBack k ctx).setCore k Core.fresh) (s.loseCore k) := by
  have waits := State.modCtx_inside ((s.coreBack k ctx).setCore k Core.fresh) ctx (fun x => { x with events := x.events.map (fun e =>
    (e.1, { e.2 with waiters := e.2.waiters.filter (fun w => decide (w ≠ .core k)) })) }) fun _ => .of_eq rfl rfl
  simp only [State.loseCore, h]
  split
  · exact waits.trans (State.wakeWorld_recorded _ ctx).toInside
  · exact waits

theorem State.loseCore_of_free {k : Nat} (h : (s.core k).ctx = none) : s.loseCore k = s.setCore k Core.fresh := by simp [State.loseCore, h]

theorem State.setCore_fresh_inside (k : Nat) : Inside s (s.setCore k Core.fresh) :=
  (s.setCore_recorded k _ ⟨fun _ => rfl, fun _ => rfl⟩).toInside

theorem State.loseCore_inside (k : Nat) : Inside s (s.loseCore k) := by
  cases hc : (s.core k).ctx with
  | none => exact s.loseCore_of_free hc ▸ s.setCore_fresh_inside k
  | some ctx => exact ((s.coreBack_inside k ctx).trans (State.setCore_fresh_inside _ k)).trans (s.loseCore_of_ctx hc)

/-- A core serves no context and runs nothing. -/
structure Core.Gone (c : Core) : Prop where
  ctx : c.ctx = none
  idle : c.run = .idle

theorem Core.Gone.stays {c d : Core} (h : c.Gone) (g : c.Stays d) : d.Gone := ⟨g.ctx h.ctx, g.idle h.idle⟩

theorem Core.fresh_gone : Core.fresh.Gone := ⟨rfl, rfl⟩

theorem State.loseCore_gone (k : Nat) : ((s.loseCore k).core k).Gone := by
  cases hc : (s.core k).ctx with
  | none => rw [s.loseCore_of_free hc, State.setCore_core_same]; exact Core.fresh_gone
  | some ctx =>
    refine Core.Gone.stays ?_ ((s.loseCore_of_ctx hc).core k)
    rw [State.setCore_core_same]
    exact Core.fresh_gone

theorem State.dieLost_inside (d ctx : Nat) : Inside s (s.dieLost d ctx) := (s.ctxEvent_inside ctx _).trans (State.poison_inside _ _ _)

/-- A context has heard, in an event DIE_LOST, that die d of a package is lost. -/
def Ctx.HeardDie (x : Ctx) (pkg d : Nat) : Prop := ∃ e ∈ x.pending, e.regs.take 2 = [0x41, BitVec.ofNat 64 (pkg * 8192 + d * 1024)]

theorem Ctx.HeardDie.hears {x y : Ctx} {pkg d : Nat} (h : x.HeardDie pkg d) (g : x.Hears y) : y.HeardDie pkg d := by
  obtain ⟨e, he, hr⟩ := h
  exact ⟨e, g.pending.subset he, hr⟩

theorem State.dieLost_heard (d ctx : Nat) : ((s.dieLost d ctx).ctx ctx).HeardDie s.pkg.toNat d := by
  refine Ctx.HeardDie.hears (x := (s.ctxEvent ctx _).ctx ctx) ?_ ((State.poison_inside _ _ _).ctx ctx)
  rw [State.ctxEvent, State.modCtx_ctx_same]
  exact ⟨_, List.mem_append_right _ (List.mem_singleton_self _), rfl⟩

/-! ### The steps of DIE_LOSS -/

/-- The die is lost, with the groups bound to it. -/
def State.groupsFall (d : Nat) : State :=
  let s1 := s.setDie d { s.die d with lost := true, binds := [] }
  (s1.launches.map Prod.fst).foldl (State.dieLaunch d) s1

/-- Its cores are gone. -/
def State.coresFall (d : Nat) : State := ((s.cores.map Prod.fst).filter (fun k => decide (coreDie k = d))).foldl State.loseCore s

/-- And with them what served them, and the scans of its groups. -/
def State.partsFall (d : Nat) : State := { s with
  clusters := s.clusters.filter (fun p => decide (p.1 / 128 ≠ d)), engines := s.engines.filter (fun p => decide (p.1 / 4 ≠ d)),
  ctxs := s.ctxs.map (fun p => (p.1, { p.2 with scans := p.2.scans.filter (fun t => match s.launch? t.launch with
    | some x => !(x.group t.group).lost
    | none => true) })) }

/-- Contexts are told. -/
def State.dieTold (d : Nat) (told : List Nat) : State := told.foldl (State.dieLost d) ((s.ctxs.map Prod.fst).foldl State.layBack s)

/-- What waited on the die raises PEER_LOST. -/
def State.dieFails : State := ((s.cores.map Prod.fst).foldl State.failEvent s).failRemotes

theorem dieLoss_eq {d : Nat} (h : (s.die d).lost = false) : exec (.dieLoss d) s =
    .next ((((s.groupsFall d).coresFall d).partsFall d).dieTold d (distinct (s.cores.filterMap fun p => p.2.ctx))).dieFails :=
  if_neg (by simp [h])

theorem State.groupsFall_keeps (d : Nat) :
    (s.groupsFall d).dies = (s.setDie d { s.die d with lost := true, binds := [] }).dies ∧ (s.groupsFall d).pkg = s.pkg :=
  foldl_related (R := fun s t : State => t.dies = s.dies ∧ t.pkg = s.pkg) (f := State.dieLaunch d) (fun _ => ⟨rfl, rfl⟩)
    (fun h g => ⟨g.1.trans h.1, g.2.trans h.2⟩) (fun s l => s.dieLaunch_keeps d l) _ (s.setDie d { s.die d with lost := true, binds := [] })

theorem State.groupsFall_groups (d : Nat) {l : Nat} {x : Launch} (hx : s.launch? l = some x) :
    ∃ hs, ((s.groupsFall d).launch? l).map Launch.groups = some hs ∧ Fallen (s.globalDie d) x.groups hs := by
  refine foldl_establishes (I := fun t : State => t.pkg = s.pkg ∧ (t.launch? l).map Launch.groups = some x.groups) (f := State.dieLaunch d)
    (P := fun t : State => ∃ hs, (t.launch? l).map Launch.groups = some hs ∧ Fallen (s.globalDie d) x.groups hs)
    (Table.mem_keys_of_find? hx) (fun t m _ hm ⟨hpkg, hgroups⟩ => ?_) (fun t ⟨hpkg, hgroups⟩ => ?_) (fun t m _ ⟨hs, hgroups, hfallen⟩ => ?_) ⟨rfl, ?_⟩
  · exact ⟨(t.dieLaunch_keeps d m).2.trans hpkg, (t.dieLaunch_other (Ne.symm hm)).trans hgroups⟩
  · have hdie : t.globalDie d = s.globalDie d := by rw [State.globalDie, State.globalDie, hpkg]
    obtain ⟨y, hy, hgs⟩ := Option.map_eq_some_iff.1 hgroups
    refine ⟨y.groups.map fun g => (g.1, g.2.fallen (t.globalDie d)), (t.dieLaunch_same d l).trans (by rw [hy]; rfl), ?_⟩
    rw [hdie, hgs]
    exact fallen_map _ _
  · by_cases hm : l = m
    · subst hm
      obtain ⟨y, hy, hgs⟩ := Option.map_eq_some_iff.1 hgroups
      exact ⟨_, (t.dieLaunch_same d l).trans (by rw [hy]; rfl), hgs ▸ hfallen.map _⟩
    · exact ⟨hs, (t.dieLaunch_other hm).trans hgroups, hfallen⟩
  · exact congrArg (Option.map Launch.groups) hx

theorem State.coresFall_inside (d : Nat) : Inside s (s.coresFall d) := .foldl State.loseCore_inside _ s

theorem State.coresFall_gone {d k : Nat} (hk : k / 1024 = d) : ((s.coresFall d).core k).Gone := by
  by_cases hlisted : k ∈ s.cores.map Prod.fst
  · exact foldl_establishes (I := fun _ => True) (P := fun t : State => (t.core k).Gone)
      (List.mem_filter.2 ⟨hlisted, decide_eq_true hk⟩) (fun _ _ _ _ _ => trivial) (fun t _ => t.loseCore_gone k)
      (fun t m _ h => h.stays ((t.loseCore_inside m).core k)) trivial
  · have hfresh : (s.core k).Gone := by
      cases hf : Table.find? s.cores k with
      | none => rw [State.core, Table.get_eq_find?, hf]; exact Core.fresh_gone
      | some c => exact absurd (Table.mem_keys_of_find? hf) hlisted
    exact hfresh.stays ((s.coresFall_inside d).core k)

theorem State.partsFall_inside (d : Nat) : Inside s (s.partsFall d) := by
  have scans := s.mapCtxs_inside (fun _ x => { x with scans := x.scans.filter (fun t => match s.launch? t.launch with
    | some x => !(x.group t.group).lost
    | none => true) }) fun _ _ => .of_eq rfl rfl
  exact scans.trans (Recorded.of_frame rfl).toInside

theorem State.dieTold_inside (d : Nat) (told : List Nat) : Inside s (s.dieTold d told) :=
  (Inside.foldl State.layBack_inside _ s).trans (.foldl (fun t c => t.dieLost_inside d c) told _)

theorem State.dieTold_heard {d c : Nat} {told : List Nat} (h : c ∈ told) : ((s.dieTold d told).ctx c).HeardDie s.pkg.toNat d := by
  refine foldl_establishes (I := fun t : State => t.pkg = s.pkg) (P := fun t : State => (t.ctx c).HeardDie s.pkg.toNat d) h
    (fun t m _ _ ht => (t.dieLost_inside d m).pkg.trans ht) (fun t ht => ht ▸ t.dieLost_heard d c)
    (fun t m _ hh => hh.hears ((t.dieLost_inside d m).ctx c)) (Inside.foldl State.layBack_inside _ s).pkg

theorem State.dieFails_inside : Inside s s.dieFails := (Inside.foldl State.failEvent_inside _ s).trans (State.failRemotes_inside _)

end DieLoss

/-! ### The parts of the obligation -/

section Parts

variable (s : State)

/-- A lost die keeps no core, no group and no bind, and every context with cores is told. -/
theorem dieLoss_falls {d : Nat} (h : (s.die d).lost = false) : ∃ t, exec (.dieLoss d) s = .next t ∧ (t.die d).lost = true ∧ (t.die d).binds = [] ∧
    (∀ k, k / 1024 = d → (t.core k).ctx = none ∧ (t.core k).run = .idle) ∧
    (∀ p ∈ s.cores, ∀ c, p.2.ctx = some c → ∃ e ∈ (t.ctx c).pending, e.regs.take 2 = [0x41, BitVec.ofNat 64 (s.pkg.toNat * 8192 + d * 1024)]) ∧
    (∀ l x, s.launch? l = some x → ∃ y, t.launch? l = some y ∧ ∀ g ∈ x.groups, (g.2.state = .resident ∨ g.2.state = .unbinding) → d < 8 →
      g.2.die = s.pkg.toNat * 8 + d → ∃ g' ∈ y.groups, g'.1 = g.1 ∧ g'.2.state = .retired ∧ g'.2.lost = true) := by
  refine ⟨_, dieLoss_eq s h, ?_⟩
  obtain ⟨hdies, hpkg⟩ := s.groupsFall_keeps d
  have hgroups := fun l x => s.groupsFall_groups d (l := l) (x := x)
  generalize s.groupsFall d = s2 at hdies hpkg hgroups ⊢
  have cores := s2.coresFall_inside d
  have hgone := fun k => s2.coresFall_gone (d := d) (k := k)
  generalize s2.coresFall d = s3 at cores hgone ⊢
  have parts := s3.partsFall_inside d
  generalize s3.partsFall d = s4 at parts ⊢
  have told := s4.dieTold_inside d (distinct (s.cores.filterMap fun p => p.2.ctx))
  have hheard := fun c => s4.dieTold_heard (d := d) (c := c) (told := distinct (s.cores.filterMap fun p => p.2.ctx))
  generalize s4.dieTold d _ = s5 at told hheard ⊢
  have fails := s5.dieFails_inside
  have later := (parts.trans told).trans fails
  have all := cores.trans later
  have hdie := all.dies.trans hdies
  refine ⟨by simp [State.die, hdie, State.setDie], by simp [State.die, hdie, State.setDie], fun k hk => ?_, fun p hp c hc => ?_, fun l x hx => ?_⟩
  · obtain ⟨hctx, hidle⟩ := (hgone k hk).stays (later.core k)
    exact ⟨hctx, hidle⟩
  · have hmem : c ∈ distinct (s.cores.filterMap fun p => p.2.ctx) := mem_distinct (List.mem_filterMap.2 ⟨p, hp, hc⟩)
    have hsame : s4.pkg = s.pkg := (parts.pkg.trans cores.pkg).trans hpkg
    exact hsame ▸ (hheard c hmem).hears (fails.ctx c)
  · obtain ⟨hs, hmap, hfallen⟩ := hgroups l x hx
    obtain ⟨y, hy, rfl⟩ := Option.map_eq_some_iff.1 ((all.groups l).trans hmap)
    refine ⟨y, hy, fun g hg hstate hd hat => hfallen g hg hstate ?_⟩
    rw [hat, State.globalDie, Nat.mod_eq_of_lt hd]

section Change

variable {pkg : Nat} {entry : BitVec 8} (h : (entry &&& 0xDF).getLsbD 7 = false) (hlost : ∀ n < 18, (s.link n).state ≠ .lost)
include h hlost

/-- Once the old route owes nothing the new entry stands in every die's table; what was held goes on. -/
theorem routeChange_stands (howes : ∀ n ∈ s.routes pkg, s.owes n pkg = false) : ∃ t, exec (.routeChange pkg entry) s = .next t ∧
    (∀ d < 8, Table.get 0x80 (t.die d).routes pkg = entry &&& 0xDF ∧
      ∀ p, p ≠ pkg → Table.get 0x80 (t.die d).routes p = Table.get 0x80 (s.die d).routes p) ∧
    Table.find? t.rerouting pkg = none ∧
    (((Table.find? s.rerouting pkg).map Reroute.held).getD [] = [] → pkg ∉ t.lostPkgs ∧ t.cores = s.cores ∧ t.links = s.links) := by
  refine ⟨_, routeChange_made s pkg h hlost howes, ?_⟩
  have hframe : s.changed pkg (entry &&& 0xDF) = { s.changing pkg (entry &&& 0xDF) with
      rerouting := Table.erase (s.changing pkg (entry &&& 0xDF)).rerouting pkg, dies := (s.changed pkg (entry &&& 0xDF)).dies } :=
    State.setRoutes_frame _ _ _
  have hget : ∀ d < 8, _ := fun d hd => State.setRoutes_get
    { s.changing pkg (entry &&& 0xDF) with rerouting := Table.erase (s.changing pkg (entry &&& 0xDF)).rerouting pkg } pkg (entry &&& 0xDF) hd
  have sent := Returns.foldl (fun s h => s.sendHeld_returns pkg h) (((Table.find? s.rerouting pkg).map Reroute.held).getD [])
    (s.changed pkg (entry &&& 0xDF))
  refine ⟨fun d hd => ?_, sent.settled pkg ?_, fun hnone => ?_⟩
  · rw [State.die, sent.dies]
    exact hget d hd
  · rw [hframe]
    exact Table.find?_erase_same _ _
  · rw [hnone, List.foldl_nil, hframe]
    exact ⟨by simp [State.changing], rfl, rfl⟩

end Change

/-- Traffic for an id whose route changes is held, behind what is held already. -/
theorem State.changing_sendWire (pkg : Nat) (e : BitVec 8) (d : Nat) (carry : Bool) (x : List (BitVec 640)) :
    ∃ u, (s.changing pkg e).sendWire d carry pkg x = some u ∧ u.links = s.links ∧ Table.find? u.rerouting pkg =
      some { entry := e, held := ((Table.find? s.rerouting pkg).map Reroute.held).getD [] ++ [⟨d, carry, x⟩] } := by
  rw [State.sendWire, s.changing_find?]
  exact ⟨_, rfl, rfl, Table.find?_insert_same _ _ _⟩

/-- An entry that becomes UNREACH stands at once, and the id is lost. -/
theorem routeChange_loses (pkg : Nat) {entry : BitVec 8} (h : (entry &&& 0xDF).getLsbD 7 = true) : ∃ t, exec (.routeChange pkg entry) s = .next t ∧
    pkg ∈ t.lostPkgs ∧ ∀ d < 8, Table.get 0x80 (t.die d).routes pkg = entry &&& 0xDF := by
  obtain ⟨hlost, hdies⟩ := State.peerLoss_loses _ pkg (s.setRoutes_unreach pkg h)
  refine ⟨_, routeChange_unreach s pkg h, hlost, fun d hd => ?_⟩
  rw [State.die, hdies]
  exact (s.setRoutes_get pkg _ hd).1

theorem peerLoss_none {pkg : Nat} (h : pkg ∈ s.lostPkgs ∨ s.overdue pkg = false ∨ ∃ d < 8, (s.routeOf d pkg).isSome = true) :
    exec (.peerLoss pkg) s = .next s := by
  have hexec : exec (.peerLoss pkg) s = if s.overdue pkg then .next (s.peerLoss pkg) else .next s := rfl
  rw [hexec]
  rcases h with hlost | hsoon | hroute
  · rw [s.peerLoss_of_known pkg (.inl hlost), ite_self]
  · rw [if_neg (by simp [hsoon])]
  · rw [s.peerLoss_of_known pkg (.inr hroute), ite_self]

end Parts

/-- Settles O27: what comes back leaves routes and launches alone, and takes from no context what it has heard; the rest is what each event writes. -/
theorem routesAndLosses : Obligations.RoutesAndLosses := by
  unfold Obligations.RoutesAndLosses
  refine ⟨?_, ?_, fun d s => ⟨fun h => if_pos h, dieLoss_falls s⟩⟩
  · intro pkg entry s e o routes noneLost held
    have hbit : (entry &&& 0xDF).getLsbD 7 = entry.getLsbD 7 := by rw [BitVec.getLsbD_and]; exact Bool.and_true _
    refine ⟨fun h hlost howes => ⟨_, routeChange_waits s pkg (hbit.trans h) hlost howes, rfl, rfl, s.changing_find? pkg _⟩,
      fun h hlost howes => routeChange_stands s (hbit.trans h) hlost howes, fun d carry x h hlost howes => ?_,
      fun h => routeChange_loses s pkg (hbit.trans h)⟩
    obtain ⟨u, hu⟩ := s.changing_sendWire pkg e d carry x
    exact ⟨_, u, routeChange_waits s pkg (hbit.trans h) hlost howes, hu⟩
  · intro pkg s
    refine ⟨peerLoss_none s, fun hp hdue hroute => ?_⟩
    have hr := (s.routes_eq_nil pkg).2 hroute
    refine ⟨⟨_, if_pos hdue, (s.peerLoss_loses pkg hr).1⟩, ?_⟩
    intro n sender hidx ctx launch seq regs held target hn _ hs hfrom hc hh hl hregs ht hto hlost x hsent hheld hcarry hback hfar hstill _ hothers _ htold
    have hempty : ∀ m < 18, m ≠ n → (s.link m).Empty := fun m hm hne => by
      obtain ⟨h1, h2, h3⟩ := hothers m hm hne
      exact ⟨h1, h2, h3⟩
    obtain ⟨⟨⟨e, rest, hpending, hevent⟩, hnotice⟩, hgone⟩ :=
      s.peerLoss_letter hregs ht hs hh hc hl hto hfrom hn ⟨hlost, hsent, hheld, hcarry, hback⟩ hfar hempty htold hp hr hstill
    exact ⟨_, e, rest, if_pos hdue, hpending, hevent, hnotice, hgone.sent, hgone.holding⟩

end Sys2Proof.Machine
end

section
/-! SUPPORT. The fields of an instruction word (15 R242-R246): a word is the one that `mkWord` makes of its head and its bits 49:0, these are what
`bodyR` or `bodyI` makes of its fields, and a specifier or a code of the tables is read as exactly what it is the code of. -/

namespace Sys2Proof

/-! ### Specifiers and codes -/

theorem Opnd.code_lt (o : Opnd) : o.code < 4096 := by
  cases o <;> simp only [Opnd.code] <;> omega

theorem Opnd.ofCode_code (o : Opnd) : Opnd.ofCode o.code = some o := by
  cases o with
  | lane | core | gcoord | gtb | sink => rfl
  | x i | y i | l i | v i | port i | imm i | k i =>
    simp (disch := omega) [Opnd.code, Opnd.ofCode, Nat.add_div_of_dvd_right, Nat.div_eq_of_lt, Nat.mod_eq_of_lt, Nat.add_mod]
  | ring h c =>
    have hcls : (0xA00 + 32 * h.val + c.val) / 512 = 5 := by omega
    have hh : (0xA00 + 32 * h.val + c.val) % 512 / 32 = h.val := by omega
    have hc : (0xA00 + 32 * h.val + c.val) % 512 % 32 = c.val := by omega
    simp [Opnd.code, Opnd.ofCode, hcls, hh, hc, Fin.ext_iff, Fin.ofNat]

theorem Opnd.code_of_ofCode {n : Nat} {o : Opnd} (h : Opnd.ofCode n = some o) : n = o.code := by
  unfold Opnd.ofCode at h
  simp only at h
  split at h <;> (try split_ifs at h) <;> cases h <;> simp only [Opnd.code, Fin.ofNat, BitVec.toNat_ofNat] <;> omega

@[simp] theorem Opnd.ofCode_eq_some {n : Nat} {o : Opnd} : Opnd.ofCode n = some o ↔ n = o.code :=
  ⟨Opnd.code_of_ofCode, fun h => h ▸ o.ofCode_code⟩

@[simp] theorem VTy.ofCode_eq_some {n : Nat} {t : VTy} : VTy.ofCode n = some t ↔ n = t.code := by
  unfold VTy.ofCode
  split <;> cases t <;> simp_all [VTy.code]

@[simp] theorem RM.ofCode_eq_some {n : Nat} {r : RM} : RM.ofCode n = some r ↔ n = r.code := by
  unfold RM.ofCode
  split <;> cases r <;> simp_all [RM.code]

@[simp] theorem Width.ofCode_eq_some {n : Nat} {x : Width} : Width.ofCode n = some x ↔ n = x.code := by
  unfold Width.ofCode
  split <;> cases x <;> simp_all [Width.code]

@[simp] theorem LaneW.ofCode_eq_some {n : Nat} {x : LaneW} : LaneW.ofCode n = some x ↔ n = x.code := by
  unfold LaneW.ofCode
  split <;> cases x <;> simp_all [LaneW.code]

@[simp] theorem ScanOp.ofCode_eq_some {n : Nat} {o : ScanOp} : ScanOp.ofCode n = some o ↔ n = o.code := by
  unfold ScanOp.ofCode
  split <;> cases o <;> simp_all [ScanOp.code]

@[simp] theorem JScope.ofCode_eq_some {n : Nat} {x : JScope} : JScope.ofCode n = some x ↔ n = x.code := by
  unfold JScope.ofCode
  split <;> cases x <;> simp_all [JScope.code]

@[simp] theorem OScope.ofCode_eq_some {n : Nat} {x : OScope} : OScope.ofCode n = some x ↔ n = x.code := by
  unfold OScope.ofCode
  split <;> cases x <;> simp_all [OScope.code]

@[simp] theorem Strength.ofCode_eq_some {n : Nat} {x : Strength} : Strength.ofCode n = some x ↔ n = x.code := by
  unfold Strength.ofCode
  split <;> cases x <;> simp_all [Strength.code]

theorem VTy.code_lt (t : VTy) : t.code < 16 := by cases t <;> decide
theorem RM.code_lt (r : RM) : r.code < 4 := by cases r <;> decide
theorem Width.code_lt (x : Width) : x.code < 8 := by cases x <;> decide
theorem LaneW.code_lt (x : LaneW) : x.code < 4 := by cases x <;> decide
theorem ScanOp.code_lt (o : ScanOp) : o.code < 4 := by cases o <;> decide
theorem JScope.code_lt (x : JScope) : x.code < 4 := by cases x <;> decide
theorem OScope.code_lt (x : OScope) : x.code < 4 := by cases x <;> decide
theorem Strength.code_lt (x : Strength) : x.code < 4 := by cases x <;> decide

/-! ### Bits of a word -/

section Word

variable {w : Word} {sp b : Bool} {bm : BitVec 3} {opc body i n : Nat}

theorem fld_lt (w : Word) (hi lo : Nat) : fld w hi lo < 2 ^ (hi + 1 - lo) := Nat.mod_lt _ (Nat.two_pow_pos _)

/-- A field of a field. -/
theorem fld_within (w : Word) {hi lo : Nat} (top low : Nat) (hlo : low ≤ lo) (hhi : hi ≤ top) (h : lo ≤ hi + 1) :
    fld w hi lo = fld w top low / 2 ^ (lo - low) % 2 ^ (hi + 1 - lo) := by
  have hwidth : top + 1 - low = (lo - low) + (top + 1 - lo) := by omega
  have hshift : 2 ^ lo = 2 ^ low * 2 ^ (lo - low) := by rw [← Nat.pow_add, Nat.add_sub_cancel' hlo]
  unfold fld
  rw [hwidth, Nat.pow_add, Nat.mod_mul_right_div_self, Nat.mod_mod_of_dvd _ (Nat.pow_dvd_pow 2 (by omega)), Nat.div_div_eq_div_mul,
    ← hshift]

@[simp] theorem flagOf_eq : flagOf w i = b ↔ fld w i i = b.toNat := by
  have hlt : fld w i i < 2 := by simpa using fld_lt w i i
  cases b <;> simp [flagOf]
  omega

@[simp] theorem ofNat_fld_eq {k hi lo : Nat} (h : hi + 1 - lo = k) {v : BitVec k} : BitVec.ofNat k (fld w hi lo) = v ↔ fld w hi lo = v.toNat := by
  have hlt : fld w hi lo < 2 ^ k := h ▸ fld_lt w hi lo
  rw [← BitVec.toNat_inj, BitVec.toNat_ofNat, Nat.mod_eq_of_lt hlt]

/-- A word by its head and its bits 49:0 (15 R242). -/
theorem eq_mkWord_iff (hopc : opc < 1024) (hbody : body < 2 ^ 50) :
    w = mkWord sp bm opc body ↔ spOf w = sp ∧ bmOf w = bm ∧ opcOf w = opc ∧ fld w 49 0 = body := by
  have hbm : bmOf w = bm ↔ fld w 62 60 = bm.toNat := ofNat_fld_eq rfl
  have hsp : spOf w = sp ↔ fld w 63 63 = sp.toNat := flagOf_eq
  have hsum : sp.toNat * 2 ^ 63 + bm.toNat * 2 ^ 60 + opc * 2 ^ 50 + body < 2 ^ 64 := by
    have := sp.toNat_lt
    omega
  rw [hbm, hsp, mkWord, ← BitVec.toNat_inj, BitVec.toNat_ofNat, Nat.mod_eq_of_lt hsum, opcOf]
  unfold fld
  have := sp.toNat_lt
  omega

/-- Bits 49:0 of an F-R word by its fields (15 R245). -/
theorem fld_eq_bodyR {md : Nat} {d a b : Opnd} :
    fld w 49 0 = bodyR md d.code a.code b.code ↔ fld w 49 36 = md ∧ dR w = some d ∧ aR w = some a ∧ bR w = some b := by
  have hbody := fld_lt w 49 0
  have hd := d.code_lt
  have ha := a.code_lt
  have hb := b.code_lt
  simp only [dR, aR, bR, Opnd.ofCode_eq_some, fld_within w (hi := 49) (lo := 36) 49 0, fld_within w (hi := 35) 49 0, fld_within w (hi := 23) 49 0,
    fld_within w (hi := 11) 49 0, bodyR, Nat.reduceLeDiff, Nat.reduceAdd, Nat.reduceSub, Nat.reducePow, Nat.zero_le] at hbody ⊢
  omega

/-- Bits 49:0 of an F-I, F-M or F-C word by its fields (15 R245). -/
theorem fld_eq_bodyI {md : Nat} {d a : Opnd} {imm : BitVec 20} :
    fld w 49 0 = bodyI md d.code a.code imm.toNat ↔ fld w 49 44 = md ∧ dI w = some d ∧ aI w = some a ∧ immI w = imm := by
  have hbody := fld_lt w 49 0
  have hd := d.code_lt
  have ha := a.code_lt
  have himm : immI w = imm ↔ fld w 19 0 = imm.toNat := ofNat_fld_eq rfl
  have hlt := imm.isLt
  simp only [dI, aI, himm, Opnd.ofCode_eq_some, fld_within w (hi := 49) (lo := 44) 49 0, fld_within w (hi := 43) 49 0, fld_within w (hi := 31) 49 0,
    fld_within w (hi := 19) 49 0, bodyI, Nat.reduceLeDiff, Nat.reduceAdd, Nat.reduceSub, Nat.reducePow, Nat.zero_le] at hbody hlt ⊢
  omega

theorem bodyR_lt {md : Nat} (h : md < 2 ^ 14) (d a b : Opnd) : bodyR md d.code a.code b.code < 2 ^ 50 := by
  have hd := d.code_lt
  have ha := a.code_lt
  have hb := b.code_lt
  unfold bodyR
  omega

theorem bodyI_lt {md : Nat} (h : md < 2 ^ 6) (d a : Opnd) (imm : BitVec 20) : bodyI md d.code a.code imm.toNat < 2 ^ 50 := by
  have hd := d.code_lt
  have ha := a.code_lt
  unfold bodyI
  omega

/-- A word by the fields of an F-R word. -/
theorem eq_wordR_iff (hopc : opc < 1024) {md : Nat} (hmd : md < 2 ^ 14) {d a b : Opnd} :
    w = mkWord sp bm opc (bodyR md d.code a.code b.code) ↔
      spOf w = sp ∧ bmOf w = bm ∧ opcOf w = opc ∧ fld w 49 36 = md ∧ dR w = some d ∧ aR w = some a ∧ bR w = some b := by
  rw [eq_mkWord_iff hopc (bodyR_lt hmd d a b), fld_eq_bodyR]

/-- A word by the fields of an F-I, F-M or F-C word. -/
theorem eq_wordI_iff (hopc : opc < 1024) {md : Nat} (hmd : md < 2 ^ 6) {d a : Opnd} {imm : BitVec 20} :
    w = mkWord sp bm opc (bodyI md d.code a.code imm.toNat) ↔
      spOf w = sp ∧ bmOf w = bm ∧ opcOf w = opc ∧ fld w 49 44 = md ∧ dI w = some d ∧ aI w = some a ∧ immI w = imm := by
  rw [eq_mkWord_iff hopc (bodyI_lt hmd d a imm), fld_eq_bodyI]

end Word

end Sys2Proof
end

section
/-! SUPPORT. The formats of 15 R245-R253: what a format's encoder makes of its fields and an opcode is exactly what its parser reads back. -/

namespace Sys2Proof

/-- The words of a format are those that parse, each under its own opcode. -/
def Lawful {F : Type} (enc : Nat → F → Word) (dec : Word → Option F) : Prop :=
  ∀ n < 1024, ∀ w f, w = enc n f ↔ dec w = some f ∧ opcOf w = n

/-! ### F-R -/

@[simp] theorem FR.lawful : Lawful FR.enc FR.dec := by
  rintro n hn w ⟨sp, bm, d, a, b⟩
  rw [FR.enc, eq_wordR_iff hn (by decide)]
  simp [FR.dec, guard, Option.bind_eq_some_iff]
  tauto

@[simp] theorem FRC.lawful : Lawful FRC.enc FRC.dec := by
  rintro n hn w ⟨sp, bm, d, a, b, c⟩
  have hc := c.code_lt
  have hmod : fld w 49 36 = c.code ↔ fld w 49 48 = 0 ∧ cR w = some c := by
    rw [cR, Opnd.ofCode_eq_some]
    unfold fld
    omega
  rw [FRC.enc, eq_wordR_iff hn (by dsimp only; omega), hmod]
  simp [FRC.dec, guard, Option.bind_eq_some_iff]
  tauto

/-- MOD of SEND and TLD: one flag, bit 49. -/
theorem fld_eq_topFlag (w : Word) (b : Bool) : fld w 49 36 = b.toNat * 2 ^ 13 ↔ fld w 48 36 = 0 ∧ fld w 49 49 = b.toNat := by
  have := b.toNat_lt
  unfold fld
  omega

@[simp] theorem FRS.lawful : Lawful FRS.enc FRS.dec := by
  rintro n hn w ⟨sp, bm, stream, d, a, b⟩
  have := stream.toNat_lt
  rw [FRS.enc, eq_wordR_iff hn (by dsimp only; omega), fld_eq_topFlag]
  simp [FRS.dec, guard, Option.bind_eq_some_iff]
  tauto

@[simp] theorem FRT.lawful : Lawful FRT.enc FRT.dec := by
  rintro n hn w ⟨sp, bm, strict, d, a, b⟩
  have := strict.toNat_lt
  rw [FRT.enc, eq_wordR_iff hn (by dsimp only; omega), fld_eq_topFlag]
  simp [FRT.dec, guard, Option.bind_eq_some_iff]
  tauto

@[simp] theorem FRL.lawful : Lawful FRL.enc FRL.dec := by
  rintro n hn w ⟨sp, bm, lw, nt, d, a, b⟩
  have hlw := lw.code_lt
  have hnt := nt.toNat_lt
  have hmod : fld w 49 36 = lw.code * 2 ^ 12 + nt.toNat * 2 ^ 8 ↔
      (fld w 47 45 = 0 ∧ fld w 43 36 = 0) ∧ fld w 49 48 = lw.code ∧ fld w 44 44 = nt.toNat := by
    unfold fld
    omega
  rw [FRL.enc, eq_wordR_iff hn (by dsimp only; omega), hmod]
  simp [FRL.dec, guard, Option.bind_eq_some_iff]
  tauto

@[simp] theorem FA.lawful : Lawful FA.enc FA.dec := by
  rintro n hn w ⟨sp, bm, post, dbl, c, d, a, b⟩
  have hpost := post.toNat_lt
  have hdbl := dbl.toNat_lt
  have hc := c.code_lt
  have hmod : fld w 49 36 = post.toNat * 2 ^ 13 + dbl.toNat * 2 ^ 12 + c.code ↔
      fld w 49 49 = post.toNat ∧ fld w 48 48 = dbl.toNat ∧ cR w = some c := by
    rw [cR, Opnd.ofCode_eq_some]
    unfold fld
    omega
  rw [FA.enc, eq_wordR_iff hn (by dsimp only; omega), hmod]
  simp [FA.dec, Option.bind_eq_some_iff]
  tauto

theorem VMod.code_lt (m : VMod) : m.code < 2 ^ 14 := by
  have hty := m.ty.code_lt
  have hrm := m.rm.code_lt
  have hsat := m.sat.toNat_lt
  have hm := m.m.toNat_lt
  have hs := m.s.toNat_lt
  unfold VMod.code
  omega

/-- MOD of groups 0x9-0xB (15 R250). -/
theorem fld_eq_vmod (w : Word) (m : VMod) : fld w 49 36 = m.code ↔ fld w 49 46 = m.ty.code ∧ fld w 45 44 = m.rm.code ∧
    fld w 43 43 = m.sat.toNat ∧ fld w 42 42 = m.m.toNat ∧ fld w 41 41 = m.s.toNat ∧ fld w 40 36 = m.xmod.toNat := by
  have hty := m.ty.code_lt
  have hrm := m.rm.code_lt
  have hsat := m.sat.toNat_lt
  have hm := m.m.toNat_lt
  have hs := m.s.toNat_lt
  have hxmod := m.xmod.isLt
  unfold VMod.code fld
  omega

@[simp] theorem FV.lawful : Lawful FV.enc FV.dec := by
  rintro n hn w ⟨sp, bm, md, d, a, b⟩
  rw [FV.enc, eq_wordR_iff hn md.code_lt, fld_eq_vmod]
  obtain ⟨ty, rm, sat, m, s, xmod⟩ := md
  simp [FV.dec, Option.bind_eq_some_iff]
  tauto

@[simp] theorem FSC.lawful : Lawful FSC.enc FSC.dec := by
  rintro n hn w ⟨sp, bm, ty, ex, ci, sg, op, d, a, b⟩
  have hty := ty.code_lt
  have hex := ex.toNat_lt
  have hci := ci.toNat_lt
  have hsg := sg.toNat_lt
  have hop := op.code_lt
  have hmod : fld w 49 36 = ty.code * 2 ^ 10 + ex.toNat * 2 ^ 7 + ci.toNat * 2 ^ 6 + sg.toNat * 2 ^ 5 + op.code * 2 ^ 3 ↔
      (fld w 45 44 = 0 ∧ fld w 38 36 = 0) ∧ fld w 49 46 = ty.code ∧ fld w 43 43 = ex.toNat ∧ fld w 42 42 = ci.toNat ∧
      fld w 41 41 = sg.toNat ∧ fld w 40 39 = op.code := by
    unfold fld
    omega
  rw [FSC.enc, eq_wordR_iff hn (by dsimp only; omega), hmod]
  simp [FSC.dec, guard, Option.bind_eq_some_iff]
  tauto

@[simp] theorem FJoin.lawful : Lawful FJoin.enc FJoin.dec := by
  rintro n hn w ⟨sp, bm, k, j, d, a, b⟩
  have hmod : fld w 49 36 = k.toNat * 2 ^ 6 + j.toNat ↔ fld w 49 42 = k.toNat ∧ fld w 41 36 = j.toNat := by
    unfold fld
    omega
  rw [FJoin.enc, eq_wordR_iff hn (by dsimp only; omega), hmod]
  simp [FJoin.dec, Option.bind_eq_some_iff]
  tauto

@[simp] theorem FJinit.lawful : Lawful FJinit.enc FJinit.dec := by
  rintro n hn w ⟨sp, bm, scope, j, d, a, b⟩
  have hscope := scope.code_lt
  have hmod : fld w 49 36 = scope.code * 2 ^ 6 + j.toNat ↔
      fld w 49 44 = 0 ∧ fld w 43 42 = scope.code ∧ fld w 41 36 = j.toNat := by
    unfold fld
    omega
  rw [FJinit.enc, eq_wordR_iff hn (by dsimp only; omega), hmod]
  simp [FJinit.dec, guard, Option.bind_eq_some_iff]
  tauto

/-! ### F-I, F-M and F-C -/

@[simp] theorem FI.lawful : Lawful FI.enc FI.dec := by
  rintro n hn w ⟨sp, bm, d, a, imm⟩
  rw [FI.enc, eq_wordI_iff hn (by decide)]
  simp [FI.dec, guard, Option.bind_eq_some_iff]
  tauto

@[simp] theorem FM.lawful : Lawful FM.enc FM.dec := by
  rintro n hn w ⟨sp, bm, width, ext, nt, d, a, off⟩
  have hwidth := width.code_lt
  have hext := ext.toNat_lt
  have hnt := nt.toNat_lt
  have hmod : fld w 49 44 = width.code * 2 ^ 3 + ext.toNat * 2 ^ 2 + nt.toNat ↔
      fld w 45 45 = 0 ∧ fld w 49 47 = width.code ∧ fld w 46 46 = ext.toNat ∧ fld w 44 44 = nt.toNat := by
    unfold fld
    omega
  rw [FM.enc, eq_wordI_iff hn (by dsimp only; omega), hmod]
  simp [FM.dec, guard, Option.bind_eq_some_iff]
  tauto

/-- MOD of an F-M word of fixed width and of an F-C word: one flag, bit 44. -/
theorem fld_eq_lowFlag (w : Word) (b : Bool) : fld w 49 44 = b.toNat ↔ fld w 49 45 = 0 ∧ fld w 44 44 = b.toNat := by
  have := b.toNat_lt
  unfold fld
  omega

@[simp] theorem FMV.lawful : Lawful FMV.enc FMV.dec := by
  rintro n hn w ⟨sp, bm, nt, d, a, off⟩
  have := nt.toNat_lt
  rw [FMV.enc, eq_wordI_iff hn (by dsimp only; omega), fld_eq_lowFlag]
  simp [FMV.dec, guard, Option.bind_eq_some_iff]
  tauto

@[simp] theorem FML.lawful : Lawful FML.enc FML.dec := by
  rintro n hn w ⟨sp, bm, d, a, off⟩
  rw [FML.enc, eq_wordI_iff hn (by decide)]
  simp [FML.dec, guard, Option.bind_eq_some_iff]
  tauto

@[simp] theorem FC.lawful : Lawful FC.enc FC.dec := by
  rintro n hn w ⟨sp, bm, hint, a, b, disp⟩
  have := hint.toNat_lt
  rw [FC.enc, eq_wordI_iff hn (by dsimp only; omega), fld_eq_lowFlag]
  simp [FC.dec, guard, Option.bind_eq_some_iff]
  tauto

end Sys2Proof
end

section
/-! SUPPORT. The opcode map (15 R254) read in both directions: XIMM and ORD, each by itself, and every other assigned opcode as a row of the map,
with one instruction and one format. -/

namespace Sys2Proof

variable {w : Word} {i : Instr}

/-! ### XIMM and ORD -/

/-- A word of XIMM or ORD by its fields: it has neither SP nor BM (15 R256-R257, R259). -/
theorem eq_prefixWord_iff {opc body : Nat} (hopc : opc < 1024) (hbody : body < 2 ^ 50) :
    w = mkWord false 0 opc body ↔ fld w 63 60 = 0 ∧ opcOf w = opc ∧ fld w 49 0 = body := by
  have hbm : bmOf w = 0 ↔ fld w 62 60 = 0 := ofNat_fld_eq rfl
  have hsp : spOf w = false ↔ fld w 63 63 = 0 := flagOf_eq
  have hhead : fld w 63 60 = 0 ↔ spOf w = false ∧ bmOf w = 0 := by
    rw [hbm, hsp]
    unfold fld
    omega
  rw [eq_mkWord_iff hopc hbody, hhead, and_assoc]

theorem opcOf_mkWord {sp : Bool} {bm : BitVec 3} {opc body : Nat} (hopc : opc < 1024) (hbody : body < 2 ^ 50) :
    opcOf (mkWord sp bm opc body) = opc :=
  ((eq_mkWord_iff hopc hbody).1 rfl).2.2.1

theorem parseXimm_eq_ok (hopc : opcOf w = 0x001) : parseXimm w = .ok i ↔ ∃ p, i = .ximm p ∧ w = mkWord false 0 0x001 p.toNat := by
  have hword (p : BitVec 32) : w = mkWord false 0 0x001 p.toNat ↔ (fld w 63 60 = 0 ∧ fld w 49 32 = 0) ∧ BitVec.ofNat 32 (fld w 31 0) = p := by
    have hp : BitVec.ofNat 32 (fld w 31 0) = p ↔ fld w 31 0 = p.toNat := ofNat_fld_eq rfl
    rw [eq_prefixWord_iff (by decide) (by omega), hp]
    unfold fld
    omega
  simp only [hword]
  constructor
  · intro h
    unfold parseXimm at h
    split at h
    case isFalse => cases h
    case isTrue hzero =>
      cases h
      exact ⟨_, rfl, hzero, rfl⟩
  · rintro ⟨p, rfl, hzero, hp⟩
    rw [parseXimm, if_pos hzero, hp]

theorem parseOrd_eq_ok (hopc : opcOf w = 0x002) :
    parseOrd w = .ok i ↔ ∃ o : Order, i = .ord o ∧ w = mkWord false 0 0x002 (o.str.code * 4 + o.scope.code) := by
  have hword (o : Order) : w = mkWord false 0 0x002 (o.str.code * 4 + o.scope.code) ↔
      (fld w 63 60 = 0 ∧ fld w 49 4 = 0) ∧ OScope.ofCode (fld w 1 0) = some o.scope ∧ Strength.ofCode (fld w 3 2) = some o.str := by
    have hscope := o.scope.code_lt
    have hstr := o.str.code_lt
    rw [eq_prefixWord_iff (by decide) (by omega), OScope.ofCode_eq_some, Strength.ofCode_eq_some]
    unfold fld
    omega
  simp only [hword]
  constructor
  · intro h
    unfold parseOrd at h
    split at h
    case isFalse => cases h
    case isTrue hzero =>
      split at h
      case h_1 scope str hscope hstr =>
        cases h
        exact ⟨⟨scope, str⟩, rfl, hzero, hscope, hstr⟩
      case h_2 => cases h
  · rintro ⟨o, rfl, hzero, hscope, hstr⟩
    rw [parseOrd, if_pos hzero, hscope, hstr]

/-! ### Rows -/

theorem range_of_assignedOpc {n : Nat} (h : assignedOpc n = true) : 0 < n ∧ n < 1024 := by
  simp only [assignedOpc, List.any_cons, List.any_nil, Bool.or_false, Bool.or_eq_true, Bool.and_eq_true, decide_eq_true_eq] at h
  omega

/-- A row of the map: opcode `n` is that of the instruction `C`, in the format with this encoder and parser. -/
structure Row {F : Type} (n : Nat) (C : F → Instr) (enc : Nat → F → Word) (dec : Word → Option F) : Prop where
  parses : ∀ w, opcOf w = n → parse w = C <$> dec w
  encodes : ∀ f, encode (C f) = some (enc n f)
  lawful : Lawful enc dec

section Rows

variable {F : Type} {n : Nat} {C : F → Instr} {enc : Nat → F → Word} {dec : Word → Option F}

theorem Row.decode_enc (r : Row n C enc dec) (hn : assignedOpc n = true) (h2 : 2 < n) {f : F} (hwf : (C f).wf = true) :
    decode (enc n f) = .ok (C f) := by
  obtain ⟨hdec, hopc⟩ := (r.lawful n (range_of_assignedOpc hn).2 _ f).1 rfl
  have hparse : parse (enc n f) = some (C f) := by rw [r.parses _ hopc, hdec]; rfl
  rw [decode, hopc, if_neg (by omega), if_neg (by omega), if_pos hn, hparse]
  exact if_pos hwf

theorem Row.encode_of_parse (r : Row (opcOf w) C enc dec) (hn : assignedOpc (opcOf w) = true) (h : parse w = some i) :
    encode i = some w := by
  rw [r.parses w rfl] at h
  obtain ⟨f, hf, rfl⟩ := Option.map_eq_some_iff.1 h
  rw [r.encodes, ← (r.lawful _ (range_of_assignedOpc hn).2 w f).2 ⟨hf, rfl⟩]

end Rows

/-- Every assigned opcode but those of XIMM and ORD has its row. -/
theorem row_of_assignedOpc {n : Nat} (hn : assignedOpc n = true) (h2 : 2 < n) :
    ∃ (F : Type) (C : F → Instr) (enc : Nat → F → Word) (dec : Word → Option F), Row n C enc dec := by
  simp only [assignedOpc, List.any_cons, List.any_nil, Bool.or_false, Bool.or_eq_true, Bool.and_eq_true, decide_eq_true_eq] at hn
  rcases hn with ⟨hlow, htop⟩ | ⟨hlow, htop⟩ | ⟨hlow, htop⟩ | ⟨hlow, htop⟩ | ⟨hlow, htop⟩ | ⟨hlow, htop⟩ | ⟨hlow, htop⟩ | ⟨hlow, htop⟩ |
    ⟨hlow, htop⟩ | ⟨hlow, htop⟩ | ⟨hlow, htop⟩ | ⟨hlow, htop⟩ | ⟨hlow, htop⟩ | ⟨hlow, htop⟩ | ⟨hlow, htop⟩
  all_goals
    interval_cases n
    all_goals exact ⟨_, _, _, _, fun w h => by rw [parse, h]; rfl, fun _ => rfl, by simp⟩

/-! ### Decoding -/

theorem decode_of_unassigned (h : assignedOpc (opcOf w) = false) : decode w = .ok (.unassignedOpcode w) := by
  have h1 : opcOf w ≠ 0x001 := fun hopc => by simp [hopc, assignedOpc] at h
  have h2 : opcOf w ≠ 0x002 := fun hopc => by simp [hopc, assignedOpc] at h
  rw [decode, if_neg h1, if_neg h2, if_neg (by simp [h])]

/-- What a word that decodes is: XIMM or ORD, a word of a row that parses to a well-formed instruction, or a word of an unassigned opcode. -/
theorem decode_eq_ok (h : decode w = .ok i) :
    opcOf w = 0x001 ∧ parseXimm w = .ok i ∨ opcOf w = 0x002 ∧ parseOrd w = .ok i ∨
    assignedOpc (opcOf w) = true ∧ 2 < opcOf w ∧ parse w = some i ∧ i.wf = true ∨
    assignedOpc (opcOf w) = false ∧ i = .unassignedOpcode w := by
  by_cases hn : assignedOpc (opcOf w) = true
  · unfold decode at h
    split_ifs at h with h1 h2
    · exact .inl ⟨h1, h⟩
    · exact .inr (.inl ⟨h2, h⟩)
    · have hpos := (range_of_assignedOpc hn).1
      split at h
      · split_ifs at h with hwf
        cases h
        exact .inr (.inr (.inl ⟨hn, by omega, ‹_›, hwf⟩))
      · cases h
  · rw [Bool.not_eq_true] at hn
    rw [decode_of_unassigned hn] at h
    cases h
    exact .inr (.inr (.inr ⟨hn, rfl⟩))

/-- Settles O34: each instruction but XIMM, ORD and the word of an unassigned opcode stands in its row of the map; an event has no word. -/
theorem decodeOfEncode : Obligations.DecodeOfEncode := by
  unfold Obligations.DecodeOfEncode
  intro i w hwf h
  cases i with
  | ximm p =>
    obtain rfl : mkWord false 0 0x001 p.toNat = w := Option.some.inj h
    have hopc : opcOf (mkWord false 0 0x001 p.toNat) = 0x001 := opcOf_mkWord (by decide) (by omega)
    rw [decode, if_pos hopc]
    exact (parseXimm_eq_ok hopc).2 ⟨p, rfl, rfl⟩
  | ord o =>
    obtain rfl : mkWord false 0 0x002 (o.str.code * 4 + o.scope.code) = w := Option.some.inj h
    have hscope := o.scope.code_lt
    have hstr := o.str.code_lt
    have hopc : opcOf (mkWord false 0 0x002 (o.str.code * 4 + o.scope.code)) = 0x002 := opcOf_mkWord (by decide) (by omega)
    rw [decode, if_neg (by omega), if_pos hopc]
    exact (parseOrd_eq_ok hopc).2 ⟨o, rfl, rfl⟩
  | unassignedOpcode u =>
    cases h
    exact decode_of_unassigned (by simpa [Instr.wf] using hwf)
  | _ =>
    -- An event has no word, so what is left are the instructions of the rows.
    cases h
    all_goals exact Row.decode_enc ⟨fun w h => by rw [parse, h]; rfl, fun _ => rfl, by simp⟩ (by decide) (by decide) hwf

/-- Settles O35: a word that decodes is that of XIMM or ORD, of a row, or of an unassigned opcode; each is its instruction's word. -/
theorem encodeOfDecode : Obligations.EncodeOfDecode := by
  unfold Obligations.EncodeOfDecode
  intro w i h
  obtain ⟨hopc, hx⟩ | ⟨hopc, ho⟩ | ⟨hn, h2, hp, hwf⟩ | ⟨hn, rfl⟩ := decode_eq_ok h
  · obtain ⟨p, rfl, hw⟩ := (parseXimm_eq_ok hopc).1 hx
    exact ⟨congrArg some hw.symm, rfl⟩
  · obtain ⟨o, rfl, hw⟩ := (parseOrd_eq_ok hopc).1 ho
    exact ⟨congrArg some hw.symm, rfl⟩
  · obtain ⟨F, C, enc, dec, row⟩ := row_of_assignedOpc hn h2
    exact ⟨row.encode_of_parse hn hp, hwf⟩
  · exact ⟨rfl, by simp [Instr.wf, hn]⟩

/-- Settles O33: each word is the one that its instruction encodes to. -/
theorem specWordsDecode : Obligations.SpecWordsDecode := by
  unfold Obligations.SpecWordsDecode
  refine ⟨?_, ?_, ?_, ?_, ?_, ?_, ?_, ?_, ?_, ?_, ?_, ?_, ?_, ?_, ?_⟩
  all_goals exact decodeOfEncode _ _ rfl rfl

end Sys2Proof
end

section
/-! SUPPORT. What XIMM, ORD and NOP do (15 R256-R260, 16 R275). -/

namespace Sys2Proof.Machine

/-- XIMM or ORD joins its unit, which begins at the first of them (15 R260). -/
theorem State.takePrefix_eq (s : State) (k : Nat) (f : Pfx → Pfx) :
    s.takePrefix k f = s.setCore k { s.core k with
      pfx := some (f { ximm := (s.core k).pfx.bind Pfx.ximm, ord := (s.core k).pfx.bind Pfx.ord, first := (s.core k).unitAt }),
      pc := BitVec.ofNat 64 ((s.core k).pc.toNat + 8), again := none, latch := [] } := by
  have hpc : (s.core k).pc + 8 = BitVec.ofNat 64 ((s.core k).pc.toNat + 8) := by
    rw [BitVec.ofNat_add, BitVec.ofNat_toNat, BitVec.setWidth_eq]
    rfl
  have hpfx : (s.core k).pfx.getD { ximm := none, ord := none, first := (s.core k).pc } =
      { ximm := (s.core k).pfx.bind Pfx.ximm, ord := (s.core k).pfx.bind Pfx.ord, first := (s.core k).unitAt } := by
    unfold Core.unitAt
    cases (s.core k).pfx <;> rfl
  rw [State.takePrefix, State.modCore, hpfx, hpc]

/-- Settles O2: XIMM and ORD are `State.takePrefix`; NOP runs as a word whose effect is to leave the state as it is. -/
theorem prefixesAndNop : Obligations.PrefixesAndNop := by
  unfold Obligations.PrefixesAndNop
  refine ⟨fun s p o => ⟨?_, ?_⟩, fun f s s1 m h => State.runSeq_ok h rfl⟩
  · have hexec : exec (.ximm p) s = .next (s.takePrefix s.cur fun q => { q with ximm := some p }) := rfl
    rw [hexec, State.takePrefix_eq]
    rfl
  · have hexec : exec (.ord o) s = .next (s.takePrefix s.cur fun q => { q with ord := some o }) := rfl
    rw [hexec, State.takePrefix_eq]
    rfl

end Sys2Proof.Machine
end

section
/-! SUPPORT. What a step runs (15 R255-R260, 13 R230, 14 R239), and what a word without SP leaves (16 R293). -/

namespace Sys2Proof.Machine

variable {s s1 : State} {k : Nat}

/-! ### A core's turn -/

/-- The state in which it is the turn of core `k`, listed or not. -/
def State.onTurn (s : State) (k : Nat) : State := { s with cur := k, agenda := s.agenda.tail }

/-- It is the turn of core `k`. -/
def State.HasTurn (s : State) (k : Nat) : Prop := s.agenda = [] ∧ k = s.cur ∨ ∃ rest, s.agenda = .core k :: rest

theorem step_of_hasTurn (h : s.HasTurn k) : step s = coreTurn (s.onTurn k) k := by
  unfold step
  obtain ⟨ha, rfl⟩ | ⟨rest, ha⟩ := h
  · have hself : ({ s with agenda := s.agenda.tail } : State) = s := by
      cases s
      cases ha
      rfl
    rw [ha]
    exact congrArg (coreTurn · s.cur) hself.symm
  · unfold State.onTurn
    rw [ha]
    rfl

theorem step_of_not_running (h : s.HasTurn k) (hr : (s.core k).run ≠ .running) : step s = .next (s.onTurn k) :=
  (step_of_hasTurn h).trans (if_neg hr)

theorem step_of_fetched {i : Instr} (h : s.HasTurn k) (hr : (s.core k).run = .running) (hi : (s.onTurn k).fetchInstr k = .ok (i, s1)) :
    step s = exec i s1 := by
  refine (step_of_hasTurn h).trans ((if_pos hr).trans ?_)
  change (match (s.onTurn k).fetchInstr k with | .ok (i, s2) => exec i s2 | .error s2 => .next s2) = exec i s1
  rw [hi]

theorem step_of_unfetched (h : s.HasTurn k) (hr : (s.core k).run = .running) (he : (s.onTurn k).fetchInstr k = .error s1) :
    step s = .next s1 := by
  refine (step_of_hasTurn h).trans ((if_pos hr).trans ?_)
  change (match (s.onTurn k).fetchInstr k with | .ok (i, s2) => exec i s2 | .error s2 => .next s2) = .next s1
  rw [he]

/-! ### From the pc to the instruction -/

theorem State.fetchInstr_frozen (h : s.frozen k = true) : s.fetchInstr k = .error s := if_pos h

theorem State.fetchInstr_again {i : Instr} (h : s.frozen k = false) (ha : (s.core k).again = some i) : s.fetchInstr k = .ok (i, s) := by
  simp [State.fetchInstr, h, ha]

theorem Csrs.matches_of_disabled {c : Csrs} (h : ∀ n, n < 8 → (Table.get 0 c.brka n).getLsbD 0 = false) (a : Word) : c.matches a = none := by
  refine List.find?_eq_none.2 fun n hn => ?_
  have hoff : fbit (Table.get 0 c.brka n) 0 = false := h n (List.mem_range.1 hn)
  simp only [hoff, Bool.false_and, Bool.false_eq_true, not_false_eq_true]

/-- A fetch at the pc, where no breakpoint register is enabled and none is to be skipped: the rules of prefixes, then the decoder. -/
theorem State.fetchInstr_fetched {w : Word} (hf : s.frozen k = false) (ha : (s.core k).again = none)
    (hw : s.fetchAt k (s.core k).pc = .ok (w, s1)) (hb : ∀ n, n < 8 → (Table.get 0 (s1.vs k).csr.brka n).getLsbD 0 = false)
    (he : (s1.vs k).csr.estat.getLsbD 2 = false) :
    (prefixFits (s.core k).pfx (opcOf w) = false → s.fetchInstr k = .error (s1.takeFault k .prefixBad 0 (s.core k).unitAt .fetch)) ∧
    (prefixFits (s.core k).pfx (opcOf w) = true →
      (∀ i, decode w = .ok i → s.fetchInstr k = .ok (i, s1.setCore k { s1.core k with again := some i })) ∧
      (decode w = .error .illegal → s.fetchInstr k = .error (s1.takeFault k .illegal 0 (s.core k).unitAt .fetch))) := by
  have hskip : fbit (s1.vs k).csr.estat 2 = false := he
  refine ⟨fun hp => ?_, fun hp => ⟨fun i hi => ?_, fun hi => ?_⟩⟩
  · simp [State.fetchInstr, hf, ha, hw, hskip, Csrs.matches_of_disabled hb, hp]
  · simp [State.fetchInstr, hf, ha, hw, hskip, Csrs.matches_of_disabled hb, hp, hi, State.modCore]
  · simp [State.fetchInstr, hf, ha, hw, hskip, Csrs.matches_of_disabled hb, hp, hi]

/-- Where FENCE.CODE has dropped every older word, a fetch finds memory's (21 R417). -/
theorem State.fetchAt_of_current {a : Word} {pa : Nat} (hl : (s.core k).pcc.base ≤ a.toNat) (hu : a.toNat + 8 ≤ (s.core k).pcc.top)
    (ht : s.translate k .fetch a = .ok (pa, s1)) (hh : ∀ v ∈ s1.hist, v.code = false) : s.fetchAt k a = .ok (s1.word pa, s1) := by
  have hin : (s.core k).reaches a = true := by simp [Core.reaches, XReg.outside, hl, hu]
  have hnewest : s1.fetchable pa = [s1.word pa] := by
    have hnone : s1.hist.filter (fun v => decide (v.granule = pa / 16) && v.code) = [] := List.filter_eq_nil_iff.2 fun v hv => by simp [hh v hv]
    rw [State.fetchable, hnone]
    rfl
  simp [State.fetchAt, hin, ht, bind, Except.bind, hnewest, distinct, pure, Except.pure]

/-! ### Time -/

/-- Time passes without a slew. -/
theorem State.passTime_exact {ticks : Nat} (cycles : Nat) (h : s.tbRoot = true ∨ s.tbRootOf = none ∨ s.tbLeft = 0) :
    s.passTime ticks cycles = { s with time := s.time + BitVec.ofNat 64 ticks, cycle := s.cycle + cycles } := by
  refine if_pos ?_
  rw [ite_eq_left_iff]
  intro hsteered
  obtain hr | hn | hz := h
  · simp [hr] at hsteered
  · simp [hn] at hsteered
  · simp [slewLimit, hz]

/-- A slew is at most one tick in 10,000, and no further than what is left of the offset (14 R239). -/
theorem State.passTime_slewed (s : State) (ticks cycles : Nat) : ∃ n, n ≤ ticks / 10000 ∧ n ≤ s.tbLeft.natAbs ∧
    (s.passTime ticks cycles).cycle = s.cycle + cycles ∧ (s.passTime ticks cycles).cores = s.cores ∧
    (s.passTime ticks cycles).time = s.time + BitVec.ofNat 64 (if 0 ≤ s.tbLeft then ticks + n else ticks - n) := by
  simp only [State.passTime]
  generalize hlim : (if s.tbRoot = true ∨ s.tbRootOf.isNone = true then 0 else slewLimit s.tbLeft ticks) = lim
  have hle : lim ≤ slewLimit s.tbLeft ticks := by
    rw [← hlim]
    split
    · exact Nat.zero_le _
    · exact le_rfl
  obtain ⟨hleft, hrate⟩ := le_min_iff.1 hle
  split
  · exact ⟨0, Nat.zero_le _, Nat.zero_le _, rfl, rfl, by simp⟩
  · have hn : Config.slew s.free % (lim + 1) ≤ lim := Nat.lt_succ_iff.1 (Nat.mod_lt _ (Nat.succ_pos _))
    exact ⟨_, hn.trans hrate, hn.trans hleft, rfl, rfl, rfl⟩

/-! ### Steps -/

/-- Settles O32: the turn of a core by what it fetches, that of an event by whether it has a word, that of time by its slew. -/
theorem stepRunsDecodedInstruction : Obligations.StepRunsDecodedInstruction := by
  unfold Obligations.StepRunsDecodedInstruction
  refine ⟨fun s k hturn => ?_, fun s i rest ha => ?_, fun s ticks cycles rest ha => ?_⟩
  · refine ⟨fun h => ?_, fun i hr hf ha => ?_, fun w s1 hr hf ha hw hb he hvs => ?_, fun pa s1 hl hu ht hh => ?_⟩
    · by_cases hr : (s.core k).run = .running
      · exact step_of_unfetched hturn hr (State.fetchInstr_frozen (h.resolve_left (not_not_intro hr)))
      · exact step_of_not_running hturn hr
    · exact step_of_fetched hturn hr (State.fetchInstr_again hf ha)
    · have hcsr : (s1.vs k).csr = (s.core k).vs.csr := congrArg VState.csr hvs
      obtain ⟨hbad, hgood⟩ := State.fetchInstr_fetched (s := s.onTurn k) hf ha hw (by rwa [hcsr]) (by rwa [hcsr])
      exact ⟨fun hp => step_of_unfetched hturn hr (hbad hp), fun hp =>
        ⟨fun i hi => step_of_fetched hturn hr ((hgood hp).1 i hi), fun hi => step_of_unfetched hturn hr ((hgood hp).2 hi)⟩⟩
    · exact State.fetchAt_of_current hl hu ht hh
  · unfold step
    rw [ha]
    refine ⟨fun he => ?_, fun he => ?_⟩
    · simp [he]
    · simp [he]
  · have hstep : step s = .next (({ s with agenda := rest } : State).passTime ticks cycles) := by
      unfold step
      rw [ha]
    refine ⟨fun h => ?_, ?_⟩
    · exact hstep.trans (congrArg _ (State.passTime_exact (s := { s with agenda := rest }) cycles h))
    · obtain ⟨n, hn⟩ := State.passTime_slewed ({ s with agenda := rest } : State) ticks cycles
      exact ⟨_, n, hstep, hn⟩

/-! ### A word without SP -/

/-- Settles O1: past its effect the word moves its core's pc, and memory is no part of that. -/
theorem plainWordFrame : Obligations.PlainWordFrame := by
  unfold Obligations.PlainWordFrame
  intro s t m
  have hafter : s.after t false m = t.advance s.cur ((s.core s.cur).pc + 8) := rfl
  rw [hafter]
  exact ⟨⟨fun j hj => State.modCore_core_other t _ hj, rfl⟩, ⟨fun _ => rfl, fun _ => rfl⟩, State.modCore_core_same t _ _⟩

end Sys2Proof.Machine
end

section
/-! SUPPORT. Reading and writing operands, and registers as capabilities (16 R271-R272, R285, 03 R42, R50-R57). -/

namespace Sys2Proof.Machine

/-! ### Registers -/

@[simp] theorem VState.getX_zero (r : VState) : r.getX 0 = XReg.zero := rfl

/-- A write to x0 is discarded, and no other register changes (03 R42). -/
theorem VState.getX_setX (r : VState) (i j : Nat) (c : XReg) : (r.setX i c).getX j = if j = i ∧ j ≠ 0 then c else r.getX j := by
  unfold VState.getX VState.setX
  by_cases hj : j = 0
  · simp [hj]
  · by_cases hij : j = i
    · subst hij
      simp [hj]
    · by_cases hi : i = 0
      · simp [hj, hi]
      · simp [hj, hi, hij]

theorem VState.setX_eq (r : VState) (i : Nat) (c : XReg) : r.setX i c = { r with x := (r.setX i c).x } := by
  unfold VState.setX
  split <;> rfl

theorem VState.getY_setY (r : VState) (i j : Nat) (w : Word) : (r.setY i w).getY j = if j = i then w else r.getY j := by
  unfold VState.getY VState.setY
  by_cases hij : j = i
  · subst hij
    simp
  · simp [hij]

/-- ShiftL is the shift by one of the l file (03 R50). -/
theorem VState.shiftL_eq (r : VState) (w : Word) : r.shiftL w = Claims.shifted r w := rfl

/-! ### Sources -/

theorem State.coordW_eq (s : State) (k : Nat) : s.coordW k = BitVec.ofNat 64 ((s.pkg.toNat * 8192 + k) % 2 ^ 31) := by
  refine BitVec.eq_of_toNat_eq ?_
  rw [State.coordW, State.coord, BitVec.toNat_setWidth, BitVec.toNat_ofNat, BitVec.toNat_ofNat]

theorem State.issued_of_not_k (s : State) (k : Nat) {o : Opnd} (h : ∀ i, o ≠ .k i) : s.issued k o = o := by
  cases o with
  | k i => exact absurd rfl (h i)
  | _ => rfl

/-- A read of LQ takes its oldest entry. -/
theorem State.src_lq {s : State} {k : Nat} {v : Vec} {t : List Vec} (h : (s.core k).lq = v :: t) :
    s.src k (.port 5) = .ok (v.setWidth 64, s.modCore k fun c => { c with lq := t }) := by
  simp [State.src, State.popLq, h, bind, Except.bind, pure, Except.pure]

/-! ### A change of one core -/

theorem State.modCore_onlyCore (s : State) (k : Nat) (f : Core → Core) : s.onlyCore (s.modCore k f) k :=
  ⟨fun _ hj => State.modCore_core_other s f hj, rfl⟩

theorem State.modCore_sameMemory (s : State) (k : Nat) (f : Core → Core) : s.sameMemory (s.modCore k f) := ⟨fun _ => rfl, fun _ => rfl⟩

theorem State.modVs_onlyCore (s : State) (k : Nat) (f : VState → VState) : s.onlyCore (s.modVs k f) k := s.modCore_onlyCore k _

theorem State.modVs_sameMemory (s : State) (k : Nat) (f : VState → VState) : s.sameMemory (s.modVs k f) := s.modCore_sameMemory k _

theorem State.onlyCore_trans {s t u : State} {k : Nat} (h : s.onlyCore t k) (g : t.onlyCore u k) : s.onlyCore u k := by
  obtain ⟨hcore, hframe⟩ := h
  obtain ⟨gcore, gframe⟩ := g
  exact ⟨fun j hj => (gcore j hj).trans (hcore j hj), gframe.trans (by rw [hframe])⟩

theorem State.sameMemory_trans {s t u : State} (h : s.sameMemory t) (g : t.sameMemory u) : s.sameMemory u :=
  ⟨fun a => (g.1 a).trans (h.1 a), fun a => (g.2 a).trans (h.2 a)⟩

/-! ### Destinations -/

section Put

variable {s t : State} {k : Nat} {v : Word}

theorem State.put_x {i : Fin 128} (h : s.put k (.x i) v = .ok t) : t = s.modVs k fun r => (r.setX i.val (XReg.plain v)).shiftL v :=
  (Except.ok.inj h).symm

theorem State.put_y {i : Fin 16} (h : s.put k (.y i) v = .ok t) : t = s.modVs k fun r => (r.setY i.val v).shiftL v :=
  (Except.ok.inj h).symm

theorem State.put_l {i : Fin 4} (h : s.put k (.l i) v = .ok t) : t = s.modVs k fun r => { r with l0 := v } := (Except.ok.inj h).symm

theorem State.put_sink (h : s.put k .sink v = .ok t) : t = s.modVs k fun r => r.shiftL v := (Except.ok.inj h).symm

theorem State.put_port6 (s : State) (k : Nat) (v : Word) :
    s.put k (.port 6) v = (s.pushSq k (v.setWidth 1024) >>= fun u => .ok (u.shiftL k v)) := rfl

theorem State.put_sq_full (h : 16 ≤ (s.core k).sq.length) : s.put k (.port 6) v = .error (.wait .port s) := by
  have hfull : s.pushSq k (v.setWidth 1024) = .error (.wait .port s) := if_pos h
  rw [State.put_port6, hfull]
  rfl

theorem State.put_sq (h : s.put k (.port 6) v = .ok t) :
    t = (s.modCore k fun c => { c with sq := c.sq ++ [v.setWidth 1024] }).modVs k fun r => r.shiftL v := by
  by_cases hfull : 16 ≤ (s.core k).sq.length
  · rw [State.put_sq_full hfull] at h
    cases h
  · have hroom : s.pushSq k (v.setWidth 1024) = .ok (s.modCore k fun c => { c with sq := c.sq ++ [v.setWidth 1024] }) := if_neg hfull
    rw [State.put_port6, hroom] at h
    exact (Except.ok.inj h).symm

end Put

/-! ### What source fields give and destination fields take -/

theorem sourceValues : Claims.SourceValues := by
  unfold Claims.SourceValues
  intro s k
  exact ⟨fun _ => rfl, fun _ => rfl, ⟨rfl, rfl, rfl, rfl⟩, fun _ => rfl, fun _ => ⟨rfl, rfl⟩, fun _ ho => s.issued_of_not_k k ho, rfl,
    congrArg (fun w => Except.ok (w, s)) (s.coordW_eq k), fun _ _ h => State.src_lq h, rfl⟩

theorem putWritesDestinationAndFileShift : Claims.PutWritesDestinationAndFileShift := by
  unfold Claims.PutWritesDestinationAndFileShift
  intro s t k v
  refine ⟨fun i h => ?_, fun i h => ?_, fun i h => ?_, fun h => ?_, fun h => ?_, State.put_sq_full⟩
  · rw [State.put_x h]
    refine ⟨s.modVs_onlyCore k _, s.modVs_sameMemory k _, _, State.modVs_core_same s k _, ?_, fun _ j => ?_⟩
    · rw [VState.setX_eq]
      rfl
    · exact VState.getX_setX _ _ _ _
  · rw [State.put_y h]
    exact ⟨s.modVs_onlyCore k _, s.modVs_sameMemory k _, _, State.modVs_core_same s k _, rfl, fun _ j => VState.getY_setY _ _ _ _⟩
  · rw [State.put_l h]
    exact ⟨s.modVs_onlyCore k _, s.modVs_sameMemory k _, State.modVs_core_same s k _⟩
  · rw [State.put_sink h]
    exact ⟨s.modVs_onlyCore k _, s.modVs_sameMemory k _, State.modVs_core_same s k _⟩
  · rw [State.put_sq h]
    refine ⟨State.onlyCore_trans (s.modCore_onlyCore k _) (State.modVs_onlyCore _ k _),
      State.sameMemory_trans (s.modCore_sameMemory k _) (State.modVs_sameMemory _ k _), ?_⟩
    simp [VState.shiftL_eq]

/-- Settles O39: each operand by the equation of `State.src` or `State.put` for its class. -/
theorem operandsReadAndWritten : Obligations.OperandsReadAndWritten := ⟨sourceValues, putWritesDestinationAndFileShift⟩

/-! ### Registers as capabilities -/

theorem capabilityRegisterWrite : Claims.CapabilityRegisterWrite := by
  unfold Claims.CapabilityRegisterWrite
  intro s k i c
  have hset : s.setCap k (.x i) c = s.modVs k fun r => r.setX i.val c := rfl
  rw [hset]
  refine ⟨s.modVs_onlyCore k _, s.modVs_sameMemory k _, ((s.core k).vs.setX i.val c).x, ?_, fun _ j => ?_⟩
  · rw [State.modVs_core_same, ← VState.setX_eq]
  · rw [State.modVs_core_same]
    exact VState.getX_setX _ _ _ _

end Sys2Proof.Machine
end

section
/-! SUPPORT. The results of scalar integer words as numbers (16 R277-R283). -/

namespace Sys2Proof.Machine

/-! ### Two sources (R277) -/

section TwoSources

variable (a b : Word)

theorem shl_eq_ofNat (n : Nat) : a <<< n = BitVec.ofNat 64 (a.toNat * 2 ^ n) := by
  refine BitVec.eq_of_toNat_eq ?_
  rw [BitVec.toNat_shiftLeft, BitVec.toNat_ofNat, Nat.shiftLeft_eq]

theorem shr_eq_ofNat (n : Nat) : a >>> n = BitVec.ofNat 64 (a.toNat / 2 ^ n) := by
  refine BitVec.eq_of_toNat_eq ?_
  rw [BitVec.toNat_ushiftRight, BitVec.toNat_ofNat, Nat.shiftRight_eq_div_pow, Nat.mod_eq_of_lt ((Nat.div_le_self _ _).trans_lt a.isLt)]

theorem shra_eq_ofInt (n : Nat) : a.sshiftRight n = BitVec.ofInt 64 (a.toInt / 2 ^ n) := by
  rw [BitVec.sshiftRight, Int.shiftRight_eq_div_pow]
  norm_cast

theorem rotateLeft_eq_or (n : Nat) : a.rotateLeft (n % 64) =
    BitVec.ofNat 64 (a.toNat * 2 ^ (n % 64)) ||| BitVec.ofNat 64 (a.toNat / 2 ^ (64 - n % 64)) := by
  rw [← shl_eq_ofNat, ← shr_eq_ofNat, BitVec.rotateLeft, BitVec.rotateLeftAux, Nat.mod_mod]

theorem rotateRight_eq_or (n : Nat) : a.rotateRight (n % 64) =
    BitVec.ofNat 64 (a.toNat / 2 ^ (n % 64)) ||| BitVec.ofNat 64 (a.toNat * 2 ^ (64 - n % 64)) := by
  rw [← shl_eq_ofNat, ← shr_eq_ofNat, BitVec.rotateRight, BitVec.rotateRightAux, Nat.mod_mod]

theorem add_eq_ofNat : a + b = BitVec.ofNat 64 (a.toNat + b.toNat) := by
  refine BitVec.eq_of_toNat_eq ?_
  rw [BitVec.toNat_add, BitVec.toNat_ofNat]

theorem mul_eq_ofNat : a * b = BitVec.ofNat 64 (a.toNat * b.toNat) := by
  refine BitVec.eq_of_toNat_eq ?_
  rw [BitVec.toNat_mul, BitVec.toNat_ofNat]

theorem sub_eq_ofInt : a - b = BitVec.ofInt 64 ((a.toNat : Int) - b.toNat) := by
  have ha := a.isLt
  have hb := b.isLt
  refine BitVec.eq_of_toNat_eq ?_
  rw [BitVec.toNat_sub, BitVec.toNat_ofInt]
  omega

theorem bit_decide (p : Prop) [Decidable p] : bit (decide p) = if p then 1 else 0 := by
  unfold bit
  split <;> simp_all

theorem bit_decide_not (p : Prop) [Decidable p] : bit (decide (¬p)) = if p then 0 else 1 := by
  rw [bit_decide, ite_not]

end TwoSources

/-! ### Fields (R281) -/

theorem fieldOf_eq (f : Word) : fieldOf f = (f.toNat % 64, min (f.toNat / 64 % 128) (64 - f.toNat % 64)) := by
  simp [fieldOf, fld]

/-! ### Division (R278) -/

theorem divS_eq (a b : Word) :
    divS a b = BitVec.ofInt 64 (if a.toInt = -2 ^ 63 ∧ b.toInt = -1 then -2 ^ 63 else a.toInt.tdiv b.toInt) := by
  unfold divS w64 s64
  split
  · next h =>
    rw [h.1, h.2]
    decide
  · rfl

theorem remS_eq (a b : Word) : remS a b = BitVec.ofInt 64 (if a.toInt = -2 ^ 63 ∧ b.toInt = -1 then 0
    else a.toInt - a.toInt.tdiv b.toInt * b.toInt) := by
  unfold remS w64 s64
  split
  · next h =>
    rw [h.1, h.2]
    decide
  · rw [Int.tmod_def, Int.mul_comm]

theorem udiv_eq_ofNat (a b : Word) : a / b = BitVec.ofNat 64 (a.toNat / b.toNat) := by
  refine BitVec.eq_of_toNat_eq ?_
  rw [BitVec.toNat_udiv, BitVec.toNat_ofNat, Nat.mod_eq_of_lt ((Nat.div_le_self _ _).trans_lt a.isLt)]

theorem umod_eq_ofNat (a b : Word) : a % b = BitVec.ofNat 64 (a.toNat - a.toNat / b.toNat * b.toNat) := by
  refine BitVec.eq_of_toNat_eq ?_
  rw [BitVec.toNat_umod, BitVec.toNat_ofNat, Nat.mod_eq_of_lt ((Nat.sub_le _ _).trans_lt a.isLt), Nat.mod_eq_sub_div_mul]

/-! ### Single sources (R280) -/

section OneSource

variable {a : Word} {n : Nat}

theorem leadingZeros_eq (hn : n ≤ 64) (hzero : ∀ i, 64 - n ≤ i → i < 64 → a.getLsbD i = false) (hone : n < 64 → a.getLsbD (63 - n) = true) :
    leadingZeros a = n := by
  have hlt : a.toNat < 2 ^ (64 - n) := Nat.lt_pow_two_of_testBit _ fun i hi => by
    by_cases h : i < 64
    · exact hzero i hi h
    · exact BitVec.getLsbD_of_ge a i (by omega)
  by_cases h64 : n = 64
  · have ha : a = 0 := BitVec.eq_of_toNat_eq (by simpa [h64] using hlt)
    rw [leadingZeros, if_pos ha, h64]
  · have hge : 2 ^ (63 - n) ≤ a.toNat := Nat.ge_two_pow_of_testBit (hone (by omega))
    have ha : a.toNat ≠ 0 := by
      have := Nat.two_pow_pos (63 - n)
      omega
    have hlog : Nat.log2 a.toNat = 63 - n := (Nat.log2_eq_iff ha).2 ⟨hge, by rwa [show 63 - n + 1 = 64 - n by omega]⟩
    rw [leadingZeros, if_neg (by rintro rfl; exact ha rfl), hlog]
    omega

theorem trailingZeros_eq (hn : n ≤ 64) (hzero : ∀ i, i < n → a.getLsbD i = false) (hone : n < 64 → a.getLsbD n = true) :
    trailingZeros a = n := by
  obtain h64 | h64 := hn.lt_or_eq
  · have hfind : (List.range 64).find? (fun i => fbit a i) = some n :=
      List.find?_range_eq_some.2 ⟨hone h64, List.mem_range.2 h64, fun i hi => by simp [fbit, hzero i hi]⟩
    rw [trailingZeros, hfind]
    rfl
  · have hfind : (List.range 64).find? (fun i => fbit a i) = none :=
      List.find?_eq_none.2 fun i hi => by simp [fbit, hzero i (by simpa [h64] using hi)]
    rw [trailingZeros, hfind, h64]
    rfl

theorem oneBits_eq (a : Word) : oneBits a = (List.range 64).countP fun i => a.getLsbD i := List.countP_eq_length_filter.symm

/-- A bit of what a fold of `reverseBits` has set. -/
theorem getLsbD_foldl_reverse (a : Word) (l : List Nat) (r : Word) (j : Nat) :
    (l.foldl (fun r i => if fbit a i then r ||| (1#64 <<< (63 - i)) else r) r).getLsbD j =
      (r.getLsbD j || l.any fun i => a.getLsbD i && (1#64 <<< (63 - i)).getLsbD j) := by
  induction l generalizing r with
  | nil => simp
  | cons i l ih =>
    rw [List.foldl_cons, ih, List.any_cons]
    unfold fbit
    cases a.getLsbD i <;> simp [Bool.or_assoc]

theorem getLsbD_oneAt {i j : Nat} (hj : j < 64) : (1#64 <<< i).getLsbD j = decide (j = i) := by
  rw [BitVec.getLsbD_shiftLeft, BitVec.getLsbD_one, decide_eq_true hj, Bool.true_and, Bool.eq_iff_iff]
  simp
  omega

theorem getLsbD_reverseBits (a : Word) {j : Nat} (hj : j < 64) : (reverseBits a).getLsbD j = a.getLsbD (63 - j) := by
  rw [reverseBits, getLsbD_foldl_reverse, BitVec.ofNat_eq_ofNat, BitVec.getLsbD_zero, Bool.false_or, Bool.eq_iff_iff, List.any_eq_true]
  constructor
  · rintro ⟨i, hi, h⟩
    rw [List.mem_range] at hi
    rw [getLsbD_oneAt hj, Bool.and_eq_true, decide_eq_true_eq] at h
    rw [show 63 - j = i by omega]
    exact h.1
  · intro h
    refine ⟨63 - j, List.mem_range.2 (by omega), ?_⟩
    rw [getLsbD_oneAt hj, h, Bool.true_and, decide_eq_true_eq]
    omega

theorem ofBytes_testBit (l : List Byte) (i : Nat) {j : Nat} (hj : j < 8) : (ofBytes l).testBit (8 * i + j) = (l.getD i 0).getLsbD j := by
  induction l generalizing i with
  | nil => simp [ofBytes]
  | cons b l ih =>
    rw [ofBytes, Nat.add_comm, show 256 = 2 ^ 8 from rfl, Nat.testBit_two_pow_mul_add _ b.isLt]
    cases i with
    | zero => simp [hj, BitVec.getLsbD]
    | succ i => rw [if_neg (by omega), show 8 * (i + 1) + j - 8 = 8 * i + j by omega, ih, List.getD_cons_succ]

theorem getLsbD_reverseBytes (a : Word) {i j : Nat} (hi : i < 8) (hj : j < 8) :
    (reverseBytes a).getLsbD (8 * i + j) = a.getLsbD (8 * (7 - i) + j) := by
  have hbyte : (bytesOf 8 a.toNat).reverse.getD i 0 = BitVec.ofNat 8 (a.toNat / 2 ^ (8 * (7 - i))) := by
    rw [List.getD_reverse _ (by simpa [bytesOf] using hi), show (bytesOf 8 a.toNat).length - 1 - i = 7 - i by simp [bytesOf],
      bytesOf_getD (by omega)]
  rw [reverseBytes, BitVec.getLsbD_ofNat, ofBytes_testBit _ _ hj, hbyte, BitVec.getLsbD_ofNat, Nat.testBit_div_two_pow, Nat.add_comm j]
  simp [hj, BitVec.getLsbD]
  omega

theorem reverseBits_eq {r : Word} (h : ∀ i, i < 64 → r.getLsbD i = a.getLsbD (63 - i)) : reverseBits a = r :=
  BitVec.eq_of_getLsbD_eq fun i hi => (getLsbD_reverseBits a hi).trans (h i hi).symm

theorem reverseBytes_eq {r : Word} (h : ∀ i j, i < 8 → j < 8 → r.getLsbD (8 * i + j) = a.getLsbD (8 * (7 - i) + j)) : reverseBytes a = r := by
  refine BitVec.eq_of_getLsbD_eq fun i hi => ?_
  have hdiv : i / 8 < 8 := by omega
  have hmod : i % 8 < 8 := Nat.mod_lt _ (by decide)
  rw [← Nat.div_add_mod i 8, getLsbD_reverseBytes a hdiv hmod, h _ _ hdiv hmod]

end OneSource

/-! ### Immediates (R283, 15 R256) -/

section Immediate

variable (s : State) (imm : BitVec 20)

theorem Core.widened_eq : (s.core s.cur).widened imm = BitVec.ofInt 64 (Claims.wide s imm) := by
  unfold Core.widened Claims.wide
  cases (s.core s.cur).pfx.bind Pfx.ximm <;> rfl

theorem wide_lt : -2 ^ 51 ≤ Claims.wide s imm ∧ Claims.wide s imm < 2 ^ 51 := by
  unfold Claims.wide
  split
  · exact ⟨BitVec.le_toInt _, BitVec.toInt_lt⟩
  · have hlo := imm.le_toInt
    have hhi := imm.toInt_lt
    omega

/-- The doubleword of an immediate has its value. -/
theorem toInt_wide : (BitVec.ofInt 64 (Claims.wide s imm) : Word).toInt = Claims.wide s imm := by
  obtain ⟨hlo, hhi⟩ := wide_lt s imm
  rw [BitVec.toInt_ofInt]
  exact Int.bmod_eq_of_le (by omega) (by omega)

/-- Its unsigned value is the immediate modulo 2^64. -/
theorem toNat_wide : (BitVec.ofInt 64 (Claims.wide s imm) : Word).toNat = (Claims.wide s imm % 2 ^ 64).toNat := by
  rw [BitVec.toNat_ofInt]
  rfl

theorem movhi_eq (z : Int) : (BitVec.ofInt 64 z : Word) <<< 32 = BitVec.ofInt 64 (z % 2 ^ 32 * 2 ^ 32) := by
  refine BitVec.eq_of_toNat_eq ?_
  rw [BitVec.toNat_shiftLeft, BitVec.toNat_ofInt, BitVec.toNat_ofInt, Nat.shiftLeft_eq]
  omega

end Immediate

/-! ### Running a scalar word -/

section Running

variable {s s1 s2 s3 s4 : State} {m a b : Word}

section R

variable {f : FR}

theorem State.two_congr (s : State) (f : FR) {op op' : Word → Word → Word} (h : ∀ a b, op a b = op' a b) : s.two f op = s.two f op' :=
  congrArg (s.two f) (funext₂ h)

theorem State.divide_congr (s : State) (f : FR) {op op' : Word → Word → Word} (h : ∀ a b, op a b = op' a b) :
    s.divide f op = s.divide f op' :=
  congrArg (s.divide f) (funext₂ h)

/-- A two-source form puts its result. -/
theorem State.two_ok {op : Word → Word → Word} (h : s.Clear s.cur f.sp true false [f.a, f.b] [f.d] m s1)
    (ha : s1.src s.cur f.a = .ok (a, s2)) (hb : s2.src s.cur (s1.issued s.cur f.b) = .ok (b, s3)) (hp : s3.put s.cur f.d (op a b) = .ok s4) :
    s.two f op = .next (s.after s4 f.sp m) := by
  refine State.runSeq_ok h ?_
  simp only [(State.clear_looks h).cur, ha, hb, bind, Except.bind]
  exact hp

/-- A division by zero faults; another puts its result. -/
theorem State.divide_zero {op : Word → Word → Word} (h : s.Clear s.cur f.sp true false [f.a, f.b] [f.d] m s1)
    (ha : s1.src s.cur f.a = .ok (a, s2)) (hb : s2.src s.cur (s1.issued s.cur f.b) = .ok (0, s3)) :
    s.divide f op = .next (s.faults .divzero 0 .read) := by
  refine State.runSeq_fault h ?_
  simp only [(State.clear_looks h).cur, ha, hb, bind, Except.bind]
  rfl

theorem State.divide_ok {op : Word → Word → Word} (h : s.Clear s.cur f.sp true false [f.a, f.b] [f.d] m s1)
    (ha : s1.src s.cur f.a = .ok (a, s2)) (hb : s2.src s.cur (s1.issued s.cur f.b) = .ok (b, s3)) (hne : b ≠ 0)
    (hp : s3.put s.cur f.d (op a b) = .ok s4) : s.divide f op = .next (s.after s4 f.sp m) := by
  refine State.runSeq_ok h ?_
  simp only [(State.clear_looks h).cur, ha, hb, bind, Except.bind, faultIf, hne, decide_false, Bool.false_eq_true, if_false]
  exact hp

/-- A single-source form puts its result. -/
theorem State.one_ok {op : Word → Word} {r : Word} (h : s.Clear s.cur f.sp true false [f.a] [f.d] m s1)
    (ha : s1.src s.cur f.a = .ok (a, s2)) (hr : op a = r) (hp : s2.put s.cur f.d r = .ok s3) :
    s.one f op = .next (s.after s3 f.sp m) := by
  refine State.runSeq_ok h ?_
  simp only [(State.clear_looks h).cur, ha, bind, Except.bind, hr]
  exact hp

end R

section I

variable {f : FI}

/-- An immediate form puts its result. -/
theorem State.immediate_ok {op : Word → Word → Word} {r : Word} (h : s.Clear s.cur f.sp true false [f.a] [f.d] m s1)
    (ha : s1.src s.cur f.a = .ok (a, s2)) (hr : op a (BitVec.ofInt 64 (Claims.wide s f.imm)) = r)
    (hp : s2.put s.cur f.d r = .ok s3) : s.immediate f op = .next (s.after s3 f.sp m) := by
  refine State.runSeq_ok h ?_
  have look := State.clear_looks h
  simp only [look.cur, look.widened, Core.widened_eq, ha, bind, Except.bind, hr]
  exact hp

/-- A shift by an immediate puts its result, and faults where the count lies outside 0-63. -/
theorem State.shiftImmediate_ok {op : Word → Nat → Word} {r : Word} (h : s.Clear s.cur f.sp true false [f.a] [f.d] m s1)
    (ha : s1.src s.cur f.a = .ok (a, s2)) (hlt : (BitVec.ofInt 64 (Claims.wide s f.imm) : Word).toNat < 64)
    (hr : op a (BitVec.ofInt 64 (Claims.wide s f.imm) : Word).toNat = r)
    (hp : s2.put s.cur f.d r = .ok s3) : s.shiftImmediate f op = .next (s.after s3 f.sp m) := by
  refine State.runSeq_ok h ?_
  have look := State.clear_looks h
  simp only [look.cur, look.widened, Core.widened_eq, ha, bind, Except.bind, faultIf, Nat.not_le.2 hlt, decide_false, Bool.false_eq_true,
    if_false, hr]
  exact hp

theorem State.shiftImmediate_illegal {op : Word → Nat → Word} (h : s.Clear s.cur f.sp true false [f.a] [f.d] m s1)
    (hge : 64 ≤ (BitVec.ofInt 64 (Claims.wide s f.imm) : Word).toNat) :
    s.shiftImmediate f op = .next (s.faults .illegal 0 .read) := by
  refine State.runSeq_fault h ?_
  have look := State.clear_looks h
  simp only [look.cur, look.widened, Core.widened_eq, bind, Except.bind, faultIf, hge, decide_true, if_true]
  rfl

end I

end Running

/-! ### The tables -/

theorem extractField_eq (a f : Word) : extractField a f =
    (let p := f.toNat % 64
     let len := min (f.toNat / 64 % 128) (64 - p)
     let u := a.toNat / 2 ^ p % 2 ^ len
     BitVec.ofNat 64 (if f.getLsbD 13 ∧ 0 < len ∧ 2 ^ (len - 1) ≤ u then u + 2 ^ 64 - 2 ^ len else u)) := by
  simp only [extractField, fieldOf_eq, apply_ite (BitVec.ofNat 64)]
  rfl

/-- Each two-source word is a two-source form with the result of the table. -/
theorem exec_twoSource : ∀ p ∈ Claims.twoSource, ∀ (f : FR) (s : State), exec (p.1 f) s = s.two f p.2 := by
  unfold Claims.twoSource
  simp only [List.forall_mem_cons, List.not_mem_nil, false_implies, implies_true, and_true]
  refine ⟨fun f s => ?add, fun f s => ?sub, fun f s => ?mul, fun _ _ => rfl, fun _ _ => rfl, fun _ _ => rfl, fun _ _ => rfl, fun _ _ => rfl,
    fun _ _ => rfl, fun _ _ => rfl, fun f s => ?shl, fun f s => ?shr, fun f s => ?shra, fun f s => ?rol, fun f s => ?ror, fun _ _ => rfl,
    fun _ _ => rfl, fun _ _ => rfl, fun _ _ => rfl, fun f s => ?cmpeq, fun f s => ?cmpne, fun f s => ?cmplt, fun f s => ?cmpltu,
    fun f s => ?ext⟩
  case add => exact (s.two_congr f add_eq_ofNat : execAdd f s = _)
  case sub => exact (s.two_congr f sub_eq_ofInt : execSub f s = _)
  case mul => exact (s.two_congr f mul_eq_ofNat : execMul f s = _)
  case shl => exact (s.two_congr f fun a b => shl_eq_ofNat a _ : execShl f s = _)
  case shr => exact (s.two_congr f fun a b => shr_eq_ofNat a _ : execShr f s = _)
  case shra => exact (s.two_congr f fun a b => shra_eq_ofInt a _ : execShra f s = _)
  case rol => exact (s.two_congr f fun a b => rotateLeft_eq_or a _ : execRol f s = _)
  case ror => exact (s.two_congr f fun a b => rotateRight_eq_or a _ : execRor f s = _)
  case cmpeq => exact (s.two_congr f fun _ _ => bit_decide _ : execCmpeq f s = _)
  case cmpne => exact (s.two_congr f fun _ _ => bit_decide_not _ : execCmpne f s = _)
  case cmplt => exact (s.two_congr f fun _ _ => bit_decide _ : execCmplt f s = _)
  case cmpltu => exact (s.two_congr f fun _ _ => bit_decide _ : execCmpltu f s = _)
  case ext => exact (s.two_congr f extractField_eq : execExt f s = _)

theorem twoSourceIntegerResult : Claims.TwoSourceIntegerResult := by
  unfold Claims.TwoSourceIntegerResult
  intro p hp f s s1 s2 s3 s4 m a b h ha hb hd
  rw [exec_twoSource p hp]
  exact State.two_ok h ha hb hd

theorem divisionResultAndDivzero : Claims.DivisionResultAndDivzero := by
  unfold Claims.DivisionResultAndDivzero
  intro p hp f s s1 s2 s3 m a b h ha hb
  have hform : exec (p.1 f) s = s.divide f p.2 := by
    simp only [List.mem_cons, List.not_mem_nil, or_false] at hp
    obtain rfl | rfl | rfl | rfl := hp
    · exact (s.divide_congr f divS_eq : execDiv f s = _)
    · exact (s.divide_congr f remS_eq : execRem f s = _)
    · exact (s.divide_congr f udiv_eq_ofNat : execDivu f s = _)
    · exact (s.divide_congr f umod_eq_ofNat : execRemu f s = _)
  rw [hform]
  refine ⟨?_, fun s4 hne hd => State.divide_ok h ha hb hne hd⟩
  rintro rfl
  exact State.divide_zero h ha hb

/-- SEL reads every source and puts one of two (R279). -/
theorem exec_sel_ok {f : FRC} {s s1 s2 s3 s4 s5 : State} {m a b c : Word} (h : s.Clear s.cur f.sp true false [f.a, f.b, f.c] [f.d] m s1)
    (ha : s1.src s.cur f.a = .ok (a, s2)) (hb : s2.src s.cur (s1.issued s.cur f.b) = .ok (b, s3))
    (hc : s3.src s.cur (s1.issued s.cur f.c) = .ok (c, s4)) (hd : s4.put s.cur f.d (if c = 0 then b else a) = .ok s5) :
    exec (.sel f) s = .next (s.after s5 f.sp m) := by
  change execSel f s = _
  refine State.runSeq_ok h ?_
  simp only [(State.clear_looks h).cur, ha, hb, hc, bind, Except.bind, ne_eq, ite_not]
  exact hd

theorem insertField_eq (old a f : Word) : insertField old a f =
    (let p := f.toNat % 64
     let len := min (f.toNat / 64 % 128) (64 - p)
     let mask := BitVec.ofNat 64 ((2 ^ len - 1) * 2 ^ p)
     (old &&& ~~~mask) ||| (BitVec.ofNat 64 (a.toNat * 2 ^ p) &&& mask)) := by
  simp only [insertField, fieldOf_eq, shl_eq_ofNat]

/-- INS puts the field into the old value of D, read last (R281). -/
theorem exec_ins_ok {f : FR} {s s1 s2 s3 s4 s5 : State} {m a b old : Word} (h : s.Clear s.cur f.sp true false [f.a, f.b] [f.d] m s1)
    (ha : s1.src s.cur f.a = .ok (a, s2)) (hb : s2.src s.cur (s1.issued s.cur f.b) = .ok (b, s3)) (ho : s3.src s.cur f.d = .ok (old, s4))
    (hd : s4.put s.cur f.d (insertField old a b) = .ok s5) : exec (.ins f) s = .next (s.after s5 f.sp m) := by
  change execIns f s = _
  refine State.runSeq_ok h ?_
  simp only [(State.clear_looks h).cur, ha, hb, ho, bind, Except.bind]
  exact hd

theorem oneSourceSelectInsert : Claims.OneSourceSelectInsert := by
  unfold Claims.OneSourceSelectInsert
  refine ⟨fun f s s1 s2 m a h ha => ⟨fun n s3 hn hzero hone hd => ?clz, fun n s3 hn hzero hone hd => ?ctz, fun s3 hd => ?popc,
    fun r s3 hr hd => ?brev, fun r s3 hr hd => ?bswap, fun s3 hd => ?mov⟩,
    fun f s s1 s2 s3 s4 s5 m a b c h ha hb hc hd => exec_sel_ok h ha hb hc hd,
    fun f s s1 s2 s3 s4 s5 m a b old h ha hb ho hd => exec_ins_ok h ha hb ho (by rwa [insertField_eq])⟩
  case clz => exact (State.one_ok h ha (congrArg _ (leadingZeros_eq hn hzero hone)) hd : execClz f s = _)
  case ctz => exact (State.one_ok h ha (congrArg _ (trailingZeros_eq hn hzero hone)) hd : execCtz f s = _)
  case popc => exact (State.one_ok h ha (congrArg _ (oneBits_eq a)) hd : execPopc f s = _)
  case brev => exact (State.one_ok h ha (reverseBits_eq hr) hd : execBrev f s = _)
  case bswap => exact (State.one_ok h ha (reverseBytes_eq hr) hd : execBswap f s = _)
  case mov => exact (State.one_ok h ha rfl hd : execMov f s = _)

theorem immediateIntegerResult : Claims.ImmediateIntegerResult := by
  unfold Claims.ImmediateIntegerResult
  intro f s s1 s2 m a h ha imm i
  have himm : imm = Claims.wide s f.imm := by
    simp only [imm, Claims.wide, (State.clear_looks h).core_pfx]
  clear_value imm
  subst himm
  have hint : i.toInt = Claims.wide s f.imm := toInt_wide s f.imm
  obtain ⟨hlo, hhi⟩ := wide_lt s f.imm
  have hnat : i.toNat = (Claims.wide s f.imm % 2 ^ 64).toNat := toNat_wide s f.imm
  simp only [List.forall_mem_cons, List.not_mem_nil, false_implies, implies_true, and_true]
  refine ⟨⟨fun s3 hd => ?addi, fun s3 hd => ?andi, fun s3 hd => ?ori, fun s3 hd => ?xori, fun s3 hd => ?cmplti, fun s3 hd => ?movi,
    fun s3 hd => ?movhi⟩, ?_⟩
  case addi => exact (State.immediate_ok h ha (add_eq_ofNat a i) hd : execAddi f s = _)
  case andi => exact (State.immediate_ok h ha rfl hd : execAndi f s = _)
  case ori => exact (State.immediate_ok h ha rfl hd : execOri f s = _)
  case xori => exact (State.immediate_ok h ha rfl hd : execXori f s = _)
  case cmplti => exact (State.immediate_ok h ha ((bit_decide _).trans (by rw [s64, s64, hint])) hd : execCmplti f s = _)
  case movi => exact (State.immediate_ok h ha rfl hd : execMovi f s = _)
  case movhi => exact (State.immediate_ok h ha (movhi_eq _) hd : execMovhi f s = _)
  have hin (h0 : 0 ≤ Claims.wide s f.imm) (h64 : Claims.wide s f.imm < 64) : i.toNat < 64 := by omega
  have hout (hbad : Claims.wide s f.imm < 0 ∨ 64 ≤ Claims.wide s f.imm) : 64 ≤ i.toNat := by omega
  refine ⟨⟨fun h0 h64 s3 hd => ?shli, fun hbad => ?shliBad⟩, ⟨fun h0 h64 s3 hd => ?shri, fun hbad => ?shriBad⟩,
    ⟨fun h0 h64 s3 hd => ?shrai, fun hbad => ?shraiBad⟩⟩
  case shli => exact (State.shiftImmediate_ok h ha (hin h0 h64) (shl_eq_ofNat a _) hd : execShli f s = _)
  case shri => exact (State.shiftImmediate_ok h ha (hin h0 h64) (shr_eq_ofNat a _) hd : execShri f s = _)
  case shrai => exact (State.shiftImmediate_ok h ha (hin h0 h64) (shra_eq_ofInt a _) hd : execShrai f s = _)
  case shliBad => exact (State.shiftImmediate_illegal h (hout hbad) : execShli f s = _)
  case shriBad => exact (State.shiftImmediate_illegal h (hout hbad) : execShri f s = _)
  case shraiBad => exact (State.shiftImmediate_illegal h (hout hbad) : execShrai f s = _)

/-- Settles O38: each word is one of five forms, whose result the laws of its operation give as a number. -/
theorem scalarIntegerResults : Obligations.ScalarIntegerResults :=
  ⟨twoSourceIntegerResult, divisionResultAndDivzero, oneSourceSelectInsert, immediateIntegerResult⟩

end Sys2Proof.Machine
end

section
/-! SUPPORT. The fields and bounds of capabilities (03 R45-R47, 16 R288). -/

namespace Sys2Proof.Machine

/-! ### Words and fields -/

section Fields

variable (c : XReg)

theorem XReg.addr_toNat : c.addr.toNat = c.val.toNat % 2 ^ 64 := BitVec.toNat_setWidth _ _

theorem XReg.hi_toNat : c.hi.toNat = c.val.toNat / 2 ^ 64 := by
  have h := c.val.isLt
  rw [XReg.hi, toNat_field]
  omega

theorem XReg.exp_eq : c.exp = c.val.toNat / 2 ^ 64 % 64 := by simp [XReg.exp, fld, XReg.hi_toNat]
theorem XReg.below_eq : c.below = c.val.toNat / 2 ^ 70 % 2 ^ 21 := by simp [XReg.below, fld, XReg.hi_toNat, Nat.div_div_eq_div_mul]
theorem XReg.above_eq : c.above = c.val.toNat / 2 ^ 91 % 2 ^ 21 := by simp [XReg.above, fld, XReg.hi_toNat, Nat.div_div_eq_div_mul]

theorem XReg.top16_eq : fld c.hi 63 48 = c.val.toNat / 2 ^ 112 := by
  have h := c.val.isLt
  simp only [fld, XReg.hi_toNat]
  omega

theorem XReg.exp_lt : c.exp < 64 := fld_lt c.hi 5 0
theorem XReg.below_lt : c.below < 2 ^ 21 := fld_lt c.hi 26 6
theorem XReg.above_lt : c.above < 2 ^ 21 := fld_lt c.hi 47 27
theorem XReg.perms_lt : c.perms < 128 := fld_lt c.hi 54 48
theorem XReg.otype_lt : c.otype < 256 := fld_lt c.hi 63 56

variable {c}

theorem XReg.full_iff : c.full = true ↔ c.exp = 63 ∧ c.below = 0 ∧ c.above = 0 := by simp [XReg.full, and_assoc]

end Fields

section OfWords

variable (lo up : Word) (tag : Bool)

@[simp] theorem XReg.ofWords_tag : (XReg.ofWords lo up tag).tag = tag := rfl

@[simp] theorem XReg.ofWords_addr : (XReg.ofWords lo up tag).addr = lo := by
  refine BitVec.eq_of_getLsbD_eq fun i hi => ?_
  simp [XReg.ofWords, XReg.addr, hi]

@[simp] theorem XReg.ofWords_hi : (XReg.ofWords lo up tag).hi = up := by
  refine BitVec.eq_of_getLsbD_eq fun i hi => ?_
  have hlt : 64 + i < 128 := by omega
  simp [XReg.ofWords, XReg.hi, hi, hlt]

@[simp] theorem XReg.plain_tag (w : Word) : (XReg.plain w).tag = false := rfl

@[simp] theorem XReg.plain_addr (w : Word) : (XReg.plain w).addr = w := by
  refine BitVec.eq_of_getLsbD_eq fun i hi => ?_
  simp [XReg.plain, XReg.addr, hi]

@[simp] theorem XReg.plain_hi (w : Word) : (XReg.plain w).hi = 0 := by
  refine BitVec.eq_of_getLsbD_eq fun i hi => ?_
  simp [XReg.plain, XReg.hi]

end OfWords

section CapHi

variable (e b a p o : Nat) (sealed : Bool)

theorem capHi_toNat : (capHi e b a p sealed o).toNat =
    e % 64 + b % 2 ^ 21 * 2 ^ 6 + a % 2 ^ 21 * 2 ^ 27 + p % 128 * 2 ^ 48 + sealed.toNat * 2 ^ 55 + o % 256 * 2 ^ 56 := by
  have hs := sealed.toNat_lt
  rw [capHi, BitVec.toNat_ofNat]
  exact Nat.mod_eq_of_lt (by omega)

variable (lo : Word) (tag : Bool)

@[simp] theorem XReg.ofFields_exp : (XReg.ofWords lo (capHi e b a p sealed o) tag).exp = e % 64 := by
  have hs := sealed.toNat_lt
  simp only [XReg.exp, XReg.ofWords_hi, fld, capHi_toNat]
  omega

@[simp] theorem XReg.ofFields_below : (XReg.ofWords lo (capHi e b a p sealed o) tag).below = b % 2 ^ 21 := by
  have hs := sealed.toNat_lt
  simp only [XReg.below, XReg.ofWords_hi, fld, capHi_toNat]
  omega

@[simp] theorem XReg.ofFields_above : (XReg.ofWords lo (capHi e b a p sealed o) tag).above = a % 2 ^ 21 := by
  have hs := sealed.toNat_lt
  simp only [XReg.above, XReg.ofWords_hi, fld, capHi_toNat]
  omega

@[simp] theorem XReg.ofFields_perms : (XReg.ofWords lo (capHi e b a p sealed o) tag).perms = p % 128 := by
  have hs := sealed.toNat_lt
  simp only [XReg.perms, XReg.ofWords_hi, fld, capHi_toNat]
  omega

@[simp] theorem XReg.ofFields_otype : (XReg.ofWords lo (capHi e b a p sealed o) tag).otype = o % 256 := by
  have hs := sealed.toNat_lt
  simp only [XReg.otype, XReg.ofWords_hi, fld, capHi_toNat]
  omega

@[simp] theorem XReg.ofFields_sealed : (XReg.ofWords lo (capHi e b a p sealed o) tag).sealed = sealed := by
  rw [XReg.sealed, XReg.ofWords_hi, fbit, BitVec.getLsbD, Nat.testBit_eq_decide_div_mod_eq, capHi_toNat]
  cases sealed <;> simp <;> omega

end CapHi

/-! ### Bounds (03 R46) -/

/-- An address at the granule of a capability's exponent. -/
def XReg.floor (c : XReg) (a : Word) : Nat := a.toNat / 2 ^ c.exp * 2 ^ c.exp

/-- ADDR at its granule. -/
def XReg.anchor (c : XReg) : Nat := c.floor c.addr

/-- A capability with bounds of its own: not the full-range one, and not malformed. -/
structure XReg.Regular (c : XReg) : Prop where
  exp : c.exp ≤ 42
  below : c.below * 2 ^ c.exp ≤ c.anchor
  above : c.anchor + c.above * 2 ^ c.exp ≤ 2 ^ 64

section Bounds

variable {c : XReg}

theorem XReg.bounds_full (h : c.full = true) : c.base = 0 ∧ c.top = 2 ^ 64 := by simp [XReg.base, XReg.top, XReg.bounds, h]

theorem XReg.Regular.not_full (h : c.Regular) : c.full = false := by
  have := h.exp
  simp only [XReg.full, Bool.and_eq_false_iff, decide_eq_false_iff_not]
  omega

theorem XReg.bounds_eq (hf : c.full = false) (hexp : c.exp ≤ 42) : c.bounds =
    if c.anchor < c.below * 2 ^ c.exp ∨ 2 ^ 64 < c.anchor + c.above * 2 ^ c.exp then (1, 0)
    else (c.anchor - c.below * 2 ^ c.exp, c.anchor + c.above * 2 ^ c.exp) := by
  unfold XReg.anchor XReg.floor
  rw [Nat.div_mul_self_eq_mod_sub_self, XReg.bounds, if_neg (by simp [hf]), if_neg (Nat.not_lt.2 hexp)]

theorem XReg.Regular.bounds (h : c.Regular) : c.base = c.anchor - c.below * 2 ^ c.exp ∧ c.top = c.anchor + c.above * 2 ^ c.exp := by
  have hgood : ¬(c.anchor < c.below * 2 ^ c.exp ∨ 2 ^ 64 < c.anchor + c.above * 2 ^ c.exp) :=
    not_or.2 ⟨Nat.not_lt.2 h.below, Nat.not_lt.2 h.above⟩
  rw [XReg.base, XReg.top, XReg.bounds_eq h.not_full h.exp, if_neg hgood]
  exact ⟨rfl, rfl⟩

theorem XReg.bounds_malformed (hf : c.full = false) (h : ¬c.Regular) : c.base = 1 ∧ c.top = 0 := by
  rw [XReg.base, XReg.top]
  by_cases hexp : c.exp ≤ 42
  · have hbad : c.anchor < c.below * 2 ^ c.exp ∨ 2 ^ 64 < c.anchor + c.above * 2 ^ c.exp := by
      by_contra hgood
      rw [not_or, Nat.not_lt, Nat.not_lt] at hgood
      exact h ⟨hexp, hgood.1, hgood.2⟩
    rw [XReg.bounds_eq hf hexp, if_pos hbad]
    exact ⟨rfl, rfl⟩
  · rw [XReg.bounds, if_neg (by simp [hf]), if_pos (by omega)]
    exact ⟨rfl, rfl⟩

theorem XReg.top_le (c : XReg) : c.top ≤ 2 ^ 64 := by
  by_cases hf : c.full = true
  · exact (XReg.bounds_full hf).2.le
  · by_cases h : c.Regular
    · exact h.bounds.2.trans_le h.above
    · rw [(XReg.bounds_malformed (by simpa using hf) h).2]
      exact Nat.zero_le _

/-- The bounds are fields' alone. -/
theorem XReg.bounds_congr {r : XReg} (haddr : r.addr = c.addr) (hexp : r.exp = c.exp) (hbelow : r.below = c.below) (habove : r.above = c.above) :
    r.base = c.base ∧ r.top = c.top := by
  simp [XReg.base, XReg.top, XReg.bounds, XReg.full, haddr, hexp, hbelow, habove]

end Bounds

/-! ### Another address (03 R47) -/

/-- Whether a capability reaches the granule of an address: the bounds and the distances of 03 R47. -/
def XReg.Spans (c : XReg) (na : Word) : Prop :=
  c.base ≤ c.floor na ∧ c.floor na ≤ c.top ∧ c.floor na - c.base < 2 ^ 21 * 2 ^ c.exp ∧ c.top - c.floor na < 2 ^ 21 * 2 ^ c.exp

section Move

variable {c : XReg} {na : Word}

theorem XReg.move_of_full (h : c.full = true) : c.move na = XReg.ofWords na c.hi true := if_pos h

theorem XReg.spans_iff : (c.base ≤ c.floor na ∧ c.floor na ≤ c.top ∧ (c.floor na - c.base) / 2 ^ c.exp < 2 ^ 21 ∧
    (c.top - c.floor na) / 2 ^ c.exp < 2 ^ 21) ↔ c.Spans na := by
  rw [XReg.Spans, Nat.div_lt_iff_lt_mul (Nat.two_pow_pos _), Nat.div_lt_iff_lt_mul (Nat.two_pow_pos _)]

theorem XReg.move_of_spans (hf : c.full = false) (h : c.Spans na) : c.move na =
    XReg.ofWords na (capHi c.exp ((c.floor na - c.base) / 2 ^ c.exp) ((c.top - c.floor na) / 2 ^ c.exp) c.perms c.sealed c.otype) true := by
  rw [← XReg.spans_iff] at h
  unfold XReg.floor at h ⊢
  rw [Nat.div_mul_self_eq_mod_sub_self] at h ⊢
  rw [XReg.move, if_neg (by simp [hf])]
  exact if_pos h

theorem XReg.move_of_not_spans (hf : c.full = false) (h : ¬c.Spans na) : c.move na = XReg.plain na := by
  rw [← XReg.spans_iff] at h
  unfold XReg.floor at h
  rw [Nat.div_mul_self_eq_mod_sub_self] at h
  rw [XReg.move, if_neg (by simp [hf])]
  exact if_neg h

theorem XReg.move_addr (c : XReg) (na : Word) : (c.move na).addr = na := by
  by_cases hf : c.full = true
  · rw [XReg.move_of_full hf, XReg.ofWords_addr]
  · have hf : c.full = false := by simpa using hf
    by_cases h : c.Spans na
    · rw [XReg.move_of_spans hf h, XReg.ofWords_addr]
    · rw [XReg.move_of_not_spans hf h, XReg.plain_addr]

/-- A malformed capability spans nothing. -/
theorem XReg.Spans.regular (h : c.Spans na) (hf : c.full = false) : c.Regular := by
  by_contra hm
  obtain ⟨hbase, htop⟩ := XReg.bounds_malformed hf hm
  obtain ⟨hl, hu, -, -⟩ := h
  omega

/-- Granules between two places. -/
theorem sub_granules (m n : Nat) {g : Nat} (hg : 0 < g) : (m * g - n * g) / g * g = m * g - n * g := by
  rw [← Nat.sub_mul, Nat.mul_div_cancel _ hg]

/-- Where a capability moves with its tag, its bounds stay. -/
theorem XReg.move_bounds (hf : c.full = false) (h : c.Spans na) : (c.move na).base = c.base ∧ (c.move na).top = c.top := by
  have hreg := h.regular hf
  obtain ⟨hbase, htop⟩ := hreg.bounds
  have hg := Nat.two_pow_pos c.exp
  obtain ⟨hl, hu, hdl, hdu⟩ := XReg.spans_iff.2 h
  have hexp := hreg.exp
  -- Base, top and the new anchor are whole granules.
  have hbelow : (c.floor na - c.base) / 2 ^ c.exp * 2 ^ c.exp = c.floor na - c.base := by
    rw [hbase, XReg.floor, XReg.anchor, XReg.floor, ← Nat.sub_mul, sub_granules _ _ hg]
  have habove : (c.top - c.floor na) / 2 ^ c.exp * 2 ^ c.exp = c.top - c.floor na := by
    rw [htop, XReg.floor, XReg.anchor, XReg.floor, ← Nat.add_mul, sub_granules _ _ hg]
  generalize hr : c.move na = r
  rw [XReg.move_of_spans hf h] at hr
  have hrexp : r.exp = c.exp := by rw [← hr, XReg.ofFields_exp, Nat.mod_eq_of_lt c.exp_lt]
  have hranchor : r.anchor = c.floor na := by rw [XReg.anchor, XReg.floor, hrexp, ← hr, XReg.ofWords_addr, XReg.floor]
  have hrbelow : r.below * 2 ^ r.exp = c.floor na - c.base := by rw [hrexp, ← hr, XReg.ofFields_below, Nat.mod_eq_of_lt hdl, hbelow]
  have hrabove : r.above * 2 ^ r.exp = c.top - c.floor na := by rw [hrexp, ← hr, XReg.ofFields_above, Nat.mod_eq_of_lt hdu, habove]
  have htop64 := c.top_le
  have hrreg : r.Regular := ⟨by omega, by omega, by omega⟩
  obtain ⟨hrbase, hrtop⟩ := hrreg.bounds
  exact ⟨by omega, by omega⟩

end Move

theorem moved_plain {c : XReg} (na : Word) (h : c.tag = false) : Claims.moved c (XReg.plain na) na := by
  refine ⟨XReg.plain_addr na, ?_, ?_, fun _ => XReg.plain_hi na⟩
  · simp [h]
  · simp

/-- A tagged capability at another address is what 03 R47 says. -/
theorem moved_move {c : XReg} (na : Word) (h : c.tag = true) : Claims.moved c (c.move na) na := by
  refine ⟨c.move_addr na, ?_⟩
  by_cases hf : c.full = true
  · rw [XReg.move_of_full hf]
    refine ⟨by simp [h, hf], fun _ => ?_, by simp⟩
    have hfull : (XReg.ofWords na c.hi true).full = true := XReg.full_iff.2 (by simpa [XReg.exp, XReg.below, XReg.above] using XReg.full_iff.1 hf)
    obtain ⟨hb, ht⟩ := XReg.bounds_full hf
    obtain ⟨hrb, hrt⟩ := XReg.bounds_full hfull
    refine ⟨by rw [hb, hrb], by rw [ht, hrt], ?_⟩
    simp [XReg.exp, XReg.perms, XReg.sealed, XReg.otype]
  · have hff : c.full = false := by simpa using hf
    by_cases hs : c.Spans na
    · obtain ⟨hb, ht⟩ := XReg.move_bounds hff hs
      have htag : (c.move na).tag = true := by rw [XReg.move_of_spans hff hs, XReg.ofWords_tag]
      refine ⟨⟨fun _ => ⟨h, .inr hs⟩, fun _ => htag⟩, fun _ => ⟨hb, ht, ?_⟩, fun hn => by simp [htag] at hn⟩
      rw [XReg.move_of_spans hff hs]
      simp [Nat.mod_eq_of_lt c.exp_lt, Nat.mod_eq_of_lt c.perms_lt, Nat.mod_eq_of_lt c.otype_lt]
    · rw [XReg.move_of_not_spans hff hs]
      exact ⟨⟨fun ht => by simp at ht, fun ⟨_, hor⟩ => absurd (hor.resolve_left hf) hs⟩, fun ht => by simp at ht, fun _ => XReg.plain_hi na⟩

/-! ### Rounded bounds (16 R288) -/

/-- The least exponent at which a range has fewer than 2^21 granules. -/
theorem leastExp_eq {lo hi e : Nat} (n i : Nat) (hi_le : i ≤ e) (hn : e ≤ i + n)
    (hbelow : ∀ j, j < e → 2 ^ 21 ≤ (hi + 2 ^ j - 1) / 2 ^ j - lo / 2 ^ j) (hat : (hi + 2 ^ e - 1) / 2 ^ e - lo / 2 ^ e < 2 ^ 21) :
    leastExp lo hi n i = e := by
  induction n generalizing i with
  | zero => exact Nat.le_antisymm hi_le hn
  | succ n ih =>
    rw [leastExp]
    by_cases hie : i = e
    · subst hie
      exact if_pos hat
    · have hlt : i < e := by omega
      rw [if_neg (Nat.not_lt.2 (hbelow i hlt))]
      exact ih (i + 1) hlt (by omega)

/-- The exponent of a range of doublewords lies within the search. -/
theorem exp_le_of_least {lo len e : Nat} (hlo : lo < 2 ^ 64) (hlen : len < 2 ^ 64)
    (hbelow : ∀ j, j < e → 2 ^ 21 ≤ (lo + len + 2 ^ j - 1) / 2 ^ j - lo / 2 ^ j) : e ≤ 64 := by
  by_contra h
  have := hbelow 64 (by omega)
  omega

theorem roundBounds_eq {lo len e : Nat} (hlo : lo < 2 ^ 64) (hlen : len < 2 ^ 64)
    (hbelow : ∀ j, j < e → 2 ^ 21 ≤ (lo + len + 2 ^ j - 1) / 2 ^ j - lo / 2 ^ j)
    (hat : (lo + len + 2 ^ e - 1) / 2 ^ e - lo / 2 ^ e < 2 ^ 21) :
    roundBounds lo len = (e, lo / 2 ^ e * 2 ^ e, (lo + len + 2 ^ e - 1) / 2 ^ e * 2 ^ e) := by
  have he := leastExp_eq 64 0 (Nat.zero_le e) (by simpa using exp_le_of_least hlo hlen hbelow) hbelow hat
  rw [roundBounds, he]

/-- A capability whose bounds are those asked for: base at its own granule, and the granules up to the top. -/
theorem XReg.bounds_above {addr : Word} {e perms otype hi : Nat} (he : e ≤ 42) (hgran : hi - addr.toNat / 2 ^ e < 2 ^ 21)
    (hle : addr.toNat / 2 ^ e ≤ hi) (htop : hi * 2 ^ e ≤ 2 ^ 64) (sealed : Bool) :
    let r := XReg.ofWords addr (capHi e 0 (hi - addr.toNat / 2 ^ e) perms sealed otype) true
    r.base = addr.toNat / 2 ^ e * 2 ^ e ∧ r.top = hi * 2 ^ e := by
  intro r
  have hexp : r.exp = e := by rw [XReg.ofFields_exp, Nat.mod_eq_of_lt (by omega)]
  have hanchor : r.anchor = addr.toNat / 2 ^ e * 2 ^ e := by rw [XReg.anchor, XReg.floor, hexp, XReg.ofWords_addr]
  have hbelow : r.below = 0 := by rw [XReg.ofFields_below]; rfl
  have habove : r.above = hi - addr.toNat / 2 ^ e := by rw [XReg.ofFields_above, Nat.mod_eq_of_lt hgran]
  have hsum : r.anchor + r.above * 2 ^ r.exp = hi * 2 ^ e := by
    rw [hanchor, habove, hexp, ← Nat.add_mul, Nat.add_sub_cancel' hle]
  obtain ⟨hb, ht⟩ := XReg.Regular.bounds (c := r) ⟨by omega, by simp [hbelow], hsum.trans_le htop⟩
  exact ⟨by rw [hb, hbelow, hanchor, Nat.zero_mul, Nat.sub_zero], ht.trans hsum⟩

end Sys2Proof.Machine
end

section
/-! SUPPORT. Words that read capabilities and derive them (16 R285-R292). -/

namespace Sys2Proof.Machine

/-! ### Checks in a row -/

theorem bind_faultIf {α : Type} (b : Bool) (c : FCode) (a : Word) (f : Unit → Res α) :
    (faultIf b c a >>= f) = if b then fault c a else f () := by
  cases b <;> rfl

/-! ### Running a word -/

section Running

variable {s s1 s2 : State} {m b : Word} {f : FR}

/-- A getter puts what it reads. -/
theorem State.getter_ok {op : XReg → Word} {r : Word} (h : s.Clear s.cur f.sp true false [] [f.d] m s1) (hr : op (s.cap s.cur f.a) = r)
    (hd : s1.put s.cur f.d r = .ok s2) : s.getter f op = .next (s.after s2 f.sp m) := by
  have look := State.clear_looks h
  refine State.runSeq_ok h ?_
  simp only [look.cur, look.cap, hr, hd]

/-- A derivation writes its result to an x register alone. -/
theorem State.derive_ok {op : XReg → Word → Res XReg} {r : XReg} (h : s.Clear s.cur f.sp true false [f.b] [] m s1)
    (hb : s1.src s.cur f.b = .ok (b, s2)) (hr : op (s.cap s.cur f.a) b = .ok r) :
    s.derive f op = .next (s.after (s2.setCap s.cur f.d r) f.sp m) := by
  have look := State.clear_looks h
  refine State.runSeq_ok h ?_
  simp only [look.cur, look.cap, hb, hr, bind, Except.bind]
  rfl

theorem State.derive_fault {op : XReg → Word → Res XReg} {code : FCode} {w : Word} (h : s.Clear s.cur f.sp true false [f.b] [] m s1)
    (hb : s1.src s.cur f.b = .ok (b, s2)) (hr : op (s.cap s.cur f.a) b = fault code w) :
    s.derive f op = .next (s.faults code w .read) := by
  have look := State.clear_looks h
  refine State.runSeq_fault h ?_
  simp only [look.cur, look.cap, hb, hr, bind, Except.bind]
  rfl

end Running

/-! ### Getters (R286) -/

/-- The bounds as 03 R46 decodes them from the fields, where no difference is cut off at zero. -/
theorem XReg.bounds_eq_int (c : XReg) : ((c.base : Int), (c.top : Int)) =
    if c.exp = 63 ∧ c.below = 0 ∧ c.above = 0 then (0, 2 ^ 64)
    else if 42 < c.exp ∨ (c.anchor : Int) - c.below * 2 ^ c.exp < 0 ∨ 2 ^ 64 < (c.anchor : Int) + c.above * 2 ^ c.exp then (1, 0)
    else ((c.anchor : Int) - c.below * 2 ^ c.exp, (c.anchor : Int) + c.above * 2 ^ c.exp) := by
  by_cases hf : c.full = true
  · obtain ⟨hb, ht⟩ := XReg.bounds_full hf
    rw [if_pos (XReg.full_iff.1 hf), hb, ht]
    rfl
  · rw [if_neg (hf ∘ XReg.full_iff.2)]
    have hreg : c.Regular ↔ ¬(42 < c.exp ∨ (c.anchor : Int) - c.below * 2 ^ c.exp < 0 ∨ 2 ^ 64 < (c.anchor : Int) + c.above * 2 ^ c.exp) := by
      simp only [not_or, not_lt, sub_nonneg]
      norm_cast
      exact ⟨fun ⟨he, hb, ha⟩ => ⟨he, hb, ha⟩, fun ⟨he, hb, ha⟩ => ⟨he, hb, ha⟩⟩
    by_cases h : c.Regular
    · obtain ⟨hb, ht⟩ := h.bounds
      rw [if_neg (hreg.1 h), hb, ht, Nat.cast_sub h.below]
      push_cast
      rfl
    · obtain ⟨hb, ht⟩ := XReg.bounds_malformed (by simpa using hf) h
      rw [if_pos (not_not.1 (h ∘ hreg.2)), hb, ht]
      rfl

/-- The length that CGETL gives: at most 2^64 - 1, and zero for a malformed capability. -/
theorem XReg.length_eq (c : XReg) : (BitVec.ofNat 64 (min (c.top - c.base) (2 ^ 64 - 1)) : Word) =
    if (c.top : Int) - c.base = 2 ^ 64 then BitVec.ofNat 64 (2 ^ 64 - 1) else BitVec.ofInt 64 (max 0 ((c.top : Int) - c.base)) := by
  have htop := c.top_le
  split
  · next h => rw [min_eq_right (by omega)]
  · next h =>
    rw [min_eq_left (by omega), ← BitVec.ofInt_natCast]
    congr 1
    omega

/-- CSUB (R286). -/
theorem exec_csub_ok {s s1 s2 : State} {m : Word} {f : FR} (h : s.Clear s.cur f.sp true false [] [f.d] m s1)
    (hd : s1.put s.cur f.d ((s.cap s.cur f.a).addr - (s.cap s.cur f.b).addr) = .ok s2) : exec (.csub f) s = .next (s.after s2 f.sp m) := by
  have look := State.clear_looks h
  change execCsub f s = _
  refine State.runSeq_ok h ?_
  simp only [look.cur, look.cap, hd]

theorem XReg.addr_eq_ofNat (c : XReg) : c.addr = BitVec.ofNat 64 c.val.toNat := by
  refine BitVec.eq_of_toNat_eq ?_
  rw [XReg.addr_toNat, BitVec.toNat_ofNat]

theorem XReg.addr_sub_addr (c d : XReg) : c.addr - d.addr = BitVec.ofInt 64 ((c.val.toNat : Int) - d.val.toNat) := by
  refine BitVec.eq_of_toNat_eq ?_
  rw [BitVec.toNat_sub, XReg.addr_toNat, XReg.addr_toNat, BitVec.toNat_ofInt]
  omega

theorem capabilityGetters : Claims.CapabilityGetters := by
  unfold Claims.CapabilityGetters
  intro f s s1 s2 m h c e bl ab anchor base top bounds
  have he : e = c.exp := c.exp_eq.symm
  have hbl : bl = c.below := c.below_eq.symm
  have hab : ab = c.above := c.above_eq.symm
  have hanchor : anchor = c.anchor := by rw [XReg.anchor, XReg.floor, XReg.addr_toNat, ← he]
  have hbounds : bounds = ((c.base : Int), (c.top : Int)) := by
    rw [XReg.bounds_eq_int, ← he, ← hbl, ← hab, ← hanchor]
  clear_value bounds
  subst hbounds
  simp only [List.forall_mem_cons, List.not_mem_nil, false_implies, implies_true, and_true]
  refine ⟨fun hd => ?cgeta, fun hd => ?cgetb, fun hd => ?cgetl, fun hd => ?cgetp, fun hd => ?ctag, fun hd => ?csub⟩
  case cgeta => exact (State.getter_ok h c.addr_eq_ofNat hd : execCgeta f s = _)
  case cgetb => exact (State.getter_ok h (BitVec.ofInt_natCast _ _).symm hd : execCgetb f s = _)
  case cgetl => exact (State.getter_ok h c.length_eq hd : execCgetl f s = _)
  case cgetp => exact (State.getter_ok h (congrArg _ c.top16_eq) hd : execCgetp f s = _)
  case ctag => exact (State.getter_ok h rfl hd : execCtag f s = _)
  case csub => exact exec_csub_ok h (by rwa [XReg.addr_sub_addr])

/-- Settles O40: a getter reads fields, whose bounds no cut-off at zero has changed; a write changes one register. -/
theorem capabilityRegisters : Obligations.CapabilityRegisters := ⟨capabilityGetters, capabilityRegisterWrite⟩

/-! ### Addresses (R287) -/

section Address

variable {s s1 : State} {m : Word}

theorem moveCap_sealed {c : XReg} (h : c.tag = true ∧ c.sealed = true) (na : Word) : moveCap c na = fault .capPerm c.addr := if_pos h

theorem moveCap_open {c : XReg} (h : ¬(c.tag = true ∧ c.sealed = true)) (na : Word) : ∃ r, moveCap c na = .ok r ∧ Claims.moved c r na := by
  refine ⟨_, if_neg h, ?_⟩
  by_cases ht : c.tag = true
  · rw [if_pos ht]
    exact moved_move na ht
  · rw [if_neg ht]
    exact moved_plain na (by simpa using ht)

/-- CINC runs as a change of address by the immediate. -/
theorem exec_cinc_ok {f : FI} {r : XReg} (h : s.Clear s.cur f.sp true false [] [] m s1)
    (hr : moveCap (s.cap s.cur f.a) ((s.cap s.cur f.a).addr + BitVec.ofInt 64 (Claims.wide s f.imm)) = .ok r) :
    exec (.cinc f) s = .next (s.after (s1.setCap s.cur f.d r) f.sp m) := by
  have look := State.clear_looks h
  change execCinc f s = _
  refine State.runSeq_ok h ?_
  simp only [look.cur, look.cap, look.widened, Core.widened_eq, hr, bind, Except.bind]
  rfl

theorem exec_cinc_fault {f : FI} {code : FCode} {w : Word} (h : s.Clear s.cur f.sp true false [] [] m s1)
    (hr : moveCap (s.cap s.cur f.a) ((s.cap s.cur f.a).addr + BitVec.ofInt 64 (Claims.wide s f.imm)) = fault code w) :
    exec (.cinc f) s = .next (s.faults code w .read) := by
  have look := State.clear_looks h
  change execCinc f s = _
  refine State.runSeq_fault h ?_
  simp only [look.cur, look.cap, look.widened, Core.widened_eq, hr, bind, Except.bind]
  rfl

theorem addr_add_wide (a : Word) (z : Int) : a + BitVec.ofInt 64 z = BitVec.ofInt 64 ((a.toNat : Int) + z) := by
  rw [BitVec.ofInt_add, BitVec.ofInt_natCast, BitVec.ofNat_toNat, BitVec.setWidth_eq]

/-- CCLR: a sealed capability faults, another gives its address. -/
theorem exec_cclr_sealed {f : FR} (h : s.Clear s.cur f.sp true false [] [] m s1)
    (hs : (s.cap s.cur f.a).tag = true ∧ (s.cap s.cur f.a).sealed = true) :
    exec (.cclr f) s = .next (s.faults .capPerm (s.cap s.cur f.a).addr .read) := by
  have look := State.clear_looks h
  change execCclr f s = _
  refine State.runSeq_fault h ?_
  simp only [look.cur, look.cap, bind_faultIf, hs.1, hs.2, Bool.and_self, if_true]
  rfl

theorem exec_cclr_open {f : FR} (h : s.Clear s.cur f.sp true false [] [] m s1)
    (hs : ¬((s.cap s.cur f.a).tag = true ∧ (s.cap s.cur f.a).sealed = true)) :
    exec (.cclr f) s = .next (s.after (s1.setCap s.cur f.d (XReg.plain (s.cap s.cur f.a).addr)) f.sp m) := by
  have look := State.clear_looks h
  change execCclr f s = _
  refine State.runSeq_ok h ?_
  simp only [look.cur, look.cap, bind_faultIf, Bool.and_eq_true, if_neg hs]
  rfl

end Address

theorem capabilityAddressChange : Claims.CapabilityAddressChange := by
  unfold Claims.CapabilityAddressChange
  refine ⟨fun f s s1 s2 m b h hb => ⟨fun hs => ?_, fun hs => ?_⟩, fun f s s1 m h => ⟨fun hs => ?_, fun hs => ?_⟩,
    fun f s s1 m h => ⟨fun hs => exec_cclr_sealed h hs, fun hs => exec_cclr_open h hs⟩⟩
  · exact (State.derive_fault h hb (moveCap_sealed hs b) : execCseta f s = _)
  · obtain ⟨r, hr, hmoved⟩ := moveCap_open hs b
    exact ⟨r, (State.derive_ok h hb hr : execCseta f s = _), hmoved⟩
  · exact exec_cinc_fault h (moveCap_sealed hs _)
  · obtain ⟨r, hr, hmoved⟩ := moveCap_open hs ((s.cap s.cur f.a).addr + BitVec.ofInt 64 (Claims.wide s f.imm))
    exact ⟨r, exec_cinc_ok h hr, by rwa [addr_add_wide] at hmoved⟩

/-! ### Bounds and permissions (R288-R290) -/

section Narrow

variable {c : XReg} {len : Word}

theorem boundCap_untagged (ht : c.tag = false) : boundCap c len = fault .capTag c.addr := by
  simp only [boundCap, bind_faultIf, ht]
  rfl

theorem boundCap_sealed (ht : c.tag = true) (hs : c.sealed = true) : boundCap c len = fault .capPerm c.addr := by
  simp only [boundCap, bind_faultIf, ht, hs]
  rfl

/-- Rounded outward by the exponent `e`, the bounds asked for pass those of the source, or fault. -/
theorem boundCap_open {e lo hi : Nat} (ht : c.tag = true) (hs : c.sealed = false)
    (hr : roundBounds c.addr.toNat len.toNat = (e, lo * 2 ^ e, hi * 2 ^ e)) :
    boundCap c len = if 42 < e ∨ lo * 2 ^ e < c.base ∨ c.top < hi * 2 ^ e then fault .capBounds c.addr
      else .ok (XReg.ofWords c.addr (capHi e 0 (hi - lo) c.perms false c.otype) true) := by
  have hdiv : (hi * 2 ^ e - lo * 2 ^ e) / 2 ^ e = hi - lo := by rw [← Nat.sub_mul, Nat.mul_div_cancel _ (Nat.two_pow_pos e)]
  simp only [boundCap, bind_faultIf, ht, hs, hr, hdiv, Bool.not_true, Bool.false_eq_true, if_false, Bool.or_eq_true, decide_eq_true_eq, or_assoc]
  rfl

/-- Under the least exponent the result has the bounds asked for. -/
theorem boundCap_result {e : Nat} (he : e ≤ 42) (hat : (c.addr.toNat + len.toNat + 2 ^ e - 1) / 2 ^ e - c.addr.toNat / 2 ^ e < 2 ^ 21)
    (htop : (c.addr.toNat + len.toNat + 2 ^ e - 1) / 2 ^ e * 2 ^ e ≤ c.top) :
    let r := XReg.ofWords c.addr
      (capHi e 0 ((c.addr.toNat + len.toNat + 2 ^ e - 1) / 2 ^ e - c.addr.toNat / 2 ^ e) c.perms false c.otype) true
    r.tag = true ∧ r.sealed = false ∧ r.addr = c.addr ∧ r.base = c.addr.toNat / 2 ^ e * 2 ^ e ∧
      r.top = (c.addr.toNat + len.toNat + 2 ^ e - 1) / 2 ^ e * 2 ^ e ∧ r.perms = c.perms ∧ r.otype = c.otype := by
  intro r
  have hpos := Nat.two_pow_pos e
  obtain ⟨hb, ht⟩ := XReg.bounds_above (perms := c.perms) (otype := c.otype) he hat (Nat.div_le_div_right (by omega)) (htop.trans c.top_le) false
  exact ⟨XReg.ofWords_tag _ _ _, XReg.ofFields_sealed _ _ _ _ _ _ _ _, XReg.ofWords_addr _ _ _, hb, ht,
    by rw [XReg.ofFields_perms, Nat.mod_eq_of_lt c.perms_lt], by rw [XReg.ofFields_otype, Nat.mod_eq_of_lt c.otype_lt]⟩

/-- Cap(A) with the permissions that a mask leaves (R289). -/
def XReg.masked (c : XReg) (m : Word) : XReg := XReg.ofWords c.addr (capHi c.exp c.below c.above (c.perms &&& m.toNat) c.sealed c.otype) true

theorem XReg.masked_fields (c : XReg) (m : Word) : (c.masked m).tag = true ∧ (c.masked m).sealed = c.sealed ∧ (c.masked m).addr = c.addr ∧
    (c.masked m).base = c.base ∧ (c.masked m).top = c.top ∧ (c.masked m).perms = c.perms &&& (m.toNat % 128) ∧
    (c.masked m).otype = c.otype := by
  have haddr : (c.masked m).addr = c.addr := XReg.ofWords_addr _ _ _
  have hexp : (c.masked m).exp = c.exp := by rw [XReg.masked, XReg.ofFields_exp, Nat.mod_eq_of_lt c.exp_lt]
  have hbelow : (c.masked m).below = c.below := by rw [XReg.masked, XReg.ofFields_below, Nat.mod_eq_of_lt c.below_lt]
  have habove : (c.masked m).above = c.above := by rw [XReg.masked, XReg.ofFields_above, Nat.mod_eq_of_lt c.above_lt]
  obtain ⟨hbase, htop⟩ := XReg.bounds_congr haddr hexp hbelow habove
  have hperms : (c.masked m).perms = c.perms &&& (m.toNat % 128) := by
    rw [XReg.masked, XReg.ofFields_perms, show 128 = 2 ^ 7 from rfl, Nat.and_mod_two_pow, Nat.mod_eq_of_lt c.perms_lt]
  exact ⟨XReg.ofWords_tag _ _ _, XReg.ofFields_sealed _ _ _ _ _ _ _ _, haddr, hbase, htop, hperms,
    by rw [XReg.masked, XReg.ofFields_otype, Nat.mod_eq_of_lt c.otype_lt]⟩

/-- A range of the local store needs no rounding (R290). -/
theorem roundBounds_local {off n : Nat} (h : off + n ≤ 2 ^ 20) : roundBounds off n = (0, off, off + n) := by
  have hat : (off + n + 2 ^ 0 - 1) / 2 ^ 0 - off / 2 ^ 0 < 2 ^ 21 := by
    rw [pow_zero, Nat.div_one, Nat.div_one]
    omega
  have h := roundBounds_eq (lo := off) (len := n) (e := 0) (by omega) (by omega) (fun j hj => absurd hj (Nat.not_lt_zero j)) hat
  simpa using h

theorem capFor_local {off n perms : Nat} (h : off + n ≤ 2 ^ 20) (hp : perms < 128) :
    let r := capFor off n perms
    r.tag = true ∧ r.sealed = false ∧ r.addr = BitVec.ofNat 64 off ∧ r.base = off ∧ r.top = off + n ∧ r.perms = perms := by
  intro r
  have haddr : (BitVec.ofNat 64 off : Word).toNat = off := by
    rw [BitVec.toNat_ofNat]
    omega
  have hr : r = XReg.ofWords (BitVec.ofNat 64 off) (capHi 0 0 (off + n - (BitVec.ofNat 64 off : Word).toNat / 2 ^ 0) perms false 0) true := by
    simp only [r, capFor, roundBounds_local h, mkCap, haddr, pow_zero, Nat.div_one]
  obtain ⟨hb, ht⟩ := XReg.bounds_above (addr := BitVec.ofNat 64 off) (e := 0) (perms := perms) (otype := 0) (hi := off + n) (by omega)
    (by rw [haddr, pow_zero, Nat.div_one]; omega) (by rw [haddr, pow_zero, Nat.div_one]; omega) (by omega) false
  rw [← hr] at hb ht
  rw [haddr] at hb
  refine ⟨rfl, ?_, ?_, by simpa using hb, by simpa using ht, ?_⟩
  · rw [hr, XReg.ofFields_sealed]
  · rw [hr, XReg.ofWords_addr]
  · rw [hr, XReg.ofFields_perms, Nat.mod_eq_of_lt hp]

theorem perms_and_pL (c : XReg) : c.perms &&& pL = 0 ↔ c.perms.testBit 4 = false := by
  rw [show pL = 2 ^ 4 from rfl, Nat.and_two_pow]
  cases c.perms.testBit 4 <;> simp

end Narrow

section Narrowing

variable {s s1 s2 : State} {m b : Word} {f : FR} (h : s.Clear s.cur f.sp true false [f.b] [] m s1) (hb : s1.src s.cur f.b = .ok (b, s2))
include h hb

theorem exec_candp_untagged (ht : (s.cap s.cur f.a).tag = false) :
    exec (.candp f) s = .next (s.faults .capTag (s.cap s.cur f.a).addr .read) := by
  refine (State.derive_fault h hb ?_ : execCandp f s = _)
  simp only [bind_faultIf, ht]
  rfl

theorem exec_candp_sealed (ht : (s.cap s.cur f.a).tag = true) (hs : (s.cap s.cur f.a).sealed = true) :
    exec (.candp f) s = .next (s.faults .capPerm (s.cap s.cur f.a).addr .read) := by
  refine (State.derive_fault h hb ?_ : execCandp f s = _)
  simp only [bind_faultIf, ht, hs]
  rfl

theorem exec_candp_ok (ht : (s.cap s.cur f.a).tag = true) (hs : (s.cap s.cur f.a).sealed = false) :
    exec (.candp f) s = .next (s.after (s2.setCap s.cur f.d ((s.cap s.cur f.a).masked b)) f.sp m) := by
  refine (State.derive_ok h hb ?_ : execCandp f s = _)
  simp only [bind_faultIf, ht, hs]
  rw [XReg.masked, hs]
  rfl

/-- CLSCAP checks Cap(A) unless A is x0: its tag, then its permissions (R290). -/
theorem exec_clscap_untagged (hown : f.a ≠ .x 0) (ht : (s.cap s.cur f.a).tag = false) :
    exec (.clscap f) s = .next (s.faults .capTag (s.cap s.cur f.a).addr .read) := by
  refine (State.derive_fault h hb ?_ : execClscap f s = _)
  simp only [bind_faultIf, ht, hown, decide_false]
  rfl

theorem exec_clscap_perms (hown : f.a ≠ .x 0) (ht : (s.cap s.cur f.a).tag = true)
    (hbad : (s.cap s.cur f.a).sealed = true ∨ (s.cap s.cur f.a).perms.testBit 4 = false) :
    exec (.clscap f) s = .next (s.faults .capPerm (s.cap s.cur f.a).addr .read) := by
  have hperm : ((s.cap s.cur f.a).sealed || decide ((s.cap s.cur f.a).perms &&& pL = 0)) = true := by
    rwa [Bool.or_eq_true, decide_eq_true_eq, perms_and_pL]
  refine (State.derive_fault h hb ?_ : execClscap f s = _)
  simp only [bind_faultIf, ht, hown, hperm, decide_false]
  rfl

/-- Past these checks, the range must lie in a local store, and within Cap(A)'s. -/
theorem exec_clscap_range
    (hpass : f.a = .x 0 ∨ (s.cap s.cur f.a).tag = true ∧ (s.cap s.cur f.a).sealed = false ∧ (s.cap s.cur f.a).perms.testBit 4 = true) :
    let off := b.toNat % 2 ^ 20
    let len := b.toNat / 2 ^ 20 % 2 ^ 21
    let own := f.a = .x 0
    exec (.clscap f) s = if 2 ^ 20 < off + len ∨ (¬own ∧ (off < (s.cap s.cur f.a).base ∨ (s.cap s.cur f.a).top < off + len)) then
        .next (s.faults .capBounds (BitVec.ofNat 64 off) .read)
      else .next (s.after (s2.setCap s.cur f.d (capFor off len (if own then pR + pW + pL else (s.cap s.cur f.a).perms))) f.sp m) := by
  intro off len own
  have hoff : fld b 19 0 = off := by simp [fld, off]
  have hlen : fld b 40 20 = len := rfl
  have htag : (!decide (f.a = .x 0) && !(s.cap s.cur f.a).tag) = false := by
    obtain hx | ⟨ht, -, -⟩ := hpass
    · simp [hx]
    · simp [ht]
  have hperm : (!decide (f.a = .x 0) && ((s.cap s.cur f.a).sealed || decide ((s.cap s.cur f.a).perms &&& pL = 0))) = false := by
    obtain hx | ⟨-, hs, hp⟩ := hpass
    · simp [hx]
    · simp [hs, perms_and_pL, hp]
  have hout : (decide (2 ^ 20 < off + len) || (!decide (f.a = .x 0) &&
      (decide (off < (s.cap s.cur f.a).base) || decide ((s.cap s.cur f.a).top < off + len)))) = true ↔
      2 ^ 20 < off + len ∨ ¬own ∧ (off < (s.cap s.cur f.a).base ∨ (s.cap s.cur f.a).top < off + len) := by
    simp [own]
  split
  · next hrange =>
    refine (State.derive_fault h hb ?_ : execClscap f s = _)
    simp only [bind_faultIf, hoff, hlen, htag, hperm, hout.2 hrange, if_true, Bool.false_eq_true, if_false]
  · next hrange =>
    refine (State.derive_ok h hb ?_ : execClscap f s = _)
    simp only [bind_faultIf, hoff, hlen, htag, hperm, if_neg (hrange ∘ hout.1), Bool.false_eq_true, if_false, decide_eq_true_eq]
    rfl

end Narrowing

theorem capabilityNarrowing : Claims.CapabilityNarrowing := by
  unfold Claims.CapabilityNarrowing
  intro f s s1 s2 m b h hb c result rounded
  refine ⟨?_, fun ht hs e hr => ?_, fun ht hs => ?_, fun hown ht => exec_clscap_untagged h hb hown ht,
    fun hown ht hbad => exec_clscap_perms h hb hown ht hbad, fun hpass => ?_⟩
  · simp only [List.forall_mem_cons, List.not_mem_nil, false_implies, implies_true, and_true]
    exact ⟨⟨fun ht => (State.derive_fault h hb (boundCap_untagged ht) : execCsetb f s = _),
      fun ht hs => (State.derive_fault h hb (boundCap_sealed ht hs) : execCsetb f s = _)⟩,
      fun ht => exec_candp_untagged h hb ht, fun ht hs => exec_candp_sealed h hb ht hs⟩
  · obtain ⟨hbelow, hat⟩ := hr
    have hopen := boundCap_open ht hs (roundBounds_eq c.addr.isLt b.isLt hbelow hat)
    intro lo hi
    split
    · next hbad =>
      rw [if_pos hbad] at hopen
      exact (State.derive_fault h hb hopen : execCsetb f s = _)
    · next hgood =>
      rw [if_neg hgood] at hopen
      simp only [not_or, not_lt] at hgood
      obtain ⟨he, -, htop⟩ := hgood
      obtain ⟨htag, hsealed, hfields⟩ := boundCap_result he hat htop
      exact ⟨_, (State.derive_ok h hb hopen : execCsetb f s = _), htag, hsealed, hfields⟩
  · obtain ⟨htag, hsealed, hfields⟩ := c.masked_fields b
    exact ⟨_, exec_candp_ok h hb ht hs, htag, hsealed.trans hs, hfields⟩
  · have hrange := exec_clscap_range h hb hpass
    split
    · next hbad => exact hrange.trans (if_pos hbad)
    · next hgood =>
      obtain ⟨htag, hsealed, hfields⟩ := capFor_local (not_lt.1 (not_or.1 hgood).1)
        (show (if f.a = .x 0 then pR + pW + pL else c.perms) < 128 by split; exacts [by decide, c.perms_lt])
      exact ⟨_, hrange.trans (if_neg hgood), htag, hsealed, hfields⟩

/-! ### Seals (R291) -/

theorem Looks.core_refs {s t : State} (h : Looks s t) (k : Nat) : (t.core k).refs = (s.core k).refs := by
  rw [h.core k]
  rfl

theorem Looks.handle {s t : State} (h : Looks s t) (n i : Nat) : (t.ctx n).handle i = (s.ctx n).handle i := by
  rw [Ctx.handle, Ctx.handle, h.ctx_handles]

theorem Looks.handlePasses {s t : State} (h : Looks s t) (k : Nat) (r : HRef) : t.handlePasses k r = s.handlePasses k r := by
  simp only [State.handlePasses, Ctx.current, h.handle, h.ctxOf, h.core_refs]

/-- The checks of CSEAL and CUNSEAL, kind by kind. -/
theorem State.sealCheck_eq (s : State) (k : Nat) (opens : Bool) (a b : XReg) :
    let t := ((s.ctx (s.ctxOf k)).handle (b.addr.toNat % 4096)).ktype
    s.sealCheck k opens a b =
      if a.tag = false then fault .capTag a.addr
      else if b.tag = false then fault .capTag b.addr
      else if a.sealed ≠ opens then fault .capPerm a.addr
      else if b.sealed = true ∨ b.perms ≠ 0b1000000 ∨ t = 0 then fault .capPerm b.addr
      else if opens = true ∧ a.otype ≠ t.toNat then fault .capPerm a.addr
      else if s.handlePasses k (HRef.of b.addr) = false then fault .handleStale b.addr
      else .ok t.toNat := by
  intro t
  have hindex : (HRef.of b.addr).index = b.addr.toNat % 4096 := by simp [HRef.of, fld]
  have ht : t.toNat = 0 ↔ t = 0 := ⟨fun h => BitVec.eq_of_toNat_eq h, fun h => by rw [h]; rfl⟩
  simp only [State.sealCheck, bind_faultIf, hindex, Bool.not_eq_true', bne_iff_ne, Bool.or_eq_true, Bool.and_eq_true, decide_eq_true_eq, ite_or]
  simp only [t, ← ht]
  rfl

/-- What follows from each answer of a check follows in its case. -/
theorem ite_of_eq_ite {α : Type} {p P Q : Prop} [Decidable p] {r x y : α} (h : r = if p then x else y) (hx : r = x → P) (hy : r = y → Q) :
    if p then P else Q := by
  split
  · next hp => exact hx (h.trans (if_pos hp))
  · next hp => exact hy (h.trans (if_neg hp))

/-- Cap(A) as CSEAL and CUNSEAL write it: the seal changed, the type given, all else kept. -/
def XReg.withSeal (a : XReg) (sealed : Bool) (otype : Nat) : XReg :=
  XReg.ofWords a.addr (capHi a.exp a.below a.above a.perms sealed otype) true

theorem XReg.withSeal_fields (a : XReg) (sealed : Bool) {otype : Nat} (ho : otype < 256) : let r := a.withSeal sealed otype
    r.tag = true ∧ r.addr = a.addr ∧ r.base = a.base ∧ r.top = a.top ∧ r.perms = a.perms ∧ r.sealed = sealed ∧ r.otype = otype := by
  intro r
  have haddr : r.addr = a.addr := XReg.ofWords_addr _ _ _
  have hexp : r.exp = a.exp := (XReg.ofFields_exp _ _ _ _ _ _ _ _).trans (Nat.mod_eq_of_lt a.exp_lt)
  have hbelow : r.below = a.below := (XReg.ofFields_below _ _ _ _ _ _ _ _).trans (Nat.mod_eq_of_lt a.below_lt)
  have habove : r.above = a.above := (XReg.ofFields_above _ _ _ _ _ _ _ _).trans (Nat.mod_eq_of_lt a.above_lt)
  obtain ⟨hbase, htop⟩ := XReg.bounds_congr haddr hexp hbelow habove
  exact ⟨rfl, haddr, hbase, htop, (XReg.ofFields_perms _ _ _ _ _ _ _ _).trans (Nat.mod_eq_of_lt a.perms_lt),
    XReg.ofFields_sealed _ _ _ _ _ _ _ _, (XReg.ofFields_otype _ _ _ _ _ _ _ _).trans (Nat.mod_eq_of_lt ho)⟩

section Sealing

variable {s s1 : State} {m : Word} {f : FR}

/-- CSEAL or, where it opens a seal, CUNSEAL. -/
def sealWord (opens : Bool) (f : FR) : Instr := if opens then .cunseal f else .cseal f

theorem exec_sealWord_ok {opens : Bool} {t : Nat} (h : s.Clear s.cur f.sp true false [] [] m s1)
    (hc : s1.sealCheck s.cur opens (s.cap s.cur f.a) (s.cap s.cur f.b) = .ok t) : exec (sealWord opens f) s =
    .next (s.after (s1.setCap s.cur f.d ((s.cap s.cur f.a).withSeal (!opens) (if opens then 0 else t))) f.sp m) := by
  have look := State.clear_looks h
  cases opens with
  | false =>
    change execCseal f s = _
    refine State.runSeq_ok h ?_
    simp only [look.cur, look.cap, hc, bind, Except.bind]
    rfl
  | true =>
    change execCunseal f s = _
    refine State.runSeq_ok h ?_
    simp only [look.cur, look.cap, hc, bind, Except.bind]
    rfl

theorem exec_sealWord_fault {opens : Bool} {code : FCode} {w : Word} (h : s.Clear s.cur f.sp true false [] [] m s1)
    (hc : s1.sealCheck s.cur opens (s.cap s.cur f.a) (s.cap s.cur f.b) = fault code w) :
    exec (sealWord opens f) s = .next (s.faults code w .read) := by
  have look := State.clear_looks h
  cases opens with
  | false =>
    change execCseal f s = _
    refine State.runSeq_fault h ?_
    simp only [look.cur, look.cap, hc, bind, Except.bind]
    rfl
  | true =>
    change execCunseal f s = _
    refine State.runSeq_fault h ?_
    simp only [look.cur, look.cap, hc, bind, Except.bind]
    rfl

end Sealing

theorem capabilitySealing : Claims.CapabilitySealing := by
  unfold Claims.CapabilitySealing
  intro opens f s s1 m h i a b r t bad
  have look := State.clear_looks h
  have hcheck := s1.sealCheck_eq s.cur opens a b
  rw [look.ctxOf, look.handle, look.handlePasses] at hcheck
  have hbad (code : FCode) (w : Word) (hc : s1.sealCheck s.cur opens a b = fault code w) : bad code w := exec_sealWord_fault h hc
  refine ite_of_eq_ite hcheck (hbad _ _) fun hcheck => ite_of_eq_ite hcheck (hbad _ _) fun hcheck => ite_of_eq_ite hcheck (hbad _ _) fun hcheck =>
    ite_of_eq_ite hcheck (hbad _ _) fun hcheck => ite_of_eq_ite hcheck (hbad _ _) fun hcheck => ite_of_eq_ite hcheck (hbad _ _) fun hcheck => ?_
  have hotype : (if opens then 0 else t.toNat) < 256 := by
    split
    · decide
    · exact t.isLt
  exact ⟨_, exec_sealWord_ok h hcheck, a.withSeal_fields (!opens) hotype⟩

/-- Settles O41: a new address keeps the granules, narrowing takes the least exponent that spans the bounds asked for, and a seal moves
between capabilities after its checks kind by kind. -/
theorem capabilityDerivation : Obligations.CapabilityDerivation := ⟨capabilityAddressChange, capabilityNarrowing, capabilitySealing⟩

end Sys2Proof.Machine
end

section
/-! SUPPORT. Branches, loops and jumps (16 R293-R298). -/

namespace Sys2Proof.Machine

/-! ### Where control goes -/

section Going

variable {s s1 t : State} {sp : Bool} {m dest : Word} {srcs : List Opnd}

/-- Whether a word at an address lies within the current core's PCC (R293). -/
def State.WithinPcc (s : State) (a : Word) : Prop := (s.core s.cur).pcc.base ≤ a.toNat ∧ a.toNat + 8 ≤ (s.core s.cur).pcc.top

/-- The address that a branch of the current core takes control to (R294-R295). -/
def State.branchDest (s : State) (f : FC) (taken : Bool) : Word :=
  if taken then BitVec.ofInt 64 ((s.core s.cur).pc.toNat + 8 * Claims.wide s f.disp) else (s.core s.cur).pc + (if f.sp then 16 else 8)

theorem Core.reaches_iff (c : Core) (a : Word) : c.reaches a = true ↔ c.pcc.base ≤ a.toNat ∧ a.toNat + 8 ≤ c.pcc.top := by
  simp [Core.reaches, XReg.outside]

/-- A word of the current core's own address plus eight times an immediate. -/
theorem pc_add_wide (pc : Word) (z : Int) : pc + 8 * BitVec.ofInt 64 z = BitVec.ofInt 64 ((pc.toNat : Int) + 8 * z) := by
  rw [← addr_add_wide, BitVec.ofInt_mul]
  rfl

/-- A jump that passes control to `dest` where that lies within PCC, and faults there where it does not, is `Claims.goesTo`. -/
theorem State.runJump_goesTo {body : State → Res (State × Word)} (h : s.Clear s.cur sp false false srcs [] m s1)
    (hin : s.WithinPcc dest → body s1 = .ok (t, dest)) (hout : ¬s.WithinPcc dest → body s1 = fault .capBounds dest) :
    s.runJump s.cur sp srcs body = Claims.goesTo s t sp m dest := by
  unfold Claims.goesTo
  split
  · next hp => exact State.runJump_ok h (hin hp)
  · next hp => exact State.runJump_fault h (hout hp)

/-- A branch is chosen, and its place checked, as before the live mask was fetched. -/
theorem State.branchTo_eq (look : Looks s s1) (f : FC) (taken : Bool) : s1.branchTo f taken =
    faultIf (!(s.core s.cur).reaches (s.branchDest f taken)) .capBounds (s.branchDest f taken) >>= fun _ => .ok (s.branchDest f taken) := by
  have hdest : (if taken then (s1.core s1.cur).target f else (s1.core s1.cur).fallThrough f.sp) = s.branchDest f taken := by
    simp only [look.cur, Core.target, Core.fallThrough, look.core_pc, look.widened, Core.widened_eq, pc_add_wide, State.branchDest]
  have hreach (a : Word) : (s1.core s1.cur).reaches a = (s.core s.cur).reaches a := by
    simp only [Core.reaches, look.cur, look.core_pcc]
  rw [← hdest, ← hreach]
  rfl

theorem State.branchTo_within (look : Looks s s1) {f : FC} {taken : Bool} (hp : s.WithinPcc (s.branchDest f taken)) :
    s1.branchTo f taken = .ok (s.branchDest f taken) := by
  rw [State.branchTo_eq look, (Core.reaches_iff _ _).2 hp]
  rfl

theorem State.branchTo_outside (look : Looks s s1) {f : FC} {taken : Bool} (hp : ¬s.WithinPcc (s.branchDest f taken)) :
    s1.branchTo f taken = fault .capBounds (s.branchDest f taken) := by
  rw [State.branchTo_eq look, Bool.eq_false_iff.2 (hp ∘ (Core.reaches_iff _ _).1)]
  rfl

/-- A body that chooses its branch and then goes on as `g` says. -/
theorem State.runJump_branchTo {body : State → Res (State × Word)} {f : FC} {taken : Bool} (h : s.Clear s.cur sp false false srcs [] m s1)
    (hb : body s1 = s1.branchTo f taken >>= fun next => .ok (t, next)) :
    s.runJump s.cur sp srcs body = Claims.goesTo s t sp m (s.branchDest f taken) := by
  refine State.runJump_goesTo h (fun hp => ?_) fun hp => ?_
  · rw [hb, State.branchTo_within (State.clear_looks h) hp]
    rfl
  · rw [hb, State.branchTo_outside (State.clear_looks h) hp]
    rfl

end Going

/-! ### Branches (R293-R295) -/

section Branches

variable {s s1 s2 s3 : State} {f : FC} {m a b : Word}

/-- A branch on two sources. -/
theorem State.compareBranch_goesTo {p : Word → Word → Bool} {c : Bool} (h : s.Clear s.cur f.sp false false [f.a, f.b] [] m s1)
    (ha : s1.src s.cur f.a = .ok (a, s2)) (hb : s2.src s.cur f.b = .ok (b, s3)) (hc : p a b = c) :
    s.compareBranch f p = Claims.goesTo s s3 f.sp m (s.branchDest f c) := by
  refine State.runJump_branchTo h ?_
  simp only [(State.clear_looks h).cur, ha, hb, hc, bind, Except.bind]
  rfl

/-- A branch on a k register, sampled now. -/
theorem State.kBranch_goesTo {want : Bool} {n : Fin 16} (h : s.Clear s.cur f.sp false false [] [] m s1) (ha : f.a = .k n) :
    s.kBranch f want = Claims.goesTo s s1 f.sp m (s.branchDest f (s1.kreg s.cur n.val == want)) := by
  have hk : decide (bit (s1.kreg s.cur n.val) ≠ 0) = s1.kreg s.cur n.val := by
    cases s1.kreg s.cur n.val <;> rfl
  have hsrc : s1.src s.cur f.a = .ok (bit (s1.kreg s.cur n.val), s1) := by rw [ha]; rfl
  refine State.runJump_branchTo h ?_
  simp only [(State.clear_looks h).cur, hsrc, hk, bind, Except.bind]
  rfl

theorem exec_jmp_goesTo (h : s.Clear s.cur f.sp false false [] [] m s1) :
    exec (.jmp f) s = Claims.goesTo s s1 f.sp m (s.branchDest f true) :=
  (State.runJump_branchTo h rfl : execJmp f s = _)

end Branches

theorem branchTargets : Claims.BranchTargets := by
  unfold Claims.BranchTargets
  intro f s s1 m pc target past
  have hdest (c : Bool) : (if c then target else past) = s.branchDest f c := rfl
  refine ⟨fun p hp s2 s3 a b h ha hb => ?_, fun h => ⟨fun n hn => ⟨?_, ?_⟩, exec_jmp_goesTo h⟩⟩
  · rw [hdest]
    simp only [List.mem_cons, List.not_mem_nil, or_false] at hp
    obtain rfl | rfl | rfl | rfl | rfl | rfl := hp
    · exact (State.compareBranch_goesTo h ha hb (decide_eq_decide.2 BitVec.toNat_inj.symm) : execBeq f s = _)
    · exact (State.compareBranch_goesTo h ha hb (decide_eq_decide.2 (not_congr BitVec.toNat_inj.symm)) : execBne f s = _)
    · exact (State.compareBranch_goesTo h ha hb rfl : execBlt f s = _)
    · exact (State.compareBranch_goesTo h ha hb rfl : execBge f s = _)
    · exact (State.compareBranch_goesTo h ha hb rfl : execBltu f s = _)
    · exact (State.compareBranch_goesTo h ha hb rfl : execBgeu f s = _)
  · rw [hdest, ← beq_true (s1.kreg s.cur n.val)]
    exact (State.kBranch_goesTo h hn : execBk f s = _)
  · have hnot : (if s1.kreg s.cur n.val then past else target) = s.branchDest f (s1.kreg s.cur n.val == false) := by
      cases s1.kreg s.cur n.val <;> rfl
    rw [hnot]
    exact (State.kBranch_goesTo h hn : execBnk f s = _)

/-! ### Links (R296-R298) -/

/-- A link written to `d`, with the return address passed to the l file (R297). -/
def State.linked (s : State) (k : Nat) (d : Opnd) (link : XReg) (ret : Word) : State := (s.setLink' k d link).shiftL k ret

/-- The link of a return address from an old PCC: the capability in an x register, the address alone in a y register. -/
theorem State.linked_move (s : State) (k : Nat) (d : Opnd) (pcc : XReg) (ret : Word) : s.linked k d (pcc.move ret) ret =
    (match d with
      | .y i => s.modVs k (fun r => r.setY i.val ret)
      | d => s.setCap k d (pcc.move ret)).modVs k (fun r => Claims.shifted r ret) := by
  cases d with
  | y i => simp only [State.linked, State.setLink', XReg.move_addr]; rfl
  | _ => rfl

/-- A count is written like a link, without a tag. -/
theorem State.setLink'_plain (s : State) (k : Nat) (d : Opnd) (n : Word) : s.setLink' k d (XReg.plain n) =
    match d with
    | .y i => s.modVs k (fun r => r.setY i.val n)
    | d => s.setCap k d ⟨n.setWidth 128, false⟩ := by
  cases d with
  | y i => simp only [State.setLink', XReg.plain_addr]
  | _ => rfl

section Jumps

variable {s s1 s2 : State} {m a : Word}

theorem exec_jal_goesTo {f : FC} (h : s.Clear s.cur f.sp false false [] [] m s1) : exec (.jal f) s =
    Claims.goesTo s (s1.linked s.cur f.a ((s.core s.cur).pcc.move (s.branchDest f false)) (s.branchDest f false)) f.sp m (s.branchDest f true) := by
  have look := State.clear_looks h
  have hret : (s1.core s1.cur).fallThrough f.sp = s.branchDest f false := by rw [Core.fallThrough, look.cur, look.core_pc]; rfl
  refine (State.runJump_branchTo h ?_ : execJal f s = _)
  change (s1.branchTo f true >>= fun next => .ok (s1.linked s1.cur f.a ((s1.core s1.cur).pcc.move ((s1.core s1.cur).fallThrough f.sp))
    ((s1.core s1.cur).fallThrough f.sp), next)) = _
  rw [hret, look.cur, look.core_pcc]

theorem exec_loop_goesTo {f : FC} (h : s.Clear s.cur f.sp false false [f.a] [] m s1) (ha : s1.src s.cur f.a = .ok (a, s2)) :
    exec (.loop f) s = Claims.goesTo s (s2.setLink' s.cur f.a (XReg.plain (a - 1))) f.sp m (s.branchDest f (decide (a - 1 ≠ 0))) := by
  refine (State.runJump_branchTo h ?_ : execLoop f s = _)
  simp only [(State.clear_looks h).cur, ha, bind, Except.bind]
  rfl

/-- The permissions that a jump asks for, PX and PG, with PL clear (03 R48). -/
theorem execPerms_iff : ∀ p < 128, (p &&& (pX + pG) ≠ pX + pG ∨ (p &&& pL ≠ 0) = (p &&& pG ≠ 0)) ↔
    p.testBit 2 = false ∨ p.testBit 5 = false ∨ p.testBit 4 = true := by decide

theorem lacks_exec (c : XReg) : c.lacks (pX + pG) = if c.tag = false then some .capTag
    else if c.sealed = true ∨ c.perms.testBit 2 = false ∨ c.perms.testBit 5 = false ∨ c.perms.testBit 4 = true then some .capPerm
    else none := by
  have hspaces : (pX + pG) &&& (pL + pG) ≠ 0 := by decide
  have hperm : (c.sealed || decide (c.perms &&& (pX + pG) ≠ pX + pG) ||
      (decide ((pX + pG) &&& (pL + pG) ≠ 0) && decide ((c.perms &&& pL ≠ 0) = (c.perms &&& pG ≠ 0)))) = true ↔
      c.sealed = true ∨ c.perms.testBit 2 = false ∨ c.perms.testBit 5 = false ∨ c.perms.testBit 4 = true := by
    rw [← execPerms_iff c.perms c.perms_lt, decide_eq_true hspaces, Bool.true_and, Bool.or_eq_true, Bool.or_eq_true, decide_eq_true_eq,
      decide_eq_true_eq, or_assoc]
  simp only [XReg.lacks, hperm, Bool.not_eq_true']

/-- The check of 03 R48 at one address: what the capability lacks, then its bounds. -/
theorem checkCap_of_lacks {c : XReg} {need n : Nat} {a : Word} {f : FCode} (h : c.lacks need = some f) :
    liftCap (checkCap c need [a] n) = fault f a := by
  rw [checkCap, h]
  rfl

theorem checkCap_of_not_lacks {c : XReg} {need n : Nat} {a : Word} (h : c.lacks need = none) :
    liftCap (checkCap c need [a] n) = faultIf (c.outside a n) .capBounds a := by
  rw [checkCap, h]
  cases hout : c.outside a n <;> simp [hout] <;> rfl

/-- The checks of JR on its target, in their order (R298). -/
def jumpCheck (c : XReg) : Res Unit := do
  liftCap (checkCap c (pX + pG) [c.addr] 8)
  faultIf (decide (c.addr.toNat % 8 ≠ 0)) .align c.addr

theorem jumpCheck_eq (c : XReg) : jumpCheck c =
    if c.tag = false then fault .capTag c.addr
    else if c.sealed = true ∨ c.perms.testBit 2 = false ∨ c.perms.testBit 5 = false ∨ c.perms.testBit 4 = true then fault .capPerm c.addr
    else if c.addr.toNat < c.base ∨ c.top < c.addr.toNat + 8 then fault .capBounds c.addr
    else if c.addr.toNat % 8 ≠ 0 then fault .align c.addr
    else .ok () := by
  have hout : c.outside c.addr 8 = true ↔ c.addr.toNat < c.base ∨ c.top < c.addr.toNat + 8 := by simp [XReg.outside]
  have hlacks := lacks_exec c
  unfold jumpCheck
  split
  · next ht =>
    rw [if_pos ht] at hlacks
    rw [checkCap_of_lacks hlacks]
    rfl
  · next ht =>
    rw [if_neg ht] at hlacks
    split
    · next hp =>
      rw [if_pos hp] at hlacks
      rw [checkCap_of_lacks hlacks]
      rfl
    · next hp =>
      rw [if_neg hp] at hlacks
      rw [checkCap_of_not_lacks hlacks, bind_faultIf]
      simp only [hout, faultIf, decide_eq_true_eq]

/-- The state of a jump to Cap(A): PCC is the target, the link comes from the old one. -/
def State.jumped (s : State) (f : FR) : State :=
  (s.modCore s.cur fun c => { c with pcc := s.cap s.cur f.a }).linked s.cur f.d
    ((s.core s.cur).pcc.move ((s.core s.cur).fallThrough f.sp)) ((s.core s.cur).fallThrough f.sp)

theorem execJr_eq (f : FR) (s : State) : execJr f s = s.runJump s.cur f.sp [] fun t =>
    jumpCheck (t.cap t.cur f.a) >>= fun _ => .ok (t.jumped f, (t.cap t.cur f.a).addr) := by
  simp only [jumpCheck, bind_assoc]
  rfl

section JumpRegister

variable {f : FR} (h : s.Clear s.cur f.sp false false [] [] m s1)
include h

theorem exec_jr_ok (hc : jumpCheck (s.cap s.cur f.a) = .ok ()) :
    exec (.jr f) s = .next ((s1.jumped f).finished s.cur f.sp m (s.cap s.cur f.a).addr) := by
  have look := State.clear_looks h
  refine (execJr_eq f s).trans (State.runJump_ok h ?_)
  rw [look.cur, look.cap, hc]
  rfl

theorem exec_jr_fault {code : FCode} {w : Word} (hc : jumpCheck (s.cap s.cur f.a) = fault code w) :
    exec (.jr f) s = .next (s.faults code w .fetch) := by
  have look := State.clear_looks h
  refine (execJr_eq f s).trans (State.runJump_fault h ?_)
  rw [look.cur, look.cap, hc]
  rfl

theorem State.jumped_eq : s1.jumped f = (s1.modCore s.cur fun c => { c with pcc := s.cap s.cur f.a }).linked s.cur f.d
    ((s.core s.cur).pcc.move ((s.core s.cur).fallThrough f.sp)) ((s.core s.cur).fallThrough f.sp) := by
  have look := State.clear_looks h
  simp only [State.jumped, Core.fallThrough, look.cur, look.cap, look.core_pc, look.core_pcc]

end JumpRegister

end Jumps

theorem loopAndLinkJumps : Claims.LoopAndLinkJumps := by
  unfold Claims.LoopAndLinkJumps
  intro s s1 m pc link
  have hlink (t : State) (d : Opnd) (ret : Word) : link t d ret = t.linked s.cur d ((s.core s.cur).pcc.move ret) ret :=
    (State.linked_move _ _ _ _ _).symm
  refine ⟨fun f => ⟨fun s2 a h ha => ?_, fun h => ?_⟩, fun f h => ?_⟩
  · intro n t
    have hn : n = a - 1 := (sub_eq_ofInt a 1).symm
    have ht : t = s2.setLink' s.cur f.a (XReg.plain n) := (State.setLink'_plain _ _ _ _).symm
    have hdest : (if n = 0 then pc + (if f.sp then 16 else 8) else BitVec.ofInt 64 (pc.toNat + 8 * Claims.wide s f.disp)) =
        s.branchDest f (decide (n ≠ 0)) := by
      by_cases h0 : n = 0 <;> simp [State.branchDest, h0, pc]
    rw [hdest, ht, hn]
    exact exec_loop_goesTo h ha
  · rw [hlink]
    exact exec_jal_goesTo h
  · have hcheck := jumpCheck_eq (s.cap s.cur f.a)
    have hbad (code : FCode) (hc : jumpCheck (s.cap s.cur f.a) = fault code (s.cap s.cur f.a).addr) := exec_jr_fault h hc
    refine ite_of_eq_ite hcheck (hbad _) fun hcheck => ite_of_eq_ite hcheck (hbad _) fun hcheck => ite_of_eq_ite hcheck (hbad _) fun hcheck =>
      ite_of_eq_ite hcheck (hbad _) fun hcheck => ?_
    rw [hlink, exec_jr_ok h hcheck, State.jumped_eq h]
    rfl

/-- Settles O42: each word chooses its place, which is checked before anything is written; JR checks its target kind by kind. -/
theorem branchesAndJumps : Obligations.BranchesAndJumps := ⟨branchTargets, loopAndLinkJumps⟩

end Sys2Proof.Machine
end

section
/-! SUPPORT. What ending a firing leaves of the phase buffers and open host-queue records of the cores (09 R154-R155). -/

namespace Sys2Proof.Machine

/-! ### The relation -/

/-- The core has the same left to publish: its phase buffer and its open host-queue record. -/
def Core.SameOutput (c d : Core) : Prop := d.buffer = c.buffer ∧ d.hq = c.hq

/-- Every core has. -/
def SameOutputs (s t : State) : Prop := ∀ k, (s.core k).SameOutput (t.core k)

theorem Core.SameOutput.refl (c : Core) : c.SameOutput c := ⟨rfl, rfl⟩

theorem Core.SameOutput.trans {c d e : Core} (h : c.SameOutput d) (g : d.SameOutput e) : c.SameOutput e :=
  ⟨g.1.trans h.1, g.2.trans h.2⟩

theorem SameOutputs.refl (s : State) : SameOutputs s s := fun _ => ⟨rfl, rfl⟩

theorem SameOutputs.trans {s t u : State} (h : SameOutputs s t) (g : SameOutputs t u) : SameOutputs s u := fun k => (h k).trans (g k)

/-- `SameOutputs.trans` with the later change first. -/
theorem SameOutputs.comp {s t u : State} (g : SameOutputs t u) (h : SameOutputs s t) : SameOutputs s u := h.trans g

theorem SameOutputs.of_cores {s t : State} (h : t.cores = s.cores) : SameOutputs s t := fun k => by
  rw [State.core, State.core, h]
  exact ⟨rfl, rfl⟩

section Parts

variable (s : State)

theorem State.setCore_sameOutputs (k : Nat) {c : Core} (h : (s.core k).SameOutput c) : SameOutputs s (s.setCore k c) := fun j => by
  by_cases hj : j = k
  · subst hj
    rwa [State.setCore_core_same]
  · rw [State.setCore_core_other s c hj]
    exact ⟨rfl, rfl⟩

theorem State.modCore_sameOutputs (k : Nat) {f : Core → Core} (h : ∀ c : Core, c.SameOutput (f c)) : SameOutputs s (s.modCore k f) :=
  s.setCore_sameOutputs k (h _)

theorem State.mapCores_sameOutputs (g : Nat × Core → Nat × Core) (hk : ∀ p, (g p).1 = p.1) (h : ∀ p : Nat × Core, p.2.SameOutput (g p).2) :
    SameOutputs s { s with cores := s.cores.map g } := fun k => by
  rw [s.mapCores_core g hk, State.core, Table.get_eq_find?]
  cases Table.find? s.cores k with
  | none => exact ⟨rfl, rfl⟩
  | some c => exact h (k, c)

/-! ### Handles -/

theorem State.filterTlb_sameOutputs (keep : TlbEntry → Bool) : SameOutputs s { s with
    cores := s.cores.map fun p => (p.1, { p.2 with tlb := p.2.tlb.filter keep, latch := p.2.latch.filter keep }),
    clusters := s.clusters.map fun p => (p.1, { p.2 with tlb := p.2.tlb.filter keep }) } := by
  have filtered := s.mapCores_sameOutputs (fun p => (p.1, { p.2 with tlb := p.2.tlb.filter keep, latch := p.2.latch.filter keep }))
    (fun _ => rfl) fun _ => ⟨rfl, rfl⟩
  exact filtered.trans (SameOutputs.of_cores rfl)

theorem State.dropTlb_sameOutputs (ctx lo hi : Nat) : SameOutputs s (s.dropTlb ctx lo hi) := s.filterTlb_sameOutputs _

theorem State.fenceCode_sameOutputs (lo hi : Nat) : SameOutputs s (s.fenceCode lo hi) := .of_cores rfl

theorem State.freeFrame_sameOutputs (a : Nat) : SameOutputs s (s.freeFrame a) := .of_cores rfl

theorem State.modCtx_sameOutputs (n : Nat) (f : Ctx → Ctx) : SameOutputs s (s.modCtx n f) := .of_cores rfl

theorem State.unmapPage_sameOutputs (ctx : Nat) (va : Word) : SameOutputs s (s.unmapPage ctx va) := by
  simp only [State.unmapPage]
  split
  · split
    · exact .refl s
    · refine .comp (State.dropTlb_sameOutputs _ ctx _ _) (.comp (State.freeFrame_sameOutputs _ _) (.comp (State.fenceCode_sameOutputs _ _ _) ?_))
      exact .of_cores (s.write_memoryOnly _ _).cores
  · exact .refl s

theorem State.unmapPages_sameOutputs (ctx : Nat) (l : List Word) : SameOutputs s (s.unmapPages ctx l) := by
  induction l generalizing s with
  | nil => exact .refl s
  | cons p l ih => exact (s.unmapPage_sameOutputs ctx p).trans (ih _)

theorem State.settleHandle_sameOutputs (ctx i : Nat) : SameOutputs s (s.settleHandle ctx i) := by
  simp only [State.settleHandle]
  split
  · refine SameOutputs.trans ?_ (SameOutputs.of_cores rfl)
    split
    · exact s.unmapPages_sameOutputs ctx _
    · exact .refl s
  · exact .refl s

theorem State.dropAll_sameOutputs (ctx : Nat) (l : List HRef) : SameOutputs s (s.dropAll ctx l) := by
  induction l generalizing s with
  | nil => exact .refl s
  | cons r l ih => exact .comp (ih _) (.comp (State.settleHandle_sameOutputs _ ctx r.index) (s.modCtx_sameOutputs ctx _))

/-! ### Matching -/

theorem Core.setHome_sameOutput (c : Core) (v : VState) : c.SameOutput (c.setHome v) := by
  unfold Core.setHome
  split <;> exact ⟨rfl, rfl⟩

theorem Core.matchOne_sameOutput {c d : Core} {cls : Nat} {coord : Word} {arg : XReg} {ks : List (Nat × Kernel)}
    (h : c.matchOne cls coord arg ks = some d) : c.SameOutput d := by
  induction ks with
  | nil => cases h
  | cons p ks ih =>
    simp only [Core.matchOne] at h
    split at h
    · next hm =>
      cases h
      split at hm
      · obtain ⟨a, -, ha⟩ := List.exists_of_findSome?_eq_some hm
        split at ha
        · cases ha
          exact (c.setHome_sameOutput _).trans ⟨rfl, rfl⟩
        · cases ha
      · cases hm
    · exact ih h

theorem Core.matchAll_sameOutput (cls : Nat) (coord : Word) (arg : XReg) (ks : List (Nat × Kernel)) (n : Nat) (c : Core) :
    c.SameOutput (Core.matchAll cls coord arg ks n c) := by
  induction n generalizing c with
  | zero => exact .refl c
  | succ n ih =>
    simp only [Core.matchAll]
    split
    · next h => exact (Core.matchOne_sameOutput h).trans (ih _)
    · exact .refl c

theorem State.matchActors_sameOutputs (k : Nat) : SameOutputs s (s.matchActors k) := by
  simp only [State.matchActors]
  split
  · exact .refl s
  · exact s.setCore_sameOutputs k (Core.matchAll_sameOutput _ _ _ _ _ _)

/-! ### The stop of the world, and the end of a firing -/

theorem State.wakeWorld_sameOutputs (ctx : Nat) : SameOutputs s (s.wakeWorld ctx) := by
  have freed : SameOutputs s (s.freeWorld ctx) := by
    refine .comp (State.mapCores_sameOutputs _ _ (fun p => ?_) fun p => ?_) (s.modCtx_sameOutputs ctx _)
    · split <;> rfl
    · split <;> exact ⟨rfl, rfl⟩
  simp only [State.wakeWorld]
  split
  · exact freed.trans (SameOutputs.of_cores rfl)
  · exact freed

theorem State.releaseFiring_sameOutputs (k : Nat) (f : Firing) : SameOutputs s (s.releaseFiring k f) := by
  have dropped (c : Core) : c.SameOutput ((c.dropMessages f.inputs).dropJoins f.inputs) :=
    (show c.SameOutput (c.dropMessages f.inputs) from ⟨rfl, rfl⟩).trans (Core.setHome_sameOutput _ _)
  exact (s.modCore_sameOutputs k dropped).trans ((State.dropAll_sameOutputs _ _ _).trans (State.matchActors_sameOutputs _ k))

theorem State.leaveSvc_sameOutputs (k : Nat) : SameOutputs s (s.leaveSvc k) := by
  simp only [State.leaveSvc]
  split
  · exact s.modCore_sameOutputs k fun _ => ⟨rfl, rfl⟩
  · exact .refl s

/-- A core at rest has nothing to publish. -/
structure Core.AtRest (c : Core) : Prop extends c.Rests where
  buffer : c.buffer = []
  hq : c.hq = []

theorem State.restCore_atRest (k : Nat) : ((s.restCore k).core k).AtRest := by
  simp only [State.restCore, State.modCore_core_same]
  exact ⟨⟨rfl, rfl⟩, rfl, rfl⟩

/-- An ended firing leaves its core at rest (09 R154-R155). -/
theorem State.endFiring_atRest {k : Nat} {f : Firing} (h : (s.core k).firing = some f) : ((s.endFiring k).core k).AtRest := by
  have rested := (s.sample (s.ctxOf k) 7 (BitVec.ofNat 64 (s.cycle - f.start.toNat))).restCore_atRest k
  have released (t : State) : SameOutputs t ((t.modCore k fun c => { c with carries := [] }).releaseFiring k f) :=
    .comp (State.releaseFiring_sameOutputs _ k f) (t.modCore_sameOutputs k fun _ => ⟨rfl, rfl⟩)
  have ended : SameOutputs ((s.sample (s.ctxOf k) 7 (BitVec.ofNat 64 (s.cycle - f.start.toNat))).restCore k) (s.endFiring k) := by
    simp only [State.endFiring, h]
    refine .comp (State.leaveSvc_sameOutputs _ k) ?_
    split
    · exact (released _).trans (State.wakeWorld_sameOutputs _ _)
    · exact released _
  obtain ⟨hbuffer, hhq⟩ := ended k
  exact ⟨s.endFiring_rests (by rw [h]; rfl), hbuffer.trans rested.buffer, hhq.trans rested.hq⟩

/-- A suspended firing leaves its core at rest, and goes on as its replay point says (09 R154, R165). -/
theorem State.suspend_atRest {k : Nat} {f : Firing} (h : (s.core k).firing = some f) : ((s.suspend k).core k).AtRest ∧
    ∃ g ∈ ((s.suspend k).core k).ready, g.code = f.code ∧ g.inputs = f.inputs ∧ g.resume = (s.core k).point.resume := by
  simp only [State.suspend, h, State.modCore_core_same, Core.requeue]
  have rested := s.restCore_atRest k
  refine ⟨⟨⟨rested.idle, rested.firing⟩, rested.buffer, rested.hq⟩, _, List.mem_append_right _ (List.mem_singleton_self _), rfl, rfl, rfl⟩

end Parts

end Sys2Proof.Machine
end

section
/-! SUPPORT. END, HALT, YIELD and MIGRATE (16 R275, 17 R316, 09 R165). -/

namespace Sys2Proof.Table

/-- Of two writes at one key the later stands. -/
theorem insert_insert {α : Type} (t : Table α) (k : Nat) (u v : α) : insert (insert t k u) k v = insert t k v := by
  induction t with
  | nil => simp [insert]
  | cons p t ih =>
    obtain ⟨j, w⟩ := p
    by_cases hlt : k < j
    · simp [insert, hlt]
    · by_cases heq : k = j
      · subst heq
        simp [insert]
      · simp [insert, hlt, heq, ih]

end Sys2Proof.Table

namespace Sys2Proof.Machine

theorem State.setCore_modCore (s : State) (k : Nat) (c : Core) (f : Core → Core) : (s.setCore k c).modCore k f = s.setCore k (f c) := by
  rw [State.modCore, State.setCore_core_same, State.setCore, State.setCore, State.setCore, Table.insert_insert]

/-! ### Words that end a firing -/

section Ends

variable {s s1 : State} {k : Nat}

theorem Core.queuesBad_iff (c : Core) : c.queuesBad true [] [] = true ↔ c.lq ≠ [] ∨ c.sq ≠ [] := by
  simp [Core.queuesBad, countPort, List.length_pos_iff]

theorem Core.queuesBad_empty {c : Core} (hl : c.lq = []) (hs : c.sq = []) : c.queuesBad true [] [] = false :=
  Bool.eq_false_iff.2 fun h => ((Core.queuesBad_iff c).1 h).elim (· hl) (· hs)

theorem State.runEnd_illegal {body : State → Res State} (h : (s.core k).lq ≠ [] ∨ (s.core k).sq ≠ []) :
    s.runEnd k body = .next (s.takeFault k .illegal 0 (s.core k).unitAt .read) := if_pos ((Core.queuesBad_iff _).2 h)

theorem State.runYield_illegal (h : (s.core k).lq ≠ [] ∨ (s.core k).sq ≠ []) :
    s.runYield k = .next (s.takeFault k .illegal 0 (s.core k).unitAt .read) := if_pos ((Core.queuesBad_iff _).2 h)

theorem State.publishNow_ok {scope : Option OScope} (h : s.boundary k scope = some s1) : s.publishNow k scope = .ok s1 := by
  rw [State.publishNow, h]

/-- END makes its boundary and ends the firing. -/
theorem exec_endFiring_ok (f : FR) (hl : (s.core s.cur).lq = []) (hs : (s.core s.cur).sq = []) (hb : s.boundary s.cur none = some s1) :
    exec (.endFiring f) s = .next (s1.endFiring s.cur) :=
  (State.runEnd_ok (Core.queuesBad_empty hl hs) (State.publishNow_ok hb) : execEndFiring f s = _)

/-- The record that HALT posts (16 R275). -/
def State.haltRecord (s : State) (k : Nat) : List Word :=
  [BitVec.ofNat 64 (0xFF + 256 * (s.pkg.toNat * 8192 + k)), (s.core k).unitAt, s.time] ++
    (List.range 5).map fun i => ((s.core k).vs.getX (i + 1)).addr

theorem haltStatus_eq (h : s.pkg.toNat * 8192 + k < 2 ^ 31) :
    (0xFF : Word) ||| (s.coordW k <<< 8) = BitVec.ofNat 64 (0xFF + 256 * (s.pkg.toNat * 8192 + k)) := by
  refine BitVec.eq_of_toNat_eq ?_
  have hor := Nat.two_pow_add_eq_or_of_lt (i := 8) (b := 255) (by decide) (s.pkg.toNat * 8192 + k)
  have hcoord : s.coordW k = BitVec.ofNat 64 (s.pkg.toNat * 8192 + k) := BitVec.eq_of_toNat_eq (by
    rw [State.coordW_eq, Nat.mod_eq_of_lt h, BitVec.toNat_ofNat, Nat.mod_eq_of_lt (by omega)])
  rw [hcoord]
  generalize s.pkg.toNat * 8192 + k = n at *
  have hlow : (0xFF : Word).toNat = 0xFF := rfl
  rw [BitVec.toNat_or, hlow, BitVec.toNat_shiftLeft, BitVec.toNat_ofNat, BitVec.toNat_ofNat, Nat.shiftLeft_eq,
    Nat.mod_eq_of_lt (by omega : n < 2 ^ 64), Nat.mod_eq_of_lt (by omega : n * 2 ^ 8 < 2 ^ 64), Nat.mod_eq_of_lt (by omega : 0xFF + 256 * n < 2 ^ 64),
    Nat.mul_comm n]
  exact (Nat.lor_comm _ _).trans (hor.symm.trans (Nat.add_comm _ _))

/-- The buffer with the open host-queue record completed. -/
def State.recordClosed (s : State) (k : Nat) : State := s.setCore k { s.core k with buffer := (s.core k).closed, hq := [] }

/-- HALT enters its record behind the firing's other entries, makes its boundary, and ends the firing. -/
theorem exec_halt_ok (f : FR) (hl : (s.core s.cur).lq = []) (hs : (s.core s.cur).sq = []) (hk : s.pkg.toNat * 8192 + s.cur < 2 ^ 31)
    {s2 : State} (he : (s.recordClosed s.cur).enter s.cur [.hostq (s.haltRecord s.cur)] = .ok s1) (hb : s1.boundary s.cur none = some s2) :
    exec (.halt f) s = .next (s2.endFiring s.cur) := by
  refine (State.runEnd_ok (Core.queuesBad_empty hl hs) ?_ : execHalt f s = _)
  have hrecord : [(0xFF : Word) ||| (s.coordW s.cur <<< 8), (s.core s.cur).unitAt, s.time] ++
      (List.range 5).map (fun i => ((s.core s.cur).vs.getX (i + 1)).addr) = s.haltRecord s.cur := by
    rw [haltStatus_eq hk]
    rfl
  rw [← hrecord] at he
  change ((s.recordClosed s.cur).enter s.cur [.hostq ([(0xFF : Word) ||| (s.coordW s.cur <<< 8), (s.core s.cur).unitAt, s.time] ++
      (List.range 5).map (fun i => ((s.core s.cur).vs.getX (i + 1)).addr))] >>= fun u => u.publishNow s.cur none) = _
  rw [he]
  exact State.publishNow_ok hb

/-- Entries that fit the phase buffer stand behind those before them (17 R302). -/
theorem State.enter_of_fits {es : List Entry} (h : (s.core k).used + (es.map Entry.cost).sum ≤ bufferMax) :
    s.enter k es = .ok (s.modCore k fun c => { c with buffer := c.buffer ++ es }) := if_pos h

/-- The record of HALT enters a buffer with room for it. -/
theorem State.enter_haltRecord (w : List Word) (h : ((s.core k).closed.map Entry.cost).sum + 4 ≤ 256) :
    (s.recordClosed k).enter k [.hostq w] = .ok (s.setCore k { s.core k with buffer := (s.core k).closed ++ [.hostq w], hq := [] }) := by
  have hfits : ((s.recordClosed k).core k).used + ([Entry.hostq w].map Entry.cost).sum ≤ bufferMax := by
    rw [State.recordClosed, State.setCore_core_same]
    exact h
  rw [State.enter_of_fits hfits, State.recordClosed, State.setCore_modCore]

end Ends

/-! ### The safe point of YIELD -/

theorem fallThrough_sp (c : Core) : c.fallThrough true = BitVec.ofNat 64 (c.pc.toNat + 16) := by
  rw [Core.fallThrough, BitVec.ofNat_add, BitVec.ofNat_toNat, BitVec.setWidth_eq]
  rfl

/-- At a safe point where it yields, a firing is suspended, to go on past its live mask (03 R68, 09 R165). -/
theorem State.safePoint_yields {s s1 : State} {k : Nat} (m next : Word) {f : Firing} (hb : s.boundary k none = some s1)
    (hf : (s1.core k).firing = some f) (hp : (s1.core k).preempt = none) : ((s.safePoint k m next true).core k).AtRest ∧
    ∃ g ∈ ((s.safePoint k m next true).core k).ready, g.code = f.code ∧ g.inputs = f.inputs ∧ ∃ r, g.resume = some r ∧ r.pc = next ∧ r.mask = m := by
  simp only [State.safePoint, hb]
  generalize hu : State.modCore s1 k _ = u
  have hfiring : (u.core k).firing = some f := by
    rw [← hu, State.modCore_core_same]
    exact hf
  have hpreempt : (u.core k).preempt = none := by
    rw [← hu, State.modCore_core_same]
    exact hp
  have hpoint : ∃ r, (u.core k).point.resume = some r ∧ r.pc = next ∧ r.mask = m := by
    rw [← hu, State.modCore_core_same]
    exact ⟨_, rfl, rfl, rfl⟩
  simp only [hpreempt, Option.any_none, Bool.false_eq_true, if_false, Bool.true_or, if_true]
  obtain ⟨hrest, g, hg, hcode, hinputs, hresume⟩ := u.suspend_atRest hfiring
  exact ⟨hrest, g, hg, hcode, hinputs, by rwa [hresume]⟩

/-- Settles O5: LQ or SQ that is not empty is found first; past that each word makes its boundary, or its safe point. -/
theorem endOfFiring : Obligations.EndOfFiring := by
  unfold Obligations.EndOfFiring
  refine ⟨fun f s => ⟨fun hq => ?_, fun hl hs => ⟨fun s1 hb => exec_endFiring_ok f hl hs hb, fun hk s1 s2 he hb => exec_halt_ok f hl hs hk he hb,
    fun m s1 h => ?_⟩⟩, fun s s1 k m next f hb hf hp => ?_⟩
  · exact ⟨(State.runEnd_illegal hq : execEndFiring f s = _), (State.runEnd_illegal hq : execHalt f s = _),
      (State.runYield_illegal hq : execYieldFiring f s = _), (State.runEnd_illegal hq : execMigrate f s = _)⟩
  · rw [← fallThrough_sp]
    exact (State.runYield_ok h : execYieldFiring f s = _)
  · obtain ⟨hrest, hready⟩ := State.safePoint_yields m next hb hf hp
    exact ⟨_, rfl, hrest.firing, hrest.idle, hready⟩

/-- A core at rest runs nothing and holds no entry. -/
theorem Core.AtRest.fields {c : Core} (h : c.AtRest) : c.firing = none ∧ c.run = .idle ∧ c.buffer = [] ∧ c.hq = [] :=
  ⟨h.firing, h.idle, h.buffer, h.hq⟩

/-- Settles O6: a boundary that is not held lets each word through to `State.endFiring` or `State.suspend`. -/
theorem endingInstructionsComplete : Obligations.EndingInstructionsComplete := by
  unfold Obligations.EndingInstructionsComplete
  intro f s s1 fr k c rests hl hs
  refine ⟨fun hb hf => ?_, fun hk hfits hb hf => ?_, fun m s0 h hb hf hp => ?_⟩
  · exact ⟨_, exec_endFiring_ok f hl hs hb, (s1.endFiring_atRest hf).fields⟩
  · exact ⟨_, exec_halt_ok f hl hs hk (State.enter_haltRecord _ hfits) hb, (s1.endFiring_atRest hf).fields⟩
  · obtain ⟨hrest, hready⟩ := State.safePoint_yields m (BitVec.ofNat 64 (c.pc.toNat + 16)) hb hf hp
    refine ⟨_, (State.runYield_ok h : execYieldFiring f s = _), ?_⟩
    rw [fallThrough_sp]
    exact ⟨hrest.fields, hready⟩

end Sys2Proof.Machine
end

section
/-! SUPPORT. The canonical form of memory and of its tags (17 R305; log entry 3): what changes memory keeps it, and so does what changes only
the rest of the state; and how it passes through the parts of an instruction. -/

namespace Sys2Proof.Table

/-- Writes in a row keep the canonical form. -/
theorem wf_foldl_set {α β : Type} [DecidableEq α] {d : α} {t : Table α} (key : β → Nat) (val : β → α) (l : List β) (h : wf d t = true) :
    wf d (l.foldl (fun t p => set d t (key p) (val p)) t) = true := by
  induction l generalizing t with
  | nil => exact h
  | cons p l ih => exact ih (wf_set h)

end Sys2Proof.Table

namespace Sys2Proof.Machine

variable {s t : State} {α β : Type}

/-! ### Memory -/

theorem writeBytes_wf {m : List Host.Cell} {a : Nat} {bs : List Byte} (h : Memory.wf m = true) : Memory.wf (writeBytes m a bs) = true := by
  induction bs generalizing m a with
  | nil => exact h
  | cons b bs ih => exact ih (Table.wf_set h)

namespace State.memOk

/-- Whatever else changes, memory and tags stand. -/
theorem update
    {cur agenda free hist stamp cores clusters engines ctxs queues launches dies links flights evops frames far rerouting moving
    copied lostPkgs nextLaunch time cycle ccmd carg featoff tbSync tbRoot tbRootOf tbSrc tbHops tbOffs tbLeft rootsel pkg mgmt
    notices}
    (h : s.memOk) :
    ({ s with
      cur := cur, agenda := agenda, free := free, hist := hist, stamp := stamp, cores := cores, clusters := clusters, engines :=
      engines, ctxs := ctxs, queues := queues, launches := launches, dies := dies, links := links, flights := flights, evops :=
      evops, frames := frames, far := far, rerouting := rerouting, moving := moving, copied := copied, lostPkgs := lostPkgs,
      nextLaunch := nextLaunch, time := time, cycle := cycle, ccmd := ccmd, carg := carg, featoff := featoff, tbSync := tbSync,
      tbRoot := tbRoot, tbRootOf := tbRootOf, tbSrc := tbSrc, tbHops := tbHops, tbOffs := tbOffs, tbLeft := tbLeft, rootsel :=
      rootsel, pkg := pkg, mgmt := mgmt, notices := notices } : State).memOk := h

theorem ite {c : Prop} [Decidable c] (hs : s.memOk) (ht : t.memOk) : (if c then s else t).memOk := by
  split
  · exact hs
  · exact ht

theorem getD {o : Option State} (h : s.memOk) (ho : ∀ t, o = some t → t.memOk) : (o.getD s).memOk := by
  cases o with
  | none => exact h
  | some t => exact ho t rfl

/-- Changes in a row each of which keeps the canonical form. -/
theorem foldl {f : State → α → State} {l : List α} (h : s.memOk) (hf : ∀ s a, s.memOk → (f s a).memOk) : (l.foldl f s).memOk := by
  induction l generalizing s with
  | nil => exact h
  | cons a l ih => exact ih (hf s a h)

theorem writeMem {a : Nat} {bs : List Byte} (h : s.memOk) : ({ s with mem := writeBytes s.mem a bs } : State).memOk :=
  ⟨writeBytes_wf h.1, h.2⟩

theorem writeTag {g : Nat} {b : Bool} (h : s.memOk) : ({ s with tags := Table.set false s.tags g b } : State).memOk :=
  ⟨h.1, Table.wf_set h.2⟩

theorem publishPiece {narrow tag a bs} (h : s.memOk) : (s.publishPiece narrow tag a bs).memOk := by
  simp only [State.publishPiece]
  split
  · exact h.writeMem.writeTag
  · exact h.writeMem.writeTag.update

theorem publish {narrow tag a bs} (h : s.memOk) : (s.publish narrow tag a bs).memOk := h.foldl fun _ _ h => h.publishPiece

theorem write {a bs} (h : s.memOk) : (s.write a bs).memOk := h.publish

theorem writeWord {a w} (h : s.memOk) : (s.writeWord a w).memOk := h.write

theorem writeWords {a ws} (h : s.memOk) : (s.writeWords a ws).memOk := by
  induction ws generalizing s a with
  | nil => exact h
  | cons w ws ih => exact ih h.writeWord

theorem zeroFrame {a n} (h : s.memOk) : (s.zeroFrame a n).memOk := ⟨Table.wf_filter _ h.1, Table.wf_filter _ h.2⟩

theorem copyFrame {src dst n} (h : s.memOk) : (s.copyFrame src dst n).memOk :=
  ⟨Table.wf_foldl_set _ _ _ h.zeroFrame.1, Table.wf_foldl_set _ _ _ h.zeroFrame.2⟩

/-- What looks at memory leaves it as it was. -/
theorem looks (h : s.memOk) (hl : Looks s t) : t.memOk := hl.memOk h

end State.memOk

/-! ### Parts of an instruction -/

/-- The answer `a` leaves the state `st a` in canonical form; a wait leaves the state in which it waits so. -/
def Keeps (st : α → State) : Res α → Prop
  | .ok a => (st a).memOk
  | .error (.wait _ s) => s.memOk
  | .error (.fault _ _) => True

/-- A part that reads no more than the state never waits. -/
def NoWait (r : Res α) : Prop := ∀ w s, r ≠ .error (.wait w s)

theorem Keeps.bind {st : α → State} {st' : β → State} {r : Res α} {f : α → Res β} (h : Keeps st r)
    (hf : ∀ a, (st a).memOk → Keeps st' (f a)) : Keeps st' (r >>= f) := by
  cases r with
  | ok a => exact hf a h
  | error e => cases e with
    | fault c a => trivial
    | wait w s => exact h

theorem NoWait.bind {st : β → State} {r : Res α} {f : α → Res β} (h : NoWait r) (hf : ∀ a, Keeps st (f a)) : Keeps st (r >>= f) := by
  cases r with
  | ok a => exact hf a
  | error e => cases e with
    | fault c a => trivial
    | wait w s => exact absurd rfl (h w s)

theorem keeps_ite {st : α → State} {c : Prop} [Decidable c] {r q : Res α} (hr : Keeps st r) (hq : Keeps st q) :
    Keeps st (if c then r else q) := by
  split
  · exact hr
  · exact hq

theorem keeps_before {st : α → State} {checks : Res Unit} {r : Res α} (h : Keeps st r) : Keeps st (before checks r) := by
  unfold before
  split
  · split <;> trivial
  · exact h

theorem noWait_ok {a : α} : NoWait (.ok a) := fun _ _ h => by cases h

theorem noWait_fault {c : FCode} {a : Word} : NoWait (fault c a : Res α) := fun _ _ h => by cases h

theorem noWait_faultIf {b : Bool} {c : FCode} {a : Word} : NoWait (faultIf b c a) := by
  cases b
  · exact noWait_ok
  · exact noWait_fault

theorem noWait_liftCap {e : Except (FCode × Word) α} : NoWait (liftCap e) := by
  cases e
  · exact noWait_fault
  · exact noWait_ok

theorem noWait_reachable {l : List (Word × Nat)} : NoWait (s.reachable l) := by
  unfold State.reachable
  split
  · exact noWait_fault
  · exact noWait_ok

theorem NoWait.seq {r : Res α} {f : α → Res β} (h : NoWait r) (hf : ∀ a, NoWait (f a)) : NoWait (r >>= f) := by
  cases r with
  | ok a => exact hf a
  | error e => exact fun w s he => h w s (by cases he; rfl)

theorem noWait_alignCheck {n : Nat} {l : List Word} : NoWait (alignCheck n l) := by
  unfold alignCheck
  split
  · exact noWait_ok
  · exact noWait_fault

theorem noWait_checkedAt {k o off need size al} : NoWait (s.checkedAt k o off need size al) :=
  noWait_liftCap.seq fun _ => noWait_alignCheck.seq fun _ => noWait_ok

/-- A step goes on, if it does, with memory in canonical form. -/
def GoesOnOk : Out → Prop
  | .next t => t.memOk
  | _ => True

theorem goesOnOk_ite {c : Prop} [Decidable c] {o q : Out} (ho : GoesOnOk o) (hq : GoesOnOk q) : GoesOnOk (if c then o else q) := by
  split
  · exact ho
  · exact hq

/-! ### Answers of several parts -/

theorem memOk_of_pair {p : α × State} {a : α} (h : p.2.memOk) (e : p = (a, t)) : t.memOk := by rwa [e] at h

theorem memOk_of_map {o : Option α} {f : α → State} (h : ∀ a, o = some a → (f a).memOk) : o.map f = some t → t.memOk := by
  rintro e
  obtain ⟨a, ha, rfl⟩ := Option.map_eq_some_iff.1 e
  exact h a ha

theorem memOk_of_bind {o : Option α} {f : α → Option State} (h : ∀ a, o = some a → f a = some t → t.memOk) :
    o.bind f = some t → t.memOk := by
  rintro e
  obtain ⟨a, ha, hf⟩ := Option.bind_eq_some_iff.1 e
  exact h a ha hf

end Sys2Proof.Machine
end

section
/-! SUPPORT. Memory in canonical form: the operations of the state, publication, and the life of a firing: one lemma for each function. -/

namespace Sys2Proof.Machine

variable {s t : State} {α β : Type}

/-! ### Memory -/

theorem State.memOk.setCore {k c} (h : s.memOk) : (s.setCore k c).memOk := h.update

theorem State.memOk.setCluster {u c} (h : s.memOk) : (s.setCluster u c).memOk := h.update

theorem State.memOk.setEngine {e c} (h : s.memOk) : (s.setEngine e c).memOk := h.update

theorem State.memOk.setCtx {n c} (h : s.memOk) : (s.setCtx n c).memOk := h.update

theorem State.memOk.setQueue {q x} (h : s.memOk) : (s.setQueue q x).memOk := h.update

theorem State.memOk.setDie {d x} (h : s.memOk) : (s.setDie d x).memOk := h.update

theorem State.memOk.setLink {n x} (h : s.memOk) : (s.setLink n x).memOk := h.update

theorem State.memOk.setLaunch {l x} (h : s.memOk) : (s.setLaunch l x).memOk := h.update

theorem State.memOk.fenceCode {lo hi} (h : s.memOk) : (s.fenceCode lo hi).memOk := h.update

theorem State.memOk.widen {k} (h : s.memOk) : (s.widen k).memOk := h.update.ite h

theorem State.memOk.sample {ctx src v} (h : s.memOk) : (s.sample ctx src v).memOk := h.setCtx.ite h

theorem State.memOk.readReturn {ctx} (h : s.memOk) : (s.readReturn ctx).memOk := by
  simp only [State.readReturn]
  split
  · split
    · exact h.update.sample
    · exact h.update
  · exact h

theorem State.memOk.loadPiece {r w wantTag a n} (h : s.memOk) : (s.loadPiece r w wantTag a n).2.2.2.memOk :=
  h.looks (s.loadPiece_looks r w wantTag a n)

theorem State.memOk.loadIn {r f w a n} (h : s.memOk) : (State.loadIn r f s w a n).2.2.memOk :=
  h.looks (State.loadIn_looks r f s w a n)

theorem State.memOk.loadBytes {k a n} (h : s.memOk) : (s.loadBytes k a n).2.memOk := h.looks (s.loadBytes_looks k a n)

theorem State.memOk.loadCap {k a} (h : s.memOk) : (s.loadCap k a).2.2.memOk := h.looks (s.loadCap_looks k a)

theorem State.memOk.lookup {k ctx acc va pa} (h : s.memOk) (e : s.lookup k ctx acc va = some (pa, t)) : t.memOk :=
  h.looks (State.lookup_looks e)

theorem State.memOk.dropTlb {ctx lo hi} (h : s.memOk) : (s.dropTlb ctx lo hi).memOk := h.update

theorem State.memOk.takeFrame {n lo hi x1} (h : s.memOk) : s.takeFrame n lo hi = some (x1, t) → t.memOk := by
  simp only [State.takeFrame]
  split
  · rintro ⟨⟩
  · split
    · rintro ⟨⟩
      exact h.update
    · rintro ⟨⟩

theorem State.memOk.freeFrame {a} (h : s.memOk) : (s.freeFrame a).memOk := h.update

/-! ### Regs -/

theorem State.memOk.modCore {k f} (h : s.memOk) : (s.modCore k f).memOk := h.setCore

theorem State.memOk.modVs {k f} (h : s.memOk) : (s.modVs k f).memOk := h.modCore

theorem State.memOk.modCtx {n f} (h : s.memOk) : (s.modCtx n f).memOk := h.setCtx

theorem State.memOk.lsRemote {k a bs} (h : s.memOk) : (s.lsRemote k a bs).memOk := h.modCore

theorem State.memOk.lsReport {k a n} (h : s.memOk) : (s.lsReport k a n).memOk := h.modCore

theorem State.memOk.commit {k} (h : s.memOk) : (s.commit k).memOk := h.modCore

/-! ### Rings -/

theorem State.memOk.writeVa {ctx va ws} (h : s.memOk) : s.writeVa ctx va ws = some t → t.memOk := by
  induction ws generalizing s va with
  | nil => rintro ⟨⟩; exact h
  | cons w ws ih =>
    simp only [State.writeVa]
    split
    · exact ih h.writeWord
    · rintro ⟨⟩

theorem State.memOk.ringWrite {ctx k rec} (h : s.memOk) : s.ringWrite ctx k rec = some t → t.memOk := by
  simp only [State.ringWrite]
  split
  · rintro ⟨⟩
  · split
    · rintro ⟨⟩
    · split
      · rintro ⟨⟩
      · rintro ⟨⟩
        exact ((h.writeVa ‹_›).writeVa ‹_›).modCtx

theorem State.memOk.ringPost {ctx k rec} (h : s.memOk) : (s.ringPost ctx k rec).memOk :=
  (h.modCtx.getD fun _ => h.ringWrite).ite h.modCtx

theorem State.memOk.ringFlush {ctx k n} (h : s.memOk) : (State.ringFlush ctx k n s).memOk := by
  induction n generalizing s with
  | zero => exact h
  | succ n ih =>
    simp only [State.ringFlush]
    split
    · exact h
    · split
      · exact h
      · exact ih (h.ringWrite ‹_›).modCtx

theorem State.memOk.errorRecord {ctx source d} (h : s.memOk) : (s.errorRecord ctx source d).memOk := h.ringPost

theorem State.memOk.serviceRecord {ctx kind d ask} (h : s.memOk) : (s.serviceRecord ctx kind d ask).2.memOk := by
  simp only [State.serviceRecord]
  split
  · exact h.ringPost.modCtx
  · exact h.ringPost

theorem State.memOk.freeWorld {ctx} (h : s.memOk) : (s.freeWorld ctx).memOk := h.modCtx.update

theorem State.memOk.liveAgain {ctx} (h : s.memOk) : (s.liveAgain ctx).memOk := h.modCtx.update

theorem State.memOk.wakeWorld {ctx} (h : s.memOk) : (s.wakeWorld ctx).memOk := h.freeWorld.liveAgain.ite h.freeWorld

theorem State.memOk.haltCtx {ctx cause} (h : s.memOk) : (s.haltCtx ctx cause).memOk := by
  simp only [State.haltCtx]
  split
  · exact h.freeWorld.modCtx.errorRecord
  · exact h.freeWorld.modCtx.errorRecord
  · exact h

theorem State.memOk.ctxEvent {ctx e} (h : s.memOk) : (s.ctxEvent ctx e).memOk := h.modCtx

theorem State.memOk.checkEvent {ctx coord addr launch} (h : s.memOk) : (s.checkEvent ctx coord addr launch).memOk := h.ctxEvent

theorem State.memOk.deadLetter {ctx payload target hidx reason} (h : s.memOk) : (s.deadLetter ctx payload target hidx reason).2.memOk := by
  simp only [State.deadLetter]
  exact h.ringPost.ite h.ringPost.haltCtx

theorem State.memOk.emptyHandler {ctx payload target hidx coord x3 launch} (h : s.memOk) :
    (s.emptyHandler ctx payload target hidx coord x3 launch).memOk :=
  (h.ringPost.ite h.ringPost.haltCtx).ctxEvent

/-! ### Handles -/

theorem State.memOk.unmapPage {ctx va} (h : s.memOk) : (s.unmapPage ctx va).memOk := by
  simp only [State.unmapPage]
  split
  · exact h.ite h.writeWord.fenceCode.freeFrame.dropTlb
  · exact h

theorem State.memOk.unmapPages {ctx l} (h : s.memOk) : (s.unmapPages ctx l).memOk := by
  induction l generalizing s with
  | nil => exact h
  | cons va l ih => exact ih h.unmapPage

theorem State.memOk.settleHandle {ctx i} (h : s.memOk) : (s.settleHandle ctx i).memOk := (h.unmapPages.ite h).modCtx.ite h

theorem State.memOk.retireHandle {ctx i} (h : s.memOk) : (s.retireHandle ctx i).memOk := h.modCtx.settleHandle.ite h

theorem State.memOk.addRunning {ctx i} (h : s.memOk) : (s.addRunning ctx i).memOk := h.modCtx

theorem State.memOk.dropRunning {ctx i} (h : s.memOk) : (s.dropRunning ctx i).memOk := h.modCtx.settleHandle

theorem State.memOk.dropAll {ctx l} (h : s.memOk) : (s.dropAll ctx l).memOk := by
  induction l generalizing s with
  | nil => exact h
  | cons r l ih => exact ih h.dropRunning

theorem State.memOk.takeRef {k r} (h : s.memOk) : (s.takeRef k r).memOk := by
  simp only [State.takeRef]
  split
  · exact h
  · exact h.ite h.addRunning.modCore

/-! ### Matching -/

theorem State.memOk.matchActors {k} (h : s.memOk) : (s.matchActors k).memOk := h.ite h.setCore

theorem State.memOk.loseJoin {k j} (h : s.memOk) : (s.loseJoin k j).memOk := h.emptyHandler.modCore.ite h

theorem State.memOk.joinsFired {k} (h : s.memOk) : (s.joinsFired k).memOk := (h.foldl fun _ _ h3 => h3.loseJoin).matchActors

theorem State.memOk.poison {ctx covers} (h : s.memOk) : (s.poison ctx covers).memOk :=
  h.update.modCtx.foldl fun _ _ h2 => h2.joinsFired

/-! ### Links -/

theorem State.memOk.sendWire {die carry pkg slots} (h : s.memOk) : s.sendWire die carry pkg slots = some t → t.memOk := by
  simp only [State.sendWire]
  split
  · rintro ⟨⟩
    exact h.update
  · split
    · rintro ⟨⟩
      exact h.setLink
    · rintro ⟨⟩

theorem State.memOk.peerEvent {ctx pkg coord dl launch} (h : s.memOk) : (s.peerEvent ctx pkg coord dl launch).memOk :=
  h.ite h.modCtx.ctxEvent

theorem State.memOk.returned {ctx pkg payload target hidx maybe coord launch} (h : s.memOk) :
    (s.returned ctx pkg payload target hidx maybe coord launch).memOk :=
  (h.ringPost.ite h.ringPost.haltCtx).ite (h.ringPost.ite h.ringPost.haltCtx).peerEvent.poison

/-! ### Publish -/

theorem State.memOk.toRetired {ctx dst body sender} (h : s.memOk) : (s.toRetired ctx dst body sender).memOk :=
  h.returned.ite h.emptyHandler

theorem State.memOk.sendBody {k ctx dst body} (h : s.memOk) : (s.sendBody k ctx dst body).memOk := by
  simp only [State.sendBody]
  split
  · exact h.update
  · exact h.update
  · exact h.toRetired
  · split
    · exact h.update
    · split
      · exact h.sendWire ‹_›
      · exact h.returned

theorem State.memOk.sendAll {k ctx body l} (h : s.memOk) : (s.sendAll k ctx body l).memOk := by
  induction l generalizing s with
  | nil => exact h
  | cons d l ih => exact ih h.sendBody

theorem State.memOk.eventLost {ctx src launch set e} (h : s.memOk) : (s.eventLost ctx src launch set e).memOk :=
  (h.ringPost.ite h.ringPost.haltCtx).ctxEvent.poison

theorem State.memOk.postEvent {die ctx src launch set e} (h : s.memOk) : (s.postEvent die ctx src launch set e).memOk := by
  simp only [State.postEvent]
  split
  · exact h.eventLost
  · split
    · exact h.update
    · split
      · exact h.sendWire ‹_›
      · exact h.returned

theorem State.memOk.askHome {die ctx src launch op e who} (h : s.memOk) : s.askHome die ctx src launch op e who = some t → t.memOk := by
  simp only [State.askHome]
  refine memOk_of_map fun _ _ => ?_
  exact (h.sendWire ‹_›).modCtx

theorem State.memOk.sendEventOf {k ctx launch set e} (h : s.memOk) : (s.sendEventOf k ctx launch set e).memOk := h.postEvent

theorem State.memOk.sendEvent {k ctx set e} (h : s.memOk) : (s.sendEvent k ctx set e).memOk := h.sendEventOf

theorem State.memOk.modWin {k ctx svc f} (h : s.memOk) : (s.modWin k ctx svc f).memOk := by
  simp only [State.modWin]
  split
  · split
    · exact h.modCore
    · exact h.modCtx
  · exact h.modCore.ite h.modCore

theorem State.memOk.setJobWin {k ctx svc id v} (h : s.memOk) : (s.setJobWin k ctx svc id v).memOk := h.modWin

theorem State.memOk.setCpWin {k ctx svc id v} (h : s.memOk) : (s.setCpWin k ctx svc id v).memOk := h.modWin

theorem State.memOk.sendWake {k ctx v vx vy hidx regs} (h : s.memOk) : (s.sendWake k ctx v vx vy hidx regs).memOk := h.sendBody

theorem State.memOk.engineLetter {k ctx v regs hidx status x3} (h : s.memOk) : (s.engineLetter k ctx v regs hidx status x3).memOk :=
  (h.ringPost.ite h.ringPost.haltCtx).ctxEvent

theorem State.memOk.cancelWake {k ctx v edge id desc} (h : s.memOk) : (s.cancelWake k ctx v edge id desc).memOk :=
  h.ite (h.sendWake.ite h.engineLetter)

theorem State.memOk.applyJinit {k j scope count kernel} (h : s.memOk) : (s.applyJinit k j scope count kernel).memOk := h.modCore.modVs

theorem State.memOk.setHandler {ctx i w} (h : s.memOk) : (s.setHandler ctx i w).memOk := h.ite h.modCtx.update

theorem State.memOk.fireIn {k m svc} (h : s.memOk) : (s.fireIn k m svc).memOk := h.modCore

theorem State.memOk.applyFire {k ctx r regs} (h : s.memOk) : (s.applyFire k ctx r regs).memOk := h.sample.sample.fireIn.ite h.update

theorem State.memOk.applyEntry {k narrow e} (h : s.memOk) : (s.applyEntry k narrow e).memOk := by
  simp only [State.applyEntry]
  split
  · exact h.publish
  · exact h.publish
  · exact h.publish
  · exact h.setHandler
  · exact h.applyJinit
  · exact (h.modCtx.ite h).dropRunning
  · exact (h.modCtx.retireHandle.ite h.modCtx).ite h
  · exact h.sendBody
  · exact h.sendAll
  · exact h.applyFire
  · exact h.getD fun _ => h.ringWrite
  · exact h.sendBody
  · exact h.sendBody
  · exact h.sendAll
  · exact h.sendBody
  · exact h.sendEvent
  · exact h.setJobWin.cancelWake.ite h.setCluster.setJobWin
  · exact h.setEngine.setCpWin

theorem State.memOk.applyEntries {k narrow l} (h : s.memOk) : (s.applyEntries k narrow l).memOk := by
  induction l generalizing s with
  | nil => exact h
  | cons e l ih => exact ih h.applyEntry

theorem State.memOk.applyUpTo {k narrow l} (h : s.memOk) : (s.applyUpTo k narrow l).1.memOk := by
  induction l generalizing s with
  | nil => exact h
  | cons e l ih =>
    simp only [State.applyUpTo]
    split
    · exact h
    · exact ih h.applyEntry

theorem State.memOk.noteAt {pas} (h : s.memOk) : (s.noteAt pas).memOk := h.update

theorem State.memOk.noteHeld {buf} (h : s.memOk) : (s.noteHeld buf).memOk := h.noteAt

theorem State.memOk.lightFire {k cw} (h : s.memOk) : (s.lightFire k cw).memOk := by
  simp only [State.lightFire]
  split
  · exact h.modCore
  · exact h.emptyHandler

theorem State.memOk.lightFires {k l} (h : s.memOk) : (s.lightFires k l).memOk := by
  induction l generalizing s with
  | nil => exact h
  | cons w l ih => exact ih h.lightFire

theorem State.memOk.boundaryOver {k scope buf} (h : s.memOk) : s.boundaryOver k scope buf = some t → t.memOk := by
  simp only [State.boundaryOver]
  split
  · split
    · rintro ⟨⟩
    · rintro ⟨⟩
      exact h.sample.widen.applyUpTo.lightFires.modCore.ite h.sample.widen.applyUpTo.lightFires.modCore.matchActors
  · split
    · rintro ⟨⟩
    · rintro ⟨⟩
      exact h.sample.applyUpTo.lightFires.modCore.ite h.sample.applyUpTo.lightFires.modCore.matchActors

theorem State.memOk.boundary {k scope} (h : s.memOk) : s.boundary k scope = some t → t.memOk := by
  simp only [State.boundary]
  split
  · refine memOk_of_map fun _ _ => ?_
    exact (h.boundaryOver ‹_›).modCore
  · refine memOk_of_bind fun _ _ => ?_
    refine memOk_of_map fun _ _ => ?_
    exact ((h.commit.boundaryOver ‹_›).boundaryOver ‹_›).modCore

theorem State.memOk.stall {k scope} (h : s.memOk) : (s.stall k scope).memOk := (h.ite h.applyUpTo.commit.modCore).noteHeld

theorem State.memOk.refollow {k} (h : s.memOk) : (s.refollow k).memOk := by
  simp only [State.refollow]
  split
  · exact h.modCore.ite h
  · exact h

/-! ### Sched -/

theorem State.memOk.loadService {k} (h : s.memOk) : (s.loadService k).memOk := h.modCore

theorem State.memOk.storeService {k} (h : s.memOk) : (s.storeService k).memOk := by
  simp only [State.storeService]
  split
  · exact h.modCtx.modCore
  · exact h

theorem State.memOk.startFiring {k f va pcc} (h : s.memOk) : (s.startFiring k f va pcc).memOk := (h.loadService.ite h).setCore

theorem State.memOk.restCore {k} (h : s.memOk) : (s.restCore k).memOk := (h.storeService.ite h).modCore

theorem State.memOk.suspend {k} (h : s.memOk) : (s.suspend k).memOk := by
  simp only [State.suspend]
  split
  · exact h
  · exact h.restCore.modCore

theorem State.memOk.releaseFiring {k f} (h : s.memOk) : (s.releaseFiring k f).memOk := h.modCore.dropAll.matchActors

theorem State.memOk.leaveSvc {k} (h : s.memOk) : (s.leaveSvc k).memOk := h.modCore.ite h

theorem State.memOk.endFiring {k} (h : s.memOk) : (s.endFiring k).memOk := by
  simp only [State.endFiring]
  split
  · exact h
  · exact (h.sample.restCore.modCore.releaseFiring.wakeWorld.ite h.sample.restCore.modCore.releaseFiring).leaveSvc

theorem State.memOk.retireAll {ctx l} (h : s.memOk) : (s.retireAll ctx l).memOk := by
  induction l generalizing s with
  | nil => exact h
  | cons r l ih => exact ih h.modCtx.retireHandle

theorem State.memOk.cancelWaits {k} (h : s.memOk) : (s.cancelWaits k).memOk := h.modCtx.update

theorem State.memOk.undoFiring {k} (h : s.memOk) : (s.undoFiring k).memOk := h.dropAll.retireAll.cancelWaits.modCore

theorem State.memOk.restoreRegs {k} (h : s.memOk) : (s.restoreRegs k).memOk := h.modCore

theorem State.memOk.abortReplay {k} (h : s.memOk) : (s.abortReplay k).memOk := by
  simp only [State.abortReplay]
  split
  · exact h
  · exact h.undoFiring.restoreRegs.restCore.modCore

theorem State.memOk.abortEnd {k} (h : s.memOk) : (s.abortEnd k).memOk := h.undoFiring.endFiring

/-! ### Ops -/

theorem State.memOk.fillTlbs {k va l} (h : s.memOk) : (s.fillTlbs k va l).memOk := h.setCluster.modCore

theorem State.memOk.prefFilled {k va l} (h : s.memOk) : (s.prefFilled k va l).memOk := h.fillTlbs.update.sample.ite h.fillTlbs

theorem State.memOk.missRecord {k va acc ask} (h : s.memOk) : (s.missRecord k va acc ask).memOk := h.serviceRecord

theorem State.memOk.touch {k va} (h : s.memOk) : (s.touch k va).memOk := by
  simp only [State.touch]
  split
  · exact h
  · split
    · exact h.lookup ‹_›
    · split
      · exact h.missRecord
      · split
        · exact h.prefFilled.ite h
        · exact h

theorem State.memOk.find {k acc va} (h : s.memOk) : Keeps Prod.snd (s.find k acc va) := by
  simp only [State.find]
  split
  · exact trivial
  · split
    · exact h.lookup ‹_›
    · exact h

theorem State.memOk.translate {k acc va} (h : s.memOk) : Keeps Prod.snd (s.translate k acc va) :=
  h.find.bind fun _ h2 => noWait_reachable.bind fun _ => h2

theorem State.memOk.translateSpan {k acc va n} (h : s.memOk) : Keeps Prod.snd (s.translateSpan k acc va n) :=
  keeps_ite (h.translate.bind fun _ h3 => h3) (h.find.bind fun _ h3 => h3.find.bind fun _ h4 => noWait_reachable.bind fun _ => h4)

theorem State.memOk.fetchAt {k a} (h : s.memOk) : Keeps Prod.snd (s.fetchAt k a) := by
  simp only [State.fetchAt]
  split
  · exact trivial
  · refine h.translate.bind fun _ h1 => ?_
    split
    · exact h1
    · exact h1.update

theorem State.memOk.advance {k next} (h : s.memOk) : (s.advance k next).memOk := h.modCore

theorem State.memOk.withMask {k m} (h : s.memOk) : (s.withMask k m).memOk := h.modCore

theorem State.memOk.waitOn {k w sp} (h : s.memOk) : (s.waitOn k w sp).memOk := h.modCore

theorem State.memOk.publishNow {k scope} (h : s.memOk) : Keeps id (s.publishNow k scope) := by
  simp only [State.publishNow]
  split
  · exact h.boundary ‹_›
  · exact h

theorem State.memOk.enter {k es} (h : s.memOk) : Keeps id (s.enter k es) :=
  keeps_ite h.modCore (h.commit.publishNow.bind fun _ h3 => h3.modCore)

theorem State.memOk.lead {k} (h : s.memOk) : Keeps id (s.lead k) := keeps_ite h.publishNow h

theorem State.memOk.trail {k} (h : s.memOk) : Keeps id (s.trail k) := keeps_ite h.publishNow h

theorem State.memOk.publishOnce {k es} (h : s.memOk) : Keeps id (s.publishOnce k es) :=
  keeps_ite h.noteHeld h.commit.applyEntries.modCore

theorem State.memOk.enterOrdered {k es} (h : s.memOk) : Keeps id (s.enterOrdered k es) :=
  h.lead.bind fun _ h2 => (keeps_ite h2.publishOnce h2.enter).bind fun _ h3 => h3.trail

theorem State.memOk.safePoint {k mask next yield} (h : s.memOk) : (s.safePoint k mask next yield).memOk := by
  simp only [State.safePoint]
  split
  · exact h.stall.waitOn
  · exact (h.boundary ‹_›).modCore.endFiring.ite ((h.boundary ‹_›).modCore.suspend.ite (h.boundary ‹_›).modCore)

theorem State.memOk.endByFault {k code addr at_} (h : s.memOk) : (s.endByFault k code addr at_).memOk := by
  simp only [State.endByFault]
  split
  · exact h
  · split
    · split
      · split
        · exact h.undoFiring.deadLetter.poison.endFiring.haltCtx
        · exact h.undoFiring.poison.endFiring.haltCtx
      · split
        · exact h.undoFiring.deadLetter.endFiring.haltCtx
        · exact h.undoFiring.endFiring.haltCtx
    · split
      · split
        · exact h.undoFiring.deadLetter.ctxEvent.poison.endFiring
        · exact h.undoFiring.ctxEvent.poison.endFiring
      · split
        · exact h.undoFiring.deadLetter.ctxEvent.endFiring
        · exact h.undoFiring.ctxEvent.endFiring

theorem State.memOk.enterTrap {k cause code ret} (h : s.memOk) : Keeps id (s.enterTrap k cause code ret) :=
  noWait_faultIf.bind fun _ => h.takeRef.modCore

theorem State.memOk.breakTrap {k cause code ret addr} (h : s.memOk) : Keeps id (s.breakTrap k cause code ret addr) :=
  keeps_ite h.enterTrap trivial

theorem State.memOk.leaveTrap {k} (h : s.memOk) : Keeps id (s.leaveTrap k) :=
  noWait_faultIf.bind fun _ => noWait_faultIf.bind fun _ => noWait_faultIf.bind fun _ => noWait_faultIf.bind fun _ => h.modCore

theorem State.memOk.heldBack {k w} (h : s.memOk) (ht : t.memOk) : (s.heldBack t k w).memOk := by
  simp only [State.heldBack]
  split
  · exact ht
  · exact (h.update.commit.ite h.update).stall
  · exact (h.commit.ite h).ite ht

theorem State.memOk.freshPhase {k} (h : s.memOk) : (s.freshPhase k).memOk := h.modCore

theorem State.memOk.finishWord {k sp} (h : s.memOk) : (s.finishWord k sp).memOk := h.modCore.safePoint.ite h.modCore.advance

theorem State.memOk.parkWaiter {k w} (h : s.memOk) : (s.parkWaiter k w).memOk := by
  simp only [State.parkWaiter]
  split
  · exact h.modCtx.modCore
  · exact h

theorem State.memOk.suspendInWait {k w} (h : s.memOk) : (s.suspendInWait k w).memOk := h.parkWaiter.cancelWaits.modCore.safePoint

theorem State.memOk.stopAtWait {k} (h : s.memOk) : (s.stopAtWait k).memOk := by
  simp only [State.stopAtWait]
  split
  · exact h.suspendInWait.ite h
  · exact h

theorem State.memOk.stopAtWaits {ks} (h : s.memOk) : (s.stopAtWaits ks).memOk := h.foldl fun _ _ h2 => h2.stopAtWait

theorem State.memOk.maskOf {k sp place} (h : s.memOk) : Keeps Prod.snd (s.maskOf k sp place) := keeps_ite h.fetchAt h

/-! ### Arrivals -/

theorem State.memOk.layFull {ctx} (h : s.memOk) : (s.layFull ctx).memOk :=
  h.ite (h.modCtx.ctxEvent.serviceRecord.ite h.modCtx.ctxEvent)

theorem State.memOk.layIn {ctx e} (h : s.memOk) : s.layIn ctx e = some t → t.memOk := by
  simp only [State.layIn]
  split
  · split
    · rintro ⟨⟩
    · rintro ⟨⟩
      exact h.setCtx.sample.getD fun _ => h.setCtx.sample.writeVa
  · split
    · rintro ⟨⟩
    · rintro ⟨⟩
      exact h.setCtx.sample.getD fun _ => h.setCtx.sample.writeVa

theorem State.memOk.decrement {k src launch m j} (h : s.memOk) : (s.decrement k src launch m j).memOk := by
  simp only [State.decrement]
  split
  · exact h.modCore.ite h.modCore.joinsFired
  · exact h.emptyHandler

theorem State.memOk.replyTo {k src ctx c v changed} (h : s.memOk) : (s.replyTo k src ctx c v changed).memOk :=
  h.modCore.ite (h.getD fun _ => h.sendWire)

theorem State.memOk.remoteOp {k ctx src op off w val cmp reply} (h : s.memOk) : (s.remoteOp k ctx src op off w val cmp reply).memOk := by
  cases reply with
  | none => exact h.lsRemote.ite h.lsReport
  | some c => exact (h.lsRemote.ite h.lsReport).replyTo

theorem State.memOk.emptyAt {k ctx m} (h : s.memOk) : (s.emptyAt k ctx m).memOk := h.emptyHandler

theorem State.memOk.inboxIn {k m b} (h : s.memOk) : (s.inboxIn k m b).memOk := h.modCore.matchActors

theorem State.memOk.applyBody {k ctx src dst a} (h : s.memOk) : s.applyBody k ctx src dst a = some t → t.memOk := by
  simp only [State.applyBody]
  split
  · rintro ⟨⟩
    exact h.modCore
  · rintro ⟨⟩
    exact h.remoteOp
  · rintro ⟨⟩
    exact h.decrement
  · rintro ⟨⟩
    exact h.lsRemote.decrement
  · split
    · rintro ⟨⟩
      exact h.modCore
    · rintro ⟨⟩

theorem State.memOk.receive {k ctx src dst b} (h : s.memOk) : s.receive k ctx src dst b = some t → t.memOk := by
  simp only [State.receive]
  split
  · split
    · exact h.sample.applyBody
    · split
      · split
        · rintro ⟨⟩
          exact h.sample.sample.fireIn
        · exact h.sample.layIn
      · split
        · rintro ⟨⟩
          exact h.sample.emptyAt
        · split
          · rintro ⟨⟩
            exact h.sample.sample.inboxIn
          · exact h.sample.layIn
  · exact h.applyBody

theorem State.memOk.emptyAway {ctx dst src m} (h : s.memOk) : (s.emptyAway ctx dst src m).memOk := h.emptyHandler

theorem State.memOk.receiveAway {ctx src dst b} (h : s.memOk) : s.receiveAway ctx src dst b = some t → t.memOk := by
  simp only [State.receiveAway]
  split
  · split
    · exact h.layIn
    · split
      · rintro ⟨⟩
        exact h.emptyAway
      · exact h.layIn
  · exact h.layIn

theorem State.memOk.discard {ctx n} (h : s.memOk) : (s.discard ctx n).memOk := h.modCtx

theorem State.memOk.deliver {f} (h : s.memOk) : s.deliver f = some t → t.memOk := by
  simp only [State.deliver]
  split
  · rintro ⟨⟩
    exact h.discard
  · split
    · exact h.receive
    · exact h.receiveAway
    · rintro ⟨⟩
      exact h.toRetired
    · split
      · rintro ⟨⟩
        exact h.sendWire ‹_›
      · rintro ⟨⟩
        exact h.returned

theorem State.memOk.arrival {i kind} (h : s.memOk) : (s.arrival i kind).memOk := by
  simp only [State.arrival]
  split
  · exact h
  · split
    · exact h
    · split
      · exact h.update.deliver ‹_›
      · split
        · exact h
        · exact h.layFull

theorem State.memOk.execMessageArrival {i} (h : s.memOk) : GoesOnOk (execMessageArrival i s) := h.arrival

theorem State.memOk.execStreamMessageArrival {i} (h : s.memOk) : GoesOnOk (execStreamMessageArrival i s) := h.arrival

theorem State.memOk.execJoinDecrementArrival {i} (h : s.memOk) : GoesOnOk (execJoinDecrementArrival i s) := h.arrival

theorem State.memOk.execRemoteOperationArrival {i} (h : s.memOk) : GoesOnOk (execRemoteOperationArrival i s) := h.arrival

theorem State.memOk.execMcstArrival {i} (h : s.memOk) : GoesOnOk (execMcstArrival i s) := h.arrival

theorem State.memOk.execCarryArrival {i} (h : s.memOk) : GoesOnOk (execCarryArrival i s) := h.arrival

theorem State.memOk.execWakeArrival {i} (h : s.memOk) : GoesOnOk (execWakeArrival i s) := h.arrival

theorem State.memOk.loseInput {k ctx launch a} (h : s.memOk) : (s.loseInput k ctx launch a).memOk := by
  simp only [State.loseInput]
  split
  · split
    · exact h.emptyAt
    · exact h
  · exact h.emptyHandler
  · exact h.emptyHandler
  · exact h

theorem State.memOk.loseInputs {k ctx f} (h : s.memOk) : (s.loseInputs k ctx f).memOk := by
  simp only [State.loseInputs]
  split
  · exact h.emptyHandler
  · exact h.emptyHandler.ite (h.emptyHandler.ite (h.foldl fun _ _ h3 => h3.loseInput))

theorem State.memOk.layOut {k ctx e} (h : s.memOk) : s.layOut k ctx e = some t → t.memOk := by
  simp only [State.layOut]
  split
  · split
    · exact h.applyBody
    · split
      · rintro ⟨⟩
      · split
        · rintro ⟨⟩
          exact h.fireIn
        · split
          · rintro ⟨⟩
            exact h.emptyAt
          · split
            · split
              · rintro ⟨⟩
                exact h.inboxIn
              · rintro ⟨⟩
                exact h.emptyAt
            · rintro ⟨⟩
              exact h.emptyAt
  · exact h.applyBody

theorem State.memOk.layReturn {k ctx v l held} (h : s.memOk) : (State.layReturn k ctx v l held s).memOk := by
  induction l generalizing s held with
  | nil => exact h
  | cons e l ih =>
    simp only [State.layReturn]
    split
    · exact ih h
    · split
      · exact ih (h.modCtx.layOut ‹_›)
      · exact ih h

theorem State.memOk.refill {k} (h : s.memOk) : (s.refill k).memOk := by
  simp only [State.refill]
  split
  · exact h
  · split
    · exact h.layReturn
    · exact h

theorem State.memOk.execLaybyReturn {c} (h : s.memOk) : GoesOnOk (execLaybyReturn c s) := h.refill

/-! ### Operands -/

theorem State.memOk.sendUnit {k p u} (h : s.memOk) : Keeps id (s.sendUnit k p u) := keeps_ite h h.commit.modCore

theorem State.memOk.readPort {k p wide} (h : s.memOk) : Keeps Prod.snd (s.readPort k p wide) := by
  simp only [State.readPort]
  split
  · exact h
  · exact keeps_ite trivial (keeps_ite h.modCore h.modCore)

theorem State.memOk.readIb {k} (h : s.memOk) : Keeps Prod.snd (s.readIb k) := by
  simp only [State.readIb]
  split
  · exact h
  · exact keeps_ite trivial (keeps_ite h.modCore h.modCore)

theorem State.memOk.readIbVec {k} (h : s.memOk) : Keeps Prod.snd (s.readIbVec k) := keeps_ite trivial (keeps_ite h h.modCore)

theorem State.memOk.popLq {k} (h : s.memOk) : Keeps Prod.snd (s.popLq k) := by
  simp only [State.popLq]
  split
  · exact trivial
  · exact h.modCore

theorem State.memOk.pushLq {k v} (h : s.memOk) : Keeps id (s.pushLq k v) := keeps_ite h h.modCore

theorem State.memOk.popSq {k} (h : s.memOk) : Keeps Prod.snd (s.popSq k) := by
  simp only [State.popSq]
  split
  · exact trivial
  · exact h.modCore

theorem State.memOk.pushSq {k v} (h : s.memOk) : Keeps id (s.pushSq k v) := keeps_ite h h.modCore

theorem State.memOk.pushHq {k w} (h : s.memOk) : Keeps id (s.pushHq k w) := keeps_ite h.modCore h.modCore.enter

theorem State.memOk.readRing {k h1 n} (h : s.memOk) : Keeps Prod.snd (s.readRing k h1 n) := by
  simp only [State.readRing]
  split
  · exact trivial
  · exact keeps_ite h (keeps_ite (keeps_ite trivial h.modCore) h.modVs)

theorem State.memOk.writeRing {k h1 n bs mark} (h : s.memOk) : Keeps id (s.writeRing k h1 n bs mark) := by
  simp only [State.writeRing]
  split
  · exact trivial
  · exact keeps_ite h h.modVs

theorem State.memOk.named {k o} (h : s.memOk) : (s.named k o).memOk := h.modCore

theorem State.memOk.src {k o} (h : s.memOk) : Keeps Prod.snd (s.src k o) := by
  simp only [State.src]
  split
  · exact h
  · exact h
  · exact h
  · exact keeps_ite h.named.readIb (keeps_ite (h.popLq.bind fun _ h3 => h3) (keeps_ite (h.popSq.bind fun _ h4 =>
      h4) (h.named.readPort.bind fun _ h4 => h4)))
  · exact h
  · exact h
  · exact h
  · exact h
  · exact h
  · exact h
  · exact h
  · exact h
  · exact h

theorem State.memOk.waitSrc {k o} (h : s.memOk) : Keeps Prod.snd (s.waitSrc k o) := by
  simp only [State.waitSrc]
  split
  · exact h.modCore
  · exact h.src

theorem State.memOk.setCap {k o c} (h : s.memOk) : (s.setCap k o c).memOk := by
  simp only [State.setCap]
  split
  · exact h.modVs
  · exact h

theorem State.memOk.setLink' {k o c} (h : s.memOk) : (s.setLink' k o c).memOk := by
  simp only [State.setLink']
  split
  · exact h.modVs
  · exact h.setCap

theorem State.memOk.shiftL {k w} (h : s.memOk) : (s.shiftL k w).memOk := h.modVs

theorem State.memOk.put {k d v} (h : s.memOk) : Keeps id (s.put k d v) := by
  simp only [State.put]
  split
  · exact h.modVs
  · exact h.modVs
  · exact h.modVs
  · exact (keeps_ite h.pushHq (keeps_ite h.pushSq h.sendUnit)).bind fun _ h1 => h1.shiftL
  · exact h.shiftL

theorem State.memOk.vsrc {k w o} (h : s.memOk) : Keeps Prod.snd (s.vsrc k w o) := by
  simp only [State.vsrc]
  split
  · exact h
  · exact keeps_ite h.named.readIbVec (keeps_ite h.popLq (keeps_ite h.popSq h.named.readPort))
  · exact h.named.readRing
  · exact h
  · exact h

theorem State.memOk.vput {k d w m r} (h : s.memOk) : Keeps id (s.vput k d w m r) := by
  simp only [State.vput]
  split
  · exact h.modVs
  · exact keeps_ite h.pushSq h.sendUnit
  · exact h.writeRing
  · exact h

theorem State.memOk.raise {k f} (h : s.memOk) : (s.raise k f).memOk := h.modVs

/-! ### LoadStore -/

theorem State.memOk.fresh {k} (h : s.memOk) : (s.fresh k).memOk := h.freshPhase.ite h

theorem State.memOk.loadSpan {k l} (h : s.memOk) : (State.loadSpan k l s).2.memOk := h.looks (State.loadSpan_looks k l s)

theorem State.memOk.storeData {k o} (h : s.memOk) : Keeps Prod.snd (s.storeData k o) := by
  simp only [State.storeData]
  split
  · exact h.popSq
  · exact h
  · exact h.src.bind fun _ h1 => h1

theorem State.memOk.loadVec {k d v} (h : s.memOk) : Keeps id (s.loadVec k d v) := by
  simp only [State.loadVec]
  split
  · exact h.modVs
  · exact h.pushLq

theorem State.memOk.findLanes {k acc l} (h : s.memOk) : Keeps Prod.snd (State.findLanes k acc l s) := by
  induction l generalizing s with
  | nil => exact h
  | cons p l ih => exact h.find.bind fun _ h1 => (ih h1).bind fun _ h2 => h2

theorem State.memOk.translateLanes {k acc l} (h : s.memOk) : Keeps Prod.snd (State.translateLanes k acc l s) :=
  h.findLanes.bind fun _ h2 => noWait_reachable.bind fun _ => h2

theorem State.memOk.laneAddrs {k ix f} (h : s.memOk) : Keeps Prod.snd (s.laneAddrs k ix f) := keeps_ite h (h.src.bind fun _ h3 => h3)

theorem State.memOk.checkedLanes {k acc need f as} (h : s.memOk) : Keeps Prod.snd (s.checkedLanes k acc need f as) :=
  noWait_liftCap.bind fun _ => noWait_alignCheck.bind fun _ => h.translateLanes.bind fun _ h4 => h4

theorem State.memOk.loadLanes {k eb l} (h : s.memOk) : (State.loadLanes k eb l s).2.memOk := by
  induction l generalizing s with
  | nil => exact h
  | cons p l ih => exact ih h.loadBytes

/-! ### EventTable -/

theorem State.memOk.eventRecord {ctx e op who} (h : s.memOk) : (s.eventRecord ctx e op who).2.memOk := by
  simp only [State.eventRecord]
  exact h.serviceRecord

theorem State.memOk.waitRecords {ctx e l} (h : s.memOk) : (s.waitRecords ctx e l).memOk := by
  induction l generalizing s with
  | nil => exact h
  | cons w l ih => exact ih h.eventRecord

theorem State.memOk.handEvent {ctx e} (h : s.memOk) : (s.handEvent ctx e).memOk :=
  h.ite (h.modCtx.eventRecord.ite h.modCtx).waitRecords

theorem State.memOk.settleEvent {ctx e} (h : s.memOk) : (s.settleEvent ctx e).memOk :=
  (h.modCtx.handEvent.ite h.modCtx).ite (h.modCtx.ite h)

theorem State.memOk.returnEvents {d} (h : s.memOk) : (s.returnEvents d).memOk := h.foldl fun _ _ h2 => h2.settleEvent

theorem State.memOk.tellAway {ctx e coord token op v} (h : s.memOk) : (s.tellAway ctx e coord token op v).memOk :=
  h.getD fun _ => h.sendWire

theorem State.memOk.wakeWaiter {ctx e a} (h : s.memOk) : (s.wakeWaiter ctx e a).memOk := by
  simp only [State.wakeWaiter]
  split
  · exact h.modCore
  · exact h
  · exact h.setQueue
  · exact h.tellAway

theorem State.memOk.wakeWaiters {ctx e l} (h : s.memOk) : (s.wakeWaiters ctx e l).memOk := by
  induction l generalizing s with
  | nil => exact h
  | cons w l ih => exact ih h.wakeWaiter

theorem State.memOk.applyEventFor {ctx set e who} (h : s.memOk) : (s.applyEventFor ctx set e who).memOk := by
  simp only [State.applyEventFor]
  split
  · exact h.eventRecord
  · split
    · exact (h.modCtx.wakeWaiters.ite h.modCtx).settleEvent.returnEvents.tellAway
    · exact (h.modCtx.wakeWaiters.ite h.modCtx).settleEvent.returnEvents

theorem State.memOk.applyEvent {ctx set e} (h : s.memOk) : (s.applyEvent ctx set e).memOk := h.applyEventFor

theorem State.memOk.applyOp {o} (h : s.memOk) : (s.applyOp o).memOk := h.applyEventFor

theorem State.memOk.joinEvent {ctx e w} (h : s.memOk) : (s.joinEvent ctx e w).2.memOk := by
  simp only [State.joinEvent]
  split
  · exact h.eventRecord
  · split
    · exact h
    · exact h.modCtx.settleEvent

theorem State.memOk.rejoinEvent {k ctx n} (h : s.memOk) : (s.rejoinEvent k ctx n).2.memOk := by
  simp only [State.rejoinEvent]
  split
  · exact h.modCtx
  · exact h

theorem State.memOk.drainEvents {src ctx} (h : s.memOk) : (s.drainEvents src ctx).memOk := h.update.foldl fun _ _ h2 => h2.applyOp

/-! ### Atomics -/

theorem State.memOk.performAtomic {k pa w op b c} (h : s.memOk) : (s.performAtomic k pa w op b c).2.memOk := by
  simp only [State.performAtomic]
  exact h.publish.ite h.publish.commit

end Sys2Proof.Machine
end

section
/-! SUPPORT. Memory in canonical form: the instructions of addresses, messages, atomics and capabilities. -/

namespace Sys2Proof.Machine

variable {s t : State} {α β : Type}

theorem keeps_foldlM {f : α → β → Res α} {st : α → State} {l : List β} {a : α} (h : (st a).memOk)
    (hf : ∀ a b, (st a).memOk → Keeps st (f a b)) : Keeps st (l.foldlM f a) := by
  induction l generalizing a with
  | nil => exact h
  | cons b l ih => exact (hf a b h).bind fun _ h1 => ih h1

theorem keeps_ok {st : α → State} {a : α} (h : (st a).memOk) : Keeps st (.ok a) := h

theorem keeps_ret (h : s.memOk) : Keeps id (.ok s) := h

theorem keeps_wait {st : α → State} {w : Wait} (h : s.memOk) : Keeps st (.error (.wait w s)) := h

/-! ### Checks that never wait -/

theorem noWait_ite {c : Prop} [Decidable c] {r q : Res α} (hr : NoWait r) (hq : NoWait q) : NoWait (if c then r else q) := by
  split
  · exact hr
  · exact hq

theorem noWait_targetCap {k o} : NoWait (s.targetCap k o) := noWait_liftCap.seq fun _ => by
  split
  · exact noWait_ok
  · exact noWait_fault

theorem noWait_target {k o} : NoWait (s.target k o) := noWait_targetCap.seq fun _ => noWait_faultIf.seq fun _ => noWait_ok

theorem noWait_remoteAt {k f} : NoWait (s.remoteAt k f) := noWait_target.seq fun _ => noWait_faultIf.seq fun _ => noWait_ok

theorem noWait_leaves {a} : NoWait (s.leaves a) := noWait_faultIf

theorem noWait_branchTo {f taken} : NoWait (s.branchTo f taken) := noWait_leaves.seq fun _ => noWait_ok

theorem noWait_moveCap {c na} : NoWait (moveCap c na) := noWait_ite noWait_fault noWait_ok

theorem noWait_boundCap {c len} : NoWait (boundCap c len) :=
  noWait_faultIf.seq fun _ => noWait_faultIf.seq fun _ => noWait_faultIf.seq fun _ => noWait_ok

theorem noWait_sealCheck {k opens a b} : NoWait (s.sealCheck k opens a b) :=
  noWait_faultIf.seq fun _ => noWait_faultIf.seq fun _ => noWait_faultIf.seq fun _ => noWait_faultIf.seq fun _ =>
    noWait_faultIf.seq fun _ => noWait_faultIf.seq fun _ => noWait_faultIf.seq fun _ => noWait_ok

theorem noWait_handleCheck {k ops} : NoWait (s.handleCheck k ops) := by
  unfold State.handleCheck
  split
  · exact noWait_fault
  · exact noWait_ok

theorem noWait_handleOf {k o} : NoWait (s.handleOf k o) := noWait_liftCap.seq fun _ => noWait_ok

theorem noWait_residualOf {k o} : NoWait (s.residualOf k o) :=
  noWait_handleOf.seq fun _ => noWait_faultIf.seq fun _ => noWait_faultIf.seq fun _ => noWait_ok

theorem noWait_regChecks {k ops} : NoWait (s.regChecks k ops) := by
  unfold State.regChecks
  split
  · exact noWait_fault
  · split
    · exact noWait_fault
    · exact noWait_ok

theorem noWait_localAt {k o off need size al} : NoWait (s.localAt k o off need size al) :=
  noWait_liftCap.seq fun _ => noWait_alignCheck.seq fun _ => noWait_ok

theorem noWait_ringOf {k h n} : NoWait (s.ringOf k h n) := by
  unfold State.ringOf
  split
  · exact noWait_fault
  · exact noWait_ite noWait_fault noWait_ok

theorem noWait_headOf {k o} : NoWait (s.headOf k o) := by
  unfold State.headOf
  split
  · exact noWait_ringOf.seq fun _ => noWait_ok
  · exact noWait_ite noWait_ok noWait_ok
  · exact noWait_ok

theorem noWait_fenceRights {c} : NoWait (fenceRights c) := noWait_faultIf.seq fun _ => noWait_faultIf

theorem noWait_fenceCheck {c len} : NoWait (fenceCheck c len) := noWait_fenceRights.seq fun _ => noWait_faultIf

theorem noWait_before {checks : Res Unit} {r : Res α} (h : NoWait r) : NoWait (before checks r) := by
  unfold before
  split
  · split
    · exact noWait_fault
    · exact h
  · exact h

theorem State.memOk.ite_snd {c : Prop} [Decidable c] {p q : α × State} (hp : p.2.memOk) (hq : q.2.memOk) : (if c then p else q).2.memOk := by
  split
  · exact hp
  · exact hq

theorem State.memOk.serviceIf {c : Prop} [Decidable c] {ctx kind ws d} (h : s.memOk) :
    (if c then ((some (s.serviceRecord ctx kind ws d).1, (s.serviceRecord ctx kind ws d).2) : Option Nat × State) else (none, s)).2.memOk := by
  split
  · exact h.serviceRecord
  · exact h

/-! ### Ops -/

theorem State.memOk.takeFault {k code addr at_ acc} (h : s.memOk) : (s.takeFault k code addr at_ acc).memOk := by
  simp only [State.takeFault]
  split
  · exact h
  · refine h.endByFault.ite (h.endByFault.ite (h.endByFault.ite (State.memOk.modCore ?_)))
    exact h.undoFiring.restoreRegs.restCore.serviceIf

theorem State.memOk.runWord {k sp falls needEmpty acc srcs dsts body} (h : s.memOk)
    (hb : ∀ s1, s1.memOk → Keeps Prod.fst (body s1)) : GoesOnOk (s.runWord k sp falls needEmpty acc srcs dsts body) := by
  simp only [State.runWord]
  split
  · exact h.takeFault
  have hm := h.maskOf (k := k) (sp := sp) (place := (s.core k).placement sp falls)
  generalize s.maskOf k sp ((s.core k).placement sp falls) = mask at hm
  split
  · split
    · exact goesOnOk_ite h.takeFault (State.memOk.waitOn hm)
    · exact State.memOk.waitOn hm
  · split
    · exact goesOnOk_ite h.takeFault h.takeFault
    · exact h.takeFault
  · have hr := hb _ hm
    split
    · split <;> exact h.takeFault
    · rename_i he
      rw [he] at hr
      split
      · exact h.takeFault
      · exact ((State.memOk.heldBack hm hr).withMask.waitOn).stopAtWait
    · rename_i he
      rw [he] at hr
      split
      · exact h.takeFault
      · exact goesOnOk_ite (State.memOk.safePoint hr) (State.memOk.advance hr)

theorem State.memOk.runElement {k sp between srcs dsts body} (h : s.memOk)
    (hb : ∀ s1, s1.memOk → Keeps Prod.fst (body s1)) : GoesOnOk (s.runElement k sp between srcs dsts body) := by
  simp only [State.runElement]
  split
  · exact h.takeFault
  have hm := h.maskOf (k := k) (sp := sp) (place := (s.core k).placement sp true)
  generalize s.maskOf k sp ((s.core k).placement sp true) = mask at hm
  split
  · exact State.memOk.waitOn hm
  · split
    · exact goesOnOk_ite h.takeFault h.takeFault
    · exact h.takeFault
  · have hr := hb _ hm
    split
    · split <;> exact h.takeFault
    · exact h.takeFault
    · rename_i he _
      rw [he] at hr
      exact (State.memOk.heldBack hm hr).waitOn
    · rename_i he _
      rw [he] at hr
      exact goesOnOk_ite (goesOnOk_ite h.takeFault (goesOnOk_ite (State.memOk.safePoint hr) (State.memOk.advance hr)))
        (goesOnOk_ite (State.memOk.safePoint hr) hr)

theorem State.memOk.runEnd {k body} (h : s.memOk) (hb : ∀ s1, s1.memOk → Keeps id (body s1)) : GoesOnOk (s.runEnd k body) := by
  simp only [State.runEnd]
  have hr := hb _ h
  generalize body s = r at hr
  split
  · exact h.takeFault
  · split
    · exact h.takeFault
    · exact (State.memOk.heldBack h hr).waitOn
    · exact State.memOk.endFiring hr

theorem State.memOk.runYield {k} (h : s.memOk) : GoesOnOk (s.runYield k) := by
  simp only [State.runYield]
  have hm := h.maskOf (k := k) (sp := true) (place := none)
  generalize s.maskOf k true none = mask at hm
  split
  · exact h.takeFault
  · split
    · exact h.takeFault
    · split
      · exact State.memOk.waitOn hm
      · exact h.takeFault
      · exact State.memOk.safePoint hm

theorem State.memOk.runSeq {k sp srcs dsts body} (h : s.memOk) (hb : ∀ s1, s1.memOk → Keeps id (body s1)) :
    GoesOnOk (s.runSeq k sp srcs dsts body) :=
  h.runWord fun _ h1 => (hb _ h1).bind fun _ h2 => h2

theorem State.memOk.runMem {k sp acc srcs dsts body} (h : s.memOk) (hb : ∀ s1, s1.memOk → Keeps id (body s1)) :
    GoesOnOk (s.runMem k sp acc srcs dsts body) :=
  h.runWord fun _ h1 => (hb _ h1).bind fun _ h2 => h2

theorem State.memOk.runJump {k sp srcs body} (h : s.memOk) (hb : ∀ s1, s1.memOk → Keeps Prod.fst (body s1)) :
    GoesOnOk (s.runJump k sp srcs body) :=
  h.runWord fun _ h1 => (hb _ h1).bind fun _ h2 => h2

/-! ### LoadStore -/

theorem State.memOk.execLd {f} (h : s.memOk) : GoesOnOk (execLd f s) := by
  simp only [Machine.execLd]
  refine h.runMem fun _ h1 => ?_
  refine noWait_checkedAt.bind fun _ => ?_
  refine h1.translateSpan.bind fun _ h3 => ?_
  split
  · exact h3.lead.bind fun _ h4 => h4.fresh.loadSpan.pushLq.bind fun _ h5 => h5.trail
  · exact h3.lead.bind fun _ h4 => h4.fresh.loadSpan.put.bind fun _ h5 => h5.trail

theorem State.memOk.execSt {f} (h : s.memOk) : GoesOnOk (execSt f s) :=
  h.runMem fun _ h2 => noWait_checkedAt.bind fun _ => h2.translateSpan.bind fun _ h4 => h4.storeData.bind fun _ h5 => h5.enterOrdered

theorem State.memOk.execLdv {f} (h : s.memOk) : GoesOnOk (execLdv f s) :=
  h.runMem fun _ h2 => noWait_checkedAt.bind fun _ => h2.translateSpan.bind fun _ h4 => h4.lead.bind fun _ h5 =>
    h5.fresh.loadSpan.loadVec.bind fun _ h6 => h6.trail

theorem State.memOk.execStv {f} (h : s.memOk) : GoesOnOk (execStv f s) :=
  h.runMem fun _ h2 => noWait_checkedAt.bind fun _ => h2.translateSpan.bind fun _ h4 => h4.storeData.bind fun _ h5 => h5.enterOrdered

theorem State.memOk.execPref {f} (h : s.memOk) : GoesOnOk (execPref f s) := by
  simp only [Machine.execPref]
  refine h.runSeq fun _ h1 => ?_
  split
  · exact h1.touch.ite h1.touch.touch
  · exact h1

theorem State.memOk.execStc {f} (h : s.memOk) : GoesOnOk (execStc f s) :=
  h.runMem fun _ h2 => noWait_checkedAt.bind fun _ => h2.translate.bind fun _ h4 => h4.enterOrdered

theorem State.memOk.gather {ix f} (h : s.memOk) : GoesOnOk (s.gather ix f) :=
  h.runMem fun _ h2 => h2.laneAddrs.bind fun _ h3 => h3.checkedLanes.bind fun _ h4 => h4.lead.bind fun _ h5 =>
    h5.fresh.loadLanes.loadVec.bind fun _ h6 => h6.trail

theorem State.memOk.scatter {ix f} (h : s.memOk) : GoesOnOk (s.scatter ix f) :=
  h.runMem fun _ h2 => h2.laneAddrs.bind fun _ h3 => h3.checkedLanes.bind fun _ h4 => h4.storeData.bind fun _ h5 => h5.enterOrdered

theorem State.memOk.execLdvs {f} (h : s.memOk) : GoesOnOk (execLdvs f s) := h.gather

theorem State.memOk.execLdvx {f} (h : s.memOk) : GoesOnOk (execLdvx f s) := h.gather

theorem State.memOk.execStvs {f} (h : s.memOk) : GoesOnOk (execStvs f s) := h.scatter

theorem State.memOk.execStvx {f} (h : s.memOk) : GoesOnOk (execStvx f s) := h.scatter

/-! ### Messages -/

theorem State.memOk.execSend {f} (h : s.memOk) : GoesOnOk (execSend f s) :=
  h.runSeq fun _ h2 => noWait_target.bind fun _ => h2.enterOrdered

theorem State.memOk.execSendm {f} (h : s.memOk) : GoesOnOk (execSendm f s) :=
  h.runSeq fun _ h2 => noWait_targetCap.bind fun _ => h2.src.bind fun _ h4 => noWait_faultIf.bind fun _ => h4.enter

theorem State.memOk.execRecv {f} (h : s.memOk) : GoesOnOk (execRecv f s) := by
  simp only [Machine.execRecv]
  refine h.runSeq fun _ h1 => ?_
  split
  · exact h1
  · exact h1.modCore

theorem State.memOk.execFire {f} (h : s.memOk) : GoesOnOk (execFire f s) :=
  h.runSeq fun _ h2 => noWait_liftCap.bind fun _ => noWait_faultIf.bind fun _ => noWait_faultIf.bind fun _ => h2.addRunning.enter

theorem State.memOk.execEndFiring {_f} (h : s.memOk) : GoesOnOk (execEndFiring _f s) := h.runEnd fun _ h2 => h2.publishNow

theorem State.memOk.execYieldFiring {_f} (h : s.memOk) : GoesOnOk (execYieldFiring _f s) := h.runYield

theorem State.memOk.execMigrate {f} (h : s.memOk) : GoesOnOk (execMigrate f s) :=
  h.runEnd fun _ h2 => noWait_target.bind fun _ => h2.publishNow.bind fun _ h4 => h4

theorem State.memOk.execEvset {f} (h : s.memOk) : GoesOnOk (execEvset f s) := h.runSeq fun _ h2 => h2.src.bind fun _ h3 => h3.enter

theorem State.memOk.execEvclr {f} (h : s.memOk) : GoesOnOk (execEvclr f s) := h.runSeq fun _ h2 => h2.src.bind fun _ h3 => h3.enter

theorem State.memOk.execJoin {f} (h : s.memOk) : GoesOnOk (execJoin f s) := h.runSeq fun _ h2 => noWait_target.bind fun _ => h2.enter

theorem State.memOk.execJinit {f} (h : s.memOk) : GoesOnOk (execJinit f s) := h.runSeq fun _ h2 => h2.src.bind fun _ h3 => h3.enter

theorem State.memOk.execHtset {f} (h : s.memOk) : GoesOnOk (execHtset f s) :=
  h.runSeq fun _ h2 => h2.src.bind fun _ h3 => (keeps_before h3.src).bind fun _ h4 => noWait_faultIf.bind fun _ => h4.enter

theorem State.memOk.execHtget {f} (h : s.memOk) : GoesOnOk (execHtget f s) :=
  h.runSeq fun _ h2 => h2.src.bind fun _ h3 => noWait_faultIf.bind fun _ => h3.put

theorem State.memOk.execHostq {f} (h : s.memOk) : GoesOnOk (execHostq f s) := h.runSeq fun _ h2 => h2.enter

/-! ### Atomics -/

theorem State.memOk.atomicOp {f op} (h : s.memOk) : GoesOnOk (s.atomicOp f op) :=
  h.runMem fun _ h2 => h2.src.bind fun _ h3 => h3.src.bind fun _ h4 => noWait_liftCap.bind fun _ => noWait_alignCheck.bind fun _ =>
    h4.translate.bind fun _ h7 => keeps_ite h7.enterOrdered (h7.publishNow.bind fun _ h9 =>
    keeps_ite h9.noteHeld (h9.performAtomic.put.bind fun _ h11 => h11.trail))

theorem State.memOk.execAadd {f} (h : s.memOk) : GoesOnOk (execAadd f s) := h.atomicOp

theorem State.memOk.execAand {f} (h : s.memOk) : GoesOnOk (execAand f s) := h.atomicOp

theorem State.memOk.execAor {f} (h : s.memOk) : GoesOnOk (execAor f s) := h.atomicOp

theorem State.memOk.execAxor {f} (h : s.memOk) : GoesOnOk (execAxor f s) := h.atomicOp

theorem State.memOk.execAmin {f} (h : s.memOk) : GoesOnOk (execAmin f s) := h.atomicOp

theorem State.memOk.execAmax {f} (h : s.memOk) : GoesOnOk (execAmax f s) := h.atomicOp

theorem State.memOk.execAminu {f} (h : s.memOk) : GoesOnOk (execAminu f s) := h.atomicOp

theorem State.memOk.execAmaxu {f} (h : s.memOk) : GoesOnOk (execAmaxu f s) := h.atomicOp

theorem State.memOk.execAswp {f} (h : s.memOk) : GoesOnOk (execAswp f s) := h.atomicOp

theorem State.memOk.execAcas {f} (h : s.memOk) : GoesOnOk (execAcas f s) := h.atomicOp

theorem State.memOk.execAfadd {f} (h : s.memOk) : GoesOnOk (execAfadd f s) := h.atomicOp

theorem State.memOk.execAfmin {f} (h : s.memOk) : GoesOnOk (execAfmin f s) := h.atomicOp

theorem State.memOk.execAfmax {f} (h : s.memOk) : GoesOnOk (execAfmax f s) := h.atomicOp

theorem State.memOk.remotePosted {f op} (h : s.memOk) : GoesOnOk (s.remotePosted f op) :=
  h.runSeq fun _ h2 => h2.src.bind fun _ h3 => noWait_remoteAt.bind fun _ => h3.enterOrdered

theorem State.memOk.remoteValue {f op} (h : s.memOk) : GoesOnOk (s.remoteValue f op) := by
  simp only [State.remoteValue]
  refine h.runSeq fun _ h1 => ?_
  refine h1.src.bind fun _ h2 => ?_
  refine h2.src.bind fun _ h3 => ?_
  refine noWait_remoteAt.bind fun _ => ?_
  split
  · exact trivial
  · exact h3.publishNow.bind fun _ h5 => h5.sendBody

theorem State.memOk.execRget {f} (h : s.memOk) : GoesOnOk (execRget f s) := h.remoteValue

theorem State.memOk.execRput {f} (h : s.memOk) : GoesOnOk (execRput f s) := h.remotePosted

theorem State.memOk.execRadd {f} (h : s.memOk) : GoesOnOk (execRadd f s) := h.remotePosted

theorem State.memOk.execRcas {f} (h : s.memOk) : GoesOnOk (execRcas f s) := h.remoteValue

/-! ### Branch -/

theorem State.memOk.compareBranch {f p} (h : s.memOk) : GoesOnOk (s.compareBranch f p) :=
  h.runJump fun _ h2 => h2.src.bind fun _ h3 => h3.src.bind fun _ h4 => noWait_branchTo.bind fun _ => h4

theorem State.memOk.execBeq {f} (h : s.memOk) : GoesOnOk (execBeq f s) := h.compareBranch

theorem State.memOk.execBne {f} (h : s.memOk) : GoesOnOk (execBne f s) := h.compareBranch

theorem State.memOk.execBlt {f} (h : s.memOk) : GoesOnOk (execBlt f s) := h.compareBranch

theorem State.memOk.execBge {f} (h : s.memOk) : GoesOnOk (execBge f s) := h.compareBranch

theorem State.memOk.execBltu {f} (h : s.memOk) : GoesOnOk (execBltu f s) := h.compareBranch

theorem State.memOk.execBgeu {f} (h : s.memOk) : GoesOnOk (execBgeu f s) := h.compareBranch

theorem State.memOk.kBranch {f want} (h : s.memOk) : GoesOnOk (s.kBranch f want) :=
  h.runJump fun _ h2 => h2.src.bind fun _ h3 => noWait_branchTo.bind fun _ => h3

theorem State.memOk.execBk {f} (h : s.memOk) : GoesOnOk (execBk f s) := h.kBranch

theorem State.memOk.execBnk {f} (h : s.memOk) : GoesOnOk (execBnk f s) := h.kBranch

theorem State.memOk.execJmp {f} (h : s.memOk) : GoesOnOk (execJmp f s) := h.runJump fun _ h2 => noWait_branchTo.bind fun _ => h2

theorem State.memOk.execJal {f} (h : s.memOk) : GoesOnOk (execJal f s) :=
  h.runJump fun _ h2 => noWait_branchTo.bind fun _ => h2.setLink'.shiftL

theorem State.memOk.execJr {f} (h : s.memOk) : GoesOnOk (execJr f s) :=
  h.runJump fun _ h2 => noWait_liftCap.bind fun _ => noWait_faultIf.bind fun _ => h2.modCore.setLink'.shiftL

theorem State.memOk.execLoop {f} (h : s.memOk) : GoesOnOk (execLoop f s) :=
  h.runJump fun _ h2 => h2.src.bind fun _ h3 => noWait_branchTo.bind fun _ => h3.setLink'

/-! ### Capability -/

theorem State.memOk.getter {f op} (h : s.memOk) : GoesOnOk (s.getter f op) := h.runSeq fun _ h2 => h2.put

theorem State.memOk.derive {f op} (h : s.memOk) (ho : ∀ c w, NoWait (op c w)) : GoesOnOk (s.derive f op) :=
  h.runSeq fun _ h1 => h1.src.bind fun _ h2 => (ho _ _).bind fun _ => h2.setCap

theorem State.memOk.execCgeta {f} (h : s.memOk) : GoesOnOk (execCgeta f s) := h.getter

theorem State.memOk.execCgetb {f} (h : s.memOk) : GoesOnOk (execCgetb f s) := h.getter

theorem State.memOk.execCgetl {f} (h : s.memOk) : GoesOnOk (execCgetl f s) := h.getter

theorem State.memOk.execCgetp {f} (h : s.memOk) : GoesOnOk (execCgetp f s) := h.getter

theorem State.memOk.execCtag {f} (h : s.memOk) : GoesOnOk (execCtag f s) := h.getter

theorem State.memOk.execCsub {f} (h : s.memOk) : GoesOnOk (execCsub f s) := h.runSeq fun _ h2 => h2.put

theorem State.memOk.execCseta {f} (h : s.memOk) : GoesOnOk (execCseta f s) := h.derive fun _ _ => noWait_moveCap

theorem State.memOk.execCinc {f} (h : s.memOk) : GoesOnOk (execCinc f s) :=
  h.runSeq fun _ h2 => noWait_moveCap.bind fun _ => h2.setCap

theorem State.memOk.execCclr {f} (h : s.memOk) : GoesOnOk (execCclr f s) :=
  h.runSeq fun _ h2 => noWait_faultIf.bind fun _ => h2.setCap

theorem State.memOk.execCsetb {f} (h : s.memOk) : GoesOnOk (execCsetb f s) := h.derive fun _ _ => noWait_boundCap

theorem State.memOk.execCandp {f} (h : s.memOk) : GoesOnOk (execCandp f s) :=
  h.derive fun _ _ => noWait_faultIf.seq fun _ => noWait_faultIf.seq fun _ => noWait_ok

theorem State.memOk.execCseal {f} (h : s.memOk) : GoesOnOk (execCseal f s) :=
  h.runSeq fun _ h2 => noWait_sealCheck.bind fun _ => h2.setCap

theorem State.memOk.execCunseal {f} (h : s.memOk) : GoesOnOk (execCunseal f s) :=
  h.runSeq fun _ h2 => noWait_sealCheck.bind fun _ => h2.setCap

theorem State.memOk.execLdc {f} (h : s.memOk) : GoesOnOk (execLdc f s) :=
  h.runMem fun _ h1 => noWait_checkedAt.bind fun _ => h1.translate.bind fun _ h2 => h2.lead.bind fun _ h3 =>
    (State.memOk.setCap h3.fresh.loadCap).trail

theorem State.memOk.execClscap {f} (h : s.memOk) : GoesOnOk (execClscap f s) :=
  h.derive fun _ _ => noWait_faultIf.seq fun _ => noWait_faultIf.seq fun _ => noWait_faultIf.seq fun _ => noWait_ok

/-- A test whose wait goes on in canonical form. -/
theorem keeps_test {p : Bool × State} {w : Wait} {f : State → State} (h : p.2.memOk) (hf : ∀ s, s.memOk → (f s).memOk) :
    Keeps id (if p.1 then .ok (f p.2) else .error (.wait w p.2)) := keeps_ite (hf _ h) h

theorem State.memOk.execEvwait {f} (h : s.memOk) : GoesOnOk (execEvwait f s) := by
  refine h.runSeq fun _ h1 => h1.waitSrc.bind fun _ h2 => noWait_faultIf.bind fun _ => h2.publishNow.bind fun _ h3 => ?_
  split
  · exact keeps_test (State.memOk.rejoinEvent h3.drainEvents.modCore) fun _ h => h.freshPhase
  · split
    · exact keeps_test h3.drainEvents.joinEvent fun _ h => h.freshPhase
    · split
      · exact h3.askHome ‹_›
      · trivial

theorem State.memOk.execEvtest {f} (h : s.memOk) : GoesOnOk (execEvtest f s) := by
  refine h.runSeq fun _ h1 => h1.src.bind fun _ h2 => noWait_faultIf.bind fun _ => h2.publishNow.bind fun _ h3 => ?_
  split
  · exact keeps_ite h3.drainEvents.eventRecord h3.drainEvents.freshPhase.put
  · split
    · exact h3.askHome ‹_›
    · trivial

end Sys2Proof.Machine
end

section
/-! SUPPORT. Memory in canonical form: vectors, clusters and cores, launches and residuals. -/

namespace Sys2Proof.Machine

variable {s t : State} {α β : Type}

theorem noWait_streamEnds {k l} : NoWait (s.streamEnds k l) := by
  induction l with
  | nil => exact noWait_ok
  | cons o l ih => exact noWait_ite (noWait_ite noWait_ok noWait_fault) ih

/-! ### Vector -/

theorem State.memOk.runVector {f vs body} (h : s.memOk) (hb : ∀ s1, s1.memOk → Keeps id (body s1)) : GoesOnOk (s.runVector f vs body) := by
  simp only [State.runVector]
  split
  · refine h.runElement fun _ h1 => noWait_handleCheck.bind fun _ => noWait_streamEnds.bind fun _ => ?_
    exact keeps_ite (keeps_ok (State.memOk.foldl h1 fun _ _ h2 => h2.named)) ((hb _ (State.memOk.foldl h1 fun _ _ h2 => h2.named)).bind fun _ h2 =>
        keeps_ok h2)
  · exact h.runSeq fun _ h1 => noWait_handleCheck.bind fun _ => hb _ h1

theorem State.memOk.deliverLanes {k f w l} (h : s.memOk) : Keeps id (s.deliverLanes k f w l) := h.vput.bind fun _ h2 => h2.raise

theorem State.memOk.unary {f g} (h : s.memOk) : GoesOnOk (s.unary f g) :=
  h.runVector fun _ h2 => h2.vsrc.bind fun _ h3 => h3.deliverLanes

theorem State.memOk.binary {f g} (h : s.memOk) : GoesOnOk (s.binary f g) :=
  h.runVector fun _ h2 => h2.vsrc.bind fun _ h3 => h3.vsrc.bind fun _ h4 => h4.deliverLanes

theorem State.memOk.ternary {f g} (h : s.memOk) : GoesOnOk (s.ternary f g) :=
  h.runVector fun _ h2 => h2.vsrc.bind fun _ h3 => h3.vsrc.bind fun _ h4 => h4.vsrc.bind fun _ h5 => h5.deliverLanes

/-! ### VectorPerm -/

theorem State.memOk.execVcvt {f} (h : s.memOk) : GoesOnOk (execVcvt f s) :=
  h.runVector fun _ h2 => h2.vsrc.bind fun _ h3 => h3.deliverLanes

theorem State.memOk.execVperm {f} (h : s.memOk) : GoesOnOk (execVperm f s) :=
  h.runVector fun _ h2 => h2.vsrc.bind fun _ h3 => h3.vsrc.bind fun _ h4 => h4.vput

theorem State.memOk.execVrot {f} (h : s.memOk) : GoesOnOk (execVrot f s) :=
  h.runVector fun _ h2 => h2.vsrc.bind fun _ h3 => h3.src.bind fun _ h4 => h4.vput

theorem State.memOk.execVbcast {f} (h : s.memOk) : GoesOnOk (execVbcast f s) :=
  h.runVector fun _ h2 => h2.vsrc.bind fun _ h3 => h3.src.bind fun _ h4 => h4.vput

theorem State.memOk.reduceLanes {f u op unit} (h : s.memOk) : GoesOnOk (s.reduceLanes f u op unit) :=
  h.runVector fun _ h1 => h1.vsrc.bind fun _ h2 => h2.put.bind fun _ h3 => keeps_ok h3.raise

theorem State.memOk.execVredadd {f} (h : s.memOk) : GoesOnOk (execVredadd f s) := h.reduceLanes

theorem State.memOk.execVredmax {f} (h : s.memOk) : GoesOnOk (execVredmax f s) := h.reduceLanes

theorem State.memOk.execVredmin {f} (h : s.memOk) : GoesOnOk (execVredmin f s) := h.reduceLanes

theorem State.memOk.execVscanadd {f} (h : s.memOk) : GoesOnOk (execVscanadd f s) :=
  h.runVector fun _ h2 => h2.vsrc.bind fun _ h3 => h3.vput.bind fun _ h4 => h4.raise

theorem State.memOk.execVpack {f} (h : s.memOk) : GoesOnOk (execVpack f s) :=
  h.runVector fun _ h2 => h2.vsrc.bind fun _ h3 => h3.vsrc.bind fun _ h4 => h4.vput

theorem State.memOk.execVunpk {f} (h : s.memOk) : GoesOnOk (execVunpk f s) := h.runVector fun _ h2 => h2.vsrc.bind fun _ h3 => h3.vput

theorem State.memOk.execVcmpr {f} (h : s.memOk) : GoesOnOk (execVcmpr f s) := h.runVector fun _ h2 => h2.vsrc.bind fun _ h3 => h3.vput

theorem State.memOk.execVexpd {f} (h : s.memOk) : GoesOnOk (execVexpd f s) := h.runVector fun _ h2 => h2.vsrc.bind fun _ h3 => h3.vput

theorem State.memOk.execVlanem {f} (h : s.memOk) : GoesOnOk (execVlanem f s) :=
  h.runVector fun _ h2 => h2.vsrc.bind fun _ h3 => h3.put

/-! ### Engines -/

theorem State.memOk.descriptor {k size o} (h : s.memOk) : Keeps (·.2.2) (s.descriptor k size o) :=
  noWait_liftCap.bind fun _ => noWait_faultIf.bind fun _ => h.translate.bind fun _ h4 => h4

theorem State.memOk.takeId {k copy} (h : s.memOk) : Keeps Prod.snd (s.takeId k copy) :=
  (keeps_ite h.publishNow (keeps_ok h)).bind fun _ h2 => keeps_ite h2 (keeps_ok h2)

theorem State.memOk.issue {k copy id1 e d} (h : s.memOk) : Keeps id (s.issue k copy id1 e d) := h.enter.bind fun _ h2 => h2.modVs.put

theorem State.memOk.issueJob {edge f} (h : s.memOk) : GoesOnOk (s.issueJob edge f) :=
  h.runSeq fun _ h2 => h2.descriptor.bind fun _ h3 => h3.takeId.bind fun _ h4 => h4.issue

theorem State.memOk.execMjob {f} (h : s.memOk) : GoesOnOk (execMjob f s) := h.issueJob

theorem State.memOk.execJedge {f} (h : s.memOk) : GoesOnOk (execJedge f s) := h.issueJob

theorem State.memOk.awaitId {copy f} (h : s.memOk) : GoesOnOk (s.awaitId copy f) :=
  h.runSeq fun _ h2 => h2.waitSrc.bind fun _ h3 => h3.publishNow.bind fun _ h4 => keeps_ite (keeps_wait h4) (keeps_ok h4.freshPhase)

theorem State.memOk.pollId {copy f} (h : s.memOk) : GoesOnOk (s.pollId copy f) := h.runSeq fun _ h2 => h2.src.bind fun _ h3 => h3.put

theorem State.memOk.execMwait {f} (h : s.memOk) : GoesOnOk (execMwait f s) := h.awaitId

theorem State.memOk.execJwait {f} (h : s.memOk) : GoesOnOk (execJwait f s) := h.awaitId

theorem State.memOk.execMpoll {f} (h : s.memOk) : GoesOnOk (execMpoll f s) := h.pollId

theorem State.memOk.dropJob {k id} (h : s.memOk) : (s.dropJob k id).memOk := by
  refine h.foldl fun _ _ h1 => ?_
  dsimp only
  split
  · exact h1.setCluster.setJobWin.cancelWake
  · exact h1

theorem State.memOk.stopJob {k id1} (h : s.memOk) : (s.stopJob k id1).memOk := h.update

theorem State.memOk.execMcancel {f} (h : s.memOk) : GoesOnOk (execMcancel f s) := by
  simp only [Machine.execMcancel]
  refine h.runSeq fun _ h1 => ?_
  refine h1.src.bind fun _ h2 => ?_
  split
  · exact h2.modCore
  · exact h2.dropJob
  · exact h2.stopJob
  · exact h2

theorem State.memOk.runScan {f wide} (h : s.memOk) : GoesOnOk (s.runScan f wide) := by
  refine h.runSeq fun _ h1 => Keeps.bind (st := Prod.snd) ?_ fun _ h2 => Keeps.bind (st := Prod.snd) ?_ fun _ h3 => noWait_faultIf.bind fun _ => ?_
  · exact keeps_ite (keeps_ok h1) (keeps_ite h1.vsrc (h1.src.bind fun _ h2 => h2))
  · exact keeps_ite (h2.waitSrc.bind fun _ h3 => h3) (keeps_ok h2)
  · split
    · trivial
    · exact h3.publishNow.bind fun _ h4 => keeps_wait h4.modCtx

theorem State.memOk.execScan {f} (h : s.memOk) : GoesOnOk (execScan f s) := h.runScan

theorem State.memOk.execScanw {f} (h : s.memOk) : GoesOnOk (execScanw f s) := h.runScan

theorem State.memOk.execCarrys {f} (h : s.memOk) : GoesOnOk (execCarrys f s) := by
  simp only [Machine.execCarrys]
  refine h.runSeq fun _ h1 => ?_
  refine noWait_faultIf.bind fun _ => ?_
  refine (keeps_before h1.src).bind fun _ h3 => ?_
  refine h3.src.bind fun _ h4 => ?_
  refine noWait_faultIf.bind fun _ => ?_
  split
  · exact trivial
  · exact h4.enter

theorem State.memOk.execCarryr {f} (h : s.memOk) : GoesOnOk (execCarryr f s) :=
  h.runSeq fun _ h2 => noWait_faultIf.bind fun _ => h2.waitSrc.bind fun _ h4 => h4.publishNow.bind fun _ h5 => h5

/-! ### Casts -/

theorem State.memOk.writeTiles {cast tiles} (h : s.memOk) : (s.writeTiles cast tiles).memOk := h.writeWords.write

theorem State.memOk.writeOut {k} (h : s.memOk) : (s.writeOut k).memOk := by
  simp only [State.writeOut]
  split
  · exact (h.ite h.writeTiles).modCore
  · exact h

/-! ### CastImage -/

theorem State.memOk.writeCast {k cast} (h : s.memOk) : (s.writeCast k cast).memOk := by
  simp only [State.writeCast]
  split
  · exact h.writeWords.modCore.modCore
  · exact h.writeWords.modCore

theorem State.memOk.saveService {k ctx} (h : s.memOk) : (s.saveService k ctx).memOk := by
  simp only [State.saveService]
  split
  · exact h
  · split
    · exact h
    · exact h.writeWords.modCtx

theorem State.memOk.loadTiles {k} (h : s.memOk) : (s.loadTiles k).memOk := by
  simp only [State.loadTiles]
  split
  · exact h
  · split
    · exact h.modCore.ite h.writeOut.modCore
    · exact h.modCore

theorem State.memOk.bringTiles {k} (h : s.memOk) : (s.bringTiles k).memOk := by
  simp only [State.bringTiles]
  split
  · exact (h.writeOut.ite h).loadTiles
  · split
    · exact h.writeOut.ite h
    · split
      · exact (h.writeOut.ite h).writeCast.writeOut
      · exact h.writeOut.ite h

theorem State.memOk.readyTiles {k f} (h : s.memOk) : (s.readyTiles k f).memOk := h.ite h.loadTiles

/-! ### Groups -/

theorem State.memOk.modLaunch {l f} (h : s.memOk) : (s.modLaunch l f).memOk := by
  simp only [State.modLaunch]
  split
  · exact h.setLaunch
  · exact h

theorem State.memOk.setBind {d n b} (h : s.memOk) : (s.setBind d n b).memOk := h.setDie

theorem State.memOk.firstBind {k l x} (h : s.memOk) : (s.firstBind k l x).memOk := h.modCore.modCore

theorem State.memOk.restoreEdges {k v ctx} (h : s.memOk) : (s.restoreEdges k v ctx).memOk := h.modCtx.setCluster

theorem State.memOk.laterBind {k cast v ctx} (h : s.memOk) : (s.laterBind k cast v ctx).memOk := by
  unfold State.laterBind
  split
  · exact h.modCore.haltCtx
  · exact h.setCore.modCtx.restoreEdges

theorem State.memOk.bindCore {l g x r cast p} (h : s.memOk) : (s.bindCore l g x r cast p).memOk := by
  refine State.memOk.ite (State.memOk.modCore ?_) ?_ <;>
    exact State.memOk.ite (h.modCore.laterBind.ite h.modCore.firstBind).refill (h.modCore.laterBind.ite h.modCore.firstBind).joinsFired.refill

theorem State.memOk.startQuantum {l} (h : s.memOk) : (s.startQuantum l).memOk := by
  simp only [State.startQuantum]
  split
  · exact h.ite h.setLaunch
  · exact h

theorem State.memOk.forwardLay {ctx vs} (h : s.memOk) : (s.forwardLay ctx vs).memOk :=
  (h.ite h.modCtx).foldl fun _ _ h2 => h2.getD fun _ => h2.deliver

theorem State.memOk.bindGroup {die slot l g ox oy} (h : s.memOk) : (s.bindGroup die slot l g ox oy).memOk := by
  simp only [State.bindGroup]
  split
  · exact h
  · split
    · exact h
    · split
      · exact h.setLaunch.forwardLay.startQuantum
      · split
        · exact h
        · exact h.haltCtx.ite (h.ite (h.ite (h.setLaunch.setBind.foldl fun _ _ h5 => h5.bindCore).startQuantum))

theorem State.memOk.execBind {die slot l g ox oy} (h : s.memOk) : GoesOnOk (execBind die slot l g ox oy s) := by
  simp only [Machine.execBind]
  split
  · exact goesOnOk_ite h h.bindGroup
  · exact h

theorem State.memOk.unbindGroup {l g r} (h : s.memOk) : (s.unbindGroup l g r).memOk := by
  simp only [State.unbindGroup]
  split
  · exact h
  · exact h.ite (h.setLaunch.ite (h.setLaunch.setBind.foldl fun _ _ h4 => h4.modCore).stopAtWaits)

theorem State.memOk.yieldSlots {l g} (h : s.memOk) : (s.yieldSlots l g).memOk := h.update

theorem State.memOk.execUnbind {die slot} (h : s.memOk) : GoesOnOk (execUnbind die slot s) := by
  simp only [Machine.execUnbind]
  split
  · exact h
  · split
    · exact h
    · split
      · exact goesOnOk_ite h h.setLaunch.yieldSlots
      · split
        · exact goesOnOk_ite h h.setLaunch.unbindGroup
        · exact h

theorem State.memOk.saveEdges {k ctx} (h : s.memOk) : (s.saveEdges k ctx).memOk := h.ite h.setCluster.modCtx

theorem State.memOk.leaveGroup {k ctx l cast la} (h : s.memOk) : (s.leaveGroup k ctx l cast la).memOk :=
  (h.ite h.saveEdges.writeCast.modCtx).modCore.ite (h.ite h.saveEdges.writeCast.modCtx).modCore.modLaunch.yieldSlots.setBind

theorem State.memOk.execCastWrite {c} (h : s.memOk) : GoesOnOk (execCastWrite c s) := by
  simp only [Machine.execCastWrite]
  split
  · exact h
  · split
    · split
      · exact goesOnOk_ite h.saveService h.saveService.leaveGroup
      · exact goesOnOk_ite h.saveService.writeCast h.saveService
      · exact h.saveService
    · exact h.saveService

theorem State.memOk.askPlaces {l} (h : s.memOk) : (s.askPlaces l).memOk := by
  simp only [State.askPlaces]
  split
  · exact h
  · exact h.ite (h.foldl fun _ _ h2 => h2.serviceRecord.ite h2)

theorem State.memOk.execQuantumExpiry {l} (h : s.memOk) : GoesOnOk (execQuantumExpiry l s) := by
  simp only [Machine.execQuantumExpiry]
  split
  · exact h
  · exact goesOnOk_ite h (h.setLaunch.foldl fun _ _ h4 => h4.unbindGroup).askPlaces

theorem State.memOk.plinthEvent {d ctx set e} (h : s.memOk) : (s.plinthEvent d ctx set e).memOk := h.applyEvent.ite h.postEvent

theorem State.memOk.completeLaunch {l x} (h : s.memOk) : (s.completeLaunch l x).memOk := by
  simp only [State.completeLaunch]
  split
  · exact h.setQueue.modLaunch.plinthEvent
  · exact h.setQueue.modLaunch

theorem State.memOk.retireGroup {l g} (h : s.memOk) : (s.retireGroup l g).memOk := by
  simp only [State.retireGroup]
  split
  · exact h
  · exact h.setLaunch.setBind.ite h.setLaunch.modCtx

theorem State.memOk.execLaunchQuiescence {l} (h : s.memOk) : GoesOnOk (execLaunchQuiescence l s) := by
  simp only [Machine.execLaunchQuiescence]
  split
  · exact h
  · exact goesOnOk_ite h (h.foldl fun _ _ h4 => h4.retireGroup).completeLaunch

theorem State.memOk.clearCore {k} (h : s.memOk) : (s.clearCore k).memOk := h.modCore

theorem State.memOk.execRetire {die slot} (h : s.memOk) : GoesOnOk (execRetire die slot s) :=
  goesOnOk_ite h (goesOnOk_ite h (h.foldl fun _ _ h7 => h7.clearCore).setBind.update)

theorem State.memOk.execTimedLaunchStart {l} (h : s.memOk) : GoesOnOk (execTimedLaunchStart l s) := by
  simp only [Machine.execTimedLaunchStart]
  split
  · exact h
  · exact goesOnOk_ite h.setLaunch h

/-! ### Csr -/

theorem State.memOk.gaugeWrite {ctx n w} (h : s.memOk) : (s.gaugeWrite ctx n w).memOk := h.modCtx

theorem State.memOk.csrStore {k n w} (h : s.memOk) : Keeps id (s.csrStore k n w) := by
  simp only [State.csrStore]
  split
  · exact h.modVs
  · exact keeps_ite (keeps_ok h.modVs) trivial
  · exact h.modVs
  · exact h.modVs
  · exact h.modVs
  · exact h.modVs
  · exact h.modVs
  · exact h.modVs
  · exact h.modVs
  · exact keeps_ite (keeps_ok h.modVs) (keeps_ite trivial (keeps_ok h.gaugeWrite))

theorem State.memOk.csrOp {k n d a f} (h : s.memOk) : Keeps id (s.csrOp k n d a f) := by
  simp only [State.csrOp]
  split
  · exact trivial
  · split
    · exact h.put
    · split
      · exact trivial
      · exact h.src.bind fun _ h1 => h1.csrStore.bind fun _ h2 => h2.put

/-! ### Fetch -/

theorem State.memOk.passTime {ticks cycles} (h : s.memOk) : (s.passTime ticks cycles).memOk := h.update.ite h.update

/-! ### Scalar -/

theorem State.memOk.two {f op} (h : s.memOk) : GoesOnOk (s.two f op) :=
  h.runSeq fun _ h2 => h2.src.bind fun _ h3 => h3.src.bind fun _ h4 => h4.put

theorem State.memOk.divide {f op} (h : s.memOk) : GoesOnOk (s.divide f op) :=
  h.runSeq fun _ h2 => h2.src.bind fun _ h3 => h3.src.bind fun _ h4 => noWait_faultIf.bind fun _ => h4.put

theorem State.memOk.one {f op} (h : s.memOk) : GoesOnOk (s.one f op) := h.runSeq fun _ h2 => h2.src.bind fun _ h3 => h3.put

theorem State.memOk.immediate {f op} (h : s.memOk) : GoesOnOk (s.immediate f op) :=
  h.runSeq fun _ h2 => h2.src.bind fun _ h3 => h3.put

theorem State.memOk.shiftImmediate {f op} (h : s.memOk) : GoesOnOk (s.shiftImmediate f op) :=
  h.runSeq fun _ h2 => noWait_faultIf.bind fun _ => h2.src.bind fun _ h4 => h4.put

theorem State.memOk.execAdd {f} (h : s.memOk) : GoesOnOk (execAdd f s) := h.two

theorem State.memOk.execSub {f} (h : s.memOk) : GoesOnOk (execSub f s) := h.two

theorem State.memOk.execMul {f} (h : s.memOk) : GoesOnOk (execMul f s) := h.two

theorem State.memOk.execMulh {f} (h : s.memOk) : GoesOnOk (execMulh f s) := h.two

theorem State.memOk.execMulhu {f} (h : s.memOk) : GoesOnOk (execMulhu f s) := h.two

theorem State.memOk.execAnd {f} (h : s.memOk) : GoesOnOk (execAnd f s) := h.two

theorem State.memOk.execOr {f} (h : s.memOk) : GoesOnOk (execOr f s) := h.two

theorem State.memOk.execXor {f} (h : s.memOk) : GoesOnOk (execXor f s) := h.two

theorem State.memOk.execAndn {f} (h : s.memOk) : GoesOnOk (execAndn f s) := h.two

theorem State.memOk.execOrn {f} (h : s.memOk) : GoesOnOk (execOrn f s) := h.two

theorem State.memOk.execShl {f} (h : s.memOk) : GoesOnOk (execShl f s) := h.two

theorem State.memOk.execShr {f} (h : s.memOk) : GoesOnOk (execShr f s) := h.two

theorem State.memOk.execShra {f} (h : s.memOk) : GoesOnOk (execShra f s) := h.two

theorem State.memOk.execRol {f} (h : s.memOk) : GoesOnOk (execRol f s) := h.two

theorem State.memOk.execRor {f} (h : s.memOk) : GoesOnOk (execRor f s) := h.two

theorem State.memOk.execMin {f} (h : s.memOk) : GoesOnOk (execMin f s) := h.two

theorem State.memOk.execMax {f} (h : s.memOk) : GoesOnOk (execMax f s) := h.two

theorem State.memOk.execMinu {f} (h : s.memOk) : GoesOnOk (execMinu f s) := h.two

theorem State.memOk.execMaxu {f} (h : s.memOk) : GoesOnOk (execMaxu f s) := h.two

theorem State.memOk.execCmpeq {f} (h : s.memOk) : GoesOnOk (execCmpeq f s) := h.two

theorem State.memOk.execCmpne {f} (h : s.memOk) : GoesOnOk (execCmpne f s) := h.two

theorem State.memOk.execCmplt {f} (h : s.memOk) : GoesOnOk (execCmplt f s) := h.two

theorem State.memOk.execCmpltu {f} (h : s.memOk) : GoesOnOk (execCmpltu f s) := h.two

theorem State.memOk.execDiv {f} (h : s.memOk) : GoesOnOk (execDiv f s) := h.divide

theorem State.memOk.execDivu {f} (h : s.memOk) : GoesOnOk (execDivu f s) := h.divide

theorem State.memOk.execRem {f} (h : s.memOk) : GoesOnOk (execRem f s) := h.divide

theorem State.memOk.execRemu {f} (h : s.memOk) : GoesOnOk (execRemu f s) := h.divide

theorem State.memOk.execSel {f} (h : s.memOk) : GoesOnOk (execSel f s) :=
  h.runSeq fun _ h2 => h2.src.bind fun _ h3 => h3.src.bind fun _ h4 => h4.src.bind fun _ h5 => h5.put

theorem State.memOk.execClz {f} (h : s.memOk) : GoesOnOk (execClz f s) := h.one

theorem State.memOk.execCtz {f} (h : s.memOk) : GoesOnOk (execCtz f s) := h.one

theorem State.memOk.execPopc {f} (h : s.memOk) : GoesOnOk (execPopc f s) := h.one

theorem State.memOk.execBrev {f} (h : s.memOk) : GoesOnOk (execBrev f s) := h.one

theorem State.memOk.execBswap {f} (h : s.memOk) : GoesOnOk (execBswap f s) := h.one

theorem State.memOk.execMov {f} (h : s.memOk) : GoesOnOk (execMov f s) := h.one

theorem State.memOk.execExt {f} (h : s.memOk) : GoesOnOk (execExt f s) := h.two

theorem State.memOk.execIns {f} (h : s.memOk) : GoesOnOk (execIns f s) :=
  h.runSeq fun _ h2 => h2.src.bind fun _ h3 => h3.src.bind fun _ h4 => h4.src.bind fun _ h5 => h5.put

theorem State.memOk.execAddi {f} (h : s.memOk) : GoesOnOk (execAddi f s) := h.immediate

theorem State.memOk.execAndi {f} (h : s.memOk) : GoesOnOk (execAndi f s) := h.immediate

theorem State.memOk.execOri {f} (h : s.memOk) : GoesOnOk (execOri f s) := h.immediate

theorem State.memOk.execXori {f} (h : s.memOk) : GoesOnOk (execXori f s) := h.immediate

theorem State.memOk.execShli {f} (h : s.memOk) : GoesOnOk (execShli f s) := h.shiftImmediate

theorem State.memOk.execShri {f} (h : s.memOk) : GoesOnOk (execShri f s) := h.shiftImmediate

theorem State.memOk.execShrai {f} (h : s.memOk) : GoesOnOk (execShrai f s) := h.shiftImmediate

theorem State.memOk.execCmplti {f} (h : s.memOk) : GoesOnOk (execCmplti f s) := h.immediate

theorem State.memOk.execMovi {f} (h : s.memOk) : GoesOnOk (execMovi f s) := h.immediate

theorem State.memOk.execMovhi {f} (h : s.memOk) : GoesOnOk (execMovhi f s) := h.immediate

/-! ### Pages -/

theorem State.memOk.reachSlot {va n table slot} (h : s.memOk) : State.reachSlot va n table s = some (slot, t) → t.memOk := by
  induction n generalizing s table with
  | zero => rintro ⟨⟩; exact h
  | succ n ih =>
    simp only [State.reachSlot]
    split
    · exact ih h
    · split
      · rintro ⟨⟩
      · split
        · exact ih (h.takeFrame ‹_›).zeroFrame.writeWord
        · rintro ⟨⟩

theorem State.memOk.mapPages {ctx pr pw px n va} (h : s.memOk) : State.mapPages ctx pr pw px n va s = some t → t.memOk := by
  induction n generalizing s va with
  | zero => rintro ⟨⟩; exact h
  | succ n ih =>
    simp only [State.mapPages]
    split
    · rintro ⟨⟩
    · split
      · rintro ⟨⟩
      · exact ih ((h.reachSlot ‹_›).takeFrame ‹_›).zeroFrame.writeWord

theorem State.memOk.fillPages {ctx n va ws} (h : s.memOk) : (State.fillPages ctx n va ws s).memOk := by
  induction n generalizing s va ws with
  | zero => exact h
  | succ n ih =>
    simp only [State.fillPages]
    split
    · exact ih h.writeMem.update
    · exact h

theorem State.memOk.install {ctx pr pw px ws x1} (h : s.memOk) : s.install ctx pr pw px ws = some (x1, t) → t.memOk := by
  simp only [State.install]
  split
  · rintro ⟨⟩
  · split
    · rintro ⟨⟩
    · rintro ⟨⟩
      exact (h.update.mapPages ‹_›).fillPages

/-! ### Specialise -/

theorem State.memOk.issueCopy {kind f} (h : s.memOk) : GoesOnOk (s.issueCopy kind f) :=
  h.runSeq fun _ h2 => h2.descriptor.bind fun _ h3 => h3.takeId.bind fun _ h4 => h4.src.bind fun _ h5 => h5.issue

theorem State.memOk.execCopy {f} (h : s.memOk) : GoesOnOk (execCopy f s) := h.issueCopy

theorem State.memOk.execCopy2d {f} (h : s.memOk) : GoesOnOk (execCopy2d f s) := h.issueCopy

theorem State.memOk.execTfill {f} (h : s.memOk) : GoesOnOk (execTfill f s) := h.issueCopy

theorem State.memOk.execCwait {f} (h : s.memOk) : GoesOnOk (execCwait f s) := h.awaitId

theorem State.memOk.execCpoll {f} (h : s.memOk) : GoesOnOk (execCpoll f s) := h.pollId

theorem State.memOk.execHrel {f} (h : s.memOk) : GoesOnOk (execHrel f s) :=
  h.runSeq fun _ h2 => noWait_residualOf.bind fun _ => h2.enter

theorem State.memOk.execHhold {f} (h : s.memOk) : GoesOnOk (execHhold f s) :=
  h.runSeq fun _ h2 => noWait_residualOf.bind fun _ => noWait_faultIf.bind fun _ => h2.addRunning.enter

theorem State.memOk.execHcall {f} (h : s.memOk) : GoesOnOk (execHcall f s) :=
  h.runJump fun _ h2 => noWait_handleOf.bind fun _ => noWait_faultIf.bind fun _ => noWait_faultIf.bind fun _ => noWait_faultIf.bind fun _ =>
    h2.takeRef.setCap.modCore.shiftL

theorem State.memOk.execHinfo {f} (h : s.memOk) : GoesOnOk (execHinfo f s) :=
  h.runSeq fun _ h2 => noWait_handleOf.bind fun _ => h2.put

theorem State.memOk.chstatOf {partly trapped host words fuel} (h : s.memOk) : (s.chstatOf partly trapped host words fuel).2.memOk := by
  simp only [State.chstatOf]
  split
  · exact h
  · exact h.update

theorem State.memOk.makeResidual {k index d host partly trapped fuel ws} (h : s.memOk) :
    s.makeResidual k index d host partly trapped fuel ws = some t → t.memOk := by
  simp only [State.makeResidual]
  split
  · rintro ⟨⟩
  · rintro ⟨⟩
    exact (h.install ‹_›).modCtx.chstatOf.modVs.modCore.setCap

theorem State.memOk.loadArgs {k va n} (h : s.memOk) : Keeps Prod.snd (s.loadArgs k va n) := by
  refine Keeps.bind (st := Prod.snd) (keeps_foldlM (st := Prod.snd) h ?_) ?_
  · exact fun _ _ h1 => h1.translate.bind fun _ h2 => h2.loadBytes
  · exact fun _ h1 => h1

/-- What follows one of two checks. -/
theorem keeps_either {st : β → State} {c : Prop} [Decidable c] {r q : Res α} {f : α → Res β} (hr : NoWait r) (hq : NoWait q)
    (hf : ∀ a, Keeps st (f a)) : Keeps st (if c then r >>= f else q >>= f) := keeps_ite (hr.bind hf) (hq.bind hf)

theorem State.memOk.execSpec {f} (h : s.memOk) : GoesOnOk (execSpec f s) := by
  refine h.runSeq fun _ h1 => noWait_handleOf.bind fun _ => ?_
  refine keeps_either ?_ noWait_liftCap fun _ => noWait_faultIf.bind fun _ => ?_
  · split
    · exact noWait_fault
    · exact noWait_ok
  · split
    · trivial
    · refine keeps_ite (h1.publishNow.bind fun _ h2 => ?_) (h1.loadArgs.bind fun _ h2 => ?_)
      · dsimp only
        exact keeps_wait (State.memOk.serviceRecord (State.memOk.modCtx h2))
      · dsimp only
        split
        · exact h2.modCtx.makeResidual ‹_›
        · trivial

end Sys2Proof.Machine
end

section
/-! SUPPORT. Memory in canonical form: the loader, the packets of the queues and the tiles. -/

namespace Sys2Proof.Machine

variable {s t : State} {α β : Type}

/-! ### Loader -/

theorem State.memOk.tagAll {ctx va l} (h : s.memOk) : (s.tagAll ctx va l).memOk := by
  induction l generalizing s with
  | nil => exact h
  | cons o l ih =>
    simp only [State.tagAll]
    split
    · exact ih h.writeTag
    · exact ih h

theorem State.memOk.installAll {ctx l r} (h : s.memOk) : s.installAll ctx l = some (r, t) → t.memOk := by
  induction l generalizing s r with
  | nil => rintro ⟨⟩; exact h
  | cons p l ih =>
    simp only [State.installAll]
    split
    · rintro ⟨⟩
    · split
      · rintro ⟨⟩
      · rintro ⟨⟩; exact ih (h.install ‹_›) ‹_›

theorem State.memOk.codeHandles {ctx ktype l r} (h : s.memOk) : s.codeHandles ctx ktype l = some (r, t) → t.memOk := by
  induction l generalizing s r with
  | nil => rintro ⟨⟩; exact h
  | cons p l ih =>
    simp only [State.codeHandles]
    split
    · rintro ⟨⟩
    · split
      · rintro ⟨⟩
      · rintro ⟨⟩; exact ih h.modCtx ‹_›

theorem State.memOk.loadHandlers {ctx kid l} (h : s.memOk) : (s.loadHandlers ctx kid l).memOk := by
  induction l generalizing s with
  | nil => exact h
  | cons a l ih => exact ih (h.setHandler.ite h)

theorem State.memOk.matchContext {ctx} (h : s.memOk) : (s.matchContext ctx).memOk := h.foldl fun _ _ h2 => h2.matchActors.ite h2

/-- A section of no words is not placed. -/
theorem State.memOk.sectionPlaced {c : Prop} [Decidable c] {v x : α} {o : Option (α × State)} (h : s.memOk) (ho : o = some (x, t) → t.memOk)
    (e : (if c then some (v, s) else o) = some (x, t)) : t.memOk := by
  split at e
  · cases e; exact h
  · exact ho e

theorem State.memOk.installKernel {ctx q kid base b x1 x2} (h : s.memOk) :
    s.installKernel ctx q kid base b = some (x1, x2, t) → t.memOk := by
  simp only [State.installKernel]
  split
  · rintro ⟨⟩
  split
  · rintro ⟨⟩
  split
  · split
    · rintro ⟨⟩
    split
    · rintro ⟨⟩
    split
    · rintro ⟨⟩
    split
    · rintro ⟨⟩
    rename_i hall _ _ _ hcode _ _ _ hins
    rintro ⟨⟩
    have h2 := (h.modCtx.installAll hall).codeHandles hcode
    have h3 := h2.sectionPlaced (fun h => State.memOk.install h2 h) hins
    exact (h3.ite h3.fillPages.tagAll).modCtx.loadHandlers.matchContext
  · rintro ⟨⟩

theorem State.memOk.emptyHandlers {ctx kid} (h : s.memOk) : (s.emptyHandlers ctx kid).memOk := h.foldl fun _ _ h2 => h2.setHandler

theorem State.memOk.retireHandles {ctx l} (h : s.memOk) : (s.retireHandles ctx l).memOk := by
  induction l generalizing s with
  | nil => exact h
  | cons i l ih => exact ih h.retireHandle

theorem State.memOk.dropKernel {ctx q kid} (h : s.memOk) : (s.dropKernel ctx q kid).memOk :=
  (h.modCtx.emptyHandlers.retireHandles.ite h.modCtx.emptyHandlers.retireHandles.unmapPages.modCtx).ite h.modCtx

theorem State.memOk.loseKernel {k ctx kid} (h : s.memOk) : (s.loseKernel k ctx kid).memOk :=
  ((h.foldl fun _ _ h4 => h4.loseInputs).foldl fun _ _ h3 => h3.emptyAt).modCore

theorem State.memOk.loseLay {ctx kid} (h : s.memOk) : (s.loseLay ctx kid).memOk := by
  refine h.ite (h.modCtx.foldl fun _ _ h1 => ?_)
  split
  · exact h1.emptyAway
  · exact h1

theorem State.memOk.execKernelCodeFree {ctx kid} (h : s.memOk) : GoesOnOk (execKernelCodeFree ctx kid s) :=
  goesOnOk_ite h (h.foldl fun _ _ h7 => h7.loseKernel).loseLay.unmapPages.modCtx

/-! ### Queues -/

theorem State.memOk.writePrefix {ctx n va bs done} (h : s.memOk) : (State.writePrefix ctx n s va bs done).1.memOk := by
  induction n generalizing s va bs done with
  | zero => exact h
  | succ n ih =>
    simp only [State.writePrefix]
    split
    · exact h
    · split
      · exact h
      · exact ih h.write

theorem State.memOk.noteRange {ctx va n} (h : s.memOk) : (s.noteRange ctx va n).memOk := h.noteAt

theorem State.memOk.modQueue {q f} (h : s.memOk) : (s.modQueue q f).memOk := h.setQueue

theorem State.memOk.leaveWait {q} (h : s.memOk) : (s.leaveWait q).memOk := h.modCtx.modQueue

theorem State.memOk.refuse {q code tag} (h : s.memOk) : (s.refuse q code tag).memOk := h.leaveWait.modQueue.errorRecord

theorem State.memOk.settleQueue {q} (h : s.memOk) : (s.settleQueue q).memOk := h.ite (h.refuse.ite (h.modQueue.ite h))

theorem State.memOk.takePacket {q} (h : s.memOk) : (s.takePacket q).memOk := h.modQueue.settleQueue

theorem State.memOk.enableQueue {q} (h : s.memOk) : (s.enableQueue q).memOk := h.ite (h.setQueue.ite h.setQueue)

theorem State.memOk.disableQueue {q} (h : s.memOk) : (s.disableQueue q).memOk := h.leaveWait.modQueue

theorem State.memOk.queueCommand {q op} (h : s.memOk) : (s.queueCommand q op).memOk :=
  h.setQueue.ite (h.setQueue.settleQueue.ite h.setQueue)

theorem State.memOk.doorbell {q w} (h : s.memOk) : (s.doorbell q w).memOk := h.modQueue.settleQueue

theorem State.memOk.execQueueEnable {q} (h : s.memOk) : GoesOnOk (execQueueEnable q s) := h.enableQueue

theorem State.memOk.execQueueDisable {q} (h : s.memOk) : GoesOnOk (execQueueDisable q s) := h.disableQueue

theorem State.memOk.execQcmdSkip {q} (h : s.memOk) : GoesOnOk (execQcmdSkip q s) := h.queueCommand

theorem State.memOk.execQcmdReset {q} (h : s.memOk) : GoesOnOk (execQcmdReset q s) := h.queueCommand

theorem State.memOk.execDoorbellWrite {q wptr} (h : s.memOk) : GoesOnOk (execDoorbellWrite q wptr s) := h.doorbell

theorem State.memOk.completePacket {q d} (h : s.memOk) : (s.completePacket q d).memOk := by
  simp only [State.completePacket]
  split
  · exact h.plinthEvent.takePacket
  · exact h.takePacket

/-- What becomes of a head packet leaves memory in canonical form. -/
def PacketOk : Packet → Prop
  | .refused _ => True
  | .refusedAfter s _ | .stays s | .waits s | .done s | .begun s => s.memOk

theorem State.memOk.packetEvent {q kind take} (h : s.memOk) (ht : ∀ d, PacketOk (take d)) : (s.packetEvent q kind take).memOk := by
  refine h.ite (h.refuse.checkEvent.ite (h.refuse.ite (h.ite (h.refuse.ite (h.setQueue.ite ?_)))))
  have hp := ht (s.headPacket q)
  generalize take (s.headPacket q) = p at hp
  cases p with
  | refused code => exact h.refuse
  | refusedAfter s1 code => exact State.memOk.refuse hp
  | stays s1 => exact hp
  | waits s1 => exact hp
  | done s1 => exact State.memOk.completePacket hp
  | begun s1 => exact State.memOk.takePacket hp

theorem packetOk_ite {c : Prop} [Decidable c] {p q : Packet} (hp : PacketOk p) (hq : PacketOk q) : PacketOk (if c then p else q) := by
  split
  · exact hp
  · exact hq

theorem State.memOk.launchPacket {q timed d} (h : s.memOk) : PacketOk (s.launchPacket q timed d) := by
  refine packetOk_ite trivial (packetOk_ite trivial (packetOk_ite trivial (packetOk_ite trivial (packetOk_ite h ?_))))
  exact (State.memOk.setLaunch h.update).setQueue.askPlaces

theorem State.memOk.execLaunch {q} (h : s.memOk) : GoesOnOk (execLaunch q s) := h.packetEvent fun _ => h.launchPacket

theorem State.memOk.execTimedLaunch {q} (h : s.memOk) : GoesOnOk (execTimedLaunch q s) := h.packetEvent fun _ => h.launchPacket

theorem State.memOk.checkRange {ctx acc va n} (h : s.memOk) : (s.checkRange ctx acc va n).memOk := by
  simp only [State.checkRange]
  split
  · exact h.checkEvent
  · exact h

theorem State.memOk.loaded {ctx q kid data len} (h : s.memOk) : PacketOk (s.loaded ctx q kid data len) :=
  packetOk_ite h (State.memOk.serviceRecord h)

/-- A LOADED record without room leaves the packet at the head as it was. -/
theorem State.memOk.orStays {p : Packet} (h : s.memOk) :
    PacketOk p → PacketOk (match p with | .stays _ => .stays s | r => r) := by
  intro hp
  split
  · exact h
  · exact hp

theorem State.memOk.loadPacket {q d} (h : s.memOk) : PacketOk (s.loadPacket q d) := by
  refine packetOk_ite trivial ?_
  split
  · exact packetOk_ite trivial (h.orStays h.modCtx.loaded)
  · exact h
  · refine packetOk_ite trivial ?_
    split
    · exact h.checkRange
    · split
      · trivial
      · exact h.orStays (h.installKernel ‹_›).loaded

theorem State.memOk.execLoad {q} (h : s.memOk) : GoesOnOk (execLoad q s) := h.packetEvent fun _ => h.loadPacket

theorem State.memOk.unloadPacket {q d} (h : s.memOk) : PacketOk (s.unloadPacket q d) :=
  packetOk_ite trivial (packetOk_ite trivial (packetOk_ite h h.dropKernel))

theorem State.memOk.execUnload {q} (h : s.memOk) : GoesOnOk (execUnload q s) := h.packetEvent fun _ => h.unloadPacket

theorem State.memOk.signalPacket {q d} (h : s.memOk) : PacketOk (s.signalPacket q d) := by
  refine packetOk_ite trivial (packetOk_ite h (packetOk_ite (packetOk_ite h.applyEventFor h.plinthEvent) ?_))
  split
  · exact h.askHome ‹_›
  · exact h.plinthEvent

theorem State.memOk.execSignal {q} (h : s.memOk) : GoesOnOk (execSignal q s) := h.packetEvent fun _ => h.signalPacket

theorem State.memOk.clearOnWake {q d} (h : s.memOk) : (s.clearOnWake q d).memOk := h.plinthEvent.ite h

theorem State.memOk.waitPacket {q d} (h : s.memOk) : PacketOk (s.waitPacket q d) := by
  refine packetOk_ite trivial (packetOk_ite (h.getD fun _ => h.askHome).modQueue ?_)
  split
  · exact (memOk_of_pair h.joinEvent ‹_›).clearOnWake
  · exact (memOk_of_pair h.joinEvent ‹_›).modQueue

theorem State.memOk.execWaitPacket {q} (h : s.memOk) : GoesOnOk (execWaitPacket q s) := h.packetEvent fun _ => h.waitPacket

theorem State.memOk.copyPacket {q d} (h : s.memOk) : PacketOk (s.copyPacket q d) := by
  refine packetOk_ite trivial (packetOk_ite h (packetOk_ite h.checkRange.checkRange (packetOk_ite h.noteRange ?_)))
  dsimp only
  exact packetOk_ite h.writePrefix (State.memOk.errorRecord h.writePrefix).checkRange.checkRange

theorem State.memOk.execCopyPacket {q} (h : s.memOk) : GoesOnOk (execCopyPacket q s) := h.packetEvent fun _ => h.copyPacket

theorem State.memOk.execQueueWake {q} (h : s.memOk) : GoesOnOk (execQueueWake q s) :=
  goesOnOk_ite h (goesOnOk_ite (goesOnOk_ite h.modQueue.clearOnWake.completePacket h) (goesOnOk_ite h.modQueue.settleQueue h))

theorem State.memOk.execWaitTimeout {q} (h : s.memOk) : GoesOnOk (execWaitTimeout q s) := goesOnOk_ite h.refuse h

theorem State.memOk.queuesGone {ctx} (h : s.memOk) : (s.queuesGone ctx).memOk := h.foldl fun _ _ h2 => h2.refuse.ite h2

/-! ### TileRegs -/

theorem State.memOk.runTile {sp acc srcs dsts body} (h : s.memOk) (hb : ∀ s1, s1.memOk → Keeps id (body s1)) :
    GoesOnOk (s.runTile sp acc srcs dsts body) := h.bringTiles.runMem hb

theorem State.memOk.execTcfg {f} (h : s.memOk) : GoesOnOk (execTcfg f s) :=
  h.runTile fun _ h2 => h2.src.bind fun _ h3 => keeps_ite (keeps_ok h3.modVs) (noWait_faultIf.bind fun _ => h3.modVs)

theorem State.memOk.execThdr {f} (h : s.memOk) : GoesOnOk (execThdr f s) := h.runTile fun _ h2 => h2.src.bind fun _ h3 => h3.put

theorem State.memOk.execTzero {f} (h : s.memOk) : GoesOnOk (execTzero f s) :=
  h.runTile fun _ h2 => noWait_regChecks.bind fun _ => h2.modVs

theorem State.memOk.readLine {f row} (h : s.memOk) : GoesOnOk (s.readLine f row) :=
  h.runTile fun _ h1 => (noWait_before noWait_handleCheck).bind fun _ => (keeps_before h1.src).bind fun _ h2 => noWait_regChecks.bind fun _ =>
    noWait_faultIf.bind fun _ => h2.vput

theorem State.memOk.writeLine {f row} (h : s.memOk) : GoesOnOk (s.writeLine f row) :=
  h.runTile fun _ h1 => (noWait_before noWait_handleCheck).bind fun _ => (keeps_before h1.vsrc).bind fun _ h2 =>
    (keeps_before h2.src).bind fun _ h3 => noWait_regChecks.bind fun _ => noWait_faultIf.bind fun _ => keeps_ok h3.modVs

theorem State.memOk.execTrowg {f} (h : s.memOk) : GoesOnOk (execTrowg f s) := h.readLine

theorem State.memOk.execTcolg {f} (h : s.memOk) : GoesOnOk (execTcolg f s) := h.readLine

theorem State.memOk.execTrowp {f} (h : s.memOk) : GoesOnOk (execTrowp f s) := h.writeLine

theorem State.memOk.execTcolp {f} (h : s.memOk) : GoesOnOk (execTcolp f s) := h.writeLine

theorem State.memOk.findPages {k accs f a hi} (h : s.memOk) : Keeps Prod.snd (State.findPages k accs f s a hi) := by
  induction f generalizing s a with
  | zero => exact h
  | succ f ih =>
    simp only [State.findPages]
    split
    · exact h
    · exact (keeps_foldlM (st := Prod.snd) h fun _ _ h1 => h1.find).bind fun _ h1 => (ih h1).bind fun _ h2 => h2

theorem State.memOk.translatePages {k accs n a hi} (h : s.memOk) : Keeps Prod.snd (State.translatePages k accs n s a hi) :=
  h.findPages.bind fun _ h2 => noWait_reachable.bind fun _ => h2

theorem State.memOk.tileSpan {k m need accs a n} (h : s.memOk) : Keeps Prod.snd (s.tileSpan k m need accs a n) :=
  noWait_liftCap.bind fun _ => keeps_ite (keeps_ok h) (h.translatePages.bind fun _ h4 => h4)

theorem State.memOk.tileAt {k o need accs} (h : s.memOk) : Keeps Prod.snd (s.tileAt k o need accs) :=
  noWait_liftCap.bind fun _ => noWait_faultIf.bind fun _ => h.tileSpan

theorem State.memOk.tileBytes {k m n o len} (h : s.memOk) : (State.tileBytes k m n s o len).2.memOk := by
  induction n generalizing s o len with
  | zero => exact h
  | succ n ih =>
    simp only [State.tileBytes]
    split
    · exact h
    · split
      · exact h
      · exact ih h.loadBytes

theorem State.memOk.tileReport {k m offs} (h : s.memOk) : (s.tileReport k m offs).memOk := h.modVs.ite h

theorem State.memOk.tileHeader {k m} (h : s.memOk) : (s.tileHeader k m).2.memOk := by
  simp only [State.tileHeader]
  exact h.tileBytes.tileReport

theorem State.memOk.tileElem {k m h1 i j} (h : s.memOk) : (s.tileElem k m h1 i j).2.memOk := by
  simp only [State.tileElem]
  exact h.tileBytes

theorem State.memOk.tileElems {k m hd l} (h : s.memOk) : (State.tileElems k m hd l s).2.memOk := by
  induction l generalizing s with
  | nil => exact h
  | cons p l ih => exact ih h.tileElem

theorem State.memOk.execTld {f} (h : s.memOk) : GoesOnOk (execTld f s) := by
  simp only [Machine.execTld]
  exact h.runTile fun _ h1 => h1.tileAt.bind fun _ h2 => noWait_faultIf.bind fun _ => noWait_faultIf.bind fun _ => noWait_faultIf.bind fun _ =>
      noWait_faultIf.bind fun _ => noWait_faultIf.bind fun _ => noWait_faultIf.bind fun _ => h2.tileHeader.tileSpan.bind fun _ h9 =>
      h9.tileElems.tileReport.modVs

theorem State.memOk.tileElemBytes {k m l} (h : s.memOk) : (execTst.State.tileElemBytes k m l s).2.memOk := by
  induction l generalizing s with
  | nil => exact h
  | cons o l ih =>
    simp only [execTst.State.tileElemBytes]
    exact ih h.tileBytes

theorem State.memOk.execTst {f} (h : s.memOk) : GoesOnOk (execTst f s) := by
  refine h.runTile fun _ h1 => h1.tileAt.bind fun _ h2 => ?_
  split
  split
  refine noWait_faultIf.bind fun _ => noWait_faultIf.bind fun _ => noWait_faultIf.bind fun _ => noWait_faultIf.bind fun _ =>
    noWait_faultIf.bind fun _ => (memOk_of_pair (State.memOk.tileHeader h2) ‹_›).tileSpan.bind fun _ h3 => ?_
  split
  split
  rename_i he
  have h4 := memOk_of_pair (State.memOk.ite_snd (State.memOk.tileElemBytes h3) h3) he
  extract_lets
  split
  · exact keeps_ok (State.memOk.modVs h4).tileReport
  · exact h4.enter

theorem State.memOk.putTile {k n efmt swz m n' f} (h : s.memOk) : (s.putTile k n efmt swz m n' f).memOk := h.modVs.raise

theorem State.memOk.updateTile {k n f} (h : s.memOk) : (s.updateTile k n f).memOk := h.modVs.raise

theorem State.memOk.execTmma {f} (h : s.memOk) : GoesOnOk (execTmma f s) := by
  refine h.runTile fun _ h1 => noWait_regChecks.bind fun _ => ?_
  dsimp only
  split
  · trivial
  · exact noWait_faultIf.bind fun _ => noWait_faultIf.bind fun _ => keeps_ok h1.updateTile

theorem State.memOk.overwrite {k nd efmt m n f} (h : s.memOk) : Keeps id (s.overwrite k nd efmt m n f) :=
  noWait_faultIf.bind fun _ => h.putTile

theorem State.memOk.execTadd {f} (h : s.memOk) : GoesOnOk (execTadd f s) :=
  h.runTile fun _ h2 => noWait_regChecks.bind fun _ => noWait_faultIf.bind fun _ => noWait_faultIf.bind fun _ => noWait_faultIf.bind fun _ =>
    h2.overwrite

theorem State.memOk.execTscl {f} (h : s.memOk) : GoesOnOk (execTscl f s) :=
  h.runTile fun _ h2 => (keeps_before h2.src).bind fun _ h3 => noWait_regChecks.bind fun _ => noWait_faultIf.bind fun _ => h3.overwrite

theorem State.memOk.execTtrn {f} (h : s.memOk) : GoesOnOk (execTtrn f s) :=
  h.runTile fun _ h2 => noWait_regChecks.bind fun _ => noWait_faultIf.bind fun _ => h2.overwrite

theorem State.memOk.execTchk {f} (h : s.memOk) : GoesOnOk (execTchk f s) := by
  simp only [Machine.execTchk]
  split
  · exact h.runTile fun _ h1 => h1.src.bind fun _ h2 => h2.put
  · exact h.runMem fun _ h1 => h1.tileAt.bind fun _ h2 => h2.src.bind fun _ h3 => h3.tileHeader.put

end Sys2Proof.Machine
end

section
/-! SUPPORT. Memory in canonical form: the instructions and events that the parts above leave over. -/

namespace Sys2Proof.Machine

variable {s t : State} {α β : Type}

/-! ### Jobs -/

theorem State.memOk.report {k ctx v wake trusted e regs} (h : s.memOk) : (s.report k ctx v wake trusted e regs).memOk :=
  h.engineLetter.ite (h.sendWake.ite h)

theorem State.memOk.endJob {j ws trusted e x3 g} (h : s.memOk) : (s.endJob j ws trusted e x3 g).memOk := h.setJobWin.report

/-! ### FaultService -/

theorem State.memOk.missFilled {k va l} (h : s.memOk) : (s.missFilled k va l).memOk := h.fillTlbs.sample

theorem State.memOk.afterMiss {k va acc ok} (h : s.memOk) : (s.afterMiss k va acc ok).memOk := h.modCore.ite h.modCore.takeFault

theorem State.memOk.execTlbMissService {c} (h : s.memOk) : GoesOnOk (execTlbMissService c s) := by
  simp only [Machine.execTlbMissService]
  split
  · split
    · exact goesOnOk_ite h h.missRecord
    · split
      · exact goesOnOk_ite h.missFilled.afterMiss h.afterMiss
      · exact h.afterMiss
  · exact h

theorem State.memOk.replayAborted {k a} (h : s.memOk) : (s.replayAborted k a).memOk := h.modCore

theorem State.memOk.endAborted {k a code} (h : s.memOk) : (s.endAborted k a code).memOk := by
  simp only [State.endAborted]
  split
  · split
    · exact h.modCore.deadLetter.releaseFiring.leaveSvc.haltCtx
    · exact h.modCore.releaseFiring.leaveSvc.haltCtx
  · split
    · exact h.modCore.deadLetter.ctxEvent.releaseFiring.leaveSvc
    · exact h.modCore.ctxEvent.releaseFiring.leaveSvc

theorem State.memOk.execPageService {c} (h : s.memOk) : GoesOnOk (execPageService c s) := by
  simp only [Machine.execPageService]
  split
  · exact h
  · split
    · exact h.endAborted
    · split
      · split
        · exact h.endAborted
        · split
          · exact h.endAborted
          · exact (h.takeFrame ‹_›).zeroFrame.writeWord.dropTlb.replayAborted
      · exact h.endAborted

theorem State.memOk.execFaultActorFire {ctx c} (h : s.memOk) : GoesOnOk (execFaultActorFire ctx c s) := by
  simp only [Machine.execFaultActorFire]
  split
  · exact h
  · split
    · exact h
    · split
      · exact h.modCtx.errorRecord
      · split
        · exact h.haltCtx
        · exact goesOnOk_ite h h.modCtx.modCore

theorem State.memOk.pollRing {ctx r} (h : s.memOk) : (s.pollRing ctx r).memOk := by
  simp only [State.pollRing]
  split
  · exact h
  · exact h.modCtx.ringFlush

theorem State.memOk.execRingRcountPoll {ctx r} (h : s.memOk) : GoesOnOk (execRingRcountPoll ctx r s) := goesOnOk_ite h h.pollRing

theorem State.memOk.follow {m} (h : s.memOk) : (s.follow m).memOk := h.update

theorem State.memOk.setPst {v l} (h : s.memOk) : (s.setPst v l).memOk := by
  induction l generalizing s with
  | nil => exact h
  | cons p l ih => exact ih h.writeWord

theorem State.memOk.promoted {ctx va how} (h : s.memOk) : (s.promoted ctx va how).memOk := h.modCtx.serviceRecord.ite h

theorem State.memOk.endMove {m} (h : s.memOk) : (s.endMove m).memOk := h.update

theorem State.memOk.promoteAbandon {m} (h : s.memOk) : (s.promoteAbandon m).memOk := by
  simp only [State.promoteAbandon]
  split
  · exact h.setPst.freeFrame.endMove.promoted
  · exact h.freeFrame.endMove.promoted

theorem State.memOk.promoteEnd {m} (h : s.memOk) : (s.promoteEnd m).memOk := by
  simp only [State.promoteEnd]
  split
  · split
    · exact h.promoteAbandon
    · split
      · exact ((h.foldl fun _ _ h7 => h7.copyFrame.follow).writeWord.dropTlb.foldl fun _ _ h4 => h4.freeFrame).freeFrame.endMove.promoted
      · exact ((h.foldl fun _ _ h6 => h6.copyFrame.follow).writeWord.dropTlb.foldl fun _ _ h3 => h3.freeFrame).endMove.promoted
  · exact h.promoteAbandon

theorem State.memOk.execPromotionAbandon {ctx va} (h : s.memOk) : GoesOnOk (execPromotionAbandon ctx va s) := by
  simp only [Machine.execPromotionAbandon]
  split
  · split
    · exact goesOnOk_ite h.promoteAbandon h
    · exact h
  · exact h

theorem State.memOk.remap {old new n p} (h : s.memOk) : (s.remap old new n p).memOk := h.follow.writeWord.dropTlb

theorem State.memOk.migrateEnd {m} (h : s.memOk) : (s.migrateEnd m).memOk := by
  simp only [State.migrateEnd]
  split
  · exact h.freeFrame.endMove.ite (h.copyFrame.foldl fun _ _ h4 => h4.remap).freeFrame.endMove
  · exact h.freeFrame.endMove

theorem State.memOk.codeCopy {ctx va} (h : s.memOk) : s.codeCopy ctx va = some (some t) → t.memOk := by
  simp only [State.codeCopy]
  split
  · split
    · rintro ⟨⟩
    · split
      · rintro ⟨⟩
      · rintro ⟨⟩
        exact (h.takeFrame ‹_›).copyFrame.writeWord.dropTlb.update
  · rintro ⟨⟩

/-! ### Wake -/

theorem State.memOk.loseFiring {k ctx f} (h : s.memOk) : (s.loseFiring k ctx f).memOk := h.loseInputs.releaseFiring.leaveSvc

theorem State.memOk.pick {k} (h : s.memOk) : (s.pick k).memOk := by
  simp only [State.pick]
  split
  · exact h
  · split
    · exact h
    · split
      · exact h.joinsFired.ite h
      · split
        · exact h.joinsFired.ite h
        · split
          · exact (h.joinsFired.ite h).modCore.readyTiles.startFiring
          · exact (h.joinsFired.ite h).modCore.loseFiring

theorem State.memOk.execSchedulerPick {c} (h : s.memOk) : GoesOnOk (execSchedulerPick c s) := h.pick

theorem State.memOk.execPreemptionAbort {c} (h : s.memOk) : GoesOnOk (execPreemptionAbort c s) := by
  simp only [Machine.execPreemptionAbort]
  split
  · exact h
  · exact goesOnOk_ite h (goesOnOk_ite h.abortEnd (goesOnOk_ite h h.abortReplay))

theorem State.memOk.execMigrateDepart {c} (h : s.memOk) : GoesOnOk (execMigrateDepart c s) := by
  simp only [Machine.execMigrateDepart]
  split
  · split
    · exact goesOnOk_ite h (h.sendBody.ite h.sendBody.modCore.update).endFiring
    · exact h
  · exact h

theorem State.memOk.execLateReplyRedirect {c} (h : s.memOk) : GoesOnOk (execLateReplyRedirect c s) := by
  simp only [Machine.execLateReplyRedirect]
  split
  · exact h.modCore
  · exact h

theorem State.memOk.execWaymarkExpiry {c} (h : s.memOk) : GoesOnOk (execWaymarkExpiry c s) := by
  simp only [Machine.execWaymarkExpiry]
  split
  · exact h.modCore
  · exact h

theorem State.memOk.execBoundaryRelease {c} (h : s.memOk) : GoesOnOk (execBoundaryRelease c s) := by
  simp only [Machine.execBoundaryRelease]
  split
  · exact h.refollow.stall.ite h.refollow.modCore
  · exact h.refollow.stall.ite h.refollow.safePoint
  · exact h

theorem State.memOk.execWorldStopped {ctx} (h : s.memOk) : GoesOnOk (execWorldStopped ctx s) := by
  simp only [Machine.execWorldStopped]
  split
  · exact h
  · split
    · exact goesOnOk_ite h.modCtx.modCore.freshPhase.finishWord h
    · exact h

theorem State.memOk.evArrive {i set} (h : s.memOk) : (s.evArrive i set).memOk := by
  simp only [State.evArrive]
  split
  · exact h
  · exact h.ite (h.update.ite (h.update.eventLost.ite h.update.applyOp))

theorem State.memOk.execEventSetAtHome {i} (h : s.memOk) : GoesOnOk (execEventSetAtHome i s) := h.evArrive

theorem State.memOk.execEventClearAtHome {i} (h : s.memOk) : GoesOnOk (execEventClearAtHome i s) := h.evArrive

theorem State.memOk.execEventWake {c} (h : s.memOk) : GoesOnOk (execEventWake c s) := by
  simp only [Machine.execEventWake]
  split
  · exact goesOnOk_ite h.freshPhase.finishWord h
  · exact h

theorem State.memOk.idWaitEnd {k copy} (h : s.memOk) : (s.idWaitEnd k copy).memOk := by
  simp only [State.idWaitEnd]
  split
  · exact h.ite h.freshPhase.finishWord
  · exact h.ite h.freshPhase.finishWord
  · exact h.ite h.modCore
  · exact h

theorem State.memOk.execJobWaitEnd {c} (h : s.memOk) : GoesOnOk (execJobWaitEnd c s) := h.idWaitEnd

theorem State.memOk.execCopyWaitEnd {c} (h : s.memOk) : GoesOnOk (execCopyWaitEnd c s) := h.idWaitEnd

theorem State.memOk.execTimedRelease {c} (h : s.memOk) : GoesOnOk (execTimedRelease c s) := by
  simp only [Machine.execTimedRelease]
  split
  · exact goesOnOk_ite h.freshPhase.finishWord h
  · exact h

theorem State.memOk.execPortWaitEnd {c} (h : s.memOk) : GoesOnOk (execPortWaitEnd c s) := by
  simp only [Machine.execPortWaitEnd]
  split
  · exact h.modCore
  · exact h

theorem State.memOk.execHandleWaitEnd {c} (h : s.memOk) : GoesOnOk (execHandleWaitEnd c s) := by
  simp only [Machine.execHandleWaitEnd]
  split
  · exact h.modCore
  · exact h

/-! ### Matrix -/

theorem State.memOk.jobStarted {j} (h : s.memOk) : (s.jobStarted j).memOk := h.sample.setJobWin

theorem State.memOk.drainTo {j vx vy off bs} (h : s.memOk) : (s.drainTo j vx vy off bs).memOk := by
  simp only [State.drainTo]
  split
  · split
    · exact h.modVs
    · exact h.modCtx
  · split
    · exact h.lsRemote
    · exact h
    · exact h.foldl fun _ _ h1 => h1.sendBody

/-! ### Copies -/

theorem State.memOk.noteCopy {ctx kind d} (h : s.memOk) : (s.noteCopy ctx kind d).memOk := h.foldl fun _ _ h2 => h2.noteRange

theorem State.memOk.endCopy {c ws trusted e x3 g} (h : s.memOk) : (s.endCopy c ws trusted e x3 g).memOk := by
  simp only [State.endCopy]
  split
  · exact h.setCpWin.sendEventOf.report
  · exact h.setCpWin.report

/-! ### Host -/

theorem State.memOk.create {ctx} (h : s.memOk) : (s.create ctx).2.memOk := by
  simp only [State.create]
  split
  · exact h
  · split
    · exact h
    · exact h.setCtx

theorem State.memOk.commitCtx {ctx} (h : s.memOk) : (s.commitCtx ctx).2.memOk := by
  simp only [State.commitCtx]
  split
  · exact h
  · split
    · exact h
    · exact h.modCtx

theorem State.memOk.resumeCtx {ctx} (h : s.memOk) : (s.resumeCtx ctx).2.memOk := by
  simp only [State.resumeCtx]
  split
  · exact h
  · exact h.modCtx.liveAgain.pollRing.haltCtx.ite (h.modCtx.liveAgain.pollRing.haltCtx.ite h.modCtx.liveAgain.pollRing)

theorem State.memOk.destroyCtx {ctx} (h : s.memOk) : (s.destroyCtx ctx).2.memOk := by
  simp only [State.destroyCtx]
  split
  · exact h
  · exact h.modCtx.queuesGone.update.stopAtWaits

theorem State.memOk.setMode {ctx} (h : s.memOk) : (s.setMode ctx).2.memOk := by
  simp only [State.setMode]
  split
  · exact h
  · split
    · exact h
    · exact h.modCtx.ite (h.modCtx.foldl fun _ _ h3 => h3.handEvent)

theorem State.memOk.setFault {ctx} (h : s.memOk) : (s.setFault ctx).2.memOk := by
  simp only [State.setFault]
  split
  · exact h
  · split
    · exact h
    · exact h.modCtx

theorem State.memOk.preemptGroup {ctx} (h : s.memOk) : (s.preemptGroup ctx).2.memOk := by
  simp only [State.preemptGroup]
  split
  · exact h
  · split
    · split
      · exact h.unbindGroup
      · exact h
    · exact h

theorem State.memOk.offerPromotion {ctx} (h : s.memOk) : (s.offerPromotion ctx).2.memOk := by
  simp only [State.offerPromotion]
  split
  · exact h
  · split
    · exact h
    · exact h.modCtx

theorem State.memOk.answered {ctx seq} (h : s.memOk) : (s.answered ctx seq).memOk := h.modCtx

theorem State.memOk.answerTlb {status c} (h : s.memOk) : s.answerTlb status c = some t → t.memOk := by
  simp only [State.answerTlb]
  split
  · split
    · rintro ⟨⟩
      exact h.afterMiss
    · split
      · rintro ⟨⟩
      · split
        · rintro ⟨⟩
          exact h.missFilled.afterMiss.ite h.afterMiss
        · rintro ⟨⟩
  · split
    · rintro ⟨⟩
      exact h
    · rintro ⟨⟩

theorem State.memOk.answerPref {ctx status c va} (h : s.memOk) : s.answerPref ctx status c va = some t → t.memOk := by
  simp only [State.answerPref]
  split
  · rintro ⟨⟩
    exact h
  · split
    · rintro ⟨⟩
    · split
      · rintro ⟨⟩
        exact h.prefFilled.ite h
      · rintro ⟨⟩

theorem State.memOk.answerPage {ctx seq status c} (h : s.memOk) : s.answerPage ctx seq status c = some t → t.memOk := by
  simp only [State.answerPage]
  split
  · rintro ⟨⟩
  · split
    · split
      · rintro ⟨⟩
        exact h.dropTlb.replayAborted
      · rintro ⟨⟩
        exact h.endAborted
    · rintro ⟨⟩
      exact h.modCtx

theorem State.memOk.answerPlace {status l g} (h : s.memOk) : s.answerPlace status l g = some (some t) → t.memOk := by
  simp only [State.answerPlace]
  split
  · rintro ⟨⟩
    exact h
  · split
    · rintro ⟨⟩
    · split
      · rintro ⟨⟩
        exact h
      · split
        · rintro ⟨⟩
          exact h
        · split
          · split
            · rintro ⟨⟩
            · rintro ⟨⟩
              exact h.bindGroup
          · split
            · rintro ⟨⟩
            · rintro ⟨⟩
              exact h.bindGroup

theorem State.memOk.relay {ctx i l} (h : s.memOk) : (s.relay ctx i l).memOk := by
  induction l generalizing s i with
  | nil => exact h
  | cons e l ih => exact ih (h.getD fun _ => h.writeVa)

theorem State.memOk.answerLayby {ctx status} (h : s.memOk) : s.answerLayby ctx status = some t → t.memOk := by
  simp only [State.answerLayby]
  split
  · rintro ⟨⟩
    exact h
  · split
    · rintro ⟨⟩
    · rintro ⟨⟩
      exact h.modCtx.relay

theorem State.memOk.answerSpec {ctx status c index generic} (h : s.memOk) : s.answerSpec ctx status c index generic = some (some t) → t.memOk := by
  simp only [State.answerSpec]
  split
  · split
    · rintro ⟨⟩
    · split
      · rintro ⟨⟩
      · split
        · rintro ⟨⟩
          exact (h.update.makeResidual ‹_›).freshPhase.finishWord
        · rintro ⟨⟩
  · split
    · rintro ⟨⟩
    · rintro ⟨⟩
      exact h

theorem State.memOk.zeroVa {ctx f va n} (h : s.memOk) : (State.zeroVa ctx f va n s).memOk := by
  induction f generalizing s va n with
  | zero => exact h
  | succ f ih =>
    simp only [State.zeroVa]
    split
    · exact h
    · refine ih ?_
      split
      · exact h.zeroFrame
      · exact h

theorem State.memOk.freePages {ctx} (h : s.memOk) : (s.freePages ctx).memOk := h.unmapPages

theorem State.memOk.releaseFrames {ctx} (h : s.memOk) : (s.releaseFrames ctx).memOk := h.foldl fun _ _ h2 => h2.freeFrame

/-! ### Junction -/

theorem State.memOk.noteAggregate {run} (h : s.memOk) : (s.noteAggregate run).memOk := h.noteRange

/-! ### LinkEvents -/

theorem State.memOk.resource (h : s.memOk) : s.resource.memOk := by
  simp only [State.resource]
  split
  · exact h
  · split
    · exact h.update
    · exact h.update

theorem State.memOk.execLinkEnable {n} (h : s.memOk) : GoesOnOk (execLinkEnable n s) := goesOnOk_ite h.setLink h

theorem State.memOk.execLinkTrainingDone {n lanes peer plink} (h : s.memOk) : GoesOnOk (execLinkTrainingDone n lanes peer plink s) :=
  goesOnOk_ite h (goesOnOk_ite h.setLink.resource h.setLink)

theorem State.memOk.execLaneFailure {n _lane} (h : s.memOk) : GoesOnOk (execLaneFailure n _lane s) :=
  goesOnOk_ite h.setLink.resource (goesOnOk_ite h (goesOnOk_ite h.setLink.resource h.setLink))

theorem State.memOk.execLinkRetrain {n} (h : s.memOk) : GoesOnOk (execLinkRetrain n s) := goesOnOk_ite h.setLink.resource h

theorem State.memOk.execLinkAckTimeout {n} (h : s.memOk) : GoesOnOk (execLinkAckTimeout n s) := goesOnOk_ite h.setLink.resource h

theorem State.memOk.bounce {die maybe m} (h : s.memOk) : (s.bounce die maybe m).memOk :=
  h.ite (h.returned.ite (h.getD fun _ => h.sendWire))

theorem State.memOk.bounceAll {die maybe xs} (h : s.memOk) : (s.bounceAll die maybe xs).memOk := h.foldl fun _ _ h2 => h2.bounce

theorem State.memOk.returnFlits {n to?} (h : s.memOk) : (s.returnFlits n to?).memOk := h.setLink.bounceAll.bounceAll

theorem State.memOk.returnFar {p} (h : s.memOk) : (s.returnFar p).memOk := h.update.foldl fun _ _ h2 => h2.bounceAll

theorem State.memOk.execLinkDisable {n} (h : s.memOk) : GoesOnOk (execLinkDisable n s) :=
  goesOnOk_ite h h.returnFlits.returnFar.setLink

theorem State.memOk.passedOn {n fs} (h : s.memOk) : (s.passedOn n fs).memOk := h.update

theorem State.memOk.hearFar (h : s.memOk) : s.hearFar.memOk := h.ite h.update

theorem State.memOk.setRoutes {pkg e} (h : s.memOk) : (s.setRoutes pkg e).memOk := h.foldl fun _ _ h2 => h2.setDie

theorem State.memOk.reroute {pkg} (h : s.memOk) : (s.reroute pkg).memOk := by
  simp only [State.reroute]
  split
  · exact h
  · exact h.ite (h.update.setRoutes.foldl fun _ _ h2 => h2.bounceAll.getD fun _ => h2.sendWire)

theorem State.memOk.rerouteAll (h : s.memOk) : s.rerouteAll.memOk := h.foldl fun _ _ h2 => h2.reroute

theorem State.memOk.execFlitReplay {n seq} (h : s.memOk) : GoesOnOk (execFlitReplay n seq s) := by
  simp only [Machine.execFlitReplay]
  split
  · exact h
  · split
    · exact h.setLink
    · exact h

theorem State.memOk.failRemote {k} (h : s.memOk) : (s.failRemote k).memOk := by
  simp only [State.failRemote]
  split
  · exact h
  · exact (h.ite h.peerEvent.poison).takeFault

theorem State.memOk.failRemotes (h : s.memOk) : s.failRemotes.memOk := h.foldl fun _ _ h2 => h2.failRemote

theorem State.memOk.dieLaunch {d l} (h : s.memOk) : (State.dieLaunch d s l).memOk := by
  simp only [State.dieLaunch]
  split
  · exact h
  · exact h.ite h.setLaunch.errorRecord

theorem State.memOk.inboxBack {ctx at_ l} (h : s.memOk) : (s.inboxBack ctx at_ l).memOk := by
  induction l generalizing s with
  | nil => exact h
  | cons m l ih => exact ih h.returned

theorem State.memOk.layBack {ctx} (h : s.memOk) : (s.layBack ctx).memOk := (h.ite h.modCtx).foldl fun _ _ h2 => h2.toRetired

theorem State.memOk.loseCore {k} (h : s.memOk) : (s.loseCore k).memOk := by
  simp only [State.loseCore]
  split
  · exact h.setCore
  · exact h.undoFiring.leaveSvc.dropAll.inboxBack.setCore.modCtx.wakeWorld.ite h.undoFiring.leaveSvc.dropAll.inboxBack.setCore.modCtx

theorem State.memOk.dieLost {d ctx} (h : s.memOk) : (State.dieLost d s ctx).memOk := h.ctxEvent.poison

theorem State.memOk.failEvent {k} (h : s.memOk) : (s.failEvent k).memOk := by
  simp only [State.failEvent]
  split
  · exact h.takeFault.modCtx.ite h
  · exact h.takeFault.modCtx.ite h
  · exact h.takeFault.ite h
  · exact h

theorem State.memOk.execDieLoss {d} (h : s.memOk) : GoesOnOk (execDieLoss d s) :=
  goesOnOk_ite h (((((h.setDie.foldl fun _ _ h10 => h10.dieLaunch).foldl fun _ _ h9 => h9.loseCore).update.foldl fun _ _ h7 =>
    h7.layBack).foldl fun _ _ h6 => h6.dieLost).foldl fun _ _ h5 => h5.failEvent).failRemotes

theorem State.memOk.sendTime {n} (h : s.memOk) : (s.sendTime n).memOk := h.setLink

theorem State.memOk.execTimeFlitExchange {n count rtt peerRoot hops} (h : s.memOk) : GoesOnOk (execTimeFlitExchange n count rtt peerRoot hops s) :=
  goesOnOk_ite h (goesOnOk_ite h.sendTime.setLink.update (goesOnOk_ite
    (h.sendTime.setLink.update.ite h.sendTime.setLink).resource.update (h.sendTime.setLink.update.ite h.sendTime.setLink).resource))

theorem State.memOk.execRootselWrite {w} (h : s.memOk) : GoesOnOk (execRootselWrite w s) := h.update

/-! ### LocalStore -/

theorem State.memOk.execLsld {f} (h : s.memOk) : GoesOnOk (execLsld f s) :=
  h.runSeq fun _ h2 => noWait_localAt.bind fun _ => h2.modVs.put

theorem State.memOk.execLsst {f} (h : s.memOk) : GoesOnOk (execLsst f s) :=
  h.runSeq fun _ h2 => noWait_localAt.bind fun _ => h2.storeData.bind fun _ h4 => h4.modVs

theorem State.memOk.execLsldv {f} (h : s.memOk) : GoesOnOk (execLsldv f s) :=
  h.runSeq fun _ h2 => noWait_localAt.bind fun _ => h2.modVs.loadVec

theorem State.memOk.execLsstv {f} (h : s.memOk) : GoesOnOk (execLsstv f s) :=
  h.runSeq fun _ h2 => noWait_localAt.bind fun _ => h2.storeData.bind fun _ h4 => h4.modVs

theorem State.memOk.execMcst {f} (h : s.memOk) : GoesOnOk (execMcst f s) :=
  h.runSeq fun _ h2 => noWait_targetCap.bind fun _ => noWait_faultIf.bind fun _ => noWait_faultIf.bind fun _ => h2.enter

theorem State.memOk.execCbinit {f} (h : s.memOk) : GoesOnOk (execCbinit f s) :=
  h.runSeq fun _ h2 => h2.src.bind fun _ h3 => h3.src.bind fun _ h4 => noWait_faultIf.bind fun _ => h4.modVs

theorem State.memOk.execCbadvp {f} (h : s.memOk) : GoesOnOk (execCbadvp f s) :=
  h.runSeq fun _ h2 => noWait_ringOf.bind fun _ => keeps_ite h2 (keeps_ok h2.modVs)

theorem State.memOk.execCbadvc {f} (h : s.memOk) : GoesOnOk (execCbadvc f s) :=
  h.runSeq fun _ h2 => noWait_ringOf.bind fun _ => keeps_ite h2 (keeps_ok h2.modVs)

theorem State.memOk.execCbcnt {f} (h : s.memOk) : GoesOnOk (execCbcnt f s) := h.runSeq fun _ h2 => noWait_ringOf.bind fun _ => h2.put

theorem State.memOk.execQctl {f} (h : s.memOk) : GoesOnOk (execQctl f s) := by
  simp only [Machine.execQctl]
  refine h.runSeq fun _ h1 => ?_
  refine h1.src.bind fun _ h2 => ?_
  split
  · exact noWait_ringOf.bind fun _ => noWait_faultIf.bind fun _ => h2.writeRing
  · exact noWait_faultIf.bind fun _ => h2.sendUnit
  · exact h2

theorem State.memOk.execQtest {f} (h : s.memOk) : GoesOnOk (execQtest f s) :=
  h.runSeq fun _ h2 => noWait_headOf.bind fun _ => h2.named.put

theorem State.memOk.dropHead {k a} (h : s.memOk) : (s.dropHead k a).memOk := by
  simp only [State.dropHead]
  split
  · split
    · exact h.modVs
    · exact h
  · exact h.modCore
  · exact h

theorem State.memOk.execQdrain {f} (h : s.memOk) : GoesOnOk (execQdrain f s) :=
  h.runElement fun _ h2 => noWait_headOf.bind fun _ => keeps_ite h2 (keeps_ite (keeps_ok h2.named.dropHead) (noWait_faultIf.bind fun _ =>
    h2.named.dropHead.setCap.shiftL))

/-! ### Management -/

theorem State.memOk.writeFeatoff {w} (h : s.memOk) : (s.writeFeatoff w).memOk := h.update.ite h.update

theorem State.memOk.execFeatoffWrite {w} (h : s.memOk) : GoesOnOk (execFeatoffWrite w s) := h.writeFeatoff

theorem State.memOk.execGaugeSourceSet {ctx u src} (h : s.memOk) : GoesOnOk (execGaugeSourceSet ctx u src s) :=
  goesOnOk_ite h h.gaugeWrite

theorem State.memOk.execGaugeClear {ctx u} (h : s.memOk) : GoesOnOk (execGaugeClear ctx u s) := h.modCtx

theorem State.memOk.execPowerOn (h : s.memOk) : GoesOnOk (execPowerOn s) := by
  simp only [Machine.execPowerOn]
  split
  · exact h
  · split
    · exact h.update
    · exact h.update

theorem State.memOk.execBootInitDone {bad} (h : s.memOk) : GoesOnOk (execBootInitDone bad s) :=
  goesOnOk_ite h (h.foldl fun _ _ h5 => h5.setDie).update

theorem State.memOk.provEnd {op status} (h : s.memOk) : (s.provEnd op status).memOk := h.update

theorem State.memOk.provErase (h : s.memOk) : s.provErase.memOk := h.provEnd.ite h.update.provEnd

theorem State.memOk.provWrite (h : s.memOk) : s.provWrite.memOk := h.provEnd.ite h.update.provEnd

theorem State.memOk.provVerify (h : s.memOk) : s.provVerify.memOk := by
  simp only [State.provVerify]
  split
  · exact h.provEnd
  · split
    · exact h.provEnd
    · exact h.update.provEnd

theorem State.memOk.execProvErase (h : s.memOk) : GoesOnOk (execProvErase s) := h.provErase

theorem State.memOk.execProvWrite (h : s.memOk) : GoesOnOk (execProvWrite s) := h.provWrite

theorem State.memOk.execProvVerify (h : s.memOk) : GoesOnOk (execProvVerify s) := h.provVerify

theorem State.memOk.spdm {code req} (h : s.memOk) : (s.spdm code req).memOk := h.ite h.update

theorem State.memOk.execGetVersion {req} (h : s.memOk) : GoesOnOk (execGetVersion req s) := h.spdm

theorem State.memOk.execGetCapabilities {req} (h : s.memOk) : GoesOnOk (execGetCapabilities req s) := h.spdm

theorem State.memOk.execNegotiateAlgorithms {req} (h : s.memOk) : GoesOnOk (execNegotiateAlgorithms req s) := h.spdm

theorem State.memOk.execGetDigests {req} (h : s.memOk) : GoesOnOk (execGetDigests req s) := h.spdm

theorem State.memOk.execGetCertificate {req} (h : s.memOk) : GoesOnOk (execGetCertificate req s) := h.spdm

theorem State.memOk.execChallenge {req} (h : s.memOk) : GoesOnOk (execChallenge req s) := h.spdm

theorem State.memOk.execGetMeasurements {req} (h : s.memOk) : GoesOnOk (execGetMeasurements req s) := h.spdm

theorem State.memOk.writeQcfg {q w} (h : s.memOk) : (s.writeQcfg q w).memOk :=
  h.setQueue.enableQueue.ite (h.setQueue.disableQueue.ite h.setQueue)

theorem State.memOk.writeQueue {q byte w} (h : s.memOk) : (s.writeQueue q byte w).memOk := by
  simp only [State.writeQueue]
  split
  · exact h
  · split
    · exact h.setQueue.ite h.setQueue
    · exact h.writeQcfg
    · exact h.setQueue
    · exact h.queueCommand
    · exact h

theorem State.memOk.writeWindow {a w} (h : s.memOk) : (s.writeWindow a w).memOk := h.update

theorem State.memOk.writeStatus {off w} (h : s.memOk) : (s.writeStatus off w).memOk := by
  simp only [State.writeStatus]
  split
  · exact h.update
  · split
    · exact h.setLink
    · exact h.setDie
    · exact h

theorem State.memOk.writeGauge {off w} (h : s.memOk) : (s.writeGauge off w).memOk := (h.ite h.gaugeWrite).ite (h.gaugeWrite.ite h)

theorem State.memOk.bellWrite {pa bs q} (h : s.memOk) : (s.bellWrite pa bs q).memOk := h.ite h.doorbell

theorem State.memOk.execCxlMemWrite {pa bytes} (h : s.memOk) : GoesOnOk (execCxlMemWrite pa bytes s) :=
  goesOnOk_ite trivial (goesOnOk_ite h ((h.ite (h.write.foldl fun _ _ h7 => h7.fenceCode.ite h7)).foldl fun _ _ h5 => h5.bellWrite))

theorem State.memOk.execCorrectableError {die kind pa} (h : s.memOk) : GoesOnOk (execCorrectableError die kind pa s) := h.setDie

theorem State.memOk.errorAt {a} (h : s.memOk) : (s.errorAt a).memOk := by
  simp only [State.errorAt]
  split
  · exact h.takeFault
  · split
    · exact h
    · exact h.modCore.writeOut.checkEvent
  · split
    · exact h
    · exact (h.ite h.modCtx.modCore).checkEvent.haltCtx
  · exact h.checkEvent.ite h
  · split
    · exact h.setCluster.checkEvent
    · exact h.setCluster.checkEvent
    · exact h
  · split
    · exact h
    · exact h.setEngine.checkEvent
  · exact h

theorem State.memOk.execUncorrectableError {die site} (h : s.memOk) : GoesOnOk (execUncorrectableError die site s) :=
  h.update.setDie.errorAt

theorem State.memOk.setClocks {dies f} (h : s.memOk) : (s.setClocks dies f).memOk := h.foldl fun _ _ h2 => h2.setDie

theorem State.memOk.execThermalThrottle {dies} (h : s.memOk) : GoesOnOk (execThermalThrottle dies s) := h.setClocks

theorem State.memOk.execThermalRecover {dies} (h : s.memOk) : GoesOnOk (execThermalRecover dies s) := h.setClocks

theorem State.memOk.execThermalShutdown (h : s.memOk) : GoesOnOk (execThermalShutdown s) :=
  (h.foldl fun _ _ h4 => h4.destroyCtx).update

/-! ### System -/

theorem State.memOk.takePrefix {k f} (h : s.memOk) : (s.takePrefix k f).memOk := h.modCore

theorem State.memOk.execXimm {payload} (h : s.memOk) : GoesOnOk (execXimm payload s) := h.takePrefix

theorem State.memOk.execOrd {o} (h : s.memOk) : GoesOnOk (execOrd o s) := h.takePrefix

theorem State.memOk.execNop {f} (h : s.memOk) : GoesOnOk (execNop f s) := h.runSeq fun _ h2 => h2

theorem State.memOk.execTrap {f} (h : s.memOk) : GoesOnOk (execTrap f s) :=
  h.runJump fun _ h2 => noWait_faultIf.bind fun _ => noWait_faultIf.bind fun _ => h2.enterTrap.bind fun _ h5 => h5

theorem State.memOk.execTrapd {f} (h : s.memOk) : GoesOnOk (execTrapd f s) := by
  simp only [Machine.execTrapd]
  refine h.runWord fun _ h1 => ?_
  split
  · exact h1.commit.publishNow.bind fun _ h2 => h2
  · exact h1.ctxEvent
  · exact trivial

theorem State.memOk.execBrk {f} (h : s.memOk) : GoesOnOk (execBrk f s) := h.runJump fun _ h2 => h2.breakTrap.bind fun _ h3 => h3

theorem State.memOk.execEret {f} (h : s.memOk) : GoesOnOk (execEret f s) := h.runJump fun _ h2 => h2.leaveTrap.bind fun _ h3 => h3

theorem State.memOk.execCsrr {f} (h : s.memOk) : GoesOnOk (execCsrr f s) := h.runSeq fun _ h2 => h2.csrOp

theorem State.memOk.execCsrw {f} (h : s.memOk) : GoesOnOk (execCsrw f s) := h.runSeq fun _ h2 => h2.csrOp

theorem State.memOk.execCsrs {f} (h : s.memOk) : GoesOnOk (execCsrs f s) := h.runSeq fun _ h2 => h2.csrOp

theorem State.memOk.execCsrc {f} (h : s.memOk) : GoesOnOk (execCsrc f s) := h.runSeq fun _ h2 => h2.csrOp

theorem State.memOk.execPtsync {f} (h : s.memOk) : GoesOnOk (execPtsync f s) :=
  h.runSeq fun _ h2 => (keeps_before h2.src).bind fun _ h3 => noWait_fenceCheck.bind fun _ => h3.publishNow.bind fun _ h5 => h5.ite h5.dropTlb

theorem State.memOk.askStop {ctx k} (h : s.memOk) : (s.askStop ctx k).memOk := h.update.stopAtWaits

theorem State.memOk.execResumew {f} (h : s.memOk) : GoesOnOk (execResumew f s) :=
  h.runSeq fun _ h2 => h2.publishNow.bind fun _ h3 => h3.wakeWorld.ite h3

theorem State.memOk.execWaitt {f} (h : s.memOk) : GoesOnOk (execWaitt f s) :=
  h.runSeq fun _ h2 => h2.waitSrc.bind fun _ h3 => h3.publishNow.bind fun _ h4 => keeps_ite (keeps_ok h4) (keeps_wait h4)

theorem State.memOk.execHalt {_f} (h : s.memOk) : GoesOnOk (execHalt _f s) :=
  h.runEnd fun _ h2 => h2.modCore.enter.bind fun _ h3 => h3.publishNow

theorem State.memOk.execUnassignedOpcode {_w} (h : s.memOk) : GoesOnOk (execUnassignedOpcode _w s) := h.takeFault

/-! ### VectorFloat -/

theorem State.memOk.execVfadd {f} (h : s.memOk) : GoesOnOk (execVfadd f s) := h.binary

theorem State.memOk.execVfsub {f} (h : s.memOk) : GoesOnOk (execVfsub f s) := h.binary

theorem State.memOk.execVfmul {f} (h : s.memOk) : GoesOnOk (execVfmul f s) := h.binary

theorem State.memOk.execVfma {f} (h : s.memOk) : GoesOnOk (execVfma f s) := h.ternary

theorem State.memOk.execVfnma {f} (h : s.memOk) : GoesOnOk (execVfnma f s) := h.ternary

theorem State.memOk.execVfdiv {f} (h : s.memOk) : GoesOnOk (execVfdiv f s) := h.binary

theorem State.memOk.execVfsqrt {f} (h : s.memOk) : GoesOnOk (execVfsqrt f s) := h.unary

theorem State.memOk.execVfrsq {f} (h : s.memOk) : GoesOnOk (execVfrsq f s) := h.unary

theorem State.memOk.execVfrcp {f} (h : s.memOk) : GoesOnOk (execVfrcp f s) := h.unary

theorem State.memOk.execVfmin {f} (h : s.memOk) : GoesOnOk (execVfmin f s) := h.binary

theorem State.memOk.execVfmax {f} (h : s.memOk) : GoesOnOk (execVfmax f s) := h.binary

theorem State.memOk.execVfabs {f} (h : s.memOk) : GoesOnOk (execVfabs f s) := h.unary

theorem State.memOk.execVfneg {f} (h : s.memOk) : GoesOnOk (execVfneg f s) := h.unary

theorem State.memOk.execVfcmp {f} (h : s.memOk) : GoesOnOk (execVfcmp f s) := h.binary

theorem State.memOk.execVfclass {f} (h : s.memOk) : GoesOnOk (execVfclass f s) := h.unary

/-! ### VectorInt -/

theorem State.memOk.intLanes {f op} (h : s.memOk) : GoesOnOk (s.intLanes f op) := by
  simp only [State.intLanes]
  exact h.binary

theorem State.memOk.bitLanes {f op} (h : s.memOk) : GoesOnOk (s.bitLanes f op) := by
  simp only [State.bitLanes]
  exact h.binary

theorem State.memOk.execVadd {f} (h : s.memOk) : GoesOnOk (execVadd f s) := h.intLanes

theorem State.memOk.execVsub {f} (h : s.memOk) : GoesOnOk (execVsub f s) := h.intLanes

theorem State.memOk.execVmul {f} (h : s.memOk) : GoesOnOk (execVmul f s) := h.intLanes

theorem State.memOk.execVmulh {f} (h : s.memOk) : GoesOnOk (execVmulh f s) := h.intLanes

theorem State.memOk.execVand {f} (h : s.memOk) : GoesOnOk (execVand f s) := h.bitLanes

theorem State.memOk.execVor {f} (h : s.memOk) : GoesOnOk (execVor f s) := h.bitLanes

theorem State.memOk.execVxor {f} (h : s.memOk) : GoesOnOk (execVxor f s) := h.bitLanes

theorem State.memOk.execVshl {f} (h : s.memOk) : GoesOnOk (execVshl f s) := h.bitLanes

theorem State.memOk.execVshr {f} (h : s.memOk) : GoesOnOk (execVshr f s) := h.bitLanes

theorem State.memOk.execVshra {f} (h : s.memOk) : GoesOnOk (execVshra f s) := h.bitLanes

theorem State.memOk.execVmin {f} (h : s.memOk) : GoesOnOk (execVmin f s) := h.intLanes

theorem State.memOk.execVmax {f} (h : s.memOk) : GoesOnOk (execVmax f s) := h.intLanes

theorem State.memOk.execVcmpeq {f} (h : s.memOk) : GoesOnOk (execVcmpeq f s) := h.bitLanes

theorem State.memOk.execVcmplt {f} (h : s.memOk) : GoesOnOk (execVcmplt f s) := by
  simp only [Machine.execVcmplt]
  exact h.bitLanes

theorem State.memOk.execVabs {f} (h : s.memOk) : GoesOnOk (execVabs f s) := h.unary

theorem State.memOk.execVsel {f} (h : s.memOk) : GoesOnOk (execVsel f s) :=
  h.runVector fun _ h2 => h2.vsrc.bind fun _ h3 => h3.vsrc.bind fun _ h4 => h4.vput

theorem State.memOk.execVdot4 {f} (h : s.memOk) : GoesOnOk (execVdot4 f s) :=
  h.runVector fun _ h2 => h2.vsrc.bind fun _ h3 => h3.vsrc.bind fun _ h4 => h4.vsrc.bind fun _ h5 => h5.vput

theorem State.memOk.execVsplat {f} (h : s.memOk) : GoesOnOk (execVsplat f s) :=
  h.runVector fun _ h2 => h2.src.bind fun _ h3 => h3.vput

theorem State.memOk.execVmovx {f} (h : s.memOk) : GoesOnOk (execVmovx f s) :=
  h.runVector fun _ h2 => h2.vsrc.bind fun _ h3 => h3.src.bind fun _ h4 => h4.put

theorem State.memOk.execVins {f} (h : s.memOk) : GoesOnOk (execVins f s) :=
  h.runVector fun _ h2 => h2.src.bind fun _ h3 => h3.src.bind fun _ h4 => h4.vsrc.bind fun _ h5 => h5.vput

/-! ### Moves of pages, and answers that end a word -/

theorem State.memOk.promoteBegin {ctx va} (h : s.memOk) : (s.promoteBegin ctx va).memOk := by
  unfold State.promoteBegin
  extract_lets x
  split
  · exact h
  · split
    · exact h.promoted
    · rename_i l _
      split
      · exact h.promoted
      · extract_lets st
        split
        · exact h.promoted
        · rename_i new s1 he
          have h1 : s1.memOk := h.takeFrame he
          have h2 := h1.setPst (v := 1) (l := l)
          exact h2.update

theorem State.memOk.execPromotion {ctx va} (h : s.memOk) : GoesOnOk (execPromotion ctx va s) := by
  simp only [Machine.execPromotion]
  split
  · exact goesOnOk_ite h.promoteEnd h
  · exact h.promoteBegin

theorem State.memOk.migrateBegin {ctx va stack} (h : s.memOk) : (s.migrateBegin ctx va stack).memOk := by
  unfold State.migrateBegin
  split
  · refine h.ite ?_
    split
    · exact h
    · exact State.memOk.update (State.memOk.setPst (h.takeFrame ‹_›))
  · exact h

theorem State.memOk.execPageMigration {ctx va stack} (h : s.memOk) : GoesOnOk (execPageMigration ctx va stack s) := by
  simp only [Machine.execPageMigration]
  split
  · exact goesOnOk_ite h h.migrateEnd
  · exact h.migrateBegin

/-- The state of an answer that came. -/
theorem Keeps.ok {st : α → State} {r : Res α} {a : α} (h : Keeps st r) (e : r = .ok a) : (st a).memOk := by
  subst e
  exact h

theorem State.memOk.finishPut {k d v sp} (h : s.memOk) : s.finishPut k d v sp = some t → t.memOk := by
  unfold State.finishPut
  split
  · rintro ⟨⟩
    exact State.memOk.finishWord (h.put.ok ‹_›)
  · rintro ⟨⟩
    exact h.takeFault
  · rintro ⟨⟩

theorem State.memOk.execCarryTake {c} (h : s.memOk) : GoesOnOk (execCarryTake c s) := by
  simp only [Machine.execCarryTake]
  split
  · split
    · exact h.getD fun _ => h.modCore.freshPhase.finishPut
    · exact h
  · exact h

theorem State.memOk.scanReturn {k st e d wide sp} (h : s.memOk) : s.scanReturn k st e d wide sp = some t → t.memOk := by
  unfold State.scanReturn
  split
  · rintro ⟨⟩
    exact h.takeFault
  · have h1 := fun f => (h.commit (k := k)).freshPhase (k := k) |>.modVs (k := k) (f := f)
    dsimp only
    split
    · rintro ⟨⟩
      split
      · exact (h1 _).modVs.finishWord
      · exact (h1 _).finishWord
    · split
      · exact (h1 _).finishPut
      · rintro ⟨⟩

theorem State.memOk.scanTake {k st} (h : s.memOk) : (s.scanTake k st).memOk := by
  unfold State.scanTake
  split
  · split
    · exact h
    · refine h.ite ?_
      split
      · exact h
      · exact (h.scanReturn ‹_›).modCtx
  · exact h

theorem State.memOk.execScanComplete {c} (h : s.memOk) : GoesOnOk (execScanComplete c s) := by
  simp only [Machine.execScanComplete]
  split
  · split
    · exact h
    · exact (h.foldl fun _ _ h1 => h1.scanTake).modCtx
  · exact h

theorem State.memOk.execRemoteReply {c} (h : s.memOk) : GoesOnOk (execRemoteReply c s) := by
  simp only [Machine.execRemoteReply]
  split
  · exact h.getD fun _ => State.memOk.finishPut (h.freshPhase.ite h)
  · exact h

end Sys2Proof.Machine
end

section
/-! SUPPORT. Memory in canonical form: the engines, the host's commands, the links and the device. -/

namespace Sys2Proof.Machine

variable {s t : State} {α β : Type}

/-! ### The engines (21 R406, R411) -/

/-- What a part of a command gives leaves memory in canonical form, if it does not fail. -/
def Leaves (m : α → Eng) : JRes α → Prop
  | .ok a => (m a).s.memOk
  | .error _ => True

theorem Leaves.bind {m : α → Eng} {m' : β → Eng} {r : JRes α} {f : α → JRes β} (h : Leaves m r)
    (hf : ∀ a, (m a).s.memOk → Leaves m' (f a)) : Leaves m' (r >>= f) := by
  cases r with
  | ok a => exact hf a h
  | error e => trivial

/-- What follows a check. -/
theorem leaves_check {m : β → Eng} {r : JRes α} {f : α → JRes β} (hf : ∀ a, Leaves m (f a)) : Leaves m (r >>= f) := by
  cases r with
  | ok a => exact hf a
  | error e => trivial

theorem leaves_ite {m : α → Eng} {c : Prop} [Decidable c] {r q : JRes α} (hr : Leaves m r) (hq : Leaves m q) :
    Leaves m (if c then r else q) := by
  split
  · exact hr
  · exact hq

theorem leaves_ok {m : α → Eng} {a : α} (h : (m a).s.memOk) : Leaves m (.ok a) := h

theorem Leaves.ok {m : α → Eng} {r : JRes α} {a : α} (h : Leaves m r) (e : r = .ok a) : (m a).s.memOk := by
  subst e
  exact h

section
variable {m : Eng}

theorem State.memOk.engLoad {r ctx pa n} (h : m.s.memOk) : (m.load r ctx pa n).2.s.memOk := by
  simp only [Eng.load]
  exact h.loadIn.readReturn

theorem State.memOk.engReadPrefix {r ctx op f a n} (h : m.s.memOk) : (Eng.readPrefix r ctx op f m a n).2.2.s.memOk := by
  induction f generalizing m a n with
  | zero => exact h
  | succ f ih =>
    simp only [Eng.readPrefix]
    split
    · exact h
    · split
      · exact h
      · exact ih h.engLoad

theorem State.memOk.engRead {r ctx op a n} (h : m.s.memOk) : Leaves Prod.snd (m.read r ctx op a n) := by
  have hr := h.engReadPrefix (r := r) (ctx := ctx) (op := op) (f := n / 65536 + 2) (a := a) (n := n)
  unfold Eng.read
  split
  · trivial
  · rename_i he
    rw [he] at hr
    exact hr

theorem State.memOk.engWritePrefix {ctx op f a bs n} (h : m.s.memOk) : (Eng.writePrefix ctx op f m a bs n).2.2.s.memOk := by
  induction f generalizing m a bs n with
  | zero => exact h
  | succ f ih =>
    simp only [Eng.writePrefix]
    split
    · exact h
    · split
      · exact h
      · exact ih h.write

theorem State.memOk.engWrite {ctx op a bs} (h : m.s.memOk) : Leaves id (m.write ctx op a bs) := by
  have hr := h.engWritePrefix (ctx := ctx) (op := op) (f := bs.length / 65536 + 2) (a := a) (bs := bs) (n := 0)
  unfold Eng.write
  split
  · trivial
  · rename_i he
    rw [he] at hr
    exact hr

theorem State.memOk.engDescriptor {r ctx pa n} (h : m.s.memOk) : (m.descriptor r ctx pa n).2.2.s.memOk := by
  induction n with
  | zero => exact h
  | succ n ih => exact ih.loadPiece.readReturn

theorem State.memOk.engHeader {r ctx op cap need role kcol} (h : m.s.memOk) : Leaves Prod.snd (m.header r ctx op cap need role kcol) := by
  refine leaves_check fun _ => leaves_check fun _ => leaves_check fun pa => ?_
  have h1 := h.engLoad (r := r) (ctx := ctx) (pa := pa) (n := 32)
  split
  rename_i he
  rw [he] at h1
  exact h1

theorem State.memOk.engHeaders {r ctx l} (h : m.s.memOk) : Leaves Prod.snd (Eng.headers r ctx l m) := by
  induction l generalizing m with
  | nil => exact h
  | cons p l ih => exact h.engHeader.bind fun _ h1 => (ih h1).bind fun _ h2 => h2

theorem State.memOk.engPart {r ctx o off n} (h : m.s.memOk) : Leaves Prod.snd (m.part r ctx o off n) := h.engRead.bind fun _ h1 => h1

theorem State.memOk.engMetadata {r ctx o} (h : m.s.memOk) : Leaves Prod.snd (m.metadata r ctx o) := by
  refine h.engPart.bind fun _ h1 => ?_
  dsimp only
  split
  · exact leaves_check fun _ => h1
  · exact leaves_check fun _ => leaves_check fun _ => leaves_check fun _ => h1.engPart.bind fun _ h2 => leaves_check fun _ => h2
  · exact h1

theorem State.memOk.engOperand {r ctx o} (h : m.s.memOk) : Leaves Prod.snd (m.operand r ctx o) :=
  h.engMetadata.bind fun _ h1 => h1.engPart.bind fun _ h2 => h2.engPart.bind fun _ h3 => leaves_ok (State.memOk.update h3)

theorem State.memOk.mjobHeaders {r ctx ws ts} (h : m.s.memOk) : Leaves Prod.snd (m.mjobHeaders r ctx ws ts) := h.engHeaders

theorem State.memOk.mjobChecks {r ctx slot ws ts} (h : m.s.memOk) : Leaves id (m.mjobChecks r ctx slot ws ts) := by
  refine h.mjobHeaders.bind fun _ h1 => leaves_check fun _ => leaves_check fun _ => leaves_check fun _ => ?_
  split
  · refine leaves_check fun _ => ?_
    split
    · trivial
    · exact leaves_check fun _ => leaves_check fun _ => leaves_check fun _ => h1.engMetadata.bind fun _ h2 => h2.engMetadata.bind fun _ h3 =>
        leaves_check fun _ => leaves_check fun _ => leaves_check fun _ => leaves_check fun _ => leaves_check fun _ => h3
  · trivial

theorem State.memOk.mjobResult {r run slot} (h : m.s.memOk) : Leaves (·.2.2.2.2) (m.mjobResult r run slot) := by
  refine h.mjobHeaders.bind fun _ h1 => ?_
  dsimp only
  split
  · exact h1.engOperand.bind fun _ h2 => h2.engOperand.bind fun _ h3 => leaves_ite (leaves_ok (State.memOk.update h3))
      (leaves_ok (State.memOk.update h3))
  · trivial

theorem State.memOk.fillHeader {r ctx d} (h : m.s.memOk) : Leaves Prod.snd (m.fillHeader r ctx d) := h.engHeader

theorem State.memOk.copyChecks {r ctx kind d} (h : m.s.memOk) : Leaves id (m.copyChecks r ctx kind d) :=
  leaves_ite
    (leaves_check fun _ => h.fillHeader.bind fun _ h1 => leaves_check fun _ => leaves_check fun _ => leaves_check fun _ => leaves_check fun _ =>
      leaves_check fun _ => h1)
    (leaves_check fun _ => leaves_check fun _ => h)

theorem State.memOk.copyLines {r ctx len l n} (h : m.s.memOk) : (Eng.copyLines r ctx len l n m).2.2.s.memOk := by
  induction l generalizing m n with
  | nil => exact h
  | cons p l ih =>
    simp only [Eng.copyLines]
    split
    · exact h.engReadPrefix.engWritePrefix
    · exact ih h.engReadPrefix.engWritePrefix

theorem State.memOk.putElem {ctx o i j v} (h : m.s.memOk) : Leaves id (m.putElem ctx o i j v) :=
  leaves_ite (leaves_check fun _ => h.engWrite) h.engWrite

theorem State.memOk.fillElems {r ctx d o x l n g} (h : m.s.memOk) : (Eng.fillElems r ctx d o x l n g m).2.2.2.s.memOk := by
  induction l generalizing m n g with
  | nil => exact h
  | cons p l ih =>
    unfold Eng.fillElems
    extract_lets b work
    have hw : Leaves Prod.snd work := h.engRead.bind fun _ h1 => h1.putElem.bind fun _ h2 => h2
    clear_value work
    split
    · exact h
    · exact ih hw

theorem State.memOk.fill {r ctx d} (h : m.s.memOk) : (m.fill r ctx d).2.2.2.s.memOk := by
  unfold Eng.fill
  extract_lets begin_
  have hb : Leaves (·.2.2) begin_ := h.fillHeader.bind fun _ h1 => h1.engPart.bind fun _ h2 => leaves_ok (State.memOk.update h2)
  clear_value begin_
  split
  · exact h
  · rename_i o x m1
    have h1 : m1.s.memOk := hb
    have h2 := h1.fillElems (r := r) (ctx := ctx) (d := d) (o := o) (x := x) (l := positions o.hdr.shape.1 o.hdr.shape.2) (n := 0) (g := 0)
    split
    rename_i n g e m2 hq
    rw [hq] at h2
    split
    · exact h2
    · extract_lets hdr ws finish
      have hf : Leaves id finish := h2.engWrite.bind fun _ h3 => h3.engWrite
      clear_value finish
      split
      · exact h2
      · exact hf

theorem State.memOk.jHeaders {r ctx ws ts} (h : m.s.memOk) : Leaves Prod.snd (m.jHeaders r ctx ws ts) := by
  refine h.engHeader.bind fun _ h1 => h1.engHeader.bind fun _ h2 => Leaves.bind (m := Prod.snd) ?_ fun _ h3 =>
    h3.engHeader.bind fun _ h4 => Leaves.bind (m := Prod.snd) ?_ fun _ h5 => h5.engHeader.bind fun _ h6 => h6
  · exact leaves_ite (h2.engHeader.bind fun _ h3 => h3) h2
  · exact leaves_ite (h4.engHeader.bind fun _ h5 => h5) h4

theorem State.memOk.jedgeChecks {r ctx ws ts} (h : m.s.memOk) : Leaves Prod.snd (m.jedgeChecks r ctx ws ts) := by
  refine h.jHeaders.bind fun _ h1 => leaves_check fun _ => leaves_check fun _ => leaves_check fun _ => leaves_check fun _ =>
    leaves_check fun _ => leaves_check fun _ => leaves_check fun _ => h1.engOperand.bind fun _ h2 => ?_
  dsimp only
  split
  · trivial
  · exact h2

theorem State.memOk.putAggregate {ctx u d q v} (h : m.s.memOk) : Leaves id (m.putAggregate ctx u d q v) := h.engWrite

theorem State.memOk.reduceRow {ctx u red fresh d l q g} (h : m.s.memOk) : Leaves Prod.snd (Eng.reduceRow ctx u red fresh d l q g m) := by
  induction l generalizing m q g with
  | nil => exact h
  | cons v l ih => exact leaves_check fun _ => h.putAggregate.bind fun _ h1 => ih h1

theorem State.memOk.edges {ctx nbv act red u es o l degs g} (h : m.s.memOk) :
    Leaves (·.2.2) (Eng.edges ctx nbv act red u es o l degs g m) := by
  induction l generalizing m degs g with
  | nil => exact h
  | cons i l ih => exact h.reduceRow.bind fun _ h1 => ih h1

theorem State.memOk.jOperands {r ctx ws} (h : m.s.memOk) : Leaves (·.2.2.2) (m.jOperands r ctx ws) := by
  refine h.jHeaders.bind fun _ h1 => h1.engOperand.bind fun _ h2 => h2.engOperand.bind fun _ h3 => Leaves.bind (m := Prod.snd) ?_ fun _ h4 =>
    h4.engOperand.bind fun _ h5 => Leaves.bind (m := Prod.snd) ?_ fun _ h6 => h6
  · split
    · exact h3.engOperand.bind fun _ h4 => h4
    · exact h3
  · split
    · exact h5.engOperand.bind fun _ h6 => h6
    · exact h5

theorem State.memOk.finishRow {ctx u red deg d l g} (h : m.s.memOk) : Leaves Prod.snd (Eng.finishRow ctx u red deg d l g m) := by
  induction l generalizing m g with
  | nil => exact h
  | cons q l ih =>
    unfold Eng.finishRow
    refine leaves_ite (h.putAggregate.bind fun _ h1 => ih h1) (leaves_ite ?_ h)
    exact leaves_check fun _ => h.putAggregate.bind fun _ h1 => ih h1

theorem State.memOk.finishRows {ctx u red degs l g} (h : m.s.memOk) : Leaves Prod.snd (Eng.finishRows ctx u red degs l g m) := by
  induction l generalizing m g with
  | nil => exact h.engWrite.bind fun _ h1 => h1
  | cons d l ih => exact h.finishRow.bind fun _ h1 => ih h1

end

/-! ### Commands of the engines -/

theorem State.memOk.startJob {r j n fields checks} (h : s.memOk)
    (hc : ∀ ws ts (m : Eng), m.s.memOk → Leaves Prod.snd (checks ws ts m)) : (s.startJob r j n fields checks).2.memOk := by
  have hd := State.memOk.engDescriptor (m := { s, w := s.newView }) (r := r) (ctx := j.ctx) (pa := j.desc) (n := n) h
  unfold State.startJob
  extract_lets m run
  split
  · exact h
  · split
    rename_i ws ts m1 he
    rw [he] at hd
    have hk := hc ws ts m1 hd
    split
    · exact hd
    · split
      · exact hk.ok ‹_›
      · exact hd

theorem State.memOk.execMeJobStart {u} (h : s.memOk) : GoesOnOk (execMeJobStart u s) := by
  simp only [Machine.execMeJobStart]
  split
  · exact h
  · exact goesOnOk_ite h (State.memOk.setCluster (State.memOk.jobStarted
      (h.startJob fun _ _ _ h1 => h1.mjobChecks.bind fun _ h2 => h2)))

theorem State.memOk.execMeJobEnd {u} (h : s.memOk) : GoesOnOk (execMeJobEnd u s) := by
  have hr := fun run slot => State.memOk.mjobResult (m := { s, w := run.view }) (r := .cluster u) (run := run) (slot := slot) h
  unfold Machine.execMeJobEnd
  extract_lets c
  split
  · exact h
  · rename_i run _
    extract_lets idle j
    split
    · exact h.setCluster.endJob
    · specialize hr run (Table.find? c.slots (w4 run.words 55 52))
      split
      · exact h.setCluster.endJob
      · rename_i he
        have hm := hr.ok he
        split
        · exact State.memOk.endJob (State.memOk.drainTo (State.memOk.setCluster hm))
        · exact State.memOk.endJob (State.memOk.setCluster hm)

theorem State.memOk.execCopyCommandStart {e} (h : s.memOk) : GoesOnOk (execCopyCommandStart e s) := by
  unfold Machine.execCopyCommandStart
  extract_lets c r m
  split
  · exact h
  · rename_i cmd _
    extract_lets start
    have hs : ∀ s1 run, s1.memOk → GoesOnOk (start s1 run) := fun _ _ h1 => h1.setCpWin.setEngine
    have hd := State.memOk.engDescriptor (m := m) (r := r) (ctx := cmd.ctx) (pa := cmd.desc) (n := 4) h
    split
    · exact hs _ _ h
    · split
      rename_i ws ts m1 he
      rw [he] at hd
      split
      · exact hs _ _ hd
      · split
        · exact hs _ _ hd
        · exact hs _ _ (hd.copyChecks.ok ‹_›)

/-- What a TFILL or a copy leaves. -/
theorem State.memOk.copyWork {m : Eng} {r ctx kind d} (h : m.s.memOk) :
    (if kind = 5 then m.fill r ctx d
      else ((Eng.copyLines r ctx d.len (d.lines kind) 0 m).1, 0, (Eng.copyLines r ctx d.len (d.lines kind) 0 m).2.1,
        (Eng.copyLines r ctx d.len (d.lines kind) 0 m).2.2) : Nat × Sticky × Option JFail × Eng).2.2.2.s.memOk := by
  split
  · exact h.fill
  · exact h.copyLines

theorem State.memOk.execCopyCommandEnd {e} (h : s.memOk) : GoesOnOk (execCopyCommandEnd e s) := by
  unfold Machine.execCopyCommandEnd
  extract_lets c idle r
  split
  · exact h
  · rename_i run _
    extract_lets cmd d m
    split
    · exact h.setEngine.endCopy
    · split
      · exact h.noteCopy
      · have hw := State.memOk.copyWork (m := { s, w := run.view }) (r := Reader.die (e / 4)) (ctx := cmd.ctx) (kind := cmd.kind) (d := d) h
        exact State.memOk.endCopy (State.memOk.setEngine hw)

theorem State.memOk.execJedgeStart {u} (h : s.memOk) : GoesOnOk (execJedgeStart u s) := by
  simp only [Machine.execJedgeStart]
  split
  · exact h
  · exact goesOnOk_ite h (State.memOk.setCluster (State.memOk.jobStarted (h.startJob fun _ _ _ h1 => h1.jedgeChecks)))

theorem State.memOk.execEdgeTileBoundary {u} (h : s.memOk) : GoesOnOk (execEdgeTileBoundary u s) := by
  unfold Machine.execEdgeTileBoundary
  extract_lets c r
  split
  · exact h
  · split
    · exact h
    · rename_i run _
      refine goesOnOk_ite h (goesOnOk_ite h.noteAggregate ?_)
      extract_lets ws count work
      have hw : Leaves (·.2.2) work := Leaves.bind (State.memOk.jOperands (m := { s, w := run.view }) h) fun _ h1 => h1.edges
      clear_value work
      split
      · exact h.setCluster
      · exact State.memOk.setCluster hw

theorem State.memOk.execJedgeEnd {u} (h : s.memOk) : GoesOnOk (execJedgeEnd u s) := by
  unfold Machine.execJedgeEnd
  extract_lets c
  split
  · exact h
  · rename_i run _
    extract_lets j idle work
    split
    · exact h.setCluster.endJob
    · refine goesOnOk_ite h.setCluster.endJob (goesOnOk_ite h.noteAggregate ?_)
      have hw : Leaves Prod.snd work := Leaves.bind (State.memOk.jHeaders (m := { s, w := run.view }) h) fun _ h1 => h1.finishRows
      clear_value work
      split
      · exact h.setCluster.endJob
      · exact State.memOk.endJob (State.memOk.setCluster hw)

/-! ### The host, the links and the device -/

theorem State.memOk.answerEvent {ctx status e op who} (h : s.memOk) : s.answerEvent ctx status e op who = some t → t.memOk := by
  unfold State.answerEvent
  split
  · rintro ⟨⟩
  extract_lets mark done
  have hm : ∀ v, (mark v).memOk := fun v => h.modCtx
  have hd : ∀ s1, s1.memOk → (done s1).memOk := by
    intro s1 h1
    show (match who with
      | some (.queue q) => s1.completePacket q (s1.headPacket q)
      | some (.remote c n) => s1.tellAway ctx e c n 9 0
      | _ => s1 : State).memOk
    split
    · exact h1.completePacket
    · exact h1.tellAway
    · exact h1
  rintro ⟨⟩
  split
  · exact hd _ (hm true)
  · exact hd _ (hm false)
  · exact h.tellAway
  · exact h.wakeWaiter
  · split
    · exact h.getD fun _ => h.freshPhase.finishPut
    · exact h
  · exact h

/-- An answer that is accepted, or refused with the state as it was. -/
theorem memOk_of_simple {o : Option State} {n : Nat} (h : s.memOk) : (∀ t, o = some t → t.memOk) →
    (match o with | some s1 => some (0, s1) | none => some (4, s)) = some (n, t) → t.memOk := by
  intro ho
  cases o with
  | none => rintro ⟨⟩; exact h
  | some s1 => rintro ⟨⟩; exact ho _ rfl

theorem memOk_of_maybe {o : Option (Option State)} {n : Nat} (h : s.memOk) : (∀ t, o = some (some t) → t.memOk) →
    (match o with | some (some s1) => some (0, s1) | some none => none | none => some (4, s)) = some (n, t) → t.memOk := by
  intro ho
  match o with
  | none => rintro ⟨⟩; exact h
  | some none => rintro ⟨⟩
  | some (some s1) => rintro ⟨⟩; exact ho _ rfl

theorem State.memOk.answer {ctx n} (h : s.memOk) : s.answer ctx = some (n, t) → t.memOk := by
  unfold State.answer
  extract_lets seq status s0 simple maybe
  split
  · rintro ⟨⟩; exact h
  split
  · rintro ⟨⟩; exact h
  have h0 : s0.memOk := h.answered
  split
  · exact memOk_of_simple h fun _ => h0.answerTlb
  · exact memOk_of_simple h fun _ => h0.answerPref
  · exact memOk_of_simple h fun _ => h0.answerPage
  · exact memOk_of_maybe h fun _ => h0.answerPlace
  · exact memOk_of_simple h fun _ => memOk_of_map fun _ e => (h0.answerEvent e).settleEvent.returnEvents
  · exact memOk_of_simple h fun _ => h0.answerLayby
  · exact memOk_of_maybe h fun _ => h0.answerSpec

/-- A command that ends at once. -/
theorem memOk_of_some {p : Nat × State} {n : Nat} (h : p.2.memOk) : some p = some (n, t) → t.memOk := by
  rintro ⟨⟩
  exact h

theorem State.memOk.command {op ctx n} (h : s.memOk) : s.command op ctx = some (n, t) → t.memOk := by
  unfold State.command
  split
  · exact memOk_of_some h.create
  · exact memOk_of_some h.commitCtx
  · exact memOk_of_some h.resumeCtx
  · exact memOk_of_some h.destroyCtx
  · exact memOk_of_some h.setMode
  · exact memOk_of_some h.setFault
  · exact h.answer
  · split
    · exact memOk_of_some h
    · exact memOk_of_maybe h fun _ => h.codeCopy
  · exact memOk_of_some h.preemptGroup
  · exact memOk_of_some h.offerPromotion
  · exact memOk_of_some h

theorem State.memOk.runCommand {op ctx} (h : s.memOk) : (s.runCommand op ctx).memOk := by
  refine h.ite ?_
  split
  · exact State.memOk.update (h.command ‹_›)
  · exact h

theorem State.memOk.zeroCasts {ctx} (h : s.memOk) : (s.zeroCasts ctx).memOk := by
  refine State.memOk.foldl ?_ fun _ _ h1 => ?_
  · split
    · exact h.zeroFrame
    · exact h
  · split
    · exact h1.zeroFrame.ite h1
    · exact h1

theorem State.memOk.scrub {ctx} (h : s.memOk) : (s.scrub ctx).memOk :=
  State.memOk.update (State.memOk.releaseFrames (State.memOk.zeroVa (State.memOk.freePages (State.memOk.zeroCasts h.zeroVa))))

theorem State.memOk.execContextScrub {ctx} (h : s.memOk) : GoesOnOk (execContextScrub ctx s) := goesOnOk_ite h h.scrub

theorem State.memOk.homeAnswers {ctx e op token v} (h : s.memOk) : (s.homeAnswers ctx e op token v).memOk := by
  unfold State.homeAnswers
  split
  · exact h
  · extract_lets s1
    have h1 : s1.memOk := h.modCtx
    clear_value s1
    split
    · exact h1.wakeWaiter
    · split
      · exact h.getD fun _ => h1.freshPhase.finishPut
      · exact h1
    · exact h1.completePacket
    · exact h1

theorem State.memOk.wireEvent {m} (h : s.memOk) : (s.wireEvent m).memOk := by
  refine h.homeAnswers.ite (h.ite ?_)
  split
  · exact h.update
  · exact h.update
  · exact State.memOk.ite (State.memOk.wakeWaiter h.drainEvents.joinEvent) h.drainEvents.joinEvent
  · exact h.drainEvents.eventRecord.ite h.drainEvents.tellAway
  · exact h

theorem State.memOk.wireIn {die carry m} (h : s.memOk) : (s.wireIn die carry m).memOk := by
  refine State.memOk.ite (h.bounce.getD fun _ => h.sendWire) (h.returned.ite (h.wireEvent.ite (h.replyTo.ite ?_)))
  split
  · exact h
  · split
    · exact h.update
    · exact h.emptyHandler

theorem State.memOk.execFlitReceive {n flit} (h : s.memOk) : GoesOnOk (execFlitReceive n flit s) := by
  unfold Machine.execFlitReceive
  extract_lets l
  refine goesOnOk_ite h ?_
  split
  exact goesOnOk_ite h.passedOn.setLink.hearFar.rerouteAll
    (State.memOk.foldl (State.memOk.setLink h.passedOn.setLink.hearFar.rerouteAll) fun _ _ h1 => h1.wireIn)

theorem State.memOk.failAway {pkg} (h : s.memOk) : (s.failAway pkg).memOk := by
  refine h.foldl fun _ _ h1 => h1.foldl fun _ _ h2 => ?_
  split
  · exact h2.takeFault.ite h2
  · exact h2

theorem State.memOk.peerLoss {pkg} (h : s.memOk) : (s.peerLoss pkg).memOk := by
  refine h.ite (State.memOk.failAway (State.memOk.failRemotes (State.memOk.foldl (State.memOk.foldl (State.memOk.returnFar ?_)
    fun _ _ h1 => h1.returnFlits) fun _ _ h1 => h1.bounceAll)))
  exact h.update

theorem State.memOk.execPeerLoss {pkg} (h : s.memOk) : GoesOnOk (execPeerLoss pkg s) := goesOnOk_ite h.peerLoss h

theorem State.memOk.execRouteChange {pkg entry} (h : s.memOk) : GoesOnOk (execRouteChange pkg entry s) := by
  refine goesOnOk_ite h.setRoutes.peerLoss ?_
  exact State.memOk.reroute (State.memOk.update (h.foldl fun _ _ h1 => h1.returnFlits.returnFar.ite h1))

theorem memOk_reset : State.reset.memOk := ⟨rfl, rfl⟩

theorem State.memOk.provReset (h : s.memOk) : s.provReset.memOk := h.provEnd.ite (State.memOk.update memOk_reset)

theorem State.memOk.execProvReset (h : s.memOk) : GoesOnOk (execProvReset s) := h.provReset

theorem State.memOk.writePcmd {w} (h : s.memOk) : (s.writePcmd w).memOk := by
  refine State.memOk.ite h.update ?_
  split
  · exact h.provErase
  · exact h.provWrite
  · exact h.provVerify
  · exact h.provReset
  · exact h.provEnd

theorem State.memOk.writeCcmd {w} (h : s.memOk) : (s.writeCcmd w).memOk :=
  h.ite (State.memOk.ite (State.memOk.ite h.update (State.memOk.runCommand h.update)) (h.ite h.update))

theorem State.memOk.writeBoot {off w} (h : s.memOk) : (s.writeBoot off w).memOk :=
  h.writePcmd.ite (State.memOk.ite h.update (State.memOk.ite h.update (h.writeWindow.ite h)))

theorem State.memOk.writeControl {off w} (h : s.memOk) : (s.writeControl off w).memOk := by
  refine h.writeCcmd.ite (h.modCtx.ite ?_)
  split
  · exact h.update
  · exact h

theorem State.memOk.writeRegister {off w} (h : s.memOk) : (s.writeRegister off w).memOk :=
  h.ite (h.writeBoot.ite (h.ite (h.writeQueue.ite (h.writeControl.ite (h.writeFeatoff.ite (h.writeStatus.ite (h.writeGauge.ite h)))))))

theorem State.memOk.execRegisterWrite {off w} (h : s.memOk) : GoesOnOk (execRegisterWrite off w s) := h.writeRegister

theorem State.memOk.fenceRange {ctx lo len} (h : s.memOk) : (s.fenceRange ctx lo len).memOk := by
  refine h.ite (h.foldl fun _ _ h1 => ?_)
  dsimp only
  split
  · exact h1.fenceCode
  · exact h1

theorem State.memOk.execFenceCode {f} (h : s.memOk) : GoesOnOk (execFenceCode f s) :=
  h.runSeq fun _ h1 => (keeps_before h1.src).bind fun _ h2 => noWait_fenceCheck.bind fun _ => h2.publishNow.bind fun _ h3 => keeps_ret h3.fenceRange

theorem State.memOk.execStopw {f} (h : s.memOk) : GoesOnOk (execStopw f s) := by
  refine h.runSeq fun _ h1 => h1.publishNow.bind fun _ h2 => ?_
  split
  · exact keeps_ite (keeps_ret h2) (keeps_wait h2)
  · exact keeps_wait (State.memOk.askStop (State.memOk.modCtx h2))

end Sys2Proof.Machine
end

section
/-! SUPPORT. Memory in canonical form: every instruction and every event, and so every step (O36). -/

namespace Sys2Proof.Machine

variable {s t : State} {α β : Type}

/-! ### Host -/

theorem State.memOk.execCreate {ctx} (h : s.memOk) : GoesOnOk (execCreate ctx s) := h.runCommand

theorem State.memOk.execCommit {ctx} (h : s.memOk) : GoesOnOk (execCommit ctx s) := h.runCommand

theorem State.memOk.execResume {ctx} (h : s.memOk) : GoesOnOk (execResume ctx s) := h.runCommand

theorem State.memOk.execDestroy {ctx} (h : s.memOk) : GoesOnOk (execDestroy ctx s) := h.runCommand

theorem State.memOk.execSetmode {ctx} (h : s.memOk) : GoesOnOk (execSetmode ctx s) := h.runCommand

theorem State.memOk.execSetfault {ctx} (h : s.memOk) : GoesOnOk (execSetfault ctx s) := h.runCommand

theorem State.memOk.execAnswer {ctx} (h : s.memOk) : GoesOnOk (execAnswer ctx s) := h.runCommand

theorem State.memOk.execCodecopy {ctx} (h : s.memOk) : GoesOnOk (execCodecopy ctx s) := h.runCommand

theorem State.memOk.execPreempt {ctx} (h : s.memOk) : GoesOnOk (execPreempt ctx s) := h.runCommand

theorem State.memOk.execPromote {ctx} (h : s.memOk) : GoesOnOk (execPromote ctx s) := h.runCommand

/-! ### Dispatch -/

theorem State.memOk.exec {i} (h : s.memOk) : GoesOnOk (exec i s) := by
  simp only [Machine.exec]
  split
  · exact h.execXimm
  · exact h.execOrd
  · exact h.execNop
  · exact h.execTrap
  · exact h.execTrapd
  · exact h.execBrk
  · exact h.execEret
  · exact h.execCsrr
  · exact h.execCsrw
  · exact h.execCsrs
  · exact h.execCsrc
  · exact h.execFenceCode
  · exact h.execPtsync
  · exact h.execStopw
  · exact h.execResumew
  · exact h.execWaitt
  · exact h.execHalt
  · exact h.execAdd
  · exact h.execSub
  · exact h.execMul
  · exact h.execMulh
  · exact h.execMulhu
  · exact h.execDiv
  · exact h.execDivu
  · exact h.execRem
  · exact h.execRemu
  · exact h.execAnd
  · exact h.execOr
  · exact h.execXor
  · exact h.execAndn
  · exact h.execOrn
  · exact h.execShl
  · exact h.execShr
  · exact h.execShra
  · exact h.execRol
  · exact h.execRor
  · exact h.execMin
  · exact h.execMax
  · exact h.execMinu
  · exact h.execMaxu
  · exact h.execCmpeq
  · exact h.execCmpne
  · exact h.execCmplt
  · exact h.execCmpltu
  · exact h.execSel
  · exact h.execClz
  · exact h.execCtz
  · exact h.execPopc
  · exact h.execBrev
  · exact h.execBswap
  · exact h.execExt
  · exact h.execIns
  · exact h.execMov
  · exact h.execAddi
  · exact h.execAndi
  · exact h.execOri
  · exact h.execXori
  · exact h.execShli
  · exact h.execShri
  · exact h.execShrai
  · exact h.execCmplti
  · exact h.execMovi
  · exact h.execMovhi
  · exact h.execCgeta
  · exact h.execCseta
  · exact h.execCinc
  · exact h.execCsetb
  · exact h.execCgetb
  · exact h.execCgetl
  · exact h.execCandp
  · exact h.execCgetp
  · exact h.execCtag
  · exact h.execCclr
  · exact h.execCsub
  · exact h.execClscap
  · exact h.execCseal
  · exact h.execCunseal
  · exact h.execBeq
  · exact h.execBne
  · exact h.execBlt
  · exact h.execBge
  · exact h.execBltu
  · exact h.execBgeu
  · exact h.execBk
  · exact h.execBnk
  · exact h.execJmp
  · exact h.execJal
  · exact h.execJr
  · exact h.execLoop
  · exact h.execSend
  · exact h.execSendm
  · exact h.execRecv
  · exact h.execFire
  · exact h.execEndFiring
  · exact h.execYieldFiring
  · exact h.execMigrate
  · exact h.execEvset
  · exact h.execEvclr
  · exact h.execEvwait
  · exact h.execEvtest
  · exact h.execJoin
  · exact h.execJinit
  · exact h.execHtset
  · exact h.execHtget
  · exact h.execHostq
  · exact h.execLd
  · exact h.execSt
  · exact h.execLdv
  · exact h.execStv
  · exact h.execLdvs
  · exact h.execStvs
  · exact h.execLdvx
  · exact h.execStvx
  · exact h.execPref
  · exact h.execLdc
  · exact h.execStc
  · exact h.execLsld
  · exact h.execLsst
  · exact h.execLsldv
  · exact h.execLsstv
  · exact h.execMcst
  · exact h.execCbinit
  · exact h.execCbadvp
  · exact h.execCbadvc
  · exact h.execCbcnt
  · exact h.execQctl
  · exact h.execQtest
  · exact h.execQdrain
  · exact h.execAadd
  · exact h.execAand
  · exact h.execAor
  · exact h.execAxor
  · exact h.execAmin
  · exact h.execAmax
  · exact h.execAminu
  · exact h.execAmaxu
  · exact h.execAswp
  · exact h.execAcas
  · exact h.execAfadd
  · exact h.execAfmin
  · exact h.execAfmax
  · exact h.execRget
  · exact h.execRput
  · exact h.execRadd
  · exact h.execRcas
  · exact h.execVadd
  · exact h.execVsub
  · exact h.execVmul
  · exact h.execVmulh
  · exact h.execVand
  · exact h.execVor
  · exact h.execVxor
  · exact h.execVshl
  · exact h.execVshr
  · exact h.execVshra
  · exact h.execVmin
  · exact h.execVmax
  · exact h.execVcmpeq
  · exact h.execVcmplt
  · exact h.execVsel
  · exact h.execVabs
  · exact h.execVdot4
  · exact h.execVsplat
  · exact h.execVmovx
  · exact h.execVins
  · exact h.execVfadd
  · exact h.execVfsub
  · exact h.execVfmul
  · exact h.execVfma
  · exact h.execVfnma
  · exact h.execVfdiv
  · exact h.execVfsqrt
  · exact h.execVfrsq
  · exact h.execVfrcp
  · exact h.execVfmin
  · exact h.execVfmax
  · exact h.execVfabs
  · exact h.execVfneg
  · exact h.execVfcmp
  · exact h.execVfclass
  · exact h.execVcvt
  · exact h.execVperm
  · exact h.execVrot
  · exact h.execVbcast
  · exact h.execVredadd
  · exact h.execVredmax
  · exact h.execVredmin
  · exact h.execVscanadd
  · exact h.execVpack
  · exact h.execVunpk
  · exact h.execVcmpr
  · exact h.execVexpd
  · exact h.execVlanem
  · exact h.execTcfg
  · exact h.execThdr
  · exact h.execTzero
  · exact h.execTld
  · exact h.execTst
  · exact h.execTrowg
  · exact h.execTrowp
  · exact h.execTcolg
  · exact h.execTcolp
  · exact h.execTmma
  · exact h.execTadd
  · exact h.execTscl
  · exact h.execTtrn
  · exact h.execTchk
  · exact h.execMjob
  · exact h.execMwait
  · exact h.execMpoll
  · exact h.execMcancel
  · exact h.execJedge
  · exact h.execJwait
  · exact h.execScan
  · exact h.execScanw
  · exact h.execCarrys
  · exact h.execCarryr
  · exact h.execCopy
  · exact h.execCopy2d
  · exact h.execCwait
  · exact h.execCpoll
  · exact h.execSpec
  · exact h.execHrel
  · exact h.execHhold
  · exact h.execHcall
  · exact h.execHinfo
  · exact h.execTfill
  · exact h.execUnassignedOpcode
  · exact h.execCreate
  · exact h.execCommit
  · exact h.execResume
  · exact h.execDestroy
  · exact h.execSetmode
  · exact h.execSetfault
  · exact h.execAnswer
  · exact h.execCodecopy
  · exact h.execPreempt
  · exact h.execPromote
  · exact h.execContextScrub
  · exact h.execQueueEnable
  · exact h.execQueueDisable
  · exact h.execQcmdSkip
  · exact h.execQcmdReset
  · exact h.execDoorbellWrite
  · exact h.execLaunch
  · exact h.execTimedLaunch
  · exact h.execLoad
  · exact h.execUnload
  · exact h.execSignal
  · exact h.execWaitPacket
  · exact h.execCopyPacket
  · exact h.execQueueWake
  · exact h.execWaitTimeout
  · exact h.execTimedLaunchStart
  · exact h.execKernelCodeFree
  · exact h.execBind
  · exact h.execUnbind
  · exact h.execRetire
  · exact h.execCastWrite
  · exact h.execQuantumExpiry
  · exact h.execLaunchQuiescence
  · exact h.execMessageArrival
  · exact h.execStreamMessageArrival
  · exact h.execJoinDecrementArrival
  · exact h.execRemoteOperationArrival
  · exact h.execMcstArrival
  · exact h.execCarryArrival
  · exact h.execWakeArrival
  · exact h.execLateReplyRedirect
  · exact h.execLaybyReturn
  · exact h.execSchedulerPick
  · exact h.execPreemptionAbort
  · exact h.execWaymarkExpiry
  · exact h.execMigrateDepart
  · exact h.execBoundaryRelease
  · exact h.execWorldStopped
  · exact h.execEventSetAtHome
  · exact h.execEventClearAtHome
  · exact h.execEventWake
  · exact h.execJobWaitEnd
  · exact h.execCopyWaitEnd
  · exact h.execCarryTake
  · exact h.execTimedRelease
  · exact h.execScanComplete
  · exact h.execRemoteReply
  · exact h.execPortWaitEnd
  · exact h.execHandleWaitEnd
  · exact h.execFaultActorFire
  · exact h.execTlbMissService
  · exact h.execPageService
  · exact h.execPromotion
  · exact h.execPromotionAbandon
  · exact h.execPageMigration
  · exact h.execMeJobStart
  · exact h.execMeJobEnd
  · exact h.execJedgeStart
  · exact h.execEdgeTileBoundary
  · exact h.execJedgeEnd
  · exact h.execCopyCommandStart
  · exact h.execCopyCommandEnd
  · exact h.execRingRcountPoll
  · exact h.execLinkEnable
  · exact h.execLinkTrainingDone
  · exact h.execLaneFailure
  · exact h.execLinkRetrain
  · exact h.execLinkAckTimeout
  · exact h.execLinkDisable
  · exact h.execFlitReceive
  · exact h.execFlitReplay
  · exact h.execRouteChange
  · exact h.execPeerLoss
  · exact h.execDieLoss
  · exact h.execTimeFlitExchange
  · exact h.execRootselWrite
  · exact h.execFeatoffWrite
  · exact h.execGaugeSourceSet
  · exact h.execGaugeClear
  · exact h.execRegisterWrite
  · exact h.execCorrectableError
  · exact h.execUncorrectableError
  · exact h.execPowerOn
  · exact h.execBootInitDone
  · exact h.execProvErase
  · exact h.execProvWrite
  · exact h.execProvVerify
  · exact h.execProvReset
  · exact h.execGetVersion
  · exact h.execGetCapabilities
  · exact h.execNegotiateAlgorithms
  · exact h.execGetDigests
  · exact h.execGetCertificate
  · exact h.execChallenge
  · exact h.execGetMeasurements
  · exact h.execThermalThrottle
  · exact h.execThermalRecover
  · exact h.execThermalShutdown
  · exact h.execCxlMemWrite

/-! ### The step (R417) -/

/-- The state in which a part waits. -/
theorem Keeps.wait {st : α → State} {r : Res α} {w : Wait} (h : Keeps st r) (e : r = .error (.wait w s)) : s.memOk := by
  subst e
  exact h

/-- The state that a fetch leaves, whether or not it gives an instruction. -/
def afterFetch : Except State (Instr × State) → State
  | .ok p => p.2
  | .error t => t

theorem State.memOk.fetchInstr {k} (h : s.memOk) : (afterFetch (s.fetchInstr k)).memOk := by
  have hf := h.fetchAt (k := k) (a := (s.core k).pc)
  unfold State.fetchInstr
  extract_lets c
  split
  · exact h
  split
  · exact h
  split
  · exact State.memOk.waitOn (hf.wait ‹_›)
  · exact h.takeFault
  · rename_i w s1 he
    have h1 : s1.memOk := hf.ok he
    extract_lets csr skip
    split
    · have hb := fun n => h1.breakTrap (k := k) (cause := 2) (code := n) (ret := c.unitAt) (addr := c.pc)
      split
      · exact (hb _).ok ‹_›
      · exact h1.takeFault
      · exact (hb _).wait ‹_›
    · split
      · exact h1.takeFault
      · split
        · exact h1.takeFault
        · exact h1.takeFault
        · dsimp only [afterFetch]
          exact State.memOk.modCore (h1.modVs.ite h1)

theorem State.memOk.coreTurn {k} (h : s.memOk) : GoesOnOk (coreTurn s k) := by
  unfold Machine.coreTurn
  extract_lets s1
  have h1 : s1.memOk := h.update
  clear_value s1
  refine goesOnOk_ite ?_ h1
  have hf := h1.fetchInstr (k := k)
  split
  · rename_i he
    rw [he] at hf
    exact State.memOk.exec hf
  · rename_i he
    rw [he] at hf
    exact hf

theorem State.memOk.step (h : s.memOk) : GoesOnOk (step s) := by
  unfold Machine.step
  split
  · exact h.coreTurn
  · rename_i rest _
    have h1 : ({ s with agenda := rest } : State).memOk := h.update
    dsimp only
    split
    · exact h1.coreTurn
    · exact goesOnOk_ite h1 h1.exec
    · exact h1.passTime

/-- Settles O36, by one lemma for each function of the model that changes the state: only a publication, a fresh frame, a copy of a frame and a
reset touch memory or tags, and each writes through `Table.set`, filters, or clears. -/
theorem stepKeepsMemory : Obligations.StepKeepsMemory := by
  unfold Obligations.StepKeepsMemory
  intro s t h he
  have hs := h.step
  rw [he] at hs
  exact hs

end Sys2Proof.Machine
end

section
/-! SUPPORT. Messages and their targets (17 R299-R300, R312-R318): O7. -/

namespace Sys2Proof.Machine

/-! ### Parts in a row -/

section
variable {α β : Type}

@[simp] theorem res_ok_bind (a : α) (f : α → Res β) : (Except.ok a >>= f) = f a := rfl

@[simp] theorem res_error_bind (e : Stop) (f : α → Res β) : ((Except.error e : Res α) >>= f) = .error e := rfl

@[simp] theorem res_fault_bind (c : FCode) (a : Word) (f : α → Res β) : ((fault c a : Res α) >>= f) = fault c a := rfl

@[simp] theorem res_pure (a : α) : (pure a : Res α) = .ok a := rfl

end

/-! ### What looking at memory leaves of a core -/

section
variable {s t : State}

theorem Looks.coord (h : Looks s t) (k : Nat) : t.coord k = s.coord k := by simp only [State.coord]; rw [h.frame]

theorem Looks.core_sendLaunch (h : Looks s t) (k : Nat) : (t.core k).sendLaunch = (s.core k).sendLaunch := by rw [h.core k]; rfl

theorem Looks.core_svc (h : Looks s t) (k : Nat) : (t.core k).svc = (s.core k).svc := by rw [h.core k]; rfl

theorem Looks.core_gshape (h : Looks s t) (k : Nat) : (t.core k).gshape = (s.core k).gshape := by rw [h.core k]

theorem Looks.core_ldim (h : Looks s t) (k : Nat) : (t.core k).ldim = (s.core k).ldim := by rw [h.core k]

theorem Looks.core_firing (h : Looks s t) (k : Nat) : (t.core k).firing = (s.core k).firing := by rw [h.core k]

theorem Looks.core_inbox (h : Looks s t) (k : Nat) : (t.core k).inbox = (s.core k).inbox := by rw [h.core k]

theorem Looks.core_vs (h : Looks s t) (k : Nat) : (t.core k).vs = (s.core k).vs := by rw [h.core k]

theorem Looks.ldimOf (h : Looks s t) (k : Nat) : t.ldimOf k = s.ldimOf k := by
  simp only [State.ldimOf, State.launchOf, h.core_sendLaunch, h.core_svc, h.core_ldim, h.launches]

theorem Looks.block (h : Looks s t) (k : Nat) (o : Opnd) : t.block k o = s.block k o := by
  simp only [State.block, h.vs]

theorem Looks.newMsg (h : Looks s t) (k : Nat) (kind : MKind) (hidx : Nat) (regs : List XReg) (l : Nat) :
    t.newMsg k kind hidx regs l = s.newMsg k kind hidx regs l := by
  simp only [State.newMsg, h.coord, h.ctxOf]

theorem Looks.subgroupHere (h : Looks s t) (k n : Nat) : t.subgroupHere k n = s.subgroupHere k n := by
  simp only [State.subgroupHere, h.core_svc, h.core_gshape]

theorem Looks.target (h : Looks s t) (k : Nat) (o : Opnd) : t.target k o = s.target k o := by
  simp only [State.target, State.targetCap, h.cap, h.core_sendLaunch, h.ldimOf]

theorem Looks.targetCap (h : Looks s t) (k : Nat) (o : Opnd) : t.targetCap k o = s.targetCap k o := by
  simp only [State.targetCap, h.cap, h.core_sendLaunch]

end

/-! ### Targets (17 R299-R300) -/

/-- What a capability lacks that must be open and carry one permission that is of no address space. -/
theorem lacks_single (c : XReg) {i : Nat} (hi : 2 ^ i &&& (pL + pG) = 0) : c.lacks (2 ^ i) = if c.tag = false then some .capTag
    else if c.sealed = true ∨ c.perms.testBit i = false then some .capPerm else none := by
  have hp : (c.perms &&& 2 ^ i ≠ 2 ^ i) ↔ c.perms.testBit i = false := by
    rw [Nat.and_two_pow]
    cases c.perms.testBit i <;> simp [(Nat.two_pow_pos i).ne]
  simp only [XReg.lacks, hi, ne_eq, not_true_eq_false, decide_false, Bool.false_and, Bool.or_false, hp, Bool.not_eq_true', Bool.or_eq_true,
    decide_eq_true_eq]

/-- The check of a capability that must be open and carry one permission that is of no address space, at its own address. -/
theorem checkCap_single (c : XReg) {i : Nat} (n : Nat) (hi : 2 ^ i &&& (pL + pG) = 0) : liftCap (checkCap c (2 ^ i) [c.addr] n) =
    if c.tag = false then fault .capTag c.addr
    else if c.sealed = true ∨ c.perms.testBit i = false then fault .capPerm c.addr
    else faultIf (c.outside c.addr n) .capBounds c.addr := by
  have hl := lacks_single c hi
  split
  · next ht => exact checkCap_of_lacks (hl.trans (if_pos ht))
  · next ht =>
    rw [if_neg ht] at hl
    split
    · next hs => exact checkCap_of_lacks (hl.trans (if_pos hs))
    · next hs => exact checkCap_of_not_lacks (hl.trans (if_neg hs))

section
variable {s s1 : State} {o : Opnd} {x : FCode} {l : Nat}

theorem XReg.outside_iff (c : XReg) (a : Word) (n : Nat) : c.outside a n = true ↔ a.toNat < c.base ∨ c.top < a.toNat + n := by
  simp [XReg.outside]

/-- A wrong target is what its check reports, at the target's address; else the check gives that address with the sender's launch. -/
theorem State.targetCap_eq (s : State) (o : Opnd) : s.targetCap s.cur o = match Claims.targetFault s (s.cap s.cur o) false with
    | some x => fault x (s.cap s.cur o).addr
    | none => .ok ((s.cap s.cur o).addr, (s.core s.cur).sendLaunch.getD 0) := by
  simp only [State.targetCap, Claims.targetFault, show pM = 2 ^ 3 from rfl, checkCap_single _ 1 (i := 3) (by decide), ← or_assoc,
    ← XReg.outside_iff]
  generalize s.cap s.cur o = c
  by_cases ht : c.tag = false
  · simp only [if_pos ht]; rfl
  by_cases hs : c.sealed = true ∨ c.perms.testBit 3 = false
  · simp only [if_neg ht, if_pos hs]; rfl
  simp only [if_neg ht, if_neg hs, bind_faultIf, Bool.false_eq_true, false_and, or_false]
  cases hout : c.outside c.addr 1 <;> cases hl : (s.core s.cur).sendLaunch <;> simp

/-- A core outside the launch is the last fault of a target. -/
theorem targetFault_true (s : State) (c : XReg) : Claims.targetFault s c true = (Claims.targetFault s c false).or
    (if (s.ldimOf s.cur).toNat % 2 ^ 16 ≤ c.addr.toNat % 2 ^ 12 ∨
      (s.ldimOf s.cur).toNat / 2 ^ 16 % 2 ^ 16 ≤ c.addr.toNat / 2 ^ 16 % 2 ^ 12 then some .capBounds else none) := by
  simp only [Claims.targetFault, true_and, Bool.false_eq_true, false_and, or_false, ← or_assoc]
  by_cases ht : c.tag = false
  · simp only [if_pos ht]; rfl
  by_cases hs : c.sealed = true ∨ c.perms.testBit 3 = false
  · simp only [if_neg ht, if_pos hs]; rfl
  simp only [if_neg ht, if_neg hs]
  by_cases hb : (c.addr.toNat < c.base ∨ c.top < c.addr.toNat + 1) ∨ (s.core s.cur).sendLaunch = none
  · simp only [hb, true_or, if_true]; rfl
  · simp only [hb, false_or, if_false]; rfl

/-- The same with the target core, which must lie within the launch. -/
theorem State.target_eq (s : State) (o : Opnd) : s.target s.cur o = match Claims.targetFault s (s.cap s.cur o) true with
    | some x => fault x (s.cap s.cur o).addr
    | none => .ok (Claims.targetCore (s.cap s.cur o) ((s.core s.cur).sendLaunch.getD 0), (s.cap s.cur o).addr) := by
  simp only [State.target, State.targetCap_eq, targetFault_true]
  cases Claims.targetFault s (s.cap s.cur o) false with
  | some x => rfl
  | none =>
    simp only [Option.none_or, res_ok_bind, bind_faultIf, targetXY, fld, Nat.pow_zero, Nat.div_one, ← Bool.decide_or, decide_eq_true_eq]
    by_cases hout : (s.ldimOf s.cur).toNat % 2 ^ 16 ≤ (s.cap s.cur o).addr.toNat % 2 ^ 12 ∨
        (s.ldimOf s.cur).toNat / 2 ^ 16 % 2 ^ 16 ≤ (s.cap s.cur o).addr.toNat / 2 ^ 16 % 2 ^ 12
    · simp only [if_pos hout]
    · simp only [if_neg hout]; rfl

end

/-! ### Messages into the phase buffer (17 R312-R318) -/

section
variable {s s1 s2 t : State} {m w : Word} {x : FCode} {l spec : Nat} {c : XReg}

theorem State.target_fault {o : Opnd} (hc : s.cap s.cur o = c) (hx : Claims.targetFault s c true = some x) (look : Looks s s1) :
    s1.target s.cur o = fault x c.addr := by
  rw [look.target, s.target_eq, hc, hx]

theorem State.target_ok {o : Opnd} (hc : s.cap s.cur o = c) (hx : Claims.targetFault s c true = none) (look : Looks s s1)
    (hl : (s.core s.cur).sendLaunch = some l) :
    s1.target s.cur o = .ok (Claims.targetCore c l, c.addr) := by
  rw [look.target, s.target_eq, hc, hx, hl]
  rfl

theorem State.targetCap_fault {o : Opnd} (hc : s.cap s.cur o = c) (hx : Claims.targetFault s c false = some x) (look : Looks s s1) :
    s1.targetCap s.cur o = fault x c.addr := by
  rw [look.targetCap, s.targetCap_eq, hc, hx]

theorem State.targetCap_ok {o : Opnd} (hc : s.cap s.cur o = c) (hx : Claims.targetFault s c false = none) (look : Looks s s1)
    (hl : (s.core s.cur).sendLaunch = some l) : s1.targetCap s.cur o = .ok (c.addr, l) := by
  rw [look.targetCap, s.targetCap_eq, hc, hx, hl]
  rfl

theorem exec_send_fault {f : FRS} (h : s.Clear s.cur f.sp true false [] [] m s1)
    (hc : s.cap s.cur f.a = c) (hx : Claims.targetFault s c true = some x) : exec (.send f) s = .next (s.faults x c.addr .read) := by
  change execSend f s = _
  refine State.runSeq_fault h ?_
  simp only [(State.clear_looks h).cur, State.target_fault hc hx (State.clear_looks h)]
  rfl

theorem exec_send_ok {f : FRS} (h : s.Clear s.cur f.sp true false [] [] m s1) (hc : s.cap s.cur f.a = c) (hx : Claims.targetFault s c true = none)
    (hl : (s.core s.cur).sendLaunch = some l)
    (he : s1.enterOrdered s.cur [.send (Claims.targetCore c l) (if f.stream then s.newMsg s.cur .stream 0 (s.block s.cur f.b) l
      else s.newMsg s.cur .handler (targetHidx c.addr) (s.block s.cur f.b) l)] = .ok t) :
    exec (.send f) s = .next (s.after t f.sp m) := by
  have look := State.clear_looks h
  change execSend f s = _
  refine State.runSeq_ok h ?_
  simp only [State.target_ok hc hx look hl, res_ok_bind, look.cur, look.newMsg, look.block]
  exact he

theorem exec_sendm_fault {f : FRC} (h : s.Clear s.cur f.sp true false [f.c] [] m s1)
    (hc : s.cap s.cur f.a = c) (hx : Claims.targetFault s c false = some x) :
    exec (.sendm f) s = .next (s.faults x c.addr .read) := by
  change execSendm f s = _
  refine State.runSeq_fault h ?_
  simp only [(State.clear_looks h).cur, State.targetCap_fault hc hx (State.clear_looks h)]
  rfl

/-- SENDM's subgroup is checked once its specifier is read. -/
theorem exec_sendm_apart {f : FRC} (h : s.Clear s.cur f.sp true false [f.c] [] m s1)
    (hc : s.cap s.cur f.a = c) (hx : Claims.targetFault s c false = none) (hl : (s.core s.cur).sendLaunch = some l)
    (hw : s1.src s.cur f.c = .ok (w, s2)) (hs : fld w 15 0 = spec) (hg : s.subgroupHere s.cur (spec) = false) :
    exec (.sendm f) s = .next (s.faults .capBounds (BitVec.ofNat 64 (spec)) .read) := by
  have look := State.clear_looks h
  change execSendm f s = _
  refine State.runSeq_fault h ?_
  simp only [State.targetCap_ok hc hx look hl, res_ok_bind, look.cur, hw, hs, look.subgroupHere, hg]
  rfl

theorem exec_sendm_ok {f : FRC} (h : s.Clear s.cur f.sp true false [f.c] [] m s1)
    (hc : s.cap s.cur f.a = c) (hx : Claims.targetFault s c false = none) (hl : (s.core s.cur).sendLaunch = some l)
    (hw : s1.src s.cur f.c = .ok (w, s2)) (hs : fld w 15 0 = spec) (hg : s.subgroupHere s.cur (spec) = true)
    (he : s2.enter s.cur [.sendm (BitVec.ofNat 16 (spec))
      (s.newMsg s.cur .handler (targetHidx c.addr) (s.block s.cur f.b) l)] = .ok t) :
    exec (.sendm f) s = .next (s.after t f.sp m) := by
  have look := State.clear_looks h
  change execSendm f s = _
  refine State.runSeq_ok h ?_
  simp only [State.targetCap_ok hc hx look hl, res_ok_bind, look.cur, hw, hs, look.subgroupHere, hg, look.newMsg, look.block]
  exact he

theorem exec_join_fault {f : FJoin} (h : s.Clear s.cur f.sp true false [] [] m s1)
    (hc : s.cap s.cur f.a = c) (hx : Claims.targetFault s c true = some x) : exec (.join f) s = .next (s.faults x c.addr .read) := by
  change execJoin f s = _
  refine State.runSeq_fault h ?_
  simp only [(State.clear_looks h).cur, State.target_fault hc hx (State.clear_looks h)]
  rfl

theorem exec_join_ok {f : FJoin} (h : s.Clear s.cur f.sp true false [] [] m s1) (hc : s.cap s.cur f.a = c) (hx : Claims.targetFault s c true = none)
    (hl : (s.core s.cur).sendLaunch = some l)
    (he : s1.enter s.cur [.join (Claims.targetCore c l) (f.n.toNat + 1) f.j.toNat] = .ok t) :
    exec (.join f) s = .next (s.after t f.sp m) := by
  have look := State.clear_looks h
  change execJoin f s = _
  refine State.runSeq_ok h ?_
  simp only [State.target_ok hc hx look hl, res_ok_bind, look.cur]
  exact he

theorem exec_hostq_ok {f : FR} (h : s.Clear s.cur f.sp true false [] [] m s1)
    (he : s1.enter s.cur [.hostq (lows (s.block s.cur f.a))] = .ok t) : exec (.hostq f) s = .next (s.after t f.sp m) := by
  have look := State.clear_looks h
  change execHostq f s = _
  refine State.runSeq_ok h ?_
  simp only [look.cur, look.block]
  exact he

theorem exec_migrate_fault {f : FR} (hlq : (s.core s.cur).lq = []) (hsq : (s.core s.cur).sq = [])
    (hc : s.cap s.cur f.a = c) (hx : Claims.targetFault s c true = some x) :
    exec (.migrate f) s = .next (s.faults x c.addr .read) := by
  change execMigrate f s = _
  simp only [execMigrate, State.runEnd, Core.queuesBad_empty hlq hsq, State.target_fault hc hx (Looks.refl s)]
  rfl

/-- MIGRATE's boundary made, it waits for its departure. -/
theorem exec_migrate_ok {f : FR} (hlq : (s.core s.cur).lq = []) (hsq : (s.core s.cur).sq = [])
    (hc : s.cap s.cur f.a = c) (hx : Claims.targetFault s c true = none) (hl : (s.core s.cur).sendLaunch = some l)
    (hb : s.boundary s.cur none = some s2) :
    exec (.migrate f) s = .next (s2.setCore s.cur { s2.core s.cur with run := .waiting .migrate false, waitFrom := s2.cycle }) := by
  change execMigrate f s = _
  simp only [execMigrate, State.runEnd, Core.queuesBad_empty hlq hsq, State.target_ok hc hx (Looks.refl s) hl, State.publishNow, hb, res_ok_bind]
  rfl

theorem targetFault_none_sendLaunch {c : XReg} {xy : Bool} (h : Claims.targetFault s c xy = none) :
    ∃ l, (s.core s.cur).sendLaunch = some l := by
  refine Option.ne_none_iff_exists'.1 fun hn => ?_
  simp only [Claims.targetFault, hn, true_or, or_true, if_true] at h
  split at h
  · cases h
  · split at h <;> cases h

/-- The subgroups of a core's group (17 R313). -/
theorem State.subgroupHere_iff (s : State) (h : spec < 2 ^ 16) : s.subgroupHere s.cur spec = true ↔
    (s.core s.cur).svc = false ∧ spec % 8 ≤ 5 ∧ spec / 8 % 8 ≤ 5 ∧ spec / 64 % 32 % 2 ^ (spec % 8) = 0 ∧
      spec / 2048 % 2 ^ (spec / 8 % 8) = 0 ∧ spec / 64 % 32 + 2 ^ (spec % 8) ≤ 2 ^ ((s.core s.cur).gshape.toNat % 8) ∧
      spec / 2048 + 2 ^ (spec / 8 % 8) ≤ 2 ^ ((s.core s.cur).gshape.toNat / 16 % 8) := by
  have hy : spec / 2048 % 32 = spec / 2048 := Nat.mod_eq_of_lt (by omega)
  simp only [State.subgroupHere, subgroupOk, fld, Nat.pow_zero, Nat.div_one, hy, Bool.and_eq_true, Bool.not_eq_true', decide_eq_true_eq,
    and_assoc]
  rfl

end

/-- Settles O7, an instruction at a time: its target's first fault, or its one entry. -/
theorem messagesEnterBuffer : Obligations.MessagesEnterBuffer := by
  unfold Obligations.MessagesEnterBuffer
  intro s s1 m a b c msg hidx
  have hcap : ∀ {o : Opnd}, o = .x a → s.cap s.cur o = c := fun ho => by rw [ho]
  refine ⟨fun f ha hb h => ?_, fun f ha hb h => ?_, fun f ha hlq hsq => ?_, fun f ha h => ?_, fun f ha h t he => ?_⟩
  · split
    · next x hx => exact exec_send_fault h (hcap ha) hx
    · next hx => exact fun l t hl he => exec_send_ok h (hcap ha) hx hl (by rw [hb]; exact he)
  · split
    · next x hx => exact exec_sendm_fault h (hcap ha) hx
    · next hx =>
      intro w s2 hw spec lw lh x y g
      have hs : fld w 15 0 = spec := by simp only [fld, Nat.pow_zero, Nat.div_one]; rfl
      have hiff := s.subgroupHere_iff (spec := spec) (Nat.mod_lt _ (by decide))
      obtain ⟨l, hl⟩ := targetFault_none_sendLaunch hx
      split
      · next hg => exact fun l t hl he => exec_sendm_ok h (hcap ha) hx hl hw hs (hiff.2 hg) (by rw [hb]; exact he)
      · next hg => exact exec_sendm_apart h (hcap ha) hx hl hw hs (Bool.eq_false_iff.2 fun ht => hg (hiff.1 ht))
  · split
    · next x hx => exact exec_migrate_fault hlq hsq (hcap ha) hx
    · next hx =>
      obtain ⟨l, hl⟩ := targetFault_none_sendLaunch hx
      exact fun s2 hb => exec_migrate_ok hlq hsq (hcap ha) hx hl hb
  · split
    · next x hx => exact exec_join_fault h (hcap ha) hx
    · next hx => exact fun l t hl he => exec_join_ok h (hcap ha) hx hl he
  · exact exec_hostq_ok h (by rw [ha]; exact he)

end Sys2Proof.Machine
end

section
/-! SUPPORT. RECV takes the next input of its port (O8, 17 R314). -/

namespace Sys2Proof.Machine

/-! ### RECV (17 R314) -/

section
variable {s s1 : State} {m : Word} {f : FR} {fr : Firing} {c : Core}

/-- The inputs that RECV has not passed are those from a place on: the message that x1-x8 held at the start counts as passed. -/
def Firing.recvFrom (f : Firing) : Nat := match f.inputs with
  | .msg _ :: _ => max f.recv 1
  | _ => f.recv

theorem Firing.unread_eq (f : Firing) : f.unread = f.inputs.drop f.recvFrom := by
  unfold Firing.unread Firing.recvFrom
  split <;> simp_all

theorem nextMessage_none {l : List Input} (h : ∀ i ∈ l, ∀ n, i ≠ .msg n) : nextMessage c l = none := by
  induction l with
  | nil => rfl
  | cons i l ih =>
    have hl := ih fun j hj => h j (List.mem_cons_of_mem _ hj)
    cases i with
    | msg n => exact absurd rfl (h _ List.mem_cons_self n)
    | _ => simp [nextMessage, hl]

/-- Join and handle inputs are passed over. -/
theorem nextMessage_append {l post : List Input} {id : Nat} {im : InMsg} (h : ∀ i ∈ l, ∀ n, i ≠ .msg n)
    (hf : c.inbox.find? (fun x => decide (x.id = id)) = some im) : nextMessage c (l ++ .msg id :: post) = some (im.msg, l.length + 1) := by
  induction l with
  | nil => simp [nextMessage, hf]
  | cons i l ih =>
    have hl := ih fun j hj => h j (List.mem_cons_of_mem _ hj)
    cases i with
    | msg n => exact absurd rfl (h _ List.mem_cons_self n)
    | _ => simp [nextMessage, hl]

theorem nextMessage_congr {c' : Core} (h : c'.inbox = c.inbox) (l : List Input) : nextMessage c' l = nextMessage c l := by
  induction l with
  | nil => rfl
  | cons i l ih => cases i <;> simp [nextMessage, h, ih]

/-- RECV's result: the registers from d on, a word of the l file, and the new position. -/
def State.recvDone (s1 : State) (k d : Nat) (fr : Firing) (regs : List XReg) (w : Word) (recv : Nat) : State :=
  s1.setCore k { s1.core k with firing := some { fr with recv }, vs := Claims.shifted ((s1.core k).vs.setBlock d regs) w }

section
variable {d : Fin 128} (hd : f.d = .x d) (h : s.Clear s.cur f.sp true false [] [] m s1) (hf : (s.core s.cur).firing = some fr)
include hd h hf

theorem exec_recv_some {q : Msg} {n : Nat} (hn : nextMessage (s.core s.cur) fr.unread = some (q, n)) (hq : q.regs.length = 8) :
    exec (.recv f) s = .next (s.after (s1.recvDone s.cur d.val fr q.regs (q.sender.setWidth 64)
      (fr.inputs.length - fr.unread.length + n)) f.sp m) := by
  have look := State.clear_looks h
  have hnext := (nextMessage_congr (look.core_inbox s.cur) fr.unread).trans hn
  change execRecv f s = _
  refine State.runSeq_ok h ?_
  simp only [look.cur, look.core_firing, hf, hnext, hd, hq, Nat.sub_self, List.replicate_zero, List.append_nil]
  rfl

theorem exec_recv_none (hn : nextMessage (s.core s.cur) fr.unread = none) :
    exec (.recv f) s = .next (s.after (s1.recvDone s.cur d.val fr (List.replicate 8 XReg.zero) (BitVec.ofNat 64 (2 ^ 64 - 1))
      fr.inputs.length) f.sp m) := by
  have look := State.clear_looks h
  have hnext := (nextMessage_congr (look.core_inbox s.cur) fr.unread).trans hn
  change execRecv f s = _
  refine State.runSeq_ok h ?_
  simp only [look.cur, look.core_firing, hf, hnext, hd]
  rfl

end

/-- A block written from x register d on; x0 stays zero. -/
theorem VState.getX_setBlock (r : VState) (d : Nat) (l : List XReg) (j : Nat) : (r.setBlock d l).getX j =
    if j ≠ 0 ∧ d ≤ j ∧ j < d + l.length then l.getD (j - d) XReg.zero else r.getX j := by
  induction l generalizing r d with
  | nil => rw [if_neg (by simp only [List.length_nil]; omega)]; rfl
  | cons c l ih =>
    rw [VState.setBlock, ih, VState.getX_setX]
    by_cases hj : j = d
    · subst hj
      by_cases h0 : j = 0 <;> simp [h0]
    · by_cases hin : j ≠ 0 ∧ d + 1 ≤ j ∧ j < d + 1 + l.length
      · obtain ⟨i, rfl⟩ : ∃ i, j = d + 1 + i := ⟨j - (d + 1), by omega⟩
        rw [if_pos hin, if_pos ⟨hin.1, by omega, by simp only [List.length_cons]; omega⟩, show d + 1 + i - d = i + 1 by omega,
          Nat.add_sub_cancel_left]
        rfl
      · rw [if_neg hin, if_neg (by tauto), if_neg (by simp only [List.length_cons]; omega)]

end

/-- Settles O8: the inputs after the position are searched for the first message, and its eight registers are written. -/
theorem recvTakesNextInput : Obligations.RecvTakesNextInput := by
  unfold Obligations.RecvTakesNextInput
  intro f s s1 m d fr hd h hf from_ out
  have hfrom : fr.unread = fr.inputs.drop from_ := fr.unread_eq
  have hvs : (s1.core s.cur).vs = (s.core s.cur).vs := (State.clear_looks h).core_vs s.cur
  have hout : ∀ recv regs w, (Host.Outcome.next (s.after (s1.recvDone s.cur d.val fr regs w recv) f.sp m) : Out) = out recv regs w := by
    intro recv regs w
    simp only [out, State.recvDone, hvs]
  refine ⟨fun pre id post im hin hle hpre hfind hlen => ?_, fun hpost => ?_, fun r regs j _ hlen => ?_⟩
  · have hdrop : fr.unread = pre.drop from_ ++ .msg id :: post := by rw [hfrom, hin, List.drop_append_of_le_length hle]
    rw [exec_recv_some hd h hf (by rw [hdrop]; exact nextMessage_append hpre hfind) hlen, ← hout]
    have hn : fr.inputs.length - fr.unread.length + ((pre.drop from_).length + 1) = pre.length + 1 := by
      rw [hdrop, hin]
      simp only [List.length_append, List.length_cons, List.length_drop]
      omega
    rw [hn]
  · rw [exec_recv_none hd h hf (by rw [hfrom]; exact nextMessage_none hpost), ← hout]
  · rw [VState.getX_setBlock, hlen]

end Sys2Proof.Machine
end

section
/-! SUPPORT. FIRE, JINIT and the handler table (O9, 17 R315, R317). -/

namespace Sys2Proof.Machine

/-! ### FIRE, JINIT and the handler table (17 R315, R317, 10 R175) -/

section
variable {s s1 s2 s3 t : State} {m i w : Word}

section
variable {f : FR} {c : XReg} (h : s.Clear s.cur f.sp true false [] [] m s1) (hc : s.cap s.cur f.a = c)
include h hc

theorem exec_fire_unfit {x : FCode} (hx : c.lacks pH = some x) : exec (.fire f) s = .next (s.faults x c.addr .read) := by
  change execFire f s = _
  refine State.runSeq_fault h ?_
  simp only [(State.clear_looks h).cap, (State.clear_looks h).cur, hc, checkCap_of_lacks hx]
  rfl

theorem exec_fire_outside (hx : c.lacks pH = none) (hb : c.outside c.addr 1 = true) :
    exec (.fire f) s = .next (s.faults .capBounds c.addr .read) := by
  change execFire f s = _
  refine State.runSeq_fault h ?_
  simp only [(State.clear_looks h).cap, (State.clear_looks h).cur, hc, checkCap_of_not_lacks hx, hb]
  rfl

variable (hx : c.lacks pH = none) (hb : c.outside c.addr 1 = false)
include hx hb

theorem exec_fire_stale (hp : s.handlePasses s.cur (HRef.of c.addr) = false) :
    exec (.fire f) s = .next (s.faults .handleStale c.addr .read) := by
  have look := State.clear_looks h
  change execFire f s = _
  refine State.runSeq_fault h ?_
  simp only [look.cap, look.cur, hc, checkCap_of_not_lacks hx, hb, look.handlePasses, hp]
  rfl

variable (hp : s.handlePasses s.cur (HRef.of c.addr) = true)
include hp

theorem exec_fire_full (hr : ((s.ctx (s.ctxOf s.cur)).handle (HRef.of c.addr).index).running = 0xFFFF) :
    exec (.fire f) s = .next (s.faults .specFull c.addr .read) := by
  have look := State.clear_looks h
  change execFire f s = _
  refine State.runSeq_fault h ?_
  simp only [look.cap, look.cur, hc, checkCap_of_not_lacks hx, hb, look.handlePasses, hp, look.handle, look.ctxOf, hr]
  rfl

theorem exec_fire_ok (hr : ((s.ctx (s.ctxOf s.cur)).handle (HRef.of c.addr).index).running ≠ 0xFFFF)
    (he : (s1.addRunning (s.ctxOf s.cur) (HRef.of c.addr).index).enter s.cur [.fire (HRef.of c.addr) (s.block s.cur f.b)] = .ok t) :
    exec (.fire f) s = .next (s.after t f.sp m) := by
  have look := State.clear_looks h
  change execFire f s = _
  refine State.runSeq_ok h ?_
  simp only [look.cap, look.cur, hc, checkCap_of_not_lacks hx, hb, look.handlePasses, hp, look.handle, look.ctxOf, hr, look.block, bind_faultIf,
    Bool.not_true, Bool.false_eq_true, decide_false, if_false]
  exact he

end

theorem exec_jinit_ok {f : FJinit} (h : s.Clear s.cur f.sp true false [f.a] [] m s1) (hw : s1.src s.cur f.a = .ok (w, s2))
    (he : s2.enter s.cur [.jinit f.j.toNat f.scope (w.setWidth 24) ((s.ctx (s.ctxOf s.cur)).kernelAt (s.core s.cur).pc)] = .ok t) :
    exec (.jinit f) s = .next (s.after t f.sp m) := by
  have look := State.clear_looks h
  have hk : (s1.ctx (s.ctxOf s.cur)).kernelAt (s1.core s.cur).pc = (s.ctx (s.ctxOf s.cur)).kernelAt (s.core s.cur).pc := by
    rw [look.ctx, look.core_pc]
    rfl
  change execJinit f s = _
  refine State.runSeq_ok h ?_
  simp only [look.cur, look.ctxOf, hw, res_ok_bind, hk]
  exact he

section
variable {f : FR} (h : s.Clear s.cur f.sp true false [f.a, f.b] [] m s1) (hi : s1.src s.cur f.a = .ok (i, s2))
  (hw : s2.src s.cur (s1.issued s.cur f.b) = .ok (w, s3))
include h hi hw

theorem exec_htset_outside (ho : 4096 ≤ i.toNat) : exec (.htset f) s = .next (s.faults .capBounds i .read) := by
  change execHtset f s = _
  refine State.runSeq_fault h ?_
  simp only [(State.clear_looks h).cur, hi, res_ok_bind, hw, before, bind_faultIf, ho, decide_true, if_true]
  rfl

theorem exec_htset_ok (ho : i.toNat < 4096) (he : s3.enter s.cur [.htset i.toNat w] = .ok t) :
    exec (.htset f) s = .next (s.after t f.sp m) := by
  change execHtset f s = _
  refine State.runSeq_ok h ?_
  simp only [(State.clear_looks h).cur, hi, res_ok_bind, hw, before, bind_faultIf, decide_eq_false (Nat.not_le.2 ho), Bool.false_eq_true,
    if_false]
  exact he

end

section
variable {f : FR} (h : s.Clear s.cur f.sp true false [f.a] [f.d] m s1) (hi : s1.src s.cur f.a = .ok (i, s2))
include h hi

theorem exec_htget_outside (ho : 4096 ≤ i.toNat) : exec (.htget f) s = .next (s.faults .capBounds i .read) := by
  change execHtget f s = _
  refine State.runSeq_fault h ?_
  simp only [(State.clear_looks h).cur, hi, res_ok_bind, bind_faultIf, ho, decide_true, if_true]
  rfl

theorem exec_htget_ok {v : Word} (ho : i.toNat < 4096) (hv : (ownHandler (s2.core s.cur).buffer i.toNat).getD
      ((s2.ctx (s2.ctxOf s.cur)).handlerAt (s2.core s.cur).view.start i.toNat) = v) (hp : s2.put s.cur f.d v = .ok t) :
    exec (.htget f) s = .next (s.after t f.sp m) := by
  change execHtget f s = _
  refine State.runSeq_ok h ?_
  simp only [(State.clear_looks h).cur, hi, res_ok_bind, bind_faultIf, decide_eq_false (Nat.not_le.2 ho), Bool.false_eq_true, if_false, hv, hp]

end

/-! ### What HTGET finds -/

theorem ownHandler_append_htset (pre : List Entry) (n : Nat) (w : Word) : ownHandler (pre ++ [.htset n w]) n = some (w &&& handlerMask) := by
  simp [ownHandler]

/-- An entry that sets another handler, or none, leaves what was found. -/
theorem ownHandler_append_of_notMem {n : Nat} (pre post : List Entry) (h : ∀ v, .htset n v ∉ post) :
    ownHandler (pre ++ post) n = ownHandler pre n := by
  induction post generalizing pre with
  | nil => rw [List.append_nil]
  | cons e post ih =>
    have hpost := ih (pre ++ [e]) fun v hv => h v (List.mem_cons_of_mem _ hv)
    rw [List.append_assoc, List.singleton_append] at hpost
    rw [hpost]
    cases e with
    | htset j w =>
      have hj : j ≠ n := by
        rintro rfl
        exact h w List.mem_cons_self
      simp [ownHandler, hj]
    | _ => simp [ownHandler]

theorem ownHandler_last {n : Nat} {pre post : List Entry} {w : Word} (h : ∀ v, .htset n v ∉ post) :
    ownHandler (pre ++ .htset n w :: post) n = some (w &&& handlerMask) := by
  have hpost := ownHandler_append_of_notMem (pre ++ [.htset n w]) post h
  rwa [List.append_assoc, List.singleton_append, ownHandler_append_htset] at hpost

theorem ownHandler_none {n : Nat} {l : List Entry} (h : ∀ v, .htset n v ∉ l) : ownHandler l n = none :=
  ownHandler_append_of_notMem [] l h

/-- An old handler that a phase finds: it stood when the phase began. -/
def heldAt (start n : Nat) (o : Nat × Word × Nat) : Prop := o.1 = n ∧ start ≤ o.2.2

theorem Ctx.handlerAt_none {x : Ctx} {start n : Nat} (h : ∀ o ∈ x.oldHandlers, ¬heldAt start n o) :
    x.handlerAt start n = Table.get 0 x.handlers n := by
  have hf : x.oldHandlers.filter (fun o => decide (o.1 = n) && decide (start ≤ o.2.2)) = [] := by
    rw [List.filter_eq_nil_iff]
    intro o ho
    simpa [heldAt] using h o ho
  simp only [Ctx.handlerAt, hf]
  rfl

theorem Ctx.handlerAt_last {x : Ctx} {start n : Nat} {pre post : List (Nat × Word × Nat)} {o : Nat × Word × Nat}
    (h : x.oldHandlers = pre ++ o :: post) (ho : heldAt start n o) (hpost : ∀ p ∈ post, ¬heldAt start n p) :
    x.handlerAt start n = o.2.1 := by
  have hf : post.filter (fun o => decide (o.1 = n) && decide (start ≤ o.2.2)) = [] := by
    rw [List.filter_eq_nil_iff]
    intro p hp
    simpa [heldAt] using hpost p hp
  rw [Ctx.handlerAt, h, List.filter_append, List.filter_cons_of_pos (by simpa [heldAt] using ho), hf, List.getLast?_concat]
  rfl

end

/-- Settles O9, an instruction at a time: FIRE by the order of its checks, HTGET by where the entry stands. -/
theorem fireJoinInitHandlerTable : Obligations.FireJoinInitHandlerTable := by
  unfold Obligations.FireJoinInitHandlerTable
  intro s s1 m
  refine ⟨fun f b hb h => ?_, fun f w s2 t h hw he => ?_, fun f i w s2 s3 h hi hw => ?_, fun f i s2 h hi => ?_⟩
  · intro c r n e bad
    have hl := lacks_single c (i := 6) (by decide)
    split
    · next ht => exact exec_fire_unfit h rfl (hl.trans (if_pos ht))
    next ht =>
    rw [if_neg ht] at hl
    split
    · next hs => exact exec_fire_unfit h rfl (hl.trans (if_pos hs))
    next hs =>
    have hl := hl.trans (if_neg hs)
    split
    · next ho => exact exec_fire_outside h rfl hl ((c.outside_iff _ _).2 ho)
    next ho =>
    have ho := Bool.eq_false_iff.2 (mt (c.outside_iff _ _).1 ho)
    split
    · next hp => exact exec_fire_stale h rfl hl ho hp
    next hp =>
    have hp := eq_true_of_ne_false hp
    split
    · next hr => exact exec_fire_full h rfl hl ho hp hr
    next hr =>
    intro t he
    refine exec_fire_ok h rfl hl ho hp hr ?_
    have hadd : s1.addRunning n r.index = s1.setCtx n ((s1.ctx n).setHandle r.index { e with running := e.running + 1 }) := by
      simp only [State.addRunning, State.modCtx, (State.clear_looks h).handle]
      rfl
    rw [hb]
    exact hadd ▸ he
  · exact exec_jinit_ok h hw he
  · exact ⟨exec_htset_outside h hi hw, fun t ho he => exec_htset_ok h hi hw ho he⟩
  · intro c x old puts
    refine ⟨exec_htget_outside h hi, fun ho => ⟨fun pre w post hbuf hpost => ?_, fun hbuf => ⟨fun hold => ?_, fun pre o post hx hold hpost => ?_⟩⟩⟩
    · exact fun t hp => exec_htget_ok h hi ho (by rw [show (s2.core s.cur).buffer = _ from hbuf, ownHandler_last hpost]; rfl) hp
    · exact fun t hp => exec_htget_ok h hi ho (by rw [ownHandler_none hbuf, Option.getD_none]; exact Ctx.handlerAt_none hold) hp
    · exact fun t hp => exec_htget_ok h hi ho (by rw [ownHandler_none hbuf, Option.getD_none]; exact Ctx.handlerAt_last hx hold hpost) hp

end Sys2Proof.Machine
end

section
/-! SUPPORT. PREF at a safe point that is held (O10, 17 R306, 15 R243). -/

namespace Sys2Proof.Machine

/-! ### PREF at a safe point that is held (17 R306, 15 R243, 09 R154)

PREF with SP makes a safe point. Where its boundary is held the firing waits there, and the translation that PREF has fetched is still kept for
it, which O10's last clause for PREF leaves no room for. -/

section
variable {s s1 : State} {k : Nat} {m next : Word}

/-- A safe point whose boundary is made leaves its core running, or idle. -/
theorem State.safePoint_run_of_boundary (hb : s.boundary k none = some s1) :
    ((s.safePoint k m next false).core k).run = .running ∨ ((s.safePoint k m next false).core k).run = .idle := by
  simp only [State.safePoint, hb]
  generalize hu : State.modCore s1 k _ = u
  have running : (u.core k).run = .running := by
    rw [← hu, State.modCore_core_same]
  cases hf : (u.core k).firing with
  | none =>
    have ended : u.endFiring k = u := by simp only [State.endFiring, hf]
    have suspended : u.suspend k = u := by simp only [State.suspend, hf]
    rw [ended, suspended, ite_self, ite_self]
    exact .inl running
  | some f =>
    split
    · exact .inr (u.endFiring_atRest hf).idle
    · split
      · exact .inr (u.suspend_atRest hf).1.idle
      · exact .inl running

/-- Over an empty buffer a safe point that is held keeps what its core had fetched. -/
theorem State.safePoint_latch_of_held (hb : s.boundary k none = none) (hbuf : (s.core k).buffer = []) :
    ((s.safePoint k m next false).core k).latch = (s.core k).latch := by
  simp only [State.safePoint, hb, State.waitOn, State.modCore_core_same, State.stall, hbuf]
  rfl

/-- A core that waits at a safe point over an empty buffer has kept what it had fetched. -/
theorem State.safePoint_latch_of_waiting {w : Wait} {sp : Bool} (hbuf : (s.core k).buffer = [])
    (hrun : ((s.safePoint k m next false).core k).run = .waiting w sp) :
    ((s.safePoint k m next false).core k).latch = (s.core k).latch := by
  cases hb : s.boundary k none with
  | none => exact State.safePoint_latch_of_held hb hbuf
  | some s1 =>
    have hmade := State.safePoint_run_of_boundary (m := m) (next := next) hb
    rw [hrun] at hmade
    rcases hmade with h | h <;> cases h

end

/-- Tables of context 1 from 0x40000000 that map page 0x110000 for reads, an entry at each level. -/
def readableTables : List Host.Cell :=
  [(0x40000000, 0x40110001), (0x40110000, 0x40120001), (0x40120000, 0x40130001), (0x40130088, leafWord 0x710000 true false false false)].foldl
    (fun m (e : Nat × Word) => writeBytes m e.1 (bytesOf 8 e.2.toNat)) []

/-- A firing of core 0 has written one doubleword of a host-queue record, and the host queue is full: no boundary of it can be made. Its TLB
holds the page of its code alone; x6 may read page 0x110000. -/
def prefOverFullQueue : State :=
  { State.reset with
    mem := readableTables
    ctxs := [(1, { Ctx.fresh with
      state := .live, root := 0x40000000, hq := { Ctx.fresh.hq with wcount := BitVec.ofNat 64 (2 ^ Ctx.fresh.hq.log) } })]
    cores := [(0, { Core.fresh with
      ctx := some 1, firing := some (Firing.new (.actor ⟨1, 0⟩) 2 none false [] [] []), run := .running, pc := 0x10000, pcc := codeCap 0x10000 4,
      hq := [0], vs := { VState.fresh with x := [(6, capFor 0x110000 (2 ^ 20) 0b100001)] },
      tlb := [⟨1, 0, 0, 1, 0x100000, true, false, true⟩] })] }

/-- PREF of the page at x6, with SP. -/
def prefOfPage : FMV := ⟨true, 0, false, .x 0, .x 6, 0⟩

theorem prefOverFullQueue_clear : prefOverFullQueue.Clear 0 true true false [] [] 0 prefOverFullQueue :=
  ⟨by decide +kernel, by decide +kernel, by decide +kernel⟩

/-- The firing waits at its safe point, and has kept the translation that its PREF has fetched. -/
theorem exec_pref_overFullQueue : ∃ t, exec (.pref prefOfPage) prefOverFullQueue = .next t ∧
    (t.core 0).latch ≠ [] ∧ (t.core 0).run = .waiting (.safe 0 0x10010) false :=
  ⟨_, rfl, by decide +kernel, by decide +kernel⟩

/-- Refutes O10: a PREF with SP whose TLB miss is served and whose safe point is held, here by a full host queue, leaves the core waiting with
the fetched translation in its latch. Past a safe point that is held, no state whose cores differ from the first in TLB and view alone leaves
that. -/
theorem not_loadResults : ¬ Obligations.LoadResults := by
  unfold Obligations.LoadResults
  intro h
  obtain ⟨-, -, hcap, -⟩ := h prefOverFullQueue prefOverFullQueue 0
  obtain ⟨-, t, ht, -, hcore⟩ := hcap prefOfPage prefOverFullQueue_clear
  obtain ⟨u, hu, hlatch, hrun⟩ := exec_pref_overFullQueue
  have hafter : u = t.safePoint 0 0 ((prefOverFullQueue.core 0).fallThrough true) false := by
    rw [hu] at ht
    exact Host.Outcome.next.inj ht
  have hbuf : (t.core 0).buffer = [] := by
    rw [hcore 0]
    rfl
  have hkept : (t.core 0).latch = [] := by
    rw [hcore 0]
    rfl
  subst hafter
  exact hlatch ((State.safePoint_latch_of_waiting hbuf hrun).trans hkept)

end Sys2Proof.Machine
end

section
/-! SUPPORT. Reading sources, the checks of an access, atomics and remote operations (O49, 17 R324-R325). -/

namespace Sys2Proof.Machine

/-! ### What reading sources leaves of a core (16 R271) -/

/-- The core has read sources: LQ, SQ, its ports, IB, what the phase has dequeued of them, and the current stream may differ. -/
def Core.Reads (c d : Core) : Prop := d = { c with
  lq := d.lq, sq := d.sq, ports := d.ports, ib := d.ib, taken := d.taken, takenIb := d.takenIb, light := d.light, stream := d.stream }

/-- Cores have read sources, and nothing else has changed. -/
structure Reads (s t : State) : Prop where
  frame : t = { s with cores := t.cores }
  core : ∀ j, (s.core j).Reads (t.core j)

namespace Reads

variable {s t u : State}

theorem refl (s : State) : Reads s s := ⟨rfl, fun _ => rfl⟩

theorem trans (h : Reads s t) (g : Reads t u) : Reads s u := by
  refine ⟨?_, fun j => ?_⟩
  · rw [g.frame, h.frame]
  · rw [Core.Reads, g.core j, h.core j]

theorem of_modCore (k : Nat) {f : Core → Core} (h : ∀ c : Core, c.Reads (f c)) : Reads s (s.modCore k f) := by
  refine ⟨rfl, fun j => ?_⟩
  by_cases hj : j = k
  · subst hj
    rw [State.modCore_core_same]
    exact h _
  · rw [State.modCore_core_other s f hj]
    rfl

theorem vs (h : Reads s t) (k : Nat) : t.vs k = s.vs k := by simp only [State.vs]; rw [h.core k]

theorem cap (h : Reads s t) (k : Nat) (o : Opnd) : t.cap k o = s.cap k o := by cases o <;> simp [State.cap, h.vs]

theorem core_sendLaunch (h : Reads s t) (k : Nat) : (t.core k).sendLaunch = (s.core k).sendLaunch := by rw [h.core k]; rfl

theorem core_svc (h : Reads s t) (k : Nat) : (t.core k).svc = (s.core k).svc := by rw [h.core k]; rfl

theorem core_ldim (h : Reads s t) (k : Nat) : (t.core k).ldim = (s.core k).ldim := by rw [h.core k]

theorem launches (h : Reads s t) : t.launches = s.launches := by rw [h.frame]

theorem cur (h : Reads s t) : t.cur = s.cur := by rw [h.frame]

theorem ldimOf (h : Reads s t) (k : Nat) : t.ldimOf k = s.ldimOf k := by
  simp only [State.ldimOf, State.launchOf, h.core_sendLaunch, h.core_svc, h.core_ldim, h.launches]

theorem target (h : Reads s t) (k : Nat) (o : Opnd) : t.target k o = s.target k o := by
  simp only [State.target, State.targetCap, h.cap, h.core_sendLaunch, h.ldimOf]

end Reads

section
variable {s t : State} {k : Nat} {v : Vec} {w : Word}

theorem State.named_reads (s : State) (k : Nat) (o : Opnd) : Reads s (s.named k o) := .of_modCore k fun _ => rfl

theorem Core.popUnit_reads (c : Core) (p : Nat) : c.Reads (c.popUnit p) := by
  unfold Core.popUnit
  split <;> rfl

theorem State.popLq_reads (h : s.popLq k = .ok (v, t)) : Reads s t := by
  unfold State.popLq at h
  split at h
  · cases h
  · cases h
    exact .of_modCore k fun _ => rfl

theorem State.popSq_reads (h : s.popSq k = .ok (v, t)) : Reads s t := by
  unfold State.popSq at h
  split at h
  · cases h
  · cases h
    exact .of_modCore k fun _ => rfl

theorem State.readIb_reads (h : s.readIb k = .ok (w, t)) : Reads s t := by
  unfold State.readIb at h
  split at h
  · cases h
  · split at h
    · cases h
    · split at h <;> cases h <;> exact .of_modCore k fun _ => rfl

theorem State.readPort_reads {p : Nat} {wide : Bool} (h : s.readPort k p wide = .ok (v, t)) : Reads s t := by
  have popped (c : Core) (l : List Word) : c.Reads { c.popUnit p with light := l } := by
    rw [Core.Reads, c.popUnit_reads p]
  simp only [State.readPort] at h
  split at h
  · cases h
  · split at h
    · cases h
    · split at h
      · cases h
        exact .of_modCore k fun c => popped c _
      · cases h
        exact .of_modCore k fun c => c.popUnit_reads p

theorem res_bind_ok {α β : Type} {r : Res α} {f : α → Res β} {b : β} (h : (r >>= f) = .ok b) : ∃ a, r = .ok a ∧ f a = .ok b := by
  cases r with
  | error e => cases h
  | ok a => exact ⟨a, rfl, h⟩

theorem State.src_reads {o : Opnd} (h : s.src k o = .ok (w, t)) : Reads s t := by
  unfold State.src at h
  split at h
  case h_4 i =>
    split at h
    · exact (s.named_reads k _).trans (State.readIb_reads h)
    · split at h
      · obtain ⟨⟨v, u⟩, hv, hu⟩ := res_bind_ok h
        cases hu
        exact State.popLq_reads hv
      · split at h
        · obtain ⟨⟨v, u⟩, hv, hu⟩ := res_bind_ok h
          cases hu
          exact State.popSq_reads hv
        · obtain ⟨⟨v, u⟩, hv, hu⟩ := res_bind_ok h
          cases hu
          exact (s.named_reads k _).trans (State.readPort_reads hv)
  all_goals
    cases h
    exact .refl s

theorem State.storeData_reads {o : Opnd} (h : s.storeData k o = .ok (v, t)) : Reads s t := by
  unfold State.storeData at h
  split at h
  · exact State.popSq_reads h
  · cases h
    exact .refl s
  · obtain ⟨⟨w, u⟩, hw, hu⟩ := res_bind_ok h
    cases hu
    exact State.src_reads hw

end

/-! ### The checks of an access (03 R48, 17 R301) -/

section
variable {c : XReg} {a : Word} {size al need : Nat} {bits : List Nat} {x : FCode}

/-- Permissions as one number. -/
def permsOf (bits : List Nat) : Nat := bits.foldr (fun b n => 2 ^ b ||| n) 0

theorem and_permsOf_iff (p : Nat) (bits : List Nat) : p &&& permsOf bits = permsOf bits ↔ ∀ b ∈ bits, p.testBit b = true := by
  induction bits with
  | nil => simp [permsOf]
  | cons b bits ih =>
    rw [List.forall_mem_cons, ← ih]
    have hbit (n m : Nat) : n = m ↔ ∀ i, n.testBit i = m.testBit i := ⟨fun h _ => h ▸ rfl, Nat.eq_of_testBit_eq⟩
    simp only [permsOf, List.foldr_cons, hbit, Nat.testBit_and, Nat.testBit_or, Nat.testBit_two_pow]
    constructor
    · intro h
      refine ⟨by simpa using h b, fun i => ?_⟩
      have hi := h i
      by_cases hb : b = i
      · subst hb
        cases hp : p.testBit b <;> simp_all
      · simpa [hb] using hi
    · rintro ⟨hb, h⟩ i
      by_cases hi : b = i
      · subst hi
        simp [hb]
      · simpa [hi] using h i

theorem spaces_iff : ∀ p < 128, ((p &&& pL ≠ 0) = (p &&& pG ≠ 0)) ↔ p.testBit 4 = p.testBit 5 := by decide

/-- What a capability lacks for an access to memory that needs these permissions. -/
theorem lacks_access (hneed : need = permsOf bits) (hspace : need &&& (pL + pG) ≠ 0) : c.lacks need = if c.tag = false then some .capTag
    else if c.sealed = true ∨ (bits.any fun b => c.perms.testBit b = false) = true ∨ c.perms.testBit 4 = c.perms.testBit 5 then some .capPerm
    else none := by
  have hbits : c.perms &&& need ≠ need ↔ (bits.any fun b => c.perms.testBit b = false) = true := by
    rw [hneed, ne_eq, and_permsOf_iff]
    simp
  simp only [XReg.lacks, hbits, spaces_iff c.perms c.perms_lt, hspace, ne_eq, not_false_iff, decide_true, Bool.true_and, Bool.not_eq_true',
    Bool.or_eq_true, decide_eq_true_eq, or_assoc]

theorem alignCheck_single (n : Nat) (a : Word) : alignCheck n [a] = faultIf (decide (a.toNat % n ≠ 0)) .align a := by
  by_cases h : a.toNat % n = 0 <;> simp [alignCheck, faultIf, h, lowest]

/-- The checks of an access at one address, in their order. -/
theorem accessChecks_eq (hneed : need = permsOf bits) (hspace : need &&& (pL + pG) ≠ 0) :
    (liftCap (checkCap c need [a] size) >>= fun _ => alignCheck al [a]) = match Claims.accessFault c bits a size al with
      | some x => fault x a
      | none => .ok () := by
  have hl := lacks_access (c := c) hneed hspace
  simp only [Claims.accessFault, ← XReg.outside_iff, alignCheck_single]
  split at hl
  · next ht => simp only [checkCap_of_lacks hl, if_pos ht, res_fault_bind]
  next ht =>
  split at hl
  · next hs => simp only [checkCap_of_lacks hl, if_neg ht, if_pos hs, res_fault_bind]
  next hs =>
  simp only [checkCap_of_not_lacks hl, bind_faultIf, if_neg ht, if_neg hs]
  by_cases hout : c.outside a size = true
  · simp only [hout, if_true]
  · by_cases hal : a.toNat % al = 0 <;> simp [hout, hal, faultIf]

end

/-- The checks of an access, before what follows them. -/
theorem accessChecks_bind {α : Type} {c : XReg} {a : Word} {size al need : Nat} {bits : List Nat} (hneed : need = permsOf bits)
    (hspace : need &&& (pL + pG) ≠ 0) (r : Res α) :
    (liftCap (checkCap c need [a] size) >>= fun _ => alignCheck al [a] >>= fun _ => r) = match Claims.accessFault c bits a size al with
      | some x => fault x a
      | none => r := by
  rw [← bind_assoc, accessChecks_eq hneed hspace]
  cases Claims.accessFault c bits a size al <;> rfl

/-! ### Global atomics (17 R324) -/

/-- Each atomic is the one operation with its own new value. -/
theorem exec_atomics : ∀ p ∈ Claims.atomics, ∀ (f : FA) (s : State), exec (p.1 f) s = s.atomicOp f p.2.1 := by
  simp only [Claims.atomics, List.forall_mem_cons, List.not_mem_nil, false_imp_iff, implies_true, and_true]
  exact ⟨fun _ _ => rfl, fun _ _ => rfl, fun _ _ => rfl, fun _ _ => rfl, fun _ _ => rfl, fun _ _ => rfl, fun _ _ => rfl, fun _ _ => rfl,
    fun _ _ => rfl, fun _ _ => rfl, fun _ _ => rfl, fun _ _ => rfl, fun _ _ => rfl⟩

theorem ite_lt_eq_ite_le {α : Type} [LinearOrder α] {β : Type} (x y : α) (u v : β) : (if y < x then v else u) = if x ≤ y then u else v := by
  by_cases h : x ≤ y
  · rw [if_neg (not_lt.2 h), if_pos h]
  · rw [if_pos (not_le.1 h), if_neg h]

theorem atomNew_atomics : ∀ p ∈ Claims.atomics, ∀ w a b c : Nat, atomNew p.2.1 w a b c = p.2.2 w a b c := by
  simp only [Claims.atomics, List.forall_mem_cons, List.not_mem_nil, false_imp_iff, implies_true, and_true]
  refine ⟨fun _ _ _ _ => rfl, fun _ _ _ _ => rfl, fun _ _ _ _ => rfl, fun _ _ _ _ => rfl, fun w a b _ => ?_, fun w a b _ => ?_,
    fun _ a b _ => ?_, fun _ a b _ => ?_, fun _ _ _ _ => rfl, fun _ _ _ _ => rfl, fun _ _ _ _ => rfl, fun _ _ _ _ => rfl, fun _ _ _ _ => rfl⟩
  · exact ite_lt_eq_ite_le (signedOf w a) (signedOf w b) a b
  · exact ite_lt_eq_ite_le (signedOf w b) (signedOf w a) a b
  · exact Nat.min_def
  · exact (Nat.max_comm a b).trans Nat.max_def

theorem atomicChecks_bind {α : Type} (c : XReg) (a : Word) (size al : Nat) (r : Res α) :
    (liftCap (checkCap c (pR + pW + pG) [a] size) >>= fun _ => alignCheck al [a] >>= fun _ => r) =
      match Claims.accessFault c [0, 1, 5] a size al with
      | some x => fault x a
      | none => r := accessChecks_bind (by decide) (by decide) r

section
variable {f : FA} {s s1 s2 s3 s5 t : State} {m b c : Word} {op : AtomOp} {pa : Nat}
  (h : s.Clear s.cur f.sp true false [f.b, f.c] [f.d] m s1) (hb : s1.src s.cur f.b = .ok (b, s2)) (hc : s2.src s.cur f.c = .ok (c, s3))
include h hb hc

/-- An atomic whose sources are read: its checks, then its address. -/
theorem atomicOp_fault {e : FCode} (he : Claims.accessFault (s.cap s.cur f.a) [0, 1, 5] (s.cap s.cur f.a).addr f.bytes f.bytes = some e) :
    s.atomicOp f op = .next (s.faults e (s.cap s.cur f.a).addr .write) := by
  have look := State.clear_looks h
  have reads := (State.src_reads hb).trans (State.src_reads hc)
  refine State.runMem_fault h ?_
  simp only [look.cur, hb, hc, res_ok_bind, reads.cap, look.cap, atomicChecks_bind, he]
  rfl

variable (he : Claims.accessFault (s.cap s.cur f.a) [0, 1, 5] (s.cap s.cur f.a).addr f.bytes f.bytes = none)
  (ht : s3.translate s.cur .write (s.cap s.cur f.a).addr = .ok (pa, s5))
include he ht

theorem atomicOp_posted (hp : f.post = true) (ho : s5.enterOrdered s.cur [.atomic (s.cap s.cur f.a).addr pa f.bytes op b c] = .ok t) :
    s.atomicOp f op = .next (s.after t f.sp m) := by
  have look := State.clear_looks h
  have reads := (State.src_reads hb).trans (State.src_reads hc)
  refine State.runMem_ok h ?_
  simp only [look.cur, hb, hc, res_ok_bind, reads.cap, look.cap, atomicChecks_bind, he, ht, hp, if_true]
  exact ho

theorem atomicOp_value {s6 s8 s9 : State} (hp : f.post = false) (hs6 : s5.boundary s.cur (s5.core s.cur).scope = some s6)
    (hheld : s6.isHeld s.cur [.atomic (s.cap s.cur f.a).addr pa f.bytes op b c] = false)
    (hput : (s6.performAtomic s.cur pa f.bytes op b c).2.put s.cur f.d (BitVec.ofNat 64 (ofBytes (s6.bytes pa f.bytes))) = .ok s8)
    (htrail : s8.trail s.cur = .ok s9) : s.atomicOp f op = .next (s.after s9 f.sp m) := by
  have look := State.clear_looks h
  have reads := (State.src_reads hb).trans (State.src_reads hc)
  have hold : (s6.performAtomic s.cur pa f.bytes op b c).1 = ofBytes (s6.bytes pa f.bytes) := rfl
  refine State.runMem_ok h ?_
  simp only [look.cur, hb, hc, res_ok_bind, reads.cap, look.cap, atomicChecks_bind, he, ht, hp,
    State.publishNow_ok hs6, hheld, Bool.false_eq_true, if_false, hold, hput]
  exact htrail

end

theorem FA.bytes_eq (f : FA) : f.bytes = if f.dbl then 8 else 4 := rfl

theorem globalAtomics : Claims.GlobalAtomics := by
  unfold Claims.GlobalAtomics
  refine ⟨fun p hp f s s1 s2 s3 m b c h hb hc => ?_, fun p hp s k va pa w b c hw => ?_⟩
  · intro x w
    rw [exec_atomics p hp]
    split
    · next e he => exact atomicOp_fault h hb hc he
    · next he =>
      intro pa s5 ht
      refine ⟨fun t hpost ho => atomicOp_posted h hb hc he ht hpost ho, fun s6 s8 s9 hpost hs6 hheld hput htrail => ?_⟩
      refine atomicOp_value h hb hc he ht hpost hs6 hheld ?_ htrail
      rw [← hput]
      simp only [State.performAtomic, atomNew_atomics p hp]
      rfl
  · simp only [State.applyEntry, atomNew_atomics p hp]
    rfl

/-! ### Remote operations (17 R325) -/

section
variable {s : State} {o : Opnd} {c : XReg} {l : Nat} {x : FCode}

theorem State.remoteAt_fault {f : FA} (h : s.target s.cur f.a = fault x c.addr) : s.remoteAt s.cur f = fault x c.addr := by
  simp only [State.remoteAt, h, res_fault_bind]

/-- A target within the launch leaves the offset's alignment to check. -/
theorem State.remoteAt_of_target {f : FA} {v : VCore} (h : s.target s.cur f.a = .ok (v, c.addr)) : s.remoteAt s.cur f =
    if targetOff c.addr % f.bytes ≠ 0 then fault .align (BitVec.ofNat 64 (targetOff c.addr)) else .ok (v, targetOff c.addr) := by
  simp only [State.remoteAt, h, res_ok_bind, bind_faultIf, decide_eq_true_eq]
  rfl

end

theorem exec_remotePosted : ∀ p ∈ ([(.rput, .put), (.radd, .add)] : List ((FA → Instr) × RemOp)), ∀ (f : FA) (s : State),
    exec (p.1 f) s = s.remotePosted f p.2 := by
  simp only [List.forall_mem_cons, List.not_mem_nil, false_imp_iff, implies_true, and_true]
  exact ⟨fun _ _ => rfl, fun _ _ => rfl⟩

theorem exec_remoteValue : ∀ p ∈ ([(.rget, .get), (.rcas, .cas)] : List ((FA → Instr) × RemOp)), ∀ (f : FA) (s : State),
    exec (p.1 f) s = s.remoteValue f p.2 := by
  simp only [List.forall_mem_cons, List.not_mem_nil, false_imp_iff, implies_true, and_true]
  exact ⟨fun _ _ => rfl, fun _ _ => rfl⟩

section
variable {f : FA} {s s1 s2 s3 s4 t : State} {m b x : Word} {op : RemOp} {e : FCode} {a : Word} {v : VCore} {off : Nat}

/-- The target and the offset stand as they stood when the word issued. -/
theorem State.remoteAt_of_reads (look : Looks s s1) (reads : Reads s1 s2) : s2.remoteAt s.cur f = s.remoteAt s.cur f := by
  simp only [State.remoteAt, reads.target, look.target]

section Posted
variable (h : s.Clear s.cur f.sp true false [f.b] [] m s1) (hb : s1.src s.cur f.b = .ok (b, s2))
include h hb

theorem remotePosted_fault (ha : s.remoteAt s.cur f = fault e a) : s.remotePosted f op = .next (s.faults e a .read) := by
  refine State.runSeq_fault h ?_
  simp only [(State.clear_looks h).cur, hb, res_ok_bind, State.remoteAt_of_reads (State.clear_looks h) (State.src_reads hb), ha]
  rfl

theorem remotePosted_ok (ha : s.remoteAt s.cur f = .ok (v, off)) (ho : s2.enterOrdered s.cur [.remote v op off f.bytes b 0] = .ok t) :
    s.remotePosted f op = .next (s.after t f.sp m) := by
  refine State.runSeq_ok h ?_
  simp only [(State.clear_looks h).cur, hb, res_ok_bind, State.remoteAt_of_reads (State.clear_looks h) (State.src_reads hb), ha]
  exact ho

end Posted

section Value
variable (h : s.Clear s.cur f.sp true false [f.b, f.c] [f.d] m s1) (hb : s1.src s.cur f.b = .ok (b, s2)) (hx : s2.src s.cur f.c = .ok (x, s3))
include h hb hx

theorem remoteValue_fault (ha : s.remoteAt s.cur f = fault e a) : s.remoteValue f op = .next (s.faults e a .read) := by
  have reads := (State.src_reads hb).trans (State.src_reads hx)
  refine State.runSeq_fault h ?_
  simp only [(State.clear_looks h).cur, hb, hx, res_ok_bind, State.remoteAt_of_reads (State.clear_looks h) reads, ha]
  rfl

variable (ha : s.remoteAt s.cur f = .ok (v, off))
include ha

theorem remoteValue_lost {q : Nat} (hl : s3.ownerLost s.cur v = some q) :
    s.remoteValue f op = .next (s.faults .peerLost (BitVec.ofNat 64 q) .read) := by
  have reads := (State.src_reads hb).trans (State.src_reads hx)
  refine State.runSeq_fault h ?_
  simp only [(State.clear_looks h).cur, hb, hx, res_ok_bind, State.remoteAt_of_reads (State.clear_looks h) reads, ha, hl]
  rfl

/-- The request goes out behind the boundary, and the word waits for its reply. -/
theorem remoteValue_asks (hl : s3.ownerLost s.cur v = none) (hs4 : s3.boundary s.cur (s3.core s.cur).scope = some s4) :
    s.remoteValue f op = .next ((((s4.sendBody s.cur (s4.ctxOf s.cur) v (.remote op off f.bytes b x (some s.cur))).withMask s.cur m).waitOn s.cur
      (.remote f.d none) f.sp).stopAtWait s.cur) := by
  have reads := (State.src_reads hb).trans (State.src_reads hx)
  have hsp : (f.sp && !(Wait.remote f.d none).redo) = f.sp := Bool.and_true _
  rw [← hsp]
  refine State.runSeq_wait (w := .remote f.d none) (s2 := s4.sendBody s.cur (s4.ctxOf s.cur) v (.remote op off f.bytes b x (some s.cur))) h ?_
  simp only [(State.clear_looks h).cur, hb, hx, res_ok_bind, State.remoteAt_of_reads (State.clear_looks h) reads, ha, hl, State.publishNow_ok hs4]

end Value

/-- A word that waits for a reply is no place where a request is taken. -/
theorem State.waitOn_remote (s : State) (k : Nat) (m : Word) (d : Opnd) (sp : Bool) :
    ((s.withMask k m).waitOn k (.remote d none) sp).stopAtWait k =
      s.setCore k { s.core k with run := .waiting (.remote d none) sp, waitFrom := s.cycle, mask := m } := by
  have hwait : ((s.withMask k m).waitOn k (.remote d none) sp) =
      s.setCore k { s.core k with run := .waiting (.remote d none) sp, waitFrom := s.cycle, mask := m } := by
    rw [State.waitOn, State.withMask]
    exact State.setCore_modCore s k _ _
  rw [hwait]
  unfold State.stopAtWait
  rw [State.setCore_core_same]
  cases sp <;> rfl

end

theorem remoteOperations : Claims.RemoteOperations := by
  unfold Claims.RemoteOperations
  intro f s s1 s2 m b c w off
  have hoff : targetOff c.addr = off := rfl
  have hfault : ∀ {x}, Claims.targetFault s c true = some x → s.remoteAt s.cur f = fault x c.addr := fun hx =>
    State.remoteAt_fault (State.target_fault rfl hx (Looks.refl s))
  have hat : ∀ {l}, Claims.targetFault s c true = none → (s.core s.cur).sendLaunch = some l → s.remoteAt s.cur f =
      if off % w ≠ 0 then fault .align (BitVec.ofNat 64 off) else .ok (Claims.targetCore c l, off) := fun hx hl =>
    State.remoteAt_of_target (State.target_ok rfl hx (Looks.refl s) hl)
  have halign : Claims.targetFault s c true = none → off % w ≠ 0 → s.remoteAt s.cur f = fault .align (BitVec.ofNat 64 off) := fun hx ho => by
    obtain ⟨l, hl⟩ := targetFault_none_sendLaunch hx
    rw [hat hx hl, if_pos ho]
  have hok : ∀ {l}, Claims.targetFault s c true = none → off % w = 0 → (s.core s.cur).sendLaunch = some l →
      s.remoteAt s.cur f = .ok (Claims.targetCore c l, off) := fun hx ho hl => by
    rw [hat hx hl, if_neg (not_not.2 ho)]
  refine ⟨fun p hp h hb => ?_, fun p hp s3 x h hb hx => ?_⟩
  · rw [exec_remotePosted p hp]
    exact ⟨fun x hx => remotePosted_fault h hb (hfault hx), fun hx ho => remotePosted_fault h hb (halign hx ho),
      fun hx ho l t hl he => remotePosted_ok h hb (hok hx ho hl) he⟩
  · rw [exec_remoteValue p hp]
    refine ⟨fun y hy => remoteValue_fault h hb hx (hfault hy), fun hy ho => remoteValue_fault h hb hx (halign hy ho), fun hy ho l hl =>
      ⟨fun q hq => remoteValue_lost h hb hx (hok hy ho hl) hq, fun hq s4 hs4 => ?_⟩⟩
    intro s5
    rw [remoteValue_asks h hb hx (hok hy ho hl) hq hs4]
    exact congrArg _ (s5.waitOn_remote s.cur m f.d f.sp)

/-- Settles O49: the atomics are one operation with thirteen new values; the remote operations are two forms, posted and awaited. -/
theorem atomicsAndRemotes : Obligations.AtomicsAndRemotes := ⟨globalAtomics, remoteOperations⟩

end Sys2Proof.Machine
end

section
/-! SUPPORT. Loads and stores of the local store (O12, 17 R308-R309). -/

namespace Sys2Proof.Machine

/-! ### The bytes of a local store (17 R308-R309, 05 R104) -/

section
variable (r : VState) (a : Nat)

theorem Csrs.lsReport_eq (c : Csrs) {n : Nat} (hn : n ≠ 0) : c.lsReport a n = Claims.reported c a n := by
  simp only [Csrs.lsReport, Claims.reported, hn, false_or]
  rfl

/-- Writing changes the bytes and the marks of their regions alone. -/
theorem VState.lsWrite_frame (bs : List Byte) : r.lsWrite a bs = { r with ls := (r.lsWrite a bs).ls, lsdirty := (r.lsWrite a bs).lsdirty } := by
  induction bs generalizing r a with
  | nil => rfl
  | cons b bs ih =>
    rw [VState.lsWrite, ih]
    split <;> rfl

/-- The first byte of a write. -/
theorem VState.lsWrite_cons (b : Byte) (bs : List Byte) : r.lsWrite a (b :: bs) =
    (if a < 262144 then { r with ls := Table.set 0 r.ls a b, lsdirty := r.lsdirty ||| (1#64 <<< (a / 4096)) } else r).lsWrite (a + 1) bs := rfl

theorem VState.lsWrite_wf {bs : List Byte} (h : Table.wf 0 r.ls = true) : Table.wf 0 (r.lsWrite a bs).ls = true := by
  induction bs generalizing r a with
  | nil => exact h
  | cons b bs ih =>
    rw [VState.lsWrite_cons]
    split
    · exact ih _ _ (Table.wf_set h)
    · exact ih _ _ h

/-- Each byte of a write stands at its place; what lies past the store is dropped. -/
theorem VState.lsWrite_get {bs : List Byte} (h : Table.wf 0 r.ls = true) {x : Nat} (hx : x < 262144) : Table.get 0 (r.lsWrite a bs).ls x =
    if a ≤ x ∧ x < a + bs.length then bs.getD (x - a) 0 else Table.get 0 r.ls x := by
  induction bs generalizing r a with
  | nil => rw [if_neg (by simp only [List.length_nil]; omega)]; rfl
  | cons b bs ih =>
    rw [VState.lsWrite_cons]
    by_cases ha : a < 262144
    · rw [if_pos ha, ih _ _ (Table.wf_set h)]
      by_cases hin : a + 1 ≤ x ∧ x < a + 1 + bs.length
      · obtain ⟨i, rfl⟩ : ∃ i, x = a + 1 + i := ⟨x - (a + 1), by omega⟩
        rw [if_pos hin, if_pos ⟨by omega, by simp only [List.length_cons]; omega⟩, Nat.add_sub_cancel_left, show a + 1 + i - a = i + 1 by omega]
        rfl
      · rw [if_neg hin]
        by_cases hxa : x = a
        · subst hxa
          rw [if_pos ⟨le_refl x, by simp only [List.length_cons]; omega⟩, Nat.sub_self]
          exact Table.get_set_same 0 _ _ _
        · rw [if_neg (by simp only [List.length_cons]; omega)]
          exact Table.get_set_other 0 _ _ hxa
    · rw [if_neg ha, ih _ _ h, if_neg (by omega), if_neg (by omega)]

/-- A write marks the 4 KiB regions that it reaches. -/
theorem VState.lsWrite_dirty (bs : List Byte) {j : Nat} (hj : j < 64) : (r.lsWrite a bs).lsdirty.getLsbD j = true ↔
    r.lsdirty.getLsbD j = true ∨ ∃ x, a ≤ x ∧ x < a + bs.length ∧ x < 262144 ∧ x / 4096 = j := by
  induction bs generalizing r a with
  | nil =>
    constructor
    · exact .inl
    · rintro (h | ⟨x, hl, hr, -⟩)
      · exact h
      · simp only [List.length_nil] at hr
        omega
  | cons b bs ih =>
    have hsplit : (∃ x, a ≤ x ∧ x < a + (b :: bs).length ∧ x < 262144 ∧ x / 4096 = j) ↔
        (a < 262144 ∧ a / 4096 = j) ∨ ∃ x, a + 1 ≤ x ∧ x < a + 1 + bs.length ∧ x < 262144 ∧ x / 4096 = j := by
      simp only [List.length_cons]
      constructor
      · rintro ⟨x, hl, hr, hx, hd⟩
        by_cases hxa : x = a
        · exact .inl (hxa ▸ ⟨hx, hd⟩)
        · exact .inr ⟨x, by omega, by omega, hx, hd⟩
      · rintro (⟨hx, hd⟩ | ⟨x, hl, hr, hx, hd⟩)
        · exact ⟨a, le_refl a, by omega, hx, hd⟩
        · exact ⟨x, by omega, by omega, hx, hd⟩
    rw [VState.lsWrite_cons, ih, hsplit, ← or_assoc]
    by_cases ha : a < 262144
    · have hbit : (1#64 <<< (a / 4096)).getLsbD j = true ↔ a / 4096 = j := by
        rw [BitVec.getLsbD_shiftLeft, BitVec.getLsbD_one]
        simp only [hj, decide_true, Bool.true_and, Bool.and_eq_true, Bool.not_eq_true', decide_eq_false_iff_not, decide_eq_true_eq]
        omega
      rw [if_pos ha]
      simp only [BitVec.getLsbD_or, Bool.or_eq_true, hbit, ha, true_and]
    · rw [if_neg ha]
      simp only [ha, false_and, or_false]

/-- A store by the core itself: the bytes that lie within, and the report (17 R308-R309). -/
theorem VState.lsStore_written {bs : List Byte} (hbs : bs.length ≠ 0) : Claims.lsWritten r (r.lsStore a bs) a bs := by
  refine ⟨?_, fun h x hx => r.lsWrite_get a h hx, fun j hj => r.lsWrite_dirty a bs hj⟩
  rw [← Csrs.lsReport_eq a r.csr hbs]
  simp only [VState.lsStore]
  rw [r.lsWrite_frame a bs]

theorem VState.lsLoad_eq {n : Nat} (hn : n ≠ 0) : r.lsLoad a n =
    ((List.range n).map (fun i => if a + i < 262144 then Table.get 0 r.ls (a + i) else 0), { r with csr := Claims.reported r.csr a n }) := by
  rw [VState.lsLoad, Csrs.lsReport_eq a r.csr hn]
  rfl

end

/-! ### Loads and stores of the local store (17 R308-R309) -/

theorem Looks.localCap {s t : State} (h : Looks s t) (k : Nat) (o : Opnd) : t.localCap k o = s.localCap k o := by
  simp only [State.localCap, h.cap]

/-- An address of an F-M form: the capability's address and the offset, a pending XIMM with it. -/
theorem add_widened {s : State} (c : XReg) (off : BitVec 20) : c.addr + (s.core s.cur).widened off =
    BitVec.ofInt 64 (c.addr.toNat + Claims.wide s off) := by
  rw [Core.widened_eq, BitVec.ofInt_add]
  congr 1
  exact (BitVec.ofInt_natCast 64 c.addr.toNat).symm ▸ (BitVec.ofNat_toNat 64 c.addr).symm ▸ (BitVec.setWidth_eq c.addr).symm

section
variable {s s1 : State} {o : Opnd} {off : BitVec 20} {size al need : Nat} {bits : List Nat} {x : FCode} {c : XReg} {a : Word}

/-- The offset of a local access as its checks leave it. -/
theorem State.localAt_eq (look : Looks s s1) (hc : s.localCap s.cur o = c) (ha : BitVec.ofInt 64 (c.addr.toNat + Claims.wide s off) = a)
    (hneed : need = permsOf bits) (hspace : need &&& (pL + pG) ≠ 0) :
    s1.localAt s.cur o off need size al = match Claims.accessFault c bits a size al with
      | some x => fault x a
      | none => .ok a.toNat := by
  refine Eq.trans ?_ (accessChecks_bind (c := c) (a := a) (size := size) (al := al) hneed hspace (.ok a.toNat))
  simp only [State.localAt, look.localCap, hc, look.widened, add_widened, ha]
  rfl

end

theorem width_bytes_ne_zero (n : Width) : n.bytes ≠ 0 := by cases n <;> decide

theorem bytesOf_length_ne_zero {n : Nat} (h : n ≠ 0) (v : Nat) : (bytesOf n v).length ≠ 0 := by
  rw [bytesOf, List.length_map, List.length_range]
  exact h

section
variable {s s1 s2 t : State} {m a : Word} {c : XReg} {v : Vec} {x : FCode}

section
variable {f : FM} (hc : s.localCap s.cur f.a = c) (ha : BitVec.ofInt 64 (c.addr.toNat + Claims.wide s f.off) = a)
include hc ha

theorem exec_lsld_fault (h : s.Clear s.cur f.sp true false [] [f.d] m s1)
    (hx : Claims.accessFault c [0, 4] a f.width.bytes f.width.bytes = some x) : exec (.lsld f) s = .next (s.faults x a .read) := by
  change execLsld f s = _
  refine State.runSeq_fault h ?_
  simp only [(State.clear_looks h).cur, State.localAt_eq (bits := [0, 4]) (State.clear_looks h) hc ha (need := pR + pL) (by decide) (by decide), hx]
  rfl

theorem exec_lsld_ok (h : s.Clear s.cur f.sp true false [] [f.d] m s1)
    (hx : Claims.accessFault c [0, 4] a f.width.bytes f.width.bytes = none)
    (hput : (s1.modVs s.cur fun _ => ((s.vs s.cur).lsLoad a.toNat f.width.bytes).2).put s.cur f.d
      (BitVec.ofNat 64 (extended f.ext f.width.bytes (ofBytes ((s.vs s.cur).lsLoad a.toNat f.width.bytes).1))) = .ok t) :
    exec (.lsld f) s = .next (s.after t f.sp m) := by
  have look := State.clear_looks h
  change execLsld f s = _
  refine State.runSeq_ok h ?_
  simp only [look.cur, State.localAt_eq (bits := [0, 4]) look hc ha (need := pR + pL) (by decide) (by decide), hx, res_ok_bind, look.vs]
  exact hput

theorem exec_lsst_fault (h : s.Clear s.cur f.sp true false [f.d] [] m s1)
    (hx : Claims.accessFault c [1, 4] a f.width.bytes f.width.bytes = some x) : exec (.lsst f) s = .next (s.faults x a .read) := by
  change execLsst f s = _
  refine State.runSeq_fault h ?_
  simp only [(State.clear_looks h).cur, State.localAt_eq (bits := [1, 4]) (State.clear_looks h) hc ha (need := pW + pL) (by decide) (by decide), hx]
  rfl

theorem exec_lsst_ok (h : s.Clear s.cur f.sp true false [f.d] [] m s1)
    (hx : Claims.accessFault c [1, 4] a f.width.bytes f.width.bytes = none) (hv : s1.storeData s.cur f.d = .ok (v, s2)) :
    exec (.lsst f) s = .next (s.after (s2.modVs s.cur fun r => r.lsStore a.toNat (bytesOf f.width.bytes v.toNat)) f.sp m) := by
  have look := State.clear_looks h
  change execLsst f s = _
  refine State.runSeq_ok h ?_
  simp only [look.cur, State.localAt_eq (bits := [1, 4]) look hc ha (need := pW + pL) (by decide) (by decide), hx, res_ok_bind, hv]
  rfl

end

section
variable {f : FML} (hc : s.localCap s.cur f.a = c) (ha : BitVec.ofInt 64 (c.addr.toNat + Claims.wide s f.off) = a)
include hc ha

theorem exec_lsldv_fault (h : s.Clear s.cur f.sp true false [] [f.d] m s1)
    (hx : Claims.accessFault c [0, 4] a 128 8 = some x) : exec (.lsldv f) s = .next (s.faults x a .read) := by
  change execLsldv f s = _
  refine State.runSeq_fault h ?_
  simp only [(State.clear_looks h).cur, State.localAt_eq (bits := [0, 4]) (State.clear_looks h) hc ha (need := pR + pL) (by decide) (by decide), hx]
  rfl

theorem exec_lsldv_ok (h : s.Clear s.cur f.sp true false [] [f.d] m s1) (hx : Claims.accessFault c [0, 4] a 128 8 = none)
    (hput : (s1.modVs s.cur fun _ => ((s.vs s.cur).lsLoad a.toNat 128).2).loadVec s.cur f.d
      (BitVec.ofNat 1024 (ofBytes ((s.vs s.cur).lsLoad a.toNat 128).1)) = .ok t) :
    exec (.lsldv f) s = .next (s.after t f.sp m) := by
  have look := State.clear_looks h
  change execLsldv f s = _
  refine State.runSeq_ok h ?_
  simp only [look.cur, State.localAt_eq (bits := [0, 4]) look hc ha (need := pR + pL) (by decide) (by decide), hx, res_ok_bind, look.vs]
  exact hput

theorem exec_lsstv_fault (h : s.Clear s.cur f.sp true false [f.d] [] m s1)
    (hx : Claims.accessFault c [1, 4] a 128 8 = some x) : exec (.lsstv f) s = .next (s.faults x a .read) := by
  change execLsstv f s = _
  refine State.runSeq_fault h ?_
  simp only [(State.clear_looks h).cur, State.localAt_eq (bits := [1, 4]) (State.clear_looks h) hc ha (need := pW + pL) (by decide) (by decide), hx]
  rfl

theorem exec_lsstv_ok (h : s.Clear s.cur f.sp true false [f.d] [] m s1)
    (hx : Claims.accessFault c [1, 4] a 128 8 = none) (hv : s1.storeData s.cur f.d = .ok (v, s2)) :
    exec (.lsstv f) s = .next (s.after (s2.modVs s.cur fun r => r.lsStore a.toNat (bytesOf 128 v.toNat)) f.sp m) := by
  have look := State.clear_looks h
  change execLsstv f s = _
  refine State.runSeq_ok h ?_
  simp only [look.cur, State.localAt_eq (bits := [1, 4]) look hc ha (need := pW + pL) (by decide) (by decide), hx, res_ok_bind, hv]
  rfl

end

end

/-- Settles O12: each form is its checks and one use of `VState.lsLoad` or `VState.lsStore`. -/
theorem localStoreAccess : Obligations.LocalStoreAccess := by
  unfold Obligations.LocalStoreAccess
  intro s s1 m own r held read
  have hload : ∀ a n, n ≠ 0 → (s.vs s.cur).lsLoad a n = (held a n, { r with csr := Claims.reported r.csr a n }) := fun a n hn =>
    VState.lsLoad_eq r a hn
  constructor
  · intro f a w
    have hw : w ≠ 0 := width_bytes_ne_zero f.width
    refine ⟨fun h => ?_, fun h => ?_⟩
    · split
      · next x hx => exact exec_lsld_fault rfl rfl h hx
      · next hx =>
        intro n v t hput
        refine exec_lsld_ok rfl rfl h hx ?_
        rw [hload _ _ hw]
        exact hput
    · split
      · next x hx => exact exec_lsst_fault rfl rfl h hx
      · next hx => exact fun v s2 hv => ⟨_, exec_lsst_ok rfl rfl h hx hv, VState.lsStore_written _ _ (bytesOf_length_ne_zero hw _)⟩
  · intro f a
    refine ⟨fun h => ?_, fun h => ?_⟩
    · split
      · next x hx => exact exec_lsldv_fault rfl rfl h hx
      · next hx =>
        intro t hput
        refine exec_lsldv_ok rfl rfl h hx ?_
        rw [hload _ _ (by decide)]
        exact hput
    · split
      · next x hx => exact exec_lsstv_fault rfl rfl h hx
      · next hx => exact fun v s2 hv => ⟨_, exec_lsstv_ok rfl rfl h hx hv, VState.lsStore_written _ _ (bytesOf_length_ne_zero (by decide) _)⟩

end Sys2Proof.Machine
end

section
/-! SUPPORT. Stores into the phase buffer (O11, 17 R301-R307). -/

namespace Sys2Proof.Machine

/-! ### Addresses of one access and of lanes (17 R301, R304, R307) -/

section
variable {s s1 : State} {o : Opnd} {off : BitVec 20} {size al need : Nat} {bits : List Nat} {c : XReg} {a : Word}

/-- The address of an F-M access as its checks leave it. -/
theorem State.checkedAt_eq (look : Looks s s1) (hc : s.cap s.cur o = c) (ha : BitVec.ofInt 64 (c.addr.toNat + Claims.wide s off) = a)
    (hneed : need = permsOf bits) (hspace : need &&& (pL + pG) ≠ 0) :
    s1.checkedAt s.cur o off need size al = match Claims.accessFault c bits a size al with
      | some x => fault x a
      | none => .ok a := by
  refine Eq.trans ?_ (accessChecks_bind (c := c) (a := a) (size := size) (al := al) hneed hspace (.ok a))
  simp only [State.checkedAt, look.cap, hc, look.widened, add_widened, ha]
  rfl

/-- An access that is allowed is aligned. -/
theorem accessFault_none_aligned (h : Claims.accessFault c bits a size al = none) : a.toNat % al = 0 := by
  by_contra hal
  simp only [Claims.accessFault, if_pos hal] at h
  split at h
  · cases h
  · split at h
    · cases h
    · split at h <;> cases h

theorem width_bytes_dvd (n : Width) : n.bytes ∣ 65536 := by cases n <;> decide

/-- An aligned access lies in one page. -/
theorem State.translateSpan_aligned {t : State} {k : Nat} {acc : Access} {n pa : Nat} (hn : n ∣ 65536) (hal : a.toNat % n = 0)
    (h : s.translate k acc a = .ok (pa, t)) : s.translateSpan k acc a n = .ok ([(a, pa, n)], t) := by
  have hpage : n ≤ 65536 - a.toNat % 65536 := by
    obtain ⟨q, hq⟩ := hn
    obtain ⟨i, hi⟩ := Nat.dvd_of_mod_eq_zero hal
    have hlt : i % q < q := Nat.mod_lt _ (Nat.pos_of_ne_zero fun h0 => by simp [h0] at hq)
    have hmod : a.toNat % 65536 = n * (i % q) := by rw [hi, hq, Nat.mul_mod_mul_left]
    have hle : n * (i % q + 1) ≤ n * q := Nat.mul_le_mul_left n hlt
    rw [Nat.mul_succ] at hle
    omega
  rw [State.translateSpan, if_pos hpage, h]
  rfl

end

section
variable {c : XReg} {a : Word} {as : List Word}

theorem foldl_lowest_toNat (m : Word) (t : List Word) : (t.foldl (fun m x => if x.toNat < m.toNat then x else m) m).toNat =
    (t.map BitVec.toNat).foldl min m.toNat := by
  induction t generalizing m with
  | nil => rfl
  | cons x t ih =>
    rw [List.foldl_cons, ih, List.map_cons, List.foldl_cons]
    congr 1
    split
    · next h => exact (Nat.min_eq_right h.le).symm
    · next h => exact (Nat.min_eq_left (Nat.not_lt.1 h)).symm

theorem lowest_eq_least (as : List Word) : lowest as = Claims.least as := by
  cases as with
  | nil => rfl
  | cons a t =>
    have hleast : Claims.least (a :: t) = BitVec.ofNat 64 ((t.map BitVec.toNat).foldl min a.toNat) := rfl
    rw [hleast, ← foldl_lowest_toNat, BitVec.ofNat_toNat, BitVec.setWidth_eq]
    rfl

/-- The checks of the lanes, each kind on every lane before the next kind, before what follows them. -/
theorem laneChecks_bind {α : Type} {bits : List Nat} {need eb : Nat} (hneed : need = permsOf bits) (hspace : need &&& (pL + pG) ≠ 0) (r : Res α) :
    (liftCap (checkCap c need as eb) >>= fun _ => alignCheck eb as >>= fun _ => r) = match Claims.lanesFault c bits as eb with
      | some x => fault x.1 x.2
      | none => r := by
  have hl := lacks_access (c := c) hneed hspace
  have hout : (fun a : Word => decide (a.toNat < c.base ∨ c.top < a.toNat + eb)) = fun a => c.outside a eb :=
    funext fun a => by rw [← Bool.decide_coe (c.outside a eb)]; simp only [XReg.outside_iff]
  simp only [Claims.lanesFault, hout, checkCap, alignCheck, ← lowest_eq_least]
  split at hl
  · next ht => simp only [hl, if_pos ht, liftCap, res_fault_bind]
  next ht =>
  split at hl
  · next hs => simp only [hl, if_neg ht, if_pos hs, liftCap, res_fault_bind]
  next hs =>
  simp only [hl, if_neg ht, if_neg hs]
  cases as.filter (fun a => c.outside a eb) with
  | cons a t => rfl
  | nil =>
    cases as.filter (fun a => decide (a.toNat % eb ≠ 0)) with
    | cons a t => rfl
    | nil => rfl

end

/-! ### The addresses of lanes (17 R307) -/

theorem strided_eq (c : XReg) (eb : Nat) (w : Word) : strided c.addr w (128 / eb) = Claims.laneAddresses c eb (.inl w) := by
  refine List.map_congr_left fun i _ => ?_
  rw [BitVec.ofInt_add, BitVec.ofInt_mul, BitVec.ofInt_toInt, BitVec.ofInt_natCast, BitVec.ofInt_natCast, BitVec.ofNat_toNat, BitVec.setWidth_eq]

theorem laneW_bytes_cases (n : LaneW) : n.bytes = 1 ∨ n.bytes = 2 ∨ n.bytes = 4 ∨ n.bytes = 8 := by cases n <;> decide

/-- A lane of w bits, sign-extended. -/
theorem extended_lane {w : Nat} (hw : w = 1 ∨ w = 2 ∨ w = 4 ∨ w = 8) (v : BitVec (8 * w)) :
    BitVec.ofNat 64 (extended true w v.toNat) = BitVec.ofInt 64 v.toInt := by
  have hlt := v.isLt
  refine BitVec.eq_of_toNat_eq ?_
  rw [BitVec.toNat_ofNat, BitVec.toNat_ofInt, BitVec.toInt_eq_toNat_cond]
  have hpow : 2 ^ (8 * w) = 2 * 2 ^ (8 * w - 1) := by rw [← pow_succ', Nat.sub_add_cancel (by omega)]
  have hle : 2 ^ (8 * w) ≤ 2 ^ 64 := Nat.pow_le_pow_right (by decide) (by omega)
  by_cases hneg : 2 ^ (8 * w - 1) ≤ v.toNat
  · rw [extended, if_pos ⟨rfl, hneg⟩, if_neg (by omega)]
    generalize 2 ^ (8 * w) = p at *
    omega
  · rw [extended, if_neg fun h => hneg h.2, if_pos (by omega)]
    omega

theorem indexed_eq (c : XReg) {eb : Nat} (hw : eb = 1 ∨ eb = 2 ∨ eb = 4 ∨ eb = 8) (v : Vec) : indexed c.addr v eb = Claims.laneAddresses c eb (.inr v) := by
  have hcount : 1024 / (8 * eb) = 128 / eb := Nat.mul_div_mul_left (m := 8) 128 eb (by decide)
  rw [indexed, lanesOf, List.map_map, hcount]
  refine List.map_congr_left fun i _ => ?_
  have hlane : laneAt v (8 * eb) i = (v.extractLsb' (8 * eb * i) (8 * eb)).toNat := by
    rw [laneAt, BitVec.extractLsb'_toNat, Nat.shiftRight_eq_div_pow]
  simp only [Function.comp_apply]
  rw [hlane, extended_lane hw, BitVec.ofInt_add, BitVec.ofInt_mul, BitVec.ofInt_natCast, BitVec.ofInt_natCast, BitVec.ofNat_toNat, BitVec.setWidth_eq]

/-! ### Stores (17 R301-R307) -/

section
variable {s s1 s2 s3 t : State} {m a : Word} {c : XReg} {v : Vec} {x : FCode} {pa : Nat}

section
variable {f : FM} (h : s.Clear s.cur f.sp true false [f.d] [] m s1)
  (hc : s.cap s.cur f.a = c) (ha : BitVec.ofInt 64 (c.addr.toNat + Claims.wide s f.off) = a)
include h hc ha

theorem exec_st_fault (hx : Claims.accessFault c [1, 5] a f.width.bytes f.width.bytes = some x) :
    exec (.st f) s = .next (s.faults x a .write) := by
  change execSt f s = _
  refine State.runMem_fault h ?_
  simp only [(State.clear_looks h).cur, State.checkedAt_eq (bits := [1, 5]) (State.clear_looks h) hc ha (need := pW + pG) (by decide) (by decide), hx]
  rfl

theorem exec_st_ok (hx : Claims.accessFault c [1, 5] a f.width.bytes f.width.bytes = none)
    (ht : s1.translate s.cur .write a = .ok (pa, s2)) (hv : s2.storeData s.cur f.d = .ok (v, s3))
    (ho : s3.enterOrdered s.cur [.store a pa (bytesOf f.width.bytes v.toNat) none] = .ok t) : exec (.st f) s = .next (s.after t f.sp m) := by
  have hspan := State.translateSpan_aligned (width_bytes_dvd f.width) (accessFault_none_aligned hx) ht
  have hentry : storeSpan [(a, pa, f.width.bytes)] (bytesOf f.width.bytes v.toNat) = [.store a pa (bytesOf f.width.bytes v.toNat) none] := by
    rw [storeSpan, List.take_of_length_le (by simp [bytesOf])]
    rfl
  change execSt f s = _
  refine State.runMem_ok h ?_
  simp only [(State.clear_looks h).cur, State.checkedAt_eq (bits := [1, 5]) (State.clear_looks h) hc ha (need := pW + pG) (by decide) (by decide), hx,
    res_ok_bind, hspan, hv, hentry]
  exact ho

end

section
variable {f : FMV} (hc : s.cap s.cur f.a = c) (ha : BitVec.ofInt 64 (c.addr.toNat + Claims.wide s f.off) = a)
include hc ha

theorem exec_stv_fault (h : s.Clear s.cur f.sp true false [f.d] [] m s1) (hx : Claims.accessFault c [1, 5] a 128 8 = some x) :
    exec (.stv f) s = .next (s.faults x a .write) := by
  change execStv f s = _
  refine State.runMem_fault h ?_
  simp only [(State.clear_looks h).cur, State.checkedAt_eq (bits := [1, 5]) (State.clear_looks h) hc ha (need := pW + pG) (by decide) (by decide), hx]
  rfl

theorem exec_stv_ok {ps : List (Word × Nat × Nat)} (h : s.Clear s.cur f.sp true false [f.d] [] m s1)
    (hx : Claims.accessFault c [1, 5] a 128 8 = none)
    (ht : s1.translateSpan s.cur .write a 128 = .ok (ps, s2)) (hv : s2.storeData s.cur f.d = .ok (v, s3))
    (ho : s3.enterOrdered s.cur (storeSpan ps (bytesOf 128 v.toNat)) = .ok t) : exec (.stv f) s = .next (s.after t f.sp m) := by
  change execStv f s = _
  refine State.runMem_ok h ?_
  simp only [(State.clear_looks h).cur, State.checkedAt_eq (bits := [1, 5]) (State.clear_looks h) hc ha (need := pW + pG) (by decide) (by decide), hx,
    res_ok_bind, ht, hv]
  exact ho

theorem exec_stc_fault (h : s.Clear s.cur f.sp true false [] [] m s1) (hx : Claims.accessFault c [1, 5] a 16 16 = some x) :
    exec (.stc f) s = .next (s.faults x a .write) := by
  change execStc f s = _
  refine State.runMem_fault h ?_
  simp only [(State.clear_looks h).cur, State.checkedAt_eq (bits := [1, 5]) (State.clear_looks h) hc ha (need := pW + pG) (by decide) (by decide), hx]
  rfl

theorem exec_stc_ok (h : s.Clear s.cur f.sp true false [] [] m s1) (hx : Claims.accessFault c [1, 5] a 16 16 = none)
    (ht : s1.translate s.cur .write a = .ok (pa, s2))
    (ho : s2.enterOrdered s.cur [.store a pa (bytesOf 16 (s.cap s.cur f.d).val.toNat) (some (s.cap s.cur f.d).tag)] = .ok t) :
    exec (.stc f) s = .next (s.after t f.sp m) := by
  have look := State.clear_looks h
  change execStc f s = _
  refine State.runMem_ok h ?_
  simp only [look.cur, State.checkedAt_eq (bits := [1, 5]) look hc ha (need := pW + pG) (by decide) (by decide), hx, res_ok_bind, ht, look.cap]
  exact ho

end

/-! ### Strided and indexed stores (17 R307) -/

/-- The offsets of the lanes of a word that may take its effect in s1: an index vector, or a stride that it reads. -/
def LaneOffsets (s s1 s2 : State) (ix : Bool) (f : FRL) (off : Word ⊕ Vec) : Prop :=
  if ix then ∃ n, f.b = .v n ∧ off = .inr ((s.core s.cur).vs.getV n.val) ∧ s2 = s1
  else ∃ w, s1.src s.cur f.b = .ok (w, s2) ∧ off = .inl w

section
variable {ix : Bool} {f : FRL} {off : Word ⊕ Vec}

theorem LaneOffsets.reads (ho : LaneOffsets s s1 s2 ix f off) : Reads s1 s2 := by
  cases ix with
  | true =>
    obtain ⟨n, -, -, rfl⟩ := ho
    exact .refl _
  | false =>
    obtain ⟨w, hw, -⟩ := ho
    exact State.src_reads hw

theorem State.laneAddrs_eq (look : Looks s s1) (ho : LaneOffsets s s1 s2 ix f off) :
    s1.laneAddrs s.cur ix f = .ok (Claims.laneAddresses (s.cap s.cur f.a) f.lw.bytes off, s2) := by
  cases ix with
  | true =>
    obtain ⟨n, hb, rfl, rfl⟩ := ho
    simp only [State.laneAddrs, hb, look.cap, look.vs, if_true, res_pure, indexed_eq _ (laneW_bytes_cases f.lw)]
    rfl
  | false =>
    obtain ⟨w, hw, rfl⟩ := ho
    simp only [State.laneAddrs, look.cap, Bool.false_eq_true, if_false, hw, res_ok_bind, res_pure, strided_eq]

/-- What is wrong with the lanes stops the word before anything is translated. -/
theorem State.checkedLanes_fault {acc : Access} {bits : List Nat} {need : Nat} {x : FCode × Word} {as : List Word} {k : Nat} (hneed : need = permsOf bits)
    (hspace : need &&& (pL + pG) ≠ 0) (hx : Claims.lanesFault (s.cap k f.a) bits as f.lw.bytes = some x) :
    s.checkedLanes k acc need f as = fault x.1 x.2 := by
  have h := laneChecks_bind (c := s.cap k f.a) (as := as) (eb := f.lw.bytes) hneed hspace
    (State.translateLanes k acc (sortLanes as.zipIdx) s >>= fun r =>
      .ok (as.mapIdx fun i a => (a, ((r.1.find? fun p => decide (p.1 = i)).map Prod.snd).getD 0), r.2))
  rw [hx] at h
  exact h

/-- Bytes of a lane of a vector. -/
theorem bytesOf_laneAt (v : Vec) (eb i : Nat) : bytesOf eb (laneAt v (8 * eb) i) =
    (List.range eb).map fun j => BitVec.ofNat 8 (v.toNat / 2 ^ (8 * (eb * i + j))) := by
  refine List.map_congr_left fun j hj => BitVec.eq_of_toNat_eq ?_
  have hlt : j < eb := List.mem_range.1 hj
  obtain ⟨n, rfl⟩ : ∃ n, eb = j + 1 + n := ⟨eb - (j + 1), by omega⟩
  rw [BitVec.toNat_ofNat, BitVec.toNat_ofNat, laneAt, show 8 * (j + 1 + n) = 8 * j + (8 + 8 * n) by omega, Nat.pow_add, Nat.mod_mul_right_div_self,
    Nat.div_div_eq_div_mul, ← Nat.pow_add, Nat.pow_add 2 8, Nat.mod_mul_right_mod]
  congr 3
  ring

variable (h : s.Clear s.cur f.sp true false [f.d] [] m s1) (ho : LaneOffsets s s1 s2 ix f off)
include h ho

theorem scatter_fault {x : FCode × Word}
    (hx : Claims.lanesFault (s.cap s.cur f.a) [1, 5] (Claims.laneAddresses (s.cap s.cur f.a) f.lw.bytes off) f.lw.bytes = some x) :
    s.scatter ix f = .next (s.faults x.1 x.2 .write) := by
  have look := State.clear_looks h
  have hcap : s2.cap s.cur f.a = s.cap s.cur f.a := (ho.reads.cap _ _).trans (look.cap _ _)
  have hfault : s2.checkedLanes s.cur .write (pW + pG) f (Claims.laneAddresses (s.cap s.cur f.a) f.lw.bytes off) = fault x.1 x.2 :=
    State.checkedLanes_fault (bits := [1, 5]) (by decide) (by decide) (by rw [hcap]; exact hx)
  refine State.runMem_fault h ?_
  simp only [look.cur, State.laneAddrs_eq look ho, res_ok_bind, hfault]
  rfl

theorem scatter_ok {ps : List (Word × Nat)} {s4 : State}
    (hl : s2.checkedLanes s.cur .write 0b100010 f (Claims.laneAddresses (s.cap s.cur f.a) f.lw.bytes off) = .ok (ps, s3))
    (hv : s3.storeData s.cur f.d = .ok (v, s4))
    (he : s4.enterOrdered s.cur (ps.mapIdx fun i p => .store p.1 p.2 (bytesOf f.lw.bytes (laneAt v (8 * f.lw.bytes) i)) none) = .ok t) :
    s.scatter ix f = .next (s.after t f.sp m) := by
  have look := State.clear_looks h
  have hl : s2.checkedLanes s.cur .write (pW + pG) f (Claims.laneAddresses (s.cap s.cur f.a) f.lw.bytes off) = .ok (ps, s3) := hl
  refine State.runMem_ok h ?_
  simp only [look.cur, State.laneAddrs_eq look ho, res_ok_bind, hl, hv]
  exact he

end

end

theorem exec_scatter (ix : Bool) (f : FRL) (s : State) : exec (if ix then Instr.stvx f else Instr.stvs f) s = s.scatter ix f := by
  cases ix <;> rfl

/-- Settles O11: each form is its checks and the entries that it makes of its data. -/
theorem storeEntries : Obligations.StoreEntries := by
  unfold Obligations.StoreEntries
  intro s s1 m
  refine ⟨fun f h => ?_, fun f h => ?_, fun f h => ?_, fun ix f h => ?_⟩
  · intro c a w
    split
    · next x hx => exact exec_st_fault h rfl rfl hx
    · next hx => exact fun pa v s2 s3 t ht hv ho => exec_st_ok h rfl rfl hx ht hv ho
  · intro c a
    split
    · next x hx => exact exec_stv_fault rfl rfl h hx
    · next hx => exact fun ps v s2 s3 t ht hv ho => exec_stv_ok rfl rfl h hx ht hv ho
  · intro c a
    split
    · next x hx => exact exec_stc_fault rfl rfl h hx
    · next hx => exact fun pa s2 t ht ho => exec_stc_ok rfl rfl h hx ht ho
  · intro i c eb off s2 hoff as
    have hoff : LaneOffsets s s1 s2 ix f off := hoff
    rw [exec_scatter ix f s]
    split
    · next x hx => exact scatter_fault h hoff hx
    · next hx =>
      intro ps v s3 s4 t hl hv he
      refine scatter_ok h hoff hl hv ?_
      simp only [bytesOf_laneAt]
      exact he

end Sys2Proof.Machine
end

section
/-! SUPPORT. MCST, circular buffers and control words (O48, 17 R319-R322, 03 R65). -/

namespace Sys2Proof.Machine

/-! ### MCST and circular buffers (17 R319-R321) -/

section
variable {s s1 s2 s3 t : State} {m base geo : Word} {f : FR} {c : XReg} {x : FCode} {l : Nat}

section
variable (h : s.Clear s.cur f.sp true false [] [] m s1) (hc : s.cap s.cur f.a = c)
include h hc

theorem exec_mcst_fault (hx : Claims.targetFault s c false = some x) : exec (.mcst f) s = .next (s.faults x c.addr .read) := by
  change execMcst f s = _
  refine State.runSeq_fault h ?_
  simp only [(State.clear_looks h).cur, State.targetCap_fault hc hx (State.clear_looks h)]
  rfl

variable (hx : Claims.targetFault s c false = none) (hl : (s.core s.cur).sendLaunch = some l)
include hx hl

theorem exec_mcst_apart (hg : s.subgroupHere s.cur (fld c.addr 15 0) = false) : exec (.mcst f) s = .next (s.faults .capBounds c.addr .read) := by
  have look := State.clear_looks h
  change execMcst f s = _
  refine State.runSeq_fault h ?_
  simp only [State.targetCap_ok hc hx look hl, res_ok_bind, look.cur, look.subgroupHere, hg]
  rfl

variable (hg : s.subgroupHere s.cur (fld c.addr 15 0) = true)
include hg

theorem exec_mcst_unaligned (ho : targetOff c.addr % 8 ≠ 0) :
    exec (.mcst f) s = .next (s.faults .align (BitVec.ofNat 64 (targetOff c.addr)) .read) := by
  have look := State.clear_looks h
  change execMcst f s = _
  refine State.runSeq_fault h ?_
  simp only [State.targetCap_ok hc hx look hl, res_ok_bind, look.cur, look.subgroupHere, hg, bind_faultIf, Bool.not_true, Bool.false_eq_true, if_false,
    decide_eq_true_eq, if_pos ho]
  rfl

theorem exec_mcst_ok {b : Fin 32} (hb : f.b = .v b) (ho : targetOff c.addr % 8 = 0)
    (he : s1.enter s.cur [.mcst (BitVec.ofNat 16 (fld c.addr 15 0)) (targetOff c.addr) ((s.vs s.cur).getV b.val) (targetJidx c.addr)] = .ok t) :
    exec (.mcst f) s = .next (s.after t f.sp m) := by
  have look := State.clear_looks h
  change execMcst f s = _
  refine State.runSeq_ok h ?_
  simp only [State.targetCap_ok hc hx look hl, res_ok_bind, look.cur, look.subgroupHere, hg, bind_faultIf, Bool.not_true, Bool.false_eq_true, if_false,
    decide_eq_true_eq, ho, ne_eq, not_true_eq_false, hb, look.vs]
  exact he

end

/-- The geometries that CBINIT takes, with their places (17 R320). -/
def ringFits (base geo : Word) : Prop :=
  geo.toNat % 512 ∈ [2, 4, 8, 16, 32, 64, 128, 256] ∧ geo.toNat / 512 % 8 = 0 ∧ (geo.toNat / 4096 = 3 ∨ geo.toNat / 4096 = 7) ∧
    base.toNat % 2 ^ (geo.toNat / 4096) = 0 ∧
    base.toNat + geo.toNat % 512 * 2 ^ (geo.toNat / 4096) + (geo.toNat % 512 + 7) / 8 ≤ 262144

/-- The ring that CBINIT makes. -/
def ringMade (base geo : Word) : Ring := { base := base.toNat, n := fld geo 8 0, lsz := fld geo 14 12, p := 0, c := 0, p0 := 0, c0 := 0 }

/-- The bits of a geometry above its slot size are zero where the whole of it above its slot count is 3 or 7. -/
theorem fld_geo (h : geo.toNat / 4096 = 3 ∨ geo.toNat / 4096 = 7) : fld geo 14 12 = geo.toNat / 4096 ∧ fld geo 63 15 = 0 := by
  simp only [fld]
  omega

theorem ringFits_iff (base geo : Word) : (decide (fld geo 8 0 ∈ [2, 4, 8, 16, 32, 64, 128, 256]) &&
    decide (fld geo 14 12 = 3 ∨ fld geo 14 12 = 7) && decide (fld geo 11 9 = 0) &&
    decide (fld geo 63 15 = 0) && decide (base.toNat % 2 ^ fld geo 14 12 = 0) &&
    decide (base.toNat + (fld geo 8 0 * 2 ^ fld geo 14 12 + execCbinit.up (fld geo 8 0) 8) ≤ lsSize)) = true ↔ ringFits base geo := by
  have hslots : fld geo 8 0 = geo.toNat % 512 := by simp only [fld, Nat.pow_zero, Nat.div_one]; rfl
  have hzero : fld geo 11 9 = geo.toNat / 512 % 8 := by simp only [fld]; rfl
  have hsize : (fld geo 14 12 = 3 ∨ fld geo 14 12 = 7) ∧ fld geo 63 15 = 0 ↔ geo.toNat / 4096 = 3 ∨ geo.toNat / 4096 = 7 := by
    simp only [fld]
    omega
  simp only [Bool.and_eq_true, decide_eq_true_eq, ringFits, hslots, hzero, execCbinit.up, lsSize]
  constructor
  · rintro ⟨⟨⟨⟨⟨hn, hl⟩, hz⟩, hr⟩, hb⟩, hfit⟩
    have hlsz := hsize.1 ⟨hl, hr⟩
    rw [(fld_geo hlsz).1] at hb hfit
    exact ⟨hn, hz, hlsz, hb, by omega⟩
  · rintro ⟨hn, hz, hlsz, hb, hfit⟩
    obtain ⟨hl, hr⟩ := hsize.2 hlsz
    rw [(fld_geo hlsz).1] at hl ⊢
    exact ⟨⟨⟨⟨⟨hn, hl⟩, hz⟩, hr⟩, hb⟩, by omega⟩

/-- What CBINIT leaves of a virtual core: the ring, and its mark map cleared. -/
def VState.initRing (r : VState) (h : Nat) (base geo : Word) : VState :=
  (r.lsWrite (base.toNat + fld geo 8 0 * 2 ^ fld geo 14 12) (List.replicate (execCbinit.up (fld geo 8 0) 8) 0)).setRing h (ringMade base geo)

section
variable (h : s.Clear s.cur f.sp true false [f.a, f.b] [] m s1) (hbase : s1.src s.cur f.a = .ok (base, s2))
  (hgeo : s2.src s.cur f.b = .ok (geo, s3))
include h hbase hgeo

theorem exec_cbinit_unfit (hf : ¬ringFits base geo) : exec (.cbinit f) s = .next (s.faults .capBounds base .read) := by
  have hgood := Bool.eq_false_iff.2 (mt (ringFits_iff base geo).1 hf)
  change execCbinit f s = _
  refine State.runSeq_fault h ?_
  simp only [(State.clear_looks h).cur, hbase, hgeo, res_ok_bind, hgood]
  rfl

theorem exec_cbinit_ok (hf : ringFits base geo) :
    exec (.cbinit f) s = .next (s.after (s3.modVs s.cur fun r => r.initRing f.d.hnum base geo) f.sp m) := by
  have hgood := (ringFits_iff base geo).2 hf
  change execCbinit f s = _
  refine State.runSeq_ok h ?_
  simp only [(State.clear_looks h).cur, hbase, hgeo, res_ok_bind, hgood]
  rfl

end

/-- A write reaches no byte past the store. -/
theorem VState.lsWrite_get_beyond (r : VState) (a : Nat) (bs : List Byte) {x : Nat} (hx : 262144 ≤ x) :
    Table.get 0 (r.lsWrite a bs).ls x = Table.get 0 r.ls x := by
  induction bs generalizing r a with
  | nil => rfl
  | cons b bs ih =>
    rw [VState.lsWrite_cons, ih]
    split
    · exact Table.get_set_other 0 _ _ (by omega)
    · rfl

/-- The mark map of the new ring is clear. -/
theorem VState.initRing_get (r : VState) (h : Nat) (hf : ringFits base geo) (hwf : Table.wf 0 r.ls = true) (x : Nat) :
    Table.get 0 (r.initRing h base geo).ls x =
      if base.toNat + geo.toNat % 512 * 2 ^ (geo.toNat / 4096) ≤ x ∧
        x < base.toNat + geo.toNat % 512 * 2 ^ (geo.toNat / 4096) + (geo.toNat % 512 + 7) / 8 then 0
      else Table.get 0 r.ls x := by
  obtain ⟨-, -, hlsz, -, hfit⟩ := hf
  have hslots : fld geo 8 0 = geo.toNat % 512 := by simp only [fld, Nat.pow_zero, Nat.div_one]; rfl
  have hup : execCbinit.up (geo.toNat % 512) 8 = (geo.toNat % 512 + 7) / 8 := rfl
  simp only [VState.initRing, VState.setRing, hslots, (fld_geo hlsz).1, hup]
  by_cases hx : x < 262144
  · rw [VState.lsWrite_get _ _ hwf hx, List.length_replicate]
    split
    · simp
    · rfl
  · rw [VState.lsWrite_get_beyond _ _ _ (by omega), if_neg (by omega)]

theorem VState.initRing_frame (r : VState) (h : Nat) (base geo : Word) : r.initRing h base geo =
    { r with ls := (r.initRing h base geo).ls, lsdirty := (r.initRing h base geo).lsdirty, h := (r.initRing h base geo).h } := by
  simp only [VState.initRing, VState.setRing]
  rw [r.lsWrite_frame]

theorem VState.initRing_find (r : VState) (h : Nat) (hf : ringFits base geo) : Table.find? (r.initRing h base geo).h h =
    some { base := base.toNat, n := geo.toNat % 512, lsz := geo.toNat / 4096, p := 0, c := 0, p0 := 0, c0 := 0 } := by
  obtain ⟨-, -, hlsz, -⟩ := hf
  have hslots : fld geo 8 0 = geo.toNat % 512 := by simp only [fld, Nat.pow_zero, Nat.div_one]; rfl
  simp only [VState.initRing, VState.setRing, Table.find?_insert_same, ringMade, hslots, (fld_geo hlsz).1]

end

/-! ### The pointers of a ring (17 R321) -/

section
variable {s s1 s2 t : State} {m : Word} {f : FR} {g : Ring} {h n k : Nat} {w : Wait}

theorem State.ringOf_none (hf : Table.find? (s.vs k).h h = none) : s.ringOf k h n = fault .capTag 0 := by
  simp only [State.ringOf, hf]

theorem State.ringOf_some (hf : Table.find? (s.vs k).h h = some g) : s.ringOf k h n = if g.n < n then fault .capBounds 0 else .ok g := by
  simp only [State.ringOf, hf]

/-- A word that waits to be executed again waits without a place where a request is taken. -/
theorem State.runSeq_redo_run {srcs dsts : List Opnd} {body : State → Res State} {sp : Bool} (hw : w.redo = true)
    (hc : s.Clear k sp true false srcs dsts m s1) (hb : body s1 = .error (.wait w s2)) :
    ∃ t, s.runSeq k sp srcs dsts body = .next t ∧ (t.core k).run = .waiting w false := by
  refine ⟨_, State.runSeq_wait hc hb, ?_⟩
  generalize hu : (s1.heldBack s2 k w).withMask k m = u
  have hrun : ((u.waitOn k w (sp && !w.redo)).core k).run = .waiting w false := by
    rw [hw, Bool.not_true, Bool.and_false, State.waitOn, State.modCore_core_same]
  have hstop : (u.waitOn k w (sp && !w.redo)).stopAtWait k = u.waitOn k w (sp && !w.redo) := by
    simp only [State.stopAtWait, hrun]
  rw [hstop]
  exact hrun

/-- The state past an advance of a ring. -/
def State.ringMoved (s : State) (k h : Nat) (g : Ring) : State := s.modVs k fun r => r.setRing h g

section
variable (hc : s.Clear s.cur f.sp true false [] [] m s1)
include hc

theorem exec_advance_unset (hf : Table.find? (s.vs s.cur).h f.d.hnum = none) :
    exec (.cbadvp f) s = .next (s.faults .capTag 0 .read) ∧ exec (.cbadvc f) s = .next (s.faults .capTag 0 .read) := by
  have look := State.clear_looks hc
  have hring : ∀ n, s1.ringOf s.cur f.d.hnum n = fault .capTag 0 := fun n => State.ringOf_none (by rw [look.vs]; exact hf)
  constructor
  · change execCbadvp f s = _
    refine State.runSeq_fault hc ?_
    simp only [look.cur, hring]
    rfl
  · change execCbadvc f s = _
    refine State.runSeq_fault hc ?_
    simp only [look.cur, hring]
    rfl

variable (hf : Table.find? (s.vs s.cur).h f.d.hnum = some g)
include hf

theorem exec_advance_beyond (hn : g.n < f.d.hcount) :
    exec (.cbadvp f) s = .next (s.faults .capBounds 0 .read) ∧ exec (.cbadvc f) s = .next (s.faults .capBounds 0 .read) := by
  have look := State.clear_looks hc
  have hring : s1.ringOf s.cur f.d.hnum f.d.hcount = fault .capBounds 0 :=
    (State.ringOf_some (by rw [look.vs]; exact hf)).trans (if_pos hn)
  constructor
  · change execCbadvp f s = _
    refine State.runSeq_fault hc ?_
    simp only [look.cur, hring]
    rfl
  · change execCbadvc f s = _
    refine State.runSeq_fault hc ?_
    simp only [look.cur, hring]
    rfl

variable (hn : ¬g.n < f.d.hcount)
include hn

theorem ringOf_clear : s1.ringOf s.cur f.d.hnum f.d.hcount = .ok g :=
  (State.ringOf_some (by rw [(State.clear_looks hc).vs]; exact hf)).trans (if_neg hn)

theorem exec_cbadvp_moves (hr : f.d.hcount ≤ g.room) :
    exec (.cbadvp f) s = .next (s.after (s1.ringMoved s.cur f.d.hnum { g with p := g.p + BitVec.ofNat 32 f.d.hcount }) f.sp m) := by
  change execCbadvp f s = _
  refine State.runSeq_ok hc ?_
  simp only [(State.clear_looks hc).cur, ringOf_clear hc hf hn, res_ok_bind, if_neg (Nat.not_lt.2 hr)]
  rfl

theorem exec_cbadvp_waits (hr : g.room < f.d.hcount) : ∃ t, exec (.cbadvp f) s = .next t ∧ (t.core s.cur).run = .waiting .handle false := by
  change ∃ t, execCbadvp f s = .next t ∧ _
  refine State.runSeq_redo_run (s2 := s1) rfl hc ?_
  simp only [(State.clear_looks hc).cur, ringOf_clear hc hf hn, res_ok_bind, if_pos hr]
  rfl

theorem exec_cbadvc_moves (hr : f.d.hcount ≤ g.filled) :
    exec (.cbadvc f) s = .next (s.after (s1.ringMoved s.cur f.d.hnum { g with c := g.c + BitVec.ofNat 32 f.d.hcount }) f.sp m) := by
  change execCbadvc f s = _
  refine State.runSeq_ok hc ?_
  simp only [(State.clear_looks hc).cur, ringOf_clear hc hf hn, res_ok_bind, if_neg (Nat.not_lt.2 hr)]
  rfl

theorem exec_cbadvc_waits (hr : g.filled < f.d.hcount) : ∃ t, exec (.cbadvc f) s = .next t ∧ (t.core s.cur).run = .waiting .handle false := by
  change ∃ t, execCbadvc f s = .next t ∧ _
  refine State.runSeq_redo_run (s2 := s1) rfl hc ?_
  simp only [(State.clear_looks hc).cur, ringOf_clear hc hf hn, res_ok_bind, if_pos hr]
  rfl

end

section
variable (hc : s.Clear s.cur f.sp true false [] [f.d] m s1)
include hc

theorem exec_cbcnt_unset (hf : Table.find? (s.vs s.cur).h f.a.hnum = none) : exec (.cbcnt f) s = .next (s.faults .capTag 0 .read) := by
  have look := State.clear_looks hc
  have hring : s1.ringOf s.cur f.a.hnum 0 = fault .capTag 0 := State.ringOf_none (by rw [look.vs]; exact hf)
  change execCbcnt f s = _
  refine State.runSeq_fault hc ?_
  simp only [look.cur, hring]
  rfl

/-- The counts of a ring as they stand have no bits beyond their fields. -/
theorem exec_cbcnt_ok (hf : Table.find? (s.vs s.cur).h f.a.hnum = some g) (hn : g.n ≤ 256) (hfilled : g.filled ≤ g.n)
    (hput : s1.put s.cur f.d (BitVec.ofNat 64 (g.filled + 2 ^ 16 * g.room + 2 ^ 32 * (g.n - 1) + 2 ^ 41 * g.lsz)) = .ok t) :
    exec (.cbcnt f) s = .next (s.after t f.sp m) := by
  have look := State.clear_looks hc
  have hring : s1.ringOf s.cur f.a.hnum 0 = .ok g := (State.ringOf_some (by rw [look.vs]; exact hf)).trans (if_neg (Nat.not_lt_zero _))
  have hroom : g.room ≤ 256 := (Nat.sub_le _ _).trans hn
  have hcount : g.filled % 65536 + g.room % 65536 * 2 ^ 16 + (g.n - 1) * 2 ^ 32 + g.lsz * 2 ^ 41 =
      g.filled + 2 ^ 16 * g.room + 2 ^ 32 * (g.n - 1) + 2 ^ 41 * g.lsz := by omega
  change execCbcnt f s = _
  refine State.runSeq_ok hc ?_
  simp only [look.cur, hring, res_ok_bind, hcount]
  exact hput

end

end

theorem mcstAndRings : Claims.McstAndRings := by
  unfold Claims.McstAndRings
  intro f s s1 m r
  refine ⟨fun b hb h => ?_, fun h n hd => ⟨fun base geo s2 s3 hc hbase hgeo => ?_, fun hc => ?_⟩, fun h n ha hc => ?_⟩
  · intro c a spec lw lh x y g
    have hs : fld c.addr 15 0 = spec := by simp only [fld, Nat.pow_zero, Nat.div_one]; rfl
    have hiff := s.subgroupHere_iff (spec := spec) (Nat.mod_lt _ (by decide))
    split
    · next x hx => exact exec_mcst_fault h rfl hx
    · next hx =>
      obtain ⟨l, hl⟩ := targetFault_none_sendLaunch hx
      split
      · next hg => exact exec_mcst_apart h rfl hx hl (Bool.eq_false_iff.2 fun ht => hg (hiff.1 (hs ▸ ht)))
      · next hg =>
        have hg : s.subgroupHere s.cur (fld c.addr 15 0) = true := hs.symm ▸ hiff.2 (not_not.1 hg)
        split
        · next ho => exact exec_mcst_unaligned h rfl hx hl hg ho
        · next ho => exact fun t he => exec_mcst_ok h rfl hx hl hg hb (not_not.1 ho) (by rw [hs]; exact he)
  · intro slots lsz
    have hnum : f.d.hnum = h.val := by rw [hd]; rfl
    split
    · next hf =>
      have hf : ringFits base geo := hf
      refine ⟨_, exec_cbinit_ok hc hbase hgeo hf, VState.initRing_frame _ _ _ _, ?_, fun hwf x => VState.initRing_get _ _ hf hwf x⟩
      rw [hnum]
      exact VState.initRing_find _ _ hf
    · next hf => exact exec_cbinit_unfit hc hbase hgeo hf
  · have hnum : f.d.hnum = h.val := by rw [hd]; rfl
    have hcount : f.d.hcount = if n.val = 0 then 32 else n.val := by rw [hd]; rfl
    have hmoved : ∀ g, s1.ringMoved s.cur f.d.hnum g = s1.setCore s.cur { s1.core s.cur with vs := { r with h := Table.insert r.h h.val g } } := by
      intro g
      have hvs : (s1.core s.cur).vs = r := (State.clear_looks hc).core_vs s.cur
      rw [State.ringMoved, State.modVs, State.modCore, hvs, hnum]
      rfl
    split
    · next hf => exact exec_advance_unset hc (hnum.symm ▸ hf)
    · next g hf =>
      have hf : Table.find? (s.vs s.cur).h f.d.hnum = some g := hnum.symm ▸ hf
      intro c moved
      split
      · next hn => exact exec_advance_beyond hc hf (hcount.symm ▸ hn)
      · next hn =>
        have hn : ¬g.n < f.d.hcount := hcount.symm ▸ hn
        refine ⟨fun hr => ?_, fun hr => exec_cbadvp_waits hc hf hn (hcount.symm ▸ hr), fun hr => ?_,
          fun hr => exec_cbadvc_waits hc hf hn (hcount.symm ▸ hr)⟩
        · rw [exec_cbadvp_moves hc hf hn (hcount.symm ▸ hr), hmoved, hcount]
        · rw [exec_cbadvc_moves hc hf hn (hcount.symm ▸ hr), hmoved, hcount]
  · have hnum : f.a.hnum = h.val := by rw [ha]; rfl
    split
    · next hf => exact exec_cbcnt_unset hc (hnum.symm ▸ hf)
    · next g hf => exact fun _ hn hfilled t hput => exec_cbcnt_ok hc (hnum.symm ▸ hf) hn hfilled hput

/-! ### Control words (17 R322, 03 R65) -/

/-- A control word that is the end of a stream or a program's own (R65). -/
def knownWord (w : Word) : Prop := w.toNat / 2 ^ 56 = 1 ∨ 128 ≤ w.toNat / 2 ^ 56

theorem cwOk_iff (w : Word) : cwOk w = true ↔ knownWord w := by
  have hfld : fld w 63 56 = w.toNat / 2 ^ 56 := by
    simp only [fld]
    omega
  simp only [cwOk, hfld, decide_eq_true_eq, knownWord]

section
variable {s s1 s2 t : State} {m w : Word} {f : FR} {g : Ring} {k : Nat} {o : Opnd}

section Qctl
variable (hc : s.Clear s.cur f.sp true false [f.a] [] m s1) (ha : s1.src s.cur f.a = .ok (w, s2))
include hc ha

theorem exec_qctl_port_unknown {i : Fin 8} (hd : f.d = .port i) (hw : ¬knownWord w) : exec (.qctl f) s = .next (s.faults .stream 0 .read) := by
  have hok := Bool.eq_false_iff.2 (mt (cwOk_iff w).1 hw)
  change execQctl f s = _
  refine State.runSeq_fault hc ?_
  simp only [(State.clear_looks hc).cur, ha, res_ok_bind, hd, hok]
  rfl

theorem exec_qctl_port {i : Fin 8} (hd : f.d = .port i) (hw : knownWord w)
    (hs : s2.sendUnit s.cur i.val { data := BitVec.ofNat 1024 w.toNat, wide := false, ctl := true } = .ok t) :
    exec (.qctl f) s = .next (s.after t f.sp m) := by
  have hok := (cwOk_iff w).2 hw
  rw [BitVec.ofNat_toNat] at hs
  change execQctl f s = _
  refine State.runSeq_ok hc ?_
  simp only [(State.clear_looks hc).cur, ha, res_ok_bind, hd, hok]
  exact hs

variable {h : Fin 16} {n : Fin 32} (hd : f.d = .ring h n) (hf : Table.find? (s2.vs s.cur).h h.val = some g) (hn : countOf n ≤ g.n)
include hd hf hn

theorem exec_qctl_ring_unknown (hw : ¬knownWord w) : exec (.qctl f) s = .next (s.faults .stream 0 .read) := by
  have hok := Bool.eq_false_iff.2 (mt (cwOk_iff w).1 hw)
  change execQctl f s = _
  refine State.runSeq_fault hc ?_
  simp only [(State.clear_looks hc).cur, ha, res_ok_bind, hd, State.ringOf_some hf, if_neg (Nat.not_lt.2 hn), hok]
  rfl

theorem exec_qctl_ring (hw : knownWord w) (hs : s2.writeRing s.cur h.val (countOf n) (bytesOf (2 ^ g.lsz) w.toNat) true = .ok t) :
    exec (.qctl f) s = .next (s.after t f.sp m) := by
  have hok := (cwOk_iff w).2 hw
  change execQctl f s = _
  refine State.runSeq_ok hc ?_
  simp only [(State.clear_looks hc).cur, ha, res_ok_bind, hd, State.ringOf_some hf, if_neg (Nat.not_lt.2 hn), hok]
  exact hs

end Qctl

/-! ### What stands at a source -/

/-- The count, the kind and the width of what stands at a source that can be named. -/
theorem State.headOf_eq (h : Claims.sourceOk s k o) :
    s.headOf k o = .ok ((Claims.headAt s k o).1, (Claims.headAt s k o).2.1, (Claims.headAt s k o).2.2.1) := by
  cases o with
  | port i =>
    by_cases hi : i.val = 0 <;> simp [State.headOf, State.ctlAt, Claims.headAt, hi]
  | ring r n =>
    obtain ⟨g, hf, hn⟩ := h
    have hring : s.ringOf k r.val (countOf n) = .ok g := (State.ringOf_some hf).trans (if_neg (Nat.not_lt.2 hn))
    simp only [State.headOf, hring, Claims.headAt, hf]
    rfl
  | _ => cases h

theorem State.headWord_eq (s : State) (k : Nat) (o : Opnd) : s.headWord k o = (Claims.headAt s k o).2.2.2.1 := by
  cases o with
  | port i =>
    by_cases hi : i.val = 0 <;> simp [State.headWord, Claims.headAt, hi]
  | ring r n =>
    simp only [State.headWord, Claims.headAt, State.vs]
    cases Table.find? (s.core k).vs.h r.val <;> rfl
  | _ => rfl

theorem State.dropHead_eq (s : State) (k : Nat) (o : Opnd) : s.dropHead k o = (Claims.headAt s k o).2.2.2.2 := by
  cases o with
  | port i =>
    by_cases hi : i.val = 0 <;> simp [State.dropHead, Claims.headAt, hi, State.modCore]
  | ring r n =>
    simp only [State.dropHead, Claims.headAt, State.vs]
    cases Table.find? (s.core k).vs.h r.val <;> rfl
  | _ => rfl

/-- Naming a source changes nothing that stands there. -/
theorem State.named_headOf (s : State) (k : Nat) (o : Opnd) : (s.named k o).headOf k o = s.headOf k o := by
  have hcore : (s.named k o).core k = { s.core k with stream := o } := State.modCore_core_same s k _
  cases o with
  | port i =>
    simp only [State.headOf, State.ctlAt, hcore]
    rfl
  | ring r n => simp only [State.headOf, State.ringOf, State.vs, hcore]
  | _ => rfl

theorem State.named_headWord (s : State) (k : Nat) (o : Opnd) : (s.named k o).headWord k o = s.headWord k o := by
  have hcore : (s.named k o).core k = { s.core k with stream := o } := State.modCore_core_same s k _
  cases o with
  | port i =>
    simp only [State.headWord, hcore]
    rfl
  | ring r n => simp only [State.headWord, State.vs, hcore]
  | _ => rfl

theorem State.named_sourceOk (h : Claims.sourceOk s k o) : Claims.sourceOk (s.named k o) k o := by
  have hcore : (s.named k o).core k = { s.core k with stream := o } := State.modCore_core_same s k _
  cases o with
  | ring r n => simpa only [Claims.sourceOk, hcore] using h
  | _ => exact h

theorem exec_qtest_ok (hc : s.Clear s.cur f.sp true false [] [f.d] m s1) {n : Nat} {ctl wide : Bool} (hh : s1.headOf s.cur f.a = .ok (n, ctl, wide))
    (hp : (s1.named s.cur f.a).put s.cur f.d
      (BitVec.ofNat 64 ((if n = 0 then 0 else 1) + (if ctl then 2 else 0) + (if wide then 4 else 0) + 256 * min n 255)) = .ok t) :
    exec (.qtest f) s = .next (s.after t f.sp m) := by
  have hv : (decide (0 < n)).toNat + 2 * ctl.toNat + 4 * wide.toNat + 256 * min n 255 =
      (if n = 0 then 0 else 1) + (if ctl then 2 else 0) + (if wide then 4 else 0) + 256 * min n 255 := by
    have hn : (decide (0 < n)).toNat = if n = 0 then 0 else 1 := by
      by_cases h0 : n = 0
      · simp [h0]
      · simp [h0, Nat.pos_of_ne_zero h0]
    rw [hn]
    cases ctl <;> cases wide <;> rfl
  change execQtest f s = _
  refine State.runSeq_ok hc ?_
  simp only [(State.clear_looks hc).cur, hh, res_ok_bind, hv]
  exact hp

/-! ### QDRAIN, a unit at a time -/

section Element
variable {srcs dsts : List Opnd} {body : State → Res (State × Bool)} {sp between : Bool} {wt : Wait}

theorem Core.queuesBad_of_not_needEmpty {c : Core} {b : Bool} (h : c.queuesBad b srcs dsts = false) : c.queuesBad false srcs dsts = false := by
  cases b with
  | false => exact h
  | true =>
    simp only [Core.queuesBad, Bool.or_eq_false_iff] at h ⊢
    exact ⟨h.1, rfl⟩

variable (hc : s.Clear k sp true false srcs dsts m s1)
include hc

theorem State.runElement_fault {x : FCode} {a : Word} (hb : body s1 = .error (.fault x a)) :
    s.runElement k sp between srcs dsts body = .next (s.takeFault k x a (s.core k).unitAt .read) := by
  obtain ⟨hq, hp, hm⟩ := hc
  simp [State.runElement, Core.queuesBad_of_not_needEmpty hq, hp, hm, hb, firstFault]

theorem State.runElement_wait (hb : body s1 = .error (.wait wt s2)) :
    s.runElement k sp between srcs dsts body = .next ((s1.heldBack s2 k wt).waitOn k wt between) := by
  obtain ⟨hq, hp, hm⟩ := hc
  simp [State.runElement, Core.queuesBad_of_not_needEmpty hq, hp, hm, hb]

/-- The last element, its word's queues read where the word has SP. -/
theorem State.runElement_last (hb : body s1 = .ok (s2, true)) (hl : sp = false ∨ ((s2.core k).lq = [] ∧ (s2.core k).sq = [])) :
    s.runElement k sp between srcs dsts body = .next (s2.finished k sp m ((s.core k).fallThrough sp)) := by
  obtain ⟨hq, hp, hm⟩ := hc
  have hleft : (sp && (!(s2.core k).lq.isEmpty || !(s2.core k).sq.isEmpty)) = false := by
    rcases hl with hl | ⟨hlq, hsq⟩
    · rw [hl, Bool.false_and]
    · rw [hlq, hsq]
      exact Bool.and_false _
  simp only [State.runElement, Core.queuesBad_of_not_needEmpty hq, hp, hm, hb, hleft, State.finished]
  cases sp <;> rfl

end Element

section Qdrain
variable (hc : s.Clear s.cur f.sp true false [] [] m s1) {n : Nat} {ctl wide : Bool} (hh : s1.headOf s.cur f.a = .ok (n, ctl, wide))
include hc hh

theorem exec_qdrain_waits (hn : n = 0) : ∃ t wt, exec (.qdrain f) s = .next t ∧ (t.core s.cur).run = .waiting wt false := by
  have hbody : execQdrain f s = .next ((s1.heldBack s1 s.cur (match f.a with | .ring .. => .handle | _ => .port)).waitOn s.cur
      (match f.a with | .ring .. => .handle | _ => .port) false) := by
    refine State.runElement_wait hc ?_
    simp only [(State.clear_looks hc).cur, hh, res_ok_bind, hn, if_true]
    rfl
  exact ⟨_, _, hbody, by rw [State.waitOn, State.modCore_core_same]⟩

theorem exec_qdrain_discards (hn : 0 < n) (hctl : ctl = false) :
    exec (.qdrain f) s = .next ((s1.named s.cur f.a).dropHead s.cur f.a) := by
  change execQdrain f s = _
  refine State.runElement_step hc (Core.queuesBad_of_not_needEmpty hc.1) ?_ (Bool.false_and _)
  simp only [(State.clear_looks hc).cur, hh, res_ok_bind, if_neg hn.ne', hctl]
  rfl

theorem exec_qdrain_unknown (hn : 0 < n) (hctl : ctl = true) (hw : ¬knownWord (s1.headWord s.cur f.a)) :
    exec (.qdrain f) s = .next (s.faults .stream 0 .read) := by
  have hok := Bool.eq_false_iff.2 (mt (cwOk_iff _).1 hw)
  change execQdrain f s = _
  refine State.runElement_fault hc ?_
  simp only [(State.clear_looks hc).cur, hh, res_ok_bind, if_neg hn.ne', hctl, hok]
  rfl

/-- The control word at the head, taken. -/
theorem exec_qdrain_takes (hn : 0 < n) (hctl : ctl = true) (hw : knownWord (s1.headWord s.cur f.a))
    (hl : f.sp = false ∨ ((((s1.named s.cur f.a).dropHead s.cur f.a).core s.cur).lq = [] ∧
      (((s1.named s.cur f.a).dropHead s.cur f.a).core s.cur).sq = [])) :
    exec (.qdrain f) s = .next (s.after (((((s1.named s.cur f.a).dropHead s.cur f.a)).setCap s.cur f.d (XReg.plain (s1.headWord s.cur f.a))).shiftL s.cur
      (s1.headWord s.cur f.a)) f.sp m) := by
  have hok := (cwOk_iff _).2 hw
  have hqueues (u : State) (c : XReg) (v : Word) : ((((u.setCap s.cur f.d c).shiftL s.cur v).core s.cur).lq = (u.core s.cur).lq) ∧
      ((((u.setCap s.cur f.d c).shiftL s.cur v).core s.cur).sq = (u.core s.cur).sq) := by
    simp only [State.shiftL, State.modVs_core_same, State.setCap]
    cases f.d with
    | x i => simp only [State.modVs_core_same, and_self]
    | _ => exact ⟨rfl, rfl⟩
  change execQdrain f s = _
  refine State.runElement_last hc ?_ (hl.imp_right fun hl => ?_)
  · simp only [(State.clear_looks hc).cur, hh, res_ok_bind, if_neg hn.ne', hctl, hok]
    rfl
  · rw [(hqueues _ _ _).1, (hqueues _ _ _).2]
    exact hl

end Qdrain

end

theorem controlWords : Claims.ControlWords := by
  unfold Claims.ControlWords
  intro f s s1 m known
  refine ⟨fun i w s2 hd hc ha => ?_, fun h n w s2 g hd hc ha hf hn => ?_, fun hc hok => ?_, fun hc hok => ?_⟩
  · exact ⟨exec_qctl_port_unknown hc ha hd, fun t hw hs => exec_qctl_port hc ha hd hw hs⟩
  · exact ⟨exec_qctl_ring_unknown hc ha hd hf hn, fun t hw hs => exec_qctl_ring hc ha hd hf hn hw hs⟩
  · exact fun t hp => exec_qtest_ok hc (State.headOf_eq hok) hp
  · have hh := State.headOf_eq (State.named_sourceOk hok)
    rw [State.named_headOf] at hh
    have hword := (s1.named_headWord s.cur f.a).symm.trans (State.headWord_eq _ _ _)
    have hdrop := (s1.named s.cur f.a).dropHead_eq s.cur f.a
    refine ⟨exec_qdrain_waits hc hh, fun hn hctl => ?_, fun hn hctl hw hl => ?_, fun hn hctl hw => ?_⟩
    · rw [exec_qdrain_discards hc hh hn hctl, hdrop]
      rfl
    · rw [exec_qdrain_takes hc hh hn hctl (hword.symm ▸ hw) (hdrop.symm ▸ hl), hdrop, hword]
      rfl
    · exact exec_qdrain_unknown hc hh hn hctl (hword.symm ▸ hw)

/-- Settles O48: control words by what stands at their source, MCST by its checks, the rings by their pointers. -/
theorem controlAndLocalMessages : Obligations.ControlAndLocalMessages := ⟨controlWords, mcstAndRings⟩

end Sys2Proof.Machine
end

section
/-! SUPPORT. The phase buffer, safe points and boundaries (O45, 17 R302, 21 R405, 03 R67-R68, 15 R258). -/

namespace Sys2Proof.Machine

/-! ### A matching core (09 R162) -/

section
variable {c d : Core}

/-- Actors have matched: reservations of inputs, and the firings that wait, may differ. -/
def Core.Matches (c d : Core) : Prop :=
  d = { c with vs := d.vs, parked := d.parked, inbox := d.inbox, matched := d.matched, ready := d.ready }

theorem Core.Matches.trans {e : Core} (h : c.Matches d) (g : d.Matches e) : c.Matches e := by
  rw [Core.Matches, g, h]

theorem Core.setHome_matches (c : Core) (v : VState) : c.Matches (c.setHome v) := by
  unfold Core.setHome
  split <;> rfl

theorem Core.reserve_matches (c : Core) (l : List Input) : c.Matches (c.reserve l) := by
  have h := c.setHome_matches { c.home with
    joins := c.home.joins.map (fun j => if Input.join j.1 ∈ l then (j.1, { j.2 with taken := true }) else j) }
  rw [Core.Matches, Core.reserve, h]

theorem Core.matchAll_matches (cls : Nat) (coord : Word) (arg : XReg) (ks : List (Nat × Kernel)) (n : Nat) (c : Core) :
    c.Matches (Core.matchAll cls coord arg ks n c) := by
  induction n generalizing c with
  | zero => rfl
  | succ n ih =>
    simp only [Core.matchAll]
    split
    · next h =>
      obtain ⟨u, f, rfl⟩ := Core.matchOne_eq h
      have enqueued : (c.reserve u).Matches (Core.enqueue (c.reserve u) f) := rfl
      exact ((c.reserve_matches u).trans enqueued).trans (ih _)
    · rfl

theorem State.matchActors_core (s : State) (k : Nat) : (s.core k).Matches ((s.matchActors k).core k) := by
  simp only [State.matchActors]
  split
  · rfl
  · rw [State.setCore_core_same]
    exact (Core.matchAll_matches _ _ _ _ _ _).trans rfl

theorem State.matchActors_core_other (s : State) {j k : Nat} (h : j ≠ k) : (s.matchActors k).core j = s.core j := by
  simp only [State.matchActors]
  split
  · rfl
  · exact State.setCore_core_other s _ h

theorem State.matchActors_frame (s : State) (k : Nat) : s.matchActors k = { s with cores := (s.matchActors k).cores } := by
  simp only [State.matchActors]
  split <;> rfl

end

/-! ### What XIMM and ORD have left pending (15 R258, R260)

No publication changes what XIMM and ORD have left pending: a word under ORD finds its scope again behind the boundary that it has made. -/

/-- What XIMM and ORD have left pending at each core. -/
def State.prefixed (s : State) (p : Nat → Option Pfx) : Prop := ∀ k, (s.core k).pfx = p k

section
variable {s t : State} {p : Nat → Option Pfx} {α : Type}

namespace State.prefixed

theorem of_cores (h : s.prefixed p) (hc : t.cores = s.cores) : t.prefixed p := fun k => by
  rw [State.core, hc]
  exact h k

theorem ite {c : Prop} [Decidable c] (hs : s.prefixed p) (ht : t.prefixed p) : (if c then s else t).prefixed p := by
  split
  · exact hs
  · exact ht

theorem getD {o : Option State} (h : s.prefixed p) (ho : ∀ t, o = some t → t.prefixed p) : (o.getD s).prefixed p := by
  cases o with
  | none => exact h
  | some t => exact ho t rfl

theorem foldl {f : State → α → State} {l : List α} (h : s.prefixed p) (hf : ∀ s a, s.prefixed p → (f s a).prefixed p) :
    (l.foldl f s).prefixed p := by
  induction l generalizing s with
  | nil => exact h
  | cons a l ih => exact ih (hf s a h)

theorem setCore {k : Nat} {c : Core} (h : s.prefixed p) (hc : c.pfx = (s.core k).pfx) : (s.setCore k c).prefixed p := fun j => by
  by_cases hj : j = k
  · subst hj
    rw [State.setCore_core_same, hc]
    exact h j
  · rw [State.setCore_core_other s c hj]
    exact h j

theorem modCore {k : Nat} {f : Core → Core} (h : s.prefixed p) (hf : ∀ c : Core, (f c).pfx = c.pfx) : (s.modCore k f).prefixed p := h.setCore (hf _)

theorem modVs {k : Nat} {f : VState → VState} (h : s.prefixed p) : (s.modVs k f).prefixed p := h.modCore fun _ => rfl

theorem mapCores {g : Nat × Core → Nat × Core} (h : s.prefixed p) (hk : ∀ q, (g q).1 = q.1) (hp : ∀ q : Nat × Core, (g q).2.pfx = q.2.pfx) :
    ({ s with cores := s.cores.map g } : State).prefixed p := fun k => by
  have hs := h k
  rw [State.core, Table.get_eq_find?] at hs
  rw [s.mapCores_core g hk, ← hs]
  cases Table.find? s.cores k with
  | none => rfl
  | some c => exact hp (k, c)

/-! Memory and rings -/

theorem setCtx {n : Nat} {x : Ctx} (h : s.prefixed p) : (s.setCtx n x).prefixed p := h.of_cores rfl

theorem modCtx {n : Nat} {f : Ctx → Ctx} (h : s.prefixed p) : (s.modCtx n f).prefixed p := h.setCtx

theorem setCluster {n : Nat} {x : Cluster} (h : s.prefixed p) : (s.setCluster n x).prefixed p := h.of_cores rfl

theorem setEngine {n : Nat} {x : CopyEngine} (h : s.prefixed p) : (s.setEngine n x).prefixed p := h.of_cores rfl

theorem sample {ctx src v} (h : s.prefixed p) : (s.sample ctx src v).prefixed p := h.setCtx.ite h

theorem widen {k} (h : s.prefixed p) : (s.widen k).prefixed p := by
  simp only [State.widen]
  split
  · exact h.of_cores rfl
  · exact h

theorem publish {narrow tag a bs} (h : s.prefixed p) : (s.publish narrow tag a bs).prefixed p :=
  h.foldl fun s _ hs => hs.of_cores (s.publishPiece_memoryOnly narrow tag _ _).cores

theorem writeWord {a w} (h : s.prefixed p) : (s.writeWord a w).prefixed p := h.publish

theorem writeVa {ctx va ws} (h : s.prefixed p) : s.writeVa ctx va ws = some t → t.prefixed p := by
  induction ws generalizing s va with
  | nil => rintro ⟨⟩; exact h
  | cons w ws ih =>
    simp only [State.writeVa]
    split
    · exact ih h.writeWord
    · rintro ⟨⟩

theorem ringWrite {ctx k rec} (h : s.prefixed p) : s.ringWrite ctx k rec = some t → t.prefixed p := by
  simp only [State.ringWrite]
  split
  · rintro ⟨⟩
  · split
    · rintro ⟨⟩
    · split
      · rintro ⟨⟩
      · rintro ⟨⟩
        exact ((h.writeVa ‹_›).writeVa ‹_›).modCtx

theorem ringPost {ctx k rec} (h : s.prefixed p) : (s.ringPost ctx k rec).prefixed p :=
  (h.modCtx.getD fun _ => h.ringWrite).ite h.modCtx

theorem freeWorld {ctx} (h : s.prefixed p) : (s.freeWorld ctx).prefixed p := by
  refine (h.modCtx (n := ctx) (f := fun x => { x with stopper := none })).mapCores (fun q => ?_) fun q => ?_
  · split <;> rfl
  · split <;> rfl

theorem haltCtx {ctx cause} (h : s.prefixed p) : (s.haltCtx ctx cause).prefixed p := by
  simp only [State.haltCtx]
  split
  · exact h.freeWorld.modCtx.ringPost
  · exact h.freeWorld.modCtx.ringPost
  · exact h

theorem ctxEvent {ctx e} (h : s.prefixed p) : (s.ctxEvent ctx e).prefixed p := h.modCtx

theorem deadLetter {ctx payload target hidx reason} (h : s.prefixed p) : (s.deadLetter ctx payload target hidx reason).2.prefixed p :=
  h.ringPost.ite h.ringPost.haltCtx

theorem emptyHandler {ctx payload target hidx coord x3 launch} (h : s.prefixed p) :
    (s.emptyHandler ctx payload target hidx coord x3 launch).prefixed p := h.deadLetter.ctxEvent

/-! Handles -/

theorem filterTlb {keep : TlbEntry → Bool} (h : s.prefixed p) : ({ s with
    cores := s.cores.map fun q => (q.1, { q.2 with tlb := q.2.tlb.filter keep, latch := q.2.latch.filter keep }),
    clusters := s.clusters.map fun q => (q.1, { q.2 with tlb := q.2.tlb.filter keep }) } : State).prefixed p := by
  have filtered := h.mapCores (g := fun q => (q.1, { q.2 with tlb := q.2.tlb.filter keep, latch := q.2.latch.filter keep })) (fun _ => rfl) fun _ => rfl
  exact filtered.of_cores rfl

theorem dropTlb {ctx lo hi} (h : s.prefixed p) : (s.dropTlb ctx lo hi).prefixed p := h.filterTlb

theorem fenceCode {lo hi} (h : s.prefixed p) : (s.fenceCode lo hi).prefixed p := h.of_cores rfl

theorem freeFrame {a} (h : s.prefixed p) : (s.freeFrame a).prefixed p := h.of_cores rfl

theorem unmapPage {ctx va} (h : s.prefixed p) : (s.unmapPage ctx va).prefixed p := by
  simp only [State.unmapPage]
  split
  · exact h.ite h.writeWord.fenceCode.freeFrame.dropTlb
  · exact h

theorem unmapPages {ctx l} (h : s.prefixed p) : (s.unmapPages ctx l).prefixed p := by
  induction l generalizing s with
  | nil => exact h
  | cons va l ih => exact ih h.unmapPage

theorem settleHandle {ctx i} (h : s.prefixed p) : (s.settleHandle ctx i).prefixed p := (h.unmapPages.ite h).modCtx.ite h

theorem retireHandle {ctx i} (h : s.prefixed p) : (s.retireHandle ctx i).prefixed p := h.modCtx.settleHandle.ite h

theorem dropRunning {ctx i} (h : s.prefixed p) : (s.dropRunning ctx i).prefixed p := h.modCtx.settleHandle

/-! Matching and poisoning -/

theorem matchActors {k} (h : s.prefixed p) : (s.matchActors k).prefixed p := fun j => by
  by_cases hj : j = k
  · subst hj
    rw [s.matchActors_core j]
    exact h j
  · rw [s.matchActors_core_other hj]
    exact h j

theorem loseJoin {k j} (h : s.prefixed p) : (s.loseJoin k j).prefixed p :=
  (h.emptyHandler.modCore fun c => by rw [c.setHome_matches]).ite h

theorem joinsFired {k} (h : s.prefixed p) : (s.joinsFired k).prefixed p := (h.foldl fun _ _ hs => hs.loseJoin).matchActors

theorem poison {ctx covers} (h : s.prefixed p) : (s.poison ctx covers).prefixed p := by
  have poisoned := h.mapCores (g := fun q => if q.2.ctx = some ctx then
      (q.1, { q.2 with vs := { q.2.vs with joins := poisonAll covers q.2.vs.joins },
                       parked := q.2.parked.map fun v => { v with joins := poisonAll covers v.joins } }) else q)
    (fun q => by split <;> rfl) fun q => by split <;> rfl
  exact poisoned.modCtx.foldl fun _ _ hs => hs.joinsFired

/-! Sending -/

theorem sendWire {die carry pkg slots} (h : s.prefixed p) : s.sendWire die carry pkg slots = some t → t.prefixed p := by
  simp only [State.sendWire]
  split
  · rintro ⟨⟩
    exact h.of_cores rfl
  · split
    · rintro ⟨⟩
      exact h.of_cores rfl
    · rintro ⟨⟩

theorem peerEvent {ctx pkg coord dl launch} (h : s.prefixed p) : (s.peerEvent ctx pkg coord dl launch).prefixed p := h.ite h.modCtx.ctxEvent

theorem returned {ctx pkg payload target hidx maybe coord launch} (h : s.prefixed p) :
    (s.returned ctx pkg payload target hidx maybe coord launch).prefixed p := h.deadLetter.ite h.deadLetter.peerEvent.poison

theorem toRetired {ctx dst body sender} (h : s.prefixed p) : (s.toRetired ctx dst body sender).prefixed p := h.returned.ite h.emptyHandler

theorem sendBody {k ctx dst body} (h : s.prefixed p) : (s.sendBody k ctx dst body).prefixed p := by
  simp only [State.sendBody]
  split
  · exact h.of_cores rfl
  · exact h.of_cores rfl
  · exact h.toRetired
  · split
    · exact h.of_cores rfl
    · split
      · exact h.sendWire ‹_›
      · exact h.returned

theorem sendAll {k ctx body l} (h : s.prefixed p) : (s.sendAll k ctx body l).prefixed p := by
  induction l generalizing s with
  | nil => exact h
  | cons d l ih => exact ih h.sendBody

theorem eventLost {ctx src launch set e} (h : s.prefixed p) : (s.eventLost ctx src launch set e).prefixed p := h.deadLetter.ctxEvent.poison

theorem postEvent {die ctx src launch set e} (h : s.prefixed p) : (s.postEvent die ctx src launch set e).prefixed p := by
  simp only [State.postEvent]
  split
  · exact h.eventLost
  · split
    · exact h.of_cores rfl
    · split
      · exact h.sendWire ‹_›
      · exact h.returned

theorem sendEvent {k ctx set e} (h : s.prefixed p) : (s.sendEvent k ctx set e).prefixed p := h.postEvent

/-! Commands of the engines -/

theorem modWin {k ctx svc f} (h : s.prefixed p) : (s.modWin k ctx svc f).prefixed p := by
  simp only [State.modWin]
  split
  · split
    · exact h.modCore fun _ => rfl
    · exact h.modCtx
  · exact (h.modCore fun c => by rw [c.setHome_matches]).ite (h.modCore fun _ => rfl)

theorem cancelWake {k ctx v edge id desc} (h : s.prefixed p) : (s.cancelWake k ctx v edge id desc).prefixed p :=
  h.ite (h.sendBody.ite h.deadLetter.ctxEvent)

/-! Entries -/

theorem applyJinit {k j scope count kernel} (h : s.prefixed p) : (s.applyJinit k j scope count kernel).prefixed p := by
  refine (h.modCore fun c => ?_).modVs
  split <;> rfl

theorem setHandler {ctx i w} (h : s.prefixed p) : (s.setHandler ctx i w).prefixed p := by
  simp only [State.setHandler]
  split
  · exact h
  · exact h.of_cores rfl

theorem applyFire {k ctx r regs} (h : s.prefixed p) : (s.applyFire k ctx r regs).prefixed p := by
  simp only [State.applyFire]
  split
  · exact h.sample.sample.modCore fun _ => rfl
  · exact h.of_cores rfl

theorem applyEntry {k narrow e} (h : s.prefixed p) : (s.applyEntry k narrow e).prefixed p := by
  simp only [State.applyEntry]
  split
  · exact h.publish
  · exact h.publish
  · exact h.publish
  · exact h.setHandler
  · exact h.applyJinit
  · exact (h.modCtx.ite h).dropRunning
  · exact (h.modCtx.retireHandle.ite h.modCtx).ite h
  · exact h.sendBody
  · exact h.sendAll
  · exact h.applyFire
  · exact h.getD fun _ => h.ringWrite
  · exact h.sendBody
  · exact h.sendBody
  · exact h.sendAll
  · exact h.sendBody
  · exact h.sendEvent
  · exact h.modWin.cancelWake.ite h.setCluster.modWin
  · exact h.setEngine.modWin

theorem applyEntries {k narrow l} (h : s.prefixed p) : (s.applyEntries k narrow l).prefixed p := by
  induction l generalizing s with
  | nil => exact h
  | cons e l ih => exact ih h.applyEntry

theorem applyUpTo {k narrow l} (h : s.prefixed p) : (s.applyUpTo k narrow l).1.prefixed p := by
  induction l generalizing s with
  | nil => exact h
  | cons e l ih =>
    simp only [State.applyUpTo]
    split
    · exact h
    · exact ih h.applyEntry

theorem lightFire {k cw} (h : s.prefixed p) : (s.lightFire k cw).prefixed p := by
  simp only [State.lightFire]
  split
  · exact h.modCore fun _ => rfl
  · exact h.emptyHandler

theorem lightFires {k l} (h : s.prefixed p) : (s.lightFires k l).prefixed p := by
  induction l generalizing s with
  | nil => exact h
  | cons w l ih => exact ih h.lightFire

end State.prefixed

/-! ### A boundary in its parts (21 R405) -/

/-- A boundary's entries published, up to the first that is held, with those that are left. -/
def State.published (s : State) (k : Nat) (scope : Option OScope) (buf : List Entry) : State × List Entry :=
  let s1 := s.sample (s.ctxOf k) 3 (BitVec.ofNat 64 ((s.core k).out + (buf.map Entry.cost).sum))
  (if (narrowTo k scope).isNone then s1.widen k else s1).applyUpTo k (narrowTo k scope) (inOrder buf)

/-- A new phase of core `k`. -/
def State.beginPhase (s : State) (k : Nat) : State := s.modCore k (fun c => { c with
  vs := c.vs.settleRings, buffer := [], out := 0, view := s.newView, taken := [], takenIb := [], light := [], made := [] })

/-- A boundary that is not held: its entries, its light handlers, a new phase, and what matches then. -/
theorem State.boundaryOver_eq {k : Nat} {scope : Option OScope} {buf : List Entry} (h : (s.published k scope buf).2 = []) :
    ∃ b : Bool, s.boundaryOver k scope buf =
      some (let u := ((s.published k scope buf).1.lightFires k (s.core k).light).beginPhase k; if b then u else u.matchActors k) := by
  refine ⟨decide ((s.core k).home.h.isEmpty ∨ (s.core k).launch.isNone), ?_⟩
  have hrest : (!(s.published k scope buf).2.isEmpty) = false := by rw [h]; rfl
  simp only [decide_eq_true_eq]
  exact if_neg (Bool.eq_false_iff.1 hrest)

theorem State.boundaryOver_some {k : Nat} {scope : Option OScope} {buf : List Entry} (h : s.boundaryOver k scope buf = some t) :
    ∃ b : Bool, t = let u := ((s.published k scope buf).1.lightFires k (s.core k).light).beginPhase k; if b then u else u.matchActors k := by
  by_cases hrest : (s.published k scope buf).2 = []
  · obtain ⟨b, hb⟩ := State.boundaryOver_eq hrest
    exact ⟨b, Option.some.inj (h.symm.trans hb)⟩
  · have hheld : (!(s.published k scope buf).2.isEmpty) = true := by simpa using hrest
    have hnone : s.boundaryOver k scope buf = none := if_pos hheld
    rw [hnone] at h
    cases h

/-- The boundary of a phase, in the one publication or the two that it makes. -/
theorem State.boundary_some {k : Nat} {scope : Option OScope} (h : s.boundary k scope = some t) : ∃ (u v : State) (sc : Option OScope) (buf : List Entry),
    (u = s ∨ (s.commit k).boundaryOver k none (s.core k).buffer = some u) ∧ u.boundaryOver k sc buf = some v ∧
      t = v.modCore k fun c => { c with hq := [] } := by
  simp only [State.boundary] at h
  split at h
  · obtain ⟨v, hv, rfl⟩ := Option.map_eq_some_iff.1 h
    exact ⟨s, v, scope, _, .inl rfl, hv, rfl⟩
  · obtain ⟨u, hu, hrec⟩ := Option.bind_eq_some_iff.1 h
    obtain ⟨v, hv, rfl⟩ := Option.map_eq_some_iff.1 hrec
    exact ⟨u, v, scope, _, .inr hu, hv, rfl⟩

theorem State.prefixed.boundaryOver {k scope buf} (h : s.prefixed p) (hb : s.boundaryOver k scope buf = some t) : t.prefixed p := by
  have hpub : (s.published k scope buf).1.prefixed p := (h.sample.widen.ite h.sample).applyUpTo
  have hbegun : (((s.published k scope buf).1.lightFires k (s.core k).light).beginPhase k).prefixed p := hpub.lightFires.modCore fun _ => rfl
  obtain ⟨b, rfl⟩ := State.boundaryOver_some hb
  exact hbegun.ite hbegun.matchActors

theorem State.prefixed.commit {k} (h : s.prefixed p) : (s.commit k).prefixed p := h.modCore fun _ => rfl

theorem State.prefixed.boundary {k scope} (h : s.prefixed p) (hb : s.boundary k scope = some t) : t.prefixed p := by
  obtain ⟨u, v, sc, buf, hu, hv, rfl⟩ := State.boundary_some hb
  have hup : u.prefixed p := by
    rcases hu with rfl | hu
    · exact h
    · exact h.commit.boundaryOver hu
  exact (hup.boundaryOver hv).modCore fun _ => rfl

/-- A boundary leaves what XIMM and ORD have left pending. -/
theorem State.boundary_pfx {k : Nat} {scope : Option OScope} (h : s.boundary k scope = some t) (j : Nat) : (t.core j).pfx = (s.core j).pfx :=
  State.prefixed.boundary (p := fun j => (s.core j).pfx) (fun _ => rfl) h j

end

/-! ### What a boundary leaves (21 R405, 03 R67) -/

section
variable {s s1 s2 s3 t : State} {k : Nat} {scope : Option OScope} {es buf : List Entry}

/-- A phase that has begun: nothing to publish, nothing dequeued, a view of its own. -/
structure Core.PhaseBegun (c : Core) (stamp : Nat) : Prop where
  buffer : c.buffer = []
  taken : c.taken = []
  takenIb : c.takenIb = []
  light : c.light = []
  view : c.view = { start := stamp, bytes := [], tags := [] }

theorem Core.Matches.phaseBegun {c d : Core} {n : Nat} (h : c.Matches d) (hc : c.PhaseBegun n) : d.PhaseBegun n := by
  rw [h]
  exact ⟨hc.buffer, hc.taken, hc.takenIb, hc.light, hc.view⟩

theorem State.beginPhase_begun (s : State) (k : Nat) : ((s.beginPhase k).core k).PhaseBegun (s.beginPhase k).stamp := by
  rw [State.beginPhase, State.modCore_core_same]
  exact ⟨rfl, rfl, rfl, rfl, rfl⟩

theorem State.boundaryOver_begun (h : s.boundaryOver k scope buf = some t) : (t.core k).PhaseBegun t.stamp := by
  obtain ⟨b, rfl⟩ := State.boundaryOver_some h
  generalize (s.published k scope buf).1.lightFires k (s.core k).light = u
  have begun := u.beginPhase_begun k
  cases b with
  | true => exact begun
  | false =>
    have hstamp : ((u.beginPhase k).matchActors k).stamp = (u.beginPhase k).stamp := by rw [State.matchActors_frame]
    change (((u.beginPhase k).matchActors k).core k).PhaseBegun ((u.beginPhase k).matchActors k).stamp
    rw [hstamp]
    exact ((u.beginPhase k).matchActors_core k).phaseBegun begun

theorem State.boundary_begun (h : s.boundary k scope = some t) : (t.core k).PhaseBegun t.stamp ∧ (t.core k).hq = [] := by
  obtain ⟨u, v, sc, buf, -, hv, rfl⟩ := State.boundary_some h
  have begun := State.boundaryOver_begun hv
  rw [State.modCore_core_same]
  exact ⟨⟨begun.buffer, begun.taken, begun.takenIb, begun.light, begun.view⟩, rfl⟩

theorem State.boundary_buffer (h : s.boundary k scope = some t) : (t.core k).buffer = [] := (State.boundary_begun h).1.buffer

/-! ### A boundary of an empty buffer -/

theorem State.sample_frame (s : State) (ctx src : Nat) (v : Word) : s.sample ctx src v = { s with ctxs := (s.sample ctx src v).ctxs } := by
  simp only [State.sample]
  split <;> rfl

theorem State.widen_frame (s : State) (k : Nat) : s.widen k = { s with hist := (s.widen k).hist, stamp := (s.widen k).stamp } := by
  simp only [State.widen]
  split <;> rfl

/-- Memory, tags and what is on its way are as they were. -/
def State.unpublished (s t : State) : Prop := t.mem = s.mem ∧ t.tags = s.tags ∧ t.flights = s.flights

theorem State.unpublished.memory (h : s.unpublished t) : s.sameMemory t :=
  ⟨fun a => by rw [State.byte, h.1]; rfl, fun g => by rw [State.tagAt, h.2.1]; rfl⟩

theorem State.published_nil (s : State) (k : Nat) (scope : Option OScope) :
    (s.published k scope []).2 = [] ∧ s.unpublished (s.published k scope []).1 := by
  refine ⟨rfl, ?_⟩
  change s.unpublished (if (narrowTo k scope).isNone = true then
    (s.sample (s.ctxOf k) 3 (BitVec.ofNat 64 ((s.core k).out + 0))).widen k else s.sample (s.ctxOf k) 3 (BitVec.ofNat 64 ((s.core k).out + 0)))
  split
  · rw [State.widen_frame, State.sample_frame]
    exact ⟨rfl, rfl, rfl⟩
  · rw [State.sample_frame]
    exact ⟨rfl, rfl, rfl⟩

theorem State.boundaryOver_nil (s : State) (k : Nat) (scope : Option OScope) (hl : (s.core k).light = []) :
    ∃ t, s.boundaryOver k scope [] = some t ∧ s.unpublished t := by
  obtain ⟨hrest, hmem, htags, hflights⟩ := s.published_nil k scope
  obtain ⟨b, hb⟩ := State.boundaryOver_eq hrest
  refine ⟨_, hb, ?_⟩
  rw [hl]
  cases b with
  | true => exact ⟨hmem, htags, hflights⟩
  | false =>
    change s.unpublished (State.matchActors _ k)
    rw [State.matchActors_frame]
    exact ⟨hmem, htags, hflights⟩

theorem boundaryBeginsPhase : Claims.BoundaryBeginsPhase := by
  unfold Claims.BoundaryBeginsPhase
  refine ⟨fun s t k scope h => ?_, fun s k scope hbuf hhq hl => ?_⟩
  · obtain ⟨begun, hhq⟩ := State.boundary_begun h
    exact ⟨begun.buffer, hhq, begun.taken, begun.takenIb, begun.light, begun.view⟩
  · obtain ⟨t, ht, hmem, htags, hflights⟩ := s.boundaryOver_nil k scope hl
    have hclosed : (s.core k).closed = [] := by rw [Core.closed, Core.openRecord, hbuf, hhq]; rfl
    have hb : s.boundary k scope = (s.boundaryOver k scope (s.core k).closed).map fun t => t.modCore k fun c => { c with hq := [] } :=
      if_pos (.inl (by rw [hhq]; rfl))
    rw [hclosed, ht] at hb
    exact ⟨_, hb, State.unpublished.memory ⟨hmem, htags, hflights⟩, hflights⟩

/-! ### Entering the phase buffer (17 R302, 15 R258) -/

/-- Entries that do not fit are entered in the phase that a boundary begins, and the firing is committed. -/
theorem State.enter_of_full (h : ¬(s.core k).used + (es.map Entry.cost).sum ≤ bufferMax) (hb : (s.commit k).boundary k none = some s1) :
    s.enter k es = .ok (s1.setCore k { s1.core k with buffer := es }) := by
  have hfull : s.enter k es = ((s.commit k).publishNow k none >>= fun u => .ok (u.modCore k fun c => { c with buffer := c.buffer ++ es })) := if_neg h
  rw [hfull, State.publishNow_ok hb, res_ok_bind, State.modCore, State.boundary_buffer hb, List.nil_append]

/-- Entering leaves what XIMM and ORD have left pending. -/
theorem State.enter_pfx (h : s.enter k es = .ok t) : (t.core k).pfx = (s.core k).pfx := by
  by_cases hfit : (s.core k).used + (es.map Entry.cost).sum ≤ bufferMax
  · rw [State.enter_of_fits hfit] at h
    cases h
    rw [State.modCore_core_same]
  · simp only [State.enter, if_neg hfit] at h
    obtain ⟨u, hu, hput⟩ := res_bind_ok h
    cases hput
    have hb : (s.commit k).boundary k none = some u := by
      simp only [State.publishNow] at hu
      split at hu
      · next hb => exact hb.trans (congrArg some (Except.ok.inj hu))
      · cases hu
    rw [State.modCore_core_same, State.boundary_pfx hb k, State.commit, State.modCore_core_same]

theorem State.publishOnce_pfx (h : s.publishOnce k es = .ok t) : (t.core k).pfx = (s.core k).pfx := by
  simp only [State.publishOnce] at h
  split at h
  · cases h
  · cases h
    have kept : (((s.commit k).applyEntries k (narrowTo k (s.core k).scope) es).core k).pfx = (s.core k).pfx :=
      State.prefixed.applyEntries (State.prefixed.commit (p := fun j => (s.core j).pfx) fun _ => rfl) k
    rw [State.modCore_core_same]
    exact kept

section
variable {o : Order}

theorem Core.releasing_eq {c : Core} (h : c.pfx.bind Pfx.ord = some o) : c.releasing = decide (o.str ≠ .acq) := by
  simp only [Core.releasing, Core.order, h]

theorem Core.acquiring_eq {c : Core} (h : c.pfx.bind Pfx.ord = some o) : c.acquiring = decide (o.str ≠ .rel) := by
  simp only [Core.acquiring, Core.order, h]

theorem Core.scope_eq {c : Core} (h : c.pfx.bind Pfx.ord = some o) : c.scope = some o.scope := by
  simp only [Core.scope, Core.order, h, Option.map_some]

theorem Core.unordered {c : Core} (h : c.pfx.bind Pfx.ord = none) : c.releasing = false ∧ c.acquiring = false := by
  simp only [Core.releasing, Core.acquiring, Core.order, h, and_self]

theorem State.lead_idle (h : (s.core k).releasing = false) : s.lead k = .ok s := by rw [State.lead, h]; rfl

theorem State.trail_idle (h : (s.core k).acquiring = false) : s.trail k = .ok s := by rw [State.trail, h]; rfl

theorem State.lead_makes (h : (s.core k).pfx.bind Pfx.ord = some o) (hs : o.str ≠ .acq) (hb : s.boundary k (some o.scope) = some s1) :
    s.lead k = .ok s1 := by
  rw [State.lead, Core.releasing_eq h, if_pos (decide_eq_true hs), Core.scope_eq h, State.publishNow_ok hb]

theorem State.trail_makes (h : (s.core k).pfx.bind Pfx.ord = some o) (hs : o.str ≠ .rel) (hb : s.boundary k (some o.scope) = some s1) :
    s.trail k = .ok s1 := by
  rw [State.trail, Core.acquiring_eq h, if_pos (decide_eq_true hs), Core.scope_eq h, State.publishNow_ok hb]

theorem State.enterOrdered_unordered (h : (s.core k).pfx.bind Pfx.ord = none) : s.enterOrdered k es = s.enter k es := by
  have hnone := Core.unordered h
  simp only [State.enterOrdered, State.lead_idle hnone.1, res_ok_bind, hnone.1, Bool.false_eq_true, if_false]
  cases he : s.enter k es with
  | error e => rfl
  | ok t =>
    rw [res_ok_bind, State.trail_idle (Core.unordered (by rw [State.enter_pfx he]; exact h)).2]

variable (h : (s.core k).pfx.bind Pfx.ord = some o)
include h

theorem State.enterOrdered_acq (ho : o.str = .acq) (he : s.enter k es = .ok s1) (hb : s1.boundary k (some o.scope) = some s2) :
    s.enterOrdered k es = .ok s2 := by
  have hrel : (s.core k).releasing = false := by rw [Core.releasing_eq h, ho]; rfl
  have htrail : s1.trail k = .ok s2 := State.trail_makes (by rw [State.enter_pfx he]; exact h) (by rw [ho]; decide) hb
  simp only [State.enterOrdered, State.lead_idle hrel, res_ok_bind, hrel, Bool.false_eq_true, if_false, he, htrail]

variable (hb : s.boundary k (some o.scope) = some s1) (hp : s1.publishOnce k es = .ok s2)
include hb hp

/-- Under .REL and .AR the entry is published at once, behind a boundary. -/
theorem State.enterOrdered_releasing (ho : o.str ≠ .acq) : s.enterOrdered k es = s2.trail k := by
  have hrel : (s.core k).releasing = true := by rw [Core.releasing_eq h, decide_eq_true ho]
  simp only [State.enterOrdered, State.lead_makes h ho hb, res_ok_bind, hrel, if_true, hp]

/-- The order is still pending behind the boundary and the publication. -/
theorem State.order_kept : (s2.core k).pfx.bind Pfx.ord = some o := by rw [State.publishOnce_pfx hp, State.boundary_pfx hb]; exact h

end

theorem phaseBufferEntry : Claims.PhaseBufferEntry := by
  unfold Claims.PhaseBufferEntry
  refine ⟨fun s k es => ?_, fun va pa bs tag => ⟨fun hpos hle => ?_, fun hlen => ?_⟩, fun _ _ _ _ _ _ _ _ _ _ _ _ _ _ _ _ => ?_⟩
  · intro c need
    refine ⟨State.enter_of_fits, fun hfull s1 hb => State.enter_of_full (Nat.not_le.2 hfull) hb, State.enterOrdered_unordered,
      fun o h s1 s2 s3 => ⟨fun ho he hb => State.enterOrdered_acq h ho he hb, fun ho hb hp => ?_, fun ho hb hp hb' => ?_⟩⟩
    · have hacq : o.str ≠ .acq := by rw [ho]; decide
      rw [State.enterOrdered_releasing h hb hp hacq]
      exact State.trail_idle (by rw [Core.acquiring_eq (State.order_kept h hb hp), ho]; rfl)
    · have hacq : o.str ≠ .acq := by rw [ho]; decide
      rw [State.enterOrdered_releasing h hb hp hacq]
      exact State.trail_makes (State.order_kept h hb hp) (by rw [ho]; decide) hb'
  · simp only [Entry.cost]
    omega
  · simp only [Entry.cost]
    omega
  · exact ⟨rfl, rfl, rfl, rfl, rfl, rfl, rfl⟩

end

/-! ### A safe point (03 R67-R68, 15 R243) -/

/-- The entries of a table whose numbers are chosen. -/
theorem table_get_filter {α : Type} (d : α) (t : Table α) (q : Nat → Bool) (i : Nat) :
    Table.get d (t.filter fun p => q p.1) i = if q i = true then Table.get d t i else d := by
  induction t with
  | nil => exact (ite_self d).symm
  | cons p t ih =>
    obtain ⟨j, v⟩ := p
    by_cases hj : j = i
    · subst hj
      cases hq : q j with
      | true => simp [Table.get, hq]
      | false =>
        rw [List.filter_cons_of_neg (by simp [hq]), ih, hq]
        rfl
    · have hrest : Table.get d ((j, v) :: t) i = Table.get d t i := if_neg hj
      rw [hrest, ← ih]
      cases hq : q j with
      | true =>
        rw [List.filter_cons_of_pos (by simp [hq])]
        exact if_neg hj
      | false => rw [List.filter_cons_of_neg (by simp [hq])]

/-- Core `k` past its safe point. -/
def State.safeCore (s : State) (k : Nat) (m next : Word) : Core :=
  let c := s.core k
  let d : Core := { c with vs := c.vs.clearL, pc := next, pfx := none, again := none, latch := [], run := .running,
                           mode := (s.ctx (s.ctxOf k)).modemap }
  { d with point := d.pointAt (some (d.resumeAt m next)) (match c.firing with | some f => f.recv | none => 0) }

/-- A safe point at which no request is pending goes on. -/
theorem State.safePoint_goesOn {s s1 : State} {k : Nat} (m next : Word) (hb : s.boundary k none = some s1) (hp : (s1.core k).preempt = none)
    (hs : (s1.ctx (s1.ctxOf k)).state ≠ .halted) : s.safePoint k m next false = s1.setCore k (s1.safeCore k m next) := by
  have hgoes : s.safePoint k m next false =
      let u := s1.setCore k (s1.safeCore k m next)
      if (u.core k).preempt.any (fun p => decide (p.reason = .destroy)) then u.endFiring k
      else if false || u.mustStop k then u.suspend k else u := by
    simp only [State.safePoint, hb]
    rfl
  have hcore : (s1.setCore k (s1.safeCore k m next)).core k = s1.safeCore k m next := State.setCore_core_same _ _ _
  have hpreempt : (s1.safeCore k m next).preempt = none := hp
  have hctx : (s1.setCore k (s1.safeCore k m next)).ctxOf k = s1.ctxOf k := by
    rw [State.ctxOf, hcore]
    rfl
  have hgo : (s1.setCore k (s1.safeCore k m next)).mustStop k = false := by
    rw [State.mustStop, hctx, hcore, hpreempt]
    exact decide_eq_false hs
  rw [hgoes]
  simp only [hcore, hpreempt, hgo, Option.any_none, Bool.or_self, Bool.false_eq_true, if_false]

theorem safePointGoesOn : Claims.SafePointGoesOn := by
  unfold Claims.SafePointGoesOn
  intro s s1 k m next hb hp hs
  refine ⟨_, State.safePoint_goesOn m next hb hp hs, rfl, rfl, rfl, rfl, rfl, rfl, _, rfl, rfl, rfl, rfl, fun i => ?_, fun i => ?_, fun i => ?_⟩
  · refine (table_get_filter XReg.zero _ (xLive m) i).trans ?_
    simp only [xLive, Bool.and_eq_true, decide_eq_true_eq]
    rfl
  · exact table_get_filter 0 _ (yLive m) i
  · exact table_get_filter 0 _ (vLive m) i

/-- Settles O45: entries by `State.enter`, a safe point and a boundary by the phase that they begin. -/
theorem boundariesAndPhases : Obligations.BoundariesAndPhases := ⟨phaseBufferEntry, safePointGoesOn, boundaryBeginsPhase⟩

end Sys2Proof.Machine
end

section
/-! SUPPORT. The four rounding modes on magnitudes, also on one that is known to lie between two multiples only (04 R77). -/

namespace Sys2Proof.Machine

/-- n is what a rounding mode makes of the magnitude y of a value of that sign: the nearest natural number, the one below, the one above. -/
def Rounded (rm : RM) (neg : Bool) (y : Rat) (n : Nat) : Prop := match rm, neg with
  | .rne, _ => Nearest y n
  | .rup, false => y ≤ n ∧ (n : Rat) < y + 1
  | .rdn, true => y ≤ n ∧ (n : Rat) < y + 1
  | _, _ => n ≤ y ∧ y < n + 1

namespace Rounded

variable {rm : RM} {neg : Bool} {y : Rat} {n : Nat}

/-- Whatever the mode, the result is the nearest number, the one below or the one above. -/
theorem cases (h : Rounded rm neg y n) : Nearest y n ∨ ((n : Rat) ≤ y ∧ y < n + 1) ∨ (y ≤ n ∧ (n : Rat) < y + 1) := by
  unfold Rounded at h
  split at h
  · exact .inl h
  · exact .inr (.inr h)
  · exact .inr (.inr h)
  · exact .inr (.inl h)

theorem natCast (rm : RM) (neg : Bool) (n : Nat) : Rounded rm neg n n := by
  unfold Rounded
  split
  · exact Nearest.natCast n
  all_goals exact ⟨le_rfl, lt_add_one _⟩

theorem le_of_le (h : Rounded rm neg y n) {k : Nat} (hk : (k : Rat) ≤ y) : k ≤ n := by
  rcases h.cases with hn | ⟨-, hn⟩ | ⟨hn, -⟩
  · exact hn.le_of_le hk
  · exact Nat.lt_succ_iff.1 (by exact_mod_cast hk.trans_lt hn)
  · exact_mod_cast hk.trans hn

theorem ge_of_ge (h : Rounded rm neg y n) {k : Nat} (hk : y ≤ k) : n ≤ k := by
  rcases h.cases with hn | ⟨hn, -⟩ | ⟨-, hn⟩
  · exact hn.ge_of_ge hk
  · exact_mod_cast hn.trans hk
  · exact Nat.lt_succ_iff.1 (by exact_mod_cast hn.trans_le (by linarith : y + 1 ≤ k + 1))

/-- Where the multiple that a mode gives stays below an even bound k, so does the one that it gives on each finer grid. -/
theorem lt_mul_two_pow (h : Rounded rm neg y n) {k d n' : Nat} (hk : k % 2 = 0) (hd : d ≠ 0) (hn : n < k)
    (h' : Rounded rm neg (y * 2 ^ d) n') : n' < k * 2 ^ d := by
  have hnk : (n : Rat) + 1 ≤ k := by exact_mod_cast hn
  have hdown (hy : y < n + 1) (hn' : (n' : Rat) ≤ y * 2 ^ d) : n' < k * 2 ^ d := by
    have hlt := mul_lt_mul_of_pos_right (hy.trans_le hnk) (by positivity : (0 : Rat) < 2 ^ d)
    exact_mod_cast hn'.trans_lt hlt
  have hup (hy : y ≤ n) : n' < k * 2 ^ d := by
    have hle := mul_le_mul_of_nonneg_right hy (by positivity : (0 : Rat) ≤ 2 ^ d)
    exact (h'.ge_of_ge (k := n * 2 ^ d) (by exact_mod_cast hle)).trans_lt (Nat.mul_lt_mul_of_pos_right hn (by positivity))
  unfold Rounded at h h'
  split at h
  · exact h.lt_mul_two_pow hk hd hn h'
  · exact hup h.1
  · exact hup h.1
  · split at h'
    · contradiction
    · contradiction
    · contradiction
    · exact hdown h.2 h'.1

end Rounded

/-! ### What a division cuts off

`rest` is the remainder of a division by 2h, and θ in [0, 1) what was cut off before the division. -/

section
variable {rest h : Nat} {θ : Rat}

theorem cutOff_lt_one (hrest : rest < 2 * h) (h1 : θ < 1) : (rest + θ) / (2 * h) < 1 := by
  have hrest1 : (rest : Rat) + 1 ≤ 2 * h := by exact_mod_cast hrest
  exact (div_lt_one (by exact_mod_cast (Nat.zero_le _).trans_lt hrest)).2 (by linarith)

theorem cutOff_eq_zero (hh : 0 < h) (h0 : 0 ≤ θ) : (rest + θ) / (2 * h) = 0 ↔ rest = 0 ∧ θ = 0 := by
  have hpos : (0 : Rat) < 2 * h := by exact_mod_cast Nat.mul_pos two_pos hh
  rw [div_eq_zero_iff, or_iff_left hpos.ne', add_eq_zero_iff_of_nonneg rest.cast_nonneg h0, Nat.cast_eq_zero]

/-- Rounding up what is more than nothing. -/
theorem rounded_up (n : Nat) (hh : 0 < h) (hrest : rest < 2 * h) (h0 : 0 ≤ θ) (h1 : θ < 1) {b : Bool} (hb : b = true ↔ ¬(rest = 0 ∧ θ = 0)) :
    n + (rest + θ) / (2 * h) ≤ (n + b.toNat : Nat) ∧ ((n + b.toNat : Nat) : Rat) < n + (rest + θ) / (2 * h) + 1 := by
  cases b
  · rw [(cutOff_eq_zero hh h0).2 (by simpa using hb)]
    simp
  · have hpos : 0 < (rest + θ) / (2 * h) := (by positivity : 0 ≤ (rest + θ) / (2 * h)).lt_of_ne' (mt (cutOff_eq_zero hh h0).1 (hb.1 rfl))
    have hlt := cutOff_lt_one hrest h1
    push_cast [Bool.toNat_true]
    exact ⟨by linarith, by linarith⟩

/-- Where something was cut off before the division, RNE rounds up from half on. -/
theorem nearest_above_half (n : Nat) (hh : 0 < h) (hrest : rest < 2 * h) (h0 : 0 < θ) (h1 : θ < 1) :
    Nearest (n + (rest + θ) / (2 * h)) (n + (decide (h ≤ rest)).toNat) := by
  have hpos : (0 : Rat) < 2 * h := by exact_mod_cast Nat.mul_pos two_pos hh
  have hlt := cutOff_lt_one hrest h1
  rcases lt_or_ge rest h with hr | hr
  · have hhalf : (rest + θ) / (2 * h) < 1 / 2 := by
      rw [div_lt_div_iff₀ hpos two_pos]
      have : (rest : Rat) + 1 ≤ h := by exact_mod_cast hr
      linarith
    have habs : |((n + (decide (h ≤ rest)).toNat : Nat) : Rat) - (n + (rest + θ) / (2 * h))| = (rest + θ) / (2 * h) := by
      rw [decide_eq_false (not_le.2 hr), Bool.toNat_false, add_zero, sub_add_cancel_left, abs_neg, abs_of_nonneg (by positivity)]
    exact ⟨by linarith, fun h => by linarith⟩
  · have hhalf : 1 / 2 < (rest + θ) / (2 * h) := by
      rw [div_lt_div_iff₀ two_pos hpos]
      have : (h : Rat) ≤ rest := by exact_mod_cast hr
      linarith
    have habs : |((n + (decide (h ≤ rest)).toNat : Nat) : Rat) - (n + (rest + θ) / (2 * h))| = 1 - (rest + θ) / (2 * h) := by
      rw [decide_eq_true hr, Bool.toNat_true, Nat.cast_succ, add_sub_add_left_eq_sub, abs_of_nonneg (by linarith)]
    exact ⟨by linarith, fun h => by linarith⟩

/-- A mode makes the quotient n grow as the remainder and θ ask. -/
theorem rounded_roundsUp (rm : RM) (neg : Bool) (n : Nat) (hh : 0 < h) (hrest : rest < 2 * h) (h0 : 0 ≤ θ) (h1 : θ < 1) :
    Rounded rm neg (n + (rest + θ) / (2 * h))
      (n + (roundsUp rm neg (decide (n % 2 = 1)) rest h (decide (θ ≠ 0))).toNat) := by
  have hlt := cutOff_lt_one hrest h1
  have hge : 0 ≤ (rest + θ) / (2 * h) := by positivity
  have hfloor : (n : Rat) ≤ n + (rest + θ) / (2 * h) ∧ n + (rest + θ) / (2 * h) < (n : Rat) + 1 := ⟨by linarith, by linarith⟩
  have hany : (decide (rest ≠ 0) || decide (θ ≠ 0)) = true ↔ ¬(rest = 0 ∧ θ = 0) := by simp [imp_iff_not_or]
  cases rm with
  | rtz => simpa [Rounded, roundsUp] using hfloor
  | rup => cases neg with
    | true => simpa [Rounded, roundsUp] using hfloor
    | false => exact rounded_up n hh hrest h0 h1 hany
  | rdn => cases neg with
    | false => simpa [Rounded, roundsUp] using hfloor
    | true => exact rounded_up n hh hrest h0 h1 hany
  | rne =>
    rcases eq_or_ne θ 0 with rfl | hθ
    · simpa [Rounded] using nearest_roundsUp neg n hh hrest
    · have hup : roundsUp .rne neg (decide (n % 2 = 1)) rest h (decide (θ ≠ 0)) = decide (h ≤ rest) := by
        rcases lt_trichotomy rest h with hr | rfl | hr <;> simp [roundsUp, *, le_of_lt, not_le_of_gt, ne_of_lt]
      rw [hup]
      exact nearest_above_half n hh hrest (h0.lt_of_ne' hθ) h1

/-- What was rounded stands on a multiple exactly where nothing was cut off. -/
theorem roundsUp_ne (n : Nat) (b : Bool) (hh : 0 < h) (hrest : rest < 2 * h) (h0 : 0 ≤ θ) (h1 : θ < 1)
    (hb : rest = 0 → θ = 0 → b = false) :
    (decide (rest ≠ 0) || decide (θ ≠ 0)) = true ↔ ((n + b.toNat : Nat) : Rat) ≠ n + (rest + θ) / (2 * h) := by
  have hany : (decide (rest ≠ 0) || decide (θ ≠ 0)) = true ↔ ¬(rest = 0 ∧ θ = 0) := by simp [imp_iff_not_or]
  rw [hany, ne_eq, not_iff_not, Nat.cast_add, add_right_inj]
  cases b
  · rw [Bool.toNat_false, Nat.cast_zero, ← cutOff_eq_zero hh h0]
    exact eq_comm
  · exact ⟨fun ⟨hr, ht⟩ => absurd (hb hr ht) (by decide), fun h => absurd h.symm (cutOff_lt_one hrest h1).ne⟩

end

/-- A mode gives a multiple of 2^q for (m + θ) 2^e, and calls it inexact exactly where it is another number (04 R77). -/
theorem roundTo_rounded (rm : RM) (neg : Bool) (m : Nat) {e q : Int} {θ : Rat} (h0 : 0 ≤ θ) (h1 : θ < 1) (hs : θ ≠ 0 → e < q) :
    Rounded rm neg ((m + θ) * 2 ^ (e - q)) (roundTo rm neg m e q (decide (θ ≠ 0))).1 ∧
      ((roundTo rm neg m e q (decide (θ ≠ 0))).2 = true ↔
        ((roundTo rm neg m e q (decide (θ ≠ 0))).1 : Rat) ≠ (m + θ) * 2 ^ (e - q)) := by
  by_cases hqe : q ≤ e
  · obtain rfl : θ = 0 := by_contra fun h => (hs h).not_ge hqe
    have hround : roundTo rm neg m e q (decide ((0 : Rat) ≠ 0)) = (m * 2 ^ (e - q).toNat, false) := by simp [roundTo, hqe]
    have hy : ((m : Rat) + 0) * 2 ^ (e - q) = (m * 2 ^ (e - q).toNat : Nat) := by
      push_cast
      rw [two_zpow_toNat (sub_nonneg.2 hqe), add_zero]
    rw [hround, hy]
    exact ⟨.natCast .., by simp⟩
  · obtain ⟨c, hc⟩ : ∃ c : Nat, (q - e).toNat = c + 1 := Nat.exists_eq_succ_of_ne_zero (by omega)
    set rest := m % 2 ^ (c + 1) with hrest
    set n := m / 2 ^ (c + 1) with hn
    have hround : roundTo rm neg m e q (decide (θ ≠ 0)) =
        (n + (roundsUp rm neg (decide (n % 2 = 1)) rest (2 ^ c) (decide (θ ≠ 0))).toNat, decide (rest ≠ 0) || decide (θ ≠ 0)) := by
      simp [roundTo, hqe, hc, ← hrest, ← hn]
    have hy : ((m : Rat) + θ) * 2 ^ (e - q) = n + (rest + θ) / (2 * (2 ^ c : Nat)) := by
      have hm : (m : Rat) = n * 2 ^ (c + 1) + rest := by exact_mod_cast (Nat.div_add_mod' m (2 ^ (c + 1))).symm
      rw [← neg_sub q e, zpow_neg, two_zpow_toNat (by omega), hc, hm]
      push_cast
      rw [pow_succ']
      field_simp
      ring
    have hlt : rest < 2 * 2 ^ c := by rw [← Nat.pow_succ']; exact Nat.mod_lt _ (by positivity)
    rw [hround, hy]
    refine ⟨rounded_roundsUp rm neg n (by positivity) hlt h0 h1, roundsUp_ne n _ (by positivity) hlt h0 h1 fun hr ht => ?_⟩
    cases rm <;> simp [roundsUp, hr, ht, (Nat.two_pow_pos c).ne]

end Sys2Proof.Machine
end

section
/-! SUPPORT. Rounding to the numbers of a format by each mode (04 R77-R78). -/

namespace Sys2Proof.Machine

/-- A mode that gives the multiple below gives the greatest of the numbers on the grid that y reaches, and one that gives the multiple above
the least of those that reach y. -/
theorem Rounded.directed_of_grid {rm : RM} {neg : Bool} {y : Rat} {n : Nat} (h : Rounded rm neg y n) {z : Rat}
    (hz : (∃ j : Int, z = j) ∨ ∃ k : Nat, |z| ≤ k ∧ k ≤ y) :
    (y < n + 1 → z ≤ y → z ≤ n) ∧ ((n : Rat) < y + 1 → y ≤ z → n ≤ z) := by
  rcases hz with ⟨j, rfl⟩ | ⟨k, hzk, hky⟩
  · refine ⟨fun hlt hle => ?_, fun hlt hle => ?_⟩
    · have : j < n + 1 := by exact_mod_cast hle.trans_lt hlt
      exact_mod_cast Int.lt_add_one_iff.1 this
    · have : (n : Int) < j + 1 := by exact_mod_cast hlt.trans_le (by linarith : y + 1 ≤ j + 1)
      exact_mod_cast Int.lt_add_one_iff.1 this
  · have hkn : (k : Rat) ≤ n := by exact_mod_cast h.le_of_le hky
    have hzk := (le_abs_self z).trans hzk
    refine ⟨fun _ _ => hzk.trans hkn, fun _ hle => ?_⟩
    have hnk : (n : Rat) ≤ k := by exact_mod_cast h.ge_of_ge (hle.trans hzk)
    linarith

namespace Fmt.Spaced

variable {f : Fmt} {y : Rat} {q : Int} {rm : RM} {neg : Bool} {n : Nat}

/-- A number of the format in units of the spacing, with the sign of the value that is rounded. -/
theorem value_units (h : f.Spaced y q) (neg : Bool) {b : Nat} {v : Rat} (hv : Sys2Proof.Claims.value f b = some v) :
    ∃ z : Rat, v = signOf neg * z * 2 ^ q ∧ ((∃ j : Int, z = j) ∨ ∃ k : Nat, |z| ≤ k ∧ k ≤ y) := by
  have hz : v = signOf neg * (signOf neg * v / 2 ^ q) * 2 ^ q := by
    field_simp
    rw [sq, signOf_mul_self, mul_one]
  refine ⟨signOf neg * v / 2 ^ q, hz, ?_⟩
  generalize signOf neg * v / 2 ^ q = z at hz
  rcases h.value_grid hv with ⟨g, k, hk⟩ | ⟨hlt, hy⟩
  · obtain ⟨j, hj⟩ := signOf_mul_int (neg != g) k
    have hzk : signOf neg * z = signOf g * k := mul_right_cancel₀ (by positivity) (hz.symm.trans hk)
    refine .inl ⟨j, ?_⟩
    rw [← hj, ← signOf_mul_signOf, mul_assoc, ← hzk, ← mul_assoc, signOf_mul_self, one_mul]
  · refine .inr ⟨2 ^ f.fb, ?_, by exact_mod_cast hy⟩
    rw [hz, abs_mul, abs_mul, abs_signOf, one_mul, abs_of_pos (by positivity : (0 : Rat) < 2 ^ q)] at hlt
    exact_mod_cast (lt_of_mul_lt_mul_right hlt (by positivity)).le

/-- The pattern of what a mode makes of y 2^q is what R77 asks for. -/
theorem roundedTo_mode (h : f.Spaced y q) (hn : Rounded rm neg y n) (hy : 0 < y) {r : Nat} (hwidth : r < 2 ^ f.width)
    (hsign : r / 2 ^ (f.eb + f.fb) = neg.toNat) (hvalue : Sys2Proof.Claims.value f r = some (signOf neg * n * 2 ^ q))
    (heven : n % 2 = 0 → r % 2 = 0) : Sys2Proof.Claims.roundedTo f rm (signOf neg * y * 2 ^ q) r := by
  cases rm with
  | rne => exact h.roundedTo hn hy hwidth hsign hvalue heven
  | _ =>
    have hpos : (0 : Rat) < 2 ^ q := by positivity
    have hlt : signOf neg * y * 2 ^ q < 0 ↔ neg = true := by rw [mul_assoc]; exact signOf_mul_lt_zero neg (by positivity)
    refine ⟨hwidth, ?_, _, hvalue, fun p v _ hv => ?_⟩
    · rw [hsign]
      cases neg <;> simp [hlt]
    · obtain ⟨z, rfl, hz⟩ := h.value_units neg hv
      obtain ⟨hbelow, habove⟩ := hn.directed_of_grid hz
      have hz' : (∃ j : Int, |z| = j) ∨ ∃ k : Nat, |(|z|)| ≤ k ∧ k ≤ y := by
        rw [abs_abs]
        exact hz.imp_left fun ⟨j, hj⟩ => ⟨|j|, by rw [hj]; push_cast; rfl⟩
      have hbelow' := (hn.directed_of_grid hz').1
      cases neg <;>
        simp_all [Rounded, rat_abs_eq, abs_mul, abs_of_pos, signOf]

/-- A magnitude that a mode takes past the format's numbers is past them itself. -/
theorem value_lt_mode (h : f.Spaced y q) (hn : Rounded rm neg y n) (hover : 2 ^ (f.emax + 1) ≤ (n : Rat) * 2 ^ q) {b : Nat} {v : Rat}
    (hv : Sys2Proof.Claims.value f b = some v) : |v| < y * 2 ^ q := by
  rcases h.value_grid hv with ⟨g, k, rfl⟩ | ⟨hlt, hy⟩
  · have hk := (Fmt.value_abs_lt hv).trans_le hover
    rw [abs_signOf_mul g k.cast_nonneg] at hk ⊢
    refine mul_lt_mul_of_pos_right (not_le.1 fun hyk => ?_) (by positivity)
    exact absurd (lt_of_mul_lt_mul_right hk (by positivity)) (not_lt.2 (by exact_mod_cast hn.ge_of_ge hyk))
  · exact hlt.trans_le (mul_le_mul_of_nonneg_right hy (by positivity))

/-- The carry out of what a mode gives spells the same magnitude, or one past the format's numbers. -/
theorem carry_mode (h : f.Spaced y q) (hn : Rounded rm neg y n) :
    ((f.carry n q).1 : Rat) * 2 ^ (f.carry n q).2 = n * 2 ^ q ∧ (f.carry n q).1 < 2 ^ (f.fb + 1) ∧
      (2 ^ f.fb ≤ (f.carry n q).1 ∨ (f.carry n q).2 = f.emin - f.fb) ∧ f.emin - f.fb ≤ (f.carry n q).2 ∧
      (n % 2 = 0 → (f.carry n q).1 % 2 = 0) := by
  have hle : n ≤ 2 ^ (f.fb + 1) := hn.ge_of_ge (by exact_mod_cast h.lt.le)
  rcases hle.lt_or_eq with hlt | rfl
  · have hcarry : f.carry n q = (n, q) := if_neg (not_le.2 hlt)
    rw [hcarry]
    exact ⟨rfl, hlt, h.normal.imp_left fun hy => hn.le_of_le (by exact_mod_cast hy), h.ge, id⟩
  · have hcarry : f.carry (2 ^ (f.fb + 1)) q = (2 ^ f.fb, q + 1) := by
      rw [Fmt.carry, if_pos le_rfl, pow_succ, Nat.mul_div_cancel _ two_pos]
    rw [hcarry]
    refine ⟨?_, Nat.pow_lt_pow_right one_lt_two (Nat.lt_succ_self _), .inl le_rfl, h.ge.trans (Int.le_add_one le_rfl),
      fun _ => two_pow_even f.fb_pos⟩
    rw [zpow_add_one₀ two_ne_zero]
    push_cast
    ring

end Fmt.Spaced

end Sys2Proof.Machine
end

section
/-! SUPPORT. `roundFin` by each mode, of an exact magnitude and of one that lies between two multiples (04 R77-R78). -/

namespace Sys2Proof.Machine

/-- Whether a magnitude is below the normal numbers, and stays there when a mode rounds it as if exponents had no lower bound. -/
def Fmt.tinyBy (f : Fmt) (rm : RM) (neg : Bool) (m : Nat) (e : Int) (sticky : Bool) : Bool :=
  let top : Int := e + (Nat.log2 m : Int)
  decide (top < f.emin) && decide ((roundTo rm neg m e (top - f.fb) sticky).1 < 2 ^ (f.emin - top + f.fb).toNat)

/-- `roundFin` by its parts: the spacing, the multiple that the mode gives, its carry. -/
theorem roundFin_parts {f : Fmt} (hf : f ≠ .e4m3) (rm : RM) (sat neg : Bool) {m : Nat} (hm : m ≠ 0) (e : Int) (sticky : Bool) {n : Nat}
    {inexact : Bool} (hr : roundTo rm neg m e (f.spacing m e) sticky = (n, inexact)) :
    roundFin f rm sat neg m e sticky =
      if f.emax < (f.carry n (f.spacing m e)).2 + f.fb ∧ 2 ^ f.fb ≤ (f.carry n (f.spacing m e)).1 then
        (overflow f rm sat neg, fOF ||| fNX)
      else (f.pack neg (f.carry n (f.spacing m e)).1 (f.carry n (f.spacing m e)).2,
        when inexact fNX ||| when (inexact && f.tinyBy rm neg m e sticky) fUF) := by
  unfold roundFin
  rw [if_neg (by simp [hm])]
  unfold Fmt.spacing at hr ⊢
  simp only [hr, hf, Fmt.carry, Fmt.emax, Fmt.tinyBy, false_and, or_false, if_false]
  rfl

/-- A result within the format's range, by any mode, from what it says of the exact value. -/
theorem rounds_mode_of_fits {f : Fmt} {rm : RM} (sat : Bool) {x v : Rat} {r : Nat} {inexact tiny : Bool}
    (hr : Sys2Proof.Claims.roundedTo f rm x r) (hv : Sys2Proof.Claims.value f r = some v) (hinexact : inexact = true ↔ v ≠ x)
    (hlt : tiny = true → |x| < 2 ^ f.emin) (htiny : |v| < 2 ^ f.emin → tiny = true) :
    Sys2Proof.Claims.rounds f rm sat x (r, when inexact fNX ||| when (inexact && tiny) fUF) := by
  obtain ⟨hof, hothers, hnx, huf⟩ := roundFin_bits inexact tiny
  refine ⟨fun _ => ⟨hr, hothers, ?_, fun h => ?_, fun h hbelow => ?_⟩, fun h => absurd hof h⟩
  · rw [hnx, hinexact, hv, ne_eq, ne_eq, Option.some_inj]
  · obtain ⟨hi, ht⟩ := huf.1 h
    exact ⟨hnx.2 hi, rat_abs_eq x ▸ hlt ht⟩
  · exact huf.2 ⟨hnx.1 h, htiny (rat_abs_eq v ▸ hbelow v hv)⟩

/-- An overflow by any mode, from what it says of the exact value. -/
theorem rounds_mode_of_overflow {f : Fmt} (hf : f ≠ .e4m3) (rm : RM) (sat : Bool) {neg : Bool} {x : Rat} (hneg : x < 0 ↔ neg = true)
    (hpast : ∀ p v, Sys2Proof.Claims.value f p = some v → |v| < |x|) :
    Sys2Proof.Claims.rounds f rm sat x (overflow f rm sat neg, fOF ||| fNX) := by
  have hdec : decide (x < 0) = neg := by cases neg <;> simp_all
  refine ⟨fun h => absurd h (show ¬(fOF ||| fNX) &&& fOF = 0 by decide), fun _ => ⟨rfl, fun p v _ hv => ?_, ?_⟩⟩
  · rw [rat_abs_eq, rat_abs_eq]
    exact hpast p v hv
  · cases rm <;> simp [overflow, hf, hdec]

variable {f : Fmt} {rm : RM} {neg : Bool} {m : Nat} {e : Int} {θ : Rat}

theorem lt_two_pow_log2_succ (m : Nat) (h1 : θ < 1) : (m : Rat) + θ < 2 ^ (Nat.log2 m + 1) := by
  have : (m : Rat) + 1 ≤ 2 ^ (Nat.log2 m + 1) := by exact_mod_cast Nat.lt_log2_self (n := m)
  linarith

theorem lt_two_zpow_top (m : Nat) (h1 : θ < 1) (e : Int) : (m + θ) * 2 ^ e < 2 ^ (e + (Nat.log2 m : Int) + 1) := by
  rw [add_assoc, add_comm e, zpow_add₀ two_ne_zero]
  exact mul_lt_mul_of_pos_right (by exact_mod_cast lt_two_pow_log2_succ m h1) (by positivity)

theorem Fmt.spaced_between (f : Fmt) (hm : m ≠ 0) (h0 : 0 ≤ θ) (h1 : θ < 1) (e : Int) :
    f.Spaced ((m + θ) * 2 ^ (e - f.spacing m e)) (f.spacing m e) := by
  have hs := f.spaced_spacing hm e
  refine ⟨(lt_two_zpow_top m h1 _).trans_le ?_, hs.normal.imp_left fun h => h.trans ?_, hs.ge⟩
  · rw [← zpow_natCast]
    have := le_max_left (e + (Nat.log2 m : Int) - f.fb) (f.emin - f.fb)
    exact zpow_le_zpow_right₀ one_le_two (by simp only [Fmt.spacing]; push_cast; omega)
  · exact mul_le_mul_of_nonneg_right (le_add_of_nonneg_right h0) (by positivity)

theorem Fmt.tinyBy_lt {sticky : Bool} (h1 : θ < 1) (h : f.tinyBy rm neg m e sticky = true) : (m + θ) * 2 ^ e < 2 ^ f.emin := by
  simp only [Fmt.tinyBy, Bool.and_eq_true, decide_eq_true_eq] at h
  exact (lt_two_zpow_top m h1 e).trans_le (zpow_le_zpow_right₀ one_le_two h.1)

/-- A magnitude that a mode gives one below the normal numbers is tiny. -/
theorem Fmt.tinyBy_of_lt (hm : m ≠ 0) (h0 : 0 ≤ θ) (h1 : θ < 1) (hbits : θ ≠ 0 → f.fb < Nat.log2 m) {n : Nat}
    (hn : Rounded rm neg ((m + θ) * 2 ^ (e - f.spacing m e)) n) (hlt : (n : Rat) * 2 ^ f.spacing m e < 2 ^ f.emin) :
    f.tinyBy rm neg m e (decide (θ ≠ 0)) = true := by
  have hs := f.spaced_between hm h0 h1 e
  have hsub : n < 2 ^ f.fb := by
    have hpow : (2 : Rat) ^ f.emin ≤ 2 ^ f.fb * 2 ^ f.spacing m e := by
      rw [← zpow_natCast, ← zpow_add₀ two_ne_zero]
      have := hs.ge
      exact zpow_le_zpow_right₀ one_le_two (by omega)
    exact_mod_cast lt_of_mul_lt_mul_right (hlt.trans_le hpow) (by positivity)
  have hy : ¬ (2 : Rat) ^ f.fb ≤ (m + θ) * 2 ^ (e - f.spacing m e) :=
    fun hy => absurd (hn.le_of_le (by exact_mod_cast hy)) (not_le.2 hsub)
  have hq := hs.normal.resolve_left hy
  have htop : e + (Nat.log2 m : Int) < f.emin := by
    by_contra hge
    refine hy (le_trans ?_ ((two_zpow_log2_le hm _).trans (mul_le_mul_of_nonneg_right (le_add_of_nonneg_right h0) (by positivity))))
    rw [← zpow_natCast, hq]
    exact zpow_le_zpow_right₀ one_le_two (by omega)
  obtain ⟨d, hd⟩ : ∃ d : Nat, f.emin - (e + (Nat.log2 m : Int)) = d := Int.eq_ofNat_of_zero_le (by omega)
  have hfine := (roundTo_rounded rm neg m (e := e) (q := e + (Nat.log2 m : Int) - f.fb) h0 h1
    (fun h => by have := hbits h; omega)).1
  rw [show e - (e + (Nat.log2 m : Int) - f.fb) = e - f.spacing m e + d by omega, zpow_add₀ two_ne_zero, ← mul_assoc, zpow_natCast] at hfine
  have hbelow := hn.lt_mul_two_pow (two_pow_even f.fb_pos) (by omega) hsub hfine
  rw [← pow_add] at hbelow
  simp only [Fmt.tinyBy, Bool.and_eq_true, decide_eq_true_eq]
  exact ⟨htop, by rwa [show (f.emin - (e + (Nat.log2 m : Int)) + f.fb).toNat = f.fb + d by omega]⟩

/-- A magnitude (m + θ) 2^e other than zero is rounded once, by any mode (04 R77-R78). Where `sticky` stands for θ, m has the bits that the
format needs. -/
theorem roundFin_rounds_mode (hf : f ≠ .e4m3) (rm : RM) (sat neg : Bool) (hm : m ≠ 0) (e : Int) (h0 : 0 ≤ θ) (h1 : θ < 1)
    (hbits : θ ≠ 0 → f.fb < Nat.log2 m) :
    Sys2Proof.Claims.rounds f rm sat (signOf neg * (m + θ) * 2 ^ e) (roundFin f rm sat neg m e (decide (θ ≠ 0))) := by
  have hs := f.spaced_between hm h0 h1 e
  have hq : f.spacing m e ≥ e + (Nat.log2 m : Int) - f.fb := le_max_left _ _
  obtain ⟨hn, hinexact⟩ := roundTo_rounded rm neg m (e := e) (q := f.spacing m e) h0 h1 (fun h => by have := hbits h; omega)
  obtain ⟨⟨n, inexact⟩, hr⟩ : ∃ r, roundTo rm neg m e (f.spacing m e) (decide (θ ≠ 0)) = r := ⟨_, rfl⟩
  rw [hr] at hn hinexact
  rw [roundFin_parts hf rm sat neg hm e _ hr]
  obtain ⟨hcarry, hlt, hnormal, hge, heven⟩ := hs.carry_mode hn
  have htiny := Fmt.tinyBy_of_lt hm h0 h1 hbits hn
  have hm0 : (0 : Rat) < m + θ := add_pos_of_pos_of_nonneg (by exact_mod_cast Nat.pos_of_ne_zero hm) h0
  have hunit : (m + θ) * 2 ^ e = (m + θ) * 2 ^ (e - f.spacing m e) * 2 ^ f.spacing m e := by rw [mul_assoc, ← two_zpow_split]
  have hx : signOf neg * (m + θ) * 2 ^ e = signOf neg * ((m + θ) * 2 ^ (e - f.spacing m e)) * 2 ^ f.spacing m e := by
    rw [mul_assoc, hunit, ← mul_assoc]
  generalize f.carry n (f.spacing m e) = c at hcarry hlt hnormal hge heven
  split
  next hover =>
    have hpast : 2 ^ (f.emax + 1) ≤ (n : Rat) * 2 ^ f.spacing m e := by
      rw [← hcarry, two_zpow_split _ c.2]
      refine mul_le_mul_of_nonneg_right (le_trans ?_ (by exact_mod_cast hover.2 : (2 : Rat) ^ f.fb ≤ c.1)) (by positivity)
      rw [← zpow_natCast]
      exact zpow_le_zpow_right₀ one_le_two (by omega)
    refine rounds_mode_of_overflow hf rm sat (mul_assoc (signOf neg) _ _ ▸ signOf_mul_lt_zero neg (by positivity)) fun p v hv => ?_
    rw [abs_signOf_mul neg hm0.le, hunit]
    exact hs.value_lt_mode hn hpast hv
  next hfits =>
    have hrange := f.emin_lt_emax
    have hspells : f.Spells c.1 c.2 := ⟨hlt, hnormal, hge, by omega⟩
    obtain ⟨hwidth, hsign, hvalue, hodd⟩ := hspells.pack neg
    rw [mul_assoc, hcarry, ← mul_assoc] at hvalue
    have hrounded := hs.roundedTo_mode hn (by positivity) hwidth hsign hvalue (fun h => hodd.trans (heven h))
    refine rounds_mode_of_fits sat (hx ▸ hrounded) hvalue ?_ (fun ht => ?_) (fun h => htiny ?_)
    · rw [hinexact, hx, ne_eq, ne_eq, mul_left_inj' (by positivity), mul_right_inj' (signOf_ne_zero neg)]
    · rw [abs_signOf_mul neg hm0.le]
      exact Fmt.tinyBy_lt h1 ht
    · rwa [abs_signOf_mul neg (by positivity)] at h

end Sys2Proof.Machine
end

section
/-! The operations of VFADD to VFSQRT and the conversions on finite operands, and obligation O16 (18 R335, R340, 04 R77-R78, R82). -/

namespace Sys2Proof.Machine

variable {f : Fmt} {rm : RM} {a b : FVal} {x y : Rat}

/-! ### Sums and products -/

theorem FVal.neg_rat (h : a.rat = some x) : a.neg.rat = some (-x) := by
  obtain ⟨neg, m, e, rfl, rfl⟩ := FVal.rat_eq_some.1 h
  cases neg <;> simp [FVal.neg, FVal.rat, signOf]

/-- What the finite value is of a rational number other than zero. -/
theorem FVal.rat_ne_zero (h : a.rat = some x) (hx : x ≠ 0) : ∃ neg m e, a = .fin neg m e ∧ m ≠ 0 ∧ x = signOf neg * m * 2 ^ e := by
  obtain ⟨neg, m, e, rfl, rfl⟩ := FVal.rat_eq_some.1 h
  exact ⟨neg, m, e, rfl, fun hm => hx (by simp [hm]), rfl⟩

/-- An exact magnitude is rounded once, by any mode. -/
theorem roundFin_exact (hf : f ≠ .e4m3) (rm : RM) (sat neg : Bool) {m : Nat} (hm : m ≠ 0) (e : Int) :
    Sys2Proof.Claims.rounds f rm sat (signOf neg * m * 2 ^ e) (roundFin f rm sat neg m e false) := by
  simpa using roundFin_rounds_mode (θ := 0) hf rm sat neg hm e le_rfl one_pos (by simp)

/-- An exact result other than zero is delivered rounded once. -/
theorem Exact.Is.deliver_rounds (hf : f ≠ .e4m3) (rm : RM) (sat : Bool) {r : Exact} (h : r.Is x) (hx : x ≠ 0) :
    Sys2Proof.Claims.rounds f rm sat x (deliver f rm sat r) := by
  obtain ⟨neg, m, e, hval, hm, rfl⟩ := FVal.rat_ne_zero h.rat hx
  have hdeliver : deliver f rm sat r = roundFin f rm sat neg m e false := by simp [deliver, hval, h.flags, h.sticky]
  rw [hdeliver]
  exact roundFin_exact hf rm sat neg hm e

/-- A sum of two finite values other than zero is rounded once, by any mode (18 R335). -/
theorem roundSum_rounds_mode (hf : f ≠ .e4m3) (rm : RM) (sat : Bool) (ha : a.rat = some x) (hb : b.rat = some y) (hne : x + y ≠ 0) :
    Sys2Proof.Claims.rounds f rm sat (x + y) (roundSum f rm sat a b 0) := by
  have his := addE_is ha hb
  obtain ⟨neg, m, e, hval, hm, -⟩ := FVal.rat_ne_zero his.rat hne
  have hsum : roundSum f rm sat a b 0 = deliver f rm sat (addE a b) := by
    simp [roundSum, deliver, hval, his.flags, his.sticky, FVal.isZero, hm]
  rw [hsum]
  exact his.deliver_rounds hf rm sat hne

/-- A product-sum adds the exact product to d, with its sign inverted for VFNMA. -/
theorem ffma_rounds (hf : f ≠ .e4m3) (rm : RM) (sat negate : Bool) {a b d : Nat} {z : Rat} (ha : (f.decode a).rat = some x)
    (hb : (f.decode b).rat = some y) (hd : (f.decode d).rat = some z) (hne : (if negate then -(x * y) else x * y) + z ≠ 0) :
    Sys2Proof.Claims.rounds f rm sat ((if negate then -(x * y) else x * y) + z) (ffma f rm sat negate a b d) := by
  have hp := mulE_is ha hb
  have hs : (if negate then (mulE (f.decode a) (f.decode b)).val.neg else (mulE (f.decode a) (f.decode b)).val).rat =
      some (if negate then -(x * y) else x * y) := by
    cases negate
    · exact hp.rat
    · exact FVal.neg_rat hp.rat
  rw [ffma, hp.flags]
  exact roundSum_rounds_mode hf rm sat hs hd hne

/-! ### Quotients -/

/-- `quotient` is the quotient's integer part at a power of two; the remainder gives what it leaves. -/
theorem quotient_eq {ma mb q : Nat} {k : Int} {st : Bool} (hmb : mb ≠ 0) (h : quotient ma mb = (q, k, st)) :
    ∃ θ : Rat, 0 ≤ θ ∧ θ < 1 ∧ st = decide (θ ≠ 0) ∧ (ma : Rat) / mb = (q + θ) * 2 ^ k := by
  obtain ⟨rfl, rfl, rfl⟩ : _ = q ∧ _ = k ∧ _ = st := by simpa only [quotient, Prod.mk.injEq] using h
  set c := 66 + Nat.log2 mb - Nat.log2 ma
  have hpos : (0 : Rat) < mb := by exact_mod_cast Nat.pos_of_ne_zero hmb
  refine ⟨(ma * 2 ^ c % mb : Nat) / mb, by positivity, (div_lt_one hpos).2 ?_, ?_, ?_⟩
  · exact_mod_cast Nat.mod_lt _ (Nat.pos_of_ne_zero hmb)
  · simp [hmb]
  · have hdiv : ((ma * 2 ^ c : Nat) : Rat) = mb * (ma * 2 ^ c / mb : Nat) + (ma * 2 ^ c % mb : Nat) := by
      exact_mod_cast (Nat.div_add_mod (ma * 2 ^ c) mb).symm
    rw [zpow_neg, zpow_natCast, div_eq_iff hpos.ne', add_mul, add_mul]
    field_simp
    push_cast at hdiv
    linarith

theorem le_log2_quotient {ma mb q : Nat} {k : Int} {st : Bool} (hma : ma ≠ 0) (hmb : mb ≠ 0) (h : quotient ma mb = (q, k, st)) :
    65 ≤ Nat.log2 q := by
  obtain ⟨rfl, -, -⟩ : _ = q ∧ _ = k ∧ _ = st := by simpa only [quotient, Prod.mk.injEq] using h
  set c := 66 + Nat.log2 mb - Nat.log2 ma with hc
  have hle : 2 ^ 65 ≤ ma * 2 ^ c / mb := by
    rw [Nat.le_div_iff_mul_le (Nat.pos_of_ne_zero hmb)]
    calc 2 ^ 65 * mb ≤ 2 ^ 65 * 2 ^ (Nat.log2 mb + 1) := Nat.mul_le_mul_left _ Nat.lt_log2_self.le
      _ = 2 ^ (66 + Nat.log2 mb) := by rw [← pow_add]; congr 1; omega
      _ ≤ 2 ^ (Nat.log2 ma + c) := Nat.pow_le_pow_right two_pos (by omega)
      _ = 2 ^ Nat.log2 ma * 2 ^ c := pow_add ..
      _ ≤ ma * 2 ^ c := Nat.mul_le_mul_right _ (Nat.log2_self_le hma)
  exact (Nat.le_log2 (by positivity)).2 hle

theorem Fmt.fb_lt (f : Fmt) : f.fb < 65 := by cases f <;> decide

/-- A quotient of finite values other than zero is rounded once (18 R335). -/
theorem fdiv_rounds (hf : f ≠ .e4m3) (rm : RM) (sat : Bool) {a b : Nat} (ha : (f.decode a).rat = some x) (hb : (f.decode b).rat = some y)
    (hx : x ≠ 0) (hy : y ≠ 0) : Sys2Proof.Claims.rounds f rm sat (x / y) (fdiv f rm sat a b) := by
  obtain ⟨na, ma, ea, hva, hma, rfl⟩ := FVal.rat_ne_zero ha hx
  obtain ⟨nb, mb, eb, hvb, hmb, rfl⟩ := FVal.rat_ne_zero hb hy
  obtain ⟨⟨q, k, st⟩, hq⟩ : ∃ p, quotient ma mb = p := ⟨_, rfl⟩
  obtain ⟨θ, h0, h1, rfl, hval⟩ := quotient_eq hmb hq
  have hlog := le_log2_quotient hma hmb hq
  have hdiv : fdiv f rm sat a b = roundFin f rm sat (na != nb) q (ea - eb + k) (decide (θ ≠ 0)) := by
    simp [fdiv, hva, hvb, divE, hma, hmb, hq, deliver]
  have hxy : signOf na * ma * 2 ^ ea / (signOf nb * mb * 2 ^ eb) = signOf (na != nb) * (q + θ) * 2 ^ (ea - eb + k) := by
    have hsign : signOf na / signOf nb = signOf (na != nb) := by
      rw [← signOf_mul_signOf, div_eq_iff (signOf_ne_zero nb), mul_assoc, signOf_mul_self, mul_one]
    rw [mul_div_mul_comm, mul_div_mul_comm, hsign, hval, ← zpow_sub₀ two_ne_zero, zpow_add₀ two_ne_zero (ea - eb)]
    ring
  rw [hdiv, hxy]
  refine roundFin_rounds_mode hf rm sat _ (fun hq0 => ?_) _ h0 h1 fun _ => f.fb_lt.trans_le hlog
  rw [hq0] at hlog
  exact absurd hlog (by decide)

/-! ### Conversions -/

/-- The greatest magnitude of a format. -/
def Fmt.greatest (f : Fmt) : Rat := 2 ^ f.emax * (2 - 2 ^ (-(f.fb : Int)))

theorem Fmt.greatest_eq (f : Fmt) : f.greatest = (2 ^ (f.fb + 1) - 1 : Nat) * 2 ^ (f.emax - f.fb) := by
  rw [Fmt.greatest, Nat.cast_sub (Nat.one_le_two_pow), sub_eq_add_neg f.emax, zpow_add₀ two_ne_zero, zpow_neg, zpow_natCast]
  push_cast
  field_simp
  ring

theorem Fmt.value_abs_le {f : Fmt} {p : Nat} {v : Rat} (h : Sys2Proof.Claims.value f p = some v) : |v| ≤ f.greatest := by
  obtain ⟨neg, n, q, hs, rfl⟩ := Fmt.value_spells h
  rw [abs_signOf_mul neg n.cast_nonneg, Fmt.greatest_eq]
  have hn : (n : Rat) ≤ (2 ^ (f.fb + 1) - 1 : Nat) := by exact_mod_cast Nat.le_sub_one_of_lt hs.lt
  exact mul_le_mul hn (zpow_le_zpow_right₀ one_le_two hs.le) (by positivity) (Nat.cast_nonneg _)

/-- The pattern of the greatest number of a format. -/
theorem Fmt.exists_greatest (f : Fmt) : ∃ p, p < 2 ^ f.width ∧ Sys2Proof.Claims.value f p = some f.greatest := by
  have hrange := f.emin_lt_emax
  have hs : f.Spells (2 ^ (f.fb + 1) - 1) (f.emax - f.fb) :=
    ⟨Nat.sub_one_lt (by positivity), .inl (by rw [pow_succ]; have := Nat.one_le_two_pow (n := f.fb); omega), by omega, le_rfl⟩
  obtain ⟨hwidth, -, hvalue, -⟩ := hs.pack false
  exact ⟨_, hwidth, by rw [hvalue, Fmt.greatest_eq]; simp [signOf]⟩

/-- A wider format reaches at least as far. -/
theorem Fmt.greatest_le {t u : Fmt} (h : t.width < u.width) (ht : t ∈ [Fmt.f16, .bf16, .f32, .f64]) (hu : u ∈ [Fmt.f16, .bf16, .f32, .f64]) :
    t.greatest ≤ u.greatest := by
  have hparts : t.fb ≤ u.fb ∧ t.emax ≤ u.emax := by
    revert h ht hu
    cases t <;> cases u <;> decide
  have hfrac : (2 : Rat) ^ (-(u.fb : Int)) ≤ 2 ^ (-(t.fb : Int)) := zpow_le_zpow_right₀ one_le_two (by omega)
  have hone : (2 : Rat) ^ (-(t.fb : Int)) ≤ 1 := zpow_le_one_of_nonpos₀ one_le_two (by omega)
  exact mul_le_mul (zpow_le_zpow_right₀ one_le_two hparts.2) (by linarith) (by linarith) (by positivity)

/-- Where the exact value does not exceed a number of the format, .SAT has no bearing. -/
theorem rounds_sat {f : Fmt} {rm : RM} {x : Rat} {r : Nat × Sticky} (h : Sys2Proof.Claims.rounds f rm false x r) (hx : |x| ≤ f.greatest)
    (sat : Bool) : Sys2Proof.Claims.rounds f rm sat x r := by
  refine ⟨h.1, fun hof => ?_⟩
  obtain ⟨-, hpast, -⟩ := h.2 hof
  obtain ⟨p, hp, hv⟩ := f.exists_greatest
  have hlt := hpast p _ hp hv
  rw [rat_abs_eq, rat_abs_eq] at hlt
  exact absurd (hx.trans (le_abs_self _)) (not_le.2 hlt)

/-- A conversion to a format is its exact value rounded once; .SAT has no bearing on a wider one (04 R82). -/
theorem cvtFmt_rounds {t u : Fmt} (ht : t ∈ [Fmt.f16, .bf16, .f32, .f64]) (hu : u ∈ [Fmt.f16, .bf16, .f32, .f64]) (rm : RM) (sat : Bool)
    {a : Nat} (ha : (t.decode a).rat = some x) (hv : Sys2Proof.Claims.value t a = some x) (hx : x ≠ 0) :
    Sys2Proof.Claims.rounds u rm sat x (cvtFmt t u rm sat a) := by
  have hfin : (t.decode a).isSnan = false := by
    obtain ⟨_, _, _, h, -⟩ := FVal.rat_eq_some.1 ha
    rw [h]
    rfl
  have his : Exact.Is ⟨t.decode a, when (t.decode a).isSnan fNV, false⟩ x := ⟨ha, by simp [hfin, when], rfl⟩
  have hu4 : u ≠ .e4m3 := by rintro rfl; simp at hu
  have hrounds (sat : Bool) := his.deliver_rounds hu4 rm sat hx
  unfold cvtFmt cvtFloat
  by_cases hw : u.width ≤ t.width
  · simpa [hw] using hrounds sat
  · rw [decide_eq_false hw, Bool.and_false]
    exact rounds_sat (hrounds false) ((Fmt.value_abs_le hv).trans (Fmt.greatest_le (not_le.1 hw) ht hu)) sat

/-! ### Square roots -/

/-- `P` holds of x's root, where it is rational, and otherwise of each rational number in an interval around it. -/
def AroundRoot (x : Rat) (P : Rat → Prop) : Prop :=
  ∃ b, 0 < b ∧ (b * b = x ∧ P b ∨ ∃ c, b < c ∧ b * b < x ∧ x < c * c ∧ ∀ w, b < w → w < c → P w)

/-- A number whose square lies between two others. -/
theorem exists_square_between {l r : Rat} (h : l < r) (hr : 0 < r) : ∃ w, 0 < w ∧ l < w * w ∧ w * w < r := by
  obtain ⟨w, hw, hl, hr⟩ := exists_rat_pow_btwn two_ne_zero h hr
  rw [Rat.cast_id, sq] at hl hr
  exact ⟨w, hw, hl, hr⟩

namespace AroundRoot

variable {P : Rat → Prop}

/-- P holds of a number past any that lies below the root, up to the root. -/
theorem below (h : AroundRoot x P) {z : Rat} (hz : z * z < x) : ∃ w, z < w ∧ 0 < w ∧ w * w ≤ x ∧ P w := by
  obtain ⟨b, hb, ⟨rfl, hP⟩ | ⟨c, hbc, hbx, hxc, hP⟩⟩ := h
  · exact ⟨b, lt_of_mul_self_lt_mul_self₀ hb.le hz, hb, le_rfl, hP⟩
  · obtain ⟨w, hw, hlow, hhigh⟩ := exists_square_between (max_lt hz hbx) ((mul_self_nonneg b).trans_lt hbx)
    obtain ⟨hzw, hbw⟩ := max_lt_iff.1 hlow
    exact ⟨w, lt_of_mul_self_lt_mul_self₀ hw.le hzw, hw, hhigh.le,
      hP w (lt_of_mul_self_lt_mul_self₀ hw.le hbw) (lt_of_mul_self_lt_mul_self₀ (hb.trans hbc).le (hhigh.trans hxc))⟩

/-- P holds of a number before any that lies above the root, down to the root. -/
theorem above (h : AroundRoot x P) {z : Rat} (h0 : 0 ≤ z) (hz : x < z * z) : ∃ w, w < z ∧ 0 < w ∧ x ≤ w * w ∧ P w := by
  obtain ⟨b, hb, ⟨rfl, hP⟩ | ⟨c, hbc, hbx, hxc, hP⟩⟩ := h
  · exact ⟨b, lt_of_mul_self_lt_mul_self₀ h0 hz, hb, le_rfl, hP⟩
  · obtain ⟨w, hw, hlow, hhigh⟩ := exists_square_between (lt_min hz hxc) ((mul_self_nonneg b).trans_lt (hbx.trans (lt_min hz hxc)))
    obtain ⟨hwz, hwc⟩ := lt_min_iff.1 hhigh
    exact ⟨w, lt_of_mul_self_lt_mul_self₀ h0 hwz, hw, hlow.le,
      hP w (lt_of_mul_self_lt_mul_self₀ hw.le (hbx.trans hlow)) (lt_of_mul_self_lt_mul_self₀ (hb.trans hbc).le hwc)⟩

/-- P holds of the root, where it is rational. -/
theorem root (h : AroundRoot x P) {z : Rat} (hz : 0 < z) (hx : z * z = x) : P z := by
  obtain ⟨b, hb, ⟨hbx, hP⟩ | ⟨c, hbc, hbx, hxc, hP⟩⟩ := h
  · rwa [(mul_self_inj hz.le hb.le).1 (hx.trans hbx.symm)]
  · rw [← hx] at hbx hxc
    exact hP z (lt_of_mul_self_lt_mul_self₀ hz.le hbx) (lt_of_mul_self_lt_mul_self₀ (hb.trans hbc).le hxc)

theorem below_le (h : AroundRoot x P) {z : Rat} (h0 : 0 ≤ z) (hx : 0 < x) (hz : z * z ≤ x) : ∃ w, z ≤ w ∧ 0 < w ∧ P w := by
  rcases hz.lt_or_eq with hlt | heq
  · obtain ⟨w, hzw, hw, -, hP⟩ := h.below hlt
    exact ⟨w, hzw.le, hw, hP⟩
  · have hz : 0 < z := h0.lt_of_ne' (left_ne_zero_of_mul (heq.trans_ne hx.ne'))
    exact ⟨z, le_rfl, hz, h.root hz heq⟩

theorem above_le (h : AroundRoot x P) {z : Rat} (h0 : 0 ≤ z) (hx : 0 < x) (hz : x ≤ z * z) : ∃ w, w ≤ z ∧ 0 < w ∧ P w := by
  rcases hz.lt_or_eq with hlt | heq
  · obtain ⟨w, hwz, hw, -, hP⟩ := h.above h0 hlt
    exact ⟨w, hwz.le, hw, hP⟩
  · have hz : 0 < z := h0.lt_of_ne' (left_ne_zero_of_mul (heq.symm.trans_ne hx.ne'))
    exact ⟨z, le_rfl, hz, h.root hz heq.symm⟩

theorem mono {Q : Rat → Prop} (h : AroundRoot x P) (hPQ : ∀ w, P w → Q w) : AroundRoot x Q := by
  obtain ⟨b, hb, ⟨hbx, hP⟩ | ⟨c, hbc, hbx, hxc, hP⟩⟩ := h
  · exact ⟨b, hb, .inl ⟨hbx, hPQ b hP⟩⟩
  · exact ⟨b, hb, .inr ⟨c, hbc, hbx, hxc, fun w hbw hwc => hPQ w (hP w hbw hwc)⟩⟩

/-- What says that v is the number of which P holds says that v is the root. -/
theorem eq_iff (h : AroundRoot x P) {v : Rat} {isExact : Prop} (hv : 0 < v) (hP : ∀ w, P w → (isExact ↔ v = w)) : isExact ↔ v * v = x := by
  obtain ⟨b, hb, ⟨rfl, hb'⟩ | ⟨c, hbc, hbx, hxc, hall⟩⟩ := h
  · exact (hP b hb').trans (mul_self_inj hv.le hb.le).symm
  · obtain ⟨w, hbw, hwc⟩ := exists_between hbc
    obtain ⟨w', hbw', hww'⟩ := exists_between hbw
    have hnot : ¬isExact := fun he =>
      hww'.ne' (((hP w (hall w hbw hwc)).1 he).symm.trans ((hP w' (hall w' hbw' (hww'.trans hwc))).1 he))
    refine iff_of_false hnot fun hvx => hnot ((hP v (hall v ?_ ?_)).2 rfl)
    · exact lt_of_mul_self_lt_mul_self₀ hv.le (hvx ▸ hbx)
    · exact lt_of_mul_self_lt_mul_self₀ (hb.trans hbc).le (hvx ▸ hxc)

end AroundRoot

/-- `sqrtE` takes the integer root of the operand in units of a square. -/
theorem sqrtE_eq {m : Nat} (hm : m ≠ 0) (e : Int) : ∃ (n : Nat) (h : Int), 2 ^ 140 ≤ n ∧ (m : Rat) * 2 ^ e = n * (2 ^ h * 2 ^ h) ∧
    sqrtE (.fin false m e) = ⟨.fin false (Nat.sqrt n) h, 0, decide (Nat.sqrt n * Nat.sqrt n ≠ n)⟩ := by
  have hunit (k : Int) : (2 : Rat) ^ (2 * k) = 2 ^ 140 * (2 ^ (k - 70) * 2 ^ (k - 70)) := by
    rw [← zpow_add₀ two_ne_zero, ← zpow_natCast, ← zpow_add₀ two_ne_zero]
    congr 1
    push_cast
    omega
  rcases Int.even_or_odd' e with ⟨k, rfl | rfl⟩
  · refine ⟨m * 2 ^ 140, k - 70, Nat.le_mul_of_pos_left _ (Nat.pos_of_ne_zero hm), ?_, ?_⟩
    · rw [hunit]
      push_cast
      ring
    · simp only [sqrtE, if_neg hm, show 2 * k % 2 = 0 by omega, show 2 * k / 2 = k by omega, if_true, Bool.false_eq_true, if_false]
  · refine ⟨2 * m * 2 ^ 140, k - 70, Nat.le_mul_of_pos_left _ (by omega), ?_, ?_⟩
    · rw [zpow_add_one₀ two_ne_zero, hunit]
      push_cast
      ring
    · simp only [sqrtE, if_neg hm, show ¬(2 * k + 1) % 2 = 0 by omega, show (2 * k + 1 - 1) / 2 = k by omega, Bool.false_eq_true, if_false]

/-- A square root is what is made of every number in an interval around the root. -/
theorem fsqrt_around (hf : f ≠ .e4m3) (rm : RM) (sat : Bool) {a : Nat} (ha : (f.decode a).rat = some x) (hx : 0 < x) :
    AroundRoot x (fun w => Sys2Proof.Claims.rounds f rm sat w (fsqrt f rm sat a)) := by
  obtain ⟨neg, m, e, hval, hm, rfl⟩ := FVal.rat_ne_zero ha hx.ne'
  obtain rfl : neg = false := by
    rw [← Bool.not_eq_true]
    intro hn
    rw [mul_assoc] at hx
    exact hx.not_gt ((signOf_mul_lt_zero neg (by positivity)).2 hn)
  obtain ⟨n, h, hn, hme, heq⟩ := sqrtE_eq hm e
  set r := Nat.sqrt n with hr
  set u : Rat := 2 ^ h
  have hsqrt : fsqrt f rm sat a = roundFin f rm sat false r h (decide (r * r ≠ n)) := by
    simp [fsqrt, hval, heq, deliver]
  have hx : signOf false * (m : Rat) * 2 ^ e = n * (u * u) := by
    rw [show signOf false = 1 from rfl, one_mul, hme]
  have hupos : 0 < u := by positivity
  have hr70 : 2 ^ 70 ≤ r := by rwa [hr, Nat.le_sqrt, ← pow_add]
  have hr0 : 0 < r := (Nat.two_pow_pos 70).trans_le hr70
  have hbits : 70 ≤ Nat.log2 r := (Nat.le_log2 hr0.ne').2 hr70
  have hround {θ : Rat} (h0 : 0 ≤ θ) (h1 : θ < 1) (hθ : θ ≠ 0 ↔ r * r ≠ n) :
      Sys2Proof.Claims.rounds f rm sat ((r + θ) * u) (fsqrt f rm sat a) := by
    have h := roundFin_rounds_mode hf rm sat false hr0.ne' h h0 h1 (fun _ => (f.fb_lt.trans_le (by omega)).trans_le hbits)
    rwa [show signOf false = 1 from rfl, one_mul, decide_eq_decide.2 hθ, ← hsqrt] at h
  have hrpos : (0 : Rat) < r := by exact_mod_cast hr0
  refine ⟨r * u, by positivity, ?_⟩
  rw [hx]
  by_cases hrr : r * r = n
  · refine .inl ⟨?_, by simpa using hround le_rfl one_pos (by simp [hrr])⟩
    rw [← hrr]
    push_cast
    ring
  · refine .inr ⟨(r + 1) * u, by linarith, ?_, ?_, fun w hlow hhigh => ?_⟩
    · have hlt : ((r * r : Nat) : Rat) < n := by exact_mod_cast lt_of_le_of_ne (Nat.sqrt_le n) hrr
      calc r * u * (r * u) = (r * r : Nat) * (u * u) := by push_cast; ring
        _ < n * (u * u) := mul_lt_mul_of_pos_right hlt (by positivity)
    · have hlt : (n : Rat) < ((r + 1) * (r + 1) : Nat) := by exact_mod_cast Nat.lt_succ_sqrt n
      calc n * (u * u) < ((r + 1) * (r + 1) : Nat) * (u * u) := mul_lt_mul_of_pos_right hlt (by positivity)
        _ = (r + 1) * u * ((r + 1) * u) := by push_cast; ring
    · have h0 : 0 < w / u - r := sub_pos.2 ((lt_div_iff₀ hupos).2 hlow)
      have h1 : w / u - r < 1 := by linarith [(div_lt_iff₀ hupos).2 hhigh]
      have h := hround h0.le h1 (iff_of_true h0.ne' hrr)
      rwa [add_sub_cancel, div_mul_cancel₀ _ hupos.ne'] at h

/-- A number that is positive has a root well inside a format's range. -/
theorem Fmt.sqrt_range {f : Fmt} (hf : f ∈ [Fmt.f16, .bf16, .f32, .f64]) {a : Nat} (ha : Sys2Proof.Claims.value f a = some x) (hx : 0 < x) :
    (2 : Rat) ^ f.emin * 2 ^ f.emin < x ∧ x < f.greatest * f.greatest := by
  have hparts : f.emin + f.emin < f.emin - f.fb ∧ f.emax + 1 ≤ f.emax + f.emax := by
    revert hf
    cases f <;> decide
  obtain ⟨neg, n, q, hs, rfl⟩ := Fmt.value_spells ha
  constructor
  · have hn : (1 : Rat) ≤ n := by
      have : n ≠ 0 := by rintro rfl; simp at hx
      exact_mod_cast Nat.one_le_iff_ne_zero.2 this
    rw [← abs_of_pos hx, abs_signOf_mul neg n.cast_nonneg, ← zpow_add₀ two_ne_zero]
    calc (2 : Rat) ^ (f.emin + f.emin) < 2 ^ q := zpow_lt_zpow_right₀ one_lt_two (by have := hs.ge; omega)
      _ ≤ n * 2 ^ q := le_mul_of_one_le_left (by positivity) hn
  · have hle : (2 : Rat) ^ f.emax ≤ f.greatest := by
      have : (2 : Rat) ^ (-(f.fb : Int)) ≤ 1 := zpow_le_one_of_nonpos₀ one_le_two (by omega)
      exact le_mul_of_one_le_right (by positivity) (by linarith)
    calc _ ≤ |signOf neg * (n : Rat) * 2 ^ q| := le_abs_self _
      _ < 2 ^ (f.emax + 1) := Fmt.value_abs_lt ha
      _ ≤ 2 ^ (f.emax + f.emax) := zpow_le_zpow_right₀ one_le_two hparts.2
      _ = 2 ^ f.emax * 2 ^ f.emax := zpow_add₀ two_ne_zero ..
      _ ≤ f.greatest * f.greatest := mul_self_le_mul_self (by positivity) hle

/-- Sticky bits that hold NX and UF at most, and not UF. -/
theorem sticky_eq_of_not_uf (g : Sticky) (h : g &&& ~~~(fNX ||| fUF) = 0) (huf : g &&& fUF = 0) : g = if g &&& fNX ≠ 0 then fNX else 0 := by
  revert g
  decide

theorem Fmt.value_nonneg {f : Fmt} {p : Nat} {v : Rat} (h : Sys2Proof.Claims.value f p = some v) (hp : p / 2 ^ (f.eb + f.fb) = 0) : 0 ≤ v := by
  rw [Fmt.value_eq, hp] at h
  split at h
  · cases h
  · rw [← Option.some.inj h]
    have hmag : 0 ≤ f.magnitude (p / 2 ^ f.fb % 2 ^ f.eb) (p % 2 ^ f.fb) := by
      unfold Fmt.magnitude
      split <;> positivity
    simpa [signOf] using hmag

/-- A positive operand's square root is rounded once: it neither overflows nor underflows (18 R335). -/
theorem fsqrt_rounds {t : Fmt} (ht : t ∈ [Fmt.f16, .bf16, .f32, .f64]) (rm : RM) (sat : Bool) {a : Nat}
    (ha : Sys2Proof.Claims.value t a = some x) (hx : 0 < x) :
    ∃ v, Sys2Proof.Claims.value t (fsqrt t rm sat a).1 = some v ∧ 0 < v ∧ (fsqrt t rm sat a).2 = (if v * v = x then 0 else fNX) ∧
      AroundRoot x (fun w => Sys2Proof.Claims.roundedTo t rm w (fsqrt t rm sat a).1) := by
  have hf : t ≠ .e4m3 := by rintro rfl; simp at ht
  have haround := fsqrt_around hf rm sat ((Fmt.decode_rat hf a).trans ha) hx
  obtain ⟨hmin, hmax⟩ := Fmt.sqrt_range ht ha hx
  generalize fsqrt t rm sat a = y at haround
  obtain ⟨p, hp, hgreatest⟩ := t.exists_greatest
  have hgreatest0 : 0 ≤ t.greatest := (abs_nonneg _).trans (Fmt.value_abs_le hgreatest)
  have hof : y.2 &&& fOF = 0 := by
    by_contra hof
    obtain ⟨w, hw, hw0, -, hround⟩ := haround.above hgreatest0 hmax
    have hpast := (hround.2 hof).2.1 p _ hp hgreatest
    rw [rat_abs_eq, rat_abs_eq, abs_of_pos hw0] at hpast
    exact hw.not_gt ((le_abs_self _).trans_lt hpast)
  have hround := haround.mono fun w h => h.1 hof
  obtain ⟨w, hw, hw0, -, ⟨-, hsign, v, hv, -⟩, hbits, hnx, huf, hsub⟩ := hround.below hmin
  have hnouf : y.2 &&& fUF = 0 := by
    by_contra h
    have hlt := (huf h).2
    rw [rat_abs_eq, abs_of_pos hw0] at hlt
    exact hw.not_gt hlt
  rw [if_neg hw0.not_gt] at hsign
  have hexact (w : Rat) : Sys2Proof.Claims.value t y.1 ≠ some w ↔ v ≠ w := by rw [hv, ne_eq, Option.some_inj]
  have hv0 : 0 < v := by
    refine (Fmt.value_nonneg hv hsign).lt_of_ne' fun h0 => hsub (hnx.2 ?_) (fun v' hv' => ?_) hnouf
    · exact (hexact w).2 (h0.trans_ne hw0.ne)
    · rw [← Option.some.inj (hv.symm.trans hv'), h0]
      exact (by positivity : (0 : Rat) < 2 ^ t.emin)
  have hnx' := hround.eq_iff (isExact := y.2 &&& fNX = 0) hv0 fun w ⟨_, _, hnx, _⟩ => not_iff_not.1 (hnx.trans (hexact w))
  refine ⟨v, hv, hv0, ?_, hround.mono fun w h => h.1⟩
  rw [sticky_eq_of_not_uf y.2 hbits hnouf]
  simp only [ne_eq, hnx', ite_not]

/-- v is the root of x as a mode rounds it, as against the number q. -/
def RootRounded (rm : RM) (x v q : Rat) : Prop := match rm with
  | .rne => (v < q → 4 * x ≤ (v + q) * (v + q)) ∧ (q < v → (v + q) * (v + q) ≤ 4 * x)
  | .rup => x ≤ v * v ∧ (x ≤ q * q → v ≤ q)
  | _ => v * v ≤ x ∧ (q * q ≤ x → q ≤ v)

/-- w is rounded to v by a mode, as against the number q. -/
def RoundedAgainst (rm : RM) (w v q : Rat) : Prop := match rm with
  | .rne => |v - w| ≤ |q - w|
  | .rtz => |v| ≤ |w| ∧ (|q| ≤ |w| → |q| ≤ |v|)
  | .rup => w ≤ v ∧ (w ≤ q → v ≤ q)
  | .rdn => v ≤ w ∧ (q ≤ w → q ≤ v)

/-- What is the rounded value of every number around the root is the root rounded by the mode (04 R77). -/
theorem AroundRoot.rounded {t : Fmt} {r : Nat} {v : Rat} (h : AroundRoot x (fun w => Sys2Proof.Claims.roundedTo t rm w r)) (hx : 0 < x)
    (hv : Sys2Proof.Claims.value t r = some v) (hv0 : 0 < v) {p : Nat} {q : Rat} (hp : p < 2 ^ t.width)
    (hq : Sys2Proof.Claims.value t p = some q) (hq0 : 0 ≤ q) : RootRounded rm x v q := by
  have hcmp (w : Rat) (hw : Sys2Proof.Claims.roundedTo t rm w r) : RoundedAgainst rm w v q := by
    obtain ⟨-, -, v', hv', hall⟩ := hw
    obtain rfl := Option.some.inj (hv.symm.trans hv')
    have hall := hall p q hp hq
    cases rm <;> simp_all [RoundedAgainst, rat_abs_eq]
  cases rm with
  | rne =>
    refine ⟨fun hvq => ?_, fun hqv => ?_⟩
    · by_contra hlt
      obtain ⟨w, hw, -, -, hP⟩ := h.below (z := (v + q) / 2) (by linarith)
      have hle : |v - w| ≤ |q - w| := hcmp w hP
      rw [abs_of_nonpos (by linarith)] at hle
      rcases le_abs.1 hle with hle | hle <;> linarith
    · by_contra hlt
      obtain ⟨w, hw, -, -, hP⟩ := h.above (z := (v + q) / 2) (by linarith) (by linarith)
      have hle : |v - w| ≤ |q - w| := hcmp w hP
      rw [abs_of_nonneg (by linarith)] at hle
      rcases le_abs.1 hle with hle | hle <;> linarith
  | rup =>
    refine ⟨?_, fun hxq => ?_⟩
    · by_contra hlt
      obtain ⟨w, hw, -, -, hP⟩ := h.below (not_le.1 hlt)
      exact hw.not_ge (hcmp w hP).1
    · obtain ⟨w, hw, -, hP⟩ := h.above_le hq0 hx hxq
      exact (hcmp w hP).2 hw
  | rdn =>
    refine ⟨?_, fun hxq => ?_⟩
    · by_contra hlt
      obtain ⟨w, hw, -, -, hP⟩ := h.above hv0.le (not_le.1 hlt)
      exact hw.not_ge (hcmp w hP).1
    · obtain ⟨w, hw, -, hP⟩ := h.below_le hq0 hx hxq
      exact (hcmp w hP).2 hw
  | rtz =>
    refine ⟨?_, fun hxq => ?_⟩
    · by_contra hlt
      obtain ⟨w, hw, hw0, -, hP⟩ := h.above hv0.le (not_le.1 hlt)
      have hle := (hcmp w hP).1
      rw [abs_of_pos hv0, abs_of_pos hw0] at hle
      exact hw.not_ge hle
    · obtain ⟨w, hw, hw0, hP⟩ := h.below_le hq0 hx hxq
      have hle := (hcmp w hP).2
      rw [abs_of_nonneg hq0, abs_of_pos hv0, abs_of_pos hw0] at hle
      exact hle hw

/-- Settles O16: exact values of sums, products and conversions, and quotients and roots between two multiples, are rounded by `roundFin`. -/
theorem floatResultsRoundOnce : Obligations.FloatResultsRoundOnce := by
  unfold Obligations.FloatResultsRoundOnce
  intro t rm sat a b d x y z ht _ _ _ hva hvb hvd rounds
  have hf : t ≠ .e4m3 := by rintro rfl; simp at ht
  have ha := (Fmt.decode_rat hf a).trans hva
  have hb := (Fmt.decode_rat hf b).trans hvb
  have hd := (Fmt.decode_rat hf d).trans hvd
  refine ⟨roundSum_rounds_mode hf rm sat ha hb, fun hne => ?_, (mulE_is ha hb).deliver_rounds hf rm sat, fdiv_rounds hf rm sat ha hb,
    ffma_rounds hf rm sat false ha hb hd, fun hne => ?_, fun hx => ?_, fun i hi => ?_, fun u hu => cvtFmt_rounds ht hu rm sat ha hva⟩
  · rw [sub_eq_add_neg] at hne ⊢
    exact roundSum_rounds_mode hf rm sat ha (FVal.neg_rat hb) hne
  · rw [sub_eq_neg_add] at hne ⊢
    exact ffma_rounds hf rm sat true ha hb hd hne
  · obtain ⟨v, hv, hv0, hflags, hround⟩ := fsqrt_rounds ht rm sat hva hx
    refine ⟨v, hv, hv0, hflags, fun p q hp hq hq0 => ?_⟩
    have hroot := hround.rounded hx hv hv0 hp hq hq0
    cases rm <;> exact hroot
  · have h := roundFin_exact hf rm sat (decide (i < 0)) (Int.natAbs_ne_zero.2 hi) 0
    rwa [signOf_decide_mul_natAbs, zpow_zero, mul_one] at h

end Sys2Proof.Machine
end

section
/-! Operations on NaNs, infinities and zeros, and obligation O17 (18 R335, 04 R71, R78). -/

namespace Sys2Proof.Machine

variable {f : Fmt} {b : Nat}

/-! ### What a pattern decodes to -/

/-- The sign of a pattern. -/
def Fmt.negAt (f : Fmt) (b : Nat) : Bool := decide (b / 2 ^ (f.eb + f.fb) % 2 = 1)

theorem Fmt.mod_top (f : Fmt) (b : Nat) : b % 2 ^ (f.eb + f.fb) = b % 2 ^ f.fb + 2 ^ f.fb * (b / 2 ^ f.fb % 2 ^ f.eb) := by
  rw [add_comm f.eb, pow_add, Nat.mod_mul]

theorem Fmt.eq_signBit_add (hb : b < 2 ^ f.width) : b = f.signBit (f.negAt b) + b % 2 ^ (f.eb + f.fb) := by
  have hlt : b / 2 ^ (f.eb + f.fb) < 2 := by
    rw [Nat.div_lt_iff_lt_mul (by positivity), ← pow_succ']
    rwa [Fmt.width, add_assoc, add_comm 1] at hb
  have hdiv := (Nat.div_add_mod b (2 ^ (f.eb + f.fb))).symm
  rw [Fmt.negAt, Fmt.signBit]
  interval_cases h : b / 2 ^ (f.eb + f.fb) <;> simpa using hdiv

/-- The exponent field is all ones from the infinity on. -/
theorem Fmt.inf_le_iff (f : Fmt) (b : Nat) : f.inf false ≤ b % 2 ^ (f.eb + f.fb) ↔ b / 2 ^ f.fb % 2 ^ f.eb = 2 ^ f.eb - 1 := by
  have hfr : b % 2 ^ f.fb < 2 ^ f.fb := Nat.mod_lt _ (by positivity)
  have hx : b / 2 ^ f.fb % 2 ^ f.eb < 2 ^ f.eb := Nat.mod_lt _ (by positivity)
  have hinf : f.inf false = 2 ^ f.fb * (2 ^ f.eb - 1) := by simp [Fmt.inf, Fmt.signBit, mul_comm]
  rw [f.mod_top, hinf]
  refine ⟨fun h => le_antisymm (Nat.le_sub_one_of_lt hx) ?_, fun h => h ▸ Nat.le_add_left _ _⟩
  by_contra hlt
  have hstep := Nat.mul_le_mul_left (2 ^ f.fb) (Nat.succ_le_of_lt (not_le.1 hlt))
  rw [Nat.mul_succ] at hstep
  omega

theorem Fmt.mod_top_of_inf_le (h : f.inf false ≤ b % 2 ^ (f.eb + f.fb)) : b % 2 ^ (f.eb + f.fb) = b % 2 ^ f.fb + f.inf false := by
  rw [f.mod_top, (f.inf_le_iff b).1 h]
  simp [Fmt.inf, Fmt.signBit, mul_comm]

theorem Fmt.decode_nan (hf : f ≠ .e4m3) (h : f.inf false < b % 2 ^ (f.eb + f.fb)) :
    f.decode b = .nan (decide (b % 2 ^ f.fb < 2 ^ (f.fb - 1))) := by
  have hfr : b % 2 ^ f.fb ≠ 0 := by
    have := Fmt.mod_top_of_inf_le h.le
    omega
  simp [Fmt.decode, hf, (f.inf_le_iff b).1 h.le, hfr]

theorem Fmt.decode_inf (hf : f ≠ .e4m3) (h : b % 2 ^ (f.eb + f.fb) = f.inf false) : f.decode b = .inf (f.negAt b) := by
  have hfr : b % 2 ^ f.fb = 0 := by
    have := Fmt.mod_top_of_inf_le h.ge
    omega
  simp [Fmt.decode, hf, (f.inf_le_iff b).1 h.ge, hfr, Fmt.negAt]

/-- What a pattern below the infinity has for a magnitude. -/
def Fmt.finBits (f : Fmt) (b : Nat) : Nat × Int :=
  let x := b / 2 ^ f.fb % 2 ^ f.eb
  if x = 0 then (b % 2 ^ f.fb, f.emin - f.fb) else (b % 2 ^ f.fb + 2 ^ f.fb, (x : Int) - f.bias - f.fb)

theorem Fmt.decode_fin (hf : f ≠ .e4m3) (h : b % 2 ^ (f.eb + f.fb) < f.inf false) :
    f.decode b = .fin (f.negAt b) (f.finBits b).1 (f.finBits b).2 := by
  have hx : b / 2 ^ f.fb % 2 ^ f.eb ≠ 2 ^ f.eb - 1 := fun hx => h.not_ge ((f.inf_le_iff b).2 hx)
  by_cases h0 : b / 2 ^ f.fb % 2 ^ f.eb = 0
  · rw [h0] at hx
    simp [Fmt.decode, hf, h0, hx, Fmt.finBits, Fmt.negAt]
  · simp [Fmt.decode, hf, h0, hx, Fmt.finBits, Fmt.negAt]

theorem Fmt.finBits_eq_zero (f : Fmt) (b : Nat) : (f.finBits b).1 = 0 ↔ b % 2 ^ (f.eb + f.fb) = 0 := by
  have hpos := Nat.two_pow_pos f.fb
  rw [f.mod_top, Fmt.finBits]
  by_cases h0 : b / 2 ^ f.fb % 2 ^ f.eb = 0 <;> simp [h0]

/-- Whether a pattern is a signalling NaN. -/
theorem Fmt.isSnan_decode (hf : f ≠ .e4m3) (b : Nat) : (f.decode b).isSnan = true ↔
    f.inf false < b % 2 ^ (f.eb + f.fb) ∧ b % 2 ^ f.fb < 2 ^ (f.fb - 1) := by
  rcases lt_trichotomy (b % 2 ^ (f.eb + f.fb)) (f.inf false) with h | h | h
  · simp [Fmt.decode_fin hf h, FVal.isSnan, h.le]
  · simp [Fmt.decode_inf hf h, FVal.isSnan, h]
  · simp [Fmt.decode_nan hf h, FVal.isSnan, h]

/-- The pattern with its sign inverted has the value with its sign inverted. -/
theorem Fmt.decode_signBit_add (f : Fmt) (neg : Bool) {r : Nat} (hr : r < 2 ^ (f.eb + f.fb)) :
    (f.signBit neg + r) % 2 ^ (f.eb + f.fb) = r ∧ f.negAt (f.signBit neg + r) = neg ∧ f.finBits (f.signBit neg + r) = f.finBits r := by
  have hbits : f.signBit neg + r = r + 2 ^ (f.eb + f.fb) * neg.toNat := by cases neg <;> simp [Fmt.signBit, add_comm]
  have hsplit : 2 ^ (f.eb + f.fb) * neg.toNat = 2 ^ f.fb * (2 ^ f.eb * neg.toNat) := by rw [add_comm f.eb, pow_add, mul_assoc]
  refine ⟨?_, ?_, ?_⟩
  · rw [hbits, Nat.add_mul_mod_self_left, Nat.mod_eq_of_lt hr]
  · rw [Fmt.negAt, hbits, Nat.add_mul_div_left _ _ (by positivity), Nat.div_eq_of_lt hr]
    cases neg <;> rfl
  · rw [Fmt.finBits, Fmt.finBits, hbits, hsplit, Nat.add_mul_mod_self_left, Nat.add_mul_div_left _ _ (by positivity),
      Nat.add_mul_mod_self_left]

/-! ### What the operations make of values -/

variable {rm : RM} {sat : Bool}

/-- An infinite result as it is delivered: ±max with OF and NX under .SAT (04 R78). -/
def Fmt.infResult (f : Fmt) (sat neg : Bool) (g : Sticky) : Nat × Sticky :=
  if sat then (f.inf neg - 1, g ||| fOF ||| fNX) else (f.inf neg, g)

theorem deliver_inf (hf : f ≠ .e4m3) (neg : Bool) (g : Sticky) (st : Bool) : deliver f rm sat ⟨.inf neg, g, st⟩ = f.infResult sat neg g := by
  have hmax : f.max neg = f.inf neg - 1 := by
    have : 1 ≤ (2 ^ f.eb - 1) * 2 ^ f.fb := by cases f <;> decide
    simp only [Fmt.max, Fmt.inf, if_neg hf]
    omega
  cases sat <;> simp [deliver, Fmt.infResult, hf, hmax]

theorem deliver_zero (neg : Bool) (e : Int) : deliver f rm sat ⟨.fin neg 0 e, 0, false⟩ = (f.signBit neg, 0) := by
  simp [deliver, roundFin]

/-- What an operation of two values gives where one is a NaN: NV where one signals (04 R71). -/
theorem nan_operands {x y : FVal} (h : x.isNan = true ∨ y.isNan = true) :
    let r : Exact := ⟨.nan false, when (x.isSnan || y.isSnan) fNV, false⟩
    addE x y = r ∧ mulE x y = r ∧ divE x y = r := by
  cases x <;> cases y <;> simp_all [FVal.isNan, addE, mulE, divE, FVal.isSnan]

theorem roundSum_nan {x y : FVal} (h : x.isNan = true ∨ y.isNan = true) :
    roundSum f rm sat x y 0 = (f.nan, when (x.isSnan || y.isSnan) fNV) := by
  simp [roundSum, (nan_operands h).1, FVal.isZero, deliver]

/-- A sum of two values that cancel is a zero, negative under .RDN only (18 R335). -/
theorem roundSum_neg (neg : Bool) (m : Nat) (e : Int) :
    roundSum f rm sat (.fin neg m e) (.fin (!neg) m e) 0 = (f.signBit (decide (rm = .rdn)), 0) := by
  have hsum : signedAt neg m e e + signedAt (!neg) m e e = 0 := by cases neg <;> simp [signedAt]
  by_cases hm : m = 0
  · subst hm
    cases neg <;> simp [roundSum, addE, FVal.isZero, FVal.isNeg]
  · simp [roundSum, addE, hm, hsum, FVal.isZero]

theorem roundSum_zeros (neg : Bool) (e : Int) : roundSum f rm sat (.fin neg 0 e) (.fin neg 0 e) 0 = (f.signBit neg, 0) := by
  simp [roundSum, addE, FVal.isZero, FVal.isNeg]

theorem roundSum_inf_inf (hf : f ≠ .e4m3) (x y : Bool) :
    roundSum f rm sat (.inf x) (.inf y) 0 = if x = y then f.infResult sat x 0 else (f.nan, fNV) := by
  by_cases h : x = y
  · simp [roundSum, addE, h, FVal.isZero, deliver_inf hf]
  · simp [roundSum, addE, h, FVal.isZero, deliver]

theorem roundSum_inf_fin (hf : f ≠ .e4m3) (x neg : Bool) (m : Nat) (e : Int) :
    roundSum f rm sat (.inf x) (.fin neg m e) 0 = f.infResult sat x 0 ∧ roundSum f rm sat (.fin neg m e) (.inf x) 0 = f.infResult sat x 0 := by
  simp [roundSum, addE, FVal.isZero, deliver_inf hf]

/-! ### Patterns by their class -/

theorem Fmt.div_top (hb : b < 2 ^ f.width) : b / 2 ^ (f.eb + f.fb) = (f.negAt b).toNat := by
  rw [Fmt.eq_signBit_add hb]
  have hr : b % 2 ^ (f.eb + f.fb) < 2 ^ (f.eb + f.fb) := Nat.mod_lt _ (by positivity)
  generalize b % 2 ^ (f.eb + f.fb) = r at hr
  rw [(f.decode_signBit_add _ hr).2.1]
  cases f.negAt b <;> simp [Fmt.signBit, Nat.div_eq_of_lt hr, Nat.add_div_left]

/-- The sign of a product or a quotient. -/
theorem Fmt.signs_eq {a b : Nat} (ha : a < 2 ^ f.width) (hb : b < 2 ^ f.width) :
    (if a / 2 ^ (f.eb + f.fb) = b / 2 ^ (f.eb + f.fb) then 0 else 2 ^ (f.eb + f.fb)) = f.signBit (f.negAt a != f.negAt b) := by
  rw [Fmt.div_top ha, Fmt.div_top hb]
  cases f.negAt a <;> cases f.negAt b <;> rfl

theorem Fmt.lt_top_iff (hb : b < 2 ^ f.width) : b < 2 ^ (f.eb + f.fb) ↔ f.negAt b = false := by
  rw [← Nat.div_eq_zero_iff_lt (by positivity), Fmt.div_top hb, Bool.toNat_eq_zero]

theorem Fmt.inf_eq (f : Fmt) (neg : Bool) : f.inf neg = f.signBit neg + f.inf false := by
  simp [Fmt.inf, Fmt.signBit]

theorem Fmt.eq_inf (hb : b < 2 ^ f.width) (h : b % 2 ^ (f.eb + f.fb) = f.inf false) : b = f.inf (f.negAt b) := by
  rw [Fmt.inf_eq, ← h]
  exact Fmt.eq_signBit_add hb

theorem Fmt.eq_zero (hb : b < 2 ^ f.width) (h : b % 2 ^ (f.eb + f.fb) = 0) : b = f.signBit (f.negAt b) := by
  have := Fmt.eq_signBit_add hb
  rwa [h, add_zero] at this

/-- The pattern with its sign inverted. -/
theorem Fmt.opp_eq (hb : b < 2 ^ f.width) :
    (if b < 2 ^ (f.eb + f.fb) then b + 2 ^ (f.eb + f.fb) else b - 2 ^ (f.eb + f.fb)) = f.signBit (!f.negAt b) + b % 2 ^ (f.eb + f.fb) := by
  have h := Fmt.eq_signBit_add hb
  simp only [Fmt.lt_top_iff hb]
  cases hn : f.negAt b <;> simp only [hn, Fmt.signBit] at h ⊢ <;> simp at h ⊢ <;> omega

theorem when_nv (b : Bool) : (when b fNV = fNV ↔ b = true) ∧ (when b fNV = fNV ∨ when b fNV = 0) := by
  cases b <;> decide

theorem FVal.neg_nan (x : FVal) : x.neg.isNan = x.isNan ∧ x.neg.isSnan = x.isSnan := by
  cases x <;> exact ⟨rfl, rfl⟩

/-- Every operation gives the canonical NaN where an operand is a NaN (04 R71). -/
theorem nan_results {a b : Nat} (h : (f.decode a).isNan = true ∨ (f.decode b).isNan = true) {y : Nat × Sticky}
    (hy : y ∈ [fadd f rm sat a b, fsub f rm sat a b, fmul f rm sat a b, fdiv f rm sat a b]) :
    y = (f.nan, when ((f.decode a).isSnan || (f.decode b).isSnan) fNV) := by
  obtain ⟨hnan, hsnan⟩ := FVal.neg_nan (f.decode b)
  have hsub : fsub f rm sat a b = (f.nan, when ((f.decode a).isSnan || (f.decode b).isSnan) fNV) := by
    rw [fsub, roundSum_nan (by rwa [hnan]), hsnan]
  obtain ⟨-, hmul, hdiv⟩ := nan_operands h
  simp only [List.mem_cons, List.not_mem_nil, or_false] at hy
  rcases hy with rfl | rfl | rfl | rfl
  · exact roundSum_nan h
  · exact hsub
  · rw [fmul, hmul, deliver]
  · rw [fdiv, hdiv, deliver]

/-! ### Operations by what their operands decode to (18 R335, 04 R78) -/

section
variable {a : Nat} {x y na nb : Bool} {ma mb : Nat} {ea eb : Int}

theorem inf_inf_results (hf : f ≠ .e4m3) (ha : f.decode a = .inf x) (hb : f.decode b = .inf y) :
    fadd f rm sat a b = (if x = y then f.infResult sat x 0 else (f.nan, fNV)) ∧
      fsub f rm sat a b = (if x = y then (f.nan, fNV) else f.infResult sat x 0) ∧
      fmul f rm sat a b = f.infResult sat (x != y) 0 ∧ fdiv f rm sat a b = (f.nan, fNV) := by
  refine ⟨?_, ?_, ?_, ?_⟩
  · rw [fadd, ha, hb, roundSum_inf_inf hf]
  · rw [fsub, ha, hb, FVal.neg, roundSum_inf_inf hf]
    cases x <;> cases y <;> rfl
  · rw [fmul, ha, hb, mulE, deliver_inf hf]
  · rw [fdiv, ha, hb]
    rfl

theorem inf_fin_results (hf : f ≠ .e4m3) (ha : f.decode a = .inf x) (hb : f.decode b = .fin nb mb eb) :
    fadd f rm sat a b = f.infResult sat x 0 ∧ fsub f rm sat a b = f.infResult sat x 0 ∧ fdiv f rm sat a b = f.infResult sat (x != nb) 0 ∧
      fmul f rm sat a b = (if mb = 0 then (f.nan, fNV) else f.infResult sat (x != nb) 0) := by
  refine ⟨?_, ?_, ?_, ?_⟩
  · rw [fadd, ha, hb, (roundSum_inf_fin hf _ _ _ _).1]
  · rw [fsub, ha, hb, FVal.neg, (roundSum_inf_fin hf _ _ _ _).1]
  · rw [fdiv, ha, hb, divE, deliver_inf hf]
  · rw [fmul, ha, hb, mulE]
    split
    · rfl
    · exact deliver_inf hf ..

theorem fin_inf_results (hf : f ≠ .e4m3) (ha : f.decode a = .fin na ma ea) (hb : f.decode b = .inf y) :
    fadd f rm sat a b = f.infResult sat y 0 ∧ fsub f rm sat a b = f.infResult sat (!y) 0 ∧ fdiv f rm sat a b = (f.signBit (na != y), 0) ∧
      fmul f rm sat a b = (if ma = 0 then (f.nan, fNV) else f.infResult sat (na != y) 0) := by
  refine ⟨?_, ?_, ?_, ?_⟩
  · rw [fadd, ha, hb, (roundSum_inf_fin hf _ _ _ _).2]
  · rw [fsub, ha, hb, FVal.neg, (roundSum_inf_fin hf _ _ _ _).2]
  · rw [fdiv, ha, hb, divE, deliver_zero]
  · rw [fmul, ha, hb, mulE]
    split
    · rfl
    · exact deliver_inf hf ..

/-- Products and quotients of finite operands one of which is a zero. -/
theorem fin_zero_results (hf : f ≠ .e4m3) (ha : f.decode a = .fin na ma ea) (hb : f.decode b = .fin nb mb eb) :
    (ma = 0 ∨ mb = 0 → fmul f rm sat a b = (f.signBit (na != nb), 0)) ∧ (ma = 0 → mb = 0 → fdiv f rm sat a b = (f.nan, fNV)) ∧
      (ma ≠ 0 → mb = 0 → fdiv f rm sat a b = f.infResult sat (na != nb) fDZ) ∧
      (ma = 0 → mb ≠ 0 → fdiv f rm sat a b = (f.signBit (na != nb), 0)) := by
  have hdiv : fdiv f rm sat a b = deliver f rm sat (divE (.fin na ma ea) (.fin nb mb eb)) := by rw [fdiv, ha, hb]
  refine ⟨fun h => ?_, fun h h' => ?_, fun h h' => ?_, fun h h' => ?_⟩
  · rw [fmul, ha, hb, mulE, mul_eq_zero.2 h, deliver_zero]
  · rw [hdiv, divE, if_pos h', if_pos h]
    rfl
  · rw [hdiv, divE, if_pos h', if_neg h, deliver_inf hf]
  · rw [hdiv, divE, if_neg h', if_pos h, deliver_zero]

theorem fsqrt_nan (h : f.decode a = .nan x) : fsqrt f rm sat a = (f.nan, when x fNV) := by
  rw [fsqrt, h]
  rfl

theorem fsqrt_inf (hf : f ≠ .e4m3) (h : f.decode a = .inf false) : fsqrt f rm sat a = f.infResult sat false 0 := by
  rw [fsqrt, h]
  exact deliver_inf hf false 0 false

theorem fsqrt_zero (h : f.decode a = .fin na ma ea) (h0 : ma = 0) : fsqrt f rm sat a = (f.signBit na, 0) := by
  rw [fsqrt, h, sqrtE, if_pos h0, deliver_zero]

/-- The root of a negative operand other than a zero is invalid. -/
theorem fsqrt_negative (h : f.decode a = .inf true ∨ f.decode a = .fin true ma ea ∧ ma ≠ 0) : fsqrt f rm sat a = (f.nan, fNV) := by
  rcases h with h | ⟨h, h0⟩
  · rw [fsqrt, h]
    rfl
  · rw [fsqrt, h, sqrtE, if_neg h0]
    rfl

end

/-- Settles O17: each pattern decodes by its class, and each operation is decided by the classes of its operands. -/
theorem floatSpecialValues : Obligations.FloatSpecialValues := by
  unfold Obligations.FloatSpecialValues
  intro t rm sat a b ht hawidth hbwidth top nan snan inf zero finite signs opp infinite nv ops
  have hf : t ≠ .e4m3 := by rintro rfl; simp at ht
  have hinfinite (neg : Bool) (g : Sticky) : infinite (t.inf neg) g = t.infResult sat neg g := rfl
  have hsigns : signs = t.signBit (t.negAt a != t.negAt b) := Fmt.signs_eq hawidth hbwidth
  have hsignsInf (g : Sticky) : infinite (signs + t.inf false) g = t.infResult sat (t.negAt a != t.negAt b) g := by
    rw [hsigns, ← Fmt.inf_eq, hinfinite]
  have hinf {x : Nat} (hx : x < 2 ^ t.width) (h : inf x) : t.decode x = .inf (t.negAt x) ∧ x = t.inf (t.negAt x) ∧
      infinite x 0 = t.infResult sat (t.negAt x) 0 :=
    ⟨Fmt.decode_inf hf h, Fmt.eq_inf hx h, congrArg (fun y => infinite y 0) (Fmt.eq_inf hx h)⟩
  have hfin {x : Nat} (h : finite x) : t.decode x = .fin (t.negAt x) (t.finBits x).1 (t.finBits x).2 := Fmt.decode_fin hf h
  have hrdn : (if rm = .rdn then top else 0) = t.signBit (decide (rm = .rdn)) := by cases rm <;> rfl
  have hfinzero {x : Nat} (h : zero x) : finite x := by
    have : 0 < t.inf false := by cases t <;> decide
    exact (show x % top = 0 from h).trans_lt this
  have hzero (x : Nat) : (t.finBits x).1 = 0 ↔ zero x := Fmt.finBits_eq_zero t x
  have hsnan (x : Nat) : (t.decode x).isSnan = true ↔ snan x := Fmt.isSnan_decode hf x
  have hnan {x : Nat} (h : nan x) : (t.decode x).isNan = true := by rw [Fmt.decode_nan hf h]; rfl
  have hopp : opp b = t.signBit (!t.negAt b) + b % top := Fmt.opp_eq hbwidth
  refine ⟨fun h y hy => ?_, fun h => ?_, fun ha hb => ?_, fun ha hb => ?_, fun ha hb => ?_, fun ha hb => ?_, fun ha hb h => ?_,
    fun ha hb h => ?_, fun ha hb => ⟨fun h => ?_, fun h => ?_, fun h0 h => ?_⟩, fun ha => ?_, fun ha h => ?_, fun h hn => ?_⟩
  · rw [nan_results (h.imp hnan hnan) hy, ← hsnan, ← hsnan, ← Bool.or_eq_true]
    exact ⟨rfl, when_nv _⟩
  · rw [fsqrt_nan (Fmt.decode_nan hf h), ← hsnan, Fmt.decode_nan hf h]
    exact ⟨rfl, when_nv _⟩
  · obtain ⟨hda, hea, hia⟩ := hinf hawidth ha
    obtain ⟨hdb, heb, -⟩ := hinf hbwidth hb
    have hab : a = b ↔ t.negAt a = t.negAt b := ⟨fun h => h ▸ rfl, fun h => by rw [hea, heb, h]⟩
    simp only [hab, hia, hsignsInf]
    exact inf_inf_results hf hda hdb
  · obtain ⟨hda, -, hia⟩ := hinf hawidth ha
    obtain ⟨hadd, hsub, hdiv, hmul⟩ := inf_fin_results (rm := rm) (sat := sat) hf hda (hfin hb)
    rw [hia, hsignsInf]
    exact ⟨hadd, hsub, hdiv, fun h0 => hmul.trans (if_pos ((hzero b).2 h0)), fun h0 => hmul.trans (if_neg (mt (hzero b).1 h0))⟩
  · obtain ⟨hdb, -, hib⟩ := hinf hbwidth hb
    have hib' : infinite (opp b) 0 = t.infResult sat (!t.negAt b) 0 := by rw [hopp, hb, ← Fmt.inf_eq, hinfinite]
    obtain ⟨hadd, hsub, hdiv, hmul⟩ := fin_inf_results (rm := rm) (sat := sat) hf (hfin ha) hdb
    rw [hib, hib', hsignsInf, hsigns]
    exact ⟨hadd, hsub, hdiv, fun h0 => hmul.trans (if_pos ((hzero a).2 h0)), fun h0 => hmul.trans (if_neg (mt (hzero a).1 h0))⟩
  · obtain ⟨-, hinvalid, hdz, -⟩ := fin_zero_results (rm := rm) (sat := sat) hf (hfin ha) (hfin (hfinzero hb))
    rw [hsignsInf]
    exact ⟨fun h0 => hinvalid ((hzero a).2 h0) ((hzero b).2 hb), fun h0 => hdz (mt (hzero a).1 h0) ((hzero b).2 hb)⟩
  · rw [hsigns]
    exact (fin_zero_results hf (hfin ha) (hfin hb)).1 (h.imp (hzero a).2 (hzero b).2)
  · rw [hsigns]
    exact (fin_zero_results hf (hfin (hfinzero ha)) (hfin hb)).2.2.2 ((hzero a).2 ha) (mt (hzero b).1 h)
  · have hda : t.decode a = .fin (!t.negAt b) (t.finBits b).1 (t.finBits b).2 := by
      obtain ⟨-, hneg, hbits⟩ := t.decode_signBit_add (!t.negAt b) (Nat.mod_lt b (Nat.two_pow_pos (t.eb + t.fb)))
      obtain ⟨-, -, hbits'⟩ := t.decode_signBit_add (t.negAt b) (Nat.mod_lt b (Nat.two_pow_pos (t.eb + t.fb)))
      rw [← Fmt.eq_signBit_add hbwidth] at hbits'
      rw [hfin ha, h, hopp, hneg, hbits, hbits']
    have hsum := roundSum_neg (f := t) (rm := rm) (sat := sat) (!t.negAt b) (t.finBits b).1 (t.finBits b).2
    rw [fadd, hda, hfin hb]
    rwa [Bool.not_not, ← hrdn] at hsum
  · rw [fsub, hfin ha, ← h, hfin ha, FVal.neg, roundSum_neg, hrdn]
  · rw [fadd, ← h, hfin ha, (hzero a).2 h0, roundSum_zeros, ← Fmt.eq_zero hawidth h0]
  · rw [fsqrt_zero (hfin (hfinzero ha)) ((hzero a).2 ha), ← Fmt.eq_zero hawidth ha]
  · obtain ⟨hda, -, hia⟩ := hinf hawidth ha
    rw [(Fmt.lt_top_iff hawidth).1 h] at hda hia
    rw [hia, fsqrt_inf hf hda]
  · have hneg : t.negAt a = true := by
      rw [← Bool.not_eq_false, ← Fmt.lt_top_iff hawidth]
      exact h.not_gt
    refine fsqrt_negative (ma := (t.finBits a).1) (ea := (t.finBits a).2) ?_
    rcases (not_lt.1 hn : a % top ≤ t.inf false).lt_or_eq with hlt | heq
    · have h0 : ¬zero a := fun h0 => h.ne' (by have := Fmt.eq_zero hawidth h0; rwa [hneg] at this)
      exact .inr ⟨hneg ▸ hfin hlt, mt (hzero a).1 h0⟩
    · exact .inl (hneg ▸ (hinf hawidth heq).1)

end Sys2Proof.Machine
end

section
/-! SUPPORT. Lanes of a vector, written and read back (18 R328, 03 R51). -/

namespace Sys2Proof.Machine

/-! ### Bits of a field of a number -/

theorem testBit_div_mod (x a w j : Nat) : (x / 2 ^ a % 2 ^ w).testBit j = (decide (j < w) && x.testBit (a + j)) := by
  rw [Nat.testBit_mod_two_pow, Nat.testBit_div_two_pow, add_comm]

theorem toNat_ofNat_div_mod (x : Nat) {a w n : Nat} (h : a + w ≤ n) : (BitVec.ofNat n x).toNat / 2 ^ a % 2 ^ w = x / 2 ^ a % 2 ^ w := by
  rw [BitVec.toNat_ofNat]
  refine Nat.eq_of_testBit_eq fun j => ?_
  rw [testBit_div_mod, testBit_div_mod, Nat.testBit_mod_two_pow]
  by_cases hj : j < w
  · simp [hj, show a + j < n by omega]
  · simp [hj]

/-! ### Lanes -/

theorem width_cases (ty : VTy) : ty.width = 8 ∨ ty.width = 16 ∨ ty.width = 32 ∨ ty.width = 64 := by
  cases ty <;> simp [VTy.width]

/-- A lane width that fills the vector. -/
def LaneWidth (w : Nat) : Prop := 0 < w ∧ w * (1024 / w) = 1024

theorem laneWidth_type (ty : VTy) : LaneWidth ty.width := by
  unfold LaneWidth
  cases ty <;> decide

theorem laneAt_lt (v : Vec) (w i : Nat) : laneAt v w i < 2 ^ w := Nat.mod_lt _ (Nat.two_pow_pos w)

@[simp] theorem laneAt_mod (v : Vec) (w i : Nat) : laneAt v w i % 2 ^ w = laneAt v w i := Nat.mod_eq_of_lt (laneAt_lt v w i)

theorem lanesNat_at (w : Nat) (l : List Nat) (i : Nat) : lanesNat w l / 2 ^ (w * i) % 2 ^ w = l.getD i 0 % 2 ^ w := by
  induction l generalizing i with
  | nil => simp [lanesNat]
  | cons x l ih =>
    have hx : x % 2 ^ w < 2 ^ w := Nat.mod_lt _ (Nat.two_pow_pos w)
    cases i with
    | zero => simp [lanesNat]
    | succ i =>
      rw [lanesNat, mul_add_one, add_comm (w * i), pow_add, ← Nat.div_div_eq_div_mul, Nat.add_mul_div_left _ _ (Nat.two_pow_pos w),
        Nat.div_eq_of_lt hx, zero_add, ih, List.getD_cons_succ]

/-- A lane of a vector made of lanes. -/
theorem laneAt_ofLanes {w i : Nat} (l : List Nat) (h : w * (i + 1) ≤ 1024) : laneAt (ofLanes w l) w i = l.getD i 0 % 2 ^ w := by
  exact (toNat_ofNat_div_mod (lanesNat w l) (mul_add_one w i ▸ h)).trans (lanesNat_at w l i)

theorem LaneWidth.le {w i : Nat} (h : LaneWidth w) (hi : i < 1024 / w) : w * (i + 1) ≤ 1024 :=
  (Nat.mul_le_mul_left w hi).trans_eq h.2

/-- Vectors of equal lanes are equal. -/
theorem LaneWidth.ext {w : Nat} (h : LaneWidth w) {v v' : Vec} (hv : ∀ i, i < 1024 / w → laneAt v w i = laneAt v' w i) : v = v' := by
  refine BitVec.eq_of_getLsbD_eq fun b hb => ?_
  have hlane := congrArg (fun x => x.testBit (b % w)) (hv (b / w) ((Nat.div_lt_iff_lt_mul h.1).2 (by rw [mul_comm, h.2]; exact hb)))
  simp only [laneAt, testBit_div_mod, Nat.div_add_mod, Nat.mod_lt b h.1, decide_true, Bool.true_and] at hlane
  exact hlane

theorem lanesOf_length (v : Vec) (w : Nat) : (lanesOf v w).length = 1024 / w := by simp [lanesOf]

theorem lanesOf_getElem (v : Vec) (w i : Nat) (h : i < (lanesOf v w).length) : (lanesOf v w)[i] = laneAt v w i := by simp [lanesOf]

theorem lanesOf_mapIdx {β : Type} (v : Vec) (w : Nat) (g : Nat → Nat → β) :
    (lanesOf v w).mapIdx g = (List.range (1024 / w)).map fun i => g i (laneAt v w i) :=
  List.ext_getElem (by simp [lanesOf_length]) fun i _ _ => by simp [lanesOf_getElem]

theorem lanesOf_zip (v v' : Vec) (w : Nat) : (lanesOf v w).zip (lanesOf v' w) =
    (List.range (1024 / w)).map fun i => (laneAt v w i, laneAt v' w i) :=
  List.ext_getElem (by simp [lanesOf_length]) fun i _ _ => by simp [lanesOf_getElem]

theorem range_map_mapIdx {α β : Type} (n : Nat) (h : Nat → α) (g : Nat → α → β) :
    ((List.range n).map h).mapIdx g = (List.range n).map fun i => g i (h i) :=
  List.ext_getElem (by simp) fun i _ _ => by simp

theorem range_map_getD {n i : Nat} (h : i < n) (g : Nat → Nat) : ((List.range n).map g).getD i 0 = g i := by
  simp [h]

/-! ### VPut -/

/-- Whether a lane takes part by the state's y0. -/
theorem State.included_iff (s : State) (k w : Nat) (m : Bool) (i : Nat) : s.included k w m i = true ↔
    (m = true → ((s.core k).vs.getY 0).getLsbD (if w = 16 then i / 2 else if w = 8 then i / 4 else i) = true) := by
  cases m <;> simp [State.included, maskBit, fbit, State.vs]

/-- VPut depends on the lanes that take part alone. -/
theorem State.vput_congr (s : State) (k : Nat) (d : Opnd) {w : Nat} (hw : LaneWidth w) (m : Bool) {r r' : Vec}
    (h : ∀ i, i < 1024 / w → s.included k w m i = true → laneAt r w i = laneAt r' w i) : s.vput k d w m r = s.vput k d w m r' := by
  cases m with
  | false =>
    obtain rfl : r = r' := hw.ext fun i hi => h i hi rfl
    rfl
  | true =>
    have hlist (other : Nat → Nat) :
        (lanesOf r w).mapIdx (fun i x => if s.included k w true i then x else other i) =
          (lanesOf r' w).mapIdx (fun i x => if s.included k w true i then x else other i) := by
      refine List.ext_getElem (by simp [lanesOf_length]) fun i hi hi' => ?_
      have hi : i < 1024 / w := by simpa [lanesOf_length] using hi
      simp only [List.getElem_mapIdx, lanesOf_getElem]
      split
      · next hinc => exact h i hi hinc
      · rfl
    have hlanes : ofLanes w ((lanesOf r w).mapIdx fun i x => if s.included k w true i then x else 0) =
        ofLanes w ((lanesOf r' w).mapIdx fun i x => if s.included k w true i then x else 0) := congrArg (ofLanes w) (hlist fun _ => 0)
    cases d with
    | v j =>
      exact congrArg (fun g => Except.ok (s.modVs k g))
        (funext fun vs => congrArg (fun l => vs.setV j.val (ofLanes w l)) (hlist (laneAt (vs.getV j.val) w)))
    | port i =>
      exact congrArg (fun u => if i.val = 6 then s.pushSq k u else s.sendUnit k i.val { data := u, wide := true, ctl := false }) hlanes
    | ring g c =>
      exact congrArg (fun u : Vec => s.writeRing k g.val (countOf c) (bytesOf 128 u.toNat) false) hlanes
    | _ => rfl

/-- VPut of lanes that are made one by one. -/
theorem State.vput_ofLanes (s : State) (k : Nat) (d : Opnd) {w : Nat} (hw : LaneWidth w) (m : Bool) (l : List Nat) {r : Vec}
    (h : ∀ i, i < 1024 / w → s.included k w m i = true → l.getD i 0 % 2 ^ w = laneAt r w i) :
    s.vput k d w m (ofLanes w l) = s.vput k d w m r :=
  s.vput_congr k d hw m fun i hi hinc => (laneAt_ofLanes l (hw.le hi)).trans (h i hi hinc)

/-! ### What reading sources leaves of y0 -/

/-- Core k's y registers stand. -/
def State.SameY (s t : State) (k : Nat) : Prop := (t.vs k).y = (s.vs k).y

namespace State.SameY

variable {s t u : State} {k : Nat}

theorem trans (h : s.SameY t k) (g : t.SameY u k) : s.SameY u k := Eq.trans g h

theorem of_vs (h : t.vs k = s.vs k) : s.SameY t k := congrArg VState.y h

theorem included (h : s.SameY t k) (w : Nat) (m : Bool) (i : Nat) : t.included k w m i = s.included k w m i := by
  simp only [State.included, VState.getY, show (t.vs k).y = (s.vs k).y from h]

theorem of_vsrc {w : Nat} {o : Opnd} {v : Vec} (h : s.vsrc k w o = .ok (v, t)) : s.SameY t k := by
  have hnamed (o : Opnd) : s.SameY (s.named k o) k := .of_vs ((s.named_reads k o).vs k)
  unfold State.vsrc at h
  split at h
  case h_2 i =>
    split at h
    · refine (hnamed (.port i)).trans ?_
      unfold State.readIbVec at h
      simp only at h
      split at h
      · cases h
      · split at h
        · cases h
        · cases h
          exact .of_vs ((Reads.of_modCore (s := s.named k (.port i)) (f := fun c => c.popIb 16) k fun _ => rfl).vs k)
    · split at h
      · exact .of_vs ((State.popLq_reads h).vs k)
      · split at h
        · exact .of_vs ((State.popSq_reads h).vs k)
        · exact (hnamed _).trans (.of_vs ((State.readPort_reads h).vs k))
  case h_3 g c =>
    refine (hnamed (.ring g c)).trans ?_
    unfold State.readRing at h
    simp only at h
    split at h
    · cases h
    · split at h
      · cases h
      · split at h
        · split at h
          · cases h
          · cases h
            simp [State.SameY, State.vs, VState.setRing]
        · obtain ⟨-, rfl⟩ := Prod.mk.inj (Except.ok.inj h)
          simp [State.SameY, State.vs, VState.setRing]
  all_goals
    cases h
    rfl

end State.SameY

end Sys2Proof.Machine
end

section
/-! SUPPORT. Running a vector instruction, with and without .S (18 R328-R330). -/

namespace Sys2Proof.Machine

variable {s s1 t : State} {f : FV} {vs : List Opnd} {m : Word}

/-- Naming streamed sources. -/
theorem State.named_foldl_reads (l : List Opnd) (s : State) (k : Nat) : Reads s (l.foldl (fun t o => t.named k o) s) := by
  induction l generalizing s with
  | nil => exact .refl s
  | cons o l ih => exact (s.named_reads k o).trans (ih _)

theorem named_foldl_eq (l : List Opnd) (s : State) (k : Nat) :
    l.foldl (fun t o => t.setCore k { (t.core k) with stream := o }) s = l.foldl (fun t o => t.named k o) s := rfl

/-- What a vector instruction starts from has the y registers of the state before, and the same core's turn. -/
theorem vectorStarts_start (h : Sys2Proof.Claims.vectorStarts s s1 f vs m) : s.SameY s1 s.cur ∧ s1.cur = s.cur := by
  obtain ⟨-, h⟩ := h
  split at h
  · obtain ⟨-, -, s0, hm, rfl, -⟩ := h
    have hlooks := State.maskOf_looks hm
    have hreads := State.named_foldl_reads (vs.filter Opnd.streamed) s0 s.cur
    exact ⟨.of_vs ((hreads.vs _).trans (hlooks.vs _)), hreads.cur.trans hlooks.cur⟩
  · have hlooks := State.clear_looks h
    exact ⟨.of_vs (hlooks.vs _), hlooks.cur⟩

theorem handleCheck_ok {k : Nat} {ops : List Opnd} (h : (s.core k).vs.ringFault ops = none) : s.handleCheck k ops = .ok () := by
  unfold State.handleCheck State.vs
  rw [h]

/-- One element of a .S word that goes on: a pending request is taken after it where the word has SP and LQ and SQ are read (18 R330). -/
theorem State.runElement_goesOn {k : Nat} {sp : Bool} {srcs dsts : List Opnd} {body : State → Res (State × Bool)}
    (hq : (s.core k).queuesBad false srcs dsts = false) (hp : (s.core k).placement sp true = none) (hm : s.maskOf k sp none = .ok (m, s1))
    (hb : body s1 = .ok (t, false)) :
    s.runElement k sp sp srcs dsts body = .next (if sp = true ∧ (t.core k).lq = [] ∧ (t.core k).sq = [] ∧ t.mustStop k = true then
      t.safePoint k m (s.core k).unitAt false else t) := by
  have hstop : (sp && !(!(t.core k).lq.isEmpty || !(t.core k).sq.isEmpty) && t.mustStop k) = true ↔
      sp = true ∧ (t.core k).lq = [] ∧ (t.core k).sq = [] ∧ t.mustStop k = true := by
    simp [and_assoc]
  simp only [State.runElement, hq, hp, hm, hb, hstop, Bool.false_eq_true, if_false]
  split <;> rfl

/-- A vector instruction that may take its effect leaves what its body makes of the state that it starts from. -/
theorem State.runVector_leaves {body : State → Res State} (h : Sys2Proof.Claims.vectorStarts s s1 f vs m) (hb : body s1 = .ok t) :
    s.runVector f vs body = .next (Sys2Proof.Claims.vectorLeaves s t f m) := by
  obtain ⟨hring, h⟩ := h
  unfold State.runVector Sys2Proof.Claims.vectorLeaves
  by_cases hs : f.md.s = true
  · rw [if_pos hs] at h ⊢
    rw [if_pos hs]
    obtain ⟨hq, hp, s0, hm, hs1, he⟩ := h
    rw [named_foldl_eq] at hs1
    have hvs : (s1.core s.cur).vs = (s0.core s.cur).vs := hs1 ▸ (State.named_foldl_reads _ s0 s.cur).vs s.cur
    have hcheck : s0.handleCheck s.cur (vs ++ [f.d]) = .ok () := handleCheck_ok (hvs ▸ hring)
    exact State.runElement_goesOn hq hp hm (by simp only [hcheck, ← hs1, he, hb, res_ok_bind]; rfl)
  · rw [if_neg hs] at h ⊢
    rw [if_neg hs]
    exact State.runSeq_ok h (by rw [handleCheck_ok hring, res_ok_bind, hb])

end Sys2Proof.Machine
end

section
/-! Vector instructions that work lane by lane on two sources, and obligation O13 (18 R328-R332, R335-R337). -/

namespace Sys2Proof.Machine

/-! ### Lane results -/

theorem allBits_getLsbD (l : List (Nat × Sticky)) (j : Nat) : (allBits l).getLsbD j = true ↔ ∃ p ∈ l, p.2.getLsbD j = true := by
  have hfold (g : Sticky) : (l.foldl (fun g p => g ||| p.2) g).getLsbD j = true ↔ g.getLsbD j = true ∨ ∃ p ∈ l, p.2.getLsbD j = true := by
    induction l generalizing g with
    | nil => simp
    | cons p l ih => simp [ih, or_assoc]
  simpa [allBits] using hfold 0

/-- Sticky bits from what each of them says. -/
theorem sticky_eq {g h : Sticky} (hbits : ∀ j, g.getLsbD j = true ↔ h.getLsbD j = true) : g = h :=
  BitVec.eq_of_getLsbD_eq fun j _ => Bool.eq_iff_iff.2 (hbits j)

/-- Results given lane by lane are delivered: VPut writes the lanes that take part, FSTAT gathers what these raise. -/
theorem State.deliverLanes_range {s t : State} {k w : Nat} {f : FV} (hw : LaneWidth w) {inc : Nat → Bool} (hinc : ∀ i, s.included k w f.md.m i = inc i)
    {val : Nat → Nat × Sticky} {r : Vec} {g : Sticky} (hr : ∀ i, i < 1024 / w → inc i = true → (val i).1 % 2 ^ w = laneAt r w i)
    (hg : ∀ j, g.getLsbD j = true ↔ ∃ i, i < 1024 / w ∧ inc i = true ∧ (val i).2.getLsbD j = true) (hput : s.vput k f.d w f.md.m r = .ok t) :
    s.deliverLanes k f w ((List.range (1024 / w)).map fun i => if inc i = true then val i else (0, 0)) = .ok (t.raise k g) := by
  have hlanes : s.vput k f.d w f.md.m (ofLanes w (((List.range (1024 / w)).map fun i => if inc i = true then val i else (0, 0)).map Prod.fst)) = .ok t := by
    rw [← hput]
    refine s.vput_ofLanes k f.d hw f.md.m _ fun i hi hi' => ?_
    rw [hinc] at hi'
    simp [hi, hi', hr i hi hi']
  have hbits : allBits ((List.range (1024 / w)).map fun i => if inc i = true then val i else (0, 0)) = g := by
    refine sticky_eq fun j => ?_
    rw [allBits_getLsbD, hg]
    simp only [List.mem_map, List.mem_range]
    constructor
    · rintro ⟨_, ⟨i, hi, rfl⟩, hj⟩
      by_cases hinc : inc i = true
      · exact ⟨i, hi, hinc, by simpa [hinc] using hj⟩
      · simp [hinc] at hj
    · rintro ⟨i, hi, hinc, hj⟩
      exact ⟨_, ⟨i, hi, rfl⟩, by simpa [hinc] using hj⟩
  rw [State.deliverLanes, hlanes, hbits]
  rfl

/-- Lane i takes part, as the model decides it. -/
theorem takesPart_iff (s : State) (m : Bool) (w i : Nat) : s.included s.cur w m i = true ↔ Sys2Proof.Claims.takesPart s m w i :=
  s.included_iff s.cur w m i

variable {s s1 s2 s3 s4 : State} {f : FV} {m : Word} {a b r : Vec} {g : Sticky}

/-- An instruction of two sources by its lanes (18 R328-R332). -/
theorem State.binary_leaves {op : Nat → Nat → Nat × Sticky} (hstart : Sys2Proof.Claims.vectorStarts s s1 f [f.a, f.b] m)
    (ha : s1.vsrc s.cur f.md.ty.width f.a = .ok (a, s2)) (hb : s2.vsrc s.cur f.md.ty.width f.b = .ok (b, s3))
    (hr : ∀ i, i < 1024 / f.md.ty.width → Sys2Proof.Claims.takesPart s f.md.m f.md.ty.width i →
      (op (laneAt a f.md.ty.width i) (laneAt b f.md.ty.width i)).1 % 2 ^ f.md.ty.width = laneAt r f.md.ty.width i)
    (hg : ∀ j, g.getLsbD j = true ↔ ∃ i, i < 1024 / f.md.ty.width ∧ Sys2Proof.Claims.takesPart s f.md.m f.md.ty.width i ∧
      (op (laneAt a f.md.ty.width i) (laneAt b f.md.ty.width i)).2.getLsbD j = true)
    (hput : s3.vput s.cur f.d f.md.ty.width f.md.m r = .ok s4) :
    s.binary f op = .next (Sys2Proof.Claims.vectorLeaves s (s4.raise s.cur g) f m) := by
  obtain ⟨hy, hcur⟩ := vectorStarts_start hstart
  have hy3 := (hy.trans (.of_vsrc ha)).trans (.of_vsrc hb)
  refine State.runVector_leaves hstart ?_
  simp only [hcur, ha, hb, res_ok_bind, lanesOf_zip, range_map_mapIdx, hy.included]
  exact State.deliverLanes_range (laneWidth_type _) (hy3.included _ _) (fun i hi hi' => hr i hi ((takesPart_iff ..).1 hi'))
    (by simpa only [takesPart_iff] using hg) hput

/-! ### Values of lanes -/

theorem lane_eq_laneInt (u : Bool) {w x : Nat} (hw : 0 < w) (hx : x < 2 ^ w) : Sys2Proof.Claims.lane u w x = laneInt u w x := by
  obtain ⟨v, rfl⟩ := Nat.exists_eq_succ_of_ne_zero hw.ne'
  have hpow : 2 ^ (v + 1) = 2 * 2 ^ v := pow_succ' 2 v
  cases u with
  | true => simp [Sys2Proof.Claims.lane, laneInt]
  | false =>
    simp only [Sys2Proof.Claims.lane, laneInt, BitVec.toInt_eq_toNat_cond, BitVec.toNat_ofNat, Nat.mod_eq_of_lt hx, Bool.false_eq_true, if_false,
      Bool.not_false, true_and, Nat.add_sub_cancel, Nat.succ_eq_add_one]
    rw [pow_succ' (2 : Int), hpow]
    push_cast
    split <;> split <;> omega

theorem laneOf_eq_laneOut (sat u : Bool) (w : Nat) (x : Int) : Sys2Proof.Claims.laneOf sat u w x = laneOut sat u w x := by
  have h1 : (0 : Int) < 2 ^ (w - 1) := by positivity
  have h2 : (0 : Int) < 2 ^ w := by positivity
  have hclamp (lo hi : Int) (h : lo ≤ hi) : max lo (min x hi) = clampTo (lo, hi) x := by
    simp only [clampTo]
    split
    · omega
    · split <;> omega
  cases sat with
  | false => rfl
  | true => cases u with
    | true => simp [Sys2Proof.Claims.laneOf, laneOut, narrow, intRange, hclamp 0 _ (by omega : (0 : Int) ≤ 2 ^ w - 1)]
    | false => simp [Sys2Proof.Claims.laneOf, laneOut, narrow, intRange, hclamp _ _ (by omega : (-2 ^ (w - 1) : Int) ≤ 2 ^ (w - 1) - 1)]

/-! ### The instructions of two sources -/

/-- The instruction is one of two sources whose lanes are what `val` says, in a lane of the TYPE's width. -/
def TwoLanes (instr : FV → Instr) (val : VMod → Nat → Nat → Option (Nat × Sticky)) : Prop :=
  ∀ (f : FV) (s : State), ∃ op, exec (instr f) s = s.binary f op ∧
    ∀ a b x, a < 2 ^ f.md.ty.width → b < 2 ^ f.md.ty.width → val f.md a b = some x →
      (op a b).1 % 2 ^ f.md.ty.width = x.1 % 2 ^ f.md.ty.width ∧ (op a b).2 = x.2

/-- Integer operations (R332). -/
theorem twoLanes_int {instr : FV → Instr} {op op' : Nat → Int → Int → Int} (hexec : ∀ f s, exec (instr f) s = s.intLanes f op')
    (hop : ∀ w a b, op w a b = op' w a b) :
    TwoLanes instr fun d a b => some (Sys2Proof.Claims.laneOf d.sat (d.xmod.getLsbD 0) d.ty.width
      (op d.ty.width (Sys2Proof.Claims.lane (d.xmod.getLsbD 0) d.ty.width a) (Sys2Proof.Claims.lane (d.xmod.getLsbD 0) d.ty.width b)), 0) := by
  intro f s
  refine ⟨fun a b => (laneOut f.md.sat (f.md.xmod.getLsbD 0) f.md.ty.width (op' f.md.ty.width (laneInt (f.md.xmod.getLsbD 0) f.md.ty.width a)
    (laneInt (f.md.xmod.getLsbD 0) f.md.ty.width b)), 0), (hexec f s).trans rfl, fun a b x ha hb hx => ?_⟩
  have hw := (laneWidth_type f.md.ty).1
  rw [← Option.some.inj hx, lane_eq_laneInt _ hw ha, lane_eq_laneInt _ hw hb, laneOf_eq_laneOut, hop]
  exact ⟨rfl, rfl⟩

/-- Operations on the bits of lanes. -/
theorem twoLanes_bits {instr : FV → Instr} {op : VMod → Nat → Nat → Nat} {op' : FV → Nat → Nat → Nat → Nat}
    (hexec : ∀ f s, exec (instr f) s = s.bitLanes f (op' f))
    (hop : ∀ (f : FV) a b, a < 2 ^ f.md.ty.width → b < 2 ^ f.md.ty.width →
      op' f f.md.ty.width a b % 2 ^ f.md.ty.width = op f.md a b % 2 ^ f.md.ty.width) :
    TwoLanes instr fun d a b => some (op d a b, 0) := by
  intro f s
  refine ⟨fun a b => (op' f f.md.ty.width a b % 2 ^ f.md.ty.width, 0), (hexec f s).trans rfl, fun a b x ha hb hx => ?_⟩
  rw [← Option.some.inj hx]
  exact ⟨(Nat.mod_mod _ _).trans (hop f a b ha hb), rfl⟩

/-- Floating-point operations (R335). -/
theorem twoLanes_float {instr : FV → Instr} {op : Fmt → VMod → Nat → Nat → Nat × Sticky}
    (hexec : ∀ f s, exec (instr f) s = s.binary f (op (VMod.fmt f.md) f.md)) :
    TwoLanes instr fun d a b => (Fmt.ofVTy d.ty).map fun t => op t d a b := by
  intro f s
  refine ⟨_, hexec f s, fun a b x _ _ hx => ?_⟩
  obtain ⟨t, ht, rfl⟩ := Option.map_eq_some_iff.1 hx
  rw [VMod.fmt, ht]
  exact ⟨rfl, rfl⟩

theorem twoLanes_all : ∀ p ∈ Sys2Proof.Claims.twoLanes, TwoLanes p.1 p.2 := by
  have hlane (f : FV) (u : Bool) {x : Nat} (hx : x < 2 ^ f.md.ty.width) := lane_eq_laneInt u (laneWidth_type f.md.ty).1 hx
  unfold Sys2Proof.Claims.twoLanes
  simp only [List.forall_mem_cons]
  refine ⟨?vadd, ?vsub, ?vmul, ?vmulh, ?vmin, ?vmax, ?vand, ?vor, ?vxor, ?vshl, ?vshr, ?vshra, ?vcmpeq, ?vcmplt, ?vfadd, ?vfsub, ?vfmul,
    ?vfdiv, ?vfmin, ?vfmax, ?vfcmp, by simp⟩
  case vadd => exact twoLanes_int (op := fun _ a b => a + b) (op' := fun _ a b => a + b) (fun _ _ => rfl) fun _ _ _ => rfl
  case vsub => exact twoLanes_int (op := fun _ a b => a - b) (op' := fun _ a b => a - b) (fun _ _ => rfl) fun _ _ _ => rfl
  case vmul => exact twoLanes_int (op := fun _ a b => a * b) (op' := fun _ a b => a * b) (fun _ _ => rfl) fun _ _ _ => rfl
  case vmulh => exact twoLanes_int (op := fun w a b => a * b / 2 ^ w) (op' := fun w a b => a * b / 2 ^ w) (fun _ _ => rfl) fun _ _ _ => rfl
  case vmin =>
    exact twoLanes_int (op := fun _ a b => min a b) (op' := fun _ a b => if b < a then b else a) (fun _ _ => rfl) fun _ a b => by
      split <;> omega
  case vmax =>
    exact twoLanes_int (op := fun _ a b => max a b) (op' := fun _ a b => if a < b then b else a) (fun _ _ => rfl) fun _ a b => by
      split <;> omega
  case vand => exact twoLanes_bits (op := fun _ a b => a &&& b) (op' := fun _ _ a b => a &&& b) (fun _ _ => rfl) fun _ _ _ _ _ => rfl
  case vor => exact twoLanes_bits (op := fun _ a b => a ||| b) (op' := fun _ _ a b => a ||| b) (fun _ _ => rfl) fun _ _ _ _ _ => rfl
  case vxor => exact twoLanes_bits (op := fun _ a b => a ^^^ b) (op' := fun _ _ a b => a ^^^ b) (fun _ _ => rfl) fun _ _ _ _ _ => rfl
  case vshl =>
    exact twoLanes_bits (op := fun d a b => a * 2 ^ (b % d.ty.width) % 2 ^ d.ty.width) (op' := fun _ w a b => a * 2 ^ (b % w))
      (fun _ _ => rfl) fun _ _ _ _ _ => (Nat.mod_mod _ _).symm
  case vshr =>
    exact twoLanes_bits (op := fun d a b => a / 2 ^ (b % d.ty.width)) (op' := fun _ w a b => a / 2 ^ (b % w))
      (fun _ _ => rfl) fun _ _ _ _ _ => rfl
  case vshra =>
    refine twoLanes_bits (op := fun d a b => (Sys2Proof.Claims.lane false d.ty.width a / 2 ^ (b % d.ty.width) % 2 ^ d.ty.width).toNat)
      (op' := fun _ w a b => narrow w (laneInt false w a / 2 ^ (b % w))) (fun _ _ => rfl) fun f a b ha _ => ?_
    rw [hlane f false ha, narrow]
  case vcmpeq =>
    refine twoLanes_bits (op := fun d a b => if a = b then 2 ^ d.ty.width - 1 else 0) (op' := fun _ w a b => ones w (decide (a = b)))
      (fun _ _ => rfl) fun f a b _ _ => ?_
    simp only [ones, decide_eq_true_eq]
  case vcmplt =>
    refine twoLanes_bits
      (op := fun d a b => if Sys2Proof.Claims.lane (d.xmod.getLsbD 0) d.ty.width a < Sys2Proof.Claims.lane (d.xmod.getLsbD 0) d.ty.width b
        then 2 ^ d.ty.width - 1 else 0)
      (op' := fun f w a b => ones w (decide (laneInt (xmod0 f.md) w a < laneInt (xmod0 f.md) w b))) (fun _ _ => rfl) fun f a b ha hb => ?_
    rw [hlane f _ ha, hlane f _ hb]
    exact congrArg (· % 2 ^ f.md.ty.width) (if_congr decide_eq_true_iff rfl rfl)
  case vfadd => exact twoLanes_float (op := fun t d => fadd t d.rm d.sat) fun _ _ => rfl
  case vfsub => exact twoLanes_float (op := fun t d => fsub t d.rm d.sat) fun _ _ => rfl
  case vfmul => exact twoLanes_float (op := fun t d => fmul t d.rm d.sat) fun _ _ => rfl
  case vfdiv => exact twoLanes_float (op := fun t d => fdiv t d.rm d.sat) fun _ _ => rfl
  case vfmin => exact twoLanes_float (op := fun t _ => fminmax t false) fun _ _ => rfl
  case vfmax => exact twoLanes_float (op := fun t _ => fminmax t true) fun _ _ => rfl
  case vfcmp =>
    exact twoLanes_float (op := fun t d a b => (if (fcmp t (d.xmod.toNat % 8) a b).1 then 2 ^ d.ty.width - 1 else 0,
      (fcmp t (d.xmod.toNat % 8) a b).2)) fun _ _ => rfl

/-- Settles O13: each instruction of the table is one of two sources with the lanes that the table gives. -/
theorem vectorTwoSourceLanes : Obligations.VectorTwoSourceLanes := by
  unfold Obligations.VectorTwoSourceLanes
  intro p hp f s s1 s2 s3 s4 m a b r g w hstart ha hb hr hg hput
  obtain ⟨op, hexec, hop⟩ := twoLanes_all p hp f s
  rw [hexec]
  have hlane {i : Nat} (hi : i < 1024 / w) (hpart : Sys2Proof.Claims.takesPart s f.md.m w i) :
      ∃ x, p.2 f.md (laneAt a w i) (laneAt b w i) = some x ∧ x.1 = laneAt r w i :=
    Option.map_eq_some_iff.1 (hr i hi hpart)
  refine State.binary_leaves hstart ha hb (fun i hi hpart => ?_) (fun j => (hg j).trans (exists_congr fun i => ?_)) hput
  · obtain ⟨x, hx, hval⟩ := hlane hi hpart
    rw [(hop _ _ x (laneAt_lt ..) (laneAt_lt ..) hx).1, hval, laneAt_mod]
  · refine and_congr_right fun hi => and_congr_right fun hpart => ?_
    obtain ⟨x, hx, -⟩ := hlane hi hpart
    rw [(hop _ _ x (laneAt_lt ..) (laneAt_lt ..) hx).2, hx]
    simp

end Sys2Proof.Machine
end

section
/-! Vector instructions of one source and of three, selections, byte products, and obligation O14 (18 R332-R336). -/

namespace Sys2Proof.Machine

variable {s s1 s2 s3 s4 s5 : State} {f : FV} {m : Word} {a b d r : Vec} {g : Sticky}

/-- An instruction of one source by its lanes (18 R328-R332). -/
theorem State.unary_leaves {op : Nat → Nat × Sticky} (hstart : Sys2Proof.Claims.vectorStarts s s1 f [f.a] m)
    (ha : s1.vsrc s.cur f.md.ty.width f.a = .ok (a, s2))
    (hr : ∀ i, i < 1024 / f.md.ty.width → Sys2Proof.Claims.takesPart s f.md.m f.md.ty.width i →
      (op (laneAt a f.md.ty.width i)).1 % 2 ^ f.md.ty.width = laneAt r f.md.ty.width i)
    (hg : ∀ j, g.getLsbD j = true ↔ ∃ i, i < 1024 / f.md.ty.width ∧ Sys2Proof.Claims.takesPart s f.md.m f.md.ty.width i ∧
      (op (laneAt a f.md.ty.width i)).2.getLsbD j = true)
    (hput : s2.vput s.cur f.d f.md.ty.width f.md.m r = .ok s3) :
    s.unary f op = .next (Sys2Proof.Claims.vectorLeaves s (s3.raise s.cur g) f m) := by
  obtain ⟨hy, hcur⟩ := vectorStarts_start hstart
  refine State.runVector_leaves hstart ?_
  simp only [hcur, ha, res_ok_bind, lanesOf_mapIdx, hy.included]
  exact State.deliverLanes_range (laneWidth_type _) ((hy.trans (.of_vsrc ha)).included _ _) (fun i hi hi' => hr i hi ((takesPart_iff ..).1 hi'))
    (by simpa only [takesPart_iff] using hg) hput

theorem lanesOf_zip3 (v v' v'' : Vec) (w : Nat) :
    (lanesOf v w).zip ((List.range (1024 / w)).map fun i => (laneAt v' w i, laneAt v'' w i)) =
      (List.range (1024 / w)).map fun i => (laneAt v w i, laneAt v' w i, laneAt v'' w i) :=
  List.ext_getElem (by simp [lanesOf_length]) fun i _ _ => by simp [lanesOf_getElem]

/-- An instruction that accumulates into D by its lanes. -/
theorem State.ternary_leaves {op : Nat → Nat → Nat → Nat × Sticky} (hstart : Sys2Proof.Claims.vectorStarts s s1 f [f.a, f.b] m)
    (ha : s1.vsrc s.cur f.md.ty.width f.a = .ok (a, s2)) (hb : s2.vsrc s.cur f.md.ty.width f.b = .ok (b, s3))
    (hd : s3.vsrc s.cur f.md.ty.width f.d = .ok (d, s4))
    (hr : ∀ i, i < 1024 / f.md.ty.width → Sys2Proof.Claims.takesPart s f.md.m f.md.ty.width i →
      (op (laneAt a f.md.ty.width i) (laneAt b f.md.ty.width i) (laneAt d f.md.ty.width i)).1 % 2 ^ f.md.ty.width = laneAt r f.md.ty.width i)
    (hg : ∀ j, g.getLsbD j = true ↔ ∃ i, i < 1024 / f.md.ty.width ∧ Sys2Proof.Claims.takesPart s f.md.m f.md.ty.width i ∧
      (op (laneAt a f.md.ty.width i) (laneAt b f.md.ty.width i) (laneAt d f.md.ty.width i)).2.getLsbD j = true)
    (hput : s4.vput s.cur f.d f.md.ty.width f.md.m r = .ok s5) :
    s.ternary f op = .next (Sys2Proof.Claims.vectorLeaves s (s5.raise s.cur g) f m) := by
  obtain ⟨hy, hcur⟩ := vectorStarts_start hstart
  have hy4 := ((hy.trans (.of_vsrc ha)).trans (.of_vsrc hb)).trans (.of_vsrc hd)
  refine State.runVector_leaves hstart ?_
  simp only [hcur, ha, hb, hd, res_ok_bind, lanesOf_zip, lanesOf_zip3, range_map_mapIdx, hy.included]
  exact State.deliverLanes_range (laneWidth_type _) (hy4.included _ _) (fun i hi hi' => hr i hi ((takesPart_iff ..).1 hi'))
    (by simpa only [takesPart_iff] using hg) hput

/-- The instruction is one of one source whose lanes are what `val` says. -/
def OneLane (instr : FV → Instr) (val : VMod → Nat → Option (Nat × Sticky)) : Prop :=
  ∀ (f : FV) (s : State), ∃ op, exec (instr f) s = s.unary f op ∧
    ∀ a x, a < 2 ^ f.md.ty.width → val f.md a = some x → (op a).1 % 2 ^ f.md.ty.width = x.1 % 2 ^ f.md.ty.width ∧ (op a).2 = x.2

theorem oneLane_float {instr : FV → Instr} {op : Fmt → VMod → Nat → Nat × Sticky}
    (hexec : ∀ f s, exec (instr f) s = s.unary f (op (VMod.fmt f.md) f.md)) :
    OneLane instr fun d a => (Fmt.ofVTy d.ty).map fun t => op t d a := by
  intro f s
  refine ⟨_, hexec f s, fun a x _ hx => ?_⟩
  obtain ⟨t, ht, rfl⟩ := Option.map_eq_some_iff.1 hx
  rw [VMod.fmt, ht]
  exact ⟨rfl, rfl⟩

/-- VFRSQ and VFRCP, of .F32 alone. -/
theorem oneLane_f32 {instr : FV → Instr} {op : VMod → Nat → Nat × Sticky} (hexec : ∀ f s, exec (instr f) s = s.unary f (op f.md)) :
    OneLane instr fun d a => if d.ty = .f32 then some (op d a) else none := by
  intro f s
  refine ⟨_, hexec f s, fun a x _ hx => ?_⟩
  dsimp only at hx
  split at hx
  · rw [← Option.some.inj hx]
    exact ⟨rfl, rfl⟩
  · cases hx

theorem oneLane_all : ∀ p ∈ Sys2Proof.Claims.oneLane, OneLane p.1 p.2 := by
  unfold Sys2Proof.Claims.oneLane
  simp only [List.forall_mem_cons]
  refine ⟨?vabs, ?vfsqrt, ?vfrsq, ?vfrcp, ?vfabs, ?vfneg, ?vfclass, by simp⟩
  case vabs =>
    intro f s
    refine ⟨fun a => (laneOut f.md.sat false f.md.ty.width (laneInt false f.md.ty.width a).natAbs, 0), rfl, fun a x ha hx => ?_⟩
    rw [← Option.some.inj hx, lane_eq_laneInt _ (laneWidth_type f.md.ty).1 ha, laneOf_eq_laneOut]
    exact ⟨rfl, rfl⟩
  case vfsqrt => exact oneLane_float (op := fun t d => fsqrt t d.rm d.sat) fun _ _ => rfl
  case vfrsq => exact oneLane_f32 (op := fun d => frsq d.sat) fun _ _ => rfl
  case vfrcp => exact oneLane_f32 (op := fun d => frcp d.sat) fun _ _ => rfl
  case vfabs => exact oneLane_float (op := fun t _ => fsign t false) fun _ _ => rfl
  case vfneg => exact oneLane_float (op := fun t _ => fsign t true) fun _ _ => rfl
  case vfclass => exact oneLane_float (op := fun t _ a => (fclass t a, 0)) fun _ _ => rfl

/-- VFMA and VFNMA read D last and round once. -/
theorem vfma_leaves (neg : Bool) {t : Fmt} (ht : Fmt.ofVTy f.md.ty = some t) (hstart : Sys2Proof.Claims.vectorStarts s s1 f [f.a, f.b] m)
    (ha : s1.vsrc s.cur f.md.ty.width f.a = .ok (a, s2)) (hb : s2.vsrc s.cur f.md.ty.width f.b = .ok (b, s3))
    (hd : s3.vsrc s.cur f.md.ty.width f.d = .ok (d, s4))
    (hr : ∀ i, i < 1024 / f.md.ty.width → Sys2Proof.Claims.takesPart s f.md.m f.md.ty.width i → laneAt r f.md.ty.width i =
      (ffma t f.md.rm f.md.sat neg (laneAt a f.md.ty.width i) (laneAt b f.md.ty.width i) (laneAt d f.md.ty.width i)).1)
    (hg : ∀ j, g.getLsbD j = true ↔ ∃ i, i < 1024 / f.md.ty.width ∧ Sys2Proof.Claims.takesPart s f.md.m f.md.ty.width i ∧
      (ffma t f.md.rm f.md.sat neg (laneAt a f.md.ty.width i) (laneAt b f.md.ty.width i) (laneAt d f.md.ty.width i)).2.getLsbD j = true)
    (hput : s4.vput s.cur f.d f.md.ty.width f.md.m r = .ok s5) :
    exec (if neg then .vfnma f else .vfma f) s = .next (Sys2Proof.Claims.vectorLeaves s (s5.raise s.cur g) f m) := by
  have hexec : exec (if neg then .vfnma f else .vfma f) s = s.ternary f (ffma (VMod.fmt f.md) f.md.rm f.md.sat neg) := by
    cases neg <;> rfl
  rw [hexec, VMod.fmt, ht]
  exact State.ternary_leaves hstart ha hb hd (fun i hi hpart => by rw [Option.getD_some, ← hr i hi hpart, laneAt_mod]) hg hput

/-- VSEL writes every lane, of the first source where its bit of y0 is set. -/
theorem vsel_leaves (hstart : Sys2Proof.Claims.vectorStarts s s1 f [f.a, f.b] m) (ha : s1.vsrc s.cur f.md.ty.width f.a = .ok (a, s2))
    (hb : s2.vsrc s.cur f.md.ty.width f.b = .ok (b, s3))
    (hr : ∀ i, i < 1024 / f.md.ty.width → laneAt r f.md.ty.width i =
      if s.included s.cur f.md.ty.width true i then laneAt a f.md.ty.width i else laneAt b f.md.ty.width i)
    (hput : s3.vput s.cur f.d f.md.ty.width false r = .ok s4) :
    exec (.vsel f) s = .next (Sys2Proof.Claims.vectorLeaves s s4 f m) := by
  obtain ⟨hy, hcur⟩ := vectorStarts_start hstart
  refine State.runVector_leaves hstart ?_
  simp only [hcur, ha, hb, res_ok_bind, lanesOf_zip, range_map_mapIdx, hy.included]
  rw [← hput]
  refine State.vput_ofLanes _ _ _ (laneWidth_type _) _ _ fun i hi _ => ?_
  rw [range_map_getD hi, hr i hi]
  split <;> rw [laneAt_mod]

/-- VDOT4 adds four products of bytes to each 32-bit lane. -/
theorem vdot4_leaves (hstart : Sys2Proof.Claims.vectorStarts s s1 f [f.a, f.b] m) (ha : s1.vsrc s.cur 8 f.a = .ok (a, s2))
    (hb : s2.vsrc s.cur 8 f.b = .ok (b, s3)) (hd : s3.vsrc s.cur 32 f.d = .ok (d, s4))
    (hr : ∀ i, i < 32 → Sys2Proof.Claims.takesPart s f.md.m 32 i → laneAt r 32 i =
      let u := f.md.xmod.getLsbD 0
      let term (j : Nat) : Int := laneInt u 8 (laneAt a 8 (4 * i + j)) * laneInt u 8 (laneAt b 8 (4 * i + j))
      laneOut f.md.sat u 32 (laneInt u 32 (laneAt d 32 i) + term 0 + term 1 + term 2 + term 3))
    (hput : s4.vput s.cur f.d 32 f.md.m r = .ok s5) : exec (.vdot4 f) s = .next (Sys2Proof.Claims.vectorLeaves s s5 f m) := by
  obtain ⟨hy, hcur⟩ := vectorStarts_start hstart
  have hw : LaneWidth 32 := laneWidth_type .i32
  have hy4 := ((hy.trans (.of_vsrc ha)).trans (.of_vsrc hb)).trans (.of_vsrc hd)
  refine State.runVector_leaves hstart ?_
  simp only [hcur, ha, hb, hd, res_ok_bind, lanesOf_mapIdx]
  rw [← hput]
  refine State.vput_ofLanes _ _ _ hw _ _ fun i hi hinc => ?_
  rw [hy4.included, takesPart_iff] at hinc
  rw [range_map_getD hi, ← laneAt_mod r, hr i hi hinc]
  rfl

/-- Settles O14: one-source forms by their lanes, VFMA and VFNMA by theirs, VSEL and VDOT4 each by its own. -/
theorem vectorLaneForms : Obligations.VectorLaneForms := by
  unfold Obligations.VectorLaneForms
  intro f s s1 s2 m a r g w k part done
  have hw : 0 < w := (laneWidth_type f.md.ty).1
  refine ⟨?_, fun b s3 hstart ha hb => ⟨?_, ?_⟩, ?_⟩
  · intro p hp hstart ha hr hg s3 hput
    obtain ⟨op, hexec, hop⟩ := oneLane_all p hp f s
    have hlane {i : Nat} (hi : i < 1024 / w) (hpart : part w i) : ∃ x, p.2 f.md (laneAt a w i) = some x ∧ x.1 = laneAt r w i :=
      Option.map_eq_some_iff.1 (hr i hi hpart)
    show exec (p.1 f) s = _
    rw [hexec]
    refine State.unary_leaves hstart ha (fun i hi hpart => ?_) (fun j => (hg j).trans (exists_congr fun i => ?_)) hput
    · obtain ⟨x, hx, hval⟩ := hlane hi hpart
      rw [(hop _ x (laneAt_lt ..) hx).1, hval, laneAt_mod]
    · refine and_congr_right fun hi => and_congr_right fun hpart => ?_
      obtain ⟨x, hx, -⟩ := hlane hi hpart
      rw [(hop _ x (laneAt_lt ..) hx).2, hx]
      simp
  · intro neg t d s4 s5 ht hd x hr hg hput
    exact vfma_leaves neg ht hstart ha hb hd hr hg hput
  · intro s4 hr hput
    refine vsel_leaves hstart ha hb (fun i hi => ?_) hput
    rw [hr i hi]
    have hbit : s.included s.cur w true i = ((s.core k).vs.getY 0).getLsbD (if w = 16 then i / 2 else if w = 8 then i / 4 else i) := by
      simp [State.included, maskBit, fbit, State.vs, k]
    rw [← hbit]
    split <;> rfl
  · intro b d s3 s4 s5 hstart ha hb hd hr hput
    refine vdot4_leaves hstart ha hb hd (fun i hi hpart => ?_) hput
    rw [hr i hi hpart, laneOf_eq_laneOut]
    simp only [lane_eq_laneInt _ (by decide : 0 < 8) (laneAt_lt ..), lane_eq_laneInt _ (by decide : 0 < 32) (laneAt_lt ..)]

end Sys2Proof.Machine
end

section
/-! Moves, permutations, selections, packing and conversions of lanes, and obligation O15 (18 R334, R340-R346, 04 R82). -/

namespace Sys2Proof.Machine

variable {s s1 s2 s3 s4 s5 : State} {f : FV} {m : Word} {a b d r : Vec} {x y : Word} {g : Sticky}

/-! ### Moves (18 R334) -/

theorem vsplat_leaves (hstart : Sys2Proof.Claims.vectorStarts s s1 f [] m) (hx : s1.src s.cur f.a = .ok (x, s2)) (hlane : f.a ≠ .lane)
    (hr : ∀ i, i < 1024 / f.md.ty.width → laneAt r f.md.ty.width i = x.toNat % 2 ^ f.md.ty.width)
    (hput : s2.vput s.cur f.d f.md.ty.width f.md.m r = .ok s3) :
    exec (.vsplat f) s = .next (Sys2Proof.Claims.vectorLeaves s s3 f m) := by
  obtain ⟨-, hcur⟩ := vectorStarts_start hstart
  refine State.runVector_leaves hstart ?_
  simp only [hcur, hx, res_ok_bind, if_neg hlane, splat]
  rw [← hput]
  refine State.vput_ofLanes _ _ _ (laneWidth_type _) _ _ fun i hi _ => ?_
  simp [hr i hi, hi]

theorem vins_leaves (hstart : Sys2Proof.Claims.vectorStarts s s1 f [] m) (hx : s1.src s.cur f.a = .ok (x, s2))
    (hy : s2.src s.cur (s1.issued s.cur f.b) = .ok (y, s3)) (hd : s3.vsrc s.cur f.md.ty.width f.d = .ok (d, s4))
    (hr : ∀ i, i < 1024 / f.md.ty.width → laneAt r f.md.ty.width i =
      if i = y.toNat % (1024 / f.md.ty.width) then x.toNat % 2 ^ f.md.ty.width else laneAt d f.md.ty.width i)
    (hput : s4.vput s.cur f.d f.md.ty.width false r = .ok s5) :
    exec (.vins f) s = .next (Sys2Proof.Claims.vectorLeaves s s5 f m) := by
  obtain ⟨-, hcur⟩ := vectorStarts_start hstart
  refine State.runVector_leaves hstart ?_
  simp only [hcur, hx, hy, hd, res_ok_bind, lanesOf_mapIdx]
  rw [← hput]
  refine State.vput_ofLanes _ _ _ (laneWidth_type _) _ _ fun i hi _ => ?_
  rw [range_map_getD hi, ← hr i hi, laneAt_mod]

theorem vmovx_leaves (hstart : Sys2Proof.Claims.vectorStarts s s1 f [f.a] m) (ha : s1.vsrc s.cur f.md.ty.width f.a = .ok (a, s2))
    (hy : s2.src s.cur (s1.issued s.cur f.b) = .ok (y, s3))
    (hput : s3.put s.cur f.d (BitVec.ofInt 64 (Sys2Proof.Claims.lane (!f.md.xmod.getLsbD 0) f.md.ty.width
      (laneAt a f.md.ty.width (y.toNat % (1024 / f.md.ty.width))))) = .ok s4) :
    exec (.vmovx f) s = .next (Sys2Proof.Claims.vectorLeaves s s4 f m) := by
  obtain ⟨-, hcur⟩ := vectorStarts_start hstart
  rw [lane_eq_laneInt _ (laneWidth_type _).1 (laneAt_lt ..)] at hput
  refine State.runVector_leaves hstart ?_
  simp only [hcur, ha, hy, res_ok_bind]
  exact hput

/-! ### Permutations (18 R341) -/

/-- A permuted vector is put as its lanes say. -/
theorem State.vput_permuted (s : State) (k : Nat) (o : Opnd) (mask : Bool) (ty : VTy) {p : Nat → Nat}
    (hr : ∀ i, i < 1024 / ty.width → laneAt r ty.width i = laneAt a ty.width (p i)) :
    s.vput k o ty.width mask (permuted a ty.width p) = s.vput k o ty.width mask r :=
  State.vput_ofLanes _ _ _ (laneWidth_type _) _ _ fun i hi _ => by rw [range_map_getD hi, hr i hi, laneAt_mod]

theorem vperm_leaves (hstart : Sys2Proof.Claims.vectorStarts s s1 f [f.a, f.b] m) (ha : s1.vsrc s.cur f.md.ty.width f.a = .ok (a, s2))
    (hb : s2.vsrc s.cur f.md.ty.width f.b = .ok (b, s3))
    (hr : ∀ i, i < 1024 / f.md.ty.width → laneAt r f.md.ty.width i =
      laneAt a f.md.ty.width (laneAt b f.md.ty.width i % (1024 / f.md.ty.width)))
    (hput : s3.vput s.cur f.d f.md.ty.width f.md.m r = .ok s4) :
    exec (.vperm f) s = .next (Sys2Proof.Claims.vectorLeaves s s4 f m) := by
  obtain ⟨-, hcur⟩ := vectorStarts_start hstart
  refine State.runVector_leaves hstart ?_
  simp only [hcur, ha, hb, res_ok_bind]
  exact (State.vput_permuted _ _ _ _ _ hr).trans hput

theorem rotated_toNat {n : Nat} (hn : 0 < n) (i : Nat) (z : Int) : (((i : Int) + z) % n).toNat = (i + (z % n).toNat) % n := by
  have hn' : (n : Int) ≠ 0 := by omega
  zify
  rw [Int.toNat_of_nonneg (Int.emod_nonneg _ hn'), Int.toNat_of_nonneg (Int.emod_nonneg _ hn'), Int.add_emod_emod]

theorem vrot_leaves (hstart : Sys2Proof.Claims.vectorStarts s s1 f [f.a] m) (ha : s1.vsrc s.cur f.md.ty.width f.a = .ok (a, s2))
    (hy : s2.src s.cur (s1.issued s.cur f.b) = .ok (y, s3))
    (hr : ∀ i, i < 1024 / f.md.ty.width → laneAt r f.md.ty.width i =
      laneAt a f.md.ty.width ((((i : Int) + y.toInt) % (1024 / f.md.ty.width : Nat)).toNat))
    (hput : s3.vput s.cur f.d f.md.ty.width f.md.m r = .ok s4) :
    exec (.vrot f) s = .next (Sys2Proof.Claims.vectorLeaves s s4 f m) := by
  obtain ⟨-, hcur⟩ := vectorStarts_start hstart
  refine State.runVector_leaves hstart ?_
  simp only [hcur, ha, hy, res_ok_bind]
  refine (State.vput_permuted _ _ _ _ _ fun i hi => ?_).trans hput
  rw [hr i hi, rotated_toNat (by omega)]
  rfl

theorem vbcast_leaves (hstart : Sys2Proof.Claims.vectorStarts s s1 f [f.a] m) (ha : s1.vsrc s.cur f.md.ty.width f.a = .ok (a, s2))
    (hy : s2.src s.cur (s1.issued s.cur f.b) = .ok (y, s3))
    (hr : ∀ i, i < 1024 / f.md.ty.width → laneAt r f.md.ty.width i = laneAt a f.md.ty.width (y.toNat % (1024 / f.md.ty.width)))
    (hput : s3.vput s.cur f.d f.md.ty.width f.md.m r = .ok s4) :
    exec (.vbcast f) s = .next (Sys2Proof.Claims.vectorLeaves s s4 f m) := by
  obtain ⟨-, hcur⟩ := vectorStarts_start hstart
  refine State.runVector_leaves hstart ?_
  simp only [hcur, ha, hy, res_ok_bind]
  exact (State.vput_permuted _ _ _ _ _ hr).trans hput

/-! ### Packing (18 R344) -/

theorem vpack_leaves (hw : 16 ≤ f.md.ty.width) (hstart : Sys2Proof.Claims.vectorStarts s s1 f [f.a, f.b] m)
    (ha : s1.vsrc s.cur f.md.ty.width f.a = .ok (a, s2)) (hb : s2.vsrc s.cur f.md.ty.width f.b = .ok (b, s3))
    (hr : ∀ i, i < 2 * (1024 / f.md.ty.width) → laneAt r (f.md.ty.width / 2) i =
      laneOut f.md.sat false (f.md.ty.width / 2) (laneInt false f.md.ty.width (if i < 1024 / f.md.ty.width then laneAt a f.md.ty.width i
        else laneAt b f.md.ty.width (i - 1024 / f.md.ty.width))))
    (hput : s3.vput s.cur f.d (f.md.ty.width / 2) f.md.m r = .ok s4) :
    exec (.vpack f) s = .next (Sys2Proof.Claims.vectorLeaves s s4 f m) := by
  obtain ⟨-, hcur⟩ := vectorStarts_start hstart
  have hhalf : LaneWidth (f.md.ty.width / 2) ∧ 1024 / (f.md.ty.width / 2) = 2 * (1024 / f.md.ty.width) := by
    unfold LaneWidth
    rcases width_cases f.md.ty with h | h | h | h <;> rw [h] at hw ⊢ <;> revert hw <;> decide
  refine State.runVector_leaves hstart ?_
  simp only [hcur, ha, hb, res_ok_bind]
  rw [← hput]
  refine State.vput_ofLanes _ _ _ hhalf.1 _ _ fun i hi _ => ?_
  rw [hhalf.2] at hi
  rw [← laneAt_mod r, hr i hi]
  congr 1
  rw [List.map_append, List.getD_eq_getElem?_getD, List.getElem?_append]
  simp only [List.length_map, lanesOf_length, List.getElem?_map]
  split
  · next h => simp [lanesOf, h]
  · next h => simp [lanesOf, show i - 1024 / f.md.ty.width < 1024 / f.md.ty.width by omega]

theorem vunpk_leaves (hw : f.md.ty.width ≤ 32) (hstart : Sys2Proof.Claims.vectorStarts s s1 f [f.a] m)
    (ha : s1.vsrc s.cur f.md.ty.width f.a = .ok (a, s2))
    (hr : ∀ i, i < 1024 / (2 * f.md.ty.width) → laneAt r (2 * f.md.ty.width) i =
      narrow (2 * f.md.ty.width) (laneInt (f.md.xmod.getLsbD 0) f.md.ty.width
        (laneAt a f.md.ty.width (if f.md.xmod.getLsbD 1 then i + 1024 / (2 * f.md.ty.width) else i))))
    (hput : s2.vput s.cur f.d (2 * f.md.ty.width) f.md.m r = .ok s3) :
    exec (.vunpk f) s = .next (Sys2Proof.Claims.vectorLeaves s s3 f m) := by
  obtain ⟨-, hcur⟩ := vectorStarts_start hstart
  have hdouble : LaneWidth (2 * f.md.ty.width) := by
    unfold LaneWidth
    rcases width_cases f.md.ty with h | h | h | h <;> rw [h] at hw ⊢ <;> revert hw <;> decide
  refine State.runVector_leaves hstart ?_
  simp only [hcur, ha, res_ok_bind]
  rw [← hput]
  refine State.vput_ofLanes _ _ _ hdouble _ _ fun i hi _ => ?_
  rw [range_map_getD hi, ← laneAt_mod r, hr i hi]
  rfl

/-! ### Selections (18 R345-R346) -/

/-- The lanes that a selection keeps. -/
def keptLanes (p : Nat → Bool) (n : Nat) : List Nat := (List.range n).filter p

theorem keptLanes_getElem? (p : Nat → Bool) {n i : Nat} (hi : i < n) (hp : p i = true) :
    (keptLanes p n)[(List.range i).countP p]? = some i := by
  induction n with
  | zero => omega
  | succ n ih =>
    have hsplit : keptLanes p (n + 1) = keptLanes p n ++ [n].filter p := by rw [keptLanes, List.range_succ, List.filter_append]; rfl
    rw [hsplit]
    rcases Nat.lt_succ_iff_lt_or_eq.1 hi with hlt | rfl
    · have h := ih hlt
      rwa [List.getElem?_append_left (List.getElem?_eq_some_iff.1 h).1]
    · rw [List.countP_eq_length_filter, ← keptLanes, List.getElem?_append_right le_rfl]
      simp [hp]

/-- A kept lane stands where as many are kept below it. -/
theorem keptLanes_idxOf? (p : Nat → Bool) {n i : Nat} (hi : i < n) :
    (keptLanes p n).idxOf? i = if p i = true then some ((List.range i).countP p) else none := by
  split
  · next hp =>
    obtain ⟨hlt, hget⟩ := List.getElem?_eq_some_iff.1 (keptLanes_getElem? p hi hp)
    refine List.idxOf?_eq_some_iff.2 ⟨hlt, hget, fun j hj hji => hj.ne ?_⟩
    exact (List.Nodup.getElem_inj_iff (List.nodup_range.filter _)).1 (hji.trans hget.symm)
  · next hp => exact List.idxOf?_eq_none_iff.2 fun hmem => hp (List.mem_filter.1 hmem).2

theorem filterMap_ite (p : Nat → Bool) (g : Nat → Nat) (l : List Nat) :
    (l.map fun i => if p i = true then some (g i) else none).filterMap id = (l.filter p).map g := by
  induction l with
  | nil => rfl
  | cons i l ih => cases hp : p i <;> simp [hp, ← ih]

theorem expand_getD (sel : Nat → Bool) (l : List Nat) (i0 : Nat) (src : List Nat) {i : Nat} (hi : i < l.length) :
    (expand sel i0 src l).getD i 0 = if sel (i0 + i) = true then src.getD ((List.range i).countP fun j => sel (i0 + j)) 0 else 0 := by
  induction l generalizing i0 src i with
  | nil => simp at hi
  | cons x l ih =>
    have hcount (i : Nat) : (List.range (i + 1)).countP (fun j => sel (i0 + j)) =
        (List.range i).countP (fun j => sel (i0 + 1 + j)) + if sel i0 = true then 1 else 0 := by
      rw [List.range_succ_eq_map, List.countP_cons, List.countP_map]
      simp only [Function.comp_def, Nat.succ_eq_add_one, add_zero, add_right_comm i0 1, add_assoc]
    cases i with
    | zero => cases hsel : sel i0 <;> cases src <;> simp [expand, hsel]
    | succ i =>
      have h (t : List Nat) := ih (i0 + 1) t (i := i) (by simpa using hi)
      rw [hcount, show i0 + (i + 1) = i0 + 1 + i by omega]
      cases hsel : sel i0
      · simpa [expand, hsel] using h src
      · cases src with
        | nil => simpa [expand, hsel] using h []
        | cons y src => simpa [expand, hsel] using h src

theorem vcmpr_leaves (hstart : Sys2Proof.Claims.vectorStarts s s1 f [f.a] m) (ha : s1.vsrc s.cur f.md.ty.width f.a = .ok (a, s2))
    (hr : ∀ i, i < 1024 / f.md.ty.width → laneAt r f.md.ty.width i =
      (((keptLanes (s.included s.cur f.md.ty.width true) (1024 / f.md.ty.width))[i]?).map (laneAt a f.md.ty.width)).getD 0)
    (hput : s2.vput s.cur f.d f.md.ty.width false r = .ok s3) :
    exec (.vcmpr f) s = .next (Sys2Proof.Claims.vectorLeaves s s3 f m) := by
  obtain ⟨hy, hcur⟩ := vectorStarts_start hstart
  refine State.runVector_leaves hstart ?_
  simp only [hcur, ha, res_ok_bind, State.taking, lanesOf_mapIdx, hy.included, filterMap_ite]
  rw [← hput]
  refine State.vput_ofLanes _ _ _ (laneWidth_type _) _ _ fun i hi _ => ?_
  rw [← laneAt_mod r, hr i hi, List.getD_eq_getElem?_getD, List.getElem?_map]
  rfl

theorem vexpd_leaves (hstart : Sys2Proof.Claims.vectorStarts s s1 f [f.a] m) (ha : s1.vsrc s.cur f.md.ty.width f.a = .ok (a, s2))
    (hr : ∀ i, i < 1024 / f.md.ty.width → laneAt r f.md.ty.width i =
      (((keptLanes (s.included s.cur f.md.ty.width true) (1024 / f.md.ty.width)).idxOf? i).map (laneAt a f.md.ty.width)).getD 0)
    (hput : s2.vput s.cur f.d f.md.ty.width false r = .ok s3) :
    exec (.vexpd f) s = .next (Sys2Proof.Claims.vectorLeaves s s3 f m) := by
  obtain ⟨hy, hcur⟩ := vectorStarts_start hstart
  have hinc : s1.included s.cur f.md.ty.width true = s.included s.cur f.md.ty.width true := funext fun i => hy.included ..
  refine State.runVector_leaves hstart ?_
  simp only [hcur, ha, res_ok_bind, hinc]
  rw [← hput]
  refine State.vput_ofLanes _ _ _ (laneWidth_type _) _ _ fun i hi _ => ?_
  rw [← laneAt_mod r, hr i hi, keptLanes_idxOf? _ hi, expand_getD _ _ _ _ (by rwa [lanesOf_length])]
  have hcount : (List.range i).countP (s.included s.cur f.md.ty.width true) < 1024 / f.md.ty.width :=
    (List.countP_le_length.trans_eq List.length_range).trans_lt hi
  simp only [zero_add]
  split
  · rw [lanesOf, range_map_getD hcount]
    rfl
  · rfl

theorem orAll_getLsbD (l : List Word) (b : Nat) : (l.foldl (fun r x => r ||| x) 0).getLsbD b = true ↔ ∃ v ∈ l, v.getLsbD b = true := by
  have hfold (g : Word) : (l.foldl (fun r x => r ||| x) g).getLsbD b = true ↔ g.getLsbD b = true ∨ ∃ v ∈ l, v.getLsbD b = true := by
    induction l generalizing g with
    | nil => simp
    | cons v l ih => simp [ih, or_assoc]
  simpa using hfold 0

theorem vlanem_leaves (hstart : Sys2Proof.Claims.vectorStarts s s1 f [f.a] m) (ha : s1.vsrc s.cur f.md.ty.width f.a = .ok (a, s2))
    (hx : ∀ b, b < 64 → (x.getLsbD b = true ↔ ∃ i, i < 1024 / f.md.ty.width ∧ laneAt a f.md.ty.width i ≠ 0 ∧
      b = (if f.md.ty.width = 16 then i / 2 else if f.md.ty.width = 8 then i / 4 else i)))
    (hput : s2.put s.cur f.d x = .ok s3) : exec (.vlanem f) s = .next (Sys2Proof.Claims.vectorLeaves s s3 f m) := by
  obtain ⟨-, hcur⟩ := vectorStarts_start hstart
  refine State.runVector_leaves hstart ?_
  simp only [hcur, ha, res_ok_bind, lanesOf_mapIdx]
  rw [← hput]
  congr 1
  refine BitVec.eq_of_getLsbD_eq fun b hb => Bool.eq_iff_iff.2 ((orAll_getLsbD _ b).trans ((hx b hb).trans ?_).symm)
  have hbit (c : Nat) : ((1#64 <<< c : Word)).getLsbD b = true ↔ b = c := by
    simp [hb]
    omega
  simp only [List.mem_map, List.mem_range]
  constructor
  · rintro ⟨i, hi, h0, hc⟩
    exact ⟨_, ⟨i, hi, rfl⟩, by rw [if_pos h0]; exact (hbit _).2 hc⟩
  · rintro ⟨_, ⟨i, hi, rfl⟩, hv⟩
    by_cases h0 : laneAt a f.md.ty.width i ≠ 0
    · rw [if_pos h0] at hv
      exact ⟨i, hi, h0, (hbit _).1 hv⟩
    · rw [if_neg h0] at hv
      simp at hv

/-! ### Conversions (18 R340, 04 R82) -/

theorem vcvt_leaves {src : VTy} (hsrc : f.md.srcTy = some src) (hstart : Sys2Proof.Claims.vectorStarts s s1 f [f.a] m)
    (ha : s1.vsrc s.cur src.width f.a = .ok (a, s2))
    (hr : ∀ i, i < 1024 / f.md.ty.width → Sys2Proof.Claims.takesPart s f.md.m f.md.ty.width i → laneAt r f.md.ty.width i =
      if i < 1024 / src.width then (convertLane src f.md.ty f.md.rm f.md.sat (laneAt a src.width i)).1 else 0)
    (hg : ∀ j, g.getLsbD j = true ↔ ∃ i, i < 1024 / f.md.ty.width ∧ i < 1024 / src.width ∧ Sys2Proof.Claims.takesPart s f.md.m f.md.ty.width i ∧
      (convertLane src f.md.ty f.md.rm f.md.sat (laneAt a src.width i)).2.getLsbD j = true)
    (hput : s2.vput s.cur f.d f.md.ty.width f.md.m r = .ok s3) :
    exec (.vcvt f) s = .next (Sys2Proof.Claims.vectorLeaves s (s3.raise s.cur g) f m) := by
  obtain ⟨hy, hcur⟩ := vectorStarts_start hstart
  refine State.runVector_leaves hstart ?_
  have hlist : (fun i => if i < 1024 / src.width ∧ s.included s.cur f.md.ty.width f.md.m i = true then
        convertLane src f.md.ty f.md.rm f.md.sat (laneAt a src.width i) else (0, 0)) =
      fun i => if s.included s.cur f.md.ty.width f.md.m i = true then
        if i < 1024 / src.width then convertLane src f.md.ty f.md.rm f.md.sat (laneAt a src.width i) else (0, 0) else (0, 0) := by
    funext i
    by_cases h : i < 1024 / src.width <;> simp [h]
  simp only [hcur, hsrc, Option.getD_some, ha, res_ok_bind, hy.included, hlist]
  refine State.deliverLanes_range (laneWidth_type _) ((hy.trans (.of_vsrc ha)).included _ _) (fun i hi hinc => ?_) (fun j => ?_) hput
  · rw [← laneAt_mod r, hr i hi ((takesPart_iff ..).1 hinc)]
    split <;> rfl
  · refine (hg j).trans (exists_congr fun i => and_congr_right fun hi => ?_)
    rw [takesPart_iff]
    by_cases h : i < 1024 / src.width <;> simp [h]

theorem width_ofVTy {ty : VTy} {t : Fmt} (h : Fmt.ofVTy ty = some t) : t.width = ty.width := by
  cases ty <;> cases h <;> rfl

/-- A converted lane as 04 R82 gives it: .SAT has no bearing on a conversion to a wider type. -/
theorem convertLane_eq (src dst : VTy) (rm : RM) (sat : Bool) {x : Nat} (hx : x < 2 ^ src.width) : convertLane src dst rm sat x =
    match Fmt.ofVTy src, Fmt.ofVTy dst with
    | some t, some u => cvtFloat u rm (sat && decide (dst.width ≤ src.width)) (t.decode x)
    | some t, none => cvtToInt true dst.width rm sat (t.decode x)
    | none, some u => cvtFromInt u rm sat (Sys2Proof.Claims.lane false src.width x)
    | none, none => (Sys2Proof.Claims.laneOf (sat && decide (dst.width ≤ src.width)) false dst.width (Sys2Proof.Claims.lane false src.width x), 0) := by
  have hlane := lane_eq_laneInt false (laneWidth_type src).1 hx
  unfold convertLane
  cases hs : Fmt.ofVTy src with
  | some t => cases hd : Fmt.ofVTy dst with
    | some u => simp only [cvtFmt, width_ofVTy hs, width_ofVTy hd]
    | none => rfl
  | none => cases hd : Fmt.ofVTy dst with
    | some u => simp only [hlane]
    | none =>
      simp only [hlane, laneOf_eq_laneOut, cvtInt, laneOut, Bool.and_eq_true, decide_eq_true_eq]
      rfl

/-- Settles O15: each instruction by what its lanes are made of. -/
theorem vectorMovesAndConversions : Obligations.VectorMovesAndConversions := by
  unfold Obligations.VectorMovesAndConversions
  intro f s s1 s2 m r w n k part done
  have hw : 0 < w := (laneWidth_type f.md.ty).1
  have hlane (u : Bool) (v : Vec) (i : Nat) : Sys2Proof.Claims.lane u w (laneAt v w i) = laneInt u w (laneAt v w i) :=
    lane_eq_laneInt u hw (laneAt_lt ..)
  refine ⟨fun x hstart hx => ⟨?vsplat, ?vins⟩, fun a hstart ha => ⟨fun b s3 hb => ⟨?vmovx, ?vrot, ?vbcast⟩, ?vunpk, ?select, ?vlanem⟩,
    fun a b s3 s4 hstart ha hb => ⟨?vperm, ?vpack⟩, ?vcvt⟩
  case vsplat => exact fun s3 hl hr hput => vsplat_leaves hstart hx hl hr hput
  case vins => exact fun b d s3 s4 s5 hb hd hr hput => vins_leaves hstart hx hb hd hr hput
  case vmovx => exact fun s4 hput => vmovx_leaves hstart ha hb hput
  case vrot => exact fun s4 hr hput => vrot_leaves hstart ha hb hr hput
  case vbcast => exact fun s4 hr hput => vbcast_leaves hstart ha hb hr hput
  case vunpk =>
    intro s3 hr hle hput
    refine vunpk_leaves hle hstart ha (fun i hi => ?_) hput
    rw [hr i hi, hlane]
    rfl
  case select =>
    intro kept
    have hkept : kept = keptLanes (s.included s.cur w true) n := by
      refine List.filter_congr fun i _ => ?_
      simp [State.included, maskBit, fbit, State.vs, k]
    refine ⟨fun s3 hr hput => vcmpr_leaves hstart ha (fun i hi => ?_) hput, fun s3 hr hput => vexpd_leaves hstart ha (fun i hi => ?_) hput⟩
    · rw [hr i hi, ← hkept]
      cases kept[i]? <;> rfl
    · rw [hr i hi, ← hkept]
      cases kept.idxOf? i <;> rfl
  case vlanem => exact fun x s3 hx hput => vlanem_leaves hstart ha hx hput
  case vperm => exact fun hr hput => vperm_leaves hstart ha hb hr hput
  case vpack =>
    intro hr hle hput
    refine vpack_leaves hle hstart ha hb (fun i hi => ?_) hput
    rw [hr i hi, laneOf_eq_laneOut]
    split <;> rw [hlane]
  case vcvt =>
    intro a src g s3 hsrc hstart ha hlanes hput
    have hconv (i : Nat) := convertLane_eq src f.md.ty f.md.rm f.md.sat (laneAt_lt a src.width i)
    refine vcvt_leaves hsrc hstart ha (fun i hi hpart => (hlanes.1 i hi hpart).trans ?_) (fun j => (hlanes.2 j).trans ?_) hput
    · exact congrArg (fun y : Nat × Sticky => if i < 1024 / src.width then y.1 else 0) (hconv i).symm
    · exact exists_congr fun i => and_congr_right fun _ => and_congr_right fun _ => and_congr_right fun _ =>
        iff_of_eq (congrArg (fun y : Nat × Sticky => y.2.getLsbD j = true) (hconv i).symm)

end Sys2Proof.Machine
end

section
/-! A scan over a table of cores that is not in canonical form, and obligation O50 (18 R330, R342). -/

namespace Sys2Proof.Machine

/-- Core 0 has a turn at code that it may fetch, and its entry stands behind that of core 1. A table in canonical form (`Table.wf`) has its keys
rising, and the writes keep that form; O50 speaks of every state and does not ask for it. -/
def coresOutOfOrder : State :=
  { State.reset with cores := [(1, Core.fresh), (0, { Core.fresh with pc := 0x10000, pcc := codeCap 0x10000 4 })] }

/-- VSCANADD with .S of v0, which it does not stream, into x0, which VPut does not write. -/
def scanOfNothingStreamed : FV := ⟨false, 0, ⟨.i32, .rne, false, false, true, 0⟩, .x 0, .v 0, .x 0⟩

theorem laneAt_zero (w i : Nat) : laneAt 0#1024 w i = 0 := by
  rw [laneAt, BitVec.toNat_zero, Nat.zero_div, Nat.zero_mod]

theorem coresOutOfOrder_starts : Sys2Proof.Claims.vectorStarts coresOutOfOrder coresOutOfOrder scanOfNothingStreamed [.v 0] 0 :=
  ⟨by decide +kernel, by decide +kernel, by decide +kernel, coresOutOfOrder, rfl, rfl, rfl⟩

/-- The scan raises no bit, and in doing so writes core 0 anew before the entries that stand. -/
theorem exec_vscanadd_coresOutOfOrder : ∃ t, exec (.vscanadd scanOfNothingStreamed) coresOutOfOrder = .next t ∧ t.cores.length = 3 :=
  ⟨_, rfl, by decide +kernel⟩

/-- Refutes O50: an integer VSCANADD need not leave what its VPut left. FSTAT takes its bits, none, by a write of the core, which changes a table
of cores that names another core first; O50 leaves that write out where the type is an integer type. -/
theorem not_reductionsAndStreams : ¬ Obligations.ReductionsAndStreams := by
  unfold Obligations.ReductionsAndStreams
  rintro ⟨reductions, -⟩
  obtain ⟨-, scan, -⟩ := reductions scanOfNothingStreamed coresOutOfOrder coresOutOfOrder coresOutOfOrder 0 0 coresOutOfOrder_starts rfl
  have hscan := scan 0 coresOutOfOrder rfl (fun i _ _ => by simp [laneAt_zero, scanOfNothingStreamed]) rfl
  obtain ⟨t, ht, hlength⟩ := exec_vscanadd_coresOutOfOrder
  obtain rfl := Host.Outcome.next.inj (ht.symm.trans hscan)
  exact absurd hlength (by decide)

end Sys2Proof.Machine
end
